-- ==== Sys2Proof/Word.lean ====
section
/-! DEFINITION. The word types of the device and their plainest arithmetic (R5, R6). -/
namespace Sys2Proof

/-- A register of the device: 32 bits (R6). -/
abbrev Word := BitVec 32

/-- One byte of memory. -/
abbrev Byte := BitVec 8

/-- A 64-bit count, such as herd time (R16). -/
abbrev DWord := BitVec 64

/-- The natural number n as a word, modulo 2^32. -/
abbrev w32 (n : Nat) : Word := BitVec.ofNat 32 n

end Sys2Proof
end

