-- ==== Sys2Proof/Syntax.lean ====
section
/-! DEFINITION. The commands of the device: one constructor for each row of spec/opcode_table.json, with its operands. A
command is an access by a requester, an event of the device's surroundings (with what the surroundings give it), or a step
that a unit takes on its own. Its docstring names the rule that the table gives. -/
namespace Sys2Proof

/-- Who makes an access to the device's address map (R6, R296, R386, R511, R572; R174 for a line script). -/
inductive Req where
  | yoke (y : Nat)
  | jtag
  | loader
  | peer
  | channel (n : Nat)
  | script (h : Nat)
  deriving DecidableEq, Repr

/-- What the memory code finds in one stored word or copy (R457, R458, R474, R475). -/
inductive CopyCond where
  | good | oneSymbol | bad
  deriving DecidableEq, Repr

/-- A frame of the Drove link as the device takes it or sends it (R493): its type, stream, sequence number, tag, EOM, credits
returned, sequence number acknowledged, and payload. -/
structure DrvFrame where
  ty : Nat := 0
  stream : Nat := 0
  seq : Nat := 0
  tag : Word := 0
  eom : Bool := false
  cr : Option (Nat × Nat) := none
  ack : Option Nat := none
  payload : List Byte := []
  deriving DecidableEq, Repr

/-- An alignment marker of the Drove link as it arrives (R490, R491): the physical lane, bytes 0 to 7, and its arrival after the edge of the
forwarded clock that it belongs to, in ps. -/
structure RxMark where
  lane : Nat := 0
  word : DWord := 0
  skew : Int := 0
  deriving DecidableEq, Repr

/-- A command of the device. -/
inductive Instr where
  /-- R12. A register write to a field that has no row of its own is performed according to its access type, or refused as a whole. -/
  | regWrite (q : Req) (off : Nat) (width : Nat) (v : Word)
  /-- R26. A write of TO_DRAUGHT starts the move to Draught regime, or refuses it when any cell is twin. -/
  | toDraught (q : Req) (v : Word)
  /-- R31. A MODE write changes RAIL_CAP, CKPT_INTERVAL and SCRUB whole, or is refused and sets FIELD_REFUSED. -/
  | modeWrite (q : Req) (v : Word)
  /-- R93. At the end of each 100 µs review window the steward requests one rail step, up after a low-slack line or down toward a lowered cap. -/
  | railReviewWindow
  /-- R94. After 1 s with no miss and ample slack, the steward requests a -10 mV step of the array rail. -/
  | railStepDown
  /-- R98. Every 100 µs the steward raises the array rail by 10 mV toward the twin floor. -/
  | twinFloorStep
  /-- R555. The regulator reports VDone, and the steward enters the read-back level in RAIL_STATUS. -/
  | avsVdone (lvl : Fin 26)
  /-- R555. A negative acknowledgement, or no VDone within 50 µs, sets AVS_ERR. -/
  | avsTimeout
  /-- R288. 1 ms after an AVS_ERR, the steward repeats the AVSBus request. -/
  | avsRetry
  /-- R62. The loader chooses a slot, updates FAIL_COUNT and FALLBACK, and starts reading the image. -/
  | loadStart (slotPoison : Bool)
  /-- R66. The read, digest, signature and record checks end, and the image is either applied or refused with a code. -/
  | loadCheckDone (slotPoison : Bool)
  /-- R65. The records are applied, GLOBAL_GEN becomes 1, LOADED sets, and the yokes start. -/
  | loadDone
  /-- R67. STAGE_CMD VERIFY runs the load checks on the staged image. -/
  | verify (q : Req)
  /-- R67. STAGE_CMD PROGRAM_A verifies the staged image, then erases, writes and reads back slot A. -/
  | programA (q : Req)
  /-- R67. STAGE_CMD PROGRAM_B verifies the staged image, then erases, writes and reads back slot B. -/
  | programB (q : Req)
  /-- R67. STAGE_CMD PROGRAM_GOLDEN programs the golden slot, or fails while GOLDEN_WP is 1. -/
  | programGolden (q : Req)
  /-- R67. A staging command ends, and DONE or FAIL sets with its code. -/
  | stageCmdDone (bad : Bool)
  /-- R64. A write of OK confirms the boot and clears FAIL_COUNT while FALLBACK is clear. -/
  | bootOk (q : Req) (v : Word)
  /-- R64. A SLOT_CTRL write sets SLOT and GOLDEN_WP in the keep store and clears FAIL_COUNT, or is refused as a whole. -/
  | slotCtrlWrite (q : Req) (v : Word)
  /-- R78. A MIN_SERIAL write raises the least accepted serial, within the limits the register gives. -/
  | minSerialWrite (q : Req) (v : Word)
  /-- R78. A KEY_REVOKE write revokes key slots for good, unless no usable slot would remain. -/
  | keyRevokeWrite (q : Req) (v : Word)
  /-- R78. A KEY_HASH word is held, and the 12 words of the slot commit as one keep record when word 11 is written. -/
  | keyHashWrite (q : Req) (k : Fin 4) (j : Fin 12) (v : Word)
  /-- R71. A REPEN_CTRL write with GO checks the request, journals START and sets BUSY. -/
  | repenRequest (q : Req) (v : Word)
  /-- R74. At the first line start, or the first frame start with ALIGN, the flock's slots turn transparent and its cells stop building. -/
  | repenBlank
  /-- R74. The flock config store has been rewritten from the variant. -/
  | repenStoreRewritten
  /-- R74. Every cell has loaded from the config store and taken the new generation stamp; `lost` names the posts whose entry was uncorrectable. -/
  | repenCellsLoaded (lost : List Nat := [])
  /-- R76. The probe lines of the re-pen are checked, and a cell that fails is retired in favour of the spare. -/
  | repenProbeDone (bad : List Nat) (spareOk : Bool)
  /-- R74. The flock's slots return with the new entries, the journal records DONE, and PEN_VARIANT is updated. -/
  | repenRejoin
  /-- R83. A cell with a free buffer starts building a released line, after applying staged writes and sampling its registers. -/
  | cellLineStart (f : Fin 16) (p : Fin 8) (l : Fin 2) (evict : List Nat) (late : Nat)
  /-- R87. A cell completes a line `lead` ps before its deadline and records the line's slack and CRC; `pal` places palette writes in the line. -/
  | cellLineDone (f : Fin 16) (p : Fin 8) (lead : Nat) (spare : Option Word) (pal : List Nat := [])
  /-- R88. At D(n) a line that is not complete is abandoned, CELL_MISS steps, and the MISS event fires. -/
  | lineMissed (f : Fin 16) (p : Fin 8) (l : Fin 2)
  /-- R90. At (first blanking line, 0) each cell latches its frame statistics and starts new ones. -/
  | statsLatch (h : Fin 8)
  /-- R127. A CACHE_CTRL.INV write discards the cell's whole cache before the next line it starts. -/
  | cacheInv (f : Fin 16) (p : Fin 8) (l : Fin 2)
  /-- R134. A RELOAD write makes the cell copy the sprite table again before its next line. -/
  | sprReload (f : Fin 16) (p : Fin 8) (l : Fin 2)
  /-- R152. A collision record is written to the ring, COLL_WR steps, and COLL and SPRITE_COLL fire, or the record is dropped when the ring is full. -/
  | collRecordWrite (f : Fin 16) (p : Fin 8) (l : Fin 2)
  /-- R227. A write of 1 to ARM arms a framebuffer flip. -/
  | fbFlipArm (f : Fin 16) (p : Fin 8) (l : Fin 2)
  /-- R158. At E(k) the engine chooses the frame's bank, latches statistics and starts the script. -/
  | lsDecisionPoint (h : Fin 8)
  /-- R168. The END verb ends the frame's script. -/
  | lsEnd (h : Fin 8) (poison : Bool)
  /-- R169. The WAIT verb moves the placement, or sets WAIT_BACK. -/
  | lsWait (h : Fin 8)
  /-- R170. The WR verb stages N register writes at the present placement. -/
  | lsWr (h : Fin 8)
  /-- R168. The MASK verb stages a masked write of a register. -/
  | lsMask (h : Fin 8)
  /-- R168. The ADD verb stages an addition to a register. -/
  | lsAdd (h : Fin 8)
  /-- R171. The FETCH verb reads N words from memory and stages them as writes. -/
  | lsFetch (h : Fin 8)
  /-- R172. The REP verb opens a loop of COUNT passes. -/
  | lsRep (h : Fin 8)
  /-- R172. The NEXT verb closes a pass of the loop. -/
  | lsNext (h : Fin 8)
  /-- R177. The BANK verb requests a bank for the next frame. -/
  | lsBank (h : Fin 8)
  /-- R173. The SIGNAL verb schedules a signal at the present placement. -/
  | lsSignal (h : Fin 8)
  /-- R173. The compositor reaches a SIGNAL placement, which sets SIGk and fires LS_SIGk. -/
  | lsSignalReached (h : Fin 8)
  /-- R177. An LS_BANK_REQ write with GO sets a bank request. -/
  | lsBankReq (h : Fin 8) (v : Word)
  /-- R181. The compositor begins to read line n of every slot, with transparent slots for lines that are missing; `lost` names uncorrectable table entries. -/
  | compLineStart (h : Fin 8) (lost : List Nat := [])
  /-- R181. The compositor finishes reading a line and frees each cell's buffer. -/
  | compLineEnd (h : Fin 8)
  /-- R182. A pixel that has not arrived by its instant is sent as 0, LATE sets and COMP_LATE steps. -/
  | compPixelLate (h : Fin 8) (x : Nat)
  /-- R213. HEAD_CMD START begins the start sequence of a head. -/
  | headStart (h : Fin 8)
  /-- R212. HEAD_CMD STOP moves a head to STOPPED at the end of the frame's active lines. -/
  | headStop (h : Fin 8)
  /-- R212. HEAD_CMD STANDBY stops the head and powers down its PHY and generator. -/
  | headStandby (h : Fin 8)
  /-- R213. The PHY is up and the link trained, or HPD is low, which ends step 2 of the start. -/
  | headLinkReady (h : Fin 8) (hpd : Bool)
  /-- R208. The timing generator reaches (0, 0) of frame k at Fs(k), setting FRAME and firing FRAME_START. -/
  | headFrameStart (h : Fin 8)
  /-- R210. At (T - 7, 0) the generator predicts the next frame start and relocks when herd time has stepped. -/
  | headFramePredict (h : Fin 8)
  /-- R229. The beam reaches the LINE_MATCH position, which sets LINE_MATCH and fires the event. -/
  | beamLineMatch (h : Fin 8)
  /-- R217. A DisplayPort training attempt ends, either resuming the stream or stepping TRAIN_TRIES. -/
  | linkTrainAttemptDone (h : Fin 8) (ok : Bool)
  /-- R217. Every 1 s after TRAIN_FAIL while HPD is high, the head starts a new series of three attempts. -/
  | trainRetry (h : Fin 8)
  /-- R219. HPD low for more than 2 ms sets LINK_LOST and idles the PHY. -/
  | hpdLoss (h : Fin 8)
  /-- R219. An HPD low pulse of 0.25-2 ms makes the head read the sink's status, retrain if needed and set HPD_IRQ. -/
  | hpdIrqPulse (h : Fin 8) (lost : Bool)
  /-- R219. HPD rises again, and the head trains the link. -/
  | hpdRise (h : Fin 8)
  /-- R219. A SIDE_CMD write with GO starts an AUX, I2C-over-AUX or DSI command transaction. -/
  | sideTransaction (h : Fin 8) (v : Word)
  /-- R219. A DEFER reply makes the head retry the transaction, up to 7 times. -/
  | auxDeferRetry (h : Fin 8)
  /-- R219. No reply within 400 µs ends the transaction with a timeout. -/
  | auxTimeout (h : Fin 8)
  /-- R219. A side-channel transaction ends with RESULT and COUNT, and SIDE_DONE sets. -/
  | sideTransactionDone (h : Fin 8) (result : Fin 6) (wrote : Nat) (data : List Byte)
  /-- R223. A TE edge in command mode is accepted, or ignored with TE_EARLY when it comes too soon. -/
  | teEdge (h : Fin 8) (rising : Bool) (wait : Nat)
  /-- R223. With no TE edge in two frame periods, the head sends the frame anyway and sets TE_MISSING. -/
  | teMissing (h : Fin 8)
  /-- R234. The ring master sends a herd frame on each ring at every multiple of 1000 ns. -/
  | herdFrameSend
  /-- R237. A herd frame arrives, is forwarded, and corrects the member's herd time. -/
  | herdFrameReceive (b : Bool) (code : Bool) (f : List Byte) (wait : Nat) (sub : Nat) (res : Nat)
  /-- R238. An input with no SOF within 200 ns of its expected arrival, or with 3 bad frames in a row, is declared lost. -/
  | ringInputLost (b : Bool) (wait : Nat)
  /-- R238. After 10 ms of good frames on A, the device returns to ring A. -/
  | ringAReturn
  /-- R240. 1 ms after lock, the member slews or steps, and it sets JOINED once within 4 ns. -/
  | herdJoinEval
  /-- R246. Every 1 ms the master measures the return times of the rings and updates SPAN. -/
  | spanMeasure
  /-- R244. HERD_PPS output rises at each whole second of herd time. -/
  | ppsOutRise
  /-- R244. HERD_PPS output falls 100 µs after its rise. -/
  | ppsOutFall
  /-- R244. A rising HERD_PPS input edge is captured into PPS_IN_HT. -/
  | ppsInEdge (wait : Nat)
  /-- R244. HT_SET_CMD GO steps herd time of a ROLE 1 master at the next frame, with STEP set. -/
  | htSet (q : Req) (v : Word)
  /-- R248. CUE_CMD GO arms a cue slot locally and, with BROADCAST, queues an entry, or refuses. -/
  | cueArm (sl : Fin 256) (arg : BitVec 16) (bcast : Bool)
  /-- R248. CUE_CMD GO with CANCEL returns a slot to idle and can queue a cancel entry. -/
  | cueCancel (sl : Fin 256) (arg : BitVec 16) (bcast : Bool)
  /-- R250. At HT = L an armed slot fires and issues its actions. -/
  | cueFire
  /-- R252. CEN_CMD GO requests a census at T, locally or broadcast, or is refused for too short a lead. -/
  | censusRequest (v : Word)
  /-- R254. At HT = T the device latches its counters into a free census bank, or skips the census. -/
  | censusLatch
  /-- R254. The census bank is filled, so FULL and CENSUS_DONE set. -/
  | censusBankFilled
  /-- R255. A CEN_RELEASE write frees a census bank. -/
  | cenRelease (v : Word)
  /-- R264. The steward detects a stalled or miscoded cell and starts the takeover by the spare. -/
  | cellFaultDetect (f : Fin 16) (c : Fin 9) (dog : Bool)
  /-- R264. The spare has loaded the post's config entry, found as `code` says, and writes made meanwhile. -/
  | takeoverSpareLoaded (f : Fin 16) (code : CopyCond := .good)
  /-- R264. At the line start of m the post rejoins on the spare, and the failed cell is retired. -/
  | takeoverRejoin (f : Fin 16)
  /-- R269. Both probe lines are checked, and the steward retires a cell or counts a benign mismatch. -/
  | shadowProbeDone (f : Fin 16) (postOk : Bool) (spareOk : Bool)
  /-- R271. A retired cell passes self-test and becomes a spare, or fails and enters the repair map. -/
  | cellSelftestDone (f : Fin 16) (c : Fin 9) (pass : Bool)
  /-- R272. Every ROVE_MIN minutes the steward schedules a handoff of one post to the spare. -/
  | roveTimer
  /-- R281. Every TEST_MIN minutes the steward self-tests each spare and each idle off cell. -/
  | spareTestTimer
  /-- R275. At each checkpoint interval, or when a log fills, the yoke is checkpointed and its logs emptied. -/
  | yokeCheckpoint (y : Fin 8)
  /-- R276. The two cores disagree, so the yoke is restored from the checkpoint and replays. -/
  | lockstepMismatch (y : Fin 8)
  /-- R277. The self-test after a second mismatch ends, and a core is swapped, the yoke runs SOLO, it replays, or it halts. -/
  | coreSelftestDone (y : Fin 8) (passA : Bool) (passB : Bool)
  /-- R279. YOKE_CTRL RESTART reloads a halted yoke's RAM from the image and starts it at ENTRY. -/
  | yokeRestart (q : Req) (y : Fin 8)
  /-- R279. YOKE_CTRL RESUME starts a halted yoke from its checkpoint with the logs discarded. -/
  | yokeResume (q : Req) (y : Fin 8)
  /-- R283. A write of BUMP steps GLOBAL_GEN. -/
  | genBump (q : Req) (v : Word)
  /-- R282. A SELFTEST_REQ write with GO queues a self-test or calibration request, or refuses it. -/
  | selftestReq (q : Req) (v : Word)
  /-- R282. A requested test ends and sets SELFTEST_DONE, with SELFTEST_FAIL on failure; pool pages with corrections are `counted`, with uncorrectable words `bad`. -/
  | selftestReqDone (n : Fin 16) (pass : Bool) (counted bad : List Nat := [])
  /-- R263. The two steward copies disagree and restart from their last committed state. -/
  | stewardDisagree
  /-- R306. ALU ADD writes ra + rb and sets Z N C V. -/
  | add (y : Fin 8) (rd : Fin 32) (ra : Fin 32) (rb : Fin 32)
  /-- R306. ALU ADC adds with carry in. -/
  | adc (y : Fin 8) (rd : Fin 32) (ra : Fin 32) (rb : Fin 32)
  /-- R306. ALU SUB subtracts. -/
  | sub (y : Fin 8) (rd : Fin 32) (ra : Fin 32) (rb : Fin 32)
  /-- R306. ALU SBC subtracts with borrow. -/
  | sbc (y : Fin 8) (rd : Fin 32) (ra : Fin 32) (rb : Fin 32)
  /-- R306. ALU AND. -/
  | and (y : Fin 8) (rd : Fin 32) (ra : Fin 32) (rb : Fin 32)
  /-- R306. ALU OR. -/
  | or (y : Fin 8) (rd : Fin 32) (ra : Fin 32) (rb : Fin 32)
  /-- R306. ALU XOR. -/
  | xor (y : Fin 8) (rd : Fin 32) (ra : Fin 32) (rb : Fin 32)
  /-- R306. ALU AND NOT. -/
  | andn (y : Fin 8) (rd : Fin 32) (ra : Fin 32) (rb : Fin 32)
  /-- R306. ALU shift left by a register amount. -/
  | shl (y : Fin 8) (rd : Fin 32) (ra : Fin 32) (rb : Fin 32)
  /-- R306. ALU logical shift right. -/
  | shr (y : Fin 8) (rd : Fin 32) (ra : Fin 32) (rb : Fin 32)
  /-- R306. ALU arithmetic shift right. -/
  | sar (y : Fin 8) (rd : Fin 32) (ra : Fin 32) (rb : Fin 32)
  /-- R306. ALU rotate right. -/
  | ror (y : Fin 8) (rd : Fin 32) (ra : Fin 32) (rb : Fin 32)
  /-- R306. ALU low 32 bits of a product. -/
  | mul (y : Fin 8) (rd : Fin 32) (ra : Fin 32) (rb : Fin 32)
  /-- R306. ALU high 32 bits of an unsigned product. -/
  | mulhu (y : Fin 8) (rd : Fin 32) (ra : Fin 32) (rb : Fin 32)
  /-- R306. ALU high 32 bits of a signed product. -/
  | mulhs (y : Fin 8) (rd : Fin 32) (ra : Fin 32) (rb : Fin 32)
  /-- R306. ALU unsigned divide, with V on division by zero. -/
  | divu (y : Fin 8) (rd : Fin 32) (ra : Fin 32) (rb : Fin 32)
  /-- R306. ALU signed divide, with the special cases of the table. -/
  | divs (y : Fin 8) (rd : Fin 32) (ra : Fin 32) (rb : Fin 32)
  /-- R306. ALU unsigned remainder. -/
  | remu (y : Fin 8) (rd : Fin 32) (ra : Fin 32) (rb : Fin 32)
  /-- R306. ALU signed remainder. -/
  | rems (y : Fin 8) (rd : Fin 32) (ra : Fin 32) (rb : Fin 32)
  /-- R306. ALU compare, setting the flags of SUB. -/
  | cmp (y : Fin 8) (rd : Fin 32) (ra : Fin 32) (rb : Fin 32)
  /-- R306. ALU test, setting the flags of AND. -/
  | tst (y : Fin 8) (rd : Fin 32) (ra : Fin 32) (rb : Fin 32)
  /-- R306. ALU sign-extends a byte. -/
  | sexb (y : Fin 8) (rd : Fin 32) (ra : Fin 32) (rb : Fin 32)
  /-- R306. ALU sign-extends a halfword. -/
  | sexh (y : Fin 8) (rd : Fin 32) (ra : Fin 32) (rb : Fin 32)
  /-- R306. ALU counts leading zeros. -/
  | clz (y : Fin 8) (rd : Fin 32) (ra : Fin 32) (rb : Fin 32)
  /-- R310. Decimal add of eight BCD digits. -/
  | dadd (y : Fin 8) (rd : Fin 32) (ra : Fin 32) (rb : Fin 32)
  /-- R310. Decimal add with DC as carry in. -/
  | daddc (y : Fin 8) (rd : Fin 32) (ra : Fin 32) (rb : Fin 32)
  /-- R310. Decimal subtract in ten's complement. -/
  | dsub (y : Fin 8) (rd : Fin 32) (ra : Fin 32) (rb : Fin 32)
  /-- R310. Decimal subtract with DC as borrow in. -/
  | dsubc (y : Fin 8) (rd : Fin 32) (ra : Fin 32) (rb : Fin 32)
  /-- R311. Decimal compare, setting the flags of DSUB. -/
  | dcmp (y : Fin 8) (rd : Fin 32) (ra : Fin 32) (rb : Fin 32)
  /-- R311. Decimal compare with borrow in, chaining Z. -/
  | dcmpc (y : Fin 8) (rd : Fin 32) (ra : Fin 32) (rb : Fin 32)
  /-- R310. Decimal correction of a binary sum. -/
  | dadj (y : Fin 8) (rd : Fin 32) (ra : Fin 32) (rb : Fin 32)
  /-- R309. Decimal shift left by digits. -/
  | dshl (y : Fin 8) (rd : Fin 32) (ra : Fin 32) (rb : Fin 32)
  /-- R309. Decimal shift right by digits. -/
  | dshr (y : Fin 8) (rd : Fin 32) (ra : Fin 32) (rb : Fin 32)
  /-- R311. Converts binary to packed BCD. -/
  | b2d (y : Fin 8) (rd : Fin 32) (ra : Fin 32) (rb : Fin 32)
  /-- R311. Converts packed BCD to binary. -/
  | d2b (y : Fin 8) (rd : Fin 32) (ra : Fin 32) (rb : Fin 32)
  /-- R307. SYS NOP does nothing. -/
  | nop (y : Fin 8) (rd : Fin 32) (ra : Fin 32) (rb : Fin 32)
  /-- R312. Pops PC from the return stack. -/
  | ret (y : Fin 8) (rd : Fin 32) (ra : Fin 32) (rb : Fin 32)
  /-- R307. Jumps to a register address. -/
  | jr (y : Fin 8) (rd : Fin 32) (ra : Fin 32) (rb : Fin 32)
  /-- R307. Pushes the return address and jumps to a register address. -/
  | callr (y : Fin 8) (rd : Fin 32) (ra : Fin 32) (rb : Fin 32)
  /-- R312. Pushes a register onto the return stack. -/
  | rspush (y : Fin 8) (rd : Fin 32) (ra : Fin 32) (rb : Fin 32)
  /-- R312. Pops the return stack into a register. -/
  | rspop (y : Fin 8) (rd : Fin 32) (ra : Fin 32) (rb : Fin 32)
  /-- R293. Reads a special register. -/
  | mfs (y : Fin 8) (rd : Fin 32) (ra : Fin 32) (rb : Fin 32)
  /-- R293. Writes a special register. -/
  | mts (y : Fin 8) (rd : Fin 32) (ra : Fin 32) (rb : Fin 32)
  /-- R302. Returns from a handler, restoring FLAGS and IE and clearing EXL. -/
  | eret (y : Fin 8) (rd : Fin 32) (ra : Fin 32) (rb : Fin 32)
  /-- R303. Places the yoke in standby until its request line asserts. -/
  | wait (y : Fin 8) (rd : Fin 32) (ra : Fin 32) (rb : Fin 32)
  /-- R299. The TRAP instruction traps with cause 11. -/
  | trap (y : Fin 8) (w : Word)
  /-- R305. Adds a sign-extended immediate. -/
  | addi (y : Fin 8) (rd : Fin 32) (ra : Fin 32) (imm : BitVec 16)
  /-- R305. ANDs a zero-extended immediate. -/
  | andi (y : Fin 8) (rd : Fin 32) (ra : Fin 32) (imm : BitVec 16)
  /-- R305. ORs a zero-extended immediate. -/
  | ori (y : Fin 8) (rd : Fin 32) (ra : Fin 32) (imm : BitVec 16)
  /-- R305. XORs a zero-extended immediate. -/
  | xori (y : Fin 8) (rd : Fin 32) (ra : Fin 32) (imm : BitVec 16)
  /-- R305. Shifts left by an immediate. -/
  | shli (y : Fin 8) (rd : Fin 32) (ra : Fin 32) (imm : BitVec 16)
  /-- R305. Shifts right logically by an immediate. -/
  | shri (y : Fin 8) (rd : Fin 32) (ra : Fin 32) (imm : BitVec 16)
  /-- R305. Shifts right arithmetically by an immediate. -/
  | sari (y : Fin 8) (rd : Fin 32) (ra : Fin 32) (imm : BitVec 16)
  /-- R305. Compares with an immediate. -/
  | cmpi (y : Fin 8) (rd : Fin 32) (ra : Fin 32) (imm : BitVec 16)
  /-- R305. Loads the upper half of a register. -/
  | lui (y : Fin 8) (rd : Fin 32) (ra : Fin 32) (imm : BitVec 16)
  /-- R305. Loads an immediate. -/
  | movi (y : Fin 8) (rd : Fin 32) (ra : Fin 32) (imm : BitVec 16)
  /-- R297. Loads a word, trapping on alignment, access error or poison. -/
  | ldw (y : Fin 8) (rd : Fin 32) (ra : Fin 32) (imm : BitVec 16)
  /-- R297. Loads a sign-extended halfword. -/
  | ldh (y : Fin 8) (rd : Fin 32) (ra : Fin 32) (imm : BitVec 16)
  /-- R297. Loads a zero-extended halfword. -/
  | ldhu (y : Fin 8) (rd : Fin 32) (ra : Fin 32) (imm : BitVec 16)
  /-- R297. Loads a sign-extended byte. -/
  | ldb (y : Fin 8) (rd : Fin 32) (ra : Fin 32) (imm : BitVec 16)
  /-- R297. Loads a zero-extended byte. -/
  | ldbu (y : Fin 8) (rd : Fin 32) (ra : Fin 32) (imm : BitVec 16)
  /-- R297. Stores a word. -/
  | stw (y : Fin 8) (rd : Fin 32) (ra : Fin 32) (imm : BitVec 16)
  /-- R297. Stores a halfword. -/
  | sth (y : Fin 8) (rd : Fin 32) (ra : Fin 32) (imm : BitVec 16)
  /-- R297. Stores a byte. -/
  | stb (y : Fin 8) (rd : Fin 32) (ra : Fin 32) (imm : BitVec 16)
  /-- R308. Atomic swap of a word. -/
  | swap (y : Fin 8) (rd : Fin 32) (ra : Fin 32) (rb : Fin 32)
  /-- R308. Atomic fetch and add. -/
  | fadd (y : Fin 8) (rd : Fin 32) (ra : Fin 32) (rb : Fin 32)
  /-- R308. Atomic compare and swap, setting Z. -/
  | cas (y : Fin 8) (rd : Fin 32) (ra : Fin 32) (rb : Fin 32)
  /-- R305. Branches when the condition holds. -/
  | b (y : Fin 8) (cond : Fin 16) (off : BitVec 22)
  /-- R305. Pushes the return address and branches when the condition holds. -/
  | call (y : Fin 8) (cond : Fin 16) (off : BitVec 22)
  /-- R407. Coprocessor 0 SUBMIT queues a Mule command and returns its ticket. -/
  | muleSubmitCop (y : Fin 8) (rd : Fin 32) (ra : Fin 32) (rb : Fin 32) (wide : Bool)
  /-- R407. Coprocessor 0 POLL returns the state of a ticket. -/
  | mulePoll (y : Fin 8) (rd : Fin 32) (ra : Fin 32) (rb : Fin 32) (wide : Bool)
  /-- R446. Coprocessor 1 SETX writes four inputs of TD_IN. -/
  | tdSetx (y : Fin 8) (rd : Fin 32) (ra : Fin 32) (rb : Fin 32) (wide : Bool)
  /-- R446. Coprocessor 1 RUN computes a vector from TD_IN and returns when it is done. -/
  | tdRun (y : Fin 8) (rd : Fin 32) (ra : Fin 32) (rb : Fin 32) (wide : Bool)
  /-- R446. Coprocessor 1 GETY returns a result or accumulator of a lent row. -/
  | tdGety (y : Fin 8) (rd : Fin 32) (ra : Fin 32) (rb : Fin 32) (wide : Bool)
  /-- R417. Coprocessor 2 FEED feeds 1-4 bytes into a SOFT check unit. -/
  | ckCopFeed (y : Fin 8) (rd : Fin 32) (ra : Fin 32) (rb : Fin 32) (wide : Bool) (m : Fin 8)
  /-- R417. Coprocessor 2 END ends the block and returns the result. -/
  | ckCopEnd (y : Fin 8) (rd : Fin 32) (ra : Fin 32) (rb : Fin 32) (wide : Bool) (m : Fin 8)
  /-- R417. Coprocessor 2 RESET resets the check unit. -/
  | ckCopReset (y : Fin 8) (rd : Fin 32) (ra : Fin 32) (rb : Fin 32) (wide : Bool) (m : Fin 8)
  /-- R317. Coprocessor 3 HTRD returns all 64 bits of herd time. -/
  | htrd (y : Fin 8) (rd : Fin 32) (ra : Fin 32) (rb : Fin 32) (wide : Bool)
  /-- R317. Coprocessor 3 CUE arms or cancels a cue slot without the staged registers. -/
  | copCue (y : Fin 8) (rd : Fin 32) (ra : Fin 32) (rb : Fin 32) (wide : Bool)
  /-- R317. Coprocessor 3 CENSUS requests a census. -/
  | copCensus (y : Fin 8) (rd : Fin 32) (ra : Fin 32) (rb : Fin 32) (wide : Bool)
  /-- R318. A request to coprocessor 4-7 leaves as a COP_REQ frame, and the yoke waits for the response. -/
  | copCustomer (y : Fin 8) (rd : Fin 32) (ra : Fin 32) (rb : Fin 32) (wide : Bool) (c : Fin 4) (op : Fin 1024)
  /-- R318. With no COP_RSP within 20 µs, the instruction traps COP_TIMEOUT. -/
  | copTimeout (y : Fin 8)
  /-- R301. At an instruction boundary with the line asserted, IE 1 and EXL 0, the yoke enters the interrupt vector. -/
  | interruptEntry (y : Fin 8)
  /-- R303. A yoke in standby leaves it when its request line asserts. -/
  | waitWake (y : Fin 8)
  /-- R324. A source becomes pending and is offered to the least busy eligible yoke, or parked. -/
  | sourceAssert (n : Fin 512)
  /-- R325. A source whose level falls while offered or parked returns to idle. -/
  | sourceDeassert (n : Fin 512)
  /-- R328. A CLAIM read by a yoke claims its best offered source and pushes it on the stack. -/
  | claim (q : Req) (y : Fin 8)
  /-- R329. A COMPLETE write pops the top source and re-offers it if it is still asserted. -/
  | complete (q : Req) (y : Fin 8) (v : Word)
  /-- R325. A BASE_PRIO write changes the running priority, and sources are re-offered. -/
  | basePrioWrite (q : Req) (y : Fin 8) (v : Word)
  /-- R325. A SRC_CFG write changes a source's priority, target or set, and it is offered again. -/
  | srcCfgWrite (q : Req) (n : Fin 512) (v : Word)
  /-- R322. A SWI_SET write raises software sources. -/
  | swiSet (k : Fin 4) (v : Word)
  /-- R322. A SWI_CLR write lowers software sources. -/
  | swiClr (k : Fin 4) (v : Word)
  /-- R331. A COAL_CFG write enables, disables or reconfigures a coalescing set. -/
  | coalCfgWrite (q : Req) (k : Fin 32) (v : Word)
  /-- R332. A COAL_TIME write changes TIME_TH and can fire the set at once. -/
  | coalTimeWrite (q : Req) (k : Fin 32) (v : Word)
  /-- R332. TIME_TH passes after the first counted assertion, and the set fires. -/
  | coalTimeout (k : Fin 32)
  /-- R337. A SW_FIRE write fires software events at hop 0. -/
  | swFire (q : Req) (v : Word)
  /-- R341. The CLAUSE_ON task turns a clause on. -/
  | clauseOn (c : Fin 16)
  /-- R341. The CLAUSE_OFF task turns a clause off. -/
  | clauseOff (c : Fin 16)
  /-- R341. A CLAUSE_SET write turns clauses on as a SECURE task. -/
  | clauseSet (q : Req) (v : Word)
  /-- R341. A CLAUSE_CLR write turns clauses off as a SECURE task. -/
  | clauseClr (q : Req) (v : Word)
  /-- R351. The IRQ j task sets bit j of IRQ_LATCH. -/
  | irqTask (j : Fin 16)
  /-- R338. The WAKE task requests the exit from deep standby. -/
  | wakeTask
  /-- R343. A CH_CFG or CH_CTRL write reconfigures a channel, or is refused for owner or configuration. -/
  | chWrite (q : Req) (n : Fin 128) (ctrl : Bool) (v : Word)
  /-- R354. A running timer channel ticks and counts. -/
  | timerTick (u : Fin 8) (c : Fin 4)
  /-- R356. START runs a stopped channel from its present count. -/
  | tmStart (u : Fin 8) (c : Fin 4) (q : Option Req)
  /-- R356. STOP stops the channel and cancels its armed restart. -/
  | tmStop (u : Fin 8) (c : Fin 4) (q : Option Req)
  /-- R356. RESTART takes buffers, sets CNT to S and runs the channel. -/
  | tmRestart (u : Fin 8) (c : Fin 4) (q : Option Req)
  /-- R361. CAPTURE copies CNT into TM_CAP and fires CAPTURE. -/
  | tmCapture (u : Fin 8) (c : Fin 4) (q : Option Req)
  /-- R356. RESTART_AT arms a restart at UNIT_START_HT. -/
  | tmRestartAt (q : Req) (u : Fin 8) (c : Fin 4)
  /-- R357. An armed restart or group restart is performed when HT reaches its target. -/
  | armedRestart (u : Fin 8) (c : Option Nat)
  /-- R363. UNIT_CMD 1 restarts the stagger group in one herd nanosecond, or arms it with AT. -/
  | groupRestart (q : Req) (u : Fin 8) (timed : Bool)
  /-- R363. UNIT_CMD 2 stops every channel of the group. -/
  | groupStop (q : Req) (u : Fin 8)
  /-- R361. An edge on TMR_CAP captures the count. -/
  | tmrCapEdge (u : Fin 8) (c : Fin 4) (rising : Bool)
  /-- R362. A TM_CAP read clears CAP_FULL and latches CAP_HI_SNAP. -/
  | tmCapRead (u : Fin 8) (c : Fin 4)
  /-- R365. A TM_CNT read of a pair's low channel latches CNT_HI_SNAP. -/
  | tmCntRead (u : Fin 8) (c : Fin 4)
  /-- R359. A TM_PERIOD write buffers the value under PRELOAD, or applies it at once and can set LATE. -/
  | tmPeriodWrite (u : Fin 8) (c : Fin 4) (v : Word)
  /-- R358. A TM_CMP write buffers the value, or applies it from the next tick. -/
  | tmCmpWrite (u : Fin 8) (c : Fin 4) (v : Word)
  /-- R359. A TM_CNT write on a stopped channel sets the count and re-evaluates the late mark. -/
  | tmCntWrite (u : Fin 8) (c : Fin 4) (v : Word)
  /-- R376. START runs a free ring from RING_HEAD, or puts a stepped channel in WAIT_STEP. -/
  | phStart (n : Fin 32) (q : Option Req)
  /-- R376. STEP runs one descriptor of a stepped channel, or sets STARVED. -/
  | phStep (n : Fin 32) (q : Option Req)
  /-- R376. STOP halts the channel at the end of its present unit. -/
  | phStop (n : Fin 32) (q : Option Req)
  /-- R381. ABORT ends the present descriptor with ABORTED. -/
  | phAbort (q : Req) (n : Fin 32)
  /-- R381. CLEAR returns a HALTED channel to IDLE. -/
  | phClear (q : Req) (n : Fin 32)
  /-- R375. The channel takes a COPY descriptor and copies LEN bytes in overlap-safe order, or completes with OVERLAP. -/
  | phCopy (n : Fin 32)
  /-- R374. The channel takes a COPY2D descriptor and copies rows. -/
  | phCopy2d (n : Fin 32)
  /-- R374. The channel takes a FILL descriptor and writes the pattern. -/
  | phFill (n : Fin 32)
  /-- R374. The channel takes an IMM descriptor and writes one 32-bit value. -/
  | phImm (n : Fin 32)
  /-- R374. The channel takes a NOP descriptor, which completes at once. -/
  | phNop (n : Fin 32)
  /-- R384. A 256-byte unit completes, and the channel commits its state for a spare. -/
  | phUnitDone (n : Fin 32)
  /-- R378. A descriptor completes: OWN clears, a record is written, CQ_WR steps, DONE or ERROR fires and RING_HEAD steps. -/
  | phDescComplete (n : Fin 32)
  /-- R380. A CQ_RD write consumes records and lets a channel stalled on a full queue continue. -/
  | cqRdWrite (c : Fin 8) (v : Word)
  /-- R384. The steward detects a failed channel, by a code check or by the watchdog, which enters TAKEOVER. -/
  | phChannelFault (n : Fin 32) (code : Bool := false)
  /-- R384. A spare has loaded the committed state and resumes at the next unit. -/
  | phSpareResume (n : Fin 32) (code : Bool)
  /-- R402. A MULE_SUBMIT write with GO reads a command block and queues it with a ticket, or refuses it. -/
  | muleSubmit (q : Req) (v : Word)
  /-- R400. A queued COPY starts on a free lane, in scan order or through staging. -/
  | muleCopy
  /-- R395. A queued FILL starts on a free lane. -/
  | muleFill
  /-- R388. A queued NOP starts once every earlier overlapping command has ended. -/
  | muleNop
  /-- R408. A lane finishes a destination tile and commits the next tile's state. -/
  | muleTileDone (l : Fin 3)
  /-- R403. A command completes, writes its status word, steps COMPLETED and notifies. -/
  | muleCmdComplete (l : Fin 3)
  /-- R406. A MULE_ABORT write aborts a queued or running command. -/
  | muleAbort (q : Req) (t : Word)
  /-- R408. The steward detects a failed Mule lane. -/
  | muleLaneFault (l : Fin 3) (code : Bool)
  /-- R408. The spare lane restores the tile and restarts the running command there. -/
  | muleSpareRestart
  /-- R414. A check unit takes a byte from its snoop point into the present block. -/
  | ckByte (m : Fin 8) (drop : Bool)
  /-- R413. A CK_CMD END write or a BLOCK_END task ends the present block. -/
  | ckEnd (m : Fin 8) (byTask : Bool)
  /-- R414. A CK_CMD RESET write or a RESET task discards the partial block and restarts the CRC. -/
  | ckReset (m : Fin 8) (byTask : Bool)
  /-- R417. A CK_FEED write feeds 4 bytes into a SOFT unit. -/
  | ckFeed (q : Req) (m : Fin 8) (v : Word)
  /-- R417. A CK_FEED1 write feeds one byte into a SOFT unit. -/
  | ckFeed1 (q : Req) (m : Fin 8) (v : Word)
  /-- R22. At each sample instant, voices, crosspoint, meters, ports and rings process one sample. -/
  | audioSample (tdm : List (List Word)) (pdm : List Word) (shadow : Option (Bool × Bool))
  /-- R428. V_CMD START starts a voice in attack. -/
  | voiceStart (v : Fin 512)
  /-- R428. V_CMD KEY_OFF moves a voice to release. -/
  | voiceKeyOff (v : Fin 512)
  /-- R428. V_CMD STOP moves a voice to a 32-instant fade. -/
  | voiceStop (v : Fin 512)
  /-- R448. The TRIGk task starts every voice with TRIG_EN and TRIG = k. -/
  | voiceTrig (k : Fin 8)
  /-- R429. A voice sample not complete by its deadline is 0, and V_MISS steps. -/
  | voiceDeadlineMiss (v : Fin 512)
  /-- R434. XS_CMD LOAD reads a scene's entries into its shadow. -/
  | xsLoad (sc : Fin 16)
  /-- R434. The shadow replaces the scene whole, or the load fails with SCENE_ERR. -/
  | xsLoadDone
  /-- R434. XS_CMD FIRE sets the node targets of a scene. -/
  | xsFire (sc : Fin 16)
  /-- R448. The XSCENE task fires the scene in XS_TASK_SEL. -/
  | xscene
  /-- R438. A slave port receives FSYNC and assigns the frame to a sample instant. -/
  | tdmSlaveFrame (p : Fin 8) (slots : List Word) (wait : Nat)
  /-- R447. A TD_CMD write starts a Tandem job, or is refused during a job. -/
  | tdRunJob (v : Word)
  /-- R447. The TANDEM_RUN task starts a job when none runs. -/
  | tandemRun
  /-- R445. A Tandem vector completes and its results are written. -/
  | tandemVectorDone
  /-- R447. The last vector of a job is written, TD_JOBS steps, and TANDEM_DONE fires. -/
  | tandemJobDone
  /-- R442. The steward detects a failed voice or crosspoint slice. -/
  | audioSliceFault (xp : Bool) (l : Fin 16) (code : Bool)
  /-- R442. The spare slice loads the committed state and serves the slice. -/
  | audioSliceTakeover (xp : Bool) (l : Fin 16)
  /-- R435. A read of a meter word restarts its PEAK. -/
  | meterRead (m : Fin 256)
  /-- R465. Patrol scrub reads and, where needed, corrects the next word. -/
  | patrolScrub (c : CopyCond)
  /-- R466. The copy is done, the remap takes effect and the repair map record commits. -/
  | pageRemap (p : Nat)
  /-- R469. A failing SRAM row has been copied to a spare row and remapped. -/
  | sramRowSpare (r : Nat) (left : Bool)
  /-- R464. Every 100 ms a pseudo-channel is held out for calibration. -/
  | hbmCalibrate (pc : Fin 64) (beamSoon : Bool)
  /-- R462. A CORE or BULK request that has waited 2 µs is served ahead of BEAM requests. -/
  | bulkWaitExpire (bank : Fin 80) (services : Nat) (late : Nat)
  /-- R473. A keep window word or RWK field write is written to both copies, or skipped or refused. -/
  | keepWrite (q : Req) (off : Nat) (width : Nat) (v : Word) (fa : Bool) (fb : Bool)
  /-- R474. A keep read uses copy A, falls back to copy B, and rewrites a faulty copy. -/
  | keepRead (off : Nat) (width : Nat) (ca : CopyCond) (cb : CopyCond)
  /-- R475. The background pass reads and corrects copy B. -/
  | keepScrub (k : Fin 16384) (cb : CopyCond)
  /-- R476. A failing keep block is copied into a spare block and remapped. -/
  | keepBlockSpare (b : Nat) (copyB : Bool)
  /-- R478. Every 60 s the wear counters are saved into the system region. -/
  | wearSave
  /-- R479. A new second of herd time restarts the rate guard and commit counts. -/
  | keepRateSecond
  /-- R480. A REC_CMD write with GO starts a record commit through the journal, or refuses it. -/
  | recCommit (q : Req) (v : Word)
  /-- R480. The record words are home, the commit word clears and REC_DONE sets. -/
  | recCommitDone
  /-- R483. A METER_ADD write adds a 16-digit BCD addend to a meter, or refuses it. -/
  | meterAdd (q : Req) (m : Fin 32) (v : Word)
  /-- R483. A METER_LO read latches the high digits into METER_HI. -/
  | meterLoRead (m : Fin 32)
  /-- R482. The keep store finishes its journal after power arrives and sets READY. -/
  | keepReady
  /-- R505. Training starts on EN, after a session end or at a retrain. -/
  | droveTrainingStart
  /-- R505. 8 identical TS2 sets are received over lanes aligned by `marks`, the link is ACTIVE and the session is continued or new. -/
  | droveTrainingDone (role : Fin 3) (caps : Fin 32) (peer : Word) (rxNext : Nat) (session : Word) (peerKeeps : Bool) (marks : List RxMark := [])
  /-- R505. Training not ACTIVE within 10 ms ends the session and starts again. -/
  | droveTrainingTimeout
  /-- R505. A RETRAIN write retrains with the session kept. -/
  | droveRetrain (q : Req)
  /-- R508. A RESET_SESSION write ends the session. -/
  | droveResetSession (q : Req)
  /-- R497. The device sends a frame whose credits it holds, or resends in a replay. -/
  | droveFrameSend (sel : Fin 66)
  /-- R516. An accepted DATA frame lands as a record in its receive ring. -/
  | droveDataRx (f : DrvFrame)
  /-- R497. An accepted CREDIT frame applies returned credits. -/
  | droveCreditRx (f : DrvFrame)
  /-- R502. An ACK frees the acknowledged frames from the replay buffer. -/
  | droveAckRx (f : DrvFrame)
  /-- R502. A NAK frees earlier frames and starts a replay. -/
  | droveNakRx (f : DrvFrame)
  /-- R511. An accepted MEM_WR is performed, or refused with PEER_WR_ERR. -/
  | droveMemWrRx (f : DrvFrame)
  /-- R512. An accepted MEM_RD_REQ is answered with a MEM_RD_RSP. -/
  | droveMemRdReqRx (f : DrvFrame)
  /-- R513. A MEM_RD_RSP completes an outstanding read of the peer. -/
  | droveMemRdRspRx (f : DrvFrame)
  /-- R514. A COP_REQ from the peer is discarded, and PEER_PROTO sets. -/
  | droveCopReqRx (f : DrvFrame)
  /-- R514. A COP_RSP completes an outstanding coprocessor request. -/
  | droveCopRspRx (f : DrvFrame)
  /-- R494. An IDLE frame is received, and its ACK_V is acted on. -/
  | droveIdleRx (f : DrvFrame)
  /-- R495. A bad frame is discarded, BAD_FRAMES steps, and a NAK follows. -/
  | droveBadFrame (startBad : Bool)
  /-- R502. 2 µs without an acknowledgement makes the sender resend every outstanding frame. -/
  | droveReplayTimeout
  /-- R509. A lane fault is detected, and a receiver sends LS blocks. -/
  | droveLaneFault (rx : Bool) (l : Fin 9) (watchdog : Bool)
  /-- R509. An LS block asks the transmitter to move a logical lane onto the spare. -/
  | droveLsRx (k : Fin 8)
  /-- R509. At the next marker, `mark` where the device receives, the spare carries the failed logical lane, and LANE_SWAP sets. -/
  | droveLaneSwap (rx : Bool) (mark : RxMark := {})
  /-- R509. A retired lane's loopback test ends, making it the spare or mapping it out. -/
  | droveLaneTestDone (rx : Bool) (l : Fin 9) (pass : Bool)
  /-- R513. A peer read without a response for 20 µs completes with an access error. -/
  | peerReadTimeout (tag : Nat)
  /-- R516. An RX_RD write consumes records and returns credits. -/
  | droveRxRdWrite (n : Fin 60) (v : Word)
  /-- R517. A TX_WR write offers transmit records for sending. -/
  | droveTxWrWrite (n : Fin 60) (v : Word)
  /-- R524. A received Ethernet frame is filtered, steered and written to a ring descriptor, or dropped. -/
  | netRxFrame (f : List Byte) (wait : Nat)
  /-- R527. A TX_KICK write runs a transmit ring from HEAD. -/
  | netTxKick (t : Fin 4) (v : Word)
  /-- R527. A transmitted frame completes and its descriptor is written with its timestamp. -/
  | netTxComplete (wait : Nat)
  /-- R531. A PTP_MEAS_OFS write submits a measurement that steps, slews or is discarded. -/
  | ptpMeasSubmit (q : Req) (v : Word)
  /-- R531. 4 s without an accepted measurement clears PTP_LOCKED and sets PTP_LOST. -/
  | ptpLockTimeout
  /-- R522. A change of LOS or MOD_ABS is read, and MOD_ABS changes set MOD_CHANGE. -/
  | sfpPinChange (los : Bool) (modAbs : Bool)
  /-- R521. The port's link comes up or goes down. -/
  | netLinkChange (up : Bool) (an : Bool)
  /-- R534. A STAT_LO read latches the high word. -/
  | statLoRead (k : Fin 32)
  /-- R544. The filter accepts a new level, which sets the edge bit and fires the edge event. -/
  | gpioEdge (q : Fin 128)
  /-- R541. A GPIO_OUT write sets all 32 latch bits of a bank. -/
  | gpioOutWrite (b : Fin 4) (v : Word)
  /-- R541. A masked write sets selected latch bits of pins 0-15. -/
  | gpioOutMwLo (b : Fin 4) (v : Word)
  /-- R541. A masked write sets selected latch bits of pins 16-31. -/
  | gpioOutMwHi (b : Fin 4) (v : Word)
  /-- R541. The SET task sets a pin's latch bit. -/
  | gpioSet (q : Fin 128)
  /-- R541. The CLEAR task clears a pin's latch bit. -/
  | gpioClear (q : Fin 128)
  /-- R541. The TOGGLE task inverts a pin's latch bit. -/
  | gpioToggle (q : Fin 128)
  /-- R545. A PIN_CFG write changes a pin's set-up and function, or is ignored on a locked pin. -/
  | pinCfgWrite (r : Req) (q : Fin 128) (v : Word)
  /-- R545. 16 ns after a function change, the new output is honoured or the keeper hold ends. -/
  | funcGapEnd (q : Fin 128)
  /-- R547. A GPIO_LOCK_KEY write advances the lock sequence and locks pins at its third step, or aborts it. -/
  | gpioLockKey (r : Req) (b : Fin 4) (v : Word)
  /-- R547. A GPIO_LOCK_MASK write gives the pins to lock at step 2, or aborts the sequence. -/
  | gpioLockMask (r : Req) (b : Fin 4) (v : Word)
  /-- R536. A bank rail appears, disappears or changes class, which changes BANK_STATUS. -/
  | bankRailChange (b : Fin 4) (present : Bool) (v33 : Bool)
  /-- R560. PWR_CMD RUN in STANDBY raises ARRAY_EN and starts the exit, or is refused. -/
  | pwrRun (q : Req)
  /-- R559. PWR_CMD STANDBY starts the entry to standby, or is refused. -/
  | pwrStandby (q : Req)
  /-- R561. PWR_CMD DEEP starts the entry to deep standby, or is refused. -/
  | pwrDeep (q : Req)
  /-- R559. After heads and audio stop, PPR and wear saving run, then HBM3 self-refreshes and the state reads STANDBY. -/
  | standbyEntryDone (noRes : List Nat)
  /-- R560. ARRAY_PG rises, the rail is written and HBM3 leaves self-refresh. -/
  | arrayPgRise
  /-- R560. ARRAY_PG not up within 50 ms leaves the device in STANDBY with RAIL_FAULT. -/
  | arrayPgTimeout
  /-- R560. Calibration and PPR copy-back end, and the state reads RUN. -/
  | standbyExitDone
  /-- R561. At its next instruction boundary, each yoke takes a deep checkpoint and stops. -/
  | deepCheckpoint (y : Fin 8)
  /-- R561. SW_EN and ARRAY_EN go low and the state reads DEEP. -/
  | deepEntryDone
  /-- R562. SW_PG rises and the boot steps of HBM3 training and zero-fill run. -/
  | swPgRise
  /-- R562. SW_PG not up within 50 ms returns the device to DEEP with RAIL_FAULT. -/
  | swPgTimeout
  /-- R562. The image is reloaded and the yokes resume from their deep checkpoints. -/
  | deepExitDone
  /-- R564. PORn low resets the whole device. -/
  | powerOnReset
  /-- R554. VDD_AON below 0.68 V for 1 µs holds the device in power-on reset. -/
  | aonMonitorTrip
  /-- R564. RESETn low for 100 ns or more gives a pin reset. -/
  | pinReset (low : Nat)
  /-- R564. A SW_RESET write with the key gives a software reset. -/
  | swReset (q : Req) (v : Word)
  /-- R564. BOOT_OK not written within BOOT_WDT seconds of LOADED gives a watchdog reset. -/
  | watchdogReset
  /-- R568. The herd clock locks to REFCLK, the counter starts and ring forwarding begins. -/
  | herdClockLock
  /-- R568. HBM3 training ends, or HBM3 leaves self-refresh. -/
  | hbmTrainDone
  /-- R568. Memory is zero-filled or the staging area is cleared, remaps are applied, and the loader may start. -/
  | bootZeroFillDone
  /-- R569. A member head that has waited 1 s for JOINED starts on local herd time. -/
  | headJoinWaitTimeout (h : Fin 8)
  /-- R580. An on-die sensor crossing 125 °C drives THERMTRIPn. -/
  | thermtrip
  /-- R570. The TAP passes through Test-Logic-Reset and releases a boundary-scan reset. -/
  | tapReset
  /-- R570. EXTEST drives the boundary and holds the device in pin reset. -/
  | extest
  /-- R570. IDCODE returns 0x1822_0A5F. -/
  | idcode
  /-- R570. SAMPLE/PRELOAD samples or preloads the boundary register. -/
  | samplePreload (pins : List Byte) (data : List Byte)
  /-- R570. CLAMP holds the outputs and the device in pin reset. -/
  | clamp
  /-- R570. HIGHZ floats the outputs and holds the device in pin reset. -/
  | highz
  /-- R570. BYPASS selects the one-bit register. -/
  | bypass (op : BitVec 8)
  /-- R571. DBG_CHAL captures a fresh 48-byte challenge. -/
  | dbgChal
  /-- R571. DBG_UNLOCK verifies a signed challenge and unlocks debug, or sets UNLOCK_FAIL. -/
  | dbgUnlock (v : BitVec 1552)
  /-- R572. DBG_ACCESS makes one 32-bit read or write as a Keeper requester. -/
  | dbgAccess (v : BitVec 84)
  /-- R572. DBG_MAP_CLEAR removes a repair map entry and logs it. -/
  | dbgMapClear (v : BitVec 40)
  /-- R572. DBG_METER_SET sets a meter and logs it. -/
  | dbgMeterSet (v : BitVec 69)
  /-- R568. The rise of PORn, or the release of a pin reset or the AON monitor, starts the boot sequence at tp. -/
  | resetRelease
  /-- R281. The self-test of a retired or spare core, slice, Packhorse channel or Mule lane ends, so the unit becomes a spare again or enters the repair map. -/
  | unitSelftestDone (cls : Nat) (idx : Nat) (pass : Bool)
  /-- R580. Every on-die sensor falls back to 125 °C or below, and THERMTRIPn is released. -/
  | thermtripClear
  deriving DecidableEq, Repr

end Sys2Proof
end

