-- ==== Sys2Proof/Decode.lean ====
section
/-! DEFINITION. The words of the opcode table. The table gives no row any bits: a command of this device is an access or an event, and no
word spells one. -/
namespace Sys2Proof

/-- The command that a word spells by the table's bits: none, for every word. DESIGN CHOICE, log entry 6. -/
def decodeTableWord (_nbits _w : Nat) : Option Instr := none

end Sys2Proof
end

