-- ==== Sys2Proof/Config.lean ====
section
/-! DEFINITION. What one implementation fixes, and the free values: constants without a body, of which nothing can be
proved, for every value that the spec leaves open. -/
namespace Sys2Proof.Config

/-- MINOR of the ID registers: "per device" (R10), any value (R1). DESIGN CHOICE, log entry 8. -/
opaque minor : BitVec 8

/-- Free values: a fresh 32-bit word for each use, where the spec says that a value is undefined or states none.
DESIGN CHOICE, log entry 7. -/
opaque freeWord : Nat → BitVec 32

/-- LAT_NS of a head's PHY (R211), in ns: fixed by the link type, the rate (the lane rate of a DSI link), the depth and whether the link is up, and by no
rule of the spec. DESIGN CHOICE, log entry 9. -/
opaque phyLatency : (dsi : Bool) → (rate bpc : Nat) → (up : Bool) → BitVec 16

/-- Whether an inexact product or quotient of the audio path, at one place of R426, R431 or R435 or a tie of R436, is rounded up:
the spec gives no rounding there. DESIGN CHOICE, log entry 10. -/
opaque roundUp : (place : Nat) → (value : Int) → Bool

/-- The high-pass filter and the DC blocker of a crosspoint input (R433): for each rate, corner and bypass, the filtered sample and
the next filter state. The spec gives their kind and corners, and no coefficients. DESIGN CHOICE, log entry 11. -/
opaque inputFilter : (fast : Bool) → (hpf : Nat) → (bypass : Bool) → (state : BitVec 128) → (x : BitVec 32) → BitVec 32 × BitVec 128

/-- The density of the fitted boot flash in bytes (R33, R589): the board designer's choice, which no rule of the spec fixes.
DESIGN CHOICE, log entry 12; DESIGN CHOICE, log entry 115. -/
opaque flashBytes : Nat

end Sys2Proof.Config
end

