-- ==== Sys2Proof/Machine/RegMap.lean ====
section
/-! DEFINITION. The register map of the device (R6 to R12, R14, R35): for each page, each register's offset, the masks
of its access types and its reset word, written from the register tables of every chapter of spec/. `Reg.<NAME>` is
the offset of a register in the 256 MB register space (R7). An offset that no row gives reads 0 (R8). -/
namespace Sys2Proof.Machine

/-- One row of a register table (R12, R14). `s1`/`n1` and `s2`/`n2` are the strides and counts of its indices.
`rw` holds the RW bits, `w1c`, `w1s`, `rwk`, `rwl` and `wo` the bits of those types; every other bit is RO or reserved. -/
structure RegRow where
  base : Nat
  s1 : Nat := 4
  n1 : Nat := 1
  s2 : Nat := 4
  n2 : Nat := 1
  rw : Word := 0
  w1c : Word := 0
  w1s : Word := 0
  rwk : Word := 0
  rwl : Word := 0
  wo : Word := 0
  reset : Word := 0
  deriving DecidableEq, Repr

/-- The pages of register space (R35), each with its indices. -/
inductive Page where
  | global | grenhiund | image | keep | bellwether | conj | herd | net | drove | memctl | mule | packhorse
  | check (m : Nat) | gpio | timer (u : Nat) | audio | xpoint | voices
  | yoke (y : Nat) | flock (f : Nat) | cell (f p : Nat)
  | comp (h : Nat) | ls (h : Nat) | scan (h : Nat) | phy (h : Nat) | mat (h : Nat)
  deriving DecidableEq, Repr

/-- The page of a block offset and the offset within it, for every assigned page of R35; none outside them (R8). -/
def pageOf (off : Nat) : Option (Page × Nat) :=
  let pg := off / 0x10000
  let o := off % 0x10000
  if off < 0x120000 then
    match pg with
    | 0 => some (.global, o) | 1 => some (.grenhiund, o) | 2 => some (.image, o) | 3 => some (.keep, o)
    | 4 => some (.bellwether, o) | 5 => some (.conj, o) | 6 => some (.herd, o) | 7 => some (.net, o)
    | 8 => some (.drove, o) | 9 => some (.memctl, o) | 10 => some (.mule, o) | 11 => some (.packhorse, o)
    | 12 => some (.check (o / 0x1000), o % 0x1000)
    | 13 => some (.gpio, o)
    | 14 => some (.timer (o / 0x1000), o % 0x1000)
    | 15 => some (.audio, o) | 16 => some (.xpoint, o) | _ => some (.voices, o)
  else if 0x200000 ≤ off && off < 0x280000 then some (.yoke (pg - 0x20), o)
  else if 0x1000000 ≤ off && off < 0x2000000 then
    let f := (off - 0x1000000) / 0x100000
    let q := pg % 0x10
    if q = 0 then some (.flock f, o) else if q < 10 then some (.cell f (q - 1), o) else none
  else if 0x2000000 ≤ off && off < 0x2800000 then
    let h := (off - 0x2000000) / 0x100000
    match pg % 0x10 with
    | 0 => some (.comp h, o) | 1 => some (.ls h, o) | 2 => some (.scan h, o) | 3 => some (.phy h, o)
    | 4 => some (.mat h, o) | _ => none
  else none

/-- BLOCK_TYPE of each page (R11). -/
def Page.blockType : Page → Nat
  | .global => 0x0001 | .grenhiund => 0x0002 | .image => 0x0003 | .keep => 0x0004 | .bellwether => 0x0005
  | .conj => 0x0006 | .herd => 0x0007 | .net => 0x0008 | .drove => 0x0009 | .memctl => 0x000A | .mule => 0x000B
  | .packhorse => 0x000C | .check _ => 0x000D | .gpio => 0x000E | .timer _ => 0x000F | .audio => 0x0010
  | .xpoint => 0x0011 | .voices => 0x0012 | .yoke _ => 0x0013 | .flock _ => 0x0014 | .cell _ _ => 0x0015
  | .comp _ => 0x0016 | .ls _ => 0x0017 | .scan _ => 0x0018 | .phy _ => 0x0019 | .mat _ => 0x001A

/-- The ID register of a page (R10): BLOCK_TYPE, MAJOR 1 and the device's own MINOR, which no rule fixes. DESIGN CHOICE, log entry 8. -/
def Page.idWord (p : Page) : Word := BitVec.ofNat 32 (p.blockType * 0x10000 + 0x100 + Config.minor.toNat)


/-- Rows of the GLOBAL page. -/
def rowsGLOBAL : List RegRow :=
  [ { base := 0x4, w1c := 0xC },
    { base := 0x8, wo := 0x1 },
    { base := 0xC, rw := 0x3FF1F },
    { base := 0x10 },
    { base := 0x20, wo := 0x80000003 },
    { base := 0x24 },
    { base := 0x28, w1c := 0x7 },
    { base := 0x2C, w1c := 0x1F, reset := 0x1 },
    { base := 0x30, wo := 0xFFFF },
    { base := 0x34, rwk := 0xFFF },
    { base := 0x38, rwk := 0x3 },
    { base := 0x3C, w1c := 0x4 } ]

/-- Rows of the GRENHIUND page, part 1. -/
def rowsGRENHIUNDa : List RegRow :=
  [ { base := 0x4, reset := 0x1E6000 },
    { base := 0x8, w1c := 0xFFF },
    { base := 0xC, rw := 0xFFF, reset := 0xFFF },
    { base := 0x10, wo := 0x1 },
    { base := 0x20 },
    { base := 0x24, rw := 0xFFFFFFFF },
    { base := 0x28, rw := 0xFFFFFFFF },
    { base := 0x40, s1 := 0x4, n1 := 8 },
    { base := 0x60, s1 := 0x4, n1 := 8, rw := 0xFFFFFFFF },
    { base := 0x80, s1 := 0x4, n1 := 8 },
    { base := 0xA0, wo := 0x8000001F },
    { base := 0xB0, rw := 0xFFFF01, reset := 0xA3C01 },
    { base := 0xB4, wo := 0x8001FFFF },
    { base := 0xB8 },
    { base := 0x100 },
    { base := 0x104 },
    { base := 0x108 },
    { base := 0x10C },
    { base := 0x110 },
    { base := 0x114 },
    { base := 0x120, s1 := 0x4, n1 := 4 },
    { base := 0x140 },
    { base := 0x144, rw := 0xFFFFFFFF },
    { base := 0x148, rw := 0xFFFFFFFF } ]

/-- Rows of the GRENHIUND page, part 2. -/
def rowsGRENHIUNDb : List RegRow :=
  [ { base := 0x14C, rw := 0xFFFFFFFF },
    { base := 0x150, rw := 0xFFFFFFFF } ]

/-- Rows of the GRENHIUND page. -/
def rowsGRENHIUND : List RegRow := rowsGRENHIUNDa ++ rowsGRENHIUNDb

/-- Rows of the IMAGE page. -/
def rowsIMAGE : List RegRow :=
  [ { base := 0x4, reset := 0xC },
    { base := 0x8 },
    { base := 0xC, rwk := 0x13 },
    { base := 0x10, wo := 0x1 },
    { base := 0x14, rwk := 0xFFFFFFFF },
    { base := 0x18, rwk := 0xF },
    { base := 0x20, rw := 0xFFFFFFFF },
    { base := 0x24, rw := 0xFFFF },
    { base := 0x28, rw := 0xFFFFFFFF },
    { base := 0x2C, wo := 0x7 },
    { base := 0x30, w1c := 0x6 },
    { base := 0x40, wo := 0x810FFFFF },
    { base := 0x44, w1c := 0xE },
    { base := 0x80, s1 := 0x4, n1 := 16, reset := 0xFFFF },
    { base := 0x100, s1 := 0x40, n1 := 4, s2 := 0x4, n2 := 12, rwk := 0xFFFFFFFF } ]

/-- Rows of the KEEP page. -/
def rowsKEEP : List RegRow :=
  [ { base := 0x4 },
    { base := 0x8, w1c := 0x1FF },
    { base := 0xC },
    { base := 0x10 },
    { base := 0x14, rwk := 0xFF },
    { base := 0x18, rwk := 0xFFFFFFFF },
    { base := 0x20, rw := 0xFFFC },
    { base := 0x24 },
    { base := 0x28, rw := 0xFFFFFFFF },
    { base := 0x40, rw := 0x7FFFFC, reset := 0x10000 },
    { base := 0x44, wo := 0x80000000 },
    { base := 0x48 },
    { base := 0x100, s1 := 0x4, n1 := 64, rw := 0xFFFFFFFF },
    { base := 0x200, s1 := 0x10, n1 := 32 },
    { base := 0x204, s1 := 0x10, n1 := 32 },
    { base := 0x208, s1 := 0x10, n1 := 32, rw := 0xFFFFFFFF },
    { base := 0x20C, s1 := 0x10, n1 := 32, wo := 0xFFFFFFFF } ]

/-- Rows of the BELLWETHER page. -/
def rowsBELLWETHER : List RegRow :=
  [ { base := 0x4, w1c := 0x7 },
    { base := 0x8, rw := 0x7, reset := 0x7 },
    { base := 0x40, s1 := 0x4, n1 := 4, w1s := 0xFFFFFFFF },
    { base := 0x50, s1 := 0x4, n1 := 4, w1c := 0xFFFFFFFF },
    { base := 0x80, s1 := 0x4, n1 := 16 },
    { base := 0x200, s1 := 0x20, n1 := 8 },
    { base := 0x204, s1 := 0x20, n1 := 8, wo := 0x1FF },
    { base := 0x208, s1 := 0x20, n1 := 8 },
    { base := 0x20C, s1 := 0x20, n1 := 8, rw := 0x3F },
    { base := 0x210, s1 := 0x20, n1 := 8 },
    { base := 0x400, s1 := 0x10, n1 := 32, rw := 0x3FF03FF, reset := 0x10000 },
    { base := 0x404, s1 := 0x10, n1 := 32, rw := 0xFFFFF, reset := 0x3E8 },
    { base := 0x408, s1 := 0x10, n1 := 32 },
    { base := 0x40C, s1 := 0x10, n1 := 32 },
    { base := 0x1004, s1 := 0x4, n1 := 511, rw := 0x3FFF3F, reset := 0x100 },
    { base := 0x2004, s1 := 0x4, n1 := 511, reset := 0x7000 } ]

/-- Rows of the CONJ page. -/
def rowsCONJ : List RegRow :=
  [ { base := 0x4, w1c := 0x7F },
    { base := 0x8, rw := 0x7F, reset := 0x7B },
    { base := 0xC },
    { base := 0x10, wo := 0xFFFF },
    { base := 0x14, wo := 0xFFFF },
    { base := 0x20, wo := 0xFFFE },
    { base := 0x24, w1c := 0xFFFF },
    { base := 0x30, rw := 0xFFFFFFFF },
    { base := 0x34, rw := 0xFFFFFFFF },
    { base := 0x38, rw := 0xFFFFFFFF },
    { base := 0x3C },
    { base := 0x1000, s1 := 0x10, n1 := 128, rw := 0xFFFFFFFF },
    { base := 0x1004, s1 := 0x10, n1 := 128, rw := 0x7FF },
    { base := 0x1008, s1 := 0x10, n1 := 128, w1c := 0x3 },
    { base := 0x100C, s1 := 0x10, n1 := 128, rw := 0xFFFFFFFF },
    { base := 0x4040, s1 := 0x4, n1 := 1520, w1c := 0x18 } ]

/-- Rows of the HERD page, part 1. -/
def rowsHERDa : List RegRow :=
  [ { base := 0x4 },
    { base := 0x8 },
    { base := 0xC },
    { base := 0x10 },
    { base := 0x14 },
    { base := 0x18, w1c := 0x3FFFF },
    { base := 0x1C, rw := 0x3FFFF, reset := 0x1FFFE },
    { base := 0x20, rwk := 0xFFFFFFFF },
    { base := 0x24, rwk := 0xFFFFFFFF },
    { base := 0x28, rw := 0x3 },
    { base := 0x2C, rw := 0xFFFFFFFF },
    { base := 0x30, rw := 0xFFFFFFFF },
    { base := 0x34, wo := 0x80000000 },
    { base := 0x38 },
    { base := 0x3C },
    { base := 0x40 },
    { base := 0x44, rw := 0xFFFF },
    { base := 0x48, rw := 0xFFFFFFFF },
    { base := 0x4C, rw := 0xFFFFFFFF },
    { base := 0x50, rw := 0xFFFFFFFF },
    { base := 0x54 },
    { base := 0x58 },
    { base := 0x100, rw := 0xFFFFFFFF },
    { base := 0x104, rw := 0xFFFFFFFF } ]

/-- Rows of the HERD page, part 2. -/
def rowsHERDb : List RegRow :=
  [ { base := 0x108, wo := 0x83FFFFFF },
    { base := 0x10C },
    { base := 0x110, reset := 0x493E0 },
    { base := 0x200, rw := 0xFFFFFFFF },
    { base := 0x204, rw := 0xFFFFFFFF },
    { base := 0x208, wo := 0x81FFFFFF },
    { base := 0x20C, rw := 0xFF, reset := 0x1 },
    { base := 0x210, reset := 0x4 },
    { base := 0x214, wo := 0x3 },
    { base := 0x218, rw := 0xFFFFFFFF },
    { base := 0x2000, s1 := 0x20, n1 := 256, rw := 0x7FFFFF },
    { base := 0x2004, s1 := 0x20, n1 := 256, rw := 0x7FFF7FF },
    { base := 0x2008, s1 := 0x20, n1 := 256 },
    { base := 0x200C, s1 := 0x20, n1 := 256 },
    { base := 0x2010, s1 := 0x20, n1 := 256 },
    { base := 0x2014, s1 := 0x20, n1 := 256 },
    { base := 0x2018, s1 := 0x20, n1 := 256 } ]

/-- Rows of the HERD page. -/
def rowsHERD : List RegRow := rowsHERDa ++ rowsHERDb

/-- Rows of the NET page, part 1. -/
def rowsNETa : List RegRow :=
  [ { base := 0x4, rw := 0x7FFFFFF, reset := 0x2F70A4 },
    { base := 0x8 },
    { base := 0xC, w1c := 0x1FFFF },
    { base := 0x10, rw := 0x1FFFF, reset := 0x1FF00 },
    { base := 0x14, rwk := 0xFFFFFFFF },
    { base := 0x18, rwk := 0xFFFF },
    { base := 0x40, s1 := 0x8, n1 := 16, rw := 0xFFFFFFFF },
    { base := 0x44, s1 := 0x8, n1 := 16, rw := 0x8000FFFF },
    { base := 0xC0, s1 := 0x4, n1 := 16, rw := 0x80000FFF },
    { base := 0x100, s1 := 0x4, n1 := 16, rw := 0xFFFFF },
    { base := 0x200, s1 := 0x20, n1 := 4, rw := 0xFFFFFFE0 },
    { base := 0x204, s1 := 0x20, n1 := 4, rw := 0xDFFFFFFF, reset := 0x10000 },
    { base := 0x208, s1 := 0x20, n1 := 4, rw := 0x7FFF, reset := 0x600 },
    { base := 0x20C, s1 := 0x20, n1 := 4, rw := 0xFFF },
    { base := 0x300, s1 := 0x20, n1 := 4, rw := 0xFFFFFFE0 },
    { base := 0x304, s1 := 0x20, n1 := 4, rw := 0x9FFFFFFF, reset := 0x10000 },
    { base := 0x308, s1 := 0x20, n1 := 4, rw := 0xFFF },
    { base := 0x30C, s1 := 0x20, n1 := 4, wo := 0x80000000 },
    { base := 0x400, rw := 0xF1, reset := 0xD0 },
    { base := 0x404, rw := 0xFFFF },
    { base := 0x408, rw := 0xFFFF },
    { base := 0x410, rw := 0xFFFFFFFF },
    { base := 0x414, rw := 0xFFFFFFFF },
    { base := 0x418, wo := 0xFFFFFFFF } ]

/-- Rows of the NET page, part 2. -/
def rowsNETb : List RegRow :=
  [ { base := 0x41C },
    { base := 0x420 },
    { base := 0x800, s1 := 0x8, n1 := 32 },
    { base := 0x804, s1 := 0x8, n1 := 32 } ]

/-- Rows of the NET page. -/
def rowsNET : List RegRow := rowsNETa ++ rowsNETb

/-- Rows of the DROVE page, part 1. -/
def rowsDROVEa : List RegRow :=
  [ { base := 0x4, rw := 0xF, wo := 0x30, reset := 0x1 },
    { base := 0x8, reset := 0x880000 },
    { base := 0xC, w1c := 0x3FF },
    { base := 0x10, rw := 0x3FF, reset := 0x3FF },
    { base := 0x14, reset := 0x76543210 },
    { base := 0x18, reset := 0x76543210 },
    { base := 0x1C, rw := 0xFFFFFFFF },
    { base := 0x20 },
    { base := 0x24 },
    { base := 0x40, rw := 0xFFFFFFFF },
    { base := 0x44, rw := 0xFFFFFFFF },
    { base := 0x48, rw := 0xFFFFFFFF },
    { base := 0x4C, rw := 0xFFFFFFFF },
    { base := 0x50, rw := 0xFFFFFFFF },
    { base := 0x54, rw := 0xFFFFFFFF },
    { base := 0x58, rw := 0xFFFFFFFF },
    { base := 0x5C, rw := 0xFFFFFFFF },
    { base := 0x60, rw := 0xFFFFFFFF },
    { base := 0x68 },
    { base := 0x6C },
    { base := 0x70 },
    { base := 0x400, s1 := 0x4, n1 := 64 },
    { base := 0x1000, s1 := 0x20, n1 := 60, rw := 0xFFFFFF00 },
    { base := 0x1004, s1 := 0x20, n1 := 60, rw := 0xE01FFFFF, reset := 0xC0000 } ]

/-- Rows of the DROVE page, part 2. -/
def rowsDROVEb : List RegRow :=
  [ { base := 0x1008, s1 := 0x20, n1 := 60 },
    { base := 0x100C, s1 := 0x20, n1 := 60, rw := 0xFFFFFFFF },
    { base := 0x1010, s1 := 0x20, n1 := 60, rw := 0xFFFFFF00 },
    { base := 0x1014, s1 := 0x20, n1 := 60, rw := 0x201FFFFF, reset := 0xC0000 },
    { base := 0x1018, s1 := 0x20, n1 := 60, rw := 0xFFFFFFFF },
    { base := 0x101C, s1 := 0x20, n1 := 60 } ]

/-- Rows of the DROVE page. -/
def rowsDROVE : List RegRow := rowsDROVEa ++ rowsDROVEb

/-- Rows of the MEMCTL page. -/
def rowsMEMCTL : List RegRow :=
  [ { base := 0x4, rw := 0x1FF00, reset := 0x10400 },
    { base := 0x8, w1c := 0x3FF },
    { base := 0xC, rw := 0xFFFFFFFF },
    { base := 0x10, rw := 0xFFFFFFFF },
    { base := 0x14, rw := 0xFFFFFFFF },
    { base := 0x18 },
    { base := 0x1C },
    { base := 0x20 },
    { base := 0x24 },
    { base := 0x30, rw := 0xFFFFFFE0 },
    { base := 0x34, rw := 0x8003FFFF } ]

/-- Rows of the MULE page. -/
def rowsMULE : List RegRow :=
  [ { base := 0x4, reset := 0x2000 },
    { base := 0x8, w1c := 0xF },
    { base := 0xC, wo := 0x8003FFFF },
    { base := 0x10, wo := 0xFFFFFFFF },
    { base := 0x14 },
    { base := 0x18 },
    { base := 0x1C } ]

/-- Rows of the PACKHORSE page. -/
def rowsPACKHORSE : List RegRow :=
  [ { base := 0x4, w1c := 0x1 },
    { base := 0x100, s1 := 0x20, n1 := 8, rw := 0xFFFFFFF0 },
    { base := 0x104, s1 := 0x20, n1 := 8, rw := 0xFFFF },
    { base := 0x108, s1 := 0x20, n1 := 8, rw := 0x1F3, reset := 0x40 },
    { base := 0x10C, s1 := 0x20, n1 := 8 },
    { base := 0x110, s1 := 0x20, n1 := 8, rw := 0xFFFFFFFF },
    { base := 0x400, s1 := 0x400, n1 := 32, rw := 0xF },
    { base := 0x404, s1 := 0x400, n1 := 32, wo := 0x80000007 },
    { base := 0x408, s1 := 0x400, n1 := 32 },
    { base := 0x40C, s1 := 0x400, n1 := 32, w1c := 0x3F },
    { base := 0x410, s1 := 0x400, n1 := 32, rw := 0x3F, reset := 0x3D },
    { base := 0x414, s1 := 0x400, n1 := 32, rw := 0xFFFFFFE0 },
    { base := 0x418, s1 := 0x400, n1 := 32, rw := 0xFFFF },
    { base := 0x41C, s1 := 0x400, n1 := 32, rw := 0x1FFFF, reset := 0x1 },
    { base := 0x420, s1 := 0x400, n1 := 32, rw := 0xFFFF },
    { base := 0x424, s1 := 0x400, n1 := 32 },
    { base := 0x428, s1 := 0x400, n1 := 32 },
    { base := 0x42C, s1 := 0x400, n1 := 32 },
    { base := 0x430, s1 := 0x400, n1 := 32 } ]

/-- Rows of the CHECK page. -/
def rowsCHECK : List RegRow :=
  [ { base := 0x4, rw := 0x7FFF0F },
    { base := 0x8, rw := 0xFF07, reset := 0xE002 },
    { base := 0xC, rw := 0xFFFFFFFF },
    { base := 0x10, rw := 0xFFFFFFFF },
    { base := 0x14, rw := 0xFFFFFFFF },
    { base := 0x18, rw := 0xFFFFFFFF, reset := 0x40 },
    { base := 0x1C, rw := 0xFFFFFF },
    { base := 0x20, rw := 0xFFFFFFFF },
    { base := 0x24, rw := 0xFFFFFFFF },
    { base := 0x28, rw := 0xFFFFFFFF },
    { base := 0x2C, rw := 0xFFFFFFFF },
    { base := 0x30 },
    { base := 0x34, w1c := 0x7F },
    { base := 0x38, rw := 0x7F, reset := 0x77 },
    { base := 0x40, rw := 0xFFFFFFFF },
    { base := 0x44, rw := 0xFFFFFFFF },
    { base := 0x48, rw := 0xFFFFFFFF },
    { base := 0x4C, rw := 0xFFFFFFFF },
    { base := 0x50 },
    { base := 0x58, wo := 0xFFFFFFFF },
    { base := 0x5C, wo := 0xFFFFFFFF },
    { base := 0x60, wo := 0x3 } ]

/-- Rows of the GPIO page. -/
def rowsGPIO : List RegRow :=
  [ { base := 0x4, w1c := 0xF },
    { base := 0x8, rw := 0xF, reset := 0x7 },
    { base := 0xC },
    { base := 0x800, s1 := 0x40, n1 := 8, s2 := 0x8, n2 := 4, rw := 0xFFFFFFFF },
    { base := 0x804, s1 := 0x40, n1 := 8, s2 := 0x8, n2 := 4, rw := 0xFFFFFFFF },
    { base := 0x1000, s1 := 0x4, n1 := 128, rwl := 0x3FFF, reset := 0x120 },
    { base := 0x100, s1 := 0x100, n1 := 4 },
    { base := 0x104, s1 := 0x100, n1 := 4, rw := 0xFFFFFFFF },
    { base := 0x108, s1 := 0x100, n1 := 4, wo := 0xFFFFFFFF },
    { base := 0x10C, s1 := 0x100, n1 := 4, wo := 0xFFFFFFFF },
    { base := 0x110, s1 := 0x100, n1 := 4, w1c := 0xFFFFFFFF },
    { base := 0x114, s1 := 0x100, n1 := 4, w1c := 0xFFFFFFFF },
    { base := 0x118, s1 := 0x100, n1 := 4, rw := 0xFFFFFFFF },
    { base := 0x11C, s1 := 0x100, n1 := 4, rw := 0xFFFFFFFF },
    { base := 0x120, s1 := 0x100, n1 := 4, wo := 0xFFFFFFFF },
    { base := 0x124, s1 := 0x100, n1 := 4, wo := 0xFFFFFFFF },
    { base := 0x128, s1 := 0x100, n1 := 4 },
    { base := 0x12C, s1 := 0x100, n1 := 4 } ]

/-- Rows of the TIMER page. -/
def rowsTIMER : List RegRow :=
  [ { base := 0x4, rw := 0xF },
    { base := 0x8, wo := 0x80000007 },
    { base := 0xC, rw := 0xFFFFFFFF },
    { base := 0x10, rw := 0xFFFFFFFF },
    { base := 0x100, s1 := 0x40, n1 := 4, rw := 0x3FFFFFF },
    { base := 0x104, s1 := 0x40, n1 := 4 },
    { base := 0x108, s1 := 0x40, n1 := 4, w1c := 0xFF },
    { base := 0x10C, s1 := 0x40, n1 := 4, rw := 0xFF, reset := 0xB8 },
    { base := 0x110, s1 := 0x40, n1 := 4, rw := 0xFFFFFFFF },
    { base := 0x114, s1 := 0x40, n1 := 4, rw := 0xFFFFFFFF },
    { base := 0x118, s1 := 0x40, n1 := 4, rw := 0xFFFFFFFF, reset := 0xFFFFFFFF },
    { base := 0x11C, s1 := 0x40, n1 := 4 },
    { base := 0x120, s1 := 0x40, n1 := 4 },
    { base := 0x124, s1 := 0x40, n1 := 4 },
    { base := 0x128, s1 := 0x40, n1 := 4, wo := 0x80000007 } ]

/-- Rows of the AUDIO page, part 1. -/
def rowsAUDIOa : List RegRow :=
  [ { base := 0x4 },
    { base := 0x8, w1c := 0x7FFF },
    { base := 0xC, rw := 0x7FFF, reset := 0x7BEE },
    { base := 0x10, rw := 0xFFFFFFFF },
    { base := 0x14, rw := 0xFFFFFFFF },
    { base := 0x18, rw := 0xFFFFFFFF },
    { base := 0x1C },
    { base := 0x100, s1 := 0x4, n1 := 128, rw := 0x3F },
    { base := 0x400, s1 := 0x4, n1 := 128 },
    { base := 0x600, s1 := 0x4, n1 := 128 },
    { base := 0x800, s1 := 0x20, n1 := 8, rw := 0x7FF },
    { base := 0x804, s1 := 0x20, n1 := 8, w1c := 0x2 },
    { base := 0x808, s1 := 0x20, n1 := 8, s2 := 0x4, n2 := 4, rw := 0xBFBFBFBF },
    { base := 0x900, s1 := 0x4, n1 := 32, rw := 0xFF },
    { base := 0x980, rw := 0xFFFF },
    { base := 0xA00, s1 := 0x10, n1 := 80, rw := 0xFFFFFFFC },
    { base := 0xA04, s1 := 0x10, n1 := 80, rw := 0x801FFFFF, reset := 0x40000 },
    { base := 0xA08, s1 := 0x10, n1 := 80, rw := 0xFFFFFFFF },
    { base := 0xA0C, s1 := 0x10, n1 := 80, rw := 0xFFFFFFFF },
    { base := 0x1000, rw := 0xFFFFFFFF },
    { base := 0x1004, rw := 0x7FFFFFF },
    { base := 0x1008, wo := 0x8000003F },
    { base := 0x100C },
    { base := 0x1010, rw := 0xF } ]

/-- Rows of the AUDIO page, part 2. -/
def rowsAUDIOb : List RegRow :=
  [ { base := 0x2000, rw := 0x1F },
    { base := 0x2004, rw := 0xFFFFFFFC },
    { base := 0x2008, rw := 0xFFFF },
    { base := 0x200C, rw := 0xFFFFFFFC },
    { base := 0x2010, rw := 0xFFFF },
    { base := 0x2014, rw := 0xFFFF, reset := 0x1 },
    { base := 0x2018, wo := 0x80000001 },
    { base := 0x201C, rw := 0xFFFFFFFF },
    { base := 0x2100, s1 := 0x4, n1 := 64, rw := 0xFFFFFFFF },
    { base := 0x2200, s1 := 0x4, n1 := 128 } ]

/-- Rows of the AUDIO page. -/
def rowsAUDIO : List RegRow := rowsAUDIOa ++ rowsAUDIOb

/-- Rows of the XPOINT page. -/
def rowsXPOINT : List RegRow :=
  [ { base := 0x0, s1 := 0x200, n1 := 128, s2 := 0x4, n2 := 128, rw := 0xFFFF } ]

/-- Rows of the VOICES page. -/
def rowsVOICES : List RegRow :=
  [ { base := 0x8000, s1 := 0x40, n1 := 512, rw := 0xFFF },
    { base := 0x8004, s1 := 0x40, n1 := 512, rw := 0xFFFFFFFF },
    { base := 0x8008, s1 := 0x40, n1 := 512, rw := 0xFFFF },
    { base := 0x800C, s1 := 0x40, n1 := 512, rw := 0xFFFFFFFF, reset := 0x1 },
    { base := 0x8010, s1 := 0x40, n1 := 512, rw := 0xFFFFFFFF },
    { base := 0x8014, s1 := 0x40, n1 := 512, rw := 0xFFFFFFFF, reset := 0x1000000 },
    { base := 0x8018, s1 := 0x40, n1 := 512, rw := 0xFFFFFFFF },
    { base := 0x801C, s1 := 0x40, n1 := 512, rw := 0xFFFFFFFF },
    { base := 0x8020, s1 := 0x40, n1 := 512, rw := 0xFFFFFFFF },
    { base := 0x8024, s1 := 0x40, n1 := 512, s2 := 0x4, n2 := 4, rw := 0xFFFF007F },
    { base := 0x8034, s1 := 0x40, n1 := 512, wo := 0x80000003 },
    { base := 0x8038, s1 := 0x40, n1 := 512 },
    { base := 0x803C, s1 := 0x40, n1 := 512, w1c := 0x78 } ]

/-- Rows of the YOKE page. -/
def rowsYOKE : List RegRow :=
  [ { base := 0x4, w1c := 0x10 },
    { base := 0x8 },
    { base := 0x10, rw := 0xFF, reset := 0xF },
    { base := 0x14, rw := 0xFFFFFFFF },
    { base := 0x18, rw := 0xFFFFFFFF },
    { base := 0x1C },
    { base := 0x40, s1 := 0x4, n1 := 14, rw := 0x800FFFFF } ]

/-- Rows of the FLOCK page. -/
def rowsFLOCK : List RegRow :=
  [ { base := 0x4, reset := 0xF080 },
    { base := 0x8, reset := 0x76543210 },
    { base := 0xC, rw := 0xFFFF, reset := 0x200 },
    { base := 0x10, w1c := 0xF },
    { base := 0x14, rw := 0xF, reset := 0xF },
    { base := 0x18, reset := 0xFFFF },
    { base := 0x1C, rw := 0xFFFFFFFF } ]

/-- Rows of the CELL page. -/
def rowsCELL : List RegRow :=
  [ { base := 0x4 },
    { base := 0x8 },
    { base := 0xC, reset := 0xFFFF },
    { base := 0x10, reset := 0xFFFF },
    { base := 0x14, rw := 0xFFFFFFFF },
    { base := 0x18, w1c := 0x3 },
    { base := 0x20, s1 := 0x4, n1 := 8 },
    { base := 0x40 } ]

/-- Rows of the COMP page. -/
def rowsCOMP : List RegRow :=
  [ { base := 0x4, rw := 0x3F },
    { base := 0x8, rw := 0x3FFFFFFF },
    { base := 0xC, rw := 0xFFFFFFFF, reset := 0xFFFFFFFF },
    { base := 0x10, w1c := 0xF7 },
    { base := 0x14, rw := 0x1, reset := 0x1 },
    { base := 0x18, rw := 0xFFFFFFFF },
    { base := 0x1C, rw := 0xFFFFFFFF },
    { base := 0x20 },
    { base := 0x200, s1 := 0x20, n1 := 32, rw := 0xFF, reset := 0x1 },
    { base := 0x204, s1 := 0x20, n1 := 32, rw := 0x3FF, reset := 0x3FF },
    { base := 0x208, s1 := 0x20, n1 := 32, rw := 0x3FFFFFFF },
    { base := 0x20C, s1 := 0x20, n1 := 32, rw := 0x3FFFFFFF },
    { base := 0x210, s1 := 0x20, n1 := 32 },
    { base := 0x800, s1 := 0x40, n1 := 4, rw := 0x1FFF1FFF },
    { base := 0x804, s1 := 0x40, n1 := 4, rw := 0x1FFF1FFF, reset := 0x4380780 },
    { base := 0x8000, s1 := 0x800, n1 := 4, s2 := 0x4, n2 := 256, rw := 0xFFFFFFFF },
    { base := 0x8400, s1 := 0x800, n1 := 4, s2 := 0x4, n2 := 128, rw := 0xFFFFFFFF } ]

/-- Rows of the LS page. -/
def rowsLS : List RegRow :=
  [ { base := 0x4, rw := 0x1 },
    { base := 0x8 },
    { base := 0xC, wo := 0x80000001 },
    { base := 0x10 },
    { base := 0x14, w1c := 0xFFF },
    { base := 0x18, rw := 0x1F, reset := 0x10 },
    { base := 0x1C, rw := 0xFFFFFFFF },
    { base := 0x20, rw := 0xFFFFFFFF },
    { base := 0x24 },
    { base := 0x28 },
    { base := 0x8000, s1 := 0x4, n1 := 4096, rw := 0xFFFFFFFF },
    { base := 0xC000, s1 := 0x4, n1 := 4096, rw := 0xFFFFFFFF } ]

/-- Rows of the SCAN page. -/
def rowsSCAN : List RegRow :=
  [ { base := 0x4 },
    { base := 0x8, wo := 0x3 },
    { base := 0xC, w1c := 0x1FFF },
    { base := 0x10, rw := 0x1FFF, reset := 0x1FC },
    { base := 0x14, rw := 0x3FFF1FFF, reset := 0x1FFF },
    { base := 0x18 },
    { base := 0x1C },
    { base := 0x20 },
    { base := 0x24 },
    { base := 0x28 },
    { base := 0x2C },
    { base := 0x30, rw := 0xFFFFFFFF },
    { base := 0x34, rw := 0xFF01 },
    { base := 0x38 },
    { base := 0x3C },
    { base := 0x40 },
    { base := 0x44, rw := 0x3 },
    { base := 0x48 } ]

/-- Rows of the PHY page. -/
def rowsPHY : List RegRow :=
  [ { base := 0x4 },
    { base := 0x8 },
    { base := 0xC, rw := 0x7, reset := 0x7 },
    { base := 0x10, wo := 0x8FFFFFFF },
    { base := 0x14 },
    { base := 0x20, s1 := 0x4, n1 := 4, rw := 0xFFFFFFFF } ]

/-- Rows of the MAT page. -/
def rowsMAT : List RegRow :=
  [ { base := 0x100, s1 := 0x40, n1 := 4, rw := 0x7, reset := 0x2 },
    { base := 0x104, s1 := 0x40, n1 := 4, s2 := 0x4, n2 := 9, rw := 0xFFFFF },
    { base := 0x128, s1 := 0x40, n1 := 4, s2 := 0x4, n2 := 3, rw := 0x3FFF },
    { base := 0x134, s1 := 0x40, n1 := 4, s2 := 0x4, n2 := 3, rw := 0x3FFF },
    { base := 0x200, rw := 0x7, reset := 0x1 },
    { base := 0x204, s1 := 0x4, n1 := 9, rw := 0xFFFFF },
    { base := 0x228, s1 := 0x4, n1 := 3, rw := 0x3FFF },
    { base := 0x234, s1 := 0x4, n1 := 3, rw := 0x3FFF },
    { base := 0x1000, s1 := 0x4, n1 := 512, rw := 0xFFF0FFF },
    { base := 0x4000, s1 := 0x4, n1 := 2048, rw := 0xFFF0FFF },
    { base := 0x6000, s1 := 0x4, n1 := 2048, rw := 0xFFF0FFF },
    { base := 0x8000, s1 := 0x4, n1 := 2048, rw := 0xFFF0FFF } ]

/-- Rows of the TILE page, part 1. -/
def rowsTILEa : List RegRow :=
  [ { base := 0x100, rw := 0x1FFFFF, reset := 0x101000 },
    { base := 0x104, rw := 0xFFFFF000 },
    { base := 0x108, rw := 0xFFFF },
    { base := 0x10C, rw := 0xFF, reset := 0x55 },
    { base := 0x110, rw := 0xFFFFFF00 },
    { base := 0x114, rw := 0xFFFF },
    { base := 0x118, rw := 0x1FFFF },
    { base := 0x11C, rw := 0x1FFFF },
    { base := 0x120, rw := 0xFFFFFFF0 },
    { base := 0x124, rw := 0xFFFF },
    { base := 0x128, rw := 0xFFFFFFF0 },
    { base := 0x12C, rw := 0xFFFF },
    { base := 0x130, rw := 0xFFFFFFFF, reset := 0x10000 },
    { base := 0x134, rw := 0xFFFFFFFF },
    { base := 0x138, rw := 0xFFFFFFFF },
    { base := 0x13C, rw := 0xFFFFFFFF, reset := 0x10000 },
    { base := 0x140, rw := 0xFFFFFFFF },
    { base := 0x144, rw := 0xFFFFFFFF },
    { base := 0x148, rw := 0xFFFFFFFF },
    { base := 0x150, rw := 0x1FFF1FFF, reset := 0x1FFF0000 },
    { base := 0x154, rw := 0x1FFF1FFF, reset := 0x1FFF0000 },
    { base := 0x158, rw := 0x1FFF1FFF, reset := 0x1FFF0000 },
    { base := 0x15C, rw := 0x1FFF1FFF, reset := 0x1FFF0000 },
    { base := 0x160, rw := 0xF } ]

/-- Rows of the TILE page, part 2. -/
def rowsTILEb : List RegRow :=
  [ { base := 0x170, w1c := 0x7 },
    { base := 0x174, rw := 0xFFFFFFFF },
    { base := 0x178, wo := 0x1 },
    { base := 0x17C } ]

/-- Rows of the TILE page. -/
def rowsTILE : List RegRow := rowsTILEa ++ rowsTILEb

/-- Rows of the SPR page, part 1. -/
def rowsSPRa : List RegRow :=
  [ { base := 0x100, rw := 0xF, reset := 0xA },
    { base := 0x104, rw := 0xFFFFFFF0 },
    { base := 0x108, rw := 0xFFFF },
    { base := 0x10C, rw := 0x1FFF },
    { base := 0x110, rw := 0xFFFFFFC0 },
    { base := 0x114, rw := 0xFFFF },
    { base := 0x118, rw := 0x3FFF01FF, reset := 0x100 },
    { base := 0x11C, wo := 0x1 },
    { base := 0x120, rw := 0xFFFFFFFF },
    { base := 0x124, rw := 0xFFFFFFFF },
    { base := 0x128, rw := 0xFFFFFF00 },
    { base := 0x12C, rw := 0xFFFF },
    { base := 0x130, rw := 0x1F, reset := 0x4 },
    { base := 0x134 },
    { base := 0x138, rw := 0xFFFFFFFF },
    { base := 0x13C, rw := 0xFFFFFFFF },
    { base := 0x150, rw := 0x1FFF1FFF, reset := 0x1FFF0000 },
    { base := 0x154, rw := 0x1FFF1FFF, reset := 0x1FFF0000 },
    { base := 0x158, rw := 0x1FFF1FFF, reset := 0x1FFF0000 },
    { base := 0x15C, rw := 0x1FFF1FFF, reset := 0x1FFF0000 },
    { base := 0x160, rw := 0xF },
    { base := 0x170, w1c := 0x1FF },
    { base := 0x174, rw := 0xFFFFFFFF },
    { base := 0x178, wo := 0x1 } ]

/-- Rows of the SPR page, part 2. -/
def rowsSPRb : List RegRow :=
  [ { base := 0x17C },
    { base := 0x180 },
    { base := 0x184 },
    { base := 0x188 } ]

/-- Rows of the SPR page. -/
def rowsSPR : List RegRow := rowsSPRa ++ rowsSPRb

/-- Rows of the FB page. -/
def rowsFB : List RegRow :=
  [ { base := 0x100, rw := 0xF },
    { base := 0x104, rw := 0xFFFFFFC0 },
    { base := 0x108, rw := 0xFFFF },
    { base := 0x10C, rw := 0xFFFFF },
    { base := 0x110, rw := 0x1FFF1FFF, reset := 0x4380780 },
    { base := 0x114, rw := 0x1FFF1FFF },
    { base := 0x118, rw := 0x1FFF1FFF },
    { base := 0x11C, rw := 0xFFFFFFC0 },
    { base := 0x120, rw := 0xFFFF },
    { base := 0x124, w1s := 0x1 },
    { base := 0x170, w1c := 0xF },
    { base := 0x174, rw := 0xFFFFFFFF } ]

/-- Rows of the VIDC page. -/
def rowsVIDC : List RegRow :=
  [ { base := 0x100, rw := 0x7 },
    { base := 0x104, rw := 0xFFFFFFC0 },
    { base := 0x108, rw := 0xFFFF },
    { base := 0x10C, rw := 0xFFFFFFC0 },
    { base := 0x110, rw := 0xFFFF },
    { base := 0x114, rw := 0xFFFFFFFF },
    { base := 0x118, rw := 0x1FFF1FFF, reset := 0x4380780 },
    { base := 0x170, w1c := 0x7 },
    { base := 0x174, rw := 0xFFFFFFFF } ]

/-- The row of a register table that carries page offset `o`, with its two indices. -/
def RegRow.at? (r : RegRow) (o : Nat) : Option (Nat × Nat) :=
  if o < r.base then none else
  let d := o - r.base
  let i := if r.n1 = 1 then 0 else d / r.s1
  let e := d - i * r.s1
  let j := if r.n2 = 1 then 0 else e / r.s2
  if e - j * r.s2 = 0 && i < r.n1 && j < r.n2 then some (i, j) else none

/-- Look an offset up in a page's table. -/
def findRow : List RegRow → Nat → Option (RegRow × Nat × Nat)
  | [], _ => none
  | r :: rs, o => match r.at? o with
    | some (i, j) => some (r, i, j)
    | none => findRow rs o

/-- The rows of a page, cell pages without their layer areas (those depend on the cell's kind, R106). -/
def Page.rows : Page → List RegRow
  | .global => rowsGLOBAL | .grenhiund => rowsGRENHIUND | .image => rowsIMAGE | .keep => rowsKEEP
  | .bellwether => rowsBELLWETHER | .conj => rowsCONJ | .herd => rowsHERD | .net => rowsNET | .drove => rowsDROVE
  | .memctl => rowsMEMCTL | .mule => rowsMULE | .packhorse => rowsPACKHORSE
  | .check m => if m < 8 then rowsCHECK else []
  | .gpio => rowsGPIO
  | .timer u => if u < 8 then rowsTIMER else []
  | .audio => rowsAUDIO | .xpoint => rowsXPOINT | .voices => rowsVOICES | .yoke _ => rowsYOKE
  | .flock _ => rowsFLOCK | .cell _ _ => rowsCELL | .comp _ => rowsCOMP | .ls _ => rowsLS | .scan _ => rowsSCAN
  | .phy _ => rowsPHY | .mat _ => rowsMAT

/-- Whether a page carries registers: the upper halves of the CHECK and TIMER blocks carry none (R8, R35). -/
def Page.carries : Page → Bool
  | .check m => m < 8
  | .timer u => u < 8
  | _ => true

/-- Two 12-bit table entries packed as DEGAMMA and GAMMA words hold them (R204). -/
def pack12 (a b : Nat) : Word := BitVec.ofNat 32 (a + b * 0x10000)
/-- Identity degamma entry i (R204): (i << 2) | (i >> 8). -/
def degammaId (i : Nat) : Nat := i * 4 + i / 256
/-- Two signed Q2.14 taps packed as VS_HCOEF and VS_VCOEF words hold them (R204). -/
def packTap (a b : Nat) : Word := BitVec.ofNat 32 (a + b * 0x10000)
/-- Linear interpolation taps: at phase `ph` of 64 the tap `c` holds (64 - ph) / 64 and the next one ph / 64, in Q2.14.
DEDUCED from the reset entry "linear" of VS_HCOEF and VS_VCOEF and from the tap positions of R194 (log entry 5). -/
def linTap (c ph t : Nat) : Nat := if t = c then (64 - ph) * 256 else if t = c + 1 then ph * 256 else 0

/-- The word a register holds after power-on reset while nothing has written it (R14): the value its table gives;
0 for an "image" or "keep" field the factory does not set (log entry 2). DEDUCED, log entry 5; DESIGN CHOICE, log entry 115. -/
def resetWord (off : Nat) : Word :=
  match pageOf off with
  | none => 0
  | some (p, o) =>
    match findRow p.rows o with
    | none => 0
    | some (r, i, j) =>
      match p with
      | .grenhiund => if r.base = 0x040 then BitVec.ofNat 32 (2 * i + (2 * i + 1) * 32) else r.reset
      | .packhorse => if r.base = 0x408 then BitVec.ofNat 32 (i * 256) else r.reset
      | .cell _ q => if r.base = 0x004 then BitVec.ofNat 32 (q * 0x110) else r.reset
      | .comp _ =>
        if r.base = 0x8000 then packTap (linTap 3 (j / 4) (2 * (j % 4))) (linTap 3 (j / 4) (2 * (j % 4) + 1))
        else if r.base = 0x8400 then packTap (linTap 1 (j / 2) (2 * (j % 2))) (linTap 1 (j / 2) (2 * (j % 2) + 1))
        else r.reset
      | .mat _ =>
        if r.base = 0x104 then (if j % 4 = 0 then 0x10000 else 0)
        else if r.base = 0x204 then (if i % 4 = 0 then 0x10000 else 0)
        else if r.base = 0x1000 then pack12 (degammaId (2 * i)) (degammaId (2 * i + 1))
        else if r.base = 0x4000 ∨ r.base = 0x6000 ∨ r.base = 0x8000 then pack12 (2 * i) (2 * i + 1)
        else r.reset
      | .keep => if r.base = 0x014 then 0xE0 else r.reset
      | .global => if r.base = 0x034 then 10 else r.reset
      | _ => r.reset


namespace Reg

def REGIME_STATUS : Nat := 0x4

def REGIME_CTRL : Nat := 0x8

def MODE : Nat := 0xC

def GLOBAL_GEN : Nat := 0x10

def PWR_CMD : Nat := 0x20

def PWR_STATUS : Nat := 0x24

def PWR_FLAGS : Nat := 0x28

def RESET_CAUSE : Nat := 0x2C

def SW_RESET : Nat := 0x30

def BOOT_WDT : Nat := 0x34

def DBG_LOCK : Nat := 0x38

def DBG_STATUS : Nat := 0x3C

def ST_STATUS : Nat := 0x10004

def ST_FLAGS : Nat := 0x10008

def ST_IRQ_EN : Nat := 0x1000C

def GEN_BUMP : Nat := 0x10010

def RAIL_STATUS : Nat := 0x10020

def RAIL_UPS : Nat := 0x10024

def RAIL_DOWNS : Nat := 0x10028

def YOKE_STATE (y : Nat) : Nat := 0x10040 + 0x4 * y

def ROLLBACKS (y : Nat) : Nat := 0x10060 + 0x4 * y

def CKPT_HT (y : Nat) : Nat := 0x10080 + 0x4 * y

def YOKE_CTRL : Nat := 0x100A0

def ROVE_CTRL : Nat := 0x100B0

def SELFTEST_REQ : Nat := 0x100B4

def SELFTEST_STATUS : Nat := 0x100B8

def REPAIR_CORES : Nat := 0x10100

def REPAIR_SLICES : Nat := 0x10104

def REPAIR_PH : Nat := 0x10108

def REPAIR_LANES : Nat := 0x1010C

def REPAIR_MEM : Nat := 0x10110

def PPR_PENDING : Nat := 0x10114

def NOCELL (i : Nat) : Nat := 0x10120 + 0x4 * i

def FAULT_COUNT : Nat := 0x10140

def LOG_DROPS : Nat := 0x10144

def SHADOW_MISMATCH : Nat := 0x10148

def SHADOW_BENIGN : Nat := 0x1014C

def HANDOFFS : Nat := 0x10150

def IMAGE_STATUS : Nat := 0x20004

def IMAGE_SERIAL : Nat := 0x20008

def SLOT_CTRL : Nat := 0x2000C

def BOOT_OK : Nat := 0x20010

def MIN_SERIAL : Nat := 0x20014

def KEY_REVOKE : Nat := 0x20018

def STAGE_ADDR_LO : Nat := 0x20020

def STAGE_ADDR_HI : Nat := 0x20024

def STAGE_LEN : Nat := 0x20028

def STAGE_CMD : Nat := 0x2002C

def STAGE_STATUS : Nat := 0x20030

def REPEN_CTRL : Nat := 0x20040

def REPEN_STATUS : Nat := 0x20044

def PEN_VARIANT (f : Nat) : Nat := 0x20080 + 0x4 * f

def KEY_HASH (k i : Nat) : Nat := 0x20100 + 0x40 * k + 0x4 * i

def KEEP_STATUS : Nat := 0x30004

def KEEP_FLAGS : Nat := 0x30008

def WEAR_ADDR : Nat := 0x3000C

def RATE_ADDR : Nat := 0x30010

def OPEN_FROM : Nat := 0x30014

def METER_OPEN : Nat := 0x30018

def WEAR_SEL : Nat := 0x30020

def WEAR_COUNT : Nat := 0x30024

def KEEP_CORR : Nat := 0x30028

def REC_CTRL : Nat := 0x30040

def REC_CMD : Nat := 0x30044

def REC_STATUS : Nat := 0x30048

def REC_DATA (i : Nat) : Nat := 0x30100 + 0x4 * i

def METER_LO (m : Nat) : Nat := 0x30200 + 0x10 * m

def METER_HI (m : Nat) : Nat := 0x30204 + 0x10 * m

def ADD_HI (m : Nat) : Nat := 0x30208 + 0x10 * m

def METER_ADD (m : Nat) : Nat := 0x3020C + 0x10 * m

def BW_FLAGS : Nat := 0x40004

def BW_IRQ_EN : Nat := 0x40008

def SWI_SET (i : Nat) : Nat := 0x40040 + 0x4 * i

def SWI_CLR (i : Nat) : Nat := 0x40050 + 0x4 * i

def PENDING (w : Nat) : Nat := 0x40080 + 0x4 * w

def CLAIM (y : Nat) : Nat := 0x40200 + 0x20 * y

def COMPLETE (y : Nat) : Nat := 0x40204 + 0x20 * y

def RUN_PRIO (y : Nat) : Nat := 0x40208 + 0x20 * y

def BASE_PRIO (y : Nat) : Nat := 0x4020C + 0x20 * y

def STACK_TOP (y : Nat) : Nat := 0x40210 + 0x20 * y

def COAL_CFG (k : Nat) : Nat := 0x40400 + 0x10 * k

def COAL_TIME (k : Nat) : Nat := 0x40404 + 0x10 * k

def COAL_STATUS (k : Nat) : Nat := 0x40408 + 0x10 * k

def COAL_FIRST (k : Nat) : Nat := 0x4040C + 0x10 * k

def SRC_CFG (n : Nat) : Nat := 0x41000 + 0x4 * n

def SRC_STATE (n : Nat) : Nat := 0x42000 + 0x4 * n

def CONJ_FLAGS : Nat := 0x50004

def CONJ_IRQ_EN : Nat := 0x50008

def CLAUSE_STATE : Nat := 0x5000C

def CLAUSE_SET : Nat := 0x50010

def CLAUSE_CLR : Nat := 0x50014

def SW_FIRE : Nat := 0x50020

def IRQ_LATCH : Nat := 0x50024

def LOOP_COUNT : Nat := 0x50030

def OVERRUN_COUNT : Nat := 0x50034

def COLLAPSE_COUNT : Nat := 0x50038

def LAST_LOOP : Nat := 0x5003C

def CH_CFG (n : Nat) : Nat := 0x51000 + 0x10 * n

def CH_CTRL (n : Nat) : Nat := 0x51004 + 0x10 * n

def CH_STATUS (n : Nat) : Nat := 0x51008 + 0x10 * n

def CH_COUNT (n : Nat) : Nat := 0x5100C + 0x10 * n

def TASK_STATE (t : Nat) : Nat := 0x54000 + 0x4 * t

def HERD_STATUS : Nat := 0x60004

def HERD_ID : Nat := 0x60008

def HT_LO : Nat := 0x6000C

def HT_HI : Nat := 0x60010

def SPAN : Nat := 0x60014

def HERD_FLAGS : Nat := 0x60018

def HERD_IRQ_EN : Nat := 0x6001C

def EPOCH_LO : Nat := 0x60020

def EPOCH_HI : Nat := 0x60024

def TIME_CTRL : Nat := 0x60028

def HT_SET_LO : Nat := 0x6002C

def HT_SET_HI : Nat := 0x60030

def HT_SET_CMD : Nat := 0x60034

def TIME_ERR : Nat := 0x60038

def LINK_DELAY_A : Nat := 0x6003C

def LINK_DELAY_B : Nat := 0x60040

def LINK_DELAY_SET : Nat := 0x60044

def RING_CRC_A : Nat := 0x60048

def RING_CRC_B : Nat := 0x6004C

def REVERSALS : Nat := 0x60050

def PPS_IN_LO : Nat := 0x60054

def PPS_IN_HI : Nat := 0x60058

def CUE_L_LO : Nat := 0x60100

def CUE_L_HI : Nat := 0x60104

def CUE_CMD : Nat := 0x60108

def CUE_RESULT : Nat := 0x6010C

def CUE_LEAD_MIN : Nat := 0x60110

def CEN_T_LO : Nat := 0x60200

def CEN_T_HI : Nat := 0x60204

def CEN_CMD : Nat := 0x60208

def CEN_GROUPS : Nat := 0x6020C

def CEN_STATUS : Nat := 0x60210

def CEN_RELEASE : Nat := 0x60214

def CEN_SKIPS : Nat := 0x60218

def CUE_CFG (s : Nat) : Nat := 0x62000 + 0x20 * s

def CUE_ACT (s : Nat) : Nat := 0x62004 + 0x20 * s

def CUE_SL_LO (s : Nat) : Nat := 0x62008 + 0x20 * s

def CUE_SL_HI (s : Nat) : Nat := 0x6200C + 0x20 * s

def CUE_STATE (s : Nat) : Nat := 0x62010 + 0x20 * s

def CUE_FIRED_LO (s : Nat) : Nat := 0x62014 + 0x20 * s

def CUE_FIRED_HI (s : Nat) : Nat := 0x62018 + 0x20 * s

def NET_CTRL : Nat := 0x70004

def NET_STATUS : Nat := 0x70008

def NET_FLAGS : Nat := 0x7000C

def NET_IRQ_EN : Nat := 0x70010

def MAC_ADDR_LO : Nat := 0x70014

def MAC_ADDR_HI : Nat := 0x70018

def MCAST_LO (k : Nat) : Nat := 0x70040 + 0x8 * k

def MCAST_HI (k : Nat) : Nat := 0x70044 + 0x8 * k

def VID (k : Nat) : Nat := 0x700C0 + 0x4 * k

def RULE (k : Nat) : Nat := 0x70100 + 0x4 * k

def RX_BASE_LO (r : Nat) : Nat := 0x70200 + 0x20 * r

def RX_CFG (r : Nat) : Nat := 0x70204 + 0x20 * r

def RX_BUF (r : Nat) : Nat := 0x70208 + 0x20 * r

def RX_HEAD (r : Nat) : Nat := 0x7020C + 0x20 * r

def TX_BASE_LO (t : Nat) : Nat := 0x70300 + 0x20 * t

def TX_CFG (t : Nat) : Nat := 0x70304 + 0x20 * t

def TX_HEAD (t : Nat) : Nat := 0x70308 + 0x20 * t

def TX_KICK (t : Nat) : Nat := 0x7030C + 0x20 * t

def PTP_CTRL : Nat := 0x70400

def RX_LAT_ADJ : Nat := 0x70404

def TX_LAT_ADJ : Nat := 0x70408

def PTP_MEAS_HT_LO : Nat := 0x70410

def PTP_MEAS_HT_HI : Nat := 0x70414

def PTP_MEAS_OFS : Nat := 0x70418

def PTP_FREQ : Nat := 0x7041C

def PTP_STATUS : Nat := 0x70420

def STAT_LO (i : Nat) : Nat := 0x70800 + 0x8 * i

def STAT_HI (i : Nat) : Nat := 0x70804 + 0x8 * i

def DRV_CTRL : Nat := 0x80004

def DRV_STATUS : Nat := 0x80008

def DRV_FLAGS : Nat := 0x8000C

def DRV_IRQ_EN : Nat := 0x80010

def LANE_MAP_TX : Nat := 0x80014

def LANE_MAP_RX : Nat := 0x80018

def LOCAL_ID : Nat := 0x8001C

def PEER_ID : Nat := 0x80020

def REPLAY_USED : Nat := 0x80024

def BAD_FRAMES : Nat := 0x80040

def NAKS_SENT : Nat := 0x80044

def NAKS_RCVD : Nat := 0x80048

def REPLAYS : Nat := 0x8004C

def RETRAINS : Nat := 0x80050

def LANE_SWAPS : Nat := 0x80054

def PEER_WR_ERRS : Nat := 0x80058

def LATE_RSPS : Nat := 0x8005C

def DROPPED : Nat := 0x80060

def PEER_ERR_ADDR_LO : Nat := 0x80068

def PEER_ERR_ADDR_HI : Nat := 0x8006C

def DRV_GEN : Nat := 0x80070

def TX_CREDITS (s : Nat) : Nat := 0x80400 + 0x4 * s

def DRX_BASE_LO (s : Nat) : Nat := 0x81000 + 0x20 * s

def DRX_CFG (s : Nat) : Nat := 0x81004 + 0x20 * s

def DRX_WR (s : Nat) : Nat := 0x81008 + 0x20 * s

def DRX_RD (s : Nat) : Nat := 0x8100C + 0x20 * s

def DTX_BASE_LO (s : Nat) : Nat := 0x81010 + 0x20 * s

def DTX_CFG (s : Nat) : Nat := 0x81014 + 0x20 * s

def DTX_WR (s : Nat) : Nat := 0x81018 + 0x20 * s

def DTX_RD (s : Nat) : Nat := 0x8101C + 0x20 * s

def MEM_CFG : Nat := 0x90004

def MEM_FLAGS : Nat := 0x90008

def CORR_COUNT : Nat := 0x9000C

def UNCORR_COUNT : Nat := 0x90010

def LATE_FETCHES : Nat := 0x90014

def POOL_FREE : Nat := 0x90018

def SCRUB_STATUS : Nat := 0x9001C

def LAST_ERR_LO : Nat := 0x90020

def LAST_ERR_HI : Nat := 0x90024

def ERR_INJECT_LO : Nat := 0x90030

def ERR_INJECT_HI : Nat := 0x90034

def MULE_STATUS : Nat := 0xA0004

def MULE_FLAGS : Nat := 0xA0008

def MULE_SUBMIT : Nat := 0xA000C

def MULE_ABORT : Nat := 0xA0010

def SUBMITTED : Nat := 0xA0014

def COMPLETED : Nat := 0xA0018

def MULE_GEN : Nat := 0xA001C

def PH_FLAGS : Nat := 0xB0004

def CQ_BASE_LO (q : Nat) : Nat := 0xB0100 + 0x20 * q

def CQ_BASE_HI (q : Nat) : Nat := 0xB0104 + 0x20 * q

def CQ_CTRL (q : Nat) : Nat := 0xB0108 + 0x20 * q

def CQ_WR (q : Nat) : Nat := 0xB010C + 0x20 * q

def CQ_RD (q : Nat) : Nat := 0xB0110 + 0x20 * q

def PCH_CFG (n : Nat) : Nat := 0xB0400 + 0x400 * n

def PCH_CMD (n : Nat) : Nat := 0xB0404 + 0x400 * n

def PCH_STATUS (n : Nat) : Nat := 0xB0408 + 0x400 * n

def PCH_FLAGS (n : Nat) : Nat := 0xB040C + 0x400 * n

def PCH_IRQ_EN (n : Nat) : Nat := 0xB0410 + 0x400 * n

def RING_BASE_LO (n : Nat) : Nat := 0xB0414 + 0x400 * n

def RING_BASE_HI (n : Nat) : Nat := 0xB0418 + 0x400 * n

def RING_SIZE (n : Nat) : Nat := 0xB041C + 0x400 * n

def RING_HEAD (n : Nat) : Nat := 0xB0420 + 0x400 * n

def PROGRESS (n : Nat) : Nat := 0xB0424 + 0x400 * n

def BYTES_LO (n : Nat) : Nat := 0xB0428 + 0x400 * n

def BYTES_HI (n : Nat) : Nat := 0xB042C + 0x400 * n

def PCH_GEN (n : Nat) : Nat := 0xB0430 + 0x400 * n

def CK_CTRL (m : Nat) : Nat := 0xC0000 + m * 0x1000 + 0x4

def CK_POLY (m : Nat) : Nat := 0xC0000 + m * 0x1000 + 0x8

def CK_POLYVAL (m : Nat) : Nat := 0xC0000 + m * 0x1000 + 0xC

def CK_INIT (m : Nat) : Nat := 0xC0000 + m * 0x1000 + 0x10

def CK_XOROUT (m : Nat) : Nat := 0xC0000 + m * 0x1000 + 0x14

def CK_BLOCK (m : Nat) : Nat := 0xC0000 + m * 0x1000 + 0x18

def CK_ALIVE (m : Nat) : Nat := 0xC0000 + m * 0x1000 + 0x1C

def SNOOP_A (m : Nat) : Nat := 0xC0000 + m * 0x1000 + 0x20

def SNOOP_B (m : Nat) : Nat := 0xC0000 + m * 0x1000 + 0x24

def SNOOP_C (m : Nat) : Nat := 0xC0000 + m * 0x1000 + 0x28

def CK_EXPECTED (m : Nat) : Nat := 0xC0000 + m * 0x1000 + 0x2C

def CK_RESULT (m : Nat) : Nat := 0xC0000 + m * 0x1000 + 0x30

def CK_FLAGS (m : Nat) : Nat := 0xC0000 + m * 0x1000 + 0x34

def CK_IRQ_EN (m : Nat) : Nat := 0xC0000 + m * 0x1000 + 0x38

def CK_BLOCKS (m : Nat) : Nat := 0xC0000 + m * 0x1000 + 0x40

def CK_MISMATCHES (m : Nat) : Nat := 0xC0000 + m * 0x1000 + 0x44

def CK_REPEATS (m : Nat) : Nat := 0xC0000 + m * 0x1000 + 0x48

def CK_GAPS (m : Nat) : Nat := 0xC0000 + m * 0x1000 + 0x4C

def CK_ALIVE_REF (m : Nat) : Nat := 0xC0000 + m * 0x1000 + 0x50

def CK_FEED (m : Nat) : Nat := 0xC0000 + m * 0x1000 + 0x58

def CK_FEED1 (m : Nat) : Nat := 0xC0000 + m * 0x1000 + 0x5C

def CK_CMD (m : Nat) : Nat := 0xC0000 + m * 0x1000 + 0x60

def GPIO_FLAGS : Nat := 0xD0004

def GPIO_IRQ_EN : Nat := 0xD0008

def WAKE_PIN : Nat := 0xD000C

def GPAT_MASK (k b : Nat) : Nat := 0xD0800 + 0x40 * k + 0x8 * b

def GPAT_VAL (k b : Nat) : Nat := 0xD0804 + 0x40 * k + 0x8 * b

def PIN_CFG (q : Nat) : Nat := 0xD1000 + 0x4 * q

def GPIO_IN (b : Nat) : Nat := 0xD0100 + 0x100 * b

def GPIO_OUT (b : Nat) : Nat := 0xD0104 + 0x100 * b

def GPIO_OUT_MW_LO (b : Nat) : Nat := 0xD0108 + 0x100 * b

def GPIO_OUT_MW_HI (b : Nat) : Nat := 0xD010C + 0x100 * b

def GPIO_RISE (b : Nat) : Nat := 0xD0110 + 0x100 * b

def GPIO_FALL (b : Nat) : Nat := 0xD0114 + 0x100 * b

def GPIO_RISE_EN (b : Nat) : Nat := 0xD0118 + 0x100 * b

def GPIO_FALL_EN (b : Nat) : Nat := 0xD011C + 0x100 * b

def GPIO_LOCK_KEY (b : Nat) : Nat := 0xD0120 + 0x100 * b

def GPIO_LOCK_MASK (b : Nat) : Nat := 0xD0124 + 0x100 * b

def GPIO_LOCKED (b : Nat) : Nat := 0xD0128 + 0x100 * b

def BANK_STATUS (b : Nat) : Nat := 0xD012C + 0x100 * b

def UNIT_STAGGER (u : Nat) : Nat := 0xE0000 + u * 0x1000 + 0x4

def UNIT_CMD (u : Nat) : Nat := 0xE0000 + u * 0x1000 + 0x8

def UNIT_START_HT_LO (u : Nat) : Nat := 0xE0000 + u * 0x1000 + 0xC

def UNIT_START_HT_HI (u : Nat) : Nat := 0xE0000 + u * 0x1000 + 0x10

def TM_CTRL (u c : Nat) : Nat := 0xE0000 + u * 0x1000 + 0x100 + 0x40 * c

def TM_STATUS (u c : Nat) : Nat := 0xE0000 + u * 0x1000 + 0x104 + 0x40 * c

def TM_FLAGS (u c : Nat) : Nat := 0xE0000 + u * 0x1000 + 0x108 + 0x40 * c

def TM_IRQ_EN (u c : Nat) : Nat := 0xE0000 + u * 0x1000 + 0x10C + 0x40 * c

def TM_CNT (u c : Nat) : Nat := 0xE0000 + u * 0x1000 + 0x110 + 0x40 * c

def TM_PERIOD (u c : Nat) : Nat := 0xE0000 + u * 0x1000 + 0x114 + 0x40 * c

def TM_CMP (u c : Nat) : Nat := 0xE0000 + u * 0x1000 + 0x118 + 0x40 * c

def TM_CAP (u c : Nat) : Nat := 0xE0000 + u * 0x1000 + 0x11C + 0x40 * c

def CNT_HI_SNAP (u c : Nat) : Nat := 0xE0000 + u * 0x1000 + 0x120 + 0x40 * c

def CAP_HI_SNAP (u c : Nat) : Nat := 0xE0000 + u * 0x1000 + 0x124 + 0x40 * c

def TM_CMD (u c : Nat) : Nat := 0xE0000 + u * 0x1000 + 0x128 + 0x40 * c

def AU_STATUS : Nat := 0xF0004

def AU_FLAGS : Nat := 0xF0008

def AU_IRQ_EN : Nat := 0xF000C

def AU_MUTED : Nat := 0xF0010

def V_MISS : Nat := 0xF0014

def XS_SKIPPED : Nat := 0xF0018

def AU_GEN : Nat := 0xF001C

def IN_CFG (i : Nat) : Nat := 0xF0100 + 0x4 * i

def METER_IN (i : Nat) : Nat := 0xF0400 + 0x4 * i

def METER_OUT (o : Nat) : Nat := 0xF0600 + 0x4 * o

def TDM_CFG (p : Nat) : Nat := 0xF0800 + 0x20 * p

def TDM_STATUS (p : Nat) : Nat := 0xF0804 + 0x20 * p

def TX_MAP (p n : Nat) : Nat := 0xF0808 + 0x20 * p + 0x4 * n

def TDM_IN_SEL (j : Nat) : Nat := 0xF0900 + 0x4 * j

def PDM_CFG : Nat := 0xF0980

def STREAM_BASE_LO (r : Nat) : Nat := 0xF0A00 + 0x10 * r

def STREAM_CFG (r : Nat) : Nat := 0xF0A04 + 0x10 * r

def STREAM_WR (r : Nat) : Nat := 0xF0A08 + 0x10 * r

def STREAM_RD (r : Nat) : Nat := 0xF0A0C + 0x10 * r

def XS_LOAD_LO : Nat := 0xF1000

def XS_LOAD_HI : Nat := 0xF1004

def XS_CMD : Nat := 0xF1008

def XS_STATE : Nat := 0xF100C

def XS_TASK_SEL : Nat := 0xF1010

def TD_SHIFT : Nat := 0xF2000

def TD_JOB_IN_LO : Nat := 0xF2004

def TD_JOB_IN_HI : Nat := 0xF2008

def TD_JOB_OUT_LO : Nat := 0xF200C

def TD_JOB_OUT_HI : Nat := 0xF2010

def TD_JOB_N : Nat := 0xF2014

def TD_CMD : Nat := 0xF2018

def TD_JOBS : Nat := 0xF201C

def TD_IN (k : Nat) : Nat := 0xF2100 + 0x4 * k

def TD_OUT (o : Nat) : Nat := 0xF2200 + 0x4 * o

def GAIN (o i : Nat) : Nat := 0x100000 + 0x200 * o + 0x4 * i

def V_CTRL (v : Nat) : Nat := 0x118000 + 0x40 * v

def V_ADDR_LO (v : Nat) : Nat := 0x118004 + 0x40 * v

def V_ADDR_HI (v : Nat) : Nat := 0x118008 + 0x40 * v

def V_END (v : Nat) : Nat := 0x11800C + 0x40 * v

def V_LOOP (v : Nat) : Nat := 0x118010 + 0x40 * v

def V_PITCH (v : Nat) : Nat := 0x118014 + 0x40 * v

def V_ATT_DEC (v : Nat) : Nat := 0x118018 + 0x40 * v

def V_SUS_REL (v : Nat) : Nat := 0x11801C + 0x40 * v

def V_FILT (v : Nat) : Nat := 0x118020 + 0x40 * v

def V_SEND (v n : Nat) : Nat := 0x118024 + 0x40 * v + 0x4 * n

def V_CMD (v : Nat) : Nat := 0x118034 + 0x40 * v

def V_POS (v : Nat) : Nat := 0x118038 + 0x40 * v

def V_STATE (v : Nat) : Nat := 0x11803C + 0x40 * v

def Y_STATUS (y : Nat) : Nat := 0x200000 + y * 0x10000 + 0x4

def Y_PC (y : Nat) : Nat := 0x200000 + y * 0x10000 + 0x8

def Y_COP_ALLOW (y : Nat) : Nat := 0x200000 + y * 0x10000 + 0x10

def Y_TRAPS (y : Nat) : Nat := 0x200000 + y * 0x10000 + 0x14

def Y_COP_TIMEOUTS (y : Nat) : Nat := 0x200000 + y * 0x10000 + 0x18

def Y_GEN (y : Nat) : Nat := 0x200000 + y * 0x10000 + 0x1C

def Y_WIN (y w : Nat) : Nat := 0x200000 + y * 0x10000 + 0x40 + 0x4 * w

def FLOCK_STATUS (f : Nat) : Nat := 0x1000000 + f * 0x100000 + 0x4

def POST_MAP (f : Nat) : Nat := 0x1000000 + f * 0x100000 + 0x8

def SLACK_FLOOR (f : Nat) : Nat := 0x1000000 + f * 0x100000 + 0xC

def FLOCK_IRQ (f : Nat) : Nat := 0x1000000 + f * 0x100000 + 0x10

def FLOCK_IRQ_EN (f : Nat) : Nat := 0x1000000 + f * 0x100000 + 0x14

def FLOCK_SLACK_MIN (f : Nat) : Nat := 0x1000000 + f * 0x100000 + 0x18

def TAKEOVER_LINES (f : Nat) : Nat := 0x1000000 + f * 0x100000 + 0x1C

def CELL_STATUS (f p : Nat) : Nat := 0x1010000 + f * 0x100000 + p * 0x10000 + 0x4

def CELL_GEN (f p : Nat) : Nat := 0x1010000 + f * 0x100000 + p * 0x10000 + 0x8

def CELL_SLACK_MIN (f p : Nat) : Nat := 0x1010000 + f * 0x100000 + p * 0x10000 + 0xC

def CELL_SLACK_LAST (f p : Nat) : Nat := 0x1010000 + f * 0x100000 + p * 0x10000 + 0x10

def CELL_MISS (f p : Nat) : Nat := 0x1010000 + f * 0x100000 + p * 0x10000 + 0x14

def CELL_EVT (f p : Nat) : Nat := 0x1010000 + f * 0x100000 + p * 0x10000 + 0x18

def CELL_SLACK_HIST (f p b : Nat) : Nat := 0x1010000 + f * 0x100000 + p * 0x10000 + 0x20 + 0x4 * b

def CELL_LINE_CRC (f p : Nat) : Nat := 0x1010000 + f * 0x100000 + p * 0x10000 + 0x40

def COMP_CTRL (h : Nat) : Nat := 0x2000000 + h * 0x100000 + 0x4

def BG_COLOR (h : Nat) : Nat := 0x2000000 + h * 0x100000 + 0x8

def SLOT_EN (h : Nat) : Nat := 0x2000000 + h * 0x100000 + 0xC

def COMP_STATUS (h : Nat) : Nat := 0x2000000 + h * 0x100000 + 0x10

def COMP_IRQ_EN (h : Nat) : Nat := 0x2000000 + h * 0x100000 + 0x14

def COMP_LATE (h : Nat) : Nat := 0x2000000 + h * 0x100000 + 0x18

def GAP_LINES (h : Nat) : Nat := 0x2000000 + h * 0x100000 + 0x1C

def COMP_GEN (h : Nat) : Nat := 0x2000000 + h * 0x100000 + 0x20

def LSLOT_CTRL (h s : Nat) : Nat := 0x2000000 + h * 0x100000 + 0x200 + 0x20 * s

def SLOT_ALPHA (h s : Nat) : Nat := 0x2000000 + h * 0x100000 + 0x204 + 0x20 * s

def KEY_LO (h s : Nat) : Nat := 0x2000000 + h * 0x100000 + 0x208 + 0x20 * s

def KEY_HI (h s : Nat) : Nat := 0x2000000 + h * 0x100000 + 0x20C + 0x20 * s

def SLOT_SRC (h s : Nat) : Nat := 0x2000000 + h * 0x100000 + 0x210 + 0x20 * s

def VS_DST_POS (h v : Nat) : Nat := 0x2000000 + h * 0x100000 + 0x800 + 0x40 * v

def VS_DST_SIZE (h v : Nat) : Nat := 0x2000000 + h * 0x100000 + 0x804 + 0x40 * v

def VS_HCOEF (h v k : Nat) : Nat := 0x2000000 + h * 0x100000 + 0x8000 + 0x800 * v + 0x4 * k

def VS_VCOEF (h v k : Nat) : Nat := 0x2000000 + h * 0x100000 + 0x8400 + 0x800 * v + 0x4 * k

def LS_CTRL (h : Nat) : Nat := 0x2010000 + h * 0x100000 + 0x4

def LS_BANK (h : Nat) : Nat := 0x2010000 + h * 0x100000 + 0x8

def LS_BANK_REQ (h : Nat) : Nat := 0x2010000 + h * 0x100000 + 0xC

def LS_POS (h : Nat) : Nat := 0x2010000 + h * 0x100000 + 0x10

def LS_FLAGS (h : Nat) : Nat := 0x2010000 + h * 0x100000 + 0x14

def LS_IRQ_EN (h : Nat) : Nat := 0x2010000 + h * 0x100000 + 0x18

def LS_OVER_LINES (h : Nat) : Nat := 0x2010000 + h * 0x100000 + 0x1C

def LS_DROPS (h : Nat) : Nat := 0x2010000 + h * 0x100000 + 0x20

def LS_PEAK (h : Nat) : Nat := 0x2010000 + h * 0x100000 + 0x24

def LS_GEN (h : Nat) : Nat := 0x2010000 + h * 0x100000 + 0x28

def LS_BANK_A (h i : Nat) : Nat := 0x2010000 + h * 0x100000 + 0x8000 + 0x4 * i

def LS_BANK_B (h i : Nat) : Nat := 0x2010000 + h * 0x100000 + 0xC000 + 0x4 * i

def HEAD_STATUS (h : Nat) : Nat := 0x2020000 + h * 0x100000 + 0x4

def HEAD_CMD (h : Nat) : Nat := 0x2020000 + h * 0x100000 + 0x8

def HEAD_FLAGS (h : Nat) : Nat := 0x2020000 + h * 0x100000 + 0xC

def HEAD_IRQ_EN (h : Nat) : Nat := 0x2020000 + h * 0x100000 + 0x10

def LINE_MATCH (h : Nat) : Nat := 0x2020000 + h * 0x100000 + 0x14

def BEAM_POS (h : Nat) : Nat := 0x2020000 + h * 0x100000 + 0x18

def FRAME_K_LO (h : Nat) : Nat := 0x2020000 + h * 0x100000 + 0x1C

def FRAME_K_HI (h : Nat) : Nat := 0x2020000 + h * 0x100000 + 0x20

def FS_LO (h : Nat) : Nat := 0x2020000 + h * 0x100000 + 0x24

def FS_HI (h : Nat) : Nat := 0x2020000 + h * 0x100000 + 0x28

def LOCK_ERR (h : Nat) : Nat := 0x2020000 + h * 0x100000 + 0x2C

def RELOCKS (h : Nat) : Nat := 0x2020000 + h * 0x100000 + 0x30

def TE_CTRL (h : Nat) : Nat := 0x2020000 + h * 0x100000 + 0x34

def TE_HT_LO (h : Nat) : Nat := 0x2020000 + h * 0x100000 + 0x38

def TE_HT_HI (h : Nat) : Nat := 0x2020000 + h * 0x100000 + 0x3C

def TE_PHASE (h : Nat) : Nat := 0x2020000 + h * 0x100000 + 0x40

def OUT_ENC (h : Nat) : Nat := 0x2020000 + h * 0x100000 + 0x44

def HEAD_GEN (h : Nat) : Nat := 0x2020000 + h * 0x100000 + 0x48

def PHY_STATUS (h : Nat) : Nat := 0x2030000 + h * 0x100000 + 0x4

def PHY_LATENCY (h : Nat) : Nat := 0x2030000 + h * 0x100000 + 0x8

def PHY_CTRL (h : Nat) : Nat := 0x2030000 + h * 0x100000 + 0xC

def SIDE_CMD (h : Nat) : Nat := 0x2030000 + h * 0x100000 + 0x10

def SIDE_STATUS (h : Nat) : Nat := 0x2030000 + h * 0x100000 + 0x14

def SIDE_DATA (h i : Nat) : Nat := 0x2030000 + h * 0x100000 + 0x20 + 0x4 * i

def IMAT_PRESET (h v : Nat) : Nat := 0x2040000 + h * 0x100000 + 0x100 + 0x40 * v

def IMAT_C (h v i : Nat) : Nat := 0x2040000 + h * 0x100000 + 0x104 + 0x40 * v + 0x4 * i

def IMAT_PRE (h v j : Nat) : Nat := 0x2040000 + h * 0x100000 + 0x128 + 0x40 * v + 0x4 * j

def IMAT_POST (h v k : Nat) : Nat := 0x2040000 + h * 0x100000 + 0x134 + 0x40 * v + 0x4 * k

def OMAT_PRESET (h : Nat) : Nat := 0x2040000 + h * 0x100000 + 0x200

def OMAT_C (h i : Nat) : Nat := 0x2040000 + h * 0x100000 + 0x204 + 0x4 * i

def OMAT_PRE (h j : Nat) : Nat := 0x2040000 + h * 0x100000 + 0x228 + 0x4 * j

def OMAT_POST (h k : Nat) : Nat := 0x2040000 + h * 0x100000 + 0x234 + 0x4 * k

def DEGAMMA (h k : Nat) : Nat := 0x2040000 + h * 0x100000 + 0x1000 + 0x4 * k

def GAMMA_R (h k : Nat) : Nat := 0x2040000 + h * 0x100000 + 0x4000 + 0x4 * k

def GAMMA_G (h k : Nat) : Nat := 0x2040000 + h * 0x100000 + 0x6000 + 0x4 * k

def GAMMA_B (h k : Nat) : Nat := 0x2040000 + h * 0x100000 + 0x8000 + 0x4 * k

/-- TILE_CTRL of layer l of post p of flock f. -/
def TILE_CTRL (f p l : Nat) : Nat := 0x1010000 + f * 0x100000 + p * 0x10000 + l * 0xF00 + 0x100

/-- MAP_BASE_LO of layer l of post p of flock f. -/
def MAP_BASE_LO (f p l : Nat) : Nat := 0x1010000 + f * 0x100000 + p * 0x10000 + l * 0xF00 + 0x104

/-- MAP_BASE_HI of layer l of post p of flock f. -/
def MAP_BASE_HI (f p l : Nat) : Nat := 0x1010000 + f * 0x100000 + p * 0x10000 + l * 0xF00 + 0x108

/-- MAP_SIZE of layer l of post p of flock f. -/
def MAP_SIZE (f p l : Nat) : Nat := 0x1010000 + f * 0x100000 + p * 0x10000 + l * 0xF00 + 0x10C

/-- TILE_BASE_LO of layer l of post p of flock f. -/
def TILE_BASE_LO (f p l : Nat) : Nat := 0x1010000 + f * 0x100000 + p * 0x10000 + l * 0xF00 + 0x110

/-- TILE_BASE_HI of layer l of post p of flock f. -/
def TILE_BASE_HI (f p l : Nat) : Nat := 0x1010000 + f * 0x100000 + p * 0x10000 + l * 0xF00 + 0x114

/-- SCROLL_X of layer l of post p of flock f. -/
def SCROLL_X (f p l : Nat) : Nat := 0x1010000 + f * 0x100000 + p * 0x10000 + l * 0xF00 + 0x118

/-- SCROLL_Y of layer l of post p of flock f. -/
def SCROLL_Y (f p l : Nat) : Nat := 0x1010000 + f * 0x100000 + p * 0x10000 + l * 0xF00 + 0x11C

/-- LINE_TABLE_LO of layer l of post p of flock f. -/
def LINE_TABLE_LO (f p l : Nat) : Nat := 0x1010000 + f * 0x100000 + p * 0x10000 + l * 0xF00 + 0x120

/-- LINE_TABLE_HI of layer l of post p of flock f. -/
def LINE_TABLE_HI (f p l : Nat) : Nat := 0x1010000 + f * 0x100000 + p * 0x10000 + l * 0xF00 + 0x124

/-- COL_TABLE_LO of layer l of post p of flock f. -/
def COL_TABLE_LO (f p l : Nat) : Nat := 0x1010000 + f * 0x100000 + p * 0x10000 + l * 0xF00 + 0x128

/-- COL_TABLE_HI of layer l of post p of flock f. -/
def COL_TABLE_HI (f p l : Nat) : Nat := 0x1010000 + f * 0x100000 + p * 0x10000 + l * 0xF00 + 0x12C

/-- AFF_A of layer l of post p of flock f. -/
def AFF_A (f p l : Nat) : Nat := 0x1010000 + f * 0x100000 + p * 0x10000 + l * 0xF00 + 0x130

/-- AFF_B of layer l of post p of flock f. -/
def AFF_B (f p l : Nat) : Nat := 0x1010000 + f * 0x100000 + p * 0x10000 + l * 0xF00 + 0x134

/-- AFF_C of layer l of post p of flock f. -/
def AFF_C (f p l : Nat) : Nat := 0x1010000 + f * 0x100000 + p * 0x10000 + l * 0xF00 + 0x138

/-- AFF_D of layer l of post p of flock f. -/
def AFF_D (f p l : Nat) : Nat := 0x1010000 + f * 0x100000 + p * 0x10000 + l * 0xF00 + 0x13C

/-- AFF_X0 of layer l of post p of flock f. -/
def AFF_X0 (f p l : Nat) : Nat := 0x1010000 + f * 0x100000 + p * 0x10000 + l * 0xF00 + 0x140

/-- AFF_Y0 of layer l of post p of flock f. -/
def AFF_Y0 (f p l : Nat) : Nat := 0x1010000 + f * 0x100000 + p * 0x10000 + l * 0xF00 + 0x144

/-- EDGE_ENTRY of layer l of post p of flock f. -/
def EDGE_ENTRY (f p l : Nat) : Nat := 0x1010000 + f * 0x100000 + p * 0x10000 + l * 0xF00 + 0x148

/-- WIN0_X of layer l of post p of flock f. -/
def WIN0_X (f p l : Nat) : Nat := 0x1010000 + f * 0x100000 + p * 0x10000 + l * 0xF00 + 0x150

/-- WIN0_Y of layer l of post p of flock f. -/
def WIN0_Y (f p l : Nat) : Nat := 0x1010000 + f * 0x100000 + p * 0x10000 + l * 0xF00 + 0x154

/-- WIN1_X of layer l of post p of flock f. -/
def WIN1_X (f p l : Nat) : Nat := 0x1010000 + f * 0x100000 + p * 0x10000 + l * 0xF00 + 0x158

/-- WIN1_Y of layer l of post p of flock f. -/
def WIN1_Y (f p l : Nat) : Nat := 0x1010000 + f * 0x100000 + p * 0x10000 + l * 0xF00 + 0x15C

/-- WIN_CTRL of layer l of post p of flock f. -/
def WIN_CTRL (f p l : Nat) : Nat := 0x1010000 + f * 0x100000 + p * 0x10000 + l * 0xF00 + 0x160

/-- TILE_STATUS of layer l of post p of flock f. -/
def TILE_STATUS (f p l : Nat) : Nat := 0x1010000 + f * 0x100000 + p * 0x10000 + l * 0xF00 + 0x170

/-- POISON_COUNT of layer l of post p of flock f. -/
def POISON_COUNT (f p l : Nat) : Nat := 0x1010000 + f * 0x100000 + p * 0x10000 + l * 0xF00 + 0x174

/-- CACHE_CTRL of layer l of post p of flock f. -/
def CACHE_CTRL (f p l : Nat) : Nat := 0x1010000 + f * 0x100000 + p * 0x10000 + l * 0xF00 + 0x178

/-- CACHE_FILLS of layer l of post p of flock f. -/
def CACHE_FILLS (f p l : Nat) : Nat := 0x1010000 + f * 0x100000 + p * 0x10000 + l * 0xF00 + 0x17C

/-- SPR_CTRL of layer l of post p of flock f. -/
def SPR_CTRL (f p l : Nat) : Nat := 0x1010000 + f * 0x100000 + p * 0x10000 + l * 0xF00 + 0x100

/-- SPR_TABLE_LO of layer l of post p of flock f. -/
def SPR_TABLE_LO (f p l : Nat) : Nat := 0x1010000 + f * 0x100000 + p * 0x10000 + l * 0xF00 + 0x104

/-- SPR_TABLE_HI of layer l of post p of flock f. -/
def SPR_TABLE_HI (f p l : Nat) : Nat := 0x1010000 + f * 0x100000 + p * 0x10000 + l * 0xF00 + 0x108

/-- SPR_COUNT of layer l of post p of flock f. -/
def SPR_COUNT (f p l : Nat) : Nat := 0x1010000 + f * 0x100000 + p * 0x10000 + l * 0xF00 + 0x10C

/-- SPR_DATA_LO of layer l of post p of flock f. -/
def SPR_DATA_LO (f p l : Nat) : Nat := 0x1010000 + f * 0x100000 + p * 0x10000 + l * 0xF00 + 0x110

/-- SPR_DATA_HI of layer l of post p of flock f. -/
def SPR_DATA_HI (f p l : Nat) : Nat := 0x1010000 + f * 0x100000 + p * 0x10000 + l * 0xF00 + 0x114

/-- SPR_LIMITS of layer l of post p of flock f. -/
def SPR_LIMITS (f p l : Nat) : Nat := 0x1010000 + f * 0x100000 + p * 0x10000 + l * 0xF00 + 0x118

/-- SPR_RELOAD of layer l of post p of flock f. -/
def SPR_RELOAD (f p l : Nat) : Nat := 0x1010000 + f * 0x100000 + p * 0x10000 + l * 0xF00 + 0x11C

/-- COLL_PAIR_LO of layer l of post p of flock f. -/
def COLL_PAIR_LO (f p l : Nat) : Nat := 0x1010000 + f * 0x100000 + p * 0x10000 + l * 0xF00 + 0x120

/-- COLL_PAIR_HI of layer l of post p of flock f. -/
def COLL_PAIR_HI (f p l : Nat) : Nat := 0x1010000 + f * 0x100000 + p * 0x10000 + l * 0xF00 + 0x124

/-- COLL_BASE_LO of layer l of post p of flock f. -/
def COLL_BASE_LO (f p l : Nat) : Nat := 0x1010000 + f * 0x100000 + p * 0x10000 + l * 0xF00 + 0x128

/-- COLL_BASE_HI of layer l of post p of flock f. -/
def COLL_BASE_HI (f p l : Nat) : Nat := 0x1010000 + f * 0x100000 + p * 0x10000 + l * 0xF00 + 0x12C

/-- COLL_SIZE of layer l of post p of flock f. -/
def COLL_SIZE (f p l : Nat) : Nat := 0x1010000 + f * 0x100000 + p * 0x10000 + l * 0xF00 + 0x130

/-- COLL_WR of layer l of post p of flock f. -/
def COLL_WR (f p l : Nat) : Nat := 0x1010000 + f * 0x100000 + p * 0x10000 + l * 0xF00 + 0x134

/-- COLL_RD of layer l of post p of flock f. -/
def COLL_RD (f p l : Nat) : Nat := 0x1010000 + f * 0x100000 + p * 0x10000 + l * 0xF00 + 0x138

/-- COLL_LOST of layer l of post p of flock f. -/
def COLL_LOST (f p l : Nat) : Nat := 0x1010000 + f * 0x100000 + p * 0x10000 + l * 0xF00 + 0x13C

/-- SPR_STATUS of layer l of post p of flock f. -/
def SPR_STATUS (f p l : Nat) : Nat := 0x1010000 + f * 0x100000 + p * 0x10000 + l * 0xF00 + 0x170

/-- SPR_LINE_STATS of layer l of post p of flock f. -/
def SPR_LINE_STATS (f p l : Nat) : Nat := 0x1010000 + f * 0x100000 + p * 0x10000 + l * 0xF00 + 0x180

/-- SPR_DEMAND_MAX of layer l of post p of flock f. -/
def SPR_DEMAND_MAX (f p l : Nat) : Nat := 0x1010000 + f * 0x100000 + p * 0x10000 + l * 0xF00 + 0x184

/-- SPR_OVF_FIRST of layer l of post p of flock f. -/
def SPR_OVF_FIRST (f p l : Nat) : Nat := 0x1010000 + f * 0x100000 + p * 0x10000 + l * 0xF00 + 0x188

/-- FB_CTRL of layer l of post p of flock f. -/
def FB_CTRL (f p l : Nat) : Nat := 0x1010000 + f * 0x100000 + p * 0x10000 + l * 0xF00 + 0x100

/-- FB_BASE_LO of layer l of post p of flock f. -/
def FB_BASE_LO (f p l : Nat) : Nat := 0x1010000 + f * 0x100000 + p * 0x10000 + l * 0xF00 + 0x104

/-- FB_BASE_HI of layer l of post p of flock f. -/
def FB_BASE_HI (f p l : Nat) : Nat := 0x1010000 + f * 0x100000 + p * 0x10000 + l * 0xF00 + 0x108

/-- FB_PITCH of layer l of post p of flock f. -/
def FB_PITCH (f p l : Nat) : Nat := 0x1010000 + f * 0x100000 + p * 0x10000 + l * 0xF00 + 0x10C

/-- FB_SIZE of layer l of post p of flock f. -/
def FB_SIZE (f p l : Nat) : Nat := 0x1010000 + f * 0x100000 + p * 0x10000 + l * 0xF00 + 0x110

/-- FB_DST of layer l of post p of flock f. -/
def FB_DST (f p l : Nat) : Nat := 0x1010000 + f * 0x100000 + p * 0x10000 + l * 0xF00 + 0x114

/-- FB_SRC of layer l of post p of flock f. -/
def FB_SRC (f p l : Nat) : Nat := 0x1010000 + f * 0x100000 + p * 0x10000 + l * 0xF00 + 0x118

/-- FB_NEXT_LO of layer l of post p of flock f. -/
def FB_NEXT_LO (f p l : Nat) : Nat := 0x1010000 + f * 0x100000 + p * 0x10000 + l * 0xF00 + 0x11C

/-- FB_NEXT_HI of layer l of post p of flock f. -/
def FB_NEXT_HI (f p l : Nat) : Nat := 0x1010000 + f * 0x100000 + p * 0x10000 + l * 0xF00 + 0x120

/-- FB_FLIP of layer l of post p of flock f. -/
def FB_FLIP (f p l : Nat) : Nat := 0x1010000 + f * 0x100000 + p * 0x10000 + l * 0xF00 + 0x124

/-- FB_STATUS of layer l of post p of flock f. -/
def FB_STATUS (f p l : Nat) : Nat := 0x1010000 + f * 0x100000 + p * 0x10000 + l * 0xF00 + 0x170

/-- VID_CTRL of layer l of post p of flock f. -/
def VID_CTRL (f p l : Nat) : Nat := 0x1010000 + f * 0x100000 + p * 0x10000 + l * 0xF00 + 0x100

/-- VID_Y_BASE_LO of layer l of post p of flock f. -/
def VID_Y_BASE_LO (f p l : Nat) : Nat := 0x1010000 + f * 0x100000 + p * 0x10000 + l * 0xF00 + 0x104

/-- VID_Y_BASE_HI of layer l of post p of flock f. -/
def VID_Y_BASE_HI (f p l : Nat) : Nat := 0x1010000 + f * 0x100000 + p * 0x10000 + l * 0xF00 + 0x108

/-- VID_C_BASE_LO of layer l of post p of flock f. -/
def VID_C_BASE_LO (f p l : Nat) : Nat := 0x1010000 + f * 0x100000 + p * 0x10000 + l * 0xF00 + 0x10C

/-- VID_C_BASE_HI of layer l of post p of flock f. -/
def VID_C_BASE_HI (f p l : Nat) : Nat := 0x1010000 + f * 0x100000 + p * 0x10000 + l * 0xF00 + 0x110

/-- VID_PITCH of layer l of post p of flock f. -/
def VID_PITCH (f p l : Nat) : Nat := 0x1010000 + f * 0x100000 + p * 0x10000 + l * 0xF00 + 0x114

/-- VID_SIZE of layer l of post p of flock f. -/
def VID_SIZE (f p l : Nat) : Nat := 0x1010000 + f * 0x100000 + p * 0x10000 + l * 0xF00 + 0x118

/-- VID_STATUS of layer l of post p of flock f. -/
def VID_STATUS (f p l : Nat) : Nat := 0x1010000 + f * 0x100000 + p * 0x10000 + l * 0xF00 + 0x170

end Reg
end Sys2Proof.Machine
end

