-- ==== Sys2Proof/Machine/Store.lean ====
section
/-! DEFINITION. Sparse stores: a list of (key, value) pairs in one canonical form, keys strictly rising and no entry equal
to what an unlisted key reads as, so that equal stores are equal data. The register file, every memory and every
collection of like units of the device is one of these. -/
namespace Sys2Proof.Machine

/-- A sparse store. What an unlisted key reads as is an argument of each operation. -/
abbrev Store (α : Type) := List (Nat × α)

/-- Read key `k`; `d` gives what an unlisted key reads as. -/
def Store.get {α : Type} (d : Nat → α) : Store α → Nat → α
  | [], k => d k
  | (a, v) :: m, k => if a = k then v else Store.get d m k

/-- Put an entry for key `k` at its place in rising order. -/
def Store.put {α : Type} : Store α → Nat → α → Store α
  | [], k, v => [(k, v)]
  | (a, w) :: m, k, v => if a = k then (k, v) :: m else if k < a then (k, v) :: (a, w) :: m else (a, w) :: Store.put m k v

/-- Write key `k`, keeping the canonical form: writing what an unlisted key reads as removes the entry. -/
def Store.set {α : Type} [DecidableEq α] (d : Nat → α) (m : Store α) (k : Nat) (v : α) : Store α :=
  if v = d k then m.filter (fun e => e.1 != k) else Store.put m k v

/-- Every key of the store lies at or above `lo`, keys rise strictly, and no entry equals the unlisted value. -/
def Store.wfFrom {α : Type} [DecidableEq α] (d : Nat → α) (lo : Nat) : Store α → Bool
  | [] => true
  | (a, v) :: m => decide (lo ≤ a) && decide (v ≠ d a) && Store.wfFrom d (a + 1) m

/-- The canonical form. -/
def Store.wf {α : Type} [DecidableEq α] (d : Nat → α) (m : Store α) : Bool := Store.wfFrom d 0 m

/-- Write consecutive keys from `k`. -/
def Store.setList {α : Type} [DecidableEq α] (d : Nat → α) (m : Store α) (k : Nat) : List α → Store α
  | [] => m
  | v :: vs => Store.setList d (Store.set d m k v) (k + 1) vs

/-- Read `n` consecutive keys from `k`. -/
def Store.getList {α : Type} (d : Nat → α) (m : Store α) (k : Nat) : Nat → List α
  | 0 => []
  | n + 1 => Store.get d m k :: Store.getList d m (k + 1) n

/-- Keep only the entries whose key satisfies `p`. -/
def Store.keep {α : Type} (p : Nat → Bool) (m : Store α) : Store α := m.filter (fun e => p e.1)

end Sys2Proof.Machine
end

