-- ==== Sys2Proof/Machine/State.lean ====
section
/-! DEFINITION. The state of the device as plain data: the register file, the typed state that no register shows, the
memories, and the queue of waiting commands; and the state right after power-on reset (R566). -/
namespace Sys2Proof.Machine

/-- Why a step could stop. The model has no stop of this kind: every access the spec refuses is answered with an access
error in `Dev.resp` or a trap, which are effects. Nothing raises it; it is safe. -/
inductive Fault where
  | none
  deriving DecidableEq, Repr

/-- Why a command has no meaning here. -/
inductive Refusal where
  /-- The command has no meaning in this model yet; raised by an arm of `exec` only. Safe: the machine stops. -/
  | notModelled (mnemonic : String)
  deriving DecidableEq, Repr

/-- What the requester of the last bus access received (R6, R298, R572). -/
inductive Resp where
  | idle
  | ok (v : Word)
  | accessError
  | poison
  deriving DecidableEq, Repr

/-! ### The conjunction fabric (R344) -/

/-- One pending execution at a task input: its hop, whether it is OPEN, and the channel that delivered it. -/
structure Arrival where
  hop : Nat
  isOpen : Bool
  chan : Nat
  deriving DecidableEq, Repr

/-! ### The Bellwether (R323 to R332) -/

/-- STATE of a source (SRC_STATE, R335); a member of an enabled coalescing set is `idle` here and shown as 4. -/
inductive SrcSt where
  | idle | parked
  | offered (y : Nat)
  | claimed (y : Nat)
  deriving DecidableEq, Repr

/-- A source: its state, LAST (R324), and the level last counted by its coalescing set (R332). -/
structure Src where
  st : SrcSt := .idle
  last : Nat := 7
  seen : Bool := false
  deriving DecidableEq, Repr

/-- A coalescing set: COUNT, FIRED, TIMING, the herd time and the herd-clock instant of the first counted assertion. -/
structure Coal where
  count : Nat := 0
  fired : Bool := false
  timing : Bool := false
  firstHt : DWord := 0
  firstClk : Nat := 0
  deriving DecidableEq, Repr

/-! ### The keep store (R471 to R484) -/

/-- A firmware record commit in progress (R480): its first window word, the frozen words, the clock instant of its step 1, and whether its
commit word is written, which a reset settles by a free value unless step 3 must be past. -/
structure RecCommit where
  word : Nat
  data : List Word
  at' : Nat
  committed : Bool
  deriving DecidableEq, Repr

/-- The keep store beyond its register page. Window words are keyed by offset / 4. Wear and rate counters of a register
field are keyed by 0x10000 + its register offset + its number in the register, those of meter m by 0x20000000 + m; `rate` and `commits`
count in second `rateSec` of herd time (R479, R481); `wearAt` is the clock instant of the last save of the wear counters (R478). -/
structure Keep where
  win : Store Word := []
  held : List (Nat × Word) := []
  meters : Store DWord := []
  meterHi : Store Word := []
  wear : Store Nat := []
  wearSaved : Store Nat := []
  rate : Store Nat := []
  commits : Nat := 0
  rateSec : Nat := 0
  wearAt : Nat := 0
  recOp : Option RecCommit := none
  poison : List Nat := []
  failing : List Nat := []
  oneCopy : List Nat := []
  uncorr : Store Nat := []
  spareA : Nat := 64
  spareB : Nat := 64
  keyHeld : Store Word := []
  layout : List (Nat × Nat × Nat) := []
  deriving DecidableEq, Repr

/-! ### Check units (R410 to R417) -/

/-- The present block of a check unit and the bytes that wait for it: its length, the CRC register over all but the last bytes held back
for the comparison, those bytes, the low byte of a 16-bit alive value, whether the alive value is complete, the bytes copied at the
snoop point (each with whether a natural end follows it), and whether the block has lost bytes. -/
structure CkSt where
  n : Nat := 0
  crc : Nat := 0
  tail : List Byte := []
  vlo : Nat := 0
  vdone : Bool := false
  queue : List (Byte × Bool) := []
  lost : Bool := false
  deriving DecidableEq, Repr
/-! ### Memory (R32, R453 to R469) -/

/-- The bulk memories of the device. `bytes` is HBM3 and the shared SRAM by system address; an unlisted byte reads 0 (R568
zero-fills memory). `poison` lists the poisoned words (R458) and `err` the latent symbol errors, by address / 32: 1 is one
symbol in error, 2 is uncorrectable. `tcm` is the tightly coupled RAM of yoke y at y × 2^17; `flash` the boot flash, whose
erased byte reads 0xFF (R33). DESIGN CHOICE, log entry 3. -/
structure Mem where
  bytes : Store Byte := []
  poison : List Nat := []
  err : Store Nat := []
  tcm : Store Byte := []
  flash : Store Byte := []
  deriving DecidableEq, Repr

/-- A page retirement in progress (R466): the system page, the page that serves it, and the pool page taken. -/
structure Retire where
  page : Nat
  old : Nat
  pool : Nat
  deriving DecidableEq, Repr

/-- The memory controller beyond its registers. Pages are numbered by address / 4096. `remap` gives the page that serves a
remapped system page (R466); `bad` the pool pages out of use; `table` the counted pages, oldest entry first; `rowSeen` the
herd-clock instant, plus 1, of the last correction of an SRAM row; `ppr` the pages that await repair and `pprDone` those
repaired and not yet copied back (R468); `patrol` the next word of the pass, `patrolAt` the clock instant at which the pass began and `scrub`
its period as SCRUB codes it (R465); `calAt` the last calibration of each pseudo-channel, plus 1 (R464); `promoted` the services of each since
one that had waited (R462). -/
structure MemCtl where
  remap : Store Nat := []
  bad : List Nat := []
  table : List (Nat × Nat) := []
  retiring : List Retire := []
  rowSeen : Store Nat := []
  rowBad : List Nat := []
  rowsDone : List Nat := []
  ppr : List Nat := []
  pprDone : List Nat := []
  patrol : Nat := 0
  patrolAt : Nat := 0
  lastErrHi : Word := 0
  calAt : Store Nat := []
  promoted : Store Nat := []
  scrub : Nat := 0
  deriving DecidableEq, Repr

/-! ### Raster cells (R80 to R107) -/

/-- A line buffer pixel: B in [9:0], G in [19:10], R in [29:20], A in [39:30] (R83), and the class tag in [41:40] (R123). -/
abbrev Px := BitVec 42

/-- What a fetch found (R128): the data, the data of a poisoned word, or nothing for an address outside memory. -/
inductive Fetched where
  | data (b : List Byte)
  | poison (b : List Byte)
  | fail
  deriving DecidableEq, Repr

/-- A line buffer in use: the layer, the frame and the line it holds, its pixels, whether the line is complete, and whether a
video source line is missing (R198). While the line is under construction, `regs` holds the layer registers that it was started with, and
`pal` the palette writes since, each with the entry's offset and the value before, and `seen` what its fetches found, in order (R122, R125).
Frames count from the start of the head. -/
structure LineBuf where
  layer : Nat
  frame : Nat
  line : Nat
  px : List Px
  done : Bool := false
  missing : Bool := false
  regs : Store Word := []
  pal : List (Nat × Word) := []
  seen : List (List Fetched) := []
  deriving DecidableEq, Repr

/-- A sprite of the attribute store: its four words, and whether it takes part (R133, R135, R154, R155). -/
structure SprEntry where
  w0 : Word
  w1 : Word
  w2 : Word
  w3 : Word
  ok : Bool
  deriving DecidableEq, Repr

/-- A collision to be recorded (R150): its frame, and the herd time at which the head started scanning it, once that is known. -/
structure CollRec where
  sprA : Nat
  sprB : Nat
  clsA : Nat
  clsB : Nat
  line : Nat
  pixel : Nat
  frame : Nat
  frameHt : Option Nat
  deriving DecidableEq, Repr

/-- One layer of a cell: the frame and the line it starts next, a pending RELOAD, the attribute store and the frame to which
it belongs, the pairs recorded in the frame and the records still to be written, and the statistics of the frame. -/
structure LayerSt where
  frame : Nat := 0
  next : Nat := 0
  reload : Bool := false
  attr : List SprEntry := []
  pairs : List (Nat × Nat) := []
  lineColl : List CollRec := []
  collQ : List CollRec := []
  fills : Nat := 0
  selMax : Nat := 0
  ovfLines : Nat := 0
  demand : Nat := 0
  ovfFirst : Option (Nat × Nat) := none
  deriving DecidableEq, Repr

/-- How a staged write changes its register (R168). -/
inductive StageOp where
  | put | mask (m : Word) | add
  deriving DecidableEq, Repr

/-- A staged line-script write: the frame, line and pixel of its placement, the page offset and the value (R164). -/
structure Staged where
  frame : Nat
  line : Nat
  pixel : Nat
  off : Nat
  op : StageOp
  v : Word
  deriving DecidableEq, Repr

/-- What a VIDEO cell samples at source line 0 (R192). -/
structure VidCfg where
  enable : Bool := false
  format : Nat := 0
  yBase : Nat := 0
  cBase : Nat := 0
  yPitch : Nat := 0
  cPitch : Nat := 0
  w : Nat := 0
  h : Nat := 0
  deriving DecidableEq, Repr

/-- The cell that holds a post. `cache` maps 2 × (address / 64) + part to the 64 bytes of a line, part 0 tile data and part 1
map entries (R126). -/
structure CellSt where
  bufs : List LineBuf := []
  l0 : LayerSt := {}
  l1 : LayerSt := {}
  cache : Store (List Byte) := []
  inv : Bool := false
  staged : List Staged := []
  slackMin : Nat := 0xFFFF
  missed : Nat := 0
  hist : List Nat := [0, 0, 0, 0, 0, 0, 0, 0]
  low : Bool := false
  vid : VidCfg := {}
  deriving DecidableEq, Repr

/-- A takeover in a flock (R264): the post, the failed cell, the herd time of detection, whether the spare has loaded, the
mechanism that found the fault, the frame and line m from which the spare builds, and whether the failure has its log entry
already (R266). -/
structure Takeover where
  post : Nat
  cell : Nat
  ht : Nat
  loaded : Bool := false
  detect : Nat := 1
  from_ : Nat × Nat := (0, 0)
  logged : Bool := false
  deriving DecidableEq, Repr

/-- A re-pen (R74): its step (0 while the request waits for a takeover, R72), variant and ALIGN, the herd-clock instant at which the
step was reached, and the frame that the head then ran. -/
structure Repen where
  step : Nat
  variant : Nat
  align : Bool
  since : Nat := 0
  seq : Nat := 0
  deriving DecidableEq, Repr

/-- A flock beyond its registers: the probe line of its FLOCK record, the retirement instants of each cell (R271), cells in
self-test, the takeover that runs, the posts that wait for a spare with their failed cells (R266), the mismatch of the present
shadow frame (R269), the posts whose buffers a mismatch holds, the handoff that is due (R272), the re-pen, and the retired cells that have
passed self-test while the spare post was taken (R266, R271). -/
structure FlockSt where
  seed : Word := 0
  crc : Word := 0
  len : Nat := 0
  retiredAt : List (Nat × Nat) := []
  testing : List Nat := []
  mapped : List Nat := []
  spareDue : Bool := false
  takeover : Option Takeover := none
  waiting : List Takeover := []
  mismatch : Bool := false
  probing : Bool := false
  rove : Bool := false
  handoff : Option Nat := none
  repen : Option Repen := none
  bist : List Nat := []
  want : List Nat := []
  ready : List Nat := []
  deriving DecidableEq, Repr

/-- A line script engine beyond its registers (R157 to R178): whether the frame's script runs, its frame, the next word, the
placement, slots on the line, the line released up to, the open loop (first word, passes left, passes done), the peak of the
frame, staged signals and the staged writes of the compositor's two pages (`mat` is the second page). -/
structure LsSt where
  active : Bool := false
  ended : Bool := true
  frame : Nat := 0
  pc : Nat := 0
  line : Nat := 0
  pixel : Nat := 0
  slots : Nat := 0
  loop : Option (Nat × Nat × Nat) := none
  peak : Nat := 0
  peakLine : Nat := 0
  signals : List (Nat × Nat × Nat × Nat) := []
  comp : List Staged := []
  mat : List Staged := []
  deriving DecidableEq, Repr

/-- A bank switch that a head keeps (R251): the slot, its L, the bank, and whether the slot has fired. -/
structure HeadCue where
  slot : Nat
  l : Nat
  bank : Nat
  fired : Bool
  deriving DecidableEq, Repr

/-- What the compositor samples for a video slot at line 0 (R194): destination, source size, and whether the ratios are
allowed (R195). -/
structure VsCfg where
  x : Nat
  y : Nat
  w : Nat
  h : Nat
  srcW : Nat
  srcH : Nat
  ok : Bool
  deriving DecidableEq, Repr

/-- What a slot brings to a line (R184): nothing; transparency for a missing source (R183); the pixels of a cell's line; or four source
rows of a video slot, with the geometry and the vertical phase (R194). -/
inductive SlotLine where
  | nothing
  | gap
  | cells (kind : Nat) (px : List Px)
  | video (v : Nat) (g : VsCfg) (phase : Nat) (rows : List (List Px))
  deriving DecidableEq, Repr

/-- A head's timing generator, compositor and PHY beyond their registers (R181 to R225). Instants count herd-clock periods (R600):
`fsClk` is that of (0, 0) of the frame, `predClk` that of the predicted end of the frame, with `relocked` after a relock (R210), `sendHt` that
from which TE edges count (R223), `startClk` that of step 1 of R213, `failClk` that of the end of a failed training series (R217). `teHt` is
the herd time of the last accepted edge. `own` says that a mirror was stopped by its own command (R224). For the line that the compositor
reads, `view` holds the registers that it started with, `sls` what the slots bring, `mid` the pixel-exact writes since and `late` the pixels
that came late (R164, R182, R203). `link` is the line as the link carries it, `msa` the bits per component and the encoding of the frame's
MSA, and `vsc` its VSC SDP (R218). -/
structure HeadSt where
  seq : Nat := 0
  next : Nat := 0
  reading : Bool := false
  latched : Bool := false
  decided : Bool := false
  genOn : Bool := false
  k : Nat := 0
  fs : Nat := 0
  fsClk : Nat := 0
  predK : Nat := 0
  predFs : Nat := 0
  predClk : Nat := 0
  predicted : Bool := false
  relocked : Bool := false
  stop : Nat := 0
  ready : Bool := false
  readyHt : Nat := 0
  awaitJoin : Bool := false
  sendHt : Nat := 0
  startClk : Nat := 0
  own : Bool := false
  trained : Bool := false
  tries : Nat := 0
  failClk : Nat := 0
  resume : Bool := false
  sideReq : Word := 0
  sideTries : Nat := 0
  teAccepted : Bool := false
  teHt : Nat := 0
  view : Store Word := []
  sls : List SlotLine := []
  mid : List Staged := []
  late : List Nat := []
  out : List Word := []
  link : List Word := []
  msa : Option (Nat × Nat) := none
  vsc : Bool := false
  dst : List VsCfg := []
  cues : List HeadCue := []
  deriving DecidableEq, Repr

/-! ### The array rail (R28, R93, R94, R98, R555) -/

/-- The rail control of the steward: whether a cell has reported a low-slack line in the present window and the window's start,
the instant from which the conditions of R94 have held, the AVSBus request outstanding with the instant it was made, the
request to repeat with the instant of its failure, the instant of the last step toward the twin floor, and whether a move to Draught
has reached its step 2 (R26). Instants count herd-clock periods (R600). -/
structure Rail where
  low : Bool := false
  windowAt : Nat := 0
  calmFrom : Nat := 0
  request : Option Nat := none
  requestAt : Nat := 0
  failed : Option Nat := none
  failedAt : Nat := 0
  stepAt : Nat := 0
  frozen : Bool := false
  pg : Bool := true
  deriving DecidableEq, Repr

/-! ### The image (R38 to R79) -/

/-- A record of an image: its TYPE, its CRITICAL flag and reserved flag bits, the image offset of its body, and the body (R40). -/
structure ImgRec where
  ty : Nat
  flags : Nat
  off : Nat
  body : List Byte
  deriving DecidableEq, Repr

/-- A staging command in progress (R67): the command, the refusal found by its checks, the record at fault, the image that it
programs. -/
structure StageCmd where
  cmd : Nat
  code : Nat
  record : Nat
  data : List Byte
  deriving DecidableEq, Repr

/-- The loader beyond its registers (R62 to R66, R77): the phase of the load (0 none, 1 reading and checking, 2 checked and
waiting to be applied, 4 applied and waiting for the rail to reach the twin floor, 3 done), the slot it loads from, the records of the image, the staging command, and the variant journal:
its flock, whether it stands at START, its VAR_ID and the SERIAL it recorded. DESIGN CHOICE, log entry 28. -/
structure Loader where
  phase : Nat := 0
  slot : Nat := 0
  recs : List ImgRec := []
  stage : Option StageCmd := none
  journal : Option (Nat × Nat) := none
  serial : Word := 0
  deriving DecidableEq, Repr
/-! ### Yokes (R274 to R279, R290 to R319) -/

/-- The programmer's model of a yoke (R292, R293, R312): PC, g1 to g31, the flags in FLAGS [5:0], IE and EXL, the special
registers, the return stack with its pointer, DEPTH, RSMODE and RSU, and whether it waits in standby (R303). -/
structure OxCtx where
  pc : Word := 0
  g : Store Word := []
  flags : Word := 0
  ie : Bool := false
  exl : Bool := false
  epc : Word := 0
  estat : Word := 0
  ecause : Word := 0
  einfo : Word := 0
  vbase : Word := 0
  dtpc : Word := 0
  rs : Store Word := []
  ptr : Nat := 0
  depth : Nat := 0
  trapMode : Bool := false
  rsu : Bool := false
  waiting : Bool := false
  deriving DecidableEq, Repr

/-- An entry of the echo log (R275): the kind (0 store, 1 atomic, 2 coprocessor request), the address or the coprocessor with its
OP, the size in bytes, the data, whether it met an access error, and the TAG of a request to customer logic (R318). -/
structure Echo where
  kind : Nat
  addr : Nat
  size : Nat
  data : List Word
  failed : Bool := false
  tag : Option Nat := none
  deriving DecidableEq, Repr

/-- An entry of the input log (R275): the outcome of a load, a coprocessor response, an interrupt entry with the count of
instructions retired before it, or a coprocessor timeout, with whether its
trap has been taken. -/
inductive YIn where
  | load (r : Resp)
  | cop (w0 w1 : Word) (failed : Bool)
  | irq (count : Nat)
  | copTimeout (taken : Bool)
  deriving DecidableEq, Repr

/-- A request to customer logic that waits for its response (R318): the coprocessor, WIDE, the register for word 0, and its tag. -/
structure CopWait where
  c : Nat
  wide : Bool
  reg : Nat
  tag : Nat
  deriving DecidableEq, Repr

/-- A load that waits for the peer (R513): the tag of its read, the yoke address, the size in bytes, whether it is sign-extended,
and its register. -/
structure LdWait where
  tag : Nat
  addr : Word
  size : Nat
  signed : Bool
  reg : Nat
  deriving DecidableEq, Repr

/-- A yoke beyond its page: the checkpoint with its windows (none until the first), the logs, the instructions retired since the
checkpoint, the place of a replay in the echo and the input log, the point of the first mismatch, how far the repair of R277 has
gone (0 none, 1 replayed once, 2 in self-test, 3 replayed after a clean self-test), the checkpoint interval in force in 10 µs
and the instant of the last checkpoint (R275), the code the image gives it (BLOB offset and length with ENTRY), and a request that waits: a load from the
peer, a request to customer logic, or the register of a Tandem RUN (R446). -/
structure YokeSt where
  ctx : OxCtx := {}
  ckpt : Option OxCtx := none
  ckptWin : List Word := []
  echo : List Echo := []
  input : List YIn := []
  undo : List (Nat × Word) := []
  retired : Nat := 0
  replay : Option (Nat × Nat) := none
  point : Option Nat := none
  tries : Nat := 0
  interval : Nat := 0
  ckptAt : Nat := 0
  wait : Option CopWait := none
  ld : Option LdWait := none
  tdWait : Option Nat := none
  deriving DecidableEq, Repr

/-! ### Timers (R353 to R367) -/

/-- A timer channel beyond its registers: the herd-clock instant of its last tick or start (R353), the buffered values that are
pending (R358), the late mark (R359), its own armed RESTART_AT with the mark of the write that armed it (R356, R357), and the
high channel's count at the last capture (R365). -/
structure TmSt where
  last : Nat := 0
  perBuf : Option Word := none
  cmpBuf : Option Word := none
  late : Bool := false
  arm : Option (Nat × Bool) := none
  capHi : Word := 0
  deriving DecidableEq, Repr

/-- A timer unit beyond its registers: the stagger mask in force since the last group restart, the armed group restart with the
mark of the write that armed it, and the channels that a STOP has removed from it (R356, R363). -/
structure TmUnit where
  mask : Nat := 0
  arm : Option (Nat × Bool) := none
  gone : List Nat := []
  deriving DecidableEq, Repr

/-! ### The Drove link (R496 to R517) -/

/-- A frame in the transmit queue or the replay buffer, with the requester whose issue order it keeps (R513). -/
structure TxFrame where
  f : DrvFrame
  who : Option Req := none
  deriving DecidableEq, Repr

/-- A read of the peer (R513): its tag, its requester, its peer address and length, and the herd-clock instant of the request. -/
structure PeerRead where
  tag : Nat
  who : Req
  addr : Nat
  len : Nat
  at_ : Nat
  deriving DecidableEq, Repr

/-- The outcome of a read of the peer, for a requester that takes it later: OK, access error, or poison, with the data. -/
structure PeerAnswer where
  who : Req
  addr : Nat
  len : Nat
  status : Nat
  data : List Byte
  deriving DecidableEq, Repr

/-- A coprocessor request outstanding at the peer (R318, R514): its tag, its yoke, and the herd-clock instant at which it left. -/
structure PeerCop where
  tag : Nat
  y : Nat
  c : Nat
  at_ : Nat
  deriving DecidableEq, Repr

/-- The Drove link beyond its registers. `next` is the receiver's NEXT and `txSeq` the next SEQ (R499); `queue` the frames that wait for
their first transmission; `out` the outstanding frames (R502); `resend` the SEQ that a replay resends next; `fails` the replays
since an acknowledgement freed a frame (R504); `timer` the instant of R502; `nakAt` the last NAK until a frame is accepted (R501);
`badRun` the bad start blocks in a row; `owed` the units to return by stream (R497); `session` the SESSION values in force;
`lastSession` the last one the device chose; `start` the instant at which training started; `stopped` the transmit rings stopped by a
record (R517); `lsOut` the logical lane that the device's LS blocks name and `lsLeft` how many of them are to be sent; `swap` the physical lane,
by direction, whose logical lane waits for the next marker: the lane + 16 × DETECT, and the clock instant of the request or the detection
(R509); `ts` the training blocks last sent (R506); `wire` the last frame sent; `errAddr` ADDR of the last refused peer write; `blocks` the blocks sent so far, `scramble` the last 58 scrambled bits of each
physical lane, newest in bit 0, and `lanes` the blocks of the last frame as they left: physical lane, sync header, payload (R488 to R490); `align` the delay in ps that
the receiver gives each physical lane (R491). -/
structure DrvSt where
  next : Nat := 0
  txSeq : Nat := 0
  queue : List TxFrame := []
  out : List TxFrame := []
  resend : Option Nat := none
  fails : Nat := 0
  timer : Nat := 0
  nakAt : Option Nat := none
  nakDue : Bool := false
  ackDue : Bool := false
  badRun : Nat := 0
  owed : Store Nat := []
  session : Option (Word × Word) := none
  lastSession : Word := 0
  start : Nat := 0
  stopped : List Nat := []
  lsOut : Option Nat := none
  lsLeft : Nat := 0
  swap : List (Nat × Nat × Nat) := []
  ts : List Nat := []
  dead : Bool := false
  reads : List PeerRead := []
  answers : List PeerAnswer := []
  cops : List PeerCop := []
  readTag : Nat := 0
  copTag : Word := 0
  wire : Option DrvFrame := none
  errAddr : Nat := 0
  blocks : Nat := 0
  scramble : Store Nat := []
  lanes : List (Nat × Nat × DWord) := []
  align : Store Nat := []
  deriving DecidableEq, Repr

/-! ### Packhorse channels (R371 to R385) -/

/-- The descriptor that a channel has taken: its index, its eight words, the status found so far, whether nothing of it is left to do,
whether a source was poisoned, and the herd time of its completion once it has waited for a queue (R378, R380). -/
structure PhDesc where
  idx : Nat
  w : List Word
  status : Nat := 0
  ended : Bool := false
  poisoned : Bool := false
  ht : Option Nat := none
  deriving DecidableEq, Repr

/-- A logical channel beyond its registers: the descriptor taken, whether a STEP runs it, the task that started the run, BYTES, the
state that a takeover interrupts with the herd time of its detection, and whether its physical channel has failed with no spare (R385). -/
structure PhSt where
  desc : Option PhDesc := none
  stepped : Bool := false
  run : Option Arrival := none
  bytes : Nat := 0
  was : Nat := 0
  ht : Nat := 0
  broken : Bool := false
  deriving DecidableEq, Repr

/-! ### The Mule (R388 to R408) -/

/-- A command in the queue: its ticket, the 16 words read at submission, the address of its block, and the privilege of the request
(R402). -/
structure MuleCmd where
  ticket : Word
  w : List Word
  block : Nat
  keeper : Bool
  deriving DecidableEq, Repr

/-- A command that has started: its lane (none while it waits for one after a fault), the code found so far, the next tile, whether
nothing is left to do, and the staged source with its poison (R400, R408). -/
structure MuleRun where
  lane : Option Nat
  cmd : MuleCmd
  code : Nat := 0
  tile : Nat := 0
  ended : Bool := false
  staged : Option (List (Nat × Bool)) := none
  deriving DecidableEq, Repr

/-- The Mule beyond its registers: the queue, the commands that run, the last 256 completions (R407), and failed lanes whose place the
spare takes, with the mechanism that found the fault and the herd time of its detection. -/
structure MuleSt where
  queue : List MuleCmd := []
  run : List MuleRun := []
  ended : List (Word × Nat) := []
  swap : List (Nat × Nat × Nat) := []
  deriving DecidableEq, Repr

/-! ### Audio (R420 to R447) -/

/-- A voice that plays (R425 to R428): P as a 32.24 number, L with 1.0 = 2^24, the filter state, the stage, the level at a STOP with the
instants faded, and the ADPCM decoder: the index decoded last with its predictor, step index and the value before it, and the
state at sample LOOP. -/
structure Voice where
  p : Nat := 0
  l : Nat := 0
  low : Int := 0
  band : Int := 0
  stage : Nat := 0
  fadeFrom : Nat := 0
  faded : Nat := 0
  dec : Option (Nat × Int × Nat × Int) := none
  decLoop : Option (Int × Nat) := none
  deriving DecidableEq, Repr

/-- A crosspoint node of the audio rows: its present gain and its ramp (R432): the gain at the change, the target, the samples done, and
the fire that set it (0 for none). -/
structure Node where
  g : Int := 0
  ramp : Option (Int × Int × Nat × Nat) := none
  deriving DecidableEq, Repr

/-- A meter (R435): PEAK, LEVEL, the sum of squares of the present block, and those of the last 32 blocks, newest first. -/
structure AuMeter where
  peak : Nat := 0
  level : Nat := 0
  sum : Nat := 0
  sums : List Nat := []
  deriving DecidableEq, Repr

/-- What takes effect at the next block, or at the next sample for a cue (R422): a voice command (1 START, 2 KEY_OFF, 3 STOP), a
TRIG task, a gain target, or a scene with the task that fired it. -/
inductive AuAct where
  | voice (v cmd : Nat)
  | trig (k : Nat)
  | gain (o i : Nat) (g : Int)
  | scene (entries : List Word) (cause : Option Arrival)
  deriving DecidableEq, Repr

/-- A TDM slave port (R438): the instant to which the next frame is assigned, the offset of FSYNC in ns, and the frames assigned to
instants not yet processed. -/
structure TdmSt where
  locked : Bool := false
  next : Nat := 0
  offset : Int := 0
  frames : List (Nat × List Word) := []
  deriving DecidableEq, Repr

/-- A Tandem job (R447): its addresses, vectors, the vectors done, whether it has ended, and the task that started it. -/
structure TdJob where
  inAt : Nat
  outAt : Nat
  n : Nat
  i : Nat := 0
  ended : Bool := false
  cause : Option Arrival := none
  deriving DecidableEq, Repr

/-- Audio beyond its registers. `last` is the sample processed last; `runs` says that outputs carry sound (R423); `vregs` the voice
parameters sampled at the block start; `sends` the send sums of the last 32 voice instants and `norm`, `ll` the inputs of the last 35
and 3 instants on the two paths, newest first, each a sparse vector; `filt` the filter state of each input; `now` the actions of cues with their launch times and `staged` the
actions that wait for a block (R422); `fires` the scene fires whose ramps run; `ringBuf` the samples that each stream ring gave for the block; `outs` the last
outputs; `tdmOut` the last frame of each port. Slices are physical numbers by class 3 or 4 × 32 + logical slice; `down` the logical
slices whose samples have stopped, and `faults` those of them that no spare has yet replaced, each with DETECT and the herd time of its
detection; `pdm` what the microphones gave at the last 8 instants, newest first (R421). -/
structure AudioSt where
  last : Option Nat := none
  runs : Bool := false
  voices : Store Voice := []
  vregs : Store Word := []
  missed : List Nat := []
  sends : List (Store Int) := []
  norm : List (Store Int) := []
  ll : List (Store Int) := []
  filt : Store (BitVec 128) := []
  nodes : Store Node := []
  now : List (Nat × AuAct) := []
  staged : List AuAct := []
  scenes : Store (List Word) := []
  load : Option (Nat × Nat × Nat) := none
  fires : List (Nat × Option Arrival) := []
  nextFire : Nat := 1
  meters : Store AuMeter := []
  clipped : Bool := false
  ringBuf : Store (List Word) := []
  outs : Store Int := []
  tdm : Store TdmSt := []
  tdmOut : Store (List Word) := []
  slices : Store Nat := []
  down : List Nat := []
  faults : List (Nat × Nat × Nat) := []
  pdm : List (List Word) := []
  tdq : List (Option Nat) := []
  job : Option TdJob := none
  acc : Store Int := []
  rove : Bool := false
  deriving DecidableEq, Repr

/-! ### GPIO (R536 to R551) -/

/-- The hold of a pin after a change of its function (R545): the clock instant at which the gap ends, the level held, whether the pin
follows as an input because its function withdrew its output (R546), and whether the gap has ended. -/
structure PinHold where
  til : Nat
  level : Bool
  input : Bool := false
  past : Bool := false
  deriving DecidableEq, Repr

/-- GPIO beyond its registers: the lock sequence of each bank (R547: 0 idle, 1 after the first key, 2 after the mask) with its mask; the
holds of R545; and the last change of each pin's latch by a task, with its instant (R544). -/
structure GpioSt where
  step : Store Nat := []
  mask : Store Word := []
  holds : Store (Option PinHold) := []
  tasks : Store (Option (Nat × Arrival)) := []
  deriving DecidableEq, Repr

/-! ### The network port (R521 to R535) -/

/-- The servo of R531: whether the next accepted measurement is the first, MEAS_HT accepted last, the run of measurements within
100 ns, since when the offset exceeds 1 µs, the instant of the last accepted measurement, the step that waits for a herd frame, and the
slew in force. DEDUCED, log entry 110. -/
structure PtpSt where
  first : Bool := true
  lastHt : Option Nat := none
  good : Nat := 0
  big : Option Nat := none
  lastClk : Nat := 0
  pend : Option Int := none
  slew : Int := 0
  deriving DecidableEq, Repr

/-- The port beyond its registers: the transmit rings that run, the 64-bit counts of R534, the frame sent last, and the servo. -/
structure NetSt where
  run : List Nat := []
  stats : Store Nat := []
  wire : List Byte := []
  ptp : PtpSt := {}
  deriving DecidableEq, Repr

/-! ### The herd (R230 to R260) -/

/-- An entry in the outgoing queue (R245): a cue or a census entry, its bytes, and how many frames of each ring it is still to go into. -/
structure OutEntry where
  cue : Bool
  bytes : List Byte
  leftA : Nat
  leftB : Nat
  deriving DecidableEq, Repr

/-- One ring at this device. Input: whether it is lost, the run of bad frames, since when it delivers good ones, its last good frame, and
the frames missed since (R236, R238). Output: the last frame sent, how many have been sent, the PD_REQ that waits for an answer (LSEQ and
t1) and the PD_REQ to be answered on it (LSEQ and t2), in 1/16 ns (R237). `delays` holds the last samples of the delay of the input link,
`carry` the entries that the master carries, `ret` the last measured return time in ns (R245, R246). `due` is the expected arrival of the
next frame on the input and `sends` the frames of the master that are under way with the instant at which each left, in 1/16 ns on the
herd clock (R238). -/
structure RingSt where
  lost : Bool := false
  bad : Nat := 0
  goodSince : Nat := 0
  last : List Byte := []
  missed : Nat := 0
  out : List Byte := []
  sent : Nat := 0
  req : Option (Nat × Nat) := none
  rsp : Option (Nat × Nat) := none
  delays : List Nat := []
  carry : List (Bool × List Byte) := []
  ret : Option Nat := none
  due : Nat := 0
  sends : List (Nat × Nat) := []
  deriving DecidableEq, Repr

/-- A pending census (R253). -/
structure Census where
  t : Nat
  id : Nat
  origin : Nat
  merged : Bool := false
  deriving DecidableEq, Repr

/-- The herd beyond its registers: rings A and B; the outgoing queue; LSEQ; the instant of the lock to the ring, whether step 2 of R240 has
been taken, and whether it asks for a step; the pending HT_SET and the STEP flag of the next frame; the herd time of the last step and
of the master's last frame; EPOCH_TAI in force; the instant of the last SPAN measurement; HERD_PPS output; PPS_IN_HT; pending
censuses; census entries seen; and the bank that is being filled with its contents. -/
structure HerdSt where
  a : RingSt := {}
  b : RingSt := {}
  queue : List OutEntry := []
  lseq : Nat := 0
  lockAt : Option Nat := none
  evaled : Bool := false
  stepDue : Bool := false
  htSet : Bool := false
  stepFlag : Bool := false
  stepHt : Nat := 0
  lastSend : Option Nat := none
  epoch : Nat := 0
  spanClk : Nat := 0
  pps : Bool := false
  ppsAt : Option Nat := none
  ppsClk : Nat := 0
  ppsIn : Nat := 0
  cens : List Census := []
  seen : List (Nat × Nat) := []
  fill : Option (Nat × Store Word) := none
  deriving DecidableEq, Repr

/-! ### Power, reset and boot (R552 to R569), JTAG (R570 to R572) -/

/-- Power and boot beyond the registers of R573. `boot` is the boot step reached: 0 held in reset, 1 released, 2 herd clock locked,
3 keep store ready, 4 HBM3 trained, 5 memory filled and loader free to start, 6 loading, 7 loaded. `kind` says how the boot began:
0 power-on, 1 pin reset, 2 software or watchdog reset, 3 exit from deep standby. `line` says that a reset line is held. `deep` gives the
yokes that hold a valid deep checkpoint, with their state and windows (R561); `slot` and `serial` the slot and the SERIAL last loaded, as
VDD_AON holds them; `wdt` the instant from which BOOT_WDT counts (R564); `trip` whether THERMTRIPn is low (R580); `since` the instant of the last ARRAY_EN or SW_EN rise. -/
structure PwrSt where
  boot : Nat := 1
  kind : Nat := 0
  line : Bool := false
  deep : List (Nat × OxCtx × List Word) := []
  slot : Nat := 2
  serial : Word := 0
  wdt : Option Nat := none
  trip : Bool := false
  since : Nat := 0
  deriving DecidableEq, Repr

/-- The TAP (R570 to R572): the instruction selected, the data register as last captured, the last challenge with its attempt still to be
made, the instant up to which no attempt is accepted, the boundary register as preloaded and as sampled, whether EXTEST, CLAMP or HIGHZ
holds the device in pin reset, and the result of the last DBG_ACCESS with its STATUS. -/
structure JtagSt where
  ir : Nat := 1
  dr : Nat := 0
  chal : Option Nat := none
  block : Nat := 0
  preload : List Byte := []
  sample : List Byte := []
  hold : Bool := false
  data : Word := 0
  status : Nat := 0
  deriving DecidableEq, Repr

/-! ### The device -/

/-- Everything on the die but the bulk memories and the queue of commands. `regs` is the register file: every register that
chapters of spec/ give an offset, keyed by it; the other fields hold what no register shows. `units` gives the standing of each
spared unit other than cells (see `Dev.unit`), `testing` those in self-test, `requests` the queued SELFTEST_REQ requests, and
`repairs` the repair map, by CLASS and INDEX of R287. `roveAt` and `testAt` are the instants of the last roving handoffs and periodic
self-tests (R272, R281), and `phLast` the Packhorse channel served last (R370). DESIGN CHOICE, log entry 142. -/
structure Dev where
  regs : Store Word := []
  ht : DWord := 0
  clk : Nat := 0
  free : Nat := 0
  resp : Resp := .idle
  tasks : Store (List Arrival) := []
  srcs : Store Src := []
  bwStacks : Store (List (Nat × Nat)) := []
  coals : Store Coal := []
  keep : Keep := {}
  mc : MemCtl := {}
  cells : Store CellSt := []
  flocks : Store FlockSt := []
  heads : Store HeadSt := []
  scripts : Store LsSt := []
  rail : Rail := {}
  roveAt : Nat := 0
  testAt : Nat := 0
  ld : Loader := {}
  yokes : Store YokeSt := []
  units : Store Nat := []
  testing : List (Nat × Nat) := []
  requests : List (Nat × Nat × Bool) := []
  repairs : List (Nat × Nat) := []
  timers : Store TmSt := []
  tmUnits : Store TmUnit := []
  drv : DrvSt := {}
  phs : Store PhSt := []
  phLast : Nat := 31
  cks : Store CkSt := []
  au : AudioSt := {}
  mule : MuleSt := {}
  gpio : GpioSt := {}
  net : NetSt := {}
  herd : HerdSt := {}
  pw : PwrSt := {}
  jtag : JtagSt := {}
  logSecond : Nat := 0
  logKeys : List (Nat × Nat) := []
  deriving DecidableEq, Repr

/-- The machine: the queue of waiting commands, first in first out; the die; the memories. -/
structure State where
  pending : List Instr := []
  dev : Dev := {}
  mem : Mem := {}
  deriving DecidableEq, Repr

/-- The canonical form of the memories: addresses strictly rise, and no entry equals what an unlisted address reads as. -/
def Mem.wf (m : Mem) : Bool :=
  Store.wf (fun _ => 0) m.bytes && Store.wf (fun _ => 0) m.tcm && Store.wf (fun _ => 0xFF) m.flash &&
  Store.wf (fun _ => 0) m.err

/-- Change the die. -/
def State.upd (s : State) (f : Dev → Dev) : State := { s with dev := f s.dev }
/-- Answer the next state, with the die changed. -/
def State.next (s : State) (f : Dev → Dev) : Host.Outcome State Fault Refusal := .next (s.upd f)

/-- The machine right after power-on reset (R566). DESIGN CHOICE, log entry 2; DEDUCED, log entry 113. -/
def State.reset : State := {}

end Sys2Proof.Machine
end

