-- ==== Sys2Proof/Machine/Ops.lean ====
section
/-! DEFINITION. The named operations over registers and memories that every block uses: fields, flags, saturating counts,
herd time, free values, requesters and their privilege (R6, R12, R13, R337). -/
namespace Sys2Proof.Machine

/-! ### Bits and fields of a word (R5) -/

/-- Field [hi:lo] of a word, as a number. -/
def fld (w : Word) (hi lo : Nat) : Nat := (w.toNat >>> lo) % 2 ^ (hi + 1 - lo)
/-- Bit n of a word. -/
def bitOf (w : Word) (n : Nat) : Bool := w.getLsbD n
/-- The mask of field [hi:lo]. -/
def maskOf (hi lo : Nat) : Word := w32 ((2 ^ (hi + 1 - lo) - 1) * 2 ^ lo)
/-- Set field [hi:lo] of a word to v, modulo its width. -/
def putFld (w : Word) (hi lo v : Nat) : Word :=
  (w &&& ~~~ maskOf hi lo) ||| w32 ((v % 2 ^ (hi + 1 - lo)) * 2 ^ lo)
/-- Field [hi:lo] of a word as a two's complement number. -/
def sfld (w : Word) (hi lo : Nat) : Int :=
  let v := fld w hi lo
  if v < 2 ^ (hi - lo) then (v : Int) else (v : Int) - (2 ^ (hi + 1 - lo) : Nat)
/-- A word as a two's complement number. -/
def sword (w : Word) : Int := w.toInt
/-- An integer as a word, modulo 2^32. -/
def iw (x : Int) : Word := BitVec.ofInt 32 x
/-- Clamp to [lo, hi]. -/
def clampI (lo hi x : Int) : Int := if x < lo then lo else if hi < x then hi else x

/-! ### The register file -/

/-- Read a register of the register file by its offset. DESIGN CHOICE, log entry 2. -/
def Dev.rd (d : Dev) (o : Nat) : Word := Store.get resetWord d.regs o
/-- Write a register of the register file. -/
def Dev.wr (d : Dev) (o : Nat) (v : Word) : Dev := { d with regs := Store.set resetWord d.regs o v }
/-- Field of a register. -/
def Dev.fld (d : Dev) (o hi lo : Nat) : Nat := Machine.fld (d.rd o) hi lo
/-- Set a field of a register. -/
def Dev.setFld (d : Dev) (o hi lo v : Nat) : Dev := d.wr o (putFld (d.rd o) hi lo v)
/-- Bit of a register. -/
def Dev.bit (d : Dev) (o n : Nat) : Bool := bitOf (d.rd o) n
/-- Set a bit: a flag that hardware raises (R13). -/
def Dev.setBit (d : Dev) (o n : Nat) : Dev := d.wr o (d.rd o ||| w32 (2 ^ n))
/-- Clear a bit. -/
def Dev.clrBit (d : Dev) (o n : Nat) : Dev := d.wr o (d.rd o &&& ~~~ w32 (2 ^ n))
/-- Give a bit a value. -/
def Dev.putBit (d : Dev) (o n : Nat) (b : Bool) : Dev := if b then d.setBit o n else d.clrBit o n
/-- Step a count that holds at 0xFFFF_FFFF. -/
def Dev.bump (d : Dev) (o : Nat) : Dev := if d.rd o = 0xFFFFFFFF then d else d.wr o (d.rd o + 1)
/-- Step a count that holds at 0xFFFF_FFFF by n. -/
def Dev.bumpBy (d : Dev) (o n : Nat) : Dev :=
  d.wr o (w32 (min ((d.rd o).toNat + n) 0xFFFFFFFF))
/-- A 64-bit value held in a LO and a HI register. -/
def Dev.rd64 (d : Dev) (lo hi : Nat) : Nat := (d.rd lo).toNat + (d.rd hi).toNat * 2 ^ 32
/-- Write a 64-bit value to a LO and a HI register. -/
def Dev.wr64 (d : Dev) (lo hi : Nat) (v : Nat) : Dev := (d.wr lo (w32 v)).wr hi (w32 (v / 2 ^ 32))

/-- Answer the requester. -/
def Dev.answer (d : Dev) (r : Resp) : Dev := { d with resp := r }
/-- A write that was performed, or ignored without an error. -/
def Dev.okay (d : Dev) : Dev := { d with resp := .ok 0 }
/-- An access that is not performed: the requester receives an access error (R6). -/
def Dev.deny (d : Dev) : Dev := { d with resp := .accessError }

/-! ### Time and free values -/

/-- Herd time as a number of herd nanoseconds (R16). -/
def Dev.now (d : Dev) : Nat := d.ht.toNat
/-- n periods of the herd clock pass: herd time and the clock that durations are counted on step alike (R230, R600).
DESIGN CHOICE, log entry 1. -/
def Dev.pass (d : Dev) (n : Nat) : Dev := { d with ht := d.ht + BitVec.ofNat 64 n, clk := d.clk + n }
/-- An event that falls at herd time t: time passes until then, if it has not been reached. DESIGN CHOICE, log entry 1. -/
def Dev.passTo (d : Dev) (t : Nat) : Dev := if d.now < t then d.pass (t - d.now) else d
/-- An event that falls at an instant of the herd clock. DESIGN CHOICE, log entry 1. -/
def Dev.passClk (d : Dev) (c : Nat) : Dev := if d.clk < c then d.pass (c - d.clk) else d
/-- The present second of herd time (R479, R600). -/
def Dev.second (d : Dev) : Nat := d.ht.toNat / 1000000000

/-- A fresh free value, for a value that the spec leaves open, and the state that has used it. DESIGN CHOICE, log entry 7. -/
def Dev.fresh (d : Dev) : Word × Dev := (Config.freeWord d.free, { d with free := d.free + 1 })

/-! ### Power state and requesters -/

/-- PWR_STATUS.STATE (R573): 0 RUN, 1 STANDBY_ENTRY, 2 STANDBY, 3 STANDBY_EXIT, 4 DEEP_ENTRY, 5 DEEP, 6 DEEP_EXIT. -/
def Dev.pwr (d : Dev) : Nat := d.fld Reg.PWR_STATUS 2 0
/-- In deep standby (R556). -/
def Dev.inDeep (d : Dev) : Bool := d.pwr == 5
/-- HBM3 is reachable: not in standby, nor in its entry or exit (R558), nor in deep standby. -/
def Dev.hbmUp (d : Dev) : Bool := d.pwr == 0

/-- Whether a requester has Keeper privilege: a yoke by Y_STATUS.KEEPER (R296), JTAG and the loader always (R56, R572),
the peer by PEER_KEEPER (R511), a Packhorse channel by PRIV (R386), a line script never (R174). -/
def Dev.keeper (d : Dev) : Req → Bool
  | .yoke y => d.bit (Reg.Y_STATUS y) 0
  | .jtag => true
  | .loader => true
  | .peer => d.bit Reg.DRV_CTRL 3
  | .channel n => d.bit (Reg.PCH_CFG n) 3
  | .script _ => false

/-! ### Lists of numbers used as sets -/

/-- Insert into an ascending list without repeats. -/
def insNat (n : Nat) : List Nat → List Nat
  | [] => [n]
  | a :: l => if n < a then n :: a :: l else if n = a then a :: l else a :: insNat n l

/-- Do something for each number below n. -/
def forN {σ : Type} (n : Nat) (s : σ) (f : Nat → σ → σ) : σ := (List.range n).foldl (fun s i => f i s) s

/-- The bytes of a word, least significant first (R5). -/
def wordBytes (w : Word) : List Byte := [w.extractLsb' 0 8, w.extractLsb' 8 8, w.extractLsb' 16 8, w.extractLsb' 24 8]

/-- A little-endian number from bytes (R5). -/
def leNat : List Byte → Nat
  | [] => 0
  | b :: bs => b.toNat + 256 * leNat bs

/-- n bytes of a number, least significant first. -/
def natBytes : Nat → Nat → List Byte
  | 0, _ => []
  | n + 1, v => BitVec.ofNat 8 v :: natBytes n (v / 256)

end Sys2Proof.Machine
end

