-- ==== Sys2Proof/Machine/Conj.lean ====
section
/-! DEFINITION. The conjunction event fabric (R336 to R352): firing an event, arrivals at task inputs, clauses and
channels. -/
namespace Sys2Proof.Machine

/-! ### Event and task numbers -/

/-- The assigned event numbers (R336, R449, R515, R532, R544). -/
def eventAssigned (e : Nat) : Bool :=
  (1 ≤ e && e ≤ 0x0F) || (0x10 ≤ e && e < 0x50 && e % 8 < 6) || (0x80 ≤ e && e < 0xA0) ||
  (0x100 ≤ e && e < 0x200) || (0x200 ≤ e && e < 0x280 && e % 4 < 3) || (0x280 ≤ e && e < 0x2C0) ||
  (0x2D0 ≤ e && e < 0x2E0) || (0x2E0 ≤ e && e ≤ 0x2E9) || (0x2F0 ≤ e && e ≤ 0x2F6) || (0x2F8 ≤ e && e ≤ 0x2FF) ||
  (0x300 ≤ e && e < 0x400)

/-- The assigned task numbers (R338, R448). -/
def taskAssigned (t : Nat) : Bool :=
  (0x10 ≤ t && t ≤ 0x40) || (0x100 ≤ t && t < 0x180 && t % 4 < 3) || (0x200 ≤ t && t < 0x280) ||
  (0x290 ≤ t && t < 0x2A0) || (0x2A0 ≤ t && t ≤ 0x2A9) || (0x400 ≤ t && t < 0x600 && t % 4 < 3)

/-- The timer tasks. -/
def taskIsTimer (t : Nat) : Bool := 0x200 ≤ t && t < 0x280

/-- Task inputs whose unit is always ready (R344): fabric, timer, GPIO and audio tasks other than TANDEM_RUN. DEDUCED, log entry 83. -/
def taskReady (t : Nat) : Bool :=
  (0x10 ≤ t && t ≤ 0x40) || taskIsTimer t || (0x2A0 ≤ t && t ≤ 0x2AF && t != 0x2A8) || 0x400 ≤ t

/-- Task inputs of units that stay powered in deep standby (R349, R552): the fabric, timer unit 0 and GPIO. -/
def taskPowered (t : Nat) : Bool := (0x10 ≤ t && t ≤ 0x40) || (0x200 ≤ t && t < 0x210) || 0x400 ≤ t

/-! ### Channels -/

/-- The event a channel names (CH_CFG). -/
def chEvent (d : Dev) (n : Nat) : Nat := d.fld (Reg.CH_CFG n) 15 0
/-- The task a channel names (CH_CFG). -/
def chTask (d : Dev) (n : Nat) : Nat := d.fld (Reg.CH_CFG n) 31 16
/-- A channel is active while its ENABLE is 1 and its clause is on (R340). -/
def chActive (d : Dev) (n : Nat) : Bool := d.bit (Reg.CH_CTRL n) 0 && d.bit (Reg.CH_CTRL n) 11
/-- A task input is in COLLAPSE while an active channel that names it has COLLAPSE set (R345). -/
def inCollapse (d : Dev) (t : Nat) : Bool :=
  (List.range 128).any (fun n => chActive d n && chTask d n == t && d.bit (Reg.CH_CTRL n) 2)

/-- The pending executions of a task input, oldest first (R344). -/
def Dev.tasksAt (d : Dev) (t : Nat) : List Arrival := Store.get (fun _ => []) d.tasks t
/-- Replace the pending executions of a task input. -/
def Dev.setTasks (d : Dev) (t : Nat) (l : List Arrival) : Dev := { d with tasks := Store.set (fun _ => []) d.tasks t l }

/-- Merge an arrival into the newest pending execution (R345): the greater hop, OPEN if either is. -/
def mergeLast (a : Arrival) : List Arrival → List Arrival
  | [] => [a]
  | [b] => [{ hop := max a.hop b.hop, isOpen := a.isOpen || b.isOpen, chan := if b.hop < a.hop then a.chan else b.chan }]
  | b :: c :: l => b :: mergeLast a (c :: l)

/-- An arrival at a task input (R344 to R346, R349). DEDUCED, log entry 81; DEDUCED, log entry 83. -/
def arrive (t : Nat) (a : Arrival) (d : Dev) : Dev :=
  if d.inDeep && !taskPowered t then d.setBit Reg.CONJ_FLAGS 6
  else
    let q := d.tasksAt t
    if taskReady t then d.setTasks t (q ++ [a])
    else if inCollapse d t && q.length ≥ 1 then
      (((d.setTasks t (mergeLast a q)).setBit (Reg.TASK_STATE t) 3).setBit Reg.CONJ_FLAGS 2).bump Reg.COLLAPSE_COUNT
    else if q.length ≥ 3 then
      ((d.setBit (Reg.TASK_STATE t) 4).setBit Reg.CONJ_FLAGS 1).bump Reg.OVERRUN_COUNT
    else d.setTasks t (q ++ [a])

/-- One channel's part in a firing (R340, R342). -/
def fireChannel (e hop : Nat) (isOpen : Bool) (n : Nat) (d : Dev) : Dev :=
  if chActive d n && chEvent d n == e then
    if d.bit (Reg.CH_CTRL n) 1 && isOpen then
      (d.setBit (Reg.CH_STATUS n) 1).setBit Reg.CONJ_FLAGS 5
    else arrive (chTask d n) { hop := hop, isOpen := isOpen, chan := n } (d.bump (Reg.CH_COUNT n))
  else d

/-- Fire event `e` with a hop count and a mark: one arrival through every active channel that names it (R340). -/
def fireMarked (e hop : Nat) (isOpen : Bool) (d : Dev) : Dev := forN 128 d (fireChannel e hop isOpen)

/-- An event that a unit raises on its own condition: hop 0, SECURE (R337). -/
def fire (e : Nat) (d : Dev) : Dev := fireMarked e 0 false d

/-- An event that a unit raises while it executes a task: the task's hop plus 1 and its mark (R337). An event whose hop
would be 8 is not raised, and the channel that delivered the task records a LOOP (R347). DEDUCED, log entry 81. -/
def fireFrom (a : Arrival) (e : Nat) (d : Dev) : Dev :=
  if a.hop + 1 ≥ 8 then
    ((((d.setBit (Reg.CH_STATUS (a.chan % 128)) 0).setBit Reg.CONJ_FLAGS 0).bump Reg.LOOP_COUNT)).wr Reg.LAST_LOOP (w32 (a.chan % 128))
  else fireMarked e (a.hop + 1) a.isOpen d

/-- An event raised on a condition that a task may have caused. -/
def fireCause (c : Option Arrival) (e : Nat) (d : Dev) : Dev :=
  match c with
  | some a => fireFrom a e d
  | none => fire e d

/-- Take the oldest pending execution of a task input (R344). DEDUCED, log entry 83. -/
def takeTask (t : Nat) (d : Dev) : Option (Arrival × Dev) :=
  match d.tasksAt t with
  | [] => none
  | a :: l => some (a, d.setTasks t l)

/-! ### Clauses (R341) -/

/-- Turn clause c on or off: a SECURE change acts on every channel of the clause, an OPEN one on those not SECURE. -/
def clauseChange (c : Nat) (on isOpen : Bool) (d : Dev) : Dev :=
  forN 128 d (fun n d =>
    if d.fld (Reg.CH_CTRL n) 7 4 == c && !(isOpen && d.bit (Reg.CH_CTRL n) 1) then d.putBit (Reg.CH_CTRL n) 11 on else d)

/-- CLAUSE_STATE (R352): bit c is 1 while clause c is on for at least one channel. -/
def clauseState (d : Dev) : Word :=
  forN 128 0 (fun n w => if d.bit (Reg.CH_CTRL n) 11 then w ||| w32 (2 ^ d.fld (Reg.CH_CTRL n) 7 4) else w)

/-- TASK_STATE (R352) as a read returns it; a unit that is always ready takes an arrival before the next is counted (R344).
DEDUCED, log entry 83. -/
def taskState (d : Dev) (t : Nat) : Word :=
  if taskAssigned t then
    let q := d.tasksAt t
    let w := putFld (d.rd (Reg.TASK_STATE t)) 1 0 (min q.length (if taskReady t then 1 else 3))
    let w := putFld w 2 2 (if inCollapse d t then 1 else 0)
    putFld w 7 5 (match q with | [] => 0 | a :: _ => a.hop)
  else 0

/-! ### Writes of the CONJ page -/

/-- A SW_FIRE write (R337): each bit j of [15:1] fires software event j at hop 0, OPEN for a requester without Keeper
privilege. -/
def swFire (q : Req) (v : Word) (d : Dev) : Dev :=
  (forN 16 d (fun j d => if j ≥ 1 && bitOf v j then fireMarked j 0 (!d.keeper q) d else d)).okay

/-- A CLAUSE_SET or CLAUSE_CLR write (R341, R352). -/
def clauseWrite (q : Req) (v : Word) (on : Bool) (d : Dev) : Dev :=
  if d.keeper q then (forN 16 d (fun c d => if bitOf v c then clauseChange c on false d else d)).okay else d.deny

/-- Whether a requester may write a channel (R343). -/
def chMayWrite (q : Req) (n : Nat) (d : Dev) : Bool :=
  d.keeper q || (!d.bit (Reg.CH_CTRL n) 1 && (match q with | .yoke y => d.fld (Reg.CH_CTRL n) 10 8 == y | _ => false))

/-- A CH_CFG write (R343, R352). -/
def chCfgWrite (q : Req) (n : Nat) (v : Word) (d : Dev) : Dev :=
  if !chMayWrite q n d then (d.setBit Reg.CONJ_FLAGS 3).deny
  else if !eventAssigned (fld v 15 0) || !taskAssigned (fld v 31 16) ||
      (d.bit (Reg.CH_CTRL n) 3 && !taskIsTimer (fld v 31 16)) then (d.setBit Reg.CONJ_FLAGS 4).okay
  else (d.wr (Reg.CH_CFG n) v).okay

/-- A CH_CTRL write (R343, R352). CLAUSE_ON is kept per channel (R341), so a write leaves it as it is. -/
def chCtrlWrite (q : Req) (n : Nat) (v : Word) (d : Dev) : Dev :=
  if !chMayWrite q n d then (d.setBit Reg.CONJ_FLAGS 3).deny
  else if bitOf v 3 && !taskIsTimer (chTask d n) then (d.setBit Reg.CONJ_FLAGS 4).okay
  else (d.wr (Reg.CH_CTRL n) ((v &&& 0x7FF) ||| (d.rd (Reg.CH_CTRL n) &&& 0x800))).okay

/-! ### The steps -/

/-- SW_FIRE. -/
def execSwFire (q : Req) (v : Word) (s : State) : Host.Outcome State Fault Refusal := s.next (swFire q v)
/-- CLAUSE_SET (R341). -/
def execClauseSet (q : Req) (v : Word) (s : State) : Host.Outcome State Fault Refusal := s.next (clauseWrite q v true)
/-- CLAUSE_CLR (R341). -/
def execClauseClr (q : Req) (v : Word) (s : State) : Host.Outcome State Fault Refusal := s.next (clauseWrite q v false)

/-- The CLAUSE_ON task of clause c (R341). -/
def clauseTask (base c : Nat) (on : Bool) (d : Dev) : Dev :=
  match takeTask (base + c) d with
  | some (a, d) => clauseChange c on a.isOpen d
  | none => d

/-- CLAUSE_ON executes one pending CLAUSE_ON c. -/
def execClauseOn (c : Fin 16) (s : State) : Host.Outcome State Fault Refusal := s.next (clauseTask 0x10 c true)
/-- CLAUSE_OFF executes one pending CLAUSE_OFF c. -/
def execClauseOff (c : Fin 16) (s : State) : Host.Outcome State Fault Refusal := s.next (clauseTask 0x20 c false)

/-- IRQ_TASK executes one pending IRQ j, which sets bit j of IRQ_LATCH (R351). -/
def irqTask (j : Nat) (d : Dev) : Dev :=
  match takeTask (0x30 + j) d with
  | some (_, d) => d.setBit Reg.IRQ_LATCH j
  | none => d
/-- IRQ_TASK. -/
def execIrqTask (j : Fin 16) (s : State) : Host.Outcome State Fault Refusal := s.next (irqTask j)

/-- CH_WRITE: a write of CH_CTRL (`ctrl`) or CH_CFG of channel n (R343). -/
def execChWrite (q : Req) (n : Fin 128) (ctrl : Bool) (v : Word) (s : State) : Host.Outcome State Fault Refusal :=
  s.next (if ctrl then chCtrlWrite q n v else chCfgWrite q n v)

end Sys2Proof.Machine
end

