-- ==== Sys2Proof/Machine/Gpio.lean ====
section
/-! DEFINITION. General-purpose pins (R536 to R551): functions, latches, edges, holds of a function change, locks, and the wake from
deep standby. -/
namespace Sys2Proof.Machine

/-- Change GPIO beyond its registers. -/
def Dev.gpUpd (d : Dev) (f : GpioSt → GpioSt) : Dev := { d with gpio := f d.gpio }
/-- A pin's bit in a register of its bank. -/
def pinBit (d : Dev) (r : Nat → Nat) (q : Nat) : Bool := d.bit (r (q / 32)) (q % 32)
/-- FUNC of a pin. -/
def pinFunc (d : Dev) (q : Nat) : Nat := d.fld (Reg.PIN_CFG q) 2 0
/-- The rail of a bank is present (R536). -/
def railUp (d : Dev) (b : Nat) : Bool := d.bit (Reg.BANK_STATUS b) 0

/-! ### What a pin outputs -/

/-- What a function gives a pin (R538, R546): no output, an output that has presented no level yet, a level, or the waveform of a TDM or
PDM signal. -/
inductive PinOut where
  | none | absent | level (b : Bool) | wave
  deriving DecidableEq, Repr

/-- The output of TDM signal 0 BCLK, 1 FSYNC, 2 DIN, 3 DOUT of port p. -/
def tdmSignal (d : Dev) (p sig : Nat) : PinOut :=
  let on := d.bit (Reg.TDM_CFG p) 0 && !(Store.get (fun _ => []) d.au.tdmOut p).isEmpty
  if sig = 2 || (sig < 2 && !d.bit (Reg.TDM_CFG p) 1) then .none else if on then .wave else .absent
/-- The output of a pin's function (R538). -/
def pinOutput (d : Dev) (q : Nat) : PinOut :=
  let n := q % 32
  match pinFunc d q with
  | 0 => if d.bit (Reg.PIN_CFG q) 3 then .level (pinBit d Reg.GPIO_OUT q) else .none
  | 1 | 5 => tdmSignal d (n / 4) (n % 4)
  | 2 | 6 => if n % 2 = 1 then .none else if d.bit Reg.PDM_CFG (n / 2) then .wave else .absent
  | 3 => .level (d.bit (Reg.TM_STATUS (n / 4) (n % 4)) 1)
  | _ => .none

/-- What a pad does (R536, R540, R545): nothing, its pull (`some` up), the keeper at a level, a driven level, or a waveform. -/
inductive Pad where
  | floats | pull (up : Bool) | keeper | holds (b : Bool) | drives (b : Bool) | wave
  deriving DecidableEq, Repr

/-- A pad that nothing drives follows PIN_CFG. -/
def padRest (d : Dev) (q : Nat) : Pad :=
  if d.bit (Reg.PIN_CFG q) 7 then .keeper
  else match d.fld (Reg.PIN_CFG q) 6 5 with
    | 1 => .pull false
    | 2 => .pull true
    | _ => .floats

/-- What the pad of pin q does now. In HALT no output is driven (R63). DESIGN CHOICE, log entry 111. -/
def padState (d : Dev) (q : Nat) : Pad :=
  let driven : Pad := match pinOutput d q with
    | .level b => if b && d.bit (Reg.PIN_CFG q) 4 then padRest d q else .drives b
    | .wave => .wave
    | _ => padRest d q
  if !railUp d (q / 32) then .floats
  else if d.bit Reg.IMAGE_STATUS 5 then padRest d q
  else match Store.get (fun _ => none) d.gpio.holds q with
    | some h => if !h.past || (!h.input && pinOutput d q = .absent) then .holds h.level else driven
    | none => driven

/-- The last level of a pin. -/
def pinLevel (d : Dev) (q : Nat) : Bool :=
  match padState d q with
  | .drives b | .holds b => b
  | _ => pinBit d Reg.GPIO_IN q

/-- Give a pin a hold or take it away. -/
def setHold (q : Nat) (h : Option PinHold) (d : Dev) : Dev :=
  d.gpUpd (fun g => { g with holds := Store.set (fun _ => none) g.holds q h })
/-- A hold whose gap has ended goes once the function presents a level, or gives no output (R545, R546). -/
def settleHold (q : Nat) (d : Dev) : Dev :=
  match Store.get (fun _ => none) d.gpio.holds q with
  | some h => if h.past && (h.input || pinOutput d q ≠ .absent) then setHold q none d else d
  | none => d
/-- The pins whose function has withdrawn its output since `old` follow R545 as inputs (R546). -/
def withdrawn (old d : Dev) : Dev :=
  forN 128 d (fun q d =>
    if pinOutput old q = .wave && pinOutput d q ≠ .wave then setHold q (some { til := d.clk + 16, level := pinLevel old q, input := true }) d
    else d)
/-- Every hold that may go. -/
def settleHolds (d : Dev) : Dev := (d.gpio.holds.map (·.1)).foldl (fun d q => settleHold q d) d

/-- The pin that an input signal takes, of those that may select it from the lowest-lettered bank on: the first that does (R539). -/
def inputPin (d : Dev) (l : List (Nat × Nat)) : Option Nat := (l.find? (fun e => pinFunc d e.1 == e.2)).map (·.1)
/-- The pin of TMR_CAP of timer channel i (R538). -/
def capPin (d : Dev) (i : Nat) : Option Nat := inputPin d ((List.range 4).map (fun b => (32 * b + i, 4)))
/-- The pin of TDM signal sig of port p (R538). -/
def tdmPin (d : Dev) (p sig : Nat) : Option Nat := inputPin d [(4 * p + sig, 1), (64 + 4 * p + sig, 5)]
/-- Whether a signal has a pin whose bank has its rail (R536, R539). -/
def pinFeeds (d : Dev) (q : Option Nat) : Bool := match q with | some q => railUp d (q / 32) | none => false

/-! ### The latch (R541) -/

/-- Write the bits of a bank's latch that a mask selects. -/
def latchWrite (b : Nat) (mask v : Word) (d : Dev) : Dev :=
  d.wr (Reg.GPIO_OUT b) ((d.rd (Reg.GPIO_OUT b) &&& ~~~ mask) ||| (v &&& mask))
/-- The masked write of pins 0–15 or 16–31. -/
def latchMasked (b : Nat) (hi : Bool) (v : Word) (d : Dev) : Dev :=
  let sh := if hi then 16 else 0
  latchWrite b ((v >>> 16) <<< sh) ((v &&& 0xFFFF) <<< sh) d
/-- Cue pattern k (R541): all four banks in one instant. -/
def gpioPattern (k : Nat) (d : Dev) : Dev := forN 4 d (fun b d => latchWrite b (d.rd (Reg.GPAT_MASK k b)) (d.rd (Reg.GPAT_VAL k b)) d)
/-- Task 0 SET, 1 CLEAR or 2 TOGGLE of pin q. -/
def latchTask (q k : Nat) (d : Dev) : Dev :=
  match takeTask (0x400 + 4 * q + k) d with
  | some (a, d) =>
    let old := pinBit d Reg.GPIO_OUT q
    let new := match k with | 0 => true | 1 => false | _ => !old
    if new = old then d
    else
      (d.putBit (Reg.GPIO_OUT (q / 32)) (q % 32) new).gpUpd (fun g => { g with
        tasks := Store.set (fun _ => none) g.tasks q (some (d.clk, a)) })
  | none => d

/-! ### Edges (R543, R544, R549) -/

/-- A wake starts the exit from deep standby (R562), and SW_EN rises: bit 8 WAKE_TASK or bit 9 WAKE_PIN of PWR_STATUS. -/
def wakeDeep (bit : Nat) (d : Dev) : Dev :=
  if d.inDeep then
    let d := { d with pw := { d.pw with since := d.clk } }
    (((d.setFld Reg.PWR_STATUS 2 0 6).clrBit Reg.PWR_STATUS 8).clrBit Reg.PWR_STATUS 9).setBit Reg.PWR_STATUS bit
  else d

/-- The filter of a pin accepts the opposite level (R544). A bank without its rail detects no edge (R536), and in deep standby only bank
GA does (R549). DESIGN CHOICE, log entry 111. -/
def gpioEdge (q : Nat) (d : Dev) : Dev :=
  let b := q / 32
  if !railUp d b || (d.inDeep && b ≠ 0) then d
  else
    let up := !pinBit d Reg.GPIO_IN q
    let d := d.putBit (Reg.GPIO_IN b) (q % 32) up
    let d := d.setBit (if up then Reg.GPIO_RISE b else Reg.GPIO_FALL b) (q % 32)
    let e := 0x300 + 2 * q + (if up then 0 else 1)
    let d := match Store.get (fun _ => none) d.gpio.tasks q with
      | some (c, a) => if d.clk ≤ c + 100 then fireFrom a e d else fire e d
      | none => fire e d
    if d.inDeep && d.bit (Reg.PIN_CFG q) 13 && pinBit d (if up then Reg.GPIO_RISE_EN else Reg.GPIO_FALL_EN) q then
      (wakeDeep 9 (d.setBit Reg.GPIO_FLAGS 3)).wr Reg.WAKE_PIN (w32 q)
    else d

/-! ### Set-up and locks (R538, R545 to R548, R551) -/

/-- Whether function f exists on pin q (R538). -/
def funcOk (q f : Nat) : Bool :=
  match f, q / 32 with
  | 0, _ | 3, _ | 4, _ => true
  | 1, 0 | 5, 2 => true
  | 2, 1 | 6, 3 => q % 32 < 16
  | _, _ => false
/-- Whether PIN_CFG refuses a value (R537, R538, R551). -/
def pinCfgRefuses (q : Nat) (v : Word) : Bool :=
  !funcOk q (fld v 2 0) || fld v 6 5 == 3 || (bitOf v 7 && fld v 6 5 != 0) || fld v 9 8 == 3 || (bitOf v 13 && 32 ≤ q)
/-- A PIN_CFG write: whole, or not at all (R548). -/
def pinCfgWrite (r : Req) (q : Nat) (v : Word) (d : Dev) : Dev :=
  if !d.keeper r then d.deny
  else if pinBit d Reg.GPIO_LOCKED q then (d.setBit Reg.GPIO_FLAGS 0).okay
  else if pinCfgRefuses q v then (d.setBit Reg.GPIO_FLAGS 2).okay
  else
    let was := pinLevel d q
    let moved := fld v 2 0 ≠ pinFunc d q
    let d := d.wr (Reg.PIN_CFG q) (v &&& 0x3FFF)
    (if moved then setHold q (some { til := d.clk + 16, level := was }) d else d).okay
/-- The gap of a pin ends, 16 ns after the change of its function. -/
def gapEnd (q : Nat) (d : Dev) : Dev :=
  match Store.get (fun _ => none) d.gpio.holds q with
  | some h => if h.past then d else let d := d.passClk h.til; settleHold q (setHold q (some { h with past := true }) d)
  | none => d

/-- The step that the lock sequence of a bank is at. -/
def lockStep (d : Dev) (b : Nat) : Nat := Store.get (fun _ => 0) d.gpio.step b
/-- Set it; SEQ of BANK_STATUS shows it. -/
def setLockStep (b n : Nat) (d : Dev) : Dev :=
  (d.gpUpd (fun g => { g with step := Store.set (fun _ => 0) g.step b n })).putBit (Reg.BANK_STATUS b) 2 (n ≠ 0)
/-- A write that is not the next step aborts the sequence. -/
def lockAbort (b : Nat) (d : Dev) : Dev := (setLockStep b 0 d).setBit Reg.GPIO_FLAGS 1
/-- A GPIO_LOCK_KEY write (R547). -/
def lockKey (r : Req) (b : Nat) (v : Word) (d : Dev) : Dev :=
  if !d.keeper r then d.deny
  else
    (match lockStep d b with
    | 0 => if v = 0xA5A5 then setLockStep b 1 d else lockAbort b d
    | 2 =>
      if v = 0x5A5A then
        (setLockStep b 0 d).wr (Reg.GPIO_LOCKED b) (d.rd (Reg.GPIO_LOCKED b) ||| Store.get (fun _ => 0) d.gpio.mask b)
      else lockAbort b d
    | _ => lockAbort b d).okay
/-- A GPIO_LOCK_MASK write (R547). -/
def lockMask (r : Req) (b : Nat) (v : Word) (d : Dev) : Dev :=
  if !d.keeper r then d.deny
  else
    (if lockStep d b = 1 then
      (setLockStep b 2 d).gpUpd (fun g => { g with mask := Store.set (fun _ => 0) g.mask b v })
    else lockAbort b d).okay

/-- A bank's rail appears, disappears or changes class (R536): pins of an absent bank read 0. DESIGN CHOICE, log entry 111. -/
def railChange (b : Nat) (present v33 : Bool) (d : Dev) : Dev :=
  let d := (d.putBit (Reg.BANK_STATUS b) 0 present).putBit (Reg.BANK_STATUS b) 1 (present && v33)
  if present then d else d.wr (Reg.GPIO_IN b) 0

/-- A write of a register of the GPIO page. -/
def gpioWrite (r : Req) (o : Nat) (v : Word) (d : Dev) : Dev :=
  let b := (o - 0x100) / 0x100
  if o = 0x004 then (d.wr Reg.GPIO_FLAGS (d.rd Reg.GPIO_FLAGS &&& ~~~ v)).okay
  else if o = 0x008 then (d.wr Reg.GPIO_IRQ_EN (v &&& 0xF)).okay
  else if 0x800 ≤ o && o < 0xA00 then
    if !d.keeper r then d.deny else if o % 0x40 < 0x20 then (d.wr (0xD0000 + o) v).okay else d.okay
  else if 0x1000 ≤ o && o < 0x1200 then pinCfgWrite r ((o - 0x1000) / 4) v d
  else if 0x100 ≤ o && o < 0x500 then
    match o % 0x100 with
    | 0x04 => (d.wr (Reg.GPIO_OUT b) v).okay
    | 0x08 => (latchMasked b false v d).okay
    | 0x0C => (latchMasked b true v d).okay
    | 0x10 => (d.wr (Reg.GPIO_RISE b) (d.rd (Reg.GPIO_RISE b) &&& ~~~ v)).okay
    | 0x14 => (d.wr (Reg.GPIO_FALL b) (d.rd (Reg.GPIO_FALL b) &&& ~~~ v)).okay
    | 0x18 | 0x1C => (d.wr (0xD0000 + o) v).okay
    | 0x20 => lockKey r b v d
    | 0x24 => lockMask r b v d
    | _ => d.okay
  else d.okay

/-! ### The steps -/

/-- GPIO_EDGE (R544). -/
def execGpioEdge (q : Fin 128) (s : State) : Host.Outcome State Fault Refusal := s.next (gpioEdge q)
/-- GPIO_OUT_WRITE (R541). -/
def execGpioOutWrite (b : Fin 4) (v : Word) (s : State) : Host.Outcome State Fault Refusal :=
  s.next (fun d => (d.wr (Reg.GPIO_OUT b) v).okay)
/-- GPIO_OUT_MW_LO (R541). -/
def execGpioOutMwLo (b : Fin 4) (v : Word) (s : State) : Host.Outcome State Fault Refusal := s.next (fun d => (latchMasked b false v d).okay)
/-- GPIO_OUT_MW_HI (R541). -/
def execGpioOutMwHi (b : Fin 4) (v : Word) (s : State) : Host.Outcome State Fault Refusal := s.next (fun d => (latchMasked b true v d).okay)
/-- GPIO_SET (R541). -/
def execGpioSet (q : Fin 128) (s : State) : Host.Outcome State Fault Refusal := s.next (latchTask q 0)
/-- GPIO_CLEAR (R541). -/
def execGpioClear (q : Fin 128) (s : State) : Host.Outcome State Fault Refusal := s.next (latchTask q 1)
/-- GPIO_TOGGLE (R541). -/
def execGpioToggle (q : Fin 128) (s : State) : Host.Outcome State Fault Refusal := s.next (latchTask q 2)
/-- PIN_CFG_WRITE (R545, R548). -/
def execPinCfgWrite (r : Req) (q : Fin 128) (v : Word) (s : State) : Host.Outcome State Fault Refusal := s.next (pinCfgWrite r q v)
/-- FUNC_GAP_END (R545). -/
def execFuncGapEnd (q : Fin 128) (s : State) : Host.Outcome State Fault Refusal := s.next (gapEnd q)
/-- GPIO_LOCK_KEY (R547). -/
def execGpioLockKey (r : Req) (b : Fin 4) (v : Word) (s : State) : Host.Outcome State Fault Refusal := s.next (lockKey r b v)
/-- GPIO_LOCK_MASK (R547). -/
def execGpioLockMask (r : Req) (b : Fin 4) (v : Word) (s : State) : Host.Outcome State Fault Refusal := s.next (lockMask r b v)
/-- BANK_RAIL_CHANGE (R536). -/
def execBankRailChange (b : Fin 4) (present v33 : Bool) (s : State) : Host.Outcome State Fault Refusal := s.next (railChange b present v33)

end Sys2Proof.Machine
end

