-- ==== Sys2Proof/Machine/Bcd.lean ====
section
/-! DEFINITION. Packed decimal arithmetic (R309 to R311, R483). -/
namespace Sys2Proof.Machine

/-- Digit i of a packed BCD number. -/
def bcdDigit (v i : Nat) : Nat := v / 16 ^ i % 16

/-- Whether each of the n low digits is 0 to 9. -/
def bcdValid (n v : Nat) : Bool := (List.range n).all (fun i => bcdDigit v i < 10)

/-- Add n packed digits with a carry in, as decimal adders do for valid digits; the carry out is the second part. -/
def bcdAdd : Nat → Nat → Nat → Nat → Nat × Nat
  | 0, _, _, c => (0, c)
  | n + 1, a, b, c =>
    let s := a % 16 + b % 16 + c
    let (r, k) := bcdAdd n (a / 16) (b / 16) (if 10 ≤ s then 1 else 0)
    ((if 10 ≤ s then (s - 10) % 16 else s) + 16 * r, k)

/-- Subtract n packed digits with a borrow in, in ten's complement; the borrow out is the second part. -/
def bcdSub : Nat → Nat → Nat → Nat → Nat × Nat
  | 0, _, _, c => (0, c)
  | n + 1, a, b, c =>
    let x := a % 16
    let y := b % 16 + c
    let (r, k) := bcdSub n (a / 16) (b / 16) (if x < y then 1 else 0)
    ((if x < y then (x + 26 - y) % 16 else x - y) + 16 * r, k)

/-- The value of n packed digits. -/
def bcdToNat : Nat → Nat → Nat
  | 0, _ => 0
  | n + 1, v => v % 16 + 10 * bcdToNat n (v / 16)

/-- n packed digits of a number, modulo 10^n. -/
def natToBcd : Nat → Nat → Nat
  | 0, _ => 0
  | n + 1, v => v % 10 + 16 * natToBcd n (v / 10)

end Sys2Proof.Machine
end

