-- ==== Sys2Proof/Machine/Keep.lean ====
section
/-! DEFINITION. The keep store (R471 to R486) and the fault log that lies in it (R286, R287): window words in two copies,
keep-backed register fields, wear and rate counters, record commits, meters. -/
namespace Sys2Proof.Machine

/-- Change the keep store. -/
def Dev.kp (d : Dev) (f : Keep → Keep) : Dev := { d with keep := f d.keep }

/-- A word of the keep window, keyed by offset / 4; a word that nothing has written reads 0 (log entry 3). -/
def keepWord (d : Dev) (k : Nat) : Word := Store.get (fun _ => 0) d.keep.win k

/-- The key of the wear and rate counters of a keep-backed register. DESIGN CHOICE, log entry 53. -/
def keyOfReg (o : Nat) : Nat := 0x10000 + o
/-- The key of the rate counter of meter m. -/
def keyOfMeter (m : Nat) : Nat := 0x20000000 + m
/-- The key of the wear counter of the slot of meter m that the next add writes: the two slots take turns (R484). -/
def meterSlotKey (d : Dev) (m : Nat) : Nat :=
  let a := 0x20000000 + 2 * m
  if Store.get (fun _ => 0) d.keep.wear a ≤ Store.get (fun _ => 0) d.keep.wear (a + 1) then a else a + 1
/-- The address that WEAR_ADDR and RATE_ADDR record: OFFSET of a window word, SYS for the system region (R486). -/
def keepAddrWord (key : Nat) : Word := if key < 0x4000 then w32 (key * 4) else 0x10000

/-- One performed write of a word: its wear counter steps, and at 90 000 000 KEEP_WEAR sets (R478). -/
def wearStep (key : Nat) (d : Dev) : Dev :=
  let n := min (Store.get (fun _ => 0) d.keep.wear key + 1) 0x7FFFFFF
  let d := d.kp (fun k => { k with wear := Store.set (fun _ => 0) k.wear key n })
  if n = 90000000 then (d.setBit Reg.KEEP_FLAGS 0).wr Reg.WEAR_ADDR (keepAddrWord key) else d

/-- Writes of this second to a word or meter (R479). -/
def rateOf (d : Dev) (key : Nat) : Nat := if d.keep.rateSec = d.second then Store.get (fun _ => 0) d.keep.rate key else 0
/-- Commits of this second (R481). -/
def commitsOf (d : Dev) : Nat := if d.keep.rateSec = d.second then d.keep.commits else 0
/-- The counts of the present second: those of another second count no more (R479, R481, R600). DEDUCED, log entry 54. -/
def rateFix (d : Dev) : Dev :=
  if d.keep.rateSec = d.second then d else d.kp (fun k => { k with rate := [], commits := 0, rateSec := d.second })
/-- Count one performed write for the rate guard. -/
def rateStep (key : Nat) (d : Dev) : Dev :=
  (rateFix d).kp (fun k => { k with rate := Store.set (fun _ => 0) k.rate key (Store.get (fun _ => 0) k.rate key + 1) })
/-- The rate guard stops a write: KEEP_RATE sets and RATE_ADDR records the word (R479). -/
def rateStop (key : Nat) (d : Dev) : Dev := (d.setBit Reg.KEEP_FLAGS 1).wr Reg.RATE_ADDR (keepAddrWord key)

/-- Store a window word in both copies, which clears its poison (R473, R474). -/
def keepStoreWord (k : Nat) (v : Word) (d : Dev) : Dev :=
  wearStep k (d.kp (fun p => { p with win := Store.set (fun _ => 0) p.win k v, poison := p.poison.erase k }))

/-- The device's own write of a window word: no rate guard (R479), equal values skipped (R477). -/
def keepDevWord (k : Nat) (v : Word) (d : Dev) : Dev :=
  if keepWord d k = v && !d.keep.poison.contains k then d else keepStoreWord k v d

/-- A guarded write of a window word, without privilege checks (R477, R479). -/
def keepGuarded (k : Nat) (v : Word) (d : Dev) : Dev :=
  if keepWord d k = v && !d.keep.poison.contains k then d
  else if rateOf d k ≥ 16 then rateStop k d
  else rateStep k (keepStoreWord k v d)

/-- A write of keep-backed field i of a register (RWK, R12, R479): `v` is the register's whole new word and `m` the field's bits. -/
def keepPart (o i : Nat) (m v : Word) (d : Dev) : Dev :=
  let w := (d.rd o &&& ~~~ m) ||| (v &&& m)
  if d.rd o = w then d
  else if rateOf d (keyOfReg o + i) ≥ 16 then rateStop (keyOfReg o + i) d
  else rateStep (keyOfReg o + i) (wearStep (keyOfReg o + i) (d.wr o w))
/-- A write of a register that is one keep-backed field. -/
def keepField (o : Nat) (v : Word) (d : Dev) : Dev := keepPart o 0 0xFFFFFFFF v d

/-- The device's own write of a keep-backed register: no rate guard. -/
def keepDevField (o : Nat) (v : Word) (d : Dev) : Dev :=
  if d.rd o = v then d else wearStep (keyOfReg o) (d.wr o v)

/-! ### Copies and blocks (R473 to R476) -/

/-- The keep block of a window word (R473). DESIGN CHOICE, log entry 53. -/
def blockOf (k : Nat) : Nat := k / 64
/-- The key of one copy of a block: copy A is 0, copy B is 1. -/
def copyKey (b c : Nat) : Nat := b * 2 + c

/-- Mark a copy of a block failing (R476). -/
def markFailing (b c : Nat) (d : Dev) : Dev :=
  if d.keep.oneCopy.contains (copyKey b c) then d
  else d.kp (fun k => { k with failing := insNat (copyKey b c) k.failing })

/-- A copy was found uncorrectable; twice within 24 h of herd time marks its block failing (R476). -/
def noteUncorr (b c : Nat) (d : Dev) : Dev :=
  let key := copyKey b c
  let last := Store.get (fun _ => 0) d.keep.uncorr key
  let d := d.kp (fun k => { k with uncorr := Store.set (fun _ => 0) k.uncorr key (d.clk + 1) })
  if last ≠ 0 && d.clk + 1 - last ≤ 86400000000000 then markFailing b c d else d

/-- ONE_COPY (R476): some block runs on one copy. -/
def oneCopyAny (d : Dev) : Bool := !d.keep.failing.isEmpty || !d.keep.oneCopy.isEmpty

/-- KEEP_STATUS as a read returns it (R486). -/
def keepStatus (d : Dev) : Word :=
  let w := putFld (d.rd Reg.KEEP_STATUS) 3 3 (if oneCopyAny d then 1 else 0)
  putFld w 15 8 (d.keep.spareA + d.keep.spareB)

/-- Whether a copy of a block is out of use: failing and not yet remapped, or without a spare (R476). -/
def copyOut (d : Dev) (b c : Nat) : Bool := d.keep.failing.contains (copyKey b c) || d.keep.oneCopy.contains (copyKey b c)

/-- One copy is read for word k (R475, R476): whether it gives the value. A copy out of use does not. -/
def copyRead (k c : Nat) (x : CopyCond) (d : Dev) : Bool × Dev :=
  if copyOut d (blockOf k) c then (false, d)
  else match x with
    | .good => (true, d)
    | .oneSymbol => (true, d.bump Reg.KEEP_CORR)
    | .bad => (false, noteUncorr (blockOf k) c d)

/-- A word read of the window given what each copy's code finds (R474): the value, or poison. -/
def keepReadWord (k : Nat) (ca cb : CopyCond) (d : Dev) : Resp × Dev :=
  if d.keep.poison.contains k then (.poison, d)
  else
    let (a, d) := copyRead k 0 ca d
    if a then (.ok (keepWord d k), d)
    else
      let (b, d) := copyRead k 1 cb d
      if b then (.ok (keepWord d k), d) else (.poison, d.kp (fun p => { p with poison := insNat k p.poison }))

/-- The word a firmware commit in progress holds for window word k (R480). -/
def recHeld (d : Dev) (k : Nat) : Option Word :=
  match d.keep.recOp with
  | some r => if r.word ≤ k && k < r.word + r.data.length then r.data[k - r.word]? else none
  | none => none

/-- A window read by any requester (R471, R472). A read of a word of a record that is being committed is held until step 5
and then returns the record's word (R480). -/
def keepRead (off width : Nat) (ca cb : CopyCond) (d : Dev) : Dev :=
  if width ≠ 4 || off % 4 ≠ 0 || off ≥ 0x10000 then (d.setBit Reg.KEEP_FLAGS 6).deny
  else match recHeld d (off / 4) with
    | some v => d.answer (.ok v)
    | none => let (r, d) := keepReadWord (off / 4) ca cb d; d.answer r

/-- Whether R471 allows a window write. -/
def keepMayWrite (q : Req) (off : Nat) (d : Dev) : Bool :=
  off < 0xE000 && (d.keeper q || off ≥ d.fld Reg.OPEN_FROM 7 0 * 256)

/-- A window write (R471 to R473, R476, R477, R479): `fa` and `fb` say that the read-back of a copy fails. A write to a word
of a record that is being committed is held and applied after step 5 (R480). -/
def keepWrite (q : Req) (off width : Nat) (v : Word) (fa fb : Bool) (d : Dev) : Dev :=
  if width ≠ 4 || off % 4 ≠ 0 || !keepMayWrite q off d then (d.setBit Reg.KEEP_FLAGS 6).deny
  else
    let k := off / 4
    match recHeld d k with
    | some _ => (d.kp (fun p => { p with held := p.held ++ [(k, v)] })).okay
    | none =>
      if keepWord d k = v && !d.keep.poison.contains k then d.okay
      else if rateOf d k ≥ 16 then (rateStop k d).okay
      else
        let d := rateStep k (keepStoreWord k v d)
        let d := if fa then markFailing (blockOf k) 0 d else d
        (if fb then markFailing (blockOf k) 1 d else d).okay

/-! ### The fault log (R286, R287) -/

/-- One entry of the fault log as four words (R287). -/
def logEntry (n : Nat) (ht : Nat) (cls det idx act res aux : Nat) : List Word :=
  [w32 ht, w32 (ht / 2 ^ 32 % 2 ^ 16 + cls * 2 ^ 16 + det * 2 ^ 24), w32 idx,
   w32 (act + res * 2 ^ 8 + aux * 2 ^ 16 + ((1 + n / 512) % 2) * 2 ^ 24)]

/-- Start the log's second anew when herd time is in another one. DEDUCED, log entry 54; DESIGN CHOICE, log entry 114. -/
def logSecondFix (d : Dev) : Dev :=
  if d.logSecond = d.second then d else { d with logSecond := d.second, logKeys := [] }

/-- Commit a fault log entry with the herd time of its detection (R286, R287): at most 64 in a second, and within a second none with the CLASS and INDEX of an entry
already written; an entry not written sets LOG_DROPPED and steps LOG_DROPS. DEDUCED, log entry 54. -/
def faultLogAt (ht cls det idx act res aux : Nat) (d : Dev) : Dev :=
  let d := logSecondFix d
  if d.logKeys.contains (cls, idx) || d.logKeys.length ≥ 64 then (d.setBit Reg.ST_FLAGS 9).bump Reg.LOG_DROPS
  else
    let n := (d.rd Reg.FAULT_COUNT).toNat
    let ws := logEntry n ht cls det idx act res aux
    let k := 0x3800 + 4 * (n % 512)
    let d := forN 4 d (fun i d => keepDevWord (k + i) (ws.getD i 0) d)
    let d := keepDevField Reg.FAULT_COUNT (w32 (n + 1)) d
    ({ d with logKeys := d.logKeys ++ [(cls, idx)] }).setBit Reg.ST_FLAGS 0

/-- A fault log entry with the present herd time. -/
def faultLog (cls det idx act res aux : Nat) (d : Dev) : Dev := faultLogAt d.now cls det idx act res aux d

/-- A failing copy of a block is copied into a spare block of its array, or stays on one copy (R476). Where words lie in the system region
is not told, so a block of it is failing when the command names it. DESIGN CHOICE, log entry 53. -/
def keepBlockSpare (b c : Nat) (d : Dev) : Dev :=
  if d.keep.failing.contains (copyKey b c) || (256 ≤ b && !d.keep.oneCopy.contains (copyKey b c)) then
    let free := if c = 0 then d.keep.spareA else d.keep.spareB
    let d := d.kp (fun k => { k with failing := k.failing.erase (copyKey b c), uncorr := Store.set (fun _ => 0) k.uncorr (copyKey b c) 0 })
    if free = 0 then
      let d := d.kp (fun k => { k with oneCopy := insNat (copyKey b c) k.oneCopy })
      faultLog 11 4 b 11 1 0 ((d.setBit Reg.KEEP_FLAGS 8).setBit Reg.ST_FLAGS 1)
    else
      let d := d.kp (fun k => if c = 0
        then { k with spareA := k.spareA - 1, wear := Store.keep (fun w => 256 ≤ b || blockOf w != b) k.wear }
        else { k with spareB := k.spareB - 1 })
      faultLog 11 4 b 11 0 0 (d.setBit Reg.KEEP_FLAGS 7)
  else d

/-! ### Records (R480 to R482) -/

/-- The cause for which a commit is refused (R481), 0 when it is accepted. -/
def recReason (q : Req) (d : Dev) : Nat :=
  let off := d.fld Reg.REC_CTRL 15 2
  let n := d.fld Reg.REC_CTRL 22 16
  if d.keep.recOp.isSome then 1
  else if n = 0 || n > 64 || off + n > 0x3800 then 2
  else if (List.range n).any (fun i => (keepWord d (off + i) ≠ d.rd (Reg.REC_DATA i) || d.keep.poison.contains (off + i)) && rateOf d (off + i) ≥ 16) then 3
  else if commitsOf d ≥ 64 then 4
  else if !d.keeper q && off * 4 < d.fld Reg.OPEN_FROM 7 0 * 256 then 5
  else 0

/-- A REC_CMD write with GO (R480 step 1, R481). -/
def recCommit (q : Req) (v : Word) (d : Dev) : Dev :=
  if !bitOf v 31 then d.okay
  else
    let r := recReason q d
    let d := d.setFld Reg.REC_STATUS 3 1 r
    if r ≠ 0 then (d.setBit Reg.KEEP_FLAGS 3).okay
    else
      let data := (List.range (d.fld Reg.REC_CTRL 22 16)).map (fun i => d.rd (Reg.REC_DATA i))
      let op : RecCommit := { word := d.fld Reg.REC_CTRL 15 2, data := data, at' := d.clk, committed := false }
      let d := (rateFix d).kp (fun k => { k with recOp := some op, commits := k.commits + 1 })
      ((d.setBit Reg.REC_STATUS 0).setBit Reg.KEEP_STATUS 1).okay

/-- Steps 4 and 5 of R480: the words go home under R477, BUSY clears; then the held writes are applied. -/
def recHome (r : RecCommit) (d : Dev) : Dev :=
  let d := forN r.data.length d (fun i d =>
    let k := r.word + i
    let v := r.data.getD i 0
    if keepWord d k = v && !d.keep.poison.contains k then d else rateStep k (keepStoreWord k v d))
  let held := d.keep.held
  let d := d.kp (fun k => { k with recOp := none, held := [] })
  let d := held.foldl (fun d e => keepGuarded e.1 e.2 d) d
  (d.clrBit Reg.REC_STATUS 0).clrBit Reg.KEEP_STATUS 1

/-- The record words are home, and REC_DONE sets (R480 step 5). -/
def recCommitDone (d : Dev) : Dev :=
  match d.keep.recOp with
  | some r => (recHome r d).setBit Reg.KEEP_FLAGS 2
  | none => d

/-- Meter m: 16 packed digits. -/
def meterOf (d : Dev) (m : Nat) : DWord := Store.get (fun _ => 0) d.keep.meters m

/-- METER_HI takes the high digits of meter m. -/
def latchMeterHi (m : Nat) (d : Dev) : Dev :=
  let v := w32 ((meterOf d m).toNat / 2 ^ 32)
  d.kp (fun k => { k with meterHi := Store.set (fun _ => 0) k.meterHi m v })

/-- After a reset the store finishes its journal and sets READY (R482): a record past its commit point is written home again
and RESTORED sets; one before it is discarded. METER_HI then returns the high digits as they stand (R486).
DESIGN CHOICE, log entry 45; DESIGN CHOICE, log entry 53. -/
def keepReady (d : Dev) : Dev :=
  if d.bit Reg.KEEP_STATUS 0 then d
  else
    let d := match d.keep.recOp with
      | some r => if r.committed then (recHome r d).setBit Reg.KEEP_STATUS 2 else d.kp (fun k => { k with recOp := none, held := [] })
      | none => d
    let d := d.kp (fun k => { k with meterHi := [] })
    let d := forN 32 d (fun m d => latchMeterHi m d)
    d.setBit Reg.KEEP_STATUS 0

/-! ### Meters (R483, R484) -/

/-- A METER_ADD write (R483). ADD_HI returns to 0 whether the add is performed or not. -/
def meterAdd (q : Req) (m : Nat) (v : Word) (d : Dev) : Dev :=
  let add := v.toNat + (d.rd (Reg.ADD_HI m)).toNat * 2 ^ 32
  let d := d.wr (Reg.ADD_HI m) 0
  if !d.keeper q && !d.bit Reg.METER_OPEN m then (d.setBit Reg.KEEP_FLAGS 6).deny
  else if !bcdValid 16 add then (d.setBit Reg.KEEP_FLAGS 4).okay
  else if add = 0 then d.okay
  else
    let (sum, carry) := bcdAdd 16 (meterOf d m).toNat add 0
    if carry = 1 then (d.setBit Reg.KEEP_FLAGS 5).okay
    else if rateOf d (keyOfMeter m) ≥ 16 then (rateStop (keyOfMeter m) d).okay
    else
      let d := d.kp (fun k => { k with meters := Store.set (fun _ => 0) k.meters m (BitVec.ofNat 64 sum) })
      (rateStep (keyOfMeter m) (wearStep (meterSlotKey d m) d)).okay

/-- A METER_LO read latches the high digits into METER_HI (R486). DESIGN CHOICE, log entry 53. -/
def meterLoRead (m : Nat) (d : Dev) : Dev :=
  (latchMeterHi m d).answer (.ok (w32 (meterOf d m).toNat))

/-! ### The steps -/

/-- KEEP_WRITE: a window word write. -/
def execKeepWrite (q : Req) (off width : Nat) (v : Word) (fa fb : Bool) (s : State) : Host.Outcome State Fault Refusal :=
  s.next (keepWrite q off width v fa fb)
/-- KEEP_READ (R474). -/
def execKeepRead (off width : Nat) (ca cb : CopyCond) (s : State) : Host.Outcome State Fault Refusal :=
  s.next (keepRead off width ca cb)

/-- KEEP_SCRUB reads copy B of a word in the background and corrects it (R475). -/
def keepScrub (k : Nat) (cb : CopyCond) (d : Dev) : Dev :=
  (copyRead k 1 cb d).2
/-- KEEP_SCRUB. -/
def execKeepScrub (k : Fin 16384) (cb : CopyCond) (s : State) : Host.Outcome State Fault Refusal := s.next (keepScrub k cb)
/-- KEEP_BLOCK_SPARE: block b, copy A or B (R476). -/
def execKeepBlockSpare (b : Nat) (copyB : Bool) (s : State) : Host.Outcome State Fault Refusal :=
  s.next (keepBlockSpare b (if copyB then 1 else 0))

/-- The wear counters are saved into the system region (R478). -/
def wearSave (d : Dev) : Dev := d.kp (fun k => { k with wearSaved := k.wear, wearAt := d.clk })
/-- WEAR_SAVE: 60 s after the last save. -/
def execWearSave (s : State) : Host.Outcome State Fault Refusal := s.next (fun d => wearSave (d.passClk (d.keep.wearAt + 60000000000)))

/-- The next second of herd time restarts the rate guard and the commit count (R479, R481). -/
def keepRateSecond (d : Dev) : Dev := rateFix (d.passTo ((d.second + 1) * 1000000000))
/-- KEEP_RATE_SECOND. -/
def execKeepRateSecond (s : State) : Host.Outcome State Fault Refusal := s.next keepRateSecond
/-- REC_COMMIT: a REC_CMD write (R480). -/
def execRecCommit (q : Req) (v : Word) (s : State) : Host.Outcome State Fault Refusal := s.next (recCommit q v)
/-- REC_COMMIT_DONE (R480). -/
def execRecCommitDone (s : State) : Host.Outcome State Fault Refusal := s.next recCommitDone
/-- METER_ADD (R483). -/
def execMeterAdd (q : Req) (m : Fin 32) (v : Word) (s : State) : Host.Outcome State Fault Refusal := s.next (meterAdd q m v)
/-- METER_LO_READ (R483). -/
def execMeterLoRead (m : Fin 32) (s : State) : Host.Outcome State Fault Refusal := s.next (meterLoRead m)
end Sys2Proof.Machine
end

