-- ==== Sys2Proof/Machine/Snoop.lean ====
section
/-! DEFINITION. The snoop points of the check units (R411): copies of the bytes that pass them wait at each unit that watches. -/
namespace Sys2Proof.Machine

/-- A check unit beyond its registers. -/
def Dev.ck (d : Dev) (m : Nat) : CkSt := Store.get (fun _ => {}) d.cks m
/-- Change a check unit beyond its registers. -/
def Dev.updCk (d : Dev) (m : Nat) (f : CkSt → CkSt) : Dev := { d with cks := Store.set (fun _ => {}) d.cks m (f (d.ck m)) }

/-- Whether unit m is enabled on a snoop point. -/
def ckWatches (d : Dev) (m src : Nat) : Bool := d.bit (Reg.CK_CTRL m) 0 && d.fld (Reg.CK_CTRL m) 3 1 == src
/-- ID of unit m. -/
def ckId (d : Dev) (m : Nat) : Nat := d.fld (Reg.CK_CTRL m) 15 8

/-- Bytes arrive at unit m; `nat` says that a natural end follows the last. -/
def ckArrive (m : Nat) (b : List Byte) (nat : Bool) (d : Dev) : Dev :=
  let marked := (b.zipIdx).map (fun e => (e.1, nat && e.2 + 1 == b.length))
  d.updCk m (fun c => { c with queue := c.queue ++ marked })

/-- Feed every unit that watches a snoop point, each with what `f` gives for it. -/
def snoop (src : Nat) (f : Nat → Option (List Byte)) (nat : Bool) (d : Dev) : Dev :=
  forN 8 d (fun m d => if ckWatches d m src then (match f m with | some b => ckArrive m b nat d | none => d) else d)

/-- The window of a unit that watches memory writes: base and length. -/
def ckWindow (d : Dev) (m : Nat) : Nat × Nat :=
  ((d.rd (Reg.SNOOP_A m)).toNat + d.fld (Reg.SNOOP_B m) 15 0 * 2 ^ 32, (d.rd (Reg.SNOOP_C m)).toNat)

/-- SRC 3: bytes written to memory at a, those in the window. -/
def snoopMem (a : Nat) (b : List Byte) (d : Dev) : Dev :=
  if (List.range 8).any (fun m => ckWatches d m 3) then
    snoop 3 (fun m =>
      let (base, len) := ckWindow d m
      some ((b.zipIdx).filterMap (fun e => if base ≤ a + e.2 && a + e.2 < base + len then some e.1 else none))) false d
  else d

/-- SRC 1 and 2: the payload of a DATA frame of a Drove stream. -/
def snoopStream (src stream : Nat) (b : List Byte) (d : Dev) : Dev :=
  snoop src (fun m => if fld (w32 (ckId d m)) 5 0 = stream then some b else none) true d

/-- SRC 4: a frame of a TDM port, each enabled slot's word. -/
def snoopTdm (p : Nat) (output : Bool) (slots : List Word) (d : Dev) : Dev :=
  snoop 4 (fun m =>
    if ckId d m % 8 = p && (ckId d m / 8 % 2 == 1) = output then
      some ((slots.zipIdx).flatMap (fun e => if d.bit (Reg.SNOOP_A m) e.2 then wordBytes e.1 else []))
    else none) true d

/-- SRC 5: a sample of internal bus b. -/
def snoopBus (b : Nat) (v : Word) (d : Dev) : Dev := snoop 5 (fun m => if ckId d m % 32 = b then some (wordBytes v) else none) true d

/-- SRC 6: bytes 1 to 123 of a good herd frame. -/
def snoopHerd (ring : Nat) (b : List Byte) (d : Dev) : Dev := snoop 6 (fun m => if ckId d m % 2 = ring then some b else none) true d

/-- A pixel as the check units take it: one byte a component at 8 bits, two at 10. -/
def pixelBytes (deep : Bool) (v : Word) : List Byte :=
  [fld v 29 20, fld v 19 10, fld v 9 0].flatMap (fun c => if deep then natBytes 2 c else natBytes 1 c)

/-- SRC 7: line n of a head as sent, the pixels of the rectangle. DEDUCED, log entry 64. -/
def snoopLine (h n : Nat) (px : List Word) (d : Dev) : Dev :=
  let feed (last : Bool) (d : Dev) : Dev :=
    snoop 7 (fun m =>
      let a := d.rd (Reg.SNOOP_A m)
      let b := d.rd (Reg.SNOOP_B m)
      if ckId d m % 8 = h && fld a 12 0 ≤ n && n ≤ fld a 28 16 && (n == fld a 28 16) = last then
        some (((px.take (fld b 28 16 + 1)).drop (fld b 12 0)).flatMap (pixelBytes (d.bit (Reg.COMP_CTRL h) 0)))
      else none) last d
  if (List.range 8).any (fun m => ckWatches d m 7) then feed true (feed false d) else d

end Sys2Proof.Machine
end

