-- ==== Sys2Proof/Machine/Mem.lean ====
section
/-! DEFINITION. Memory (R32, R33, R48, R453 to R470, R601): the regions of system address space, reads and writes under the
symbol code, poison, page retirement, row sparing, patrol scrub and service order. -/
namespace Sys2Proof.Machine

/-! ### Regions (R32, R48) -/

/-- What lies at a system address. -/
inductive Region where
  | hbm | pool | sram | keep | regs | flash | peer | none
  deriving DecidableEq, Repr

/-- INTERLEAVE (R42). -/
def interleave (d : Dev) : Bool := d.bit Reg.MEM_CFG 0

/-- Whether an HBM3 address lies in the reserve pool (R48). -/
def isPool (il : Bool) (a : Nat) : Bool :=
  if il then 0xBF8000000 ≤ a && a < 0xC00000000
  else (0x5FC000000 ≤ a && a < 0x600000000) || (0xBFC000000 ≤ a && a < 0xC00000000)

/-- The region of a system address (R32). -/
def regionOf (il : Bool) (a : Nat) : Region :=
  if a < 0xC00000000 then (if isPool il a then .pool else .hbm)
  else if 0x1000000000 ≤ a && a < 0x1001000000 then .sram
  else if 0x1800000000 ≤ a && a < 0x1800010000 then .keep
  else if 0x2000000000 ≤ a && a < 0x2010000000 then .regs
  else if 0x2800000000 ≤ a && a < 0x2810000000 then .flash
  else if 0x3000000000 ≤ a && a < 0x3100000000 then .peer
  else .none

/-- HBM3, its pool included, or the shared SRAM. -/
def isMemory (a : Nat) : Bool := a < 0xC00000000 || (0x1000000000 ≤ a && a < 0x1001000000)

/-- Whether every byte of [a, a + n) lies in HBM3 outside the pool, or in the shared SRAM. -/
def memOk (d : Dev) (a n : Nat) : Bool :=
  if n = 0 then true
  else if a + n ≤ 0xC00000000 then
    if interleave d then a + n ≤ 0xBF8000000
    else a + n ≤ 0x5FC000000 || (0x600000000 ≤ a && a + n ≤ 0xBFC000000)
  else 0x1000000000 ≤ a && a + n ≤ 0x1001000000

/-- Whether some byte of [a, a + n) lies in the reserve pool. -/
def poolHit (d : Dev) (a n : Nat) : Bool :=
  let hit (lo hi : Nat) := decide (a < hi) && decide (lo < a + n)
  n != 0 && (if interleave d then hit 0xBF8000000 0xC00000000 else hit 0x5FC000000 0x600000000 || hit 0xBFC000000 0xC00000000)

/-- The stack of an HBM3 address (R453). -/
def stackOf (il : Bool) (a : Nat) : Nat := if il then a / 4096 % 2 else if a < 0x600000000 then 0 else 1

/-- The pseudo-channel of an HBM3 address within its stack (R453): consecutive 256-byte blocks of the stack go to
consecutive pseudo-channels. -/
def pseudoChannel (il : Bool) (a : Nat) : Nat :=
  if il then (a / 8192 * 16 + a % 4096 / 256) % 32 else a % 0x600000000 / 256 % 32

/-! ### The page table and retirement (R466, R467) -/

/-- The pool pages of a stack, in increasing order: the first and the count with its stride (R48). -/
def poolPage (il : Bool) (st i : Nat) : Nat :=
  if il then 0xBF8000 + 2 * i + st else if st = 0 then 0x5FC000 + i else 0xBFC000 + i

/-- The page that serves a system page. -/
def servedBy (d : Dev) (p : Nat) : Nat := Store.get (fun p => p) d.mc.remap p

/-- The system page that a page serves: itself, or the page remapped to it; none for a pool page that holds no page and for
a page out of use. -/
def serves (d : Dev) (p : Nat) : Option Nat :=
  match d.mc.remap.find? (fun e => e.2 == p) with
  | some e => some e.1
  | none => if isPool (interleave d) (p * 4096) || servedBy d p != p then none else some p

/-- Whether a pool page is free: it holds no page, is not marked unusable and is not taken by a retirement. -/
def poolFree (d : Dev) (p : Nat) : Bool :=
  !d.mc.remap.any (fun e => e.2 == p) && !d.mc.bad.contains p && !d.mc.retiring.any (fun r => r.pool == p)

/-- The lowest free pool page of a stack among the first n. At most one more candidate than pages out of use is needed. -/
def findPool (d : Dev) (st : Nat) : Nat → Nat → Option Nat
  | 0, _ => none
  | n + 1, i =>
    if i ≥ 16384 then none
    else if poolFree d (poolPage (interleave d) st i) then some (poolPage (interleave d) st i)
    else findPool d st n (i + 1)

/-- The lowest free pool page of a stack (R466 step 1). -/
def lowestPool (d : Dev) (st : Nat) : Option Nat :=
  findPool d st (d.mc.remap.length + d.mc.bad.length + d.mc.retiring.length + 1) 0

/-- Change the memory controller. -/
def Dev.mcUpd (d : Dev) (f : MemCtl → MemCtl) : Dev := { d with mc := f d.mc }

/-- Free pool pages of a stack: those with no committed use (POOL_FREE). DEDUCED, log entry 50. -/
def poolFreeCount (d : Dev) (st : Nat) : Nat :=
  let mine (p : Nat) := isPool (interleave d) (p * 4096) && stackOf (interleave d) (p * 4096) == st
  16384 - ((d.mc.remap.filter (fun e => mine e.2)).length + (d.mc.bad.filter mine).length)

/-- POOL_FREE as a read returns it. DEDUCED, log entry 50. -/
def poolFreeWord (d : Dev) : Word := w32 (poolFreeCount d 0 + poolFreeCount d 1 * 0x10000)

/-- CLASS and INDEX of a page in the fault log and the repair map: 7 for a system page, 13 for a pool page. -/
def pageClass (d : Dev) (p : Nat) : Nat := if isPool (interleave d) (p * 4096) then 13 else 7

/-- Start the retirement of page p (R466 step 1, R467): the lowest free pool page of its stack is taken. With none free, the
page stays in use; a pool page that holds no page is marked unusable. -/
def retireStart (p : Nat) (d : Dev) : Dev :=
  match serves d p with
  | none =>
    if isPool (interleave d) (p * 4096) && !d.mc.bad.contains p then
      let reps := if d.repairs.contains (13, p) then d.repairs else d.repairs ++ [(13, p)]
      faultLog 13 4 p 2 0 0 { d with repairs := reps, mc := { d.mc with bad := insNat p d.mc.bad } }
    else d
  | some sys =>
    if d.mc.retiring.any (fun r => r.old == p) then d
    else match lowestPool d (stackOf (interleave d) (p * 4096)) with
      | some q => d.mcUpd (fun m => { m with retiring := m.retiring ++ [{ page := sys, old := p, pool := q }] })
      | none => faultLog (pageClass d p) 4 p 6 1 0 ((d.setBit Reg.MEM_FLAGS 3).setBit Reg.ST_FLAGS 1)

/-- The place of the lowest count in the table, the oldest among equals (R466). DEDUCED, log entry 51. -/
def lowestEntry : List (Nat × Nat) → Option (Nat × Nat)
  | [] => none
  | e :: l => match lowestEntry l with
    | some b => if b.2 < e.2 then some b else some e
    | none => some e

/-- Count a correction against page p (R466). DEDUCED, log entry 51. -/
def pageCount (p : Nat) (d : Dev) : Dev :=
  let t := d.mc.table
  match t.find? (fun e => e.1 == p) with
  | some e =>
    let d := d.mcUpd (fun m => { m with table := t.map (fun x => if x.1 == p then (p, e.2 + 1) else x) })
    if e.2 + 1 ≥ d.fld Reg.MEM_CFG 15 8 then retireStart p d else d
  | none =>
    let t := if t.length < 1024 then t else match lowestEntry t with | some e => t.erase e | none => t
    let d := d.mcUpd (fun m => { m with table := t ++ [(p, 1)] })
    if 1 ≥ d.fld Reg.MEM_CFG 15 8 then retireStart p d else d

/-! ### SRAM rows (R469) -/

/-- A row of the shared SRAM is to be spared. -/
def rowFail (r : Nat) (d : Dev) : Dev :=
  d.mcUpd (fun m => { m with rowBad := if m.rowsDone.contains r then m.rowBad else insNat r m.rowBad })

/-- Count a correction of a row: the second within 24 h of herd clock (R600) spares it. DEDUCED, log entry 51. -/
def rowCount (r : Nat) (d : Dev) : Dev :=
  let last := Store.get (fun _ => 0) d.mc.rowSeen r
  let d' := d.mcUpd (fun m => { m with rowSeen := Store.set (fun _ => 0) m.rowSeen r (d.clk + 1) })
  if last ≠ 0 && d.clk + 1 - last ≤ 86400000000000 then rowFail r d' else d'

/-! ### Reads under the code (R457, R458) -/

/-- The page or the row that holds a memory word is counted for a correction. DEDUCED, log entry 51. -/
def countCorrection (w : Nat) (d : Dev) : Dev :=
  if w * 32 < 0xC00000000 then pageCount (servedBy d (w * 32 / 4096)) d
  else rowCount ((w * 32 - 0x1000000000) / 1024) d

/-- A word was corrected (R457). -/
def noteCorrected (w : Nat) (d : Dev) : Dev :=
  countCorrection w ((d.setBit Reg.MEM_FLAGS 0).bump Reg.CORR_COUNT)

/-- A word was found uncorrectable by a requester of class `cls` (R458). -/
def noteUncorrectable (cls w : Nat) (d : Dev) : Dev :=
  let a := w * 32
  let d := (d.setBit Reg.MEM_FLAGS 1).bump Reg.UNCORR_COUNT
  let d := d.wr Reg.LAST_ERR_LO (w32 a)
  let d := d.mcUpd (fun m => { m with lastErrHi := w32 (a / 2 ^ 32 % 2 ^ 16 + cls * 2 ^ 16) })
  if a < 0xC00000000 then retireStart (servedBy d (a / 4096)) d else rowFail ((a - 0x1000000000) / 1024) d

/-- A word of an on-die array that is not the shared SRAM was corrected (R455, R457). -/
def noteArrayCorrected (d : Dev) : Dev := (d.setBit Reg.MEM_FLAGS 0).bump Reg.CORR_COUNT

/-- A word of such an array was found uncorrectable (R458): what LAST_ERR records of it is a free value. DESIGN CHOICE, log entry 136. -/
def noteArrayBad (d : Dev) : Dev :=
  let (a, d) := ((d.setBit Reg.MEM_FLAGS 1).bump Reg.UNCORR_COUNT).fresh
  let (b, d) := d.fresh
  (d.wr Reg.LAST_ERR_LO (a &&& 0xFFFFFFE0)).mcUpd (fun m => { m with lastErrHi := b &&& 0x3FFFF })

/-- Read one word under the code: whether it is poisoned, and the state after. -/
def touchWord (cls w : Nat) (s : State) : Bool × State :=
  if s.mem.poison.contains w then (true, s)
  else match Store.get (fun _ => 0) s.mem.err w with
    | 0 => (false, s)
    | 1 =>
      (false, { s with mem := { s.mem with err := Store.set (fun _ => 0) s.mem.err w 0 }, dev := noteCorrected w s.dev })
    | _ =>
      (true, { s with mem := { s.mem with err := Store.set (fun _ => 0) s.mem.err w 0, poison := insNat w s.mem.poison },
                      dev := noteUncorrectable cls w s.dev })

/-- Read the words from w, `n` of them, under the code. -/
def touchWords (cls : Nat) : Nat → Nat → State → Bool × State
  | 0, _, s => (false, s)
  | n + 1, w, s =>
    let (p, s) := touchWord cls w s
    let (q, s) := touchWords cls n (w + 1) s
    (p || q, s)

/-- How many 32-byte words [a, a + n) touches. -/
def wordSpan (a n : Nat) : Nat := if n = 0 then 0 else (a + n - 1) / 32 - a / 32 + 1

/-- Read n bytes of memory: the bytes, whether any of their words is poisoned, and the state after. DESIGN CHOICE, log entry 3. -/
def memRead (cls a n : Nat) (s : State) : List Byte × Bool × State :=
  let (p, s) := touchWords cls (wordSpan a n) (a / 32) s
  (Store.getList (fun _ => 0) s.mem.bytes a n, p, s)

/-- A fetch of n bytes by a unit: one outside HBM3 and the shared SRAM is not made, nor is one that meets the pool, which
sets POOL_ACCESS (R467). -/
def fetch (cls a n : Nat) (s : State) : Fetched × State :=
  if memOk s.dev a n then
    let (b, p, s) := memRead cls a n s
    (if p then .poison b else .data b, s)
  else (.fail, if poolHit s.dev a n then s.upd (fun d => d.setBit Reg.MEM_FLAGS 9) else s)

/-! ### Writes (R459) -/

/-- A full write of word w clears its poison and its latent error, and stores an armed error (ERR_INJECT, R470). -/
def fullWord (w : Nat) (s : State) : State :=
  let d := s.dev
  let s := { s with mem := { s.mem with poison := s.mem.poison.erase w, err := Store.set (fun _ => 0) s.mem.err w 0 } }
  if d.bit Reg.ERR_INJECT_HI 31 && d.fld Reg.ERR_INJECT_HI 17 16 ≠ 0 &&
      d.fld Reg.ERR_INJECT_LO 31 5 * 32 + d.fld Reg.ERR_INJECT_HI 15 0 * 2 ^ 32 = w * 32 then
    { s with mem := { s.mem with err := Store.set (fun _ => 0) s.mem.err w (d.fld Reg.ERR_INJECT_HI 17 16) },
             dev := d.clrBit Reg.ERR_INJECT_HI 31 }
  else s

/-- Each word that [a, a + n) covers whole is written in full. -/
def fullWords (a n : Nat) (s : State) : State :=
  let lo := (a + 31) / 32
  let hi := (a + n) / 32
  forN (hi - lo) s (fun i s => fullWord (lo + i) s)

/-- Write bytes to memory at a; `poisoned` marks each word written as poisoned (R382, R405). -/
def memWrite (a : Nat) (b : List Byte) (s : State) : State :=
  fullWords a b.length { s with mem := { s.mem with bytes := Store.setList (fun _ => 0) s.mem.bytes a b }, dev := snoopMem a b s.dev }

/-- Mark every word that [a, a + n) touches as poisoned (R459, last sentence). -/
def markPoison (a n : Nat) (s : State) : State :=
  { s with mem := { s.mem with poison := forN (wordSpan a n) s.mem.poison (fun i l => insNat (a / 32 + i) l) } }

/-- Write bytes that carry poison. -/
def memWritePoison (a : Nat) (b : List Byte) (s : State) : State := markPoison a b.length (memWrite a b s)

/-- Write to memory, with poison when `p`. -/
def memWriteP (p : Bool) (a : Nat) (b : List Byte) (s : State) : State :=
  if p then memWritePoison a b s else memWrite a b s

/-! ### The controller's own steps -/

/-- The words of the page of a retirement are read as CORE traffic while they are copied (R466 step 2). -/
def copyPage (p : Nat) (s : State) : State :=
  (s.mem.err.filter (fun e => e.1 / 128 == p)).foldl (fun s e => (touchWord 1 e.1 s).2) s

/-- Step 3 and 4 of R466 for one retirement. -/
def remapNow (r : Retire) (d : Dev) : Dev :=
  let d := d.mcUpd (fun m => { m with
    retiring := m.retiring.erase r
    remap := Store.set (fun p => p) m.remap r.page r.pool
    table := m.table.filter (fun e => e.1 != r.old)
    bad := if isPool (interleave d) (r.old * 4096) then insNat r.old m.bad else m.bad
    ppr := if d.bit Reg.MEM_CFG 16 then insNat r.page m.ppr else m.ppr })
  let cls := pageClass d r.old
  let d := { d with repairs := if d.repairs.contains (cls, r.old) then d.repairs else d.repairs ++ [(cls, r.old)] }
  let d := if d.fld Reg.REPAIR_MEM 15 0 = 0xFFFF then d else keepDevField Reg.REPAIR_MEM (d.rd Reg.REPAIR_MEM + 1) d
  (faultLog cls 4 r.old 6 0 0 d).setBit Reg.MEM_FLAGS 2

/-- The copy of the oldest retirement of page `p` is done (R466 steps 3 and 4). DEDUCED, log entry 50. -/
def pageRemap (p : Nat) (s : State) : State :=
  match s.dev.mc.retiring.find? (fun r => r.page == p) with
  | some r => (copyPage p s).upd (remapNow r)
  | none => s

/-- Words of a patrol pass: HBM3 and the shared SRAM. -/
def patrolWords : Nat := 0x60000000 + 0x80000
/-- The address of the i-th word of a pass. -/
def patrolAddr (i : Nat) : Nat := if i < 0x60000000 then i * 32 else 0x1000000000 + (i - 0x60000000) * 32

/-- The scrub period of the next pass: what MODE.SCRUB selects, or 6 h in a move to Draught past its rail steps (R26, R30). -/
def scrubNext (d : Dev) : Nat :=
  if d.bit Reg.REGIME_STATUS 1 && d.rail.frozen && d.fld Reg.RAIL_STATUS 4 0 ≤ 5 then 2 else d.fld Reg.MODE 17 16

/-- A SCRUB period in ns (R30). -/
def scrubPeriod (code : Nat) : Nat := (match code with | 0 => 24 | 1 => 12 | 2 => 6 | _ => 48) * 3600000000000

/-- The clock instant by which the pass reaches its next word: its words lie evenly in the period (R465). DEDUCED, log entry 51. -/
def patrolDue (d : Dev) : Nat := d.mc.patrolAt + (d.mc.patrol + 1) * scrubPeriod d.mc.scrub / patrolWords

/-- A pass starts (R465), with the period in force then. DESIGN CHOICE, log entry 135. -/
def patrolStart (d : Dev) : Dev := d.mcUpd (fun m => { m with patrol := 0, patrolAt := d.clk, scrub := scrubNext d })

/-- Patrol scrub goes on to its next word; at the end of a pass the counts halve and the next pass starts (R465, R466). -/
def patrolAdvance (d : Dev) : Dev :=
  let i := d.mc.patrol + 1
  if i ≥ patrolWords then
    let passes := d.fld Reg.SCRUB_STATUS 31 8
    let d := d.wr Reg.SCRUB_STATUS (w32 ((passes + 1) % 2 ^ 24 * 256))
    patrolStart (d.mcUpd (fun m => { m with table := m.table.map (fun e => (e.1, e.2 / 2)) }))
  else
    (d.mcUpd (fun m => { m with patrol := i })).setFld Reg.SCRUB_STATUS 7 0 (i * 100 / patrolWords)

/-- Place an error that the surroundings give word w: the code finds it at the next read. -/
def placeError (w : Nat) (c : CopyCond) (s : State) : State :=
  match c with
  | .good => s
  | .oneSymbol =>
    if s.mem.poison.contains w then s
    else { s with mem := { s.mem with err := Store.set (fun _ => 0) s.mem.err w (max 1 (Store.get (fun _ => 0) s.mem.err w)) } }
  | .bad => { s with mem := { s.mem with err := Store.set (fun _ => 0) s.mem.err w 2 } }

/-- Patrol scrub reads its next word (R465): `c` is a symbol error that the surroundings have put there. A word of a pool
page that holds a page is that page's word; one of a pool page that holds none is counted against the page (R467). -/
def patrolScrub (c : CopyCond) (s : State) : State :=
  let s := s.upd (fun d => d.passClk (patrolDue d))
  let a := patrolAddr s.dev.mc.patrol
  let s' :=
    if a ≥ 0xC00000000 then (touchWord 3 (a / 32) (placeError (a / 32) c s)).2
    else match serves s.dev (a / 4096) with
      | some p =>
        let w := p * 128 + a % 4096 / 32
        (touchWord 3 w (placeError w c s)).2
      | none => s.upd (fun d =>
        if isPool (interleave d) a then
          match c with
          | .good => d
          | .oneSymbol => pageCount (a / 4096) ((d.setBit Reg.MEM_FLAGS 0).bump Reg.CORR_COUNT)
          | .bad => noteUncorrectable 3 (a / 32) d
        else d)
  s'.upd patrolAdvance

/-- A failing row has been copied and remapped, or no spare row is left (R469). `r` below 16 384 is a row of the shared SRAM,
which must be failing; with bit 31 set it is the opaque INDEX of a row of another array. -/
def sramRowSpare (r : Nat) (left : Bool) (d : Dev) : Dev :=
  if d.mc.rowBad.contains r || (0x80000000 ≤ r && r < 0x100000000) then
    let d := d.mcUpd (fun m => { m with rowBad := m.rowBad.erase r })
    if left then
      let d := { d with repairs := if d.repairs.contains (8, r) then d.repairs else d.repairs ++ [(8, r)] }
      let d := d.mcUpd (fun m => { m with rowSeen := Store.set (fun _ => 0) m.rowSeen r 0 })
      let d := if d.fld Reg.REPAIR_MEM 31 16 = 0xFFFF then d
        else keepDevField Reg.REPAIR_MEM (d.rd Reg.REPAIR_MEM + 0x10000) d
      (faultLog 8 4 r 8 0 0 d).setBit Reg.MEM_FLAGS 4
    else
      let d := d.mcUpd (fun m => { m with rowsDone := insNat r m.rowsDone })
      ((faultLog 8 4 r 8 1 0 d).setBit Reg.MEM_FLAGS 5).setBit Reg.ST_FLAGS 1
  else d

/-- A pseudo-channel is held out of service for calibration (R464): at most once every 100 ms, and only when no BEAM request
to it has a deadline within 4 µs (`beamSoon`). DESIGN CHOICE, log entry 16. -/
def hbmCalibrate (pc : Nat) (beamSoon : Bool) (d : Dev) : Dev :=
  let last := Store.get (fun _ => 0) d.mc.calAt pc
  if beamSoon || !d.hbmUp || (last ≠ 0 && d.clk + 1 - last < 100000000) then d
  else d.mcUpd (fun m => { m with calAt := Store.set (fun _ => 0) m.calAt pc (d.clk + 1) })

/-- BEAM requests served after their deadline (R462). DESIGN CHOICE, log entry 16. -/
def lateFetches (n : Nat) (d : Dev) : Dev :=
  if n = 0 then d else (d.setBit Reg.MEM_FLAGS 8).bumpBy Reg.LATE_FETCHES n

/-- A CORE or BULK request of a pseudo-channel or bank has waited 2 µs (R462): it is served next when 16 services have passed
since the last one served so; `late` BEAM requests are then served after their deadline. DESIGN CHOICE, log entry 16. -/
def bulkWaitExpire (bank services late : Nat) (d : Dev) : Dev :=
  let seen := min 16 (Store.get (fun _ => 16) d.mc.promoted bank + services)
  if seen ≥ 16 then
    lateFetches late (d.mcUpd (fun m => { m with promoted := Store.set (fun _ => 16) m.promoted bank 0 }))
  else d.mcUpd (fun m => { m with promoted := Store.set (fun _ => 16) m.promoted bank seen })

/-! ### Writes of the MEMCTL page (R470) -/

/-- A MEM_CFG write: RETIRE_THRESH 0 is not performed. -/
def memCfgWrite (v : Word) (d : Dev) : Dev :=
  if fld v 15 8 = 0 then d.okay else (d.wr Reg.MEM_CFG ((v &&& 0x1FF00) ||| (d.rd Reg.MEM_CFG &&& 1))).okay

/-- An ERR_INJECT_HI write: MODE 3 is not performed; ARM for an address outside HBM3 and the shared SRAM, or in the pool, is
not performed. -/
def errInjectWrite (v : Word) (d : Dev) : Dev :=
  let a := d.fld Reg.ERR_INJECT_LO 31 5 * 32 + fld v 15 0 * 2 ^ 32
  if fld v 17 16 = 3 || (bitOf v 31 && !memOk d a 32) then d.okay
  else (d.wr Reg.ERR_INJECT_HI (v &&& 0x8003FFFF)).okay

/-- A LAST_ERR_LO read latches LAST_ERR_HI. -/
def lastErrLoRead (d : Dev) : Dev := d.wr Reg.LAST_ERR_HI d.mc.lastErrHi

/-! ### The steps -/

/-- PAGE_REMAP of system page p (R466). -/
def execPageRemap (p : Nat) (s : State) : Host.Outcome State Fault Refusal := .next (pageRemap p s)
/-- SRAM_ROW_SPARE (R469). -/
def execSramRowSpare (r : Nat) (left : Bool) (s : State) : Host.Outcome State Fault Refusal := s.next (sramRowSpare r left)
/-- HBM_CALIBRATE (R464). -/
def execHbmCalibrate (pc : Fin 64) (beamSoon : Bool) (s : State) : Host.Outcome State Fault Refusal :=
  s.next (hbmCalibrate pc beamSoon)
/-- BULK_WAIT_EXPIRE (R462). -/
def execBulkWaitExpire (bank : Fin 80) (services late : Nat) (s : State) : Host.Outcome State Fault Refusal :=
  s.next (bulkWaitExpire bank services late)

end Sys2Proof.Machine
end

