-- ==== Sys2Proof/Machine/Pixels.lean ====
section
/-! DEFINITION. Pixels, pixel formats and what a cell needs to build one line: the cell's own state, its cache and its
fetches (R83, R120, R126 to R129, R187). -/
namespace Sys2Proof.Machine

/-! ### Pixels -/

/-- A pixel from its channels and class. -/
def mkPx (a r g b cls : Nat) : Px := BitVec.ofNat 42 (b + g * 2 ^ 10 + r * 2 ^ 20 + a * 2 ^ 30 + cls * 2 ^ 40)
/-- A transparent pixel with a class tag (R121, R123). -/
def clearPx (cls : Nat) : Px := mkPx 0 0 0 0 cls
/-- The transparent pixel of a layer that carries no tag. -/
def noPx : Px := 0
/-- A of a pixel. -/
def pxA (p : Px) : Nat := p.toNat / 2 ^ 30 % 1024
/-- R of a pixel. -/
def pxR (p : Px) : Nat := p.toNat / 2 ^ 20 % 1024
/-- G of a pixel. -/
def pxG (p : Px) : Nat := p.toNat / 2 ^ 10 % 1024
/-- B of a pixel. -/
def pxB (p : Px) : Nat := p.toNat % 1024
/-- The class tag of a pixel. -/
def pxClass (p : Px) : Nat := p.toNat / 2 ^ 40 % 4
/-- Whether a buffer pixel is opaque: a transparent one is written with A = 0 (R121). -/
def pxOpaque (p : Px) : Bool := pxA p != 0

/-- Widen a channel of `b` bits to 10 bits (R120); a channel of no bits is 0x3FF. -/
def widen (b c : Nat) : Nat :=
  match b with
  | 8 => c * 4 ||| c / 64
  | 6 => c * 16 ||| c / 4
  | 5 => c * 32 ||| c
  | 4 => c * 64 ||| c * 4 ||| c / 4
  | 10 => c
  | 2 => c * 0x155
  | 1 => if c = 0 then 0 else 0x3FF
  | _ => 0x3FF

/-- The direct pixel formats (R187). -/
inductive PixFmt where
  | p16x565 | p16x1555 | p16x4444 | p24x888 | p32x8888 | p32x2101010
  deriving DecidableEq, Repr

/-- Bytes of a pixel. -/
def PixFmt.bytes : PixFmt → Nat
  | .p24x888 => 3
  | .p32x8888 | .p32x2101010 => 4
  | _ => 2

/-- A, R, G and B of a pixel value, widened (R120, R187). -/
def PixFmt.decode (f : PixFmt) (v : Nat) : Nat × Nat × Nat × Nat :=
  let at' (sh b : Nat) : Nat := widen b (v / 2 ^ sh % 2 ^ b)
  match f with
  | .p16x565 => (0x3FF, at' 11 5, at' 5 6, at' 0 5)
  | .p16x1555 => (at' 15 1, at' 10 5, at' 5 5, at' 0 5)
  | .p16x4444 => (at' 12 4, at' 8 4, at' 4 4, at' 0 4)
  | .p24x888 => (0x3FF, at' 16 8, at' 8 8, at' 0 8)
  | .p32x8888 => (at' 24 8, at' 16 8, at' 8 8, at' 0 8)
  | .p32x2101010 => (at' 30 2, at' 20 10, at' 10 10, at' 0 10)

/-- A pixel of a direct format with a class tag: transparent when its widened alpha is 0 (R121). -/
def PixFmt.px (f : PixFmt) (v cls : Nat) : Px :=
  let (a, r, g, b) := f.decode v
  if a = 0 then clearPx cls else mkPx a r g b cls

/-- FORMAT of a tile or sprite (R117): bits per pixel. -/
def tileBpp (fmt : Nat) : Nat := if fmt = 0 then 4 else if fmt = 1 then 8 else if fmt < 5 then 16 else 32
/-- FORMAT 2 to 6 of a tile or sprite as a direct format. -/
def tileFmt (fmt : Nat) : PixFmt :=
  match fmt with
  | 2 => .p16x565 | 3 => .p16x1555 | 4 => .p16x4444 | 5 => .p32x8888 | _ => .p32x2101010
/-- FORMAT of a FRAME layer (FB_CTRL). -/
def fbFmt (fmt : Nat) : PixFmt :=
  match fmt with
  | 0 => .p16x565 | 1 => .p16x1555 | 2 => .p16x4444 | 3 => .p24x888 | 4 => .p32x8888 | _ => .p32x2101010

/-- Pixel i of row data of `bpp` bits per pixel (R117). -/
def rowPixel (bpp : Nat) (row : List Byte) (i : Nat) : Nat :=
  if bpp = 4 then
    let b := (row.getD (i / 2) 0).toNat
    if i % 2 = 0 then b % 16 else b / 16
  else leNat ((row.drop (i * (bpp / 8))).take (bpp / 8))

/-! ### Cells and flocks -/

/-- The key of post p of flock f. -/
def cellKey (f p : Nat) : Nat := f * 16 + p
/-- The cell state of a post. -/
def Dev.cell (d : Dev) (f p : Nat) : CellSt := Store.get (fun _ => {}) d.cells (cellKey f p)
/-- Replace the cell state of a post. -/
def Dev.setCell (d : Dev) (f p : Nat) (c : CellSt) : Dev :=
  { d with cells := Store.set (fun _ => {}) d.cells (cellKey f p) c }
/-- Change the cell state of a post. -/
def Dev.updCell (d : Dev) (f p : Nat) (g : CellSt → CellSt) : Dev := d.setCell f p (g (d.cell f p))
/-- A layer of a cell. -/
def CellSt.layer (c : CellSt) (l : Nat) : LayerSt := if l = 0 then c.l0 else c.l1
/-- Change a layer of a cell. -/
def CellSt.updLayer (c : CellSt) (l : Nat) (g : LayerSt → LayerSt) : CellSt :=
  if l = 0 then { c with l0 := g c.l0 } else { c with l1 := g c.l1 }
/-- Change a layer of a post's cell. -/
def Dev.updLayer (d : Dev) (f p l : Nat) (g : LayerSt → LayerSt) : Dev := d.updCell f p (fun c => c.updLayer l g)
/-- A flock's state. -/
def Dev.flock (d : Dev) (f : Nat) : FlockSt := Store.get (fun _ => {}) d.flocks f
/-- Change a flock's state. -/
def Dev.updFlock (d : Dev) (f : Nat) (g : FlockSt → FlockSt) : Dev :=
  { d with flocks := Store.set (fun _ => {}) d.flocks f (g (d.flock f)) }
/-- A head's state. -/
def Dev.head (d : Dev) (h : Nat) : HeadSt := Store.get (fun _ => {}) d.heads h
/-- Change a head's state. -/
def Dev.updHead (d : Dev) (h : Nat) (g : HeadSt → HeadSt) : Dev :=
  { d with heads := Store.set (fun _ => {}) d.heads h (g (d.head h)) }
/-- A line script engine's state. -/
def Dev.ls (d : Dev) (h : Nat) : LsSt := Store.get (fun _ => {}) d.scripts h
/-- Change a line script engine's state. -/
def Dev.updLs (d : Dev) (h : Nat) (g : LsSt → LsSt) : Dev :=
  { d with scripts := Store.set (fun _ => {}) d.scripts h (g (d.ls h)) }

/-- KIND of a post (R80). -/
def kindOf (d : Dev) (f p : Nat) : Nat := d.fld (Reg.CELL_STATUS f p) 2 0
/-- TWIN of a post. -/
def twinOf (d : Dev) (f p : Nat) : Bool := d.bit (Reg.CELL_STATUS f p) 3
/-- The head that a flock serves; 15 when idle. -/
def flockHead (d : Dev) (f : Nat) : Nat := d.fld (Reg.FLOCK_STATUS f) 3 0
/-- The physical cell of a post, 15 when it has none. -/
def postCell (d : Dev) (f p : Nat) : Nat := d.fld (Reg.POST_MAP f) (4 * p + 3) (4 * p)
/-- The physical cell that holds the spare post, 15 when none. -/
def spareCell (d : Dev) (f : Nat) : Nat := d.fld (Reg.FLOCK_STATUS f) 7 4

/-! ### Modes (R205, R206) -/

/-- A mode (R205): active, front porch, sync, back porch and total pixels, the same of lines, whether the sync pulses are positive, PN and PD. -/
structure Mode where
  hAct : Nat
  hFp : Nat
  hSync : Nat
  hBp : Nat
  hTot : Nat
  vAct : Nat
  vFp : Nat
  vSync : Nat
  vBp : Nat
  vTot : Nat
  hPos : Bool := true
  vPos : Bool := true
  pn : Nat
  pd : Nat
  deriving DecidableEq, Repr

/-- The mode table (R205). -/
def modeTable : Nat → Mode
  | 0 => ⟨1280, 110, 40, 220, 1650, 720, 5, 5, 20, 750, true, true, 50000000, 3⟩
  | 1 => ⟨1280, 440, 40, 220, 1980, 720, 5, 5, 20, 750, true, true, 20000000, 1⟩
  | 2 => ⟨1920, 88, 44, 148, 2200, 1080, 4, 5, 36, 1125, true, true, 50000000, 3⟩
  | 3 => ⟨1920, 528, 44, 148, 2640, 1080, 4, 5, 36, 1125, true, true, 20000000, 1⟩
  | 4 => ⟨1920, 88, 44, 148, 2200, 1080, 4, 5, 36, 1125, true, true, 25000000, 3⟩
  | 5 => ⟨3840, 176, 88, 296, 4400, 2160, 8, 10, 72, 2250, true, true, 100000000, 3⟩
  | 6 => ⟨3840, 1056, 88, 296, 5280, 2160, 8, 10, 72, 2250, true, true, 20000000, 1⟩
  | 7 => ⟨3840, 176, 88, 296, 4400, 2160, 8, 10, 72, 2250, true, true, 50000000, 3⟩
  | 8 => ⟨3840, 1056, 88, 296, 5280, 2160, 8, 10, 72, 2250, true, true, 10000000, 1⟩
  | 9 => ⟨3840, 176, 88, 296, 4400, 2160, 8, 10, 72, 2250, true, true, 25000000, 3⟩
  | 10 => ⟨7680, 552, 176, 592, 9000, 4320, 16, 20, 44, 4400, true, true, 100000000, 3⟩
  | _ => ⟨1920, 48, 32, 80, 2080, 1200, 3, 6, 26, 1235, true, false, 1284400000, 77⟩

/-- A head's mode, with FRAC applied (R206). -/
def modeOf (d : Dev) (h : Nat) : Mode :=
  let m := modeTable (d.fld (Reg.HEAD_STATUS h) 7 4)
  if d.bit (Reg.HEAD_STATUS h) 8 then { m with pn := m.pn * 1001, pd := m.pd * 1000 } else m

/-- Pixel periods in a span of picoseconds, rounded down (R87, R205). -/
def Mode.pixels (m : Mode) (ps : Nat) : Nat := ps * m.hTot * m.vTot * m.pd / (m.pn * 1000)
/-- Herd nanoseconds of n line periods, rounded down. -/
def Mode.lines (m : Mode) (n : Nat) : Nat := n * m.pn / (m.pd * m.vTot)
/-- Fs(k) (R208). -/
def Mode.fs (m : Mode) (k : Nat) : Nat := k * m.pn / m.pd
/-- The least k with Fs(k) at or after t. DEDUCED, log entry 61. -/
def Mode.epochAfter (m : Mode) (t : Nat) : Nat :=
  let k := t * m.pd / m.pn
  if m.fs k ≥ t then k else if m.fs (k + 1) ≥ t then k + 1 else k + 2

/-- Pixel periods in PN / (1000 × the pixel periods of a frame) picoseconds: the divisor of every pixel instant. -/
def Mode.den (m : Mode) : Nat := m.pd * m.hTot * m.vTot
/-- Herd-clock periods of `px` pixel periods, rounded down. -/
def Mode.span (m : Mode) (px : Nat) : Nat := px * m.pn / m.den

/-- A mirror (R224). -/
def isMirror (d : Dev) (h : Nat) : Bool := d.bit (Reg.HEAD_STATUS h) 11
/-- DSI. -/
def isDsi (d : Dev) (h : Nat) : Bool := d.bit (Reg.HEAD_STATUS h) 9
/-- DSI command mode (R222). -/
def isCommand (d : Dev) (h : Nat) : Bool := d.bit (Reg.HEAD_STATUS h) 10
/-- The head whose timing generator a head follows: that of its source for a mirror (R224). -/
def beamHead (d : Dev) (h : Nat) : Nat := if isMirror d h then d.fld (Reg.HEAD_STATUS h) 14 12 else h

/-- The instant of the next (0, 0) of a head, as far as the generator gives one: none in command mode (R210, R222). -/
def nextClk (d : Dev) (h : Nat) : Option Nat :=
  let x := d.head h
  let m := modeOf d h
  if x.predicted then some x.predClk else if isCommand d h then none else some (x.fsClk + m.span (m.hTot * m.vTot))

/-- The herd-clock instant `px` pixel periods after (0, 0) of the frame that runs: the pixel clock counts from the start of the frame,
and after a relock the last 6 lines end at the predicted start (R209, R210). -/
def pixClk (d : Dev) (h px : Nat) : Nat :=
  let x := d.head h
  let m := modeOf d h
  if m.hTot * m.vTot ≤ px then (nextClk d h).getD (x.fsClk + m.span px)
  else if x.relocked && (m.vTot - 6) * m.hTot ≤ px then x.predClk - m.span (m.hTot * m.vTot - px)
  else x.fsClk + m.span px

/-- The instant at which the beam of a head reaches (n, x) of the frame that runs (R17). -/
def beamClk (d : Dev) (h n x : Nat) : Nat := pixClk d h (n * (modeOf d h).hTot + x)
/-- The line start of line n of the frame that runs, 16 pixel periods before (n, 0) (R181). That of line 0, which lies in the frame before,
is taken at (0, 0). DESIGN CHOICE, log entry 139. -/
def lineStartClk (d : Dev) (h n : Nat) : Nat := pixClk d h (n * (modeOf d h).hTot - 16)

/-- An event that falls at (n, x) of the frame that runs: time passes until the beam is there. DESIGN CHOICE, log entry 1. -/
def Dev.beamTo (d : Dev) (h n x : Nat) : Dev := if (d.head h).genOn then d.passClk (beamClk d h n x) else d

/-- Whole pixel periods since (0, 0) of the frame that runs, by the pixel clock. -/
def pixelsRun (d : Dev) (h : Nat) : Nat := (d.clk - (d.head h).fsClk) * (modeOf d h).den / (modeOf d h).pn

/-- The beam position of a running generator, counted in pixels from (0, 0) (R17): blanking line T - 7 repeats until a relock's last 6
lines begin (R210), and the last position holds until the next frame. -/
def beamPx (d : Dev) (h : Nat) : Nat :=
  let x := d.head h
  let m := modeOf d h
  let c := pixelsRun d h
  let top := (m.vTot - 7) * m.hTot
  if !x.relocked then min c (m.hTot * m.vTot - 1)
  else if beamClk d h (m.vTot - 6) 0 ≤ d.clk then min (m.hTot * m.vTot - 1) (m.hTot * m.vTot - ((x.predClk - d.clk) * m.den + m.pn - 1) / m.pn)
  else if top ≤ c then top + (c - top) % m.hTot else c

/-! ### Building a line: fetches through the cache -/

/-- What a build carries: the machine, the cell's cache, whether a fetch failed, the poisoned fetches, the cache fills, what the cache lines
read so far held, last first, and what they shall hold when the build is replayed. -/
structure Bld where
  s : State
  cache : Store (List Byte)
  failed : Bool := false
  poison : Nat := 0
  fills : Nat := 0
  seen : List (List Fetched) := []
  replay : Option (List (List Fetched)) := none

/-- Join what two fetches found. -/
def Fetched.join : Fetched → Fetched → Fetched
  | .fail, _ => .fail
  | _, .fail => .fail
  | .poison a, .poison b => .poison (a ++ b)
  | .poison a, .data b => .poison (a ++ b)
  | .data a, .poison b => .poison (a ++ b)
  | .data a, .data b => .data (a ++ b)

/-- The data of a fetch that has neither failed nor met poison. -/
def Fetched.good? : Fetched → Option (List Byte)
  | .data b => some b
  | _ => none

/-- Fetch 64-byte line `k` directly from memory as beam-class traffic (R126, R228). -/
def blockFetch (k : Nat) (b : Bld) : Fetched × Bld :=
  let (r, s) := fetch 0 (k * 64) 64 b.s
  match r with
  | .fail => (.fail, { b with s := s, failed := true })
  | .poison x => (.poison x, { b with s := s, poison := b.poison + 1 })
  | .data x => (.data x, { b with s := s })

/-- The lines that one part of the cache holds: 128 KB of tile data, 16 KB of map entries (R126). -/
def cacheCap (part : Nat) : Nat := if part = 0 then 2048 else 256
/-- Make room for one line in a part of the cache; a free value names the line that leaves. DESIGN CHOICE, log entry 59. -/
def cacheRoom (part : Nat) (b : Bld) : Bld :=
  let held := b.cache.filter (fun e => e.1 % 2 == part)
  if held.length < cacheCap part then b
  else
    let (v, d) := b.s.dev.fresh
    let out := (held.getD (v.toNat % held.length) (0, [])).1
    { b with s := { b.s with dev := d }, cache := Store.keep (fun k => k != out) b.cache }

/-- Fill 64-byte line `k` of one part of the cache from memory: its two 32-byte words, each with its poison. A poisoned line is not kept
(R129, R458). DESIGN CHOICE, log entry 59; DEDUCED, log entry 66. -/
def cacheFill (part k : Nat) (b : Bld) : List Fetched × Bld :=
  let (lo, s) := fetch 0 (k * 64) 32 b.s
  let (hi, s) := fetch 0 (k * 64 + 32) 32 s
  let b := { b with s := s }
  match lo.join hi with
  | .data x =>
    let b := cacheRoom part b
    ([lo, hi], { b with cache := Store.set (fun _ => []) b.cache (2 * k + part) x, fills := b.fills + 1 })
  | .poison _ => ([lo, hi], { b with poison := b.poison + 1, fills := b.fills + 1 })
  | .fail => ([lo, hi], { b with failed := true })

/-- Read 64-byte line `k` through one part of the cache, or as the build that is replayed read it. -/
def cacheLine (part k : Nat) (b : Bld) : List Fetched × Bld :=
  match b.replay with
  | some (x :: xs) => (x, { b with replay := some xs })
  | some [] => ([.fail, .fail], b)
  | none =>
    let (r, b) := match Store.get (fun _ => []) b.cache (2 * k + part) with
      | x :: xs => ([Fetched.data ((x :: xs).take 32), Fetched.data ((x :: xs).drop 32)], b)
      | [] => cacheFill part k b
    (r, { b with seen := r :: b.seen })

/-- Read the words of `n` consecutive 64-byte lines through the cache. -/
def cacheLines (part : Nat) : Nat → Nat → Bld → List Fetched × Bld
  | 0, _, b => ([], b)
  | n + 1, k, b =>
    let (r, b) := cacheLine part k b
    let (t, b) := cacheLines part n (k + 1) b
    (r ++ t, b)

/-- Cut bytes [o, o + n). -/
def Fetched.cut (o n : Nat) : Fetched → Fetched
  | .data x => .data ((x.drop o).take n)
  | .poison x => .poison ((x.drop o).take n)
  | .fail => .fail

/-- Bytes [a, a + n) of the 32-byte words that start at address 32 × w0: poisoned where one of the words that hold them is (R458). -/
def wordsCut (ws : List Fetched) (w0 a n : Nat) : Fetched :=
  (((ws.drop (a / 32 - w0)).take ((a % 32 + n + 31) / 32)).foldr Fetched.join (.data [])).cut (a % 32) n

/-- Read n bytes at a through one part of the cache. -/
def cacheRead (part a n : Nat) (b : Bld) : Fetched × Bld :=
  let (ws, b) := cacheLines part ((a % 64 + n + 63) / 64) (a / 64) b
  (wordsCut ws (a / 64 * 2) a n, b)

/-- Bits [47:0] of a base held in a LO and a HI register. -/
def base48 (d : Dev) (lo hi : Nat) : Nat := (d.rd lo).toNat + d.fld hi 15 0 * 2 ^ 32

/-! ### Windows (R124, R141) -/

/-- Whether position (n, x) lies in window i of a layer's registers. -/
def inWindow (d : Dev) (wx wy n x : Nat) : Bool :=
  d.fld wx 12 0 ≤ x && x ≤ d.fld wx 28 16 && d.fld wy 12 0 ≤ n && n ≤ d.fld wy 28 16

/-- Whether a layer is drawn at (n, x). -/
def drawnAt (d : Dev) (f p l n x : Nat) : Bool :=
  let c := d.rd (Reg.WIN_CTRL f p l)
  let r0 := inWindow d (Reg.WIN0_X f p l) (Reg.WIN0_Y f p l) n x != bitOf c 1
  let r1 := inWindow d (Reg.WIN1_X f p l) (Reg.WIN1_Y f p l) n x != bitOf c 3
  if !bitOf c 0 && !bitOf c 2 then true else (bitOf c 0 && r0) || (bitOf c 2 && r1)

/-! ### The palette and the line CRC -/

/-- The offset of palette entry i of a post. -/
def paletteOff (f p i : Nat) : Nat := 0x1014000 + f * 0x100000 + p * 0x10000 + 4 * i
/-- Palette entry i of a post, widened (R119, R120). -/
def palette (d : Dev) (f p i : Nat) : Nat × Nat × Nat × Nat := PixFmt.p32x8888.decode (d.rd (paletteOff f p i)).toNat

/-- The pixel of an indexed or direct source value: not opaque when it is an indexed 0 with TRANSP_ZERO, or when its widened
alpha is 0 (R119, R121, R140). -/
def sourcePx (d : Dev) (f p fmt pal cls v : Nat) (transpZero : Bool) : Px :=
  if fmt ≤ 1 then
    if v = 0 && transpZero then clearPx cls
    else
      let (a, r, g, b) := palette d f p ((16 * pal + v) % 4096)
      if a = 0 then clearPx cls else mkPx a r g b cls
  else (tileFmt fmt).px v cls

/-- One byte into a reflected CRC-32C (R103). -/
def crc32cByte (c : BitVec 32) (b : Nat) : BitVec 32 :=
  forN 8 (c ^^^ BitVec.ofNat 32 b) (fun _ x => if x.getLsbD 0 then (x >>> 1) ^^^ 0x82F63B78 else x >>> 1)

/-- The CRC-32C of a line's pixels, five bytes each, without the tag (R103, R123). -/
def lineCrc (px : List Px) : Word :=
  (px.foldl (fun c p => forN 5 c (fun i c => crc32cByte c (p.toNat / 256 ^ i % 256))) 0xFFFFFFFF) ^^^ 0xFFFFFFFF

/-- The probe line's pixels (R102). -/
def probePixels : Nat → BitVec 32 → List (BitVec 40)
  | 0, _ => []
  | n + 1, x =>
    let x := x ^^^ (x <<< 13)
    let x := x ^^^ (x >>> 17)
    let x := x ^^^ (x <<< 5)
    BitVec.append (x.extractLsb' 0 8 ^^^ x.extractLsb' 24 8) x :: probePixels n x

/-- The CRC-32C of the probe line of a seed and a length (R102, R103). -/
def probeCrc (seed : Word) (len : Nat) : Word :=
  lineCrc ((probePixels len (if seed = 0 then 1 else seed)).map (fun x => x.setWidth 42))

end Sys2Proof.Machine
end

