-- ==== Sys2Proof/Machine/CellRegs.lean ====
section
/-! DEFINITION. Writes of register fields by access type (R12, R13), and the writes of the cell, compositor and matrix pages
that firmware and line scripts make alike: refused values and their effects (R106, R131, R156, R203). -/
namespace Sys2Proof.Machine

/-- The value of a register after a write, by the access types of its row (R12): RW, RWK and RWL bits take the written
value, W1C bits written 1 clear, W1S bits written 1 set, and every other bit keeps its value. DESIGN CHOICE, log entry 17. -/
def RegRow.merge (r : RegRow) (old v : Word) : Word :=
  let m := r.rw ||| r.rwl ||| r.rwk
  (((old &&& ~~~ m) ||| (v &&& m)) &&& ~~~ (v &&& r.w1c)) ||| (v &&& r.w1s)

/-- The value of a register after a reload, in which only stored fields take their values (R180). -/
def RegRow.store (r : RegRow) (old v : Word) : Word :=
  let m := r.rw ||| r.rwl
  (old &&& ~~~ m) ||| (v &&& m)

/-! ### Cell pages (R106) -/

/-- The layer registers of a kind. -/
def layerRows (kind : Nat) : List RegRow :=
  match kind with
  | 1 => rowsTILE
  | 2 => rowsSPR
  | 3 => rowsFB
  | 4 => rowsVIDC
  | _ => []

/-- The palette's row. -/
def paletteRow : RegRow := { base := 0x4000, s1 := 4, n1 := 4096, rw := 0xFFFFFFFF }

/-- The row that page offset `o` of a cell page reaches, with the layer, and the offset as layer 0 has it. -/
def cellRow (kind : Nat) (twin : Bool) (o : Nat) : Option (RegRow × Nat × Nat) :=
  if o < 0x100 then (findRow rowsCELL o).map (fun r => (r.1, 0, o))
  else if o < 0x1000 then (findRow (layerRows kind) o).map (fun r => (r.1, 0, o))
  else if o < 0x1F00 then (if twin then (findRow (layerRows kind) (o - 0xF00)).map (fun r => (r.1, 1, o - 0xF00)) else none)
  else (findRow [paletteRow] o).map (fun r => (r.1, 0, o))

/-- The row that page offset `o` of the spare post's page reaches: CELL_STATUS and CELL_GEN alone (R106). -/
def spareRow (o : Nat) : Option (RegRow × Nat × Nat) := if o = 4 || o = 8 then findRow rowsCELL o else none

/-- The offset of page offset `o` of the page of post p of flock f. -/
def cellOff (f p o : Nat) : Nat := 0x1010000 + f * 0x100000 + p * 0x10000 + o

/-- Whether a layer register refuses a value (R131, R156, and the tables of FRAME and VIDEO cells). -/
def layerRefuses (d : Dev) (f p l kind : Nat) (twin : Bool) (b : Nat) (v : Word) : Bool :=
  let size0 := fld v 12 0
  let size1 := fld v 28 16
  match kind, b with
  | 1, 0x100 => fld v 3 1 == 7 || fld v 5 4 == 3 || fld v 7 6 == 3
  | 1, 0x10C => fld v 3 0 < 5 || fld v 3 0 > 12 || fld v 7 4 < 5 || fld v 7 4 > 12
  | 2, 0x10C => fld v 12 0 > (if twin then 2048 else 4096)
  | 2, 0x118 => fld v 8 0 == 0 || fld v 8 0 > 256
  | 2, 0x128 => d.bit (Reg.SPR_CTRL f p l) 2
  | 2, 0x12C => d.bit (Reg.SPR_CTRL f p l) 2
  | 2, 0x130 => d.bit (Reg.SPR_CTRL f p l) 2 || fld v 4 0 < 4 || fld v 4 0 > 16
  | 2, 0x138 => (d.rd (Reg.COLL_WR f p l) - v).toNat > 2 ^ d.fld (Reg.COLL_SIZE f p l) 4 0
  | 3, 0x100 => fld v 3 1 ≥ 6
  | 3, 0x10C => fld v 19 0 % 64 != 0
  | 3, 0x110 => size0 == 0 || size0 > 7680 || size1 == 0 || size1 > 4320
  | 4, 0x100 => fld v 2 1 == 3
  | 4, 0x114 => fld v 15 0 % 64 != 0 || fld v 31 16 % 64 != 0
  | 4, 0x118 =>
    size0 % 2 != 0 || size0 < 64 || size0 > 7680 || size1 < 64 || size1 > 4320 ||
    (d.fld (Reg.VID_CTRL f p l) 2 1 != 0 && size1 % 2 != 0)
  | _, _ => false

/-- What a performed write of a layer register does beside storing: INV, RELOAD and the start of collision recording
(R127, R134, R151). -/
def layerEffect (f p l kind b : Nat) (old v : Word) (d : Dev) : Dev :=
  match kind, b with
  | 1, 0x178 => if bitOf v 0 then d.updCell f p (fun c => { c with inv := true }) else d
  | 2, 0x178 => if bitOf v 0 then d.updCell f p (fun c => { c with inv := true }) else d
  | 2, 0x11C => if bitOf v 0 then d.updLayer f p l (fun y => { y with reload := true }) else d
  | 2, 0x100 => if bitOf v 2 && !bitOf old 2 then (d.wr (Reg.COLL_WR f p l) 0).wr (Reg.COLL_RD f p l) 0 else d
  | _, _ => d

/-- The offsets that a row's registers take in its page. -/
def RegRow.offsets (r : RegRow) : List Nat :=
  (List.range r.n1).flatMap (fun i => (List.range r.n2).map (fun j => r.base + i * r.s1 + j * r.s2))
/-- The layer registers of a kind whose reset value is not 0, each with that value (R131, R156, R226, R192). -/
def layerResets (kind : Nat) : List (Nat × Word) :=
  (layerRows kind).flatMap (fun r => if r.reset = 0 then [] else r.offsets.map (fun o => (o, r.reset)))
/-- The layer registers of a post take the reset values of its kind. -/
def layerInit (f p : Nat) (d : Dev) : Dev :=
  (if twinOf d f p then [0, 1] else [0]).foldl (fun d l =>
    (layerResets (kindOf d f p)).foldl (fun d e => d.wr (cellOff f p (e.1 + l * 0xF00)) e.2) d) d
/-- The layer registers and the palette of a post are cleared, and take the reset values of its kind. -/
def layerClear (f p : Nat) (d : Dev) : Dev :=
  layerInit f p { d with regs := Store.keep (fun o => !(cellOff f p 0x100 ≤ o && o < cellOff f p 0x10000)) d.regs }

/-- A palette write while the cell builds a line: pixels built before it keep the old entry (R122). -/
def notePalette (f p o : Nat) (old : Word) (d : Dev) : Dev :=
  d.updCell f p (fun c => { c with bufs := c.bufs.map (fun b => if b.done then b else { b with pal := b.pal ++ [(o, old)] }) })

/-- Write a register of the cell page of a post, 0 to 7 (R106): the cell and its config store entry take the write in the same
access (R99), which is one store here. A refused value sets CFG_ERR and changes nothing else. -/
def cellRegWrite (f p o : Nat) (v : Word) (d : Dev) : Dev :=
  match cellRow (kindOf d f p) (twinOf d f p) o with
  | none => d
  | some (r, l, b) =>
    if 0x100 ≤ b && b < 0x1000 && layerRefuses d f p l (kindOf d f p) (twinOf d f p) b v then
      d.setBit (cellOff f p (0x170 + l * 0xF00)) 2
    else
      let old := d.rd (cellOff f p o)
      let d := d.wr (cellOff f p o) (r.merge old v)
      if 0x100 ≤ b && b < 0x1000 then layerEffect f p l (kindOf d f p) b old v d
      else if 0x4000 ≤ b && kindOf d f p ≤ 2 then notePalette f p b old d else d

/-- The result of a staged operation on the value in force (R166, R168). -/
def StageOp.apply (op : StageOp) (old v : Word) : Word :=
  match op with
  | .put => v
  | .mask m => (old &&& ~~~ m) ||| (v &&& m)
  | .add => old + v

/-- Apply one staged write to a cell page (R164, R166). -/
def applyCell (f p : Nat) (w : Staged) (d : Dev) : Dev := cellRegWrite f p w.off (w.op.apply (d.rd (cellOff f p w.off)) w.v) d

/-- Whether a staged write takes effect at or before line n of a frame. -/
def Staged.due (w : Staged) (frame n : Nat) : Bool := w.frame < frame || (w.frame = frame && w.line ≤ n)

/-- Apply a post's staged writes that are due, in script order (R164). -/
def applyStaged (f p frame n : Nat) (d : Dev) : Dev :=
  let ws := (d.cell f p).staged
  let d := d.updCell f p (fun c => { c with staged := ws.filter (fun w => !w.due frame n) })
  (ws.filter (fun w => w.due frame n)).foldl (fun d w => applyCell f p w d) d

/-! ### Compositor and matrix pages (R203) -/

/-- Whether a head's link carries its mode at 10 bits per component (R216, R220). -/
def carries10 (d : Dev) (h : Nat) : Bool :=
  let m := d.fld (Reg.HEAD_STATUS h) 7 4
  if d.bit (Reg.HEAD_STATUS h) 9 then m ≤ 5 || m == 11
  else match d.fld (Reg.PHY_STATUS h) 3 2 with
    | 0 => m ≤ 5 || m == 11
    | 1 => m ≤ 7 || m == 11
    | _ => true

/-- Whether a compositor register refuses a value; `b` is its offset with the indices of its row taken out. -/
def compRefuses (d : Dev) (h b : Nat) (v : Word) : Bool :=
  match b with
  | 0x004 => fld v 2 1 == 3 || (bitOf v 0 && !carries10 d h)
  | 0x200 => fld v 2 0 ≥ 5
  | 0x804 => fld v 12 0 == 0 || fld v 12 0 > 7680 || fld v 28 16 == 0 || fld v 28 16 > 4320
  | _ => false

/-- Write a register of a head's compositor page. -/
def compRegWrite (h o : Nat) (v : Word) (d : Dev) : Dev :=
  match findRow rowsCOMP o with
  | none => d
  | some (r, _, _) =>
    if compRefuses d h r.base v then d.setBit (Reg.COMP_STATUS h) 2
    else
      let a := 0x2000000 + h * 0x100000 + o
      d.wr a (r.merge (d.rd a) v)

/-- Whether a register of the matrix and gamma page refuses a value. -/
def matRefuses (b : Nat) (v : Word) : Bool := (b = 0x100 && fld v 2 0 = 7) || (b = 0x200 && fld v 2 0 ≥ 5)

/-- Write a register of a head's matrix and gamma page. -/
def matRegWrite (h o : Nat) (v : Word) (d : Dev) : Dev :=
  match findRow rowsMAT o with
  | none => d
  | some (r, _, _) =>
    if matRefuses r.base v then d.setBit (Reg.COMP_STATUS h) 2
    else
      let a := 0x2040000 + h * 0x100000 + o
      d.wr a (r.merge (d.rd a) v)

/-- Compositor registers whose script writes are pixel-exact (R203): BG_COLOR, SLOT_EN and SLOT_ALPHA. -/
def pixelExact (o : Nat) : Bool := o == 0x008 || o == 0x00C || (0x204 ≤ o && o < 0x604 && (o - 0x204) % 0x20 == 0)

/-- Apply one staged write to the compositor page. -/
def applyComp (h : Nat) (w : Staged) (d : Dev) : Dev :=
  compRegWrite h w.off (w.op.apply (d.rd (0x2000000 + h * 0x100000 + w.off)) w.v) d
/-- Apply one staged write to the matrix and gamma page. -/
def applyMat (h : Nat) (w : Staged) (d : Dev) : Dev :=
  matRegWrite h w.off (w.op.apply (d.rd (0x2040000 + h * 0x100000 + w.off)) w.v) d

end Sys2Proof.Machine
end

