-- ==== Sys2Proof/Machine/Reload.lean ====
section
/-! DEFINITION. The row that reaches each register of the device, and the reload of a unit's pages from the image's REGSET
entries (R56, R180, R284). -/
namespace Sys2Proof.Machine

/-- The row of the register at a register-space offset, if a register lies there. -/
def rowAt (d : Dev) (off : Nat) : Option RegRow :=
  match pageOf off with
  | none => none
  | some (.cell f p, o) =>
    if p = 8 then (spareRow o).map (·.1)
    else (cellRow (kindOf d f p) (twinOf d f p) o).map (·.1)
  | some (pg, o) => (findRow pg.rows o).map (·.1)

/-- The OFFSET and VALUE pairs of a REGSET body (R56). -/
def regPairs : List Byte → List (Nat × Word)
  | a :: b :: c :: e :: v :: w :: x :: y :: l => (leNat [a, b, c, e], w32 (leNat [v, w, x, y])) :: regPairs l
  | _ => []

/-- Every REGSET entry of the loaded image, in file order. -/
def regsetOf (d : Dev) : List (Nat × Word) :=
  d.ld.recs.flatMap (fun r => if r.ty = 0x000A then regPairs r.body else [])

/-- The reset value of a register: in the layer areas of a cell page that of the row of the post's kind (R106). -/
def resetAt (d : Dev) (o : Nat) : Word :=
  match pageOf o with
  | some (.cell f p, b) => if 0x100 ≤ b then ((cellRow (kindOf d f p) (twinOf d f p) b).map (·.1.reset)).getD 0 else resetWord o
  | _ => resetWord o
/-- The stored fields of a register take their reset values (R180). -/
def resetStored (o : Nat) (d : Dev) : Dev :=
  match rowAt d o with
  | some r => d.wr o (r.store (d.rd o) (resetAt d o))
  | none => d

/-- Whether the page of a head refuses a value in a register (R203, OUT_ENC). -/
def headRefuses (d : Dev) (off b : Nat) (v : Word) : Bool :=
  match pageOf off with
  | some (.comp h, _) => compRefuses d h b v
  | some (.mat _, _) => matRefuses b v
  | some (.scan h, _) => b == 0x044 && fld v 1 0 ≥ 2 && d.bit (Reg.HEAD_STATUS h) 9
  | _ => false

/-- The stored fields of a register take a REGSET value, unless its page refuses the value (R180). A cell page takes it as a write
(R56, R131, R156). -/
def reloadEntry (e : Nat × Word) (d : Dev) : Dev :=
  match pageOf e.1, rowAt d e.1 with
  | some (.cell f p, o), _ => if p < 8 then cellRegWrite f p o e.2 d else d
  | _, some r => if headRefuses d e.1 r.base e.2 then d else d.wr e.1 (r.store (d.rd e.1) e.2)
  | _, none => d

/-- Reload the registers of [lo, hi) from the image (R180): stored fields take their REGSET values, and those without an entry
their reset values. -/
def reloadRange (lo hi : Nat) (d : Dev) : Dev :=
  let mine (o : Nat) : Bool := lo ≤ o && o < hi
  let d := (d.regs.filter (fun e => mine e.1)).foldl (fun d e => resetStored e.1 d) d
  ((regsetOf d).filter (fun e => mine e.1)).foldl (fun d e => reloadEntry e d) d

/-- A unit whose stamp differs from GLOBAL_GEN reloads and takes GLOBAL_GEN (R284). -/
def rejoinUnit (gen : Nat) (reload : Dev → Dev) (d : Dev) : Dev :=
  if d.rd gen = d.rd Reg.GLOBAL_GEN then d else (reload d).wr gen (d.rd Reg.GLOBAL_GEN)

end Sys2Proof.Machine
end

