-- ==== Sys2Proof/Machine/Sources.lean ====
section
/-! DEFINITION. The level of every interrupt source, computed from the registers of its owner (R320, R321, and the rule of
each owner: R104, R179, R204, R229, R257, R288, R322, R334, R350, R368, R386, R418, R449, R518, R533, R550). -/
namespace Sys2Proof.Machine

/-- Whether a flag register and its enable register share a set bit within a mask. -/
def anyFlag (d : Dev) (flags en : Nat) (mask : Word) : Bool := d.rd flags &&& d.rd en &&& mask != 0

/-- UNGUARDED_ANY (R289): some flock, yoke or spared group of R280 has no spare. The spare of a herd ring is the second ring that the image
gives the device. DEDUCED, log entry 141. -/
def unguardedAny (d : Dev) : Bool :=
  (List.range 16).any (fun f => d.bit (Reg.FLOCK_STATUS f) 8) ||
  (List.range 8).any (fun y => d.fld (Reg.YOKE_STATE y) 12 10 == 4) ||
  ((List.range 8).any (fun y => d.fld (Reg.YOKE_STATE y) 12 10 != 0) && d.fld Reg.ST_STATUS 12 8 == 0) ||
  d.fld Reg.ST_STATUS 14 13 != 3 || d.fld Reg.ST_STATUS 17 15 == 0 || d.fld Reg.ST_STATUS 20 18 != 7 ||
  !d.keep.oneCopy.isEmpty || d.keep.spareA == 0 || d.keep.spareB == 0 || !d.mc.rowsDone.isEmpty ||
  poolFreeCount d 0 == 0 || poolFreeCount d 1 == 0 ||
  (d.fld Reg.HERD_STATUS 9 8 == 3 && d.fld Reg.HERD_STATUS 3 2 != 3)

/-- Steward sources 2 to 7 (R288). -/
def levelSteward (d : Dev) (n : Nat) : Bool :=
  let f := anyFlag d Reg.ST_FLAGS Reg.ST_IRQ_EN
  match n with
  | 2 => f 0x001
  | 3 => f 0x002 || (unguardedAny d && d.bit Reg.ST_IRQ_EN 1)
  | 4 => f 0x00C
  | 5 => f 0x070
  | 6 => f 0x180
  | 7 => f 0xE00
  | _ => false

/-- Head sources 96 to 159 (R229, R179, R204). -/
def levelHead (d : Dev) (h k : Nat) : Bool :=
  let f := anyFlag d (Reg.HEAD_FLAGS h) (Reg.HEAD_IRQ_EN h)
  match k with
  | 0 => f 0x0003
  | 1 => f 0x01FC
  | 2 => f 0x0600
  | 3 => f 0x1800
  | 4 => d.fld (Reg.LS_FLAGS h) 11 8 &&& d.fld (Reg.LS_IRQ_EN h) 3 0 != 0
  | 5 => d.rd (Reg.LS_FLAGS h) &&& 0x7F != 0 && d.bit (Reg.LS_IRQ_EN h) 4
  | 6 => d.rd (Reg.COMP_STATUS h) &&& 0xF7 != 0 && d.bit (Reg.COMP_IRQ_EN h) 0
  | _ => false

/-- Packhorse sources 160 to 172 (R386). -/
def levelPh (d : Dev) (k : Nat) : Bool :=
  if k < 8 then d.fld (Reg.CQ_CTRL k) 1 0 == 3 && d.rd (Reg.CQ_WR k) != d.rd (Reg.CQ_RD k)
  else if k < 12 then (List.range 8).any (fun j => anyFlag d (Reg.PCH_FLAGS (8 * (k - 8) + j)) (Reg.PCH_IRQ_EN (8 * (k - 8) + j)) 0x3F)
  else k == 12 && d.bit Reg.PH_FLAGS 0

/-- GPIO sources 268 to 284 (R550). -/
def levelGpio (d : Dev) (k : Nat) : Bool :=
  if k < 16 then
    let b := k / 4
    let m := w32 (0xFF * 2 ^ (8 * (k % 4)))
    anyFlag d (Reg.GPIO_RISE b) (Reg.GPIO_RISE_EN b) m || anyFlag d (Reg.GPIO_FALL b) (Reg.GPIO_FALL_EN b) m
  else k == 16 && anyFlag d Reg.GPIO_FLAGS Reg.GPIO_IRQ_EN 0xF

/-- Drove sources 300 to 303 (R518). -/
def levelDrove (d : Dev) (k : Nat) : Bool :=
  let f := anyFlag d Reg.DRV_FLAGS Reg.DRV_IRQ_EN
  match k with
  | 0 => f 0x007
  | 1 => f 0x0F8
  | 2 => f 0x300
  | 3 => (List.range 60).any (fun s => d.bit (Reg.DRX_CFG s) 30 && d.rd (Reg.DRX_WR s) != d.rd (Reg.DRX_RD s))
  | _ => false

/-- Herd sources 352 to 358 (R257). -/
def levelHerd (d : Dev) (k : Nat) : Bool :=
  let f := anyFlag d Reg.HERD_FLAGS Reg.HERD_IRQ_EN
  match k with
  | 0 => f 0x00001
  | 1 => f 0x0003E
  | 2 => f 0x00040
  | 3 => f 0x00080
  | 4 => f 0x03F00
  | 5 => f 0x1C000
  | 6 => f 0x20000
  | _ => false

/-- The level that the owner of source n holds. -/
def ownerLevel (d : Dev) (n : Nat) : Bool :=
  if n = 0 then false
  else if n = 1 then anyFlag d Reg.BW_FLAGS Reg.BW_IRQ_EN 7
  else if n < 8 then levelSteward d n
  else if n < 32 then false
  else if n < 96 then
    let k := (n - 32) % 4
    d.bit (Reg.FLOCK_IRQ ((n - 32) / 4)) k && d.bit (Reg.FLOCK_IRQ_EN ((n - 32) / 4)) k
  else if n < 160 then levelHead d ((n - 96) / 8) ((n - 96) % 8)
  else if n < 196 then levelPh d (n - 160)
  else if n < 228 then anyFlag d (Reg.TM_FLAGS ((n - 196) / 4) ((n - 196) % 4)) (Reg.TM_IRQ_EN ((n - 196) / 4) ((n - 196) % 4)) 0xFF
  else if n < 236 then anyFlag d (Reg.CK_FLAGS (n - 228)) (Reg.CK_IRQ_EN (n - 228)) 0x7F
  else if n < 242 then
    anyFlag d Reg.AU_FLAGS Reg.AU_IRQ_EN (match n - 236 with | 0 => 0x7 | 1 => 0x38 | 2 => 0xC0 | 3 => 0x300 | 4 => 0xC00 | _ => 0x7000)
  else if n < 268 then false
  else if n < 300 then levelGpio d (n - 268)
  else if n < 310 then levelDrove d (n - 300)
  else if n < 315 then
    anyFlag d Reg.NET_FLAGS Reg.NET_IRQ_EN (match n - 310 with | 0 => 0xF | 1 => 0xF0 | 2 => 0x700 | 3 => 0x3800 | _ => 0x1C000)
  else if n < 320 then false
  else if n = 320 then anyFlag d Reg.CONJ_FLAGS Reg.CONJ_IRQ_EN 0x7B
  else if n = 321 then anyFlag d Reg.CONJ_FLAGS Reg.CONJ_IRQ_EN 0x04
  else if n < 336 then false
  else if n < 352 then d.bit Reg.IRQ_LATCH (n - 336)
  else if n < 384 then levelHerd d (n - 352)
  else if n < 512 then d.bit (Reg.SWI_SET ((n - 384) / 32)) ((n - 384) % 32)
  else false

/-- The owners that stay powered in deep standby (R552): Bellwether, timer unit 0, GPIO, fabric, herd and software. -/
def ownerPowered (n : Nat) : Bool :=
  n == 1 || (196 ≤ n && n < 200) || (268 ≤ n && n < 300) || 320 ≤ n

/-- The level of source n: 0 while its owner is powered down (R561). -/
def srcLevel (d : Dev) (n : Nat) : Bool := ownerLevel d n && (!d.inDeep || ownerPowered n)

end Sys2Proof.Machine
end

