-- ==== Sys2Proof/Machine/Units.lean ====
section
/-! DEFINITION. The spared units other than cells (R274, R280, R281, R285, R289): which are in service, spare, in self-test or
in the repair map, and the registers that show it. -/
namespace Sys2Proof.Machine

/-- The standing of a unit: 0 in service, 1 spare, 2 retired and in self-test, 3 in the repair map. -/
def unitKey (cls idx : Nat) : Nat := cls * 1024 + idx
/-- The standing of a unit that nothing has changed: the last units of each class are its spares (R274, R280). -/
def unitInit (k : Nat) : Nat :=
  let i := k % 1024
  match k / 1024 with
  | 2 => if 16 ≤ i then 1 else 0
  | 3 => if i = 8 then 1 else 0
  | 4 => if i = 16 then 1 else 0
  | 5 => if 32 ≤ i then 1 else 0
  | 6 => if i = 2 then 1 else 0
  | 9 => if i % 16 = 8 then 1 else 0
  | _ => 0
/-- The standing of unit `idx` of a class. -/
def Dev.unit (d : Dev) (cls idx : Nat) : Nat := Store.get unitInit d.units (unitKey cls idx)

/-- The units of a class (R287). -/
def unitsOf (cls : Nat) : List Nat :=
  match cls with
  | 2 => List.range 18
  | 3 => List.range 9
  | 4 => List.range 17
  | 5 => List.range 36
  | 6 => List.range 3
  | 9 => List.range 9 ++ (List.range 9).map (· + 16)
  | _ => []

/-- The spares of a class, in increasing number. -/
def sparesOf (d : Dev) (cls : Nat) : List Nat := (unitsOf cls).filter (fun i => d.unit cls i == 1)

/-- The spares that can take the place of a unit: those of its class, for a Drove lane those of its direction (R280). -/
def sparesFor (d : Dev) (cls idx : Nat) : List Nat := (sparesOf d cls).filter (fun i => cls != 9 || i / 16 == idx / 16)

/-- The spare fields of ST_STATUS (R289). -/
def syncSpares (d : Dev) : Dev :=
  let n (cls : Nat) : Nat := (sparesOf d cls).length
  let w := d.rd Reg.ST_STATUS
  let w := putFld w 12 8 (n 2)
  let w := putFld w 13 13 (min 1 (n 3))
  let w := putFld w 14 14 (min 1 (n 4))
  let w := putFld w 17 15 (n 5)
  let w := putFld w 18 18 (min 1 (n 6))
  let w := putFld w 19 19 (if (sparesOf d 9).any (· < 16) then 1 else 0)
  let w := putFld w 20 20 (if (sparesOf d 9).any (16 ≤ ·) then 1 else 0)
  d.wr Reg.ST_STATUS w

/-- Change the standing of a unit. A group that loses its last spare sets UNGUARDED (ST_FLAGS). DEDUCED, log entry 80. -/
def setUnit (cls idx v : Nat) (d : Dev) : Dev :=
  let had := !(sparesFor d cls idx).isEmpty
  let d := syncSpares { d with units := Store.set unitInit d.units (unitKey cls idx) v }
  if had && (sparesFor d cls idx).isEmpty then d.setBit Reg.ST_FLAGS 1 else d

/-- Enter a unit into the repair map (R285). -/
def mapUnit (cls idx : Nat) (d : Dev) : Dev :=
  { d with repairs := if d.repairs.contains (cls, idx) then d.repairs else d.repairs ++ [(cls, idx)] }

/-- A unit starts self-test. -/
def startTest (cls idx : Nat) (d : Dev) : Dev :=
  { d with testing := if d.testing.contains (cls, idx) then d.testing else d.testing ++ [(cls, idx)] }
/-- A unit's self-test ends or is aborted. -/
def endTest (cls idx : Nat) (d : Dev) : Dev := { d with testing := d.testing.erase (cls, idx) }

/-- A failed unit leaves service and runs self-test (R281). -/
def retireUnit (cls idx : Nat) (d : Dev) : Dev := startTest cls idx (setUnit cls idx 2 d)

/-- The lowest spare of a class goes into service; a self-test that it runs is aborted. DEDUCED, log entry 63. -/
def takeSpare (cls : Nat) (d : Dev) : Option (Nat × Dev) :=
  match sparesOf d cls with
  | [] => none
  | i :: _ => some (i, endTest cls i (setUnit cls i 0 d))

/-- The lowest spare of a class that satisfies a condition goes into service. -/
def takeSpareWhere (cls : Nat) (p : Nat → Bool) (d : Dev) : Option (Nat × Dev) :=
  match (sparesOf d cls).filter p with
  | [] => none
  | i :: _ => some (i, endTest cls i (setUnit cls i 0 d))

/-- The bits of a register that show the repair map of a class (R289). -/
def mapBits (d : Dev) (cls lo n : Nat) : Nat :=
  (d.repairs.filter (fun e => e.1 == cls && lo ≤ e.2 && e.2 < lo + n)).foldl (fun w e => w ||| 2 ^ (e.2 - lo)) 0

/-- REPAIR_CORES, REPAIR_SLICES, REPAIR_PH and REPAIR_LANES as a read returns them. -/
def repairWord (d : Dev) (off : Nat) : Word :=
  match off with
  | 0x100 => w32 (mapBits d 2 0 18)
  | 0x104 => w32 (mapBits d 3 0 9 + mapBits d 4 0 17 * 2 ^ 9)
  | 0x108 => w32 (mapBits d 5 0 32)
  | _ => w32 (mapBits d 5 32 4 + mapBits d 6 0 3 * 2 ^ 4 + mapBits d 9 0 9 * 2 ^ 7 + mapBits d 9 16 9 * 2 ^ 16)

/-- FLOCK_STATUS as a read returns it: RETIRED is the repair map's part (R289). -/
def flockStatus (d : Dev) (f : Nat) : Word := putFld (d.rd (Reg.FLOCK_STATUS f)) 24 16 (mapBits d 1 (16 * f) 9)

/-- A requested or periodic self-test of a unit other than a cell ends, or that of a retired unit (R281, R287): a retired unit
that passes is a spare again; one that fails enters the repair map. -/
def unitTestDone (cls idx : Nat) (pass : Bool) (d : Dev) : Dev :=
  if d.testing.contains (cls, idx) then
    let retired := d.unit cls idx == 2
    let d := endTest cls idx d
    if pass then
      if retired then faultLog cls 7 idx 12 0 0 (setUnit cls idx 1 d) else d
    else
      let d := mapUnit cls idx (setUnit cls idx 3 d)
      faultLog cls 7 idx 13 (if (sparesFor d cls idx).isEmpty then 1 else 0) 0 d
  else d

end Sys2Proof.Machine
end

