-- ==== Sys2Proof/Machine/AudioRegs.lean ====
section
/-! DEFINITION. The registers of audio (R450 to R452): the writes that R450 refuses, voice commands, gains, rings, ports, and the
words that a read computes. -/
namespace Sys2Proof.Machine

/-- Change audio beyond its registers. -/
def Dev.auUpd (d : Dev) (f : AudioSt → AudioSt) : Dev := { d with au := f d.au }
/-- 96 kHz (AUDIO_RATE, R30). -/
def auFast (d : Dev) : Bool := d.bit Reg.AU_STATUS 0
/-- How many voices there are (R424). -/
def voiceCount (d : Dev) : Nat := if auFast d then 256 else 512
/-- Whether output o lies in a row lent to Tandem mode (R444). -/
def isLent (d : Dev) (o : Nat) : Bool := d.bit Reg.AU_STATUS (2 + o / 8)
/-- The outputs that are lent, in increasing order. -/
def lentRows (d : Dev) : List Nat := (List.range 128).filter (isLent d)
/-- A refused value (R450). -/
def auRefuse (d : Dev) : Dev := (d.setBit Reg.AU_FLAGS 14).okay
/-- A refused value of a voice register: CFG_ERR of the voice as well, and with it VOICE_ERR. -/
def voiceRefuse (v : Nat) (d : Dev) : Dev := auRefuse ((d.setBit (Reg.V_STATE v) 5).setBit Reg.AU_FLAGS 1)
/-- An action takes effect at the next block (R422). -/
def auStage (a : AuAct) (d : Dev) : Dev := d.auUpd (fun u => { u with staged := u.staged ++ [a] })
/-- A voice. -/
def Dev.voice (d : Dev) (v : Nat) : Voice := Store.get (fun _ => {}) d.au.voices v

/-! ### Words that a read computes -/

/-- A meter: inputs 0–127, then outputs 128–255. -/
def Dev.meter (d : Dev) (m : Nat) : AuMeter := Store.get (fun _ => {}) d.au.meters m
/-- A meter word (R435); meters of lent rows read 0. -/
def meterWord (d : Dev) (m : Nat) : Word :=
  if 128 ≤ m && isLent d (m - 128) then 0 else w32 ((d.meter m).peak + (d.meter m).level * 2 ^ 16)
/-- PEAK restarts. -/
def meterRestart (m : Nat) (d : Dev) : Dev :=
  d.auUpd (fun u => { u with meters := Store.set (fun _ => {}) u.meters m { d.meter m with peak := 0 } })
/-- V_POS (R452). -/
def voicePos (d : Dev) (v : Nat) : Word := if v < voiceCount d then w32 ((d.voice v).p / 2 ^ 24) else 0
/-- V_STATE (R452): the stage, the flags and L >> 8, which holds at 0xFFFF. DEDUCED, log entry 98. -/
def voiceState (d : Dev) (v : Nat) : Word :=
  if v < voiceCount d then
    putFld (putFld (d.rd (Reg.V_STATE v)) 2 0 (d.voice v).stage) 31 16 (min ((d.voice v).l / 256) 0xFFFF)
  else 0
/-- A read of a register of the AUDIO page. -/
def auRead (o : Nat) (d : Dev) : Word :=
  if 0x400 ≤ o && o < 0x800 && o % 4 = 0 then meterWord d ((o - 0x400) / 4) else d.rd (0xF0000 + o)
/-- A read of a register of the VOICES page. -/
def voiceRead (o : Nat) (d : Dev) : Word :=
  if o < 0x8000 then 0
  else
    let v := (o - 0x8000) / 0x40
    match o % 0x40 with
    | 0x38 => voicePos d v
    | 0x3C => voiceState d v
    | _ => if v < voiceCount d then d.rd (0x110000 + o) else 0

/-! ### Writes of the AUDIO page -/

/-- Bits of a frame of a port (R436). -/
def tdmBits (v : Word) : Nat := (fld v 5 2 + 1) * (fld v 7 6 * 8 + 16)
/-- Whether TDM_CFG refuses a value: WIDTH 3, a bit clock above 24.576 MHz, or I2S with other than 2 slots (R436). -/
def tdmRefuses (d : Dev) (v : Word) : Bool :=
  fld v 7 6 == 3 || decide ((if auFast d then 256 else 512) < tdmBits v) || (bitOf v 8 && fld v 5 2 != 1)
/-- A TDM_CFG write. A port that stops being an enabled slave loses its assignment. -/
def tdmCfgWrite (p : Nat) (v : Word) (d : Dev) : Dev :=
  if tdmRefuses d v then auRefuse d
  else
    let old := d
    let d := d.wr (Reg.TDM_CFG p) (v &&& 0x7FF)
    (withdrawn old (if fld v 1 0 = 1 then d
     else (d.clrBit (Reg.TDM_STATUS p) 0).auUpd (fun u => { u with tdm := Store.set (fun _ => {}) u.tdm p {} }))).okay

/-- An IN_CFG write (R433). -/
def inCfgWrite (i : Nat) (v : Word) (d : Dev) : Dev :=
  let hpf := fld v 2 0
  if hpf = 7 || (hpf ≠ 0 && !(64 ≤ i && i < 112)) || (bitOf v 4 && i < 64) then auRefuse d
  else (d.wr (Reg.IN_CFG i) (v &&& (if i < 64 then 0x20 else 0x3F))).okay

/-- A write of a stream ring's register (R441): k is 0 BASE_LO, 1 CFG, 2 WR, 3 RD. -/
def streamWrite (r k : Nat) (v : Word) (d : Dev) : Dev :=
  let en := d.bit (Reg.STREAM_CFG r) 31
  let size := 2 ^ d.fld (Reg.STREAM_CFG r) 20 16
  match k with
  | 0 => if en then auRefuse d else (d.wr (Reg.STREAM_BASE_LO r) (v &&& 0xFFFFFFFC)).okay
  | 1 =>
    if fld v 20 16 < 4 || 16 < fld v 20 16 then auRefuse d
    else
      let d := d.wr (Reg.STREAM_CFG r) (v &&& 0x801FFFFF)
      let d := if bitOf v 31 then d else d.auUpd (fun u => { u with ringBuf := Store.set (fun _ => []) u.ringBuf r [] })
      (if bitOf v 31 && !en then (d.wr (Reg.STREAM_WR r) 0).wr (Reg.STREAM_RD r) 0 else d).okay
  | 2 =>
    if 16 ≤ r then d.okay
    else if size < (v - d.rd (Reg.STREAM_RD r)).toNat then auRefuse d else (d.wr (Reg.STREAM_WR r) v).okay
  | _ =>
    if r < 16 then d.okay
    else if size < (d.rd (Reg.STREAM_WR r) - v).toNat then auRefuse d else (d.wr (Reg.STREAM_RD r) v).okay

/-- XS_CMD LOAD (R434): the entry list to be read into the shadow of scene sc. DEDUCED, log entry 103. -/
def xsLoad (sc : Nat) (d : Dev) : Dev :=
  if d.bit Reg.XS_STATE 16 then d
  else (d.setBit Reg.XS_STATE 16).auUpd (fun u => { u with
    load := some (sc, (d.rd Reg.XS_LOAD_LO).toNat + d.fld Reg.XS_LOAD_HI 15 0 * 2 ^ 32, d.fld Reg.XS_LOAD_HI 26 16) })
/-- The scene a fire uses is the one held when it arrives (R434). DEDUCED, log entry 101. -/
def sceneAct (d : Dev) (sc : Nat) (c : Option Arrival) : AuAct := .scene (Store.get (fun _ => []) d.au.scenes sc) c
/-- XS_CMD FIRE (R434). -/
def xsFire (sc : Nat) (d : Dev) : Dev := auStage (sceneAct d sc none) d
/-- An XS_CMD write. -/
def xsCmdWrite (v : Word) (d : Dev) : Dev :=
  (if bitOf v 31 then
    match fld v 5 4 with
    | 1 => xsLoad (fld v 3 0) d
    | 2 => xsFire (fld v 3 0) d
    | _ => d
  else d).okay

/-- Start a Tandem job (R447): its first vector joins those that wait. -/
def jobStart (c : Option Arrival) (d : Dev) : Dev :=
  d.auUpd (fun u => { u with
    job := some { inAt := (d.rd Reg.TD_JOB_IN_LO).toNat + (d.rd Reg.TD_JOB_IN_HI).toNat * 2 ^ 32
                  outAt := (d.rd Reg.TD_JOB_OUT_LO).toNat + (d.rd Reg.TD_JOB_OUT_HI).toNat * 2 ^ 32
                  n := (d.rd Reg.TD_JOB_N).toNat, cause := c }
    tdq := u.tdq ++ [none] })
/-- A TD_CMD write: during a job it is refused and sets TD_ERR (R447). -/
def tdCmdWrite (v : Word) (d : Dev) : Dev :=
  (if bitOf v 31 && bitOf v 0 then (if d.au.job.isSome then d.setBit Reg.AU_FLAGS 11 else jobStart none d) else d).okay

/-- A write of a register of the AUDIO page. -/
def auWrite (o : Nat) (v : Word) (d : Dev) : Dev :=
  let keep (m : Word) : Dev := (d.wr (0xF0000 + o) (v &&& m)).okay
  if o = 0x008 then (d.wr Reg.AU_FLAGS (d.rd Reg.AU_FLAGS &&& ~~~ v)).okay
  else if o = 0x00C then keep 0x7FFF
  else if o = 0x010 || o = 0x014 || o = 0x018 then keep 0xFFFFFFFF
  else if 0x100 ≤ o && o < 0x300 then inCfgWrite ((o - 0x100) / 4) v d
  else if 0x800 ≤ o && o < 0x900 then
    let p := (o - 0x800) / 0x20
    match o % 0x20 with
    | 0 => tdmCfgWrite p v d
    | 4 => (d.wr (Reg.TDM_STATUS p) (d.rd (Reg.TDM_STATUS p) &&& ~~~ (v &&& 2))).okay
    | 8 | 12 | 16 | 20 => keep 0xBFBFBFBF
    | _ => d.okay
  else if 0x900 ≤ o && o < 0x980 then keep 0xFF
  else if o = 0x980 then settleHolds (withdrawn d (keep 0xFFFF))
  else if 0xA00 ≤ o && o < 0xF00 then streamWrite ((o - 0xA00) / 16) (o % 16 / 4) v d
  else match o with
    | 0x1000 => keep 0xFFFFFFFF
    | 0x1004 => if fld v 26 16 = 0 || 1024 < fld v 26 16 then auRefuse d else keep 0x07FFFFFF
    | 0x1008 => xsCmdWrite v d
    | 0x1010 => keep 0xF
    | 0x2000 => if 25 ≤ fld v 4 0 then auRefuse d else keep 0x1F
    | 0x2004 | 0x200C => keep 0xFFFFFFFC
    | 0x2008 | 0x2010 => keep 0xFFFF
    | 0x2014 => if fld v 15 0 = 0 then auRefuse d else keep 0xFFFF
    | 0x2018 => tdCmdWrite v d
    | 0x201C => keep 0xFFFFFFFF
    | _ => if 0x2100 ≤ o && o < 0x2200 then keep 0xFFFFFFFF else d.okay

/-- A write of GAIN[o][i] at page offset x (R451): a read returns the target at once; the node takes it at the next block, and a lent
row takes its coefficient at once (R444). -/
def gainWrite (x : Nat) (v : Word) (d : Dev) : Dev :=
  let o := x / 512
  let d := d.wr (0x100000 + x) (v &&& 0xFFFF)
  (if isLent d o then d else auStage (.gain o (x / 4 % 128) (sfld v 15 0)) d).okay

/-! ### Voice registers -/

/-- A V_CMD command: 1 START, 2 KEY_OFF, 3 STOP (R428). -/
def voiceCmd (v cmd : Nat) (d : Dev) : Dev := if v < voiceCount d && cmd ≠ 0 then auStage (.voice v cmd) d else d

/-- Whether a sample address is misaligned for the voice's FORMAT (R425). DEDUCED, log entry 99. -/
def voiceMisaligned (d : Dev) (v : Nat) (a : Word) : Bool :=
  match d.fld (Reg.V_CTRL v) 1 0 with
  | 1 => fld a 0 0 != 0
  | 3 => fld a 1 0 != 0
  | _ => false

/-- A write of a register of the VOICES page. -/
def voiceWrite (o : Nat) (w : Word) (d : Dev) : Dev :=
  let v := (o - 0x8000) / 0x40
  let keep (m : Word) : Dev := (d.wr (0x110000 + o) (w &&& m)).okay
  if o < 0x8000 || !(v < voiceCount d) then d.okay
  else match o % 0x40 with
    | 0x00 => keep 0xFFF
    | 0x04 => if voiceMisaligned d v w then voiceRefuse v d else keep 0xFFFFFFFF
    | 0x08 => keep 0xFFFF
    | 0x0C => if w = 0 then voiceRefuse v d else keep 0xFFFFFFFF
    | 0x10 => keep 0xFFFFFFFF
    | 0x14 => if 0x08000000 < w.toNat then voiceRefuse v d else keep 0xFFFFFFFF
    | 0x18 | 0x1C | 0x20 => keep 0xFFFFFFFF
    | 0x24 | 0x28 | 0x2C | 0x30 => keep 0xFFFF007F
    | 0x34 => (if bitOf w 31 then voiceCmd v (fld w 1 0) d else d).okay
    | 0x3C => (d.wr (Reg.V_STATE v) (d.rd (Reg.V_STATE v) &&& ~~~ (w &&& 0x78))).okay
    | _ => d.okay

/-! ### The steps -/

/-- VOICE_START: V_CMD START (R428). -/
def execVoiceStart (v : Fin 512) (s : State) : Host.Outcome State Fault Refusal := s.next (fun d => (voiceCmd v 1 d).okay)
/-- VOICE_KEY_OFF: V_CMD KEY_OFF (R428). -/
def execVoiceKeyOff (v : Fin 512) (s : State) : Host.Outcome State Fault Refusal := s.next (fun d => (voiceCmd v 2 d).okay)
/-- VOICE_STOP: V_CMD STOP (R428). -/
def execVoiceStop (v : Fin 512) (s : State) : Host.Outcome State Fault Refusal := s.next (fun d => (voiceCmd v 3 d).okay)

/-- The TRIGk task (R448) takes effect at the next block (R422). -/
def trigTask (k : Nat) (d : Dev) : Dev :=
  match takeTask (0x2A0 + k) d with
  | some (_, d) => auStage (.trig k) d
  | none => d
/-- VOICE_TRIG. -/
def execVoiceTrig (k : Fin 8) (s : State) : Host.Outcome State Fault Refusal := s.next (trigTask k)

/-- The sample of the next voice instant of a playing voice will miss its deadline (R429). DEDUCED, log entry 104. -/
def voiceMiss (v : Nat) (d : Dev) : Dev :=
  if (d.voice v).stage = 0 || d.au.missed.contains v then d
  else (((d.bump Reg.V_MISS).setBit Reg.AU_FLAGS 2)).auUpd (fun u => { u with missed := insNat v u.missed })
/-- VOICE_DEADLINE_MISS. -/
def execVoiceDeadlineMiss (v : Fin 512) (s : State) : Host.Outcome State Fault Refusal := s.next (voiceMiss v)

/-- XS_LOAD: an XS_CMD write with LOAD. -/
def execXsLoad (sc : Fin 16) (s : State) : Host.Outcome State Fault Refusal := s.next (fun d => (xsLoad sc d).okay)
/-- XS_FIRE: an XS_CMD write with FIRE. -/
def execXsFire (sc : Fin 16) (s : State) : Host.Outcome State Fault Refusal := s.next (fun d => (xsFire sc d).okay)

/-- The XSCENE task fires the scene in XS_TASK_SEL (R448). -/
def xsceneTask (d : Dev) : Dev :=
  match takeTask 0x2A9 d with
  | some (a, d) => auStage (sceneAct d (d.fld Reg.XS_TASK_SEL 3 0) (some a)) d
  | none => d
/-- XSCENE. -/
def execXscene (s : State) : Host.Outcome State Fault Refusal := s.next xsceneTask

/-- TD_RUN_JOB: a TD_CMD write. -/
def execTdRunJob (v : Word) (s : State) : Host.Outcome State Fault Refusal := s.next (tdCmdWrite v)

/-- The TANDEM_RUN task waits in its pending count while a job runs (R447). -/
def tandemTask (d : Dev) : Dev :=
  if d.au.job.isSome then d
  else match takeTask 0x2A8 d with
    | some (a, d) => jobStart (some a) d
    | none => d
/-- TANDEM_RUN. -/
def execTandemRun (s : State) : Host.Outcome State Fault Refusal := s.next tandemTask

/-- The end of a job (R447). -/
def jobDone (d : Dev) : Dev :=
  match d.au.job with
  | some j =>
    if j.ended then
      fireCause j.cause 0x2F2 (((d.auUpd (fun u => { u with job := none })).bump Reg.TD_JOBS).setBit Reg.AU_FLAGS 10)
    else d
  | none => d
/-- TANDEM_JOB_DONE. -/
def execTandemJobDone (s : State) : Host.Outcome State Fault Refusal := s.next jobDone

/-- METER_READ: a read of METER_IN or METER_OUT (R435). -/
def execMeterRead (m : Fin 256) (s : State) : Host.Outcome State Fault Refusal :=
  s.next (fun d => (meterRestart m d).answer (.ok (meterWord d m)))

end Sys2Proof.Machine
end

