-- ==== Sys2Proof/Machine/FrameVideo.lean ====
section
/-! DEFINITION. Building one line of a FRAME layer (R226 to R228) and one source line of a VIDEO layer (R188, R192, R198). -/
namespace Sys2Proof.Machine

/-- Fetch the 64-byte blocks from k, in order (R228). -/
def blocks : Nat → Nat → Bld → List Fetched × Bld
  | 0, _, b => ([], b)
  | n + 1, k, b =>
    let (r, b) := blockFetch k b
    let (t, b) := blocks n (k + 1) b
    (r :: t, b)

/-- Bytes [a, a + n) of blocks that start at block k0; none where a block was poisoned or not fetched. -/
def blockBytes (bs : List Fetched) (k0 a n : Nat) : Option (List Byte) :=
  match (bs.getD (a / 64 - k0) .fail).good?, (bs.getD ((a + n - 1) / 64 - k0) .fail).good? with
  | some x, some y => if a / 64 = (a + n - 1) / 64 then some ((x.drop (a % 64)).take n) else some (((x ++ y).drop (a % 64)).take n)
  | _, _ => none

/-- Build line n of a FRAME layer of `w` pixels (R226, R228). -/
def buildFrame (f p l n w : Nat) (b : Bld) : List Px × Bld :=
  let d := b.s.dev
  let c := d.rd (Reg.FB_CTRL f p l)
  let x0 := d.fld (Reg.FB_DST f p l) 12 0
  let y0 := d.fld (Reg.FB_DST f p l) 28 16
  let fw := d.fld (Reg.FB_SIZE f p l) 12 0
  let fh := d.fld (Reg.FB_SIZE f p l) 28 16
  if !bitOf c 0 || n < y0 || y0 + fh ≤ n || w ≤ x0 then (List.replicate w noPx, b)
  else
    let fmt := fbFmt (fld c 3 1)
    let m := min fw (w - x0)
    let row := base48 d (Reg.FB_BASE_LO f p l) (Reg.FB_BASE_HI f p l) +
      (n - y0 + d.fld (Reg.FB_SRC f p l) 28 16) * d.fld (Reg.FB_PITCH f p l) 19 0
    let a := row + d.fld (Reg.FB_SRC f p l) 12 0 * fmt.bytes
    let k0 := a / 64
    let (bs, b) := blocks ((a + m * fmt.bytes - 1) / 64 - k0 + 1) k0 b
    ((List.range w).map (fun x =>
      if x < x0 || x0 + m ≤ x then noPx
      else match blockBytes bs k0 (a + (x - x0) * fmt.bytes) fmt.bytes with
        | some v => fmt.px (leNat v) 0
        | none => noPx), b)

/-! ### VIDEO source lines -/

/-- Sample the registers of a VIDEO cell (R192). -/
def vidSample (d : Dev) (f p : Nat) : VidCfg :=
  { enable := d.bit (Reg.VID_CTRL f p 0) 0, format := d.fld (Reg.VID_CTRL f p 0) 2 1
    yBase := base48 d (Reg.VID_Y_BASE_LO f p 0) (Reg.VID_Y_BASE_HI f p 0)
    cBase := base48 d (Reg.VID_C_BASE_LO f p 0) (Reg.VID_C_BASE_HI f p 0)
    yPitch := d.fld (Reg.VID_PITCH f p 0) 15 0, cPitch := d.fld (Reg.VID_PITCH f p 0) 31 16
    w := d.fld (Reg.VID_SIZE f p 0) 12 0, h := d.fld (Reg.VID_SIZE f p 0) 28 16 }

/-- A sample of a plane row: 8-bit samples widen as v << 2, 16-bit samples carry the value in [15:6] (R188, R192). -/
def vidSampleAt (wide : Bool) (row : List Byte) (i : Nat) : Nat :=
  if wide then leNat ((row.drop (2 * i)).take 2) / 64 else (row.getD i 0).toNat * 4

/-- Fetch one plane row of n bytes; none when a fetch is poisoned or not made. -/
def planeRow (a n : Nat) (b : Bld) : Option (List Byte) × Bld :=
  let k0 := a / 64
  let (bs, b) := blocks (if n = 0 then 0 else (a + n - 1) / 64 - k0 + 1) k0 b
  (bs.foldr (fun x t => match x.good?, t with | some y, some z => some (y ++ z) | _, _ => none) (some [])
    |>.map (fun x => (x.drop (a % 64)).take n), b)

/-- Horizontal chroma of luma column i (R192): co-sited with even luma, the mean of two neighbours on odd luma. DEDUCED, log entry 31. -/
def chromaH (wide : Bool) (row : List Byte) (pairs which i : Nat) : Nat :=
  let c (j : Nat) : Nat := vidSampleAt wide row (2 * min j (pairs - 1) + which)
  if i % 2 = 0 then c (i / 2) else (c (i / 2) + c (i / 2 + 1) + 1) / 2

/-- The other chroma row of a 4:2:0 line, repeating the edge row (R192). DEDUCED, log entry 31. -/
def chromaOther (v : VidCfg) (r : Nat) : Nat :=
  let k := r / 2
  if r % 2 = 0 then k - 1 else min (k + 1) (v.h / 2 - 1)

/-- Build source line r of a VIDEO cell: its pixels and whether the line is missing (R192, R198). A disabled cell builds a
transparent line. Horizontal conversion is applied before vertical, in the order of R192 (log entry 31). -/
def buildVideo (v : VidCfg) (r : Nat) (b : Bld) : List Px × Bool × Bld :=
  if !v.enable then (List.replicate v.w noPx, false, b)
  else
    let wide := v.format != 1
    let bytes := if wide then 2 else 1
    let pairs := v.w / 2
    let (yr, b) := planeRow (v.yBase + r * v.yPitch) (v.w * bytes) b
    let k := if v.format = 0 then r else r / 2
    let (cr, b) := planeRow (v.cBase + k * v.cPitch) (pairs * 2 * bytes) b
    let k2 := chromaOther v r
    let (c2, b) := if v.format = 0 || k2 = k then (cr, b) else planeRow (v.cBase + k2 * v.cPitch) (pairs * 2 * bytes) b
    match yr, cr, c2 with
    | some y, some c, some e =>
      let ch (which i : Nat) : Nat :=
        let x := chromaH wide c pairs which i
        if v.format = 0 then x else (3 * x + chromaH wide e pairs which i + 2) / 4
      ((List.range v.w).map (fun i => mkPx 0x3FF (ch 1 i) (vidSampleAt wide y i) (ch 0 i) 0), false, b)
    | _, _, _ => (List.replicate v.w noPx, true, b)

end Sys2Proof.Machine
end

