-- ==== Sys2Proof/Machine/Sprite.lean ====
section
/-! DEFINITION. Sprite layers: the table copy, the selection and the limits of a line, drawing and collisions
(R132 to R155). -/
namespace Sys2Proof.Machine

/-! ### Entries (R135 to R137) -/

/-- X of a sprite. -/
def SprEntry.x (e : SprEntry) : Int := sfld e.w0 15 0
/-- Y of a sprite. -/
def SprEntry.y (e : SprEntry) : Int := sfld e.w0 31 16
/-- Source width. -/
def SprEntry.w (e : SprEntry) : Nat := 8 * 2 ^ fld e.w1 3 1
/-- Source height. -/
def SprEntry.h (e : SprEntry) : Nat := 8 * 2 ^ fld e.w1 6 4
/-- FORMAT. -/
def SprEntry.fmt (e : SprEntry) : Nat := fld e.w1 9 7
/-- ZX + 1. -/
def SprEntry.zx (e : SprEntry) : Nat := fld e.w2 5 0 + 1
/-- ZY + 1. -/
def SprEntry.zy (e : SprEntry) : Nat := fld e.w2 11 6 + 1
/-- CCLASS. -/
def SprEntry.cc (e : SprEntry) : Nat := fld e.w1 16 14
/-- Drawn width Wd (R137). -/
def SprEntry.wd (e : SprEntry) : Nat := (e.w * e.zx + 15) / 16
/-- Drawn height Hd (R137). -/
def SprEntry.hd (e : SprEntry) : Nat := (e.h * e.zy + 15) / 16
/-- Source column of drawn column i, before a flip (R139). -/
def SprEntry.col (e : SprEntry) (i : Nat) : Nat := i * 16 / e.zx

/-- An entry whose sizes or format make it disabled (R135). -/
def entryBad (w1 : Word) : Bool := fld w1 3 1 ≥ 6 || fld w1 6 4 ≥ 6 || fld w1 9 7 = 7

/-- Copy one table entry (R133, R135, R154, R155). DEDUCED, log entry 56. -/
def copyEntry (f p l i : Nat) (s : State) : SprEntry × State :=
  let a := base48 s.dev (Reg.SPR_TABLE_LO f p l) (Reg.SPR_TABLE_HI f p l) + 16 * i
  let (r, s) := fetch 0 a 16 s
  match r with
  | .data b =>
    let w (k : Nat) : Word := w32 (leNat ((b.drop (4 * k)).take 4))
    let bad := entryBad (w 1)
    (⟨w 0, w 1, w 2, w 3, bitOf (w 1) 0 && !bad⟩, if bad then s.upd (fun d => d.setBit (Reg.SPR_STATUS f p l) 3) else s)
  | .poison _ => (⟨0, 0, 0, 0, false⟩, s.upd (fun d => (d.setBit (Reg.SPR_STATUS f p l) 1).bump (Reg.POISON_COUNT f p l)))
  | .fail => (⟨0, 0, 0, 0, false⟩, s.upd (fun d => d.setBit (Reg.SPR_STATUS f p l) 0))

/-- Copy the table into the attribute store (R133, R134). DEDUCED, log entry 56. -/
def copyTable (f p l : Nat) (s : State) : State :=
  let (es, s) := forN (s.dev.fld (Reg.SPR_COUNT f p l) 12 0) ([], s) (fun i (r : List SprEntry × State) =>
    let (e, s) := copyEntry f p l i r.2
    (e :: r.1, s))
  s.upd (fun d => d.updLayer f p l (fun y => { y with attr := es.reverse, reload := false }))

/-! ### Selection and limits (R138, R143 to R145) -/

/-- A selected sprite: its index, its entry, the first drawn pixel of the line and how many pixels. -/
structure SprSel where
  idx : Nat
  e : SprEntry
  x0 : Nat
  n : Nat
  deriving DecidableEq, Repr

/-- The part of a sprite's span within the active pixels, when the sprite meets line n (R138). -/
def selectOne (n w i : Nat) (e : SprEntry) : Option SprSel :=
  if e.ok && e.y ≤ (n : Int) && (n : Int) < e.y + e.hd then
    let lo := max e.x 0
    let hi := min (e.x + e.wd) (w : Int)
    if lo < hi then some ⟨i, e, lo.toNat, (hi - lo).toNat⟩ else none
  else none

/-- The sprites that meet line n, in index order. -/
def selectAll (n w : Nat) (es : List SprEntry) : List SprSel :=
  (es.zipIdx).filterMap (fun p => selectOne n w p.2 p.1)

/-- The fill cost of the leftmost k pixels of a selected sprite (R144). -/
def SprSel.cost (s : SprSel) (k : Nat) : Nat :=
  if k = 0 then 0
  else
    let i := ((s.x0 : Int) - s.e.x).toNat
    max k (s.e.col (i + k - 1) - s.e.col i + 1)

/-- The largest k up to n whose cost is within the budget (R145). -/
def SprSel.fit (s : SprSel) (budget : Nat) : Nat → Nat
  | 0 => 0
  | k + 1 => if s.cost (k + 1) ≤ budget then k + 1 else s.fit budget k

/-- Apply the fill budget in index order: the sprites with the pixels they draw, and the index of the first one not drawn in
full (R145). -/
def fillLimit : Nat → List SprSel → List SprSel × Option Nat
  | _, [] => ([], none)
  | budget, s :: l =>
    if s.cost s.n ≤ budget then
      let (r, o) := fillLimit (budget - s.cost s.n) l
      (s :: r, o)
    else ([{ s with n := s.fit budget s.n }], some s.idx)

/-! ### Drawing (R139 to R141, R153 to R155) -/

/-- A drawn sprite: where its first pixel lies, and its pixels, transparent where it is not opaque. -/
structure Drawn where
  idx : Nat
  cc : Nat
  x0 : Nat
  px : List Px
  deriving DecidableEq, Repr

/-- The opaque pixel of a drawn sprite at x, if any. -/
def Drawn.at? (s : Drawn) (x : Nat) : Px := if x < s.x0 then noPx else s.px.getD (x - s.x0) noPx

/-- Remembered 64-byte lines of one sprite row. -/
def lineOf (k : Nat) (m : List (Nat × List Fetched)) (b : Bld) : List Fetched × List (Nat × List Fetched) × Bld :=
  match m.find? (fun e => e.1 == k) with
  | some e => (e.2, m, b)
  | none =>
    let (r, b) := cacheLine 0 k b
    (r, (k, r) :: m, b)

/-- Draw one sprite on line n: its row of source pixels, coloured (R139, R140). Poison in its data leaves none of its pixels
of the line opaque (R155); pixels not fetched are not opaque (R154). -/
def drawSprite (f p l n : Nat) (s : SprSel) (b : Bld) : Drawn × Bld :=
  let d := b.s.dev
  let e := s.e
  let tz := d.bit (Reg.SPR_CTRL f p l) 1
  let bpp := tileBpp e.fmt
  let sy0 := ((n : Int) - e.y).toNat * 16 / e.zy
  let sy := if bitOf e.w1 11 then e.h - 1 - sy0 else sy0
  let row := base48 d (Reg.SPR_DATA_LO f p l) (Reg.SPR_DATA_HI f p l) + 64 * e.w3.toNat + sy * (e.w * bpp / 8)
  let (px, used, _, b) := forN s.n (([], [], [], b) : List Px × List Fetched × List (Nat × List Fetched) × Bld) (fun i r =>
    let x := s.x0 + i
    if !drawnAt d f p l n x then (noPx :: r.1, r.2)
    else
      let c0 := e.col ((x : Int) - e.x).toNat
      let c := if bitOf e.w1 10 then e.w - 1 - c0 else c0
      let a := row + c * bpp / 8
      let (ws, m, b) := lineOf (a / 64) r.2.2.1 r.2.2.2
      let y := wordsCut ws (a / 64 * 2) a (max 1 (bpp / 8))
      let q := match y.good? with
        | some z =>
          let v := if bpp = 4 then (let o := (z.getD 0 0).toNat; if c % 2 = 0 then o % 16 else o / 16) else leNat z
          sourcePx d f p e.fmt (fld e.w1 24 17) (fld e.w1 13 12) v tz
        | none => noPx
      (q :: r.1, y :: r.2.1, m, b))
  let poisoned := used.any (fun y => match y with | .poison _ => true | _ => false)
  (⟨s.idx, e.cc, s.x0, if poisoned then [] else px.reverse⟩, b)

/-- Draw the sprites of a line in index order. -/
def drawAll (f p l n : Nat) : List SprSel → Bld → List Drawn × Bld
  | [], b => ([], b)
  | s :: r, b =>
    let (x, b) := drawSprite f p l n s b
    let (xs, b) := drawAll f p l n r b
    (x :: xs, b)

/-- The pixel in front at x: the lowest index (R139). -/
def frontAt (ds : List Drawn) (x : Nat) : Px :=
  match ds with
  | [] => noPx
  | s :: r => if pxOpaque (s.at? x) then s.at? x else frontAt r x

/-! ### Collisions (R148, R149) -/

/-- Whether the classes of two sprites form an enabled pair (R148). -/
def pairEnabled (d : Dev) (f p l a b : Nat) : Bool :=
  let i := 8 * min a b + max a b
  a ≥ 1 && b ≥ 1 && (if i < 32 then d.bit (Reg.COLL_PAIR_LO f p l) i else d.bit (Reg.COLL_PAIR_HI f p l) (i - 32))

/-- The lowest pixel of the line at which two drawn sprites are both opaque. -/
def firstContact (a b : Drawn) : Option Nat :=
  ((List.range a.px.length).map (· + a.x0)).find? (fun x => pxOpaque (a.at? x) && pxOpaque (b.at? x))

/-- The contacts of line n in order of PIXEL, then SPR_A, then SPR_B (R152). -/
def contacts (d : Dev) (f p l n frame : Nat) (frameHt : Option Nat) : List Drawn → List CollRec
  | [] => []
  | a :: r =>
    (r.filterMap (fun b =>
      if pairEnabled d f p l a.cc b.cc then
        (firstContact a b).map (fun x => ⟨a.idx, b.idx, a.cc, b.cc, n, x, frame, frameHt⟩)
      else none)) ++ contacts d f p l n frame frameHt r

/-- Insert a contact in the order of R152. -/
def insColl (c : CollRec) : List CollRec → List CollRec
  | [] => [c]
  | b :: l =>
    if c.pixel < b.pixel || (c.pixel = b.pixel && (c.sprA < b.sprA || (c.sprA = b.sprA && c.sprB < b.sprB))) then c :: b :: l
    else b :: insColl c l

/-- Record the first sprite not drawn in full on the frame's first overflowing line, and fire SPRITE_OVF there (R146). -/
def noteOverflow (f p l n idx : Nat) (d : Dev) : Dev :=
  let first := ((d.cell f p).layer l).ovfFirst.isNone
  let d := d.updLayer f p l (fun y =>
    { y with ovfLines := min 0xFFFF (y.ovfLines + 1), ovfFirst := if first then some (n, idx) else y.ovfFirst })
  if first then fire (0x100 + 16 * f + 2 * p) d else d

/-- Build line n of a frame of a SPRITE layer of `w` pixels (R138 to R149). -/
def buildSprite (f p l n w frame : Nat) (frameHt : Option Nat) (b : Bld) : List Px × Bld :=
  let d := b.s.dev
  let c := d.rd (Reg.SPR_CTRL f p l)
  let clear (b : Bld) : Bld := { b with s := b.s.upd (fun d => d.updLayer f p l (fun y => { y with lineColl := [] })) }
  if !bitOf c 0 then (List.replicate w noPx, clear b)
  else
    let all := selectAll n w ((d.cell f p).layer l).attr
    let limit := d.fld (Reg.SPR_LIMITS f p l) 8 0
    let sel := all.take limit
    let budget := let v := d.fld (Reg.SPR_LIMITS f p l) 29 16; if v = 0 || v > 2 * w then 2 * w else v
    let (drawn, cut) := fillLimit budget sel
    let beyond := (all.drop limit).head?.map (·.idx)
    let (ds, b) := drawAll f p l n drawn b
    let demand := sel.foldl (fun t s => t + s.cost s.n) 0
    let colls := if bitOf c 2 then (contacts b.s.dev f p l n frame frameHt ds).foldl (fun t x => insColl x t) [] else []
    let stats (d : Dev) : Dev :=
      let d := d.updLayer f p l (fun y => { y with
        lineColl := colls, selMax := max y.selMax sel.length, demand := max y.demand (min 0xFFFF demand) })
      let d := if beyond.isSome then d.setBit (Reg.SPR_STATUS f p l) 4 else d
      let d := if cut.isSome then d.setBit (Reg.SPR_STATUS f p l) 5 else d
      match cut, beyond with
      | some i, _ => noteOverflow f p l n i d
      | none, some i => noteOverflow f p l n i d
      | none, none => d
    ((List.range w).map (frontAt ds), { b with s := b.s.upd stats })

end Sys2Proof.Machine
end

