-- ==== Sys2Proof/Machine/Tile.lean ====
section
/-! DEFINITION. Building one line of a TILE layer (R108 to R129). -/
namespace Sys2Proof.Machine

/-- Where the edge rule puts a raw coordinate (R112). -/
inductive EdgeAt where
  | clear
  | tile0 (px py : Nat)
  | inside (u v : Nat)
  deriving DecidableEq, Repr

/-- One axis under WRAP or CLAMP. -/
def edgeAxis (e : Nat) (size : Nat) (u : Int) : Nat :=
  if e = 1 then (clampI 0 (size - 1) u).toNat else (u % (size : Int)).toNat

/-- The edge rule (R112). -/
def edgeRule (ex ey lw lh ts : Nat) (u v : Int) : EdgeAt :=
  let outU := u < 0 || (lw : Int) ≤ u
  let outV := v < 0 || (lh : Int) ≤ v
  if (outU && ex == 2) || (outV && ey == 2) then .clear
  else if (outU && ex == 3) || (outV && ey == 3) then .tile0 (u % (ts : Int)).toNat (v % (ts : Int)).toNat
  else .inside (if outU then edgeAxis ex lw u else u.toNat) (if outV then edgeAxis ey lh v else v.toNat)

/-- How a line of a TILE layer maps pixels to raw coordinates (R109, R113): the start of (u, v) and the step per pixel, both
in 1/65536 px, and whether column scroll applies. -/
structure TileLine where
  u : Int
  v : Int
  du : Int
  dv : Int
  cols : Bool
  deriving DecidableEq, Repr

/-- The register set of a TILE layer as one line samples it (R125). -/
structure TileCfg where
  fmt : Nat
  ts : Nat
  mw : Nat
  mh : Nat
  map : Nat
  base : Nat
  colBase : Nat
  cw : Nat
  ex : Nat
  ey : Nat
  edgeEntry : Word
  tz : Bool
  classFixed : Option Nat
  deriving DecidableEq, Repr

/-- Sample the registers of a TILE layer. -/
def tileCfg (d : Dev) (f p l : Nat) : TileCfg :=
  let c := d.rd (Reg.TILE_CTRL f p l)
  { fmt := fld c 3 1, ts := 8 * 2 ^ fld c 5 4
    mw := 2 ^ d.fld (Reg.MAP_SIZE f p l) 3 0, mh := 2 ^ d.fld (Reg.MAP_SIZE f p l) 7 4
    map := base48 d (Reg.MAP_BASE_LO f p l) (Reg.MAP_BASE_HI f p l)
    base := base48 d (Reg.TILE_BASE_LO f p l) (Reg.TILE_BASE_HI f p l)
    colBase := base48 d (Reg.COL_TABLE_LO f p l) (Reg.COL_TABLE_HI f p l)
    cw := 8 * 2 ^ fld c 11 10, ex := fld c 14 13, ey := fld c 16 15
    edgeEntry := d.rd (Reg.EDGE_ENTRY f p l), tz := bitOf c 12
    classFixed := if bitOf c 17 then some (fld c 19 18) else none }

/-- A little-endian number as a signed one of `bits` bits. -/
def signed (bits v : Nat) : Int := if v < 2 ^ (bits - 1) then (v : Int) else (v : Int) - (2 ^ bits : Nat)

/-- The addressing of line n (R109, R110, R113, R114): none when its table entry is poisoned or not fetched. -/
def tileLine (f p l n : Nat) (b : Bld) : Option TileLine × Bld :=
  let d := b.s.dev
  let c := d.rd (Reg.TILE_CTRL f p l)
  let table := base48 d (Reg.LINE_TABLE_LO f p l) (Reg.LINE_TABLE_HI f p l)
  match fld c 7 6 with
  | 0 =>
    let at' (dx dy : Int) : TileLine :=
      { u := ((d.fld (Reg.SCROLL_X f p l) 16 0 : Int) + dx) * 65536
        v := ((d.fld (Reg.SCROLL_Y f p l) 16 0 : Int) + dy + n) * 65536, du := 65536, dv := 0, cols := bitOf c 9 }
    if bitOf c 8 then
      let (r, b) := cacheRead 1 (table + 4 * n) 4 b
      match r.good? with
      | some x => (some (at' (signed 16 (leNat (x.take 2))) (signed 16 (leNat (x.drop 2)))), b)
      | none => (none, b)
    else (some (at' 0 0), b)
  | 1 =>
    let q (o : Nat) : Int := sword (d.rd o)
    (some { u := 4 * q (Reg.AFF_X0 f p l) + q (Reg.AFF_B f p l) * n
            v := 4 * q (Reg.AFF_Y0 f p l) + q (Reg.AFF_D f p l) * n
            du := q (Reg.AFF_A f p l), dv := q (Reg.AFF_C f p l), cols := false }, b)
  | _ =>
    let (r, b) := cacheRead 1 (table + 16 * n) 16 b
    match r.good? with
    | some x =>
      let q (i : Nat) : Int := signed 32 (leNat ((x.drop (4 * i)).take 4))
      (some { u := 4 * q 0, v := 4 * q 1, du := q 2, dv := q 3, cols := false }, b)
    | none => (none, b)

/-- What the run over a line remembers: the last column table entry, map entry and tile row read, each with its address, so
that a line reads each once while it stays on it; and the pixels so far, last first. -/
structure TileRun where
  b : Bld
  col : Option (Nat × Fetched) := none
  ent : Option (Nat × Fetched) := none
  row : Option (Nat × Fetched) := none
  out : List Px := []

/-- Column group g's scroll (R111): none when the entry is poisoned or not fetched. -/
def tileCol (c : TileCfg) (g : Nat) (r : TileRun) : Option Int × TileRun :=
  let a := c.colBase + 2 * g
  let pick (x : Fetched) : Option Int := x.good?.map (fun y => signed 16 (leNat y))
  let again : Option Int × TileRun :=
    let (y, b) := cacheRead 1 a 2 r.b
    (pick y, { r with b := b, col := some (a, y) })
  match r.col with
  | some (k, x) => if k = a then (pick x, r) else again
  | none => again

/-- The map entry at address a (R118). -/
def tileEntry (a : Nat) (r : TileRun) : Option Word × TileRun :=
  let pick (x : Fetched) : Option Word := x.good?.map (fun y => w32 (leNat y))
  let again : Option Word × TileRun :=
    let (y, b) := cacheRead 1 a 4 r.b
    (pick y, { r with b := b, ent := some (a, y) })
  match r.ent with
  | some (k, x) => if k = a then (pick x, r) else again
  | none => again

/-- The row of tile pixels of n bytes at address a. -/
def tileRow (a n : Nat) (r : TileRun) : Option (List Byte) × TileRun :=
  let again : Option (List Byte) × TileRun :=
    let (y, b) := cacheRead 0 a n r.b
    (y.good?, { r with b := b, row := some (a, y) })
  match r.row with
  | some (k, x) => if k = a then (x.good?, r) else again
  | none => again

/-- The pixel of a map entry at (px, py) of its tile (R117 to R119, R123). -/
def tilePixel (f p : Nat) (c : TileCfg) (e : Word) (px py : Nat) (r : TileRun) : Px × TileRun :=
  let px := if bitOf e 28 then c.ts - 1 - px else px
  let py := if bitOf e 29 then c.ts - 1 - py else py
  let bpp := tileBpp c.fmt
  let rowBytes := c.ts * bpp / 8
  let (x, r) := tileRow (c.base + fld e 19 0 * (rowBytes * c.ts) + py * rowBytes) rowBytes r
  match x with
  | some row => (sourcePx r.b.s.dev f p c.fmt (fld e 27 20) (c.classFixed.getD (fld e 31 30)) (rowPixel bpp row px) c.tz, r)
  | none => (clearPx (c.classFixed.getD (fld e 31 30)), r)

/-- The pixel of a TILE layer at (n, x). Every pixel carries CLASS_FIXED while CLASS_FIXED_EN is 1; one that no map entry supplies carries
tag 0 otherwise (R123). DESIGN CHOICE, log entry 123. -/
def tileAt (f p l n : Nat) (c : TileCfg) (t : TileLine) (x : Nat) (r : TileRun) : TileRun :=
  let put (o : Px × TileRun) : TileRun := { o.2 with out := o.1 :: o.2.out }
  let clear : Px := clearPx (c.classFixed.getD 0)
  if !drawnAt r.b.s.dev f p l n x then put (clear, r)
  else
    let (dc, r) := if t.cols then tileCol c (x / c.cw) r else (some 0, r)
    match dc with
    | none => put (clear, r)
    | some dc =>
      let u := (t.u + t.du * x) / 65536
      let v := (t.v + t.dv * x) / 65536 + dc
      match edgeRule c.ex c.ey (c.mw * c.ts) (c.mh * c.ts) c.ts u v with
      | .clear => put (clear, r)
      | .tile0 px py => put (tilePixel f p c c.edgeEntry px py r)
      | .inside u v =>
        let (e, r) := tileEntry (c.map + 4 * (v / c.ts * c.mw + u / c.ts)) r
        match e with
        | some e => put (tilePixel f p c e (u % c.ts) (v % c.ts) r)
        | none => put (clear, r)

/-- Build line n of a TILE layer of `w` pixels (R108 to R129). -/
def buildTile (f p l n w : Nat) (b : Bld) : List Px × Bld :=
  let d := b.s.dev
  let c := tileCfg d f p l
  let clear := List.replicate w (clearPx (c.classFixed.getD 0))
  if !d.bit (Reg.TILE_CTRL f p l) 0 then (clear, b)
  else
    let (t, b) := tileLine f p l n b
    match t with
    | none => (clear, b)
    | some t =>
      let r := forN w { b := b } (fun x r => tileAt f p l n c t x r)
      (r.out.reverse, r.b)

end Sys2Proof.Machine
end

