-- ==== Sys2Proof/Machine/Cells.lean ====
section
/-! DEFINITION. Raster cells against the beam (R83 to R92, R127, R133, R134, R149 to R152, R164, R165, R184, R193 to R198,
R227): starting, completing and missing lines, the statistics latch, and collision records. -/
namespace Sys2Proof.Machine

/-! ### Where a head is in its frame -/

/-- STATE of a head (R212): 0 OFF, 1 STOPPED, 2 STARTING, 3 DARK, 4 RUNNING, 5 STANDBY. -/
def headState (d : Dev) (h : Nat) : Nat := d.fld (Reg.HEAD_STATUS h) 2 0

/-- The mirrors of head h (R224). -/
def mirrorsOf (d : Dev) (h : Nat) : List Nat :=
  (List.range 8).filter (fun m => isMirror d m && d.fld (Reg.HEAD_STATUS m) 14 12 == h && headState d m != 0)

/-- The frame and the line whose deadline comes next: in the vertical blanking, line 0 of the next frame. -/
def dueLine (d : Dev) (h : Nat) : Nat × Nat :=
  let x := d.head h
  if x.latched then (x.seq + 1, 0) else (x.seq, x.next)

/-- Whether the cells of a head build: it shows content, or its first content frame has been decided (R213). -/
def headBuilds (d : Dev) (h : Nat) : Bool :=
  headState d h == 4 || (headState d h == 3 && (d.head h).decided)

/-- Whether every slot of a flock is transparent for a re-pen: from its step 2 to its rejoin (R73, R74). -/
def repenBlank (d : Dev) (f : Nat) : Bool :=
  match (d.flock f).repen with | some r => r.step ≥ 2 | none => false

/-- Whether a re-pen keeps the cells of a flock from building: from its step 2 until the probe lines have been checked, when they fill their
line buffers (R74). -/
def repenStops (d : Dev) (f : Nat) : Bool :=
  match (d.flock f).repen with | some r => 2 ≤ r.step && r.step ≤ 4 | none => false

/-- The cells of a flock fill their line buffers for the rejoin of a re-pen, which has checked their probe lines (R74). -/
def repenFills (d : Dev) (f : Nat) : Bool := match (d.flock f).repen with | some r => r.step == 5 | none => false

/-- Whether a takeover of a post runs or waits for a spare (R264, R266). -/
def underTakeover (d : Dev) (f p : Nat) : Bool :=
  (match (d.flock f).takeover with | some t => t.post == p | none => false) || (d.flock f).waiting.any (fun t => t.post == p)

/-- JOINED of a post. -/
def joined (d : Dev) (f p : Nat) : Bool := d.bit (Reg.CELL_STATUS f p) 13

/-- The spare that serves a takeover has loaded and builds ahead of the rejoin (R264 step 5). -/
def spareBuilds (d : Dev) (f p : Nat) : Bool :=
  match (d.flock f).takeover with | some t => t.post == p && t.loaded | none => false

/-- The layers of a post that are active: none for a post of kind off. -/
def activeLayers (d : Dev) (f p : Nat) : List Nat :=
  if kindOf d f p = 0 then [] else if twinOf d f p then [0, 1] else [0]

/-! ### Video slots (R193 to R195) -/

/-- LEND_DEPTH in buffers (R30, R193). -/
def lendDepth (d : Dev) : Nat := 4 * d.fld Reg.MODE 7 6

/-- The posts of kind off of a flock, in order. -/
def offPosts (d : Dev) (f : Nat) : List Nat := (List.range 8).filter (fun p => kindOf d f p == 0)
/-- The VIDEO posts of a flock, in order. -/
def videoPosts (d : Dev) (f : Nat) : List Nat := (List.range 8).filter (fun p => kindOf d f p == 4)
/-- The lender posts of VIDEO post p (R193). -/
def lenders (d : Dev) (f p : Nat) : List Nat :=
  let n := lendDepth d / 4
  ((offPosts d f).drop (n * (videoPosts d f).idxOf p)).take n
/-- Whether a post lends its buffers. -/
def isLender (d : Dev) (f p : Nat) : Bool := (videoPosts d f).any (fun v => (lenders d f v).contains p)

/-- The slot of head h that a layer of a post feeds. -/
def slotOf (d : Dev) (h f p l : Nat) : Option Nat :=
  (List.range 32).find? (fun s =>
    let w := d.rd (Reg.SLOT_SRC h s)
    fld w 7 0 == f && fld w 11 8 == p && fld w 12 12 == l)

/-- The geometry of video slot v that the registers give now (R194, R195). -/
def vsGeom (d : Dev) (h v : Nat) (c : VidCfg) : VsCfg :=
  let pos := d.rd (Reg.VS_DST_POS h v)
  let size := d.rd (Reg.VS_DST_SIZE h v)
  let w := fld size 12 0
  let t := fld size 28 16
  let okH := w ≤ 8 * c.w && c.w ≤ 4 * w
  let okV := t ≤ 8 * c.h && c.h ≤ (lendDepth d / 4 + 1) * t
  { x := fld pos 12 0, y := fld pos 28 16, w := w, h := t, srcW := c.w, srcH := c.h, ok := okH && okV }

/-- The source row j of R194 for destination row i: floor(pv / 65536), and its phase. -/
def vsRow (g : VsCfg) (i : Nat) : Int × Nat :=
  let step := g.srcH * 65536 / g.h
  let pv : Int := (i * step : Nat) + (step / 2 : Nat) - 32768
  (pv / 65536, (pv % 65536).toNat / 1024)

/-- Clamp a source index. -/
def clampIdx (n : Nat) (i : Int) : Nat := (clampI 0 (n - 1) i).toNat

/-- The source rows that output line n of a video slot needs: none outside its rectangle (R194, R197). -/
def vsTaps (g : VsCfg) (n : Nat) : List Nat :=
  if n < g.y || g.y + g.h ≤ n || g.h = 0 then []
  else (List.range 4).map (fun t => clampIdx g.srcH ((vsRow g (n - g.y)).1 - 1 + t))

/-- The first output line that needs source row r (R197), searching `fuel` lines from n. -/
def firstUse (g : VsCfg) (r : Nat) : Nat → Nat → Nat
  | 0, n => n
  | k + 1, n => if (vsTaps g n).any (fun t => r ≤ t) then n else firstUse g r k (n + 1)

/-- What a VIDEO cell builds with: the values that it sampled, or before its first source line 0 its registers (R192). -/
def vidNow (d : Dev) (f p : Nat) : VidCfg := let x := (d.cell f p).vid; if x.w = 0 then vidSample d f p else x

/-- The video slot index of a VIDEO post, and its geometry: as sampled while a frame is read, else as the registers stand. -/
def vsOf (d : Dev) (f p : Nat) : VsCfg :=
  let h := flockHead d f
  match slotOf d h f p 0 with
  | some s =>
    let v := d.fld (Reg.SLOT_SRC h s) 15 14
    let c := vidNow d f p
    if (d.head h).latched || (d.head h).next = 0 then vsGeom d h v c else (d.head h).dst.getD v (vsGeom d h v c)
  | none => vsGeom d h 0 (vidSample d f p)

/-! ### Starting a line (R83 to R85, R160, R164) -/

/-- Whether a line of a head is released to its cells (R160, R162). -/
def released (d : Dev) (h frame n : Nat) : Bool :=
  let e := d.ls h
  !d.bit (Reg.LS_BANK h) 4 || (e.frame == frame && (e.ended || n < e.line || (n = e.line && 0 < e.pixel))) || frame < e.frame

/-- The frame and line that a layer owes next: after the last line of a frame, line 0 of the following one. -/
def owedLine (d : Dev) (f p l : Nat) : Nat × Nat :=
  let y := (d.cell f p).layer l
  let last := if kindOf d f p = 4 then (vidNow d f p).h else (modeOf d (flockHead d f)).vAct
  if y.next ≥ last then (y.frame + 1, 0) else (y.frame, y.next)

/-- The output line at which a layer's line is first read: the line itself, or a source line's first use (R165, R197). -/
def readAt (d : Dev) (f p n : Nat) : Nat :=
  if kindOf d f p = 4 then
    let g := vsOf d f p
    firstUse g n g.h g.y
  else n

/-- How many lines may be held for a layer: two in a twin cell, four in another, and for a VIDEO cell its own four and those that its
slot borrows (R83, R85, R86, R193). DEDUCED, log entry 140. -/
def bufCount (d : Dev) (f p : Nat) : Nat :=
  if twinOf d f p then 2 else if kindOf d f p = 4 then 4 + lendDepth d else 4

/-- Whether an entry of `bufs` takes a buffer: the mark of a missing source line takes none (R88, R198). -/
def LineBuf.held (b : LineBuf) : Bool := !b.done || !b.px.isEmpty

/-- The last source row that the output lines read so far in the frame need, if any does. -/
def rowsRead (d : Dev) (f p : Nat) : Option Nat :=
  let x := d.head (flockHead d f)
  let g := vsOf d f p
  if x.latched || x.next ≤ g.y || g.h = 0 then none else some ((vsTaps g (min (x.next - 1) (g.y + g.h - 1))).foldl max 0)

/-- Whether a layer runs no further ahead than its kind allows (R83 to R86): three lines past the line being read, one in a twin cell,
three source lines past the last row read and the slot's own buffers in a VIDEO cell; lines of the next frame only in the blanking. -/
def aheadOk (d : Dev) (f p frame n : Nat) : Bool :=
  let x := d.head (flockHead d f)
  if frame = x.seq && !x.latched then
    if kindOf d f p = 4 then n < bufCount d f p + (match rowsRead d f p with | some r => r | none => 0)
    else n ≤ x.next + (if twinOf d f p then 0 else 2)
  else frame = x.seq + 1 && x.latched && n < (if twinOf d f p then 1 else if kindOf d f p = 4 then bufCount d f p else 3)

/-- In a twin cell layer 1 follows layer 0 line by line (R85). -/
def turnOk (d : Dev) (f p l : Nat) : Bool :=
  if twinOf d f p then
    let a := owedLine d f p 0
    let b := owedLine d f p 1
    if l = 0 then a = b || a.1 < b.1 || (a.1 = b.1 && a.2 < b.2) else b.1 < a.1 || (b.1 = a.1 && b.2 < a.2)
  else l = 0

/-- The line that layer l of post p may start now, if any (R83, R101, R160). -/
def mayStart (d : Dev) (f p l : Nat) : Option (Nat × Nat) :=
  let h := flockHead d f
  let c := d.cell f p
  let o := owedLine d f p l
  let mine := c.bufs.filter (fun b => b.held && (!twinOf d f p || b.layer == l))
  if (activeLayers d f p).contains l && h < 8 && headBuilds d h && postCell d f p ≠ 15 &&
      (joined d f p || spareBuilds d f p || (repenFills d f && !underTakeover d f p)) && !repenStops d f && c.bufs.all (·.done) && mine.length < bufCount d f p &&
      turnOk d f p l && aheadOk d f p o.1 o.2 && released d h o.1 (readAt d f p o.2) &&
      !((d.flock f).probing && d.fld (Reg.FLOCK_STATUS f) 15 12 == p && o.2 > 2)
  then some o else none

/-- STATUS and POISON_COUNT of a layer after a build (R128, R129). DEDUCED, log entry 66. -/
def noteBuild (f p l : Nat) (failed : Bool) (poison fills : Nat) (d : Dev) : Dev :=
  let st := cellOff f p (0x170 + l * 0xF00)
  let d := if failed then d.setBit st 0 else d
  let d := if poison = 0 then d else (d.setBit st 1).bumpBy (st + 4) poison
  d.updLayer f p l (fun y => { y with fills := y.fills + fills })

/-- FRAME_INV of a layer (R127, R153). -/
def frameInv (d : Dev) (f p l : Nat) : Bool :=
  match kindOf d f p with
  | 1 => d.bit (Reg.TILE_CTRL f p l) 20
  | 2 => d.bit (Reg.SPR_CTRL f p l) 3
  | _ => false

/-- The herd time at which a head starts scanning a frame, as far as it is known: of a frame that runs, or one predicted, its Fs; of the
frame after the present one its epoch, unless the panel's TE edge will set it (R150, R210, R222). DEDUCED, log entry 124. -/
def frameStart (d : Dev) (h frame : Nat) : Option Nat :=
  let x := d.head h
  if frame ≤ x.seq then some x.fs
  else if x.predicted then some x.predFs
  else if isCommand d h then none
  else some ((modeOf d h).fs (x.k + 1))

/-- An armed flip at line 0 (R227). -/
def takeFlip (f p l : Nat) (d : Dev) : Dev :=
  if d.bit (Reg.FB_FLIP f p l) 0 then
    (((d.wr (Reg.FB_BASE_LO f p l) (d.rd (Reg.FB_NEXT_LO f p l))).wr (Reg.FB_BASE_HI f p l) (d.rd (Reg.FB_NEXT_HI f p l))).clrBit
      (Reg.FB_FLIP f p l) 0).setBit (Reg.FB_STATUS f p l) 3
  else d

/-- What happens to a cell at the instant it starts a line, before it samples its registers: staged writes, cache discards
(`evict` names cached lines that the undefined replacement has dropped, R126), and a flip. DESIGN CHOICE, log entry 59. -/
def prepareLine (f p l frame n : Nat) (evict : List Nat) (d : Dev) : Dev :=
  let d := if l = 0 then applyStaged f p frame (readAt d f p n) d else d
  let c := d.cell f p
  let drop := c.inv || (n = 0 && l = 0 && (frameInv d f p 0 || (twinOf d f p && frameInv d f p 1)))
  let d := d.updCell f p (fun c => { c with
    cache := if drop then [] else Store.keep (fun k => !evict.contains k) c.cache, inv := false })
  let d := if kindOf d f p = 3 && n = 0 then takeFlip f p l d else d
  if kindOf d f p = 4 && n = 0 then d.updCell f p (fun c => { c with vid := vidSample d f p }) else d

/-- Build the pixels of line n of a layer: the pixels, whether a video line is missing, and the build. -/
def buildLine (f p l frame n : Nat) (s : State) : List Px × Bool × Bld :=
  let d := s.dev
  let b : Bld := { s := s, cache := (d.cell f p).cache }
  let w := (modeOf d (flockHead d f)).hAct
  match kindOf d f p with
  | 1 => let (x, b) := buildTile f p l n w b; (x, false, b)
  | 2 => let (x, b) := buildSprite f p l n w frame (if frame ≤ (d.head (flockHead d f)).seq then frameStart d (flockHead d f) frame else none) b; (x, false, b)
  | 3 => let (x, b) := buildFrame f p l n w b; (x, false, b)
  | _ => buildVideo (d.cell f p).vid n b

/-- The layer registers of a post. -/
def layerRegs (d : Dev) (f p : Nat) : Store Word := Store.keep (fun o => cellOff f p 0x100 ≤ o && o < cellOff f p 0x2000) d.regs

/-- Start the line that is due on a layer (R83): the cell applies the staged writes, samples its registers and builds the
line with them. `late` fetches are served after the line's deadline (R462). DESIGN CHOICE, log entry 16. -/
def lineStart (f p l : Nat) (evict : List Nat) (late : Nat) (s : State) : State :=
  match mayStart s.dev f p l with
  | none => s
  | some (frame, n) =>
    let s := s.upd (prepareLine f p l frame n evict)
    let s := if kindOf s.dev f p = 2 && ((s.dev.cell f p).layer l).reload then copyTable f p l s else s
    let (px, miss, b) := buildLine f p l frame n s
    let regs := layerRegs s.dev f p
    b.s.upd (fun d =>
      let d := noteBuild f p l b.failed b.poison b.fills d
      let d := d.updCell f p (fun c =>
        { c.updLayer l (fun y => { y with frame := frame, next := n + 1 }) with
          cache := b.cache
          bufs := c.bufs ++ [{ layer := l, frame := frame, line := n, px := px, missing := miss, regs := regs, seen := b.seen.reverse }] })
      lateFetches late d)

/-! ### Palette writes while a line is built (R122) -/

/-- The pixels of a line as they come when the palette writes `undone` have not been made: the same registers, the same data. -/
def rebuild (f p : Nat) (b : LineBuf) (undone : List (Nat × Word)) (s : State) : List Px :=
  let lo := cellOff f p 0x100
  let hi := cellOff f p 0x2000
  let d := { s.dev with regs := Store.keep (fun o => o < lo) s.dev.regs ++ b.regs ++ Store.keep (fun o => hi ≤ o) s.dev.regs }
  let d := undone.reverse.foldl (fun d e => d.wr (cellOff f p e.1) e.2) d
  let w := (modeOf d (flockHead d f)).hAct
  let bld : Bld := { s := { s with dev := d }, cache := [], replay := some b.seen }
  if kindOf d f p = 1 then (buildTile f p b.layer b.line w bld).1 else (buildSprite f p b.layer b.line w b.frame none bld).1

/-- A line whose palette changed while it was built: `marks` gives for each write the first pixel that is built after it, and a pixel
built before a write has the entry as it was (R122). DESIGN CHOICE, log entry 15. -/
def mixLine (f p : Nat) (b : LineBuf) (marks : List Nat) (s : State) : List Px :=
  if b.pal.isEmpty then b.px
  else
    (List.range b.pal.length).reverse.foldl (fun px i =>
      let m := (marks.take (i + 1)).foldl max 0
      (rebuild f p b (b.pal.drop i) s).take m ++ px.drop m) (rebuild f p b [] s)

/-! ### Deadlines (R87, R181, R197) -/

/-- The instant of (0, 0) of the frame to which a line belongs, where the generator gives it. -/
def frameClk (d : Dev) (h frame : Nat) : Option Nat := if frame ≤ (d.head h).seq then some (d.head h).fsClk else nextClk d h

/-- D(n) in picoseconds of the herd clock: 80 pixel periods before (n, 0) of a frame that starts at instant `base`, rounded down. -/
def Mode.deadline (m : Mode) (base n : Nat) : Nat := ((base * m.den + n * m.hTot * m.pn - 80 * m.pn) * 1000) / m.den
/-- Slack in whole pixel periods at instant t picoseconds; negative past the deadline (R87). -/
def Mode.slack (m : Mode) (base n t : Nat) : Int :=
  (((base * 1000 : Nat) : Int) - t) * m.den / ((m.pn * 1000 : Nat) : Int) + (n * m.hTot : Nat) - 80

/-- Time passes until D of output line n of a frame. -/
def toDeadline (h frame n : Nat) (d : Dev) : Dev :=
  match frameClk d h frame with
  | some base => d.passClk (((modeOf d h).deadline base n + 999) / 1000)
  | none => d

/-! ### Completing a line (R87, R92, R149) -/

/-- The slack bin (R91). DESIGN CHOICE, log entry 67. -/
def slackBin (k : Nat) : Nat :=
  if k < 64 then 0 else if k < 128 then 1 else if k < 256 then 2 else if k < 512 then 3
  else if k < 1024 then 4 else if k < 2048 then 5 else if k < 4096 then 6 else 7

/-- Add 1 to entry i of a list of counts that hold at 0xFFFF. -/
def bumpAt (i : Nat) (l : List Nat) : List Nat := (l.zipIdx).map (fun p => if p.2 = i then min 0xFFFF (p.1 + 1) else p.1)

/-- The conditions of R94 no longer hold: the count of 1 s starts again. -/
def railDisturb (d : Dev) : Dev := { d with rail := { d.rail with calmFrom := d.clk } }

/-- A low-slack line (R92): the first of the frame raises the flags and the event; each is reported to the steward.
DESIGN CHOICE, log entry 67. -/
def lowSlack (f p : Nat) (d : Dev) : Dev :=
  let first := !(d.cell f p).low
  let d := { d with rail := { d.rail with low := true } }
  if first then
    fire (0x80 + 2 * f) (((d.updCell f p (fun c => { c with low := true })).setBit (Reg.CELL_EVT f p) 0).setBit (Reg.FLOCK_IRQ f) 0)
  else d

/-- Track a contact for writing: the first of its pair in the frame, up to 1024 pairs (R149); a pair beyond them counts on each line on which
it touches. DESIGN CHOICE, log entry 133. -/
def trackColl (f p l : Nat) (c : CollRec) (d : Dev) : Dev :=
  let y := (d.cell f p).layer l
  if y.pairs.contains (c.sprA, c.sprB) then d
  else if y.pairs.length ≥ 1024 then (d.bump (Reg.COLL_LOST f p l)).setBit (Reg.SPR_STATUS f p l) 8
  else d.updLayer f p l (fun y => { y with pairs := (c.sprA, c.sprB) :: y.pairs, collQ := y.collQ ++ [c] })

/-- The shadow compare of a completed line (R268, R269): `spare` is the line CRC of the spare, when it has completed the line
too. The first mismatch of a frame stops the compare. DESIGN CHOICE, log entry 58. -/
def shadowCompare (f p : Nat) (crc : Word) (spare : Option Word) (d : Dev) : Dev :=
  match spare with
  | none => d
  | some c =>
    if d.fld (Reg.FLOCK_STATUS f) 15 12 = p && !(d.flock f).mismatch && c ≠ crc then
      (d.updFlock f (fun x => { x with mismatch := true })).bump Reg.SHADOW_MISMATCH
    else d

/-- Line `b` of a post completes with a slack and pixels. -/
def completeLine (f p slack : Nat) (b : LineBuf) (px : List Px) (spare : Option Word) (d : Dev) : Dev :=
  let slack := min 65535 slack
  let crc := lineCrc px
  let d := d.updCell f p (fun c => { c with
    bufs := c.bufs.map (fun x => if x.done then x else { x with px := px, done := true, regs := [], pal := [], seen := [] })
    slackMin := min c.slackMin slack, hist := bumpAt (slackBin slack) c.hist })
  let d := d.wr (Reg.CELL_SLACK_LAST f p) (w32 slack)
  let d := if b.layer = 0 then d.wr (Reg.CELL_LINE_CRC f p) crc else d
  let d := if slack < d.fld (Reg.SLACK_FLOOR f) 15 0 then lowSlack f p d else d
  let d := ((d.cell f p).layer b.layer).lineColl.foldl (fun d c => trackColl f p b.layer c d) d
  let d := d.updLayer f p b.layer (fun y => { y with lineColl := [] })
  shadowCompare f p crc spare d

/-! ### Missing a line (R88, R198) -/

/-- What every miss does. -/
def noteMiss (f p : Nat) (d : Dev) : Dev :=
  let d := d.updCell f p (fun c => { c with missed := min 0xFFFF (c.missed + 1) })
  let d := ((d.bump (Reg.CELL_MISS f p)).setBit (Reg.CELL_EVT f p) 1).setBit (Reg.FLOCK_IRQ f) 1
  fire (0x81 + 2 * f) (railDisturb d)

/-- Whether a post owes lines to its head now: it is active, has a cell that has joined, and no re-pen or takeover makes its
slots transparent (R89). -/
def owesLines (d : Dev) (f p : Nat) : Bool :=
  flockHead d f < 8 && headBuilds d (flockHead d f) && postCell d f p ≠ 15 && joined d f p && !repenBlank d f && !underTakeover d f p

/-- A line of a layer of another kind than VIDEO is abandoned at its deadline (R88). -/
def missLine (f p l : Nat) (due : Nat × Nat) (d : Dev) : Dev :=
  noteMiss f p (d.updCell f p (fun c =>
    { c.updLayer l (fun y => { y with frame := due.1, next := due.2 + 1, lineColl := [] }) with
      bufs := c.bufs.filter (fun b => !(b.layer == l && !b.done)) }))

/-- Source row r of a VIDEO cell is abandoned at its deadline, and marked missing (R88, R198). -/
def missRow (f p frame r : Nat) (d : Dev) : Dev :=
  let y := (d.cell f p).l0
  let next := if y.frame < frame || (y.frame = frame && y.next ≤ r) then r + 1 else y.next
  noteMiss f p (d.updCell f p (fun c =>
    { c.updLayer 0 (fun y => { y with frame := frame, next := next }) with
      bufs := c.bufs.filter (fun b => !(b.frame == frame && b.line == r)) ++
        [{ layer := 0, frame := frame, line := r, px := [], done := true, missing := true }] }))

/-- Whether a layer of another kind than VIDEO has not completed a line, nor abandoned it. -/
def lineOwed (d : Dev) (f p l : Nat) (due : Nat × Nat) : Bool :=
  let c := d.cell f p
  let y := c.layer l
  c.bufs.any (fun b => b.layer == l && b.frame == due.1 && b.line == due.2 && !b.done) ||
    decide (y.frame < due.1) || (decide (y.frame = due.1) && decide (y.next ≤ due.2))
/-- The source rows that an output line needs and that a VIDEO cell has neither completed nor abandoned (R197). -/
def rowsOwed (d : Dev) (f p : Nat) (due : Nat × Nat) : List Nat :=
  (vsTaps (vsOf d f p) due.2).eraseDups.filter (fun r => !(d.cell f p).bufs.any (fun b => b.frame == due.1 && b.line == r && b.done))

/-- D(n) of the line that the compositor reads next comes, and a post's layer does not have the line (R88, R197). -/
def lineMissed (f p l : Nat) (d : Dev) : Dev :=
  let h := flockHead d f
  let due := dueLine d h
  if !(activeLayers d f p).contains l || !owesLines d f p then d
  else if kindOf d f p = 4 then
    match rowsOwed d f p due with
    | [] => d
    | rs => rs.foldl (fun d r => missRow f p due.1 r d) (toDeadline h due.1 due.2 d)
  else if lineOwed d f p l due then missLine f p l due (toDeadline h due.1 due.2 d)
  else d

/-- The line under construction completes `lead` picoseconds before its deadline, or as soon after as the time reached allows; one
whose deadline has passed has been missed (R87, R88). DESIGN CHOICE, log entry 67; DESIGN CHOICE, log entry 15. -/
def lineDone (f p lead : Nat) (pal : List Nat) (spare : Option Word) (s : State) : State :=
  let d := s.dev
  match (d.cell f p).bufs.find? (fun b => !b.done) with
  | none => s
  | some b =>
    let h := flockHead d f
    let m := modeOf d h
    let px := mixLine f p b pal s
    match frameClk d h b.frame with
    | none => s.upd (completeLine f p (m.pixels lead) b px spare)
    | some base =>
      let n := readAt d f p b.line
      let t := max (d.clk * 1000) (m.deadline base n - lead)
      let slack := m.slack base n t
      if slack < 0 then s.upd (if kindOf d f p = 4 then missRow f p b.frame b.line else missLine f p b.layer (b.frame, b.line))
      else s.upd (fun d => completeLine f p slack.toNat b px spare (d.passClk (t / 1000)))

/-! ### The statistics latch (R90, R133, R146, R269) -/

/-- Latch the statistics of one post and start new ones. -/
def latchPost (f p : Nat) (d : Dev) : Dev :=
  let c := d.cell f p
  let d := d.wr (Reg.CELL_SLACK_MIN f p) (w32 (c.slackMin + c.missed * 0x10000))
  let d := forN 8 d (fun b d => d.wr (Reg.CELL_SLACK_HIST f p b) (w32 (c.hist.getD b 0)))
  let d := if kindOf d f p ≠ 0 && c.slackMin < 2 * d.fld (Reg.SLACK_FLOOR f) 15 0 then railDisturb d else d
  let d := (activeLayers d f p).foldl (fun d l =>
    let y := c.layer l
    let o := l * 0xF00
    let d := if kindOf d f p ≤ 2 then d.wr (cellOff f p (0x17C + o)) (w32 (min 0xFFFFFFFF y.fills)) else d
    if kindOf d f p = 2 then
      let d := d.wr (cellOff f p (0x180 + o)) (w32 (y.selMax + y.ovfLines * 0x10000))
      let d := d.wr (cellOff f p (0x184 + o)) (w32 y.demand)
      d.wr (cellOff f p (0x188 + o)) (match y.ovfFirst with | some (n, i) => w32 (n + i * 0x10000 + 0x80000000) | none => 0)
    else d) d
  let fresh (y : LayerSt) : LayerSt :=
    { y with fills := 0, selMax := 0, ovfLines := 0, demand := 0, ovfFirst := none, pairs := [] }
  d.updCell f p (fun c => { c with
    slackMin := 0xFFFF, missed := 0, hist := [0, 0, 0, 0, 0, 0, 0, 0], low := false, l0 := fresh c.l0, l1 := fresh c.l1 })

/-- The flocks that serve a head. -/
def flocksOf (d : Dev) (h : Nat) : List Nat := (List.range 16).filter (fun f => flockHead d f == h)

/-- The least CELL_SLACK_MIN of a flock's active posts (FLOCK_SLACK_MIN). -/
def flockMin (d : Dev) (f : Nat) : Nat :=
  (List.range 8).foldl (fun m p => if kindOf d f p = 0 then m else min m (d.fld (Reg.CELL_SLACK_MIN f p) 15 0)) 0xFFFF

/-- Latch one flock. A mismatch of the frame starts the probe (R269); a clean shadow frame hands its post over when a handoff is
due (R272). DEDUCED, log entry 63. -/
def latchFlock (f : Nat) (d : Dev) : Dev :=
  let d := (List.range 8).foldl (fun d p => latchPost f p d) d
  let d := d.wr (Reg.FLOCK_SLACK_MIN f) (w32 (flockMin d f))
  let shadow := d.fld (Reg.FLOCK_STATUS f) 15 12
  d.updFlock f (fun x =>
    if x.mismatch then { x with probing := true }
    else if shadow < 8 && (x.rove || x.want.contains shadow) then
      { x with rove := false, want := x.want.erase shadow, handoff := some shadow }
    else x)

/-- Every sprite table of a head is copied for the frame that follows (R133), that of a layer with ENABLE 0 too. DESIGN CHOICE, log
entry 132. -/
def copyTables (h : Nat) (s : State) : State :=
  (flocksOf s.dev h).foldl (fun s f => (List.range 8).foldl (fun s p =>
    if kindOf s.dev f p = 2 && postCell s.dev f p ≠ 15 && !repenStops s.dev f then
      (activeLayers s.dev f p).foldl (fun s l => copyTable f p l s) s
    else s) s) s

/-- The beam reaches (first blanking line, 0) (R90, R133): once for each frame, after the last active line. A head in STOPPED or
STANDBY latches an empty frame (R214). -/
def statsLatch (h : Nat) (s : State) : State :=
  let d := s.dev
  let x := d.head h
  let st := headState d h
  let blankNow := (st == 4 && !x.latched && !x.reading && x.next ≥ (modeOf d h).vAct) || (st == 3 && !x.latched)
  if blankNow || st == 1 || st == 5 then
    let s := s.upd (fun d =>
      let d := if blankNow then d.beamTo h (modeOf d h).vAct 0 else d
      (flocksOf d h).foldl (fun d f => latchFlock f d) (d.updHead h (fun x => { x with latched := true })))
    if blankNow then copyTables h s else s
  else s

/-! ### Collision records (R150 to R152) -/

/-- FRAME_HT of a record (R150): what was known when the line was built, or what is known now; the start of a frame that waits for a TE edge
is a free value. DEDUCED, log entry 124. -/
def collFrameHt (d : Dev) (h : Nat) (c : CollRec) : Nat × Dev :=
  match c.frameHt, frameStart d h c.frame with
  | some t, _ => (t, d)
  | none, some t => (t, d)
  | none, none =>
    let (v, d) := d.fresh
    let (w, d) := d.fresh
    (v.toNat + w.toNat * 2 ^ 32, d)

/-- The bytes of a record of FRAME_HT `t` that goes to slot w of a ring of 2^k records. -/
def collBytes (c : CollRec) (t l w k : Nat) : List Byte :=
  natBytes 4 (c.sprA + c.sprB * 2 ^ 12 + c.clsA * 2 ^ 24 + c.clsB * 2 ^ 27 + (1 - w / 2 ^ k % 2) * 2 ^ 31) ++
  natBytes 4 (c.line + c.pixel * 2 ^ 16) ++ natBytes 6 (t % 2 ^ 48) ++ natBytes 2 l

/-- The oldest waiting record of a layer is written, or dropped when the ring is full or cannot be written (R151, R154). A record that waits
when COLL_EN changes is still written, with the counts as they then are, and one may lie in a SECURE region. DESIGN CHOICE, log
entry 134. -/
def collWrite (f p l : Nat) (s : State) : State :=
  let d := s.dev
  match ((d.cell f p).layer l).collQ with
  | [] => s
  | c :: rest =>
    let k := d.fld (Reg.COLL_SIZE f p l) 4 0
    let w := (d.rd (Reg.COLL_WR f p l)).toNat
    let pop (d : Dev) : Dev := d.updLayer f p l (fun y => { y with collQ := rest })
    let a := base48 d (Reg.COLL_BASE_LO f p l) (Reg.COLL_BASE_HI f p l) + 16 * (w % 2 ^ k)
    if (d.rd (Reg.COLL_WR f p l) - d.rd (Reg.COLL_RD f p l)).toNat ≥ 2 ^ k then
      s.upd (fun d => ((pop d).updLayer f p l (fun y => { y with pairs := y.pairs.erase (c.sprA, c.sprB) })
        |>.bump (Reg.COLL_LOST f p l)).setBit (Reg.SPR_STATUS f p l) 7)
    else if !memOk d a 16 then s.upd (fun d => (pop d).bump (Reg.COLL_LOST f p l))
    else
      let (t, d) := collFrameHt d (flockHead d f) c
      (memWrite a (collBytes c t l w k) { s with dev := d }).upd (fun d =>
        let was := d.bit (Reg.SPR_STATUS f p l) 6
        let d := ((pop d).wr (Reg.COLL_WR f p l) (d.rd (Reg.COLL_WR f p l) + 1)).setBit (Reg.SPR_STATUS f p l) 6
        if was then d else fire (0x101 + 16 * f + 2 * p) d)

/-! ### CELL_STATUS as a read returns it -/

/-- Completed lines of layer 0 that wait to be read: not the line being read, nor a source row read already, nor the mark of a missing one. -/
def linesAhead (d : Dev) (f p : Nat) : Nat :=
  let x := d.head (flockHead d f)
  let read (b : LineBuf) : Bool :=
    decide (b.frame ≤ x.seq) && (if kindOf d f p = 4 then (match rowsRead d f p with | some r => decide (b.line ≤ r) | none => false)
      else decide (b.line < x.next))
  ((d.cell f p).bufs.filter (fun b => b.layer == 0 && b.done && b.held && !read b)).length

/-- BUILDING and AHEAD of a post (CELL_STATUS), beside the stored fields. -/
def cellStatus (d : Dev) (f p : Nat) : Word :=
  let w := d.rd (Reg.CELL_STATUS f p)
  let w := putFld w 12 12 (if (d.cell f p).bufs.any (fun b => !b.done) then 1 else 0)
  putFld w 17 16 (min 3 (linesAhead d f p))

/-! ### Writes of a cell page over the bus (R73, R99, R100, R106) -/

/-- A write of the page of a post by firmware. During a re-pen of the flock it is not performed. During a takeover it goes to the
store entry and is applied to the spare, which one store holds alike. The spare post's page ignores it. DEDUCED, log entry 55. -/
def cellBusWrite (f p o : Nat) (v : Word) (d : Dev) : Dev :=
  if (d.flock f).repen.isSome then d.deny else if p ≥ 8 then d.okay else (cellRegWrite f p o v d).okay

/-! ### The steps -/

/-- CACHE_INV: a CACHE_CTRL write with INV (R127). -/
def execCacheInv (f : Fin 16) (p : Fin 8) (l : Fin 2) (s : State) : Host.Outcome State Fault Refusal :=
  s.next (cellBusWrite f p (0x178 + l * 0xF00) 1)
/-- SPR_RELOAD: a RELOAD write (R134). -/
def execSprReload (f : Fin 16) (p : Fin 8) (l : Fin 2) (s : State) : Host.Outcome State Fault Refusal :=
  s.next (cellBusWrite f p (0x11C + l * 0xF00) 1)
/-- FB_FLIP_ARM: a write of 1 to ARM (R227). -/
def execFbFlipArm (f : Fin 16) (p : Fin 8) (l : Fin 2) (s : State) : Host.Outcome State Fault Refusal :=
  s.next (cellBusWrite f p (0x124 + l * 0xF00) 1)

/-- CELL_LINE_START (R83). DESIGN CHOICE, log entry 59. -/
def execCellLineStart (f : Fin 16) (p : Fin 8) (l : Fin 2) (evict : List Nat) (late : Nat) (s : State) :
    Host.Outcome State Fault Refusal := .next (lineStart f p l evict late s)
/-- CELL_LINE_DONE (R87). DESIGN CHOICE, log entry 15; DESIGN CHOICE, log entry 58. -/
def execCellLineDone (f : Fin 16) (p : Fin 8) (lead : Nat) (spare : Option Word) (s : State) (pal : List Nat := []) :
    Host.Outcome State Fault Refusal := .next (lineDone f p lead pal spare s)
/-- LINE_MISSED (R88). -/
def execLineMissed (f : Fin 16) (p : Fin 8) (l : Fin 2) (s : State) : Host.Outcome State Fault Refusal :=
  s.next (lineMissed f p l)
/-- COLL_RECORD_WRITE (R152). -/
def execCollRecordWrite (f : Fin 16) (p : Fin 8) (l : Fin 2) (s : State) : Host.Outcome State Fault Refusal :=
  .next (collWrite f p l s)

end Sys2Proof.Machine
end

