-- ==== Sys2Proof/Machine/Comp.lean ====
section
/-! DEFINITION. The compositor and pixel processing (R181 to R204): reading a line of every slot, order, blending, key, video
scaling, matrices, gamma and dither. -/
namespace Sys2Proof.Machine

/-! ### Matrices (R200, R202) -/

/-- num / den to the nearest integer, for den > 0. DEDUCED, log entry 65. -/
def roundDiv (num : Int) (den : Nat) : Int := (2 * num + den) / (2 * (den : Int))

/-- A 3 × 3 matrix with its offsets. -/
structure Mat3 where
  c : List Int
  pre : List Int
  post : List Int
  deriving DecidableEq, Repr

/-- Kr and Kb of BT.601, BT.709 and BT.2020, in ten-thousandths. -/
def lumaK : Nat → Nat × Nat
  | 1 => (2990, 1140)
  | 2 => (2126, 722)
  | _ => (2627, 593)

/-- A built-in input matrix (R202): standard 1 to 3, limited or full range. -/
def imatPreset (std : Nat) (limited : Bool) : Mat3 :=
  let (kr, kb) := lumaK std
  let kg := 10000 - kr - kb
  let (ysN, ysD) := if limited then (1023, 876) else (1, 1)
  let (csN, csD) := if limited then (1023, 896) else (1, 1)
  let q (num : Int) (den : Nat) : Int := roundDiv (num * 65536) den
  let y := q ysN ysD
  { c := [q (2 * (10000 - kr) * csN : Nat) (10000 * csD), y, 0,
          q (-(2 * kr * (10000 - kr) * csN : Nat)) (10000 * kg * csD), y, q (-(2 * kb * (10000 - kb) * csN : Nat)) (10000 * kg * csD),
          0, y, q (2 * (10000 - kb) * csN : Nat) (10000 * csD)]
    pre := [-512, if limited then -64 else 0, -512], post := [0, 0, 0] }

/-- A built-in output matrix (R202), its coefficients rounded to Q3.16 as those of the input presets are. DEDUCED, log entry 65. -/
def omatPreset (n : Nat) : Mat3 :=
  let q (num : Int) (den : Nat) : Int := roundDiv (num * 65536) den
  match n with
  | 1 => { c := [65536, 0, 0, 0, 65536, 0, 0, 0, 65536], pre := [0, 0, 0], post := [0, 0, 0] }
  | 2 => let g := q 3504 4095; { c := [g, 0, 0, 0, g, 0, 0, 0, g], pre := [0, 0, 0], post := [256, 256, 256] }
  | _ =>
    let (kr, kb) := lumaK (n - 1)
    let kg := 10000 - kr - kb
    let cr (x : Int) : Int := q (3584 * x) (4095 * 2 * (10000 - kr))
    let cb (x : Int) : Int := q (3584 * x) (4095 * 2 * (10000 - kb))
    let y (x : Nat) : Int := q (3504 * x : Nat) (4095 * 10000)
    { c := [cr (10000 - kr : Nat), cr (-(kg : Int)), cr (-(kb : Int)), y kr, y kg, y kb,
            cb (-(kr : Int)), cb (-(kg : Int)), cb (10000 - kb : Nat)]
      pre := [0, 0, 0], post := [2048, 256, 2048] }

/-- The custom matrix of nine coefficients at offset c and offsets PRE and POST. -/
def matCustom (d : Dev) (c pre post : Nat → Nat) : Mat3 :=
  { c := (List.range 9).map (fun i => sfld (d.rd (c i)) 19 0)
    pre := (List.range 3).map (fun i => sfld (d.rd (pre i)) 13 0)
    post := (List.range 3).map (fun i => sfld (d.rd (post i)) 13 0) }

/-- Input matrix v of a head. -/
def imat (d : Dev) (h v : Nat) : Mat3 :=
  match d.fld (Reg.IMAT_PRESET h v) 2 0 with
  | 0 => matCustom d (Reg.IMAT_C h v) (Reg.IMAT_PRE h v) (Reg.IMAT_POST h v)
  | p => if p ≤ 3 then imatPreset p true else imatPreset (p - 3) false

/-- The output matrix of a head. -/
def omat (d : Dev) (h : Nat) : Mat3 :=
  match d.fld (Reg.OMAT_PRESET h) 2 0 with
  | 0 => matCustom d (Reg.OMAT_C h) (Reg.OMAT_PRE h) (Reg.OMAT_POST h)
  | p => omatPreset p

/-- One output channel of a matrix (R200). -/
def Mat3.channel (m : Mat3) (max : Nat) (v : Nat × Nat × Nat) (k : Nat) : Nat :=
  let t (j : Nat) (x : Nat) : Int := m.c.getD (3 * k + j) 0 * ((x : Int) + m.pre.getD j 0)
  let s := (t 0 v.1 + t 1 v.2.1 + t 2 v.2.2 + 32768) / 65536 + m.post.getD k 0
  (clampI 0 max s).toNat

/-- Apply a matrix (R200). -/
def Mat3.apply (m : Mat3) (max : Nat) (v : Nat × Nat × Nat) : Nat × Nat × Nat :=
  (m.channel max v 0, m.channel max v 1, m.channel max v 2)

/-! ### Blending (R189) -/

/-- 1023 squared. -/
def blendN : Nat := 1046529

/-- One channel of the blend of s over d (R189). -/
def blendCh (mode a g alpha s d : Nat) : Nat :=
  match mode with
  | 0 => if alpha ≠ 0 && g ≠ 0 then s else d
  | 1 => (s * a + d * (blendN - a) + 523264) / blendN
  | 2 => min 4095 ((s * g * 1023 + d * (blendN - a) + 523264) / blendN)
  | 3 => min 4095 (d + (s * a + 523264) / blendN)
  | _ =>
    let m := (d * s + 2047) / 4095
    (m * a + d * (blendN - a) + 523264) / blendN

/-! ### Slots (R184 to R186, R190, R191) -/

/-- A complete line in a post's buffers. -/
def lineIn (c : CellSt) (l frame n : Nat) : Option LineBuf :=
  c.bufs.find? (fun b => b.layer == l && b.frame == frame && b.line == n && b.done)

/-- The line of slot s that the compositor reads for line n (R181, R183, R198). -/
def slotLine (d : Dev) (h s n : Nat) : SlotLine :=
  let w := d.rd (Reg.SLOT_SRC h s)
  let f := fld w 7 0
  let p := fld w 11 8
  if f ≥ 16 then .nothing
  else if repenBlank d f || underTakeover d f p || !joined d f p || postCell d f p = 15 then .gap
  else if bitOf w 13 then
    let v := fld w 15 14
    let c := vidNow d f p
    let g := (d.head h).dst.getD v (vsGeom d h v c)
    if !g.ok then .nothing
    else if (lenders d f p).any (fun q => underTakeover d f q) then .gap
    else match vsTaps g n with
      | [] => .nothing
      | ts =>
        let rows := ts.map (fun r => lineIn (d.cell f p) 0 (d.head h).seq r)
        if rows.any (fun r => match r with | some b => b.missing | none => true) then .gap
        else if !c.enable then .nothing
        else .video v g (vsRow g (n - g.y)).2 (rows.map (fun r => match r with | some b => b.px | none => []))
  else match lineIn (d.cell f p) (fld w 12 12) (d.head h).seq n with
    | some b => .cells (kindOf d f p) b.px
    | none => .gap

/-- A coefficient of a tap table: two signed 16-bit taps a word. -/
def tap (d : Dev) (o t : Nat) : Int := if t % 2 = 0 then sfld (d.rd o) 15 0 else sfld (d.rd o) 31 16

/-- The scaler at pixel x (R194): the three channels (Cr, Y, Cb). -/
def scaleAt (d : Dev) (h v : Nat) (g : VsCfg) (phaseV : Nat) (rows : List (List Px)) (x : Nat) : Nat × Nat × Nat :=
  let step := g.srcW * 65536 / g.w
  let ph : Int := ((x - g.x) * step : Nat) + (step / 2 : Nat) - 32768
  let i := ph / 65536
  let phaseH := (ph % 65536).toNat / 1024
  let hc (t : Nat) : Int := tap d (Reg.VS_HCOEF h v (4 * phaseH + t / 2)) t
  let vc (t : Nat) : Int := tap d (Reg.VS_VCOEF h v (2 * phaseV + t / 2)) t
  let hs := (List.range 8).map (fun t => (hc t, clampIdx g.srcW (i - 3 + t)))
  let ch (pick : Px → Nat) : Nat :=
    let row (r : List Px) : Int := hs.foldl (fun a t => a + t.1 * pick (r.getD t.2 noPx)) 0
    let sum := (rows.zipIdx).foldl (fun a r => a + vc r.2 * row r.1) 0
    (clampI 0 1023 ((sum + 2 ^ 27) / 2 ^ 28)).toNat
  (ch pxR, ch pxG, ch pxB)

/-- A slot's pixel at x: class, alpha and the three 10-bit channels; none where it contributes nothing (R184, R185, R194). -/
def slotPx (d : Dev) (h s : Nat) (sl : SlotLine) (x : Nat) : Option (Nat × Nat × Nat × Nat × Nat) :=
  let c := d.rd (Reg.LSLOT_CTRL h s)
  match sl with
  | .cells kind px =>
    let p := px.getD x noPx
    if pxA p = 0 then none
    else some (if (kind = 1 || kind = 2) && !bitOf c 3 then pxClass p else fld c 5 4, pxA p, pxR p, pxG p, pxB p)
  | .video v g phase rows =>
    if x < g.x || g.x + g.w ≤ x then none
    else
      let (r, gr, b) := (imat d h v).apply 1023 (scaleAt d h v g phase rows x)
      some (fld c 5 4, 0x3FF, r, gr, b)
  | _ => none

/-- Whether a 10-bit pixel is keyed out (R190). -/
def keyed (d : Dev) (h s r g b : Nat) : Bool :=
  let lo := d.rd (Reg.KEY_LO h s)
  let hi := d.rd (Reg.KEY_HI h s)
  d.bit (Reg.LSLOT_CTRL h s) 7 && fld lo 29 20 ≤ r && r ≤ fld hi 29 20 && fld lo 19 10 ≤ g && g ≤ fld hi 19 10 &&
  fld lo 9 0 ≤ b && b ≤ fld hi 9 0

/-- A 10-bit channel as 12 bits, through degamma or not (R191). -/
def to12 (d : Dev) (h : Nat) (degamma : Bool) (c : Nat) : Nat :=
  if degamma then
    let w := d.rd (Reg.DEGAMMA h (c / 2))
    if c % 2 = 0 then fld w 11 0 else fld w 27 16
  else c * 4 ||| c / 256

/-- Blend one slot's contribution over what lies beneath (R186, R189). -/
def blendSlot (d : Dev) (h s : Nat) (p : Nat × Nat × Nat × Nat × Nat) (u : Nat × Nat × Nat) : Nat × Nat × Nat :=
  let (_, alpha, r, g, b) := p
  let c := d.rd (Reg.LSLOT_CTRL h s)
  let ga := d.fld (Reg.SLOT_ALPHA h s) 9 0
  let a := alpha * ga
  let one (v w : Nat) : Nat := blendCh (fld c 2 0) a ga alpha (to12 d h (bitOf c 6) v) w
  (one r u.1, one g u.2.1, one b u.2.2)

/-- The contributing slots of a position, back to front (R186): lower class first, and within a class the higher slot number
first. -/
def backToFront (ps : List (Nat × Nat × Nat × Nat × Nat × Nat)) : List (Nat × Nat × Nat × Nat × Nat × Nat) :=
  [0, 1, 2, 3].flatMap (fun k => (ps.filter (fun p => p.2.1 == k)).reverse)

/-- The dither matrix (R201). -/
def ditherB (y x : Nat) : Nat :=
  ([0, 8, 2, 10, 12, 4, 14, 6, 3, 11, 1, 9, 15, 7, 13, 5] : List Nat).getD (4 * (y % 4) + x % 4) 0

/-- Dither a 12-bit value to OUT_BPC bits (R201). -/
def dither (mode bits v y x f : Nat) : Nat :=
  let e := 12 - bits
  let ord (t : Nat) : Nat := min (2 ^ bits - 1) ((16 * v + t * 2 ^ e) / 2 ^ (e + 4))
  match mode with
  | 0 => v / 2 ^ e
  | 1 => ord (ditherB y x)
  | _ => ord (ditherB (y + f) (x + f))

/-- One entry of a gamma table. -/
def gammaEntry (d : Dev) (o : Nat → Nat) (v : Nat) : Nat :=
  let w := d.rd (o (v / 2))
  if v % 2 = 0 then fld w 11 0 else fld w 27 16

/-- The stages after blending (R199 to R201): the pixel as it leaves, channel 0 in [29:20]. -/
def outPixel (d : Dev) (h n x : Nat) (u : Nat × Nat × Nat) : Word :=
  let c := d.rd (Reg.COMP_CTRL h)
  let u := if bitOf c 4 then (gammaEntry d (Reg.GAMMA_R h) u.1, gammaEntry d (Reg.GAMMA_G h) u.2.1, gammaEntry d (Reg.GAMMA_B h) u.2.2) else u
  let u := if bitOf c 5 then (omat d h).apply 4095 u else u
  let q (v : Nat) : Nat := dither (fld c 2 1) (if bitOf c 0 then 10 else 8) v n x ((d.head h).k % 4)
  w32 (q u.1 * 2 ^ 20 + q u.2.1 * 2 ^ 10 + q u.2.2)

/-- Compose position (n, x) of a head from what its slots bring (R184 to R201). -/
def composeAt (d : Dev) (h n x : Nat) (sls : List SlotLine) : Word :=
  let bg := d.rd (Reg.BG_COLOR h)
  let dg := d.bit (Reg.COMP_CTRL h) 3
  let u := (to12 d h dg (fld bg 29 20), to12 d h dg (fld bg 19 10), to12 d h dg (fld bg 9 0))
  let ps := (sls.zipIdx).filterMap (fun q =>
    if d.bit (Reg.SLOT_EN h) q.2 then
      match slotPx d h q.2 q.1 x with
      | some p => if keyed d h q.2 p.2.2.1 p.2.2.2.1 p.2.2.2.2 then none else some (q.2, p)
      | none => none
    else none)
  outPixel d h n x ((backToFront ps).foldl (fun u p => blendSlot d h p.1 p.2 u) u)

/-! ### Reading a line (R181, R183, R203) -/

/-- Apply the staged compositor and matrix writes that take effect before pixel 0 of line n, in script order (R164). -/
def applyCompDue (h n : Nat) (d : Dev) : Dev :=
  let x := d.head h
  let e := d.ls h
  let now (w : Staged) : Bool :=
    w.frame < x.seq || (w.frame = x.seq && (w.line < n || (w.line = n && w.pixel = 0)))
  let d := d.updLs h (fun e => { e with comp := e.comp.filter (fun w => !now w), mat := e.mat.filter (fun w => !now w) })
  let d := (e.comp.filter now).foldl (fun d w => applyComp h w d) d
  (e.mat.filter now).foldl (fun d w => applyMat h w d) d

/-- Posts of a head that build no line take their staged writes at the line start (R164, R167). DEDUCED, log entry 60. -/
def applyIdlePosts (h n : Nat) (d : Dev) : Dev :=
  (flocksOf d h).foldl (fun d f => (List.range 8).foldl (fun d p =>
    if kindOf d f p = 0 || postCell d f p = 15 || underTakeover d f p then applyStaged f p (d.head h).seq n d else d) d) d

/-- At line 0 the geometry of each video slot is sampled, and a ratio outside R195 sets its bit of SCALE_ERR. -/
def sampleVideo (h : Nat) (d : Dev) : Dev :=
  let geom (v : Nat) : Option VsCfg :=
    ((List.range 32).find? (fun s => d.fld (Reg.SLOT_SRC h s) 7 0 < 16 && d.bit (Reg.SLOT_SRC h s) 13 && d.fld (Reg.SLOT_SRC h s) 15 14 == v)).map
      (fun s => vsGeom d h v (vidNow d (d.fld (Reg.SLOT_SRC h s) 7 0) (d.fld (Reg.SLOT_SRC h s) 11 8)))
  let gs := (List.range 4).map geom
  let d := d.updHead h (fun x => { x with dst := (List.range 4).map (fun v => (gs.getD v none).getD (vsGeom d h v {})) })
  forN 4 d (fun v d => match gs.getD v none with | some g => if g.ok then d else d.setBit (Reg.COMP_STATUS h) (4 + v) | none => d)

/-- Count a line absent in a takeover for each layer of each post concerned, lender posts among them (R89, R193, R264). -/
def countTakeover (h : Nat) (d : Dev) : Dev :=
  (flocksOf d h).foldl (fun d f => (List.range 8).foldl (fun d p =>
    if underTakeover d f p then
      d.bumpBy (Reg.TAKEOVER_LINES f) (if isLender d f p then 1 else (activeLayers d f p).length)
    else d) d) d

/-! ### The line in progress (R164, R181, R203) -/

/-- The registers of the compositor's two pages. -/
def compRegs (d : Dev) (h : Nat) : Store Word :=
  let b := 0x2000000 + h * 0x100000
  Store.keep (fun o => (b ≤ o && o < b + 0x10000) || (b + 0x40000 ≤ o && o < b + 0x50000)) d.regs
/-- The device with its compositor registers as a line in progress started with them (R203). -/
def withView (h : Nat) (v : Store Word) (d : Dev) : Dev :=
  let b := 0x2000000 + h * 0x100000
  let part (lo hi : Nat) (m : Store Word) : Store Word := Store.keep (fun o => lo ≤ o && o < hi) m
  let r := d.regs
  let mid := part b (b + 0x10000) v ++ part (b + 0x10000) (b + 0x40000) r ++ part (b + 0x40000) (b + 0x50000) v
  { d with regs := Store.keep (fun o => o < b) r ++ mid ++ Store.keep (fun o => b + 0x50000 ≤ o) r }

/-- The first pixel of the line in progress that the compositor reads at or after the present instant (R181). -/
def readPixel (d : Dev) (h : Nat) : Nat :=
  let x := d.head h
  let m := modeOf d h
  ((d.clk - x.fsClk) * m.den + m.pn - 1) / m.pn + 16 - (x.next - 1) * m.hTot

/-- The pixel-exact writes that a script has placed before pixel `upto` of the line in progress are performed (R164). -/
def compCatch (h upto : Nat) (d : Dev) : Dev :=
  let x := d.head h
  let now (w : Staged) : Bool := x.reading && decide (w.frame = x.seq) && decide (w.line = x.next - 1) && decide (w.pixel < upto)
  match (d.ls h).comp.filter now with
  | [] => d
  | ws =>
    let d := d.updLs h (fun e => { e with comp := e.comp.filter (fun w => !now w) })
    ws.foldl (fun d w => applyComp h w d) (d.updHead h (fun x => { x with mid := x.mid ++ ws }))

/-- A write of the compositor page by firmware. One of a pixel-exact register acts from the first pixel read after it, any other from the
first line begun after it (R203). -/
def compFirmware (h o : Nat) (v : Word) (d : Dev) : Dev :=
  let x := d.head h
  if pixelExact o && x.reading then
    let at' := readPixel d h
    let d := compCatch h at' d
    compRegWrite h o v (d.updHead h (fun x => { x with mid := x.mid ++ [{ frame := x.seq, line := x.next - 1, pixel := at', off := o, op := .put, v := v }] }))
  else compRegWrite h o v d

/-- Compose line n pixel by pixel from what the slots brought, with the registers that the line started with and the pixel-exact
writes where they are placed; a late pixel is sent as 0 (R164, R182, R203). DEDUCED, log entry 57. -/
def composeLine (h n : Nat) (d : Dev) : List Word :=
  let x := d.head h
  (forN (modeOf d h).hAct ((withView h x.view d, []) : Dev × List Word) (fun i r =>
    let v := (x.mid.filter (fun w => w.pixel = i)).foldl (fun v w => applyComp h w v) r.1
    (v, (if x.late.contains i then 0 else composeAt v h n i x.sls) :: r.2))).2.reverse

/-- A pixel as the link carries it (R218): with a YCbCr encoding, Y in [29:20], Cb in [19:10] and Cr in [9:0]. PRESUMED, log entry 125. -/
def linkPixel (enc : Nat) (w : Word) : Word :=
  if enc < 2 then w else w32 (fld w 19 10 * 2 ^ 20 + fld w 9 0 * 2 ^ 10 + fld w 29 20)

/-- A head sends a line of `src`'s output (R182, R217, R218, R224): its link carries it while the stream runs. -/
def sendLine (h src n : Nat) (out : List Word) (d : Dev) : Dev :=
  let enc := d.fld (Reg.OUT_ENC src) 1 0
  snoopLine h n out (d.updHead h (fun x => { x with
    out := out, link := if x.trained && !x.resume then out.map (linkPixel enc) else [] }))

/-- A head and the mirrors that follow it send a line. -/
def sendAll (h n : Nat) (out : List Word) (d : Dev) : Dev :=
  (mirrorsOf d h).foldl (fun d m => if (d.head m).own then d else sendLine m h n out d) (sendLine h h n out d)

/-- A table entry of the compositor's pages whose code cannot be corrected (R203): it acts as the identity entry, and POISON sets. -/
def loseEntry (h o : Nat) (d : Dev) : Dev :=
  let b := 0x2000000 + h * 0x100000
  if (b + 0x8000 ≤ o && o < b + 0x10000 && o % 4 = 0) || (b + 0x41000 ≤ o && o < b + 0x50000 && o % 4 = 0) then
    (d.wr o (resetWord o)).setBit (Reg.COMP_STATUS h) 1
  else d

/-- The compositor begins to read line n of every slot (R181): at the line start, after the deadlines of the line, and with the table
entries `lost` found uncorrectable. -/
def compLineStart (h : Nat) (lost : List Nat) (d : Dev) : Dev :=
  let x := d.head h
  if headState d h = 4 && !isMirror d h && !x.reading && !x.latched && x.next < (modeOf d h).vAct then
    let n := x.next
    let d := (flocksOf d h).foldl (fun d f => (List.range 8).foldl (fun d p =>
      (activeLayers d f p).foldl (fun d l => lineMissed f p l d) d) d) d
    let d := d.passClk (lineStartClk d h n)
    let d := lost.foldl (fun d o => loseEntry h o d) d
    let d := countTakeover h (applyIdlePosts h n (applyCompDue h n d))
    let d := if n = 0 then sampleVideo h d else d
    let sls := (List.range 32).map (fun s => slotLine d h s n)
    let gap := (sls.zipIdx).any (fun q => d.bit (Reg.SLOT_EN h) q.2 && (match q.1 with | .gap => true | _ => false))
    let d := if gap then d.bump (Reg.GAP_LINES h) else d
    d.updHead h (fun x => { x with reading := true, next := n + 1, view := compRegs d h, sls := sls, mid := [], late := [] })
  else d

/-- Which buffers of a post are free once line n has been read: those of the line, and a VIDEO cell's rows that no later line
of the frame needs. -/
def spentBuf (d : Dev) (f p seq n : Nat) (b : LineBuf) : Bool :=
  if kindOf d f p = 4 then
    let g := vsOf d f p
    b.done && (b.frame < seq || (b.frame = seq &&
      (n + 1 ≥ (modeOf d (flockHead d f)).vAct || g.y + g.h ≤ n + 1 ||
        (match vsTaps g (n + 1) with | [] => false | t :: ts => b.line < ts.foldl min t))))
  else b.frame < seq || (b.frame = seq && b.line ≤ n)

/-- The compositor reads the last active pixel of the line, frees each cell's buffer, and the composed line is sent (R83, R181). -/
def compLineEnd (h : Nat) (d : Dev) : Dev :=
  let x := d.head h
  if x.reading then
    let n := x.next - 1
    let m := modeOf d h
    let d := compCatch h m.hAct (d.passClk (pixClk d h (n * m.hTot + m.hAct - 17)))
    let out := composeLine h n d
    let d := (flocksOf d h).foldl (fun d f => (List.range 8).foldl (fun d p =>
      d.updCell f p (fun c => { c with bufs := c.bufs.filter (fun b => !spentBuf d f p x.seq n b) })) d) d
    (sendAll h n out d).updHead h (fun x => { x with reading := false, view := [], sls := [], mid := [], late := [] })
  else d

/-- Pixel x of the line in progress does not arrive by its instant: it will be sent as 0 (R182). -/
def pixelLate (h x : Nat) (d : Dev) : Dev :=
  if headState d h = 4 && (d.head h).reading && x < (modeOf d h).hAct && !(d.head h).late.contains x then
    ((d.updHead h (fun y => { y with late := x :: y.late })).setBit (Reg.COMP_STATUS h) 0).bump (Reg.COMP_LATE h)
  else d

/-! ### The steps -/

/-- COMP_LINE_START (R181). DEDUCED, log entry 57. -/
def execCompLineStart (h : Fin 8) (s : State) (lost : List Nat := []) : Host.Outcome State Fault Refusal := s.next (compLineStart h lost)
/-- COMP_LINE_END (R181). -/
def execCompLineEnd (h : Fin 8) (s : State) : Host.Outcome State Fault Refusal := s.next (compLineEnd h)
/-- COMP_PIXEL_LATE (R182). -/
def execCompPixelLate (h : Fin 8) (x : Nat) (s : State) : Host.Outcome State Fault Refusal := s.next (pixelLate h x)

end Sys2Proof.Machine
end

