-- ==== Sys2Proof/Machine/LineScript.lean ====
section
/-! DEFINITION. Line script engines (R157 to R180): the decision point, banks, and each verb. -/
namespace Sys2Proof.Machine

/-! ### The decision point (R158, R163, R177, R178, R251) -/

/-- The herd time that the choice of bank compares launches with: Fs of the coming frame, or in command mode the earliest
instant at which it can start (R178). -/
def decisionFs (d : Dev) (h : Nat) : Nat :=
  (frameStart d h ((d.head h).seq + 1)).getD (d.now + (modeOf d h).lines (6 + d.fld (Reg.TE_CTRL h) 15 8))

/-- Of the kept cues with L at or before t, the one with the greatest L, and the higher slot on a tie (R251). -/
def latestCue (t : Nat) (l : List HeadCue) : Option HeadCue :=
  (l.filter (fun c => c.l ≤ t)).foldl (fun b c =>
    match b with
    | none => some c
    | some b => if b.l < c.l || (b.l = c.l && b.slot < c.slot) then some c else some b) none

/-- Choose the bank of the coming frame (R177): a due cue, else a pending request, else the present bank. BY_CUE clears where the bank is
kept. DESIGN CHOICE, log entry 127. -/
def chooseBank (h : Nat) (d : Dev) : Dev :=
  let t := decisionFs d h
  let w := d.rd (Reg.LS_BANK h)
  match latestCue t (d.head h).cues with
  | some c =>
    let d := d.updHead h (fun x => { x with cues := x.cues.filter (fun c => !(c.l ≤ t)) })
    let d := if bitOf w 1 then d.setBit (Reg.LS_FLAGS h) 7 else d
    d.wr (Reg.LS_BANK h) (w32 (c.bank % 2 + 8 + (if bitOf w 4 then 16 else 0)))
  | none =>
    if bitOf w 1 then d.wr (Reg.LS_BANK h) (w32 (fld w 2 2 + (if bitOf w 4 then 16 else 0)))
    else d.clrBit (Reg.LS_BANK h) 3

/-- LS_POS. -/
def lsPos (h : Nat) (d : Dev) : Dev :=
  let e := d.ls h
  d.wr (Reg.LS_POS h) (w32 (e.line % 2 ^ 13 + e.pixel % 2 ^ 14 * 2 ^ 16 + (if e.ended then 2 ^ 31 else 0)))

/-- Whether a head's generator predicts frame starts: it runs, in herd lock, on a head of its own (R210). -/
def predicts (d : Dev) (h : Nat) : Bool := (d.head h).genOn && !isCommand d h && !isMirror d h && !(d.head h).predicted

/-- The next frame start as the generator predicts it at (T - 7, 0) (R209, R210): at the end of the period, corrected by at most 100 ppm
toward the epoch of the next frame; where the epoch lies further than one line period away, the least epoch at least 8 line periods later.
DEDUCED, log entry 61. -/
def predict (h : Nat) (d : Dev) : Dev :=
  let x := d.head h
  let m := modeOf d h
  let full := m.hTot * m.vTot
  let next := m.fs (x.k + 1)
  let e0 := x.fsClk + m.span full
  let e1 : Int := (d.clk : Int) + next - d.now
  if (e1 - e0).natAbs * m.pd * m.vTot > m.pn then
    let t7 := d.now - (d.clk - beamClk d h (m.vTot - 7) 0)
    let scale := m.pd * m.vTot
    let j := m.epochAfter ((t7 * scale + 8 * m.pn + scale - 1) / scale)
    let d := d.updHead h (fun x => { x with
      predicted := true, relocked := true, predK := j, predFs := m.fs j, predClk := d.clk + (m.fs j - d.now) })
    (d.setBit (Reg.HEAD_FLAGS h) 6).bump (Reg.RELOCKS h)
  else
    let most : Int := (m.span full / 10000 : Nat)
    d.updHead h (fun x => { x with
      predicted := true, relocked := false, predK := x.k + 1, predFs := next
      predClk := ((e0 : Int) + clampI (-most) most (e1 - e0)).toNat })

/-- E(k): the bank is chosen, the statistics of the frame before are latched and the script starts (R158, R162). With ENABLE 0 no script
runs, and ENDED reads 1. DESIGN CHOICE, log entry 126. -/
def decisionPoint (h : Nat) (d : Dev) : Dev :=
  let x := d.head h
  if (headState d h == 3 || headState d h == 4) && x.latched && !x.decided && !d.bit (Reg.HEAD_STATUS h) 11 then
    let d := if predicts d h then predict h (d.beamTo h ((modeOf d h).vTot - 7) 0) else d
    let d := if isCommand d h then d else d.beamTo h ((modeOf d h).vTot - 6) 0
    let d := chooseBank h d
    let e := d.ls h
    let d := d.wr (Reg.LS_PEAK h) (w32 (min 255 e.peak + e.peakLine * 2 ^ 16))
    let on := d.bit (Reg.LS_CTRL h) 0
    let d := d.putBit (Reg.LS_BANK h) 4 on
    let d := d.updLs h (fun e => { e with
      active := on, ended := !on, frame := x.seq + 1, pc := 0, line := 0, pixel := 0, slots := 0, loop := none, peak := 0,
      peakLine := 0 })
    lsPos h (d.updHead h (fun x => { x with decided := true, sendHt := d.clk }))
  else d

/-! ### Running the script -/

/-- End the frame's script (R159). -/
def lsEnd (h : Nat) (d : Dev) : Dev := lsPos h (d.updLs h (fun e => { e with ended := true }))
/-- A verb error (R168). -/
def verbError (h : Nat) (d : Dev) : Dev := lsEnd h (d.setBit (Reg.LS_FLAGS h) 2)

/-- Whether the engine may execute verbs placed on line n now (R160). -/
def lsGate (d : Dev) (h n : Nat) : Bool :=
  let e := d.ls h
  let x := d.head h
  e.active && !e.ended && (n < 4 || (x.seq = e.frame && n ≤ x.next + 3) || e.frame < x.seq)

/-- Word i of the bank in use. -/
def bankWord (d : Dev) (h i : Nat) : Word :=
  if d.bit (Reg.LS_BANK h) 0 then d.rd (Reg.LS_BANK_B h i) else d.rd (Reg.LS_BANK_A h i)

/-- The opcode of the verb that comes next, when the engine may execute it. -/
def nextVerb (d : Dev) (h : Nat) : Option Nat :=
  let e := d.ls h
  if lsGate d h e.line && e.pc < 4096 then some (fld (bankWord d h e.pc) 31 28) else none

/-- Carry an over-budget verb to the next line (R175). -/
def lsCarry (h cost : Nat) (d : Dev) : Dev :=
  let e := d.ls h
  if e.slots + cost > 96 then
    lsPos h (((d.setBit (Reg.LS_FLAGS h) 0).bump (Reg.LS_OVER_LINES h)).updLs h (fun e =>
      { e with line := e.line + 1, pixel := 0, slots := 0 }))
  else d

/-- Count a verb's slots against its line. -/
def lsCharge (h cost : Nat) (d : Dev) : Dev :=
  d.updLs h (fun e =>
    let n := e.slots + cost
    { e with slots := n, peak := max e.peak n, peakLine := if e.peak < n then e.line else e.peakLine })

/-- Go on after a verb of `n` words; the script ends once word 4095 has been executed (R159). -/
def lsAdvance (h n : Nat) (d : Dev) : Dev :=
  let d := d.updLs h (fun e => { e with pc := e.pc + n })
  if (d.ls h).pc ≥ 4096 then lsEnd h d else d

/-- Execute one verb of opcode `op` when it comes next: `words` and `cost` are its length and slots, `bad` its encoding faults,
`act` what it does once it is charged. A verb carried to a line that the engine may not execute yet waits there. -/
def verb (h op words cost : Nat) (bad : Bool) (act : State → State) (s : State) : State :=
  let d := s.dev
  if nextVerb d h ≠ some op then s
  else if bad || (d.ls h).pc + words > 4096 then s.upd (verbError h)
  else
    let d := lsCarry h cost d
    if !lsGate d h (d.ls h).line then { s with dev := d }
    else (act { s with dev := lsCharge h cost d }).upd (lsAdvance h words)

/-- The first word of the next verb. -/
def verbWord (d : Dev) (h i : Nat) : Word := bankWord d h ((d.ls h).pc + i)

/-! ### Targets (R164, R170, R174) -/

/-- Encoding faults of the target fields (R170). -/
def targetBad (w : Word) (single : Bool) : Bool :=
  fld w 27 26 = 3 || (fld w 27 26 ≠ 0 && (fld w 25 22 ≠ 0 || fld w 21 18 ≠ 0)) || (single && fld w 17 14 ≠ 0)

/-- Whether n registers from byte offset o lie in one allowed range of a space (R174). -/
def targetRange (space o n : Nat) : Bool :=
  let last := o + 4 * (n - 1)
  if space = 0 then (0x100 ≤ o && last ≤ 0x1EFC) || (0x4000 ≤ o && last ≤ 0x7FFC) else 4 ≤ o && last ≤ 0xFFFC

/-- The frame and line at which a write placed at (n, x) takes effect: L of R164; at or beyond the active lines, before line 0
of the next frame. -/
def placeAt (d : Dev) (h : Nat) (exact : Bool) : Nat × Nat × Nat :=
  let e := d.ls h
  let m := modeOf d h
  let (n, x) := if exact && e.pixel < m.hAct then (e.line, e.pixel) else (if e.pixel = 0 then e.line else e.line + 1, 0)
  if n ≥ m.vAct then (e.frame + 1, 0, 0) else (e.frame, n, x)

/-- Stage one write of a verb. DEDUCED, log entry 60. -/
def stageOne (h space f p o : Nat) (op : StageOp) (v : Word) (d : Dev) : Dev :=
  let (fr, n, x) := placeAt d h (space = 1 && pixelExact o)
  let w : Staged := { frame := fr, line := n, pixel := x, off := o, op := op, v := v }
  match space with
  | 0 => d.updCell f p (fun c => { c with staged := c.staged ++ [w] })
  | 1 => d.updLs h (fun e => { e with comp := e.comp ++ [w] })
  | _ => d.updLs h (fun e => { e with mat := e.mat ++ [w] })

/-- Stage the writes of a verb to the target of its first word, or drop them (R73, R174). -/
def stageAll (h : Nat) (w : Word) (op : StageOp) (vs : List Word) (d : Dev) : Dev :=
  let space := fld w 27 26
  let f := fld w 25 22
  let p := fld w 21 18
  let o := 4 * fld w 13 0
  if space = 0 && (flockHead d f ≠ h || p ≥ 8) || !targetRange space o vs.length then
    (d.setBit (Reg.LS_FLAGS h) 1).bump (Reg.LS_DROPS h)
  else if space = 0 && (d.flock f).repen.isSome then d.bump (Reg.LS_DROPS h)
  else (vs.zipIdx).foldl (fun d v => stageOne h space f p (o + 4 * v.2) op v.1 d) d

/-! ### Verbs -/

/-- END, an uncorrectable word, which executes as END (R176), or an opcode 0xA to 0xF, which is a verb error. -/
def lsVerbEnd (h : Nat) (poison : Bool) (s : State) : State :=
  match nextVerb s.dev h with
    | some op =>
      if poison then verb h op 1 1 false (fun s => s.upd (fun d => lsEnd h (d.setBit (Reg.LS_FLAGS h) 5))) s
      else if op ≥ 10 then s.upd (verbError h)
      else verb h 0 1 1 (fld (verbWord s.dev h 0) 27 0 ≠ 0) (fun s => s.upd (lsEnd h)) s
    | none => s

/-- WAIT (R169). -/
def lsVerbWait (h : Nat) (s : State) : State :=
  let w := verbWord s.dev h 0
  let m := modeOf s.dev h
  verb h 1 1 1 (fld w 13 0 ≥ m.hTot) (fun s => s.upd (fun d =>
    let e := d.ls h
    let n := if bitOf w 27 then e.line + fld w 26 14 else fld w 26 14
    let x := fld w 13 0
    if n < e.line || (n = e.line && x < e.pixel) then d.setBit (Reg.LS_FLAGS h) 3
    else
      let d := d.updLs h (fun e => { e with line := n, pixel := x, slots := if n = e.line then e.slots else 0 })
      if n ≥ m.vAct then lsEnd h d else lsPos h d)) s

/-- WR (R170). -/
def lsVerbWr (h : Nat) (s : State) : State :=
  let w := verbWord s.dev h 0
  let n := fld w 17 14 + 1
  let vs := (List.range n).map (fun i => verbWord s.dev h (1 + i))
  verb h 2 (1 + n) (1 + n) (targetBad w false) (fun s => s.upd (stageAll h w .put vs)) s

/-- MASK (R168). -/
def lsVerbMask (h : Nat) (s : State) : State :=
  let w := verbWord s.dev h 0
  let m := verbWord s.dev h 1
  let v := verbWord s.dev h 2
  verb h 3 3 3 (targetBad w true) (fun s => s.upd (stageAll h w (.mask m) [v])) s

/-- ADD (R168). -/
def lsVerbAdd (h : Nat) (s : State) : State :=
  let w := verbWord s.dev h 0
  let v := verbWord s.dev h 1
  verb h 4 2 2 (targetBad w true) (fun s => s.upd (stageAll h w .add [v])) s

/-- FETCH (R171). -/
def lsVerbFetch (h : Nat) (s : State) : State :=
  let w := verbWord s.dev h 0
  let lo := verbWord s.dev h 1
  let hi := verbWord s.dev h 2
  let n := fld w 17 14 + 1
  verb h 5 3 (3 + n) (targetBad w false || fld lo 1 0 ≠ 0 || fld hi 31 17 ≠ 0) (fun s =>
    let i := match (s.dev.ls h).loop with | some (_, _, k) => if bitOf hi 16 then k else 0 | none => 0
    let (r, s) := fetch 0 (lo.toNat + fld hi 15 0 * 2 ^ 32 + 4 * n * i) (4 * n) s
    match r with
    | .data b => s.upd (stageAll h w .put ((List.range n).map (fun k => w32 (leNat ((b.drop (4 * k)).take 4)))))
    | .poison _ => s.upd (fun d => d.setBit (Reg.LS_FLAGS h) 5)
    | .fail => s.upd (fun d => d.setBit (Reg.LS_FLAGS h) 4)) s

/-- REP (R172). -/
def lsVerbRep (h : Nat) (s : State) : State :=
  let w := verbWord s.dev h 0
  verb h 6 1 1 (fld w 27 12 ≠ 0 || fld w 11 0 = 0 || (s.dev.ls h).loop.isSome) (fun s => s.upd (fun d =>
    d.updLs h (fun e => { e with loop := some (e.pc + 1, fld w 11 0, 0) }))) s

/-- NEXT (R172): back to the verb after REP while passes remain. -/
def lsVerbNext (h : Nat) (s : State) : State :=
  let w := verbWord s.dev h 0
  let atEnd := decide ((s.dev.ls h).pc = 4095)
  verb h 7 1 1 (fld w 27 0 ≠ 0 || (s.dev.ls h).loop.isNone) (fun s => s.upd (fun d => d.updLs h (fun e =>
    match e.loop with
    | some (start, left, done') =>
      if left > 1 && !atEnd then { e with pc := start - 1, loop := some (start, left - 1, done' + 1) } else { e with loop := none }
    | none => e))) s

/-- Set a bank request (R177). -/
def bankRequest (h bank : Nat) (d : Dev) : Dev := d.wr (Reg.LS_BANK h) (putFld (d.rd (Reg.LS_BANK h)) 2 1 (1 + 2 * (bank % 2)))

/-- BANK. -/
def lsVerbBank (h : Nat) (s : State) : State :=
  let w := verbWord s.dev h 0
  verb h 8 1 1 (fld w 27 1 ≠ 0) (fun s => s.upd (bankRequest h (fld w 0 0))) s

/-- SIGNAL (R173). -/
def lsVerbSignal (h : Nat) (s : State) : State :=
  let w := verbWord s.dev h 0
  verb h 9 1 1 (fld w 27 2 ≠ 0) (fun s => s.upd (fun d => d.updLs h (fun e =>
    { e with signals := e.signals ++ [(e.frame, e.line, e.pixel, fld w 1 0)] }))) s

/-- The compositor reaches the placement of a signal: it reads the pixel there, 16 pixel periods before the beam (R173, R181). -/
def signalReached (h : Nat) (d : Dev) : Dev :=
  let x := d.head h
  match (d.ls h).signals.find? (fun g => g.1 < x.seq || (g.1 = x.seq && g.2.1 < x.next)) with
  | some g =>
    let d := if g.1 = x.seq then d.passClk (pixClk d h (g.2.1 * (modeOf d h).hTot + g.2.2.1 - 16)) else d
    let d := d.updLs h (fun e => { e with signals := e.signals.erase g })
    fire (0x10 + 8 * h + 2 + g.2.2.2) (d.setBit (Reg.LS_FLAGS h) (8 + g.2.2.2))
  | none => d

/-- An LS_BANK_REQ write. -/
def bankReqWrite (h : Nat) (v : Word) (d : Dev) : Dev := (if bitOf v 31 then bankRequest h (fld v 0 0) d else d).okay

/-- A write of a bank word: refused for the bank in use (R176). -/
def bankWordWrite (h o : Nat) (v : Word) (d : Dev) : Dev :=
  let w := d.rd (Reg.LS_BANK h)
  if bitOf w 4 && (fld w 0 0 == 1) == decide (o ≥ 0xC000) then d.setBit (Reg.LS_FLAGS h) 6
  else d.wr (0x2010000 + h * 0x100000 + o) v

/-! ### The steps -/

/-- LS_DECISION_POINT (R158). -/
def execLsDecisionPoint (h : Fin 8) (s : State) : Host.Outcome State Fault Refusal := s.next (decisionPoint h)
/-- LS_END: `poison` says that the code finds the next word uncorrectable. -/
def execLsEnd (h : Fin 8) (poison : Bool) (s : State) : Host.Outcome State Fault Refusal := .next (lsVerbEnd h poison s)
/-- LS_WAIT. -/
def execLsWait (h : Fin 8) (s : State) : Host.Outcome State Fault Refusal := .next (lsVerbWait h s)
/-- LS_WR. -/
def execLsWr (h : Fin 8) (s : State) : Host.Outcome State Fault Refusal := .next (lsVerbWr h s)
/-- LS_MASK. -/
def execLsMask (h : Fin 8) (s : State) : Host.Outcome State Fault Refusal := .next (lsVerbMask h s)
/-- LS_ADD. -/
def execLsAdd (h : Fin 8) (s : State) : Host.Outcome State Fault Refusal := .next (lsVerbAdd h s)
/-- LS_FETCH. -/
def execLsFetch (h : Fin 8) (s : State) : Host.Outcome State Fault Refusal := .next (lsVerbFetch h s)
/-- LS_REP. -/
def execLsRep (h : Fin 8) (s : State) : Host.Outcome State Fault Refusal := .next (lsVerbRep h s)
/-- LS_NEXT. -/
def execLsNext (h : Fin 8) (s : State) : Host.Outcome State Fault Refusal := .next (lsVerbNext h s)
/-- LS_BANK. -/
def execLsBank (h : Fin 8) (s : State) : Host.Outcome State Fault Refusal := .next (lsVerbBank h s)
/-- LS_SIGNAL. -/
def execLsSignal (h : Fin 8) (s : State) : Host.Outcome State Fault Refusal := .next (lsVerbSignal h s)
/-- LS_SIGNAL_REACHED (R173). -/
def execLsSignalReached (h : Fin 8) (s : State) : Host.Outcome State Fault Refusal := s.next (signalReached h)
/-- LS_BANK_REQ (R177). -/
def execLsBankReq (h : Fin 8) (v : Word) (s : State) : Host.Outcome State Fault Refusal := s.next (bankReqWrite h v)

end Sys2Proof.Machine
end

