-- ==== Sys2Proof/Machine/Heads.lean ====
section
/-! DEFINITION. Heads (R205 to R225, R267, R272, R569): commands, the start sequence, frame epochs and relocks, DisplayPort
links, the side channel, DSI command mode and mirrors; and the writes of the timing and PHY pages. -/
namespace Sys2Proof.Machine

/-- Set STATE of a head. -/
def setHeadState (h st : Nat) (d : Dev) : Dev := d.setFld (Reg.HEAD_STATUS h) 2 0 st
/-- JOINED of the herd (R240). -/
def herdJoined (d : Dev) : Bool := d.bit Reg.HERD_STATUS 0
/-- ROLE of the device (R50). -/
def herdRole (d : Dev) : Nat := d.fld Reg.HERD_STATUS 7 6
/-- The PHY of a head is powered: in every state but OFF and STANDBY. -/
def phyPowered (d : Dev) (h : Nat) : Bool := headState d h != 0 && headState d h != 5

/-- The PHY of a head has failed and is in the repair map (R37, R282, R285). -/
def phyBad (d : Dev) (h : Nat) : Bool := d.repairs.contains (14, h)

/-! ### Stopping (R212, R214) -/

/-- The PHY powers down and the generator stops. -/
def phyDown (h : Nat) (d : Dev) : Dev :=
  ((d.clrBit (Reg.PHY_STATUS h) 1).clrBit (Reg.HEAD_STATUS h) 3).updHead h (fun x => { x with
    genOn := false, ready := false, trained := false, tries := 0, awaitJoin := false, predicted := false, relocked := false })

/-- The engine of a head that stops runs no script before its next decision point (R180, R214). DEDUCED, log entry 130. -/
def stopScript (h : Nat) (d : Dev) : Dev :=
  lsEnd h ((d.clrBit (Reg.LS_BANK h) 4).updLs h (fun e => { e with active := false, signals := [] }))

/-- One head enters STOPPED, or STANDBY. -/
def enterStopOne (h : Nat) (standby : Bool) (d : Dev) : Dev :=
  let d := (setHeadState h (if standby then 5 else 1) (stopScript h d)).setBit (Reg.HEAD_FLAGS h) 3
  let d := d.updHead h (fun x => { x with stop := 0, reading := false, view := [], sls := [], mid := [], late := [] })
  if standby then phyDown h d else d

/-- A head enters STOPPED or STANDBY, with the mirrors that follow it. -/
def enterStop (h : Nat) (standby : Bool) (d : Dev) : Dev :=
  (mirrorsOf d h).foldl (fun d m => if (d.head m).own then d else enterStopOne m standby d) (enterStopOne h standby d)

/-- At the end of the active lines of the frame, a pending STOP or STANDBY of a head or of a mirror of it takes effect. -/
def finishStop (h : Nat) (d : Dev) : Dev :=
  let d := (mirrorsOf d h).foldl (fun d m => if (d.head m).stop = 0 then d else enterStopOne m ((d.head m).stop == 2) d) d
  if (d.head h).stop = 0 then d else enterStop h ((d.head h).stop == 2) d

/-! ### Commands (R212, R213, R224, R569) -/

/-- A head command that the table of R212 does not allow. -/
def refuseCmd (h : Nat) (d : Dev) : Dev := d.setBit (Reg.HEAD_FLAGS h) 7

/-- Step 1 of R213 from STANDBY or from an image load: the head waits for its PHY. DEDUCED, log entry 38. -/
def beginCold (h : Nat) (d : Dev) : Dev :=
  (setHeadState h 2 d).updHead h (fun x => { x with
    startClk := d.clk, ready := false, genOn := false, awaitJoin := false, trained := false, tries := 0, stop := 0, own := false })

/-- The reload of step 1 from STANDBY: the timing and PHY pages, the engine page and the compositor's two pages, each by its
own stamp (R213, R180, R204). -/
def headReload (h : Nat) (d : Dev) : Dev :=
  let b := 0x2000000 + h * 0x100000
  let d := rejoinUnit (Reg.HEAD_GEN h) (reloadRange (b + 0x20000) (b + 0x40000)) d
  let d := rejoinUnit (Reg.LS_GEN h) (reloadRange (b + 0x10000) (b + 0x20000)) d
  rejoinUnit (Reg.COMP_GEN h) (fun d => reloadRange (b + 0x40000) (b + 0x50000) (reloadRange b (b + 0x10000) d)) d

/-- START of a head of its own. -/
def startOwn (h : Nat) (d : Dev) : Dev :=
  match headState d h with
  | 1 =>
    let x := d.head h
    (setHeadState h 2 d).updHead h (fun y => { y with startClk := d.clk, stop := 0, ready := x.genOn || x.ready, readyHt := d.now })
  | 5 => beginCold h (headReload h d)
  | _ => refuseCmd h d

/-- START of a mirror: back to its source's state. DEDUCED, log entry 62. -/
def startMirror (h : Nat) (d : Dev) : Dev :=
  let st := headState d h
  if st = 1 || st = 5 then
    let d := if st = 5 then headReload h d else d
    (setHeadState h (headState d (d.fld (Reg.HEAD_STATUS h) 14 12)) d).updHead h (fun x => { x with own := false, stop := 0 })
  else refuseCmd h d

/-- HEAD_CMD START, with the mirrors that follow the head. DEDUCED, log entry 62. -/
def headStart (h : Nat) (d : Dev) : Dev :=
  if isMirror d h then startMirror h d
  else
    let d' := startOwn h d
    if headState d h = 1 || headState d h = 5 then
      (mirrorsOf d' h).foldl (fun d m => if (d.head m).own then d
        else setHeadState m 2 (if headState d m = 5 then headReload m d else d)) d'
    else d'

/-- HEAD_CMD STOP or STANDBY. A mirror that takes one stops following its source (R224). -/
def headHalt (h : Nat) (standby : Bool) (d : Dev) : Dev :=
  let own (d : Dev) : Dev := if isMirror d h then d.updHead h (fun x => { x with own := true }) else d
  match headState d h with
  | 1 => if standby then enterStop h true (own d) else refuseCmd h d
  | 2 => enterStop h standby (own d)
  | 3 | 4 => (own d).updHead h (fun x => { x with stop := if standby then 2 else 1 })
  | _ => refuseCmd h d

/-- Step 2 of R213 ends, unless a device of ROLE 0 has not joined and its second has not passed (R569). -/
def markReady (h : Nat) (d : Dev) : Dev :=
  let x := d.head h
  if x.ready || x.genOn then d
  else if herdRole d = 0 && !herdJoined d && d.clk - x.startClk < 1000000000 then
    d.updHead h (fun x => { x with awaitJoin := true })
  else d.updHead h (fun x => { x with awaitJoin := false, ready := true, readyHt := d.now, sendHt := d.clk })

/-- The wait of R569 ends for one head. -/
def endJoinWait (h : Nat) (d : Dev) : Dev :=
  if (d.head h).awaitJoin then
    d.updHead h (fun x => { x with awaitJoin := false, ready := true, readyHt := d.now, sendHt := d.clk })
  else d

/-- JOINED sets: every head that waits for it goes on (R569). -/
def joinHeads (d : Dev) : Dev := forN 8 d endJoinWait

/-- The link is up (R217, R220). -/
def linkUp (h : Nat) (d : Dev) : Dev :=
  ((d.setBit (Reg.PHY_STATUS h) 1).setFld (Reg.PHY_STATUS h) 15 8 0).updHead h (fun x => { x with trained := true, tries := 0, resume := true })

/-- The PHY is up: its lanes run, its link is trained, or HPD is low, which ends step 2 with the link idle (R213). -/
def linkReady (h : Nat) (hpd : Bool) (d : Dev) : Dev :=
  if phyPowered d h && !d.bit (Reg.PHY_STATUS h) 1 then
    let d := if isDsi d h then d else d.putBit (Reg.PHY_STATUS h) 0 hpd
    markReady h (if (isDsi d h || hpd) && !phyBad d h then linkUp h d else d)
  else d

/-! ### Frames (R208 to R210, R213, R222, R229) -/

/-- The shadow post of each flock of a head for the frame that starts (R267); a handoff that is due takes place first (R272). -/
def mayShadow (d : Dev) (f p : Nat) : Bool :=
  kindOf d f p != 0 && postCell d f p != 15 && (d.flock f).takeover.isNone && (d.flock f).repen.isNone &&
  !(d.flock f).mismatch && spareCell d f != 15 && !(d.flock f).testing.contains (spareCell d f)

/-- SHADOW_POST of a flock and the SHADOWED bits. -/
def setShadow (f q : Nat) (d : Dev) : Dev :=
  forN 8 (d.setFld (Reg.FLOCK_STATUS f) 15 12 q) (fun p d => d.putBit (Reg.CELL_STATUS f p) 14 (p == q))

/-- The physical cell of a post, or of the spare post, changes: POST_MAP or SPARE, and CELL_ID of the page. -/
def setPostCell (f p c : Nat) (d : Dev) : Dev :=
  let d := d.setFld (Reg.CELL_STATUS f p) 7 4 c
  if p = 8 then d.setFld (Reg.FLOCK_STATUS f) 7 4 c else d.setFld (Reg.POST_MAP f) (4 * p + 3) (4 * p) c

/-- Exchange the cell of a post with the spare (R269, R272); the spare goes on with the post's attribute store (R133). DEDUCED, log entry 63;
DESIGN CHOICE, log entry 131. -/
def swapSpare (f p : Nat) (d : Dev) : Dev :=
  let c := postCell d f p
  let s := spareCell d f
  (setPostCell f 8 c (setPostCell f p s d)).wr (Reg.CELL_GEN f p) (d.rd Reg.GLOBAL_GEN)

/-- A handoff at a frame start: the former cell becomes the spare and runs self-test. DEDUCED, log entry 63. -/
def handoff (f : Nat) (d : Dev) : Dev :=
  match (d.flock f).handoff with
  | some p =>
    if spareCell d f = 15 || (d.flock f).takeover.isSome || (d.flock f).repen.isSome then d.updFlock f (fun x => { x with handoff := none })
    else
      let c := postCell d f p
      let d := swapSpare f p d
      let d := (d.wr (Reg.CELL_GEN f 8) 0).updFlock f (fun x => { x with handoff := none, testing := insNat c x.testing })
      (d.updCell f p (fun c => { c with cache := [] })).bump Reg.HANDOFFS
  | none => d

/-- What a frame start does to one flock. -/
def flockFrame (f k : Nat) (d : Dev) : Dev :=
  let d := handoff f d
  let q := k % 8
  let d := setShadow f (if mayShadow d f q then q else 15) d
  d.updFlock f (fun x => { x with mismatch := false })

/-- Cells that have lines of an ended frame left drop them and go on with the frame that starts. -/
def syncCell (seq : Nat) (dark : Bool) (c : CellSt) : CellSt :=
  let fix (y : LayerSt) : LayerSt :=
    if dark then { y with frame := seq, next := 8192, lineColl := [], collQ := y.collQ }
    else if y.frame < seq then { y with frame := seq, next := 0, lineColl := [] } else y
  { c with bufs := if dark then [] else c.bufs.filter (fun b => b.frame ≥ seq), l0 := fix c.l0, l1 := fix c.l1 }

/-- Every cell of a head at a frame start. -/
def syncCells (h seq : Nat) (dark : Bool) (d : Dev) : Dev :=
  (flocksOf d h).foldl (fun d f => (List.range 8).foldl (fun d p => d.updCell f p (syncCell seq dark)) d) d

/-- The flag, the event and the registers of a frame start at instant `at'`, with the MSA and the VSC SDP that the frame carries (R208, R209,
R218, R229). `src` is the head whose frames are sent. -/
def frameRegs (h src k fs at' : Nat) (d : Dev) : Dev :=
  let e : Int := (d.now : Int) - (d.clk - at' : Nat) - fs
  let enc := d.fld (Reg.OUT_ENC src) 1 0
  let dp := !isDsi d h
  let d := d.updHead h (fun x => { x with
    k := k, fs := fs, fsClk := at', resume := false
    msa := if dp && x.trained then some (if d.bit (Reg.COMP_CTRL src) 0 then 10 else 8, enc) else none
    vsc := dp && x.trained && enc == 3 })
  let d := d.wr (Reg.LOCK_ERR h) (if isCommand d h then 0 else iw (clampI (-(2 ^ 31 - 1)) (2 ^ 31 - 1) e))
  let d := d.putBit (Reg.HEAD_STATUS h) 3 (!isCommand d h && decide (-4 ≤ e) && decide (e ≤ 4))
  fire (0x10 + 8 * h) (d.setBit (Reg.HEAD_FLAGS h) 0)

/-- The number, the epoch and the instant of the frame that starts now: at the TE edge and its delay in command mode, at the first epoch
still to come when the generator starts, and otherwise where the generator predicts it (R208, R210, R213, R222). -/
def nextFrame (d : Dev) (h : Nat) : Nat × Nat × Nat :=
  let x := d.head h
  let m := modeOf d h
  if isCommand d h then
    let c := x.sendHt + m.lines (d.fld (Reg.TE_CTRL h) 15 8)
    (x.k + 1, d.now + c - d.clk, c)
  else if !x.genOn then
    let j := m.epochAfter (max x.readyHt d.now)
    (j, m.fs j, d.clk + (m.fs j - d.now))
  else (x.predK, x.predFs, x.predClk)

/-- A head may start a frame: its generator runs or starts now, and in command mode a TE edge asks for it. -/
def mayFrame (d : Dev) (h : Nat) : Bool :=
  let x := d.head h
  let st := headState d h
  !isMirror d h && st != 0 && st != 5 && (x.genOn || x.ready) && (!isCommand d h || (x.teAccepted && st != 1))

/-- The state that a frame start leads to (R213). -/
def frameState (st : Nat) : Nat := if st = 2 then 3 else if st = 3 then 4 else st

/-- STATE and STARTED of a head, and of the mirrors that follow it, at a frame start. DEDUCED, log entry 62. -/
def frameStates (h : Nat) (d : Dev) : Dev :=
  let one (m st : Nat) (d : Dev) : Dev :=
    let d := if st = 4 && headState d m = 3 then d.setBit (Reg.HEAD_FLAGS m) 2 else d
    setHeadState m st d
  let st := frameState (headState d h)
  (mirrorsOf d h).foldl (fun d m => if (d.head m).own then d else one m st d) (one h st d)

/-- The lines of a dark frame: every pixel is sent as 0 (R213). They are sent at the frame start. DEDUCED, log entry 64. -/
def darkLines (h : Nat) (d : Dev) : Dev :=
  let m := modeOf d h
  let zero := List.replicate m.hAct (0 : Word)
  if (List.range 8).any (fun m => ckWatches d m 7) then forN m.vAct d (fun n d => sendAll h n zero d) else sendAll h 0 zero d

/-- (0, 0) of a frame. -/
def headFrame (h : Nat) (d : Dev) : Dev :=
  if mayFrame d h then
    let d := if predicts d h then predict h (d.beamTo h ((modeOf d h).vTot - 7) 0) else d
    let (k, fs, at') := nextFrame d h
    let d := d.passClk at'
    let dark := headState d h == 2
    let seq := (d.head h).seq + 1
    let d := frameStates h d
    let d := d.updHead h (fun x => { x with
      seq := seq, next := 0, reading := false, latched := false, decided := false, genOn := true, ready := false,
      predicted := false, relocked := false, teAccepted := false })
    let d := (flocksOf d h).foldl (fun d f => flockFrame f k d) (syncCells h seq dark d)
    let d := (mirrorsOf d h).foldl (fun d m => if (d.head m).own then d else frameRegs m h k fs at' d) (frameRegs h h k fs at' d)
    if dark then darkLines h d else d
  else d

/-- (T - 7, 0): the generator predicts the next frame start, and relocks when it must (R210). DEDUCED, log entry 61. -/
def headPredict (h : Nat) (d : Dev) : Dev :=
  if predicts d h && phyPowered d h then predict h (d.beamTo h ((modeOf d h).vTot - 7) 0) else d

/-- The beam reaches LINE_MATCH: a line or pixel at or beyond the total never matches (LINE_MATCH). -/
def lineMatch (h : Nat) (d : Dev) : Dev :=
  let w := d.rd (Reg.LINE_MATCH h)
  let m := modeOf d h
  let src := beamHead d h
  if phyPowered d h && (d.head src).genOn && fld w 12 0 < m.vTot && fld w 29 16 < m.hTot then
    fire (0x11 + 8 * h) ((d.beamTo src (fld w 12 0) (fld w 29 16)).setBit (Reg.HEAD_FLAGS h) 1)
  else d

/-- BEAM_POS as a read returns it: the position that the pixel clock gives since the frame's start, of the source for a mirror (R17, R224). -/
def beamPos (d : Dev) (h : Nat) : Word :=
  let s := beamHead d h
  let m := modeOf d s
  if (d.head s).genOn && phyPowered d h then w32 (beamPx d s / m.hTot + beamPx d s % m.hTot * 2 ^ 16) else 0

/-! ### DisplayPort links (R217, R219) -/

/-- A training attempt ends. -/
def trainDone (h : Nat) (ok : Bool) (d : Dev) : Dev :=
  let x := d.head h
  if !isDsi d h && phyPowered d h && d.bit (Reg.PHY_STATUS h) 0 && !d.bit (Reg.PHY_STATUS h) 1 && x.tries < 3 then
    if ok && !phyBad d h then markReady h (linkUp h d)
    else
      let d := d.setFld (Reg.PHY_STATUS h) 15 8 (min 255 (d.fld (Reg.PHY_STATUS h) 15 8 + 1))
      let d := d.updHead h (fun x => { x with tries := x.tries + 1, failClk := d.clk })
      if x.tries + 1 = 3 then markReady h (d.setBit (Reg.HEAD_FLAGS h) 5) else d
  else d

/-- 1 s after a failed series, while HPD is high, a new series of three attempts begins. -/
def trainRetry (h : Nat) (d : Dev) : Dev :=
  if !isDsi d h && phyPowered d h && d.bit (Reg.PHY_STATUS h) 0 && !d.bit (Reg.PHY_STATUS h) 1 && (d.head h).tries ≥ 3 then
    (d.passClk ((d.head h).failClk + 1000000000)).updHead h (fun x => { x with tries := 0 })
  else d

/-- HPD has been low for more than 2 ms. -/
def hpdLoss (h : Nat) (d : Dev) : Dev :=
  if !isDsi d h && d.bit (Reg.PHY_STATUS h) 0 then
    let d := (d.clrBit (Reg.PHY_STATUS h) 0).clrBit (Reg.PHY_STATUS h) 1
    let d := d.updHead h (fun x => { x with trained := false, tries := 0 })
    if phyPowered d h then d.setBit (Reg.HEAD_FLAGS h) 4 else d
  else d

/-- HPD rises: the head trains. -/
def hpdRise (h : Nat) (d : Dev) : Dev :=
  if isDsi d h then d
  else (d.setBit (Reg.PHY_STATUS h) 0).updHead h (fun x => { x with tries := 0 })

/-- An HPD low pulse of 0.25 to 2 ms: the head reads the sink's status and retrains if the sink reports lost lock. -/
def hpdPulse (h : Nat) (lost : Bool) (d : Dev) : Dev :=
  if !isDsi d h && phyPowered d h && d.bit (Reg.PHY_STATUS h) 0 then
    let d := if lost then (d.clrBit (Reg.PHY_STATUS h) 1).updHead h (fun x => { x with trained := false, tries := 0 }) else d
    d.setBit (Reg.HEAD_FLAGS h) 11
  else d

/-! ### The side channel (R219, R223, SIDE_CMD) -/

/-- A transaction ends with RESULT and COUNT. -/
def sideEnd (h result count : Nat) (d : Dev) : Dev :=
  (d.wr (Reg.SIDE_STATUS h) (w32 (result * 2 + count * 2 ^ 4))).setBit (Reg.HEAD_FLAGS h) 12

/-- The AUX request codes of the standard. -/
def auxCode (c : Nat) : Bool := c == 0x8 || c == 0x9 || c == 0x0 || c == 0x4 || c == 0x1 || c == 0x5

/-- Whether the sink or the panel can be reached: HPD high, or the lanes on. -/
def sideReach (d : Dev) (h : Nat) : Bool :=
  phyPowered d h && (if isDsi d h then d.bit (Reg.PHY_STATUS h) 1 else d.bit (Reg.PHY_STATUS h) 0)

/-- A SIDE_CMD write. -/
def sideStart (h : Nat) (v : Word) (d : Dev) : Dev :=
  if d.bit (Reg.SIDE_STATUS h) 0 || !bitOf v 31 then d
  else if !isDsi d h && !auxCode (fld v 3 0) then sideEnd h 4 0 d
  else if !sideReach d h then sideEnd h 5 0 d
  else (d.wr (Reg.SIDE_STATUS h) 1).updHead h (fun x => { x with sideReq := v &&& 0xFFFFFFF, sideTries := 0 })

/-- Store the bytes that a transaction returned. -/
def sideStore (h : Nat) (data : List Byte) (d : Dev) : Dev :=
  forN data.length d (fun i d => d.setFld (Reg.SIDE_DATA h (i / 4)) (8 * (i % 4) + 7) (8 * (i % 4)) (data.getD i 0).toNat)

/-- Whether the transaction in progress returns data. -/
def sideReads (d : Dev) (h : Nat) : Bool :=
  let q := (d.head h).sideReq
  if isDsi d h then bitOf q 12 else fld q 3 0 == 0x9 || fld q 3 0 == 0x1 || fld q 3 0 == 0x5

/-- The transaction ends: `result` 0 ACK, 1 NACK or 5 no link; `data` is what a read returned and `wrote` counts the bytes of a
write. DESIGN CHOICE, log entry 117. -/
def sideDone (h result wrote : Nat) (data : List Byte) (d : Dev) : Dev :=
  if d.bit (Reg.SIDE_STATUS h) 0 then
    if sideReads d h then
      let b := if result = 0 then data.take 16 else []
      sideEnd h result b.length (sideStore h b d)
    else sideEnd h result (min wrote 16) d
  else d

/-- A DEFER reply: retried up to 7 times. -/
def sideDefer (h : Nat) (d : Dev) : Dev :=
  if d.bit (Reg.SIDE_STATUS h) 0 && !isDsi d h then
    if (d.head h).sideTries < 7 then d.updHead h (fun x => { x with sideTries := x.sideTries + 1 }) else sideEnd h 2 0 d
  else d

/-- No reply within 400 µs. -/
def sideTimeout (h : Nat) (d : Dev) : Dev :=
  if d.bit (Reg.SIDE_STATUS h) 0 && !isDsi d h then sideEnd h 3 0 d else d

/-! ### Command mode (R222, R223) -/

/-- Line periods since the instant from which TE edges count. -/
def sinceDecision (d : Dev) (h n : Nat) : Bool :=
  let m := modeOf d h
  (d.clk - (d.head h).sendHt) * m.pd * m.vTot ≥ n * m.pn

/-- A TE edge, rising or falling, `wait` herd-clock periods after the command before it. -/
def teEdge (h : Nat) (rising : Bool) (wait : Nat) (d : Dev) : Dev :=
  let d := d.pass wait
  let st := headState d h
  if !isCommand d h || rising == d.bit (Reg.TE_CTRL h) 0 || !(st = 2 || st = 3 || st = 4) then d
  else if (st = 2 && (d.head h).ready) || (st != 2 && (d.head h).decided && ((d.head h).teAccepted || sinceDecision d h 6)) then
    let m := modeOf d h
    let d := d.updHead h (fun x => { x with teAccepted := true, teHt := d.now, sendHt := if x.teAccepted then x.sendHt else d.clk })
    let k := d.now * m.pd / m.pn
    let fs := if m.fs (k + 1) ≤ d.now then m.fs (k + 1) else m.fs k
    d.wr (Reg.TE_PHASE h) (w32 (d.now - fs))
  else d.setBit (Reg.HEAD_FLAGS h) 9

/-- No edge has been accepted within two frame periods: the head sends the frame as though one had arrived. -/
def teMissing (h : Nat) (d : Dev) : Dev :=
  let st := headState d h
  let x := d.head h
  if isCommand d h && !x.teAccepted && ((st = 2 && x.ready) || ((st = 3 || st = 4) && x.decided)) then
    let d := d.passClk (x.sendHt + (2 * (modeOf d h).pn + (modeOf d h).pd - 1) / (modeOf d h).pd)
    (d.updHead h (fun x => { x with teAccepted := true, sendHt := d.clk })).setBit (Reg.HEAD_FLAGS h) 10
  else d

/-! ### Registers -/

/-- The DSI lane rate in Mb/s (R220). -/
def laneMbps (d : Dev) (h : Nat) : Nat :=
  let m := modeOf d h
  let bits := if d.bit (Reg.COMP_CTRL h) 0 then 30 else 24
  (m.den * bits * 1125 + m.pn * 40 - 1) / (m.pn * 40) * 10

/-- PHY_LATENCY as a read returns it (R211, R220): the latency is fixed by the link type, rate and depth; a head that is off has none.
DESIGN CHOICE, log entry 9. -/
def phyLatency (d : Dev) (h : Nat) : Word :=
  if headState d h = 0 then 0
  else
    let dsi := isDsi d h
    let lat := Config.phyLatency dsi (if dsi then laneMbps d h else d.fld (Reg.PHY_STATUS h) 3 2) (d.fld (Reg.COMP_CTRL h) 0 0) (d.bit (Reg.PHY_STATUS h) 1)
    w32 (lat.toNat + (if dsi then laneMbps d h * 2 ^ 16 else 0))

/-- A write of the timing page; HEAD_CMD has rows of its own. OUT_ENC 2 and 3 are refused on a DSI head. -/
def scanWrite (h o : Nat) (v : Word) (d : Dev) : Dev :=
  match findRow rowsSCAN o with
  | none => d
  | some (r, _, _) =>
    let a := 0x2020000 + h * 0x100000 + o
    if o = 0x044 && fld v 1 0 ≥ 2 && isDsi d h then d.setBit (Reg.HEAD_FLAGS h) 8 else d.wr a (r.merge (d.rd a) v)

/-- A HEAD_CMD write (R212). -/
def headCmd (h : Nat) (v : Word) (d : Dev) : Dev :=
  match fld v 1 0 with
  | 1 => headStart h d
  | 2 => headHalt h false d
  | 3 => headHalt h true d
  | _ => d

/-! ### The end of the active lines -/

/-- The beam reaches (first blanking line, 0): the statistics are latched, and a pending STOP takes effect (R90, R212). -/
def blanking (h : Nat) (s : State) : State :=
  let was := (s.dev.head h).latched
  let s := statsLatch h s
  if !was && (s.dev.head h).latched then s.upd (finishStop h) else s

/-! ### The steps -/

/-- STATS_LATCH (R90). -/
def execStatsLatch (h : Fin 8) (s : State) : Host.Outcome State Fault Refusal := .next (blanking h s)

/-- HEAD_START (R213). -/
def execHeadStart (h : Fin 8) (s : State) : Host.Outcome State Fault Refusal := s.next (headStart h)
/-- HEAD_STOP (R212). -/
def execHeadStop (h : Fin 8) (s : State) : Host.Outcome State Fault Refusal := s.next (headHalt h false)
/-- HEAD_STANDBY (R212). -/
def execHeadStandby (h : Fin 8) (s : State) : Host.Outcome State Fault Refusal := s.next (headHalt h true)
/-- HEAD_LINK_READY (R213). -/
def execHeadLinkReady (h : Fin 8) (hpd : Bool) (s : State) : Host.Outcome State Fault Refusal := s.next (linkReady h hpd)
/-- HEAD_FRAME_START (R208). -/
def execHeadFrameStart (h : Fin 8) (s : State) : Host.Outcome State Fault Refusal := s.next (headFrame h)
/-- HEAD_FRAME_PREDICT (R210). -/
def execHeadFramePredict (h : Fin 8) (s : State) : Host.Outcome State Fault Refusal := s.next (headPredict h)
/-- BEAM_LINE_MATCH (R229). -/
def execBeamLineMatch (h : Fin 8) (s : State) : Host.Outcome State Fault Refusal := s.next (lineMatch h)
/-- LINK_TRAIN_ATTEMPT_DONE (R217). -/
def execLinkTrainAttemptDone (h : Fin 8) (ok : Bool) (s : State) : Host.Outcome State Fault Refusal := s.next (trainDone h ok)
/-- TRAIN_RETRY (R217). -/
def execTrainRetry (h : Fin 8) (s : State) : Host.Outcome State Fault Refusal := s.next (trainRetry h)
/-- HPD_LOSS (R219). -/
def execHpdLoss (h : Fin 8) (s : State) : Host.Outcome State Fault Refusal := s.next (hpdLoss h)
/-- HPD_IRQ_PULSE (R219). -/
def execHpdIrqPulse (h : Fin 8) (lost : Bool) (s : State) : Host.Outcome State Fault Refusal := s.next (hpdPulse h lost)
/-- HPD_RISE (R219). -/
def execHpdRise (h : Fin 8) (s : State) : Host.Outcome State Fault Refusal := s.next (hpdRise h)
/-- SIDE_TRANSACTION: a SIDE_CMD write. -/
def execSideTransaction (h : Fin 8) (v : Word) (s : State) : Host.Outcome State Fault Refusal :=
  s.next (fun d => (sideStart h v d).okay)
/-- AUX_DEFER_RETRY (R219). -/
def execAuxDeferRetry (h : Fin 8) (s : State) : Host.Outcome State Fault Refusal := s.next (sideDefer h)
/-- AUX_TIMEOUT (R219). -/
def execAuxTimeout (h : Fin 8) (s : State) : Host.Outcome State Fault Refusal := s.next (sideTimeout h)
/-- SIDE_TRANSACTION_DONE (R219). -/
def execSideTransactionDone (h : Fin 8) (result : Fin 6) (wrote : Nat) (data : List Byte) (s : State) :
    Host.Outcome State Fault Refusal := s.next (sideDone h result wrote data)
/-- TE_EDGE (R223). -/
def execTeEdge (h : Fin 8) (rising : Bool) (wait : Nat) (s : State) : Host.Outcome State Fault Refusal :=
  s.next (teEdge h rising wait)
/-- TE_MISSING (R223). -/
def execTeMissing (h : Fin 8) (s : State) : Host.Outcome State Fault Refusal := s.next (teMissing h)

end Sys2Proof.Machine
end

