-- ==== Sys2Proof/Machine/Bellwether.lean ====
section
/-! DEFINITION. The Bellwether interrupt controller (R320 to R335): running priorities, offers, claims, completion and
coalescing. -/
namespace Sys2Proof.Machine

/-- A source's own state. -/
def Dev.src (d : Dev) (n : Nat) : Src := Store.get (fun _ => {}) d.srcs n
/-- Change a source's own state. -/
def Dev.setSrc (d : Dev) (n : Nat) (x : Src) : Dev := { d with srcs := Store.set (fun _ => {}) d.srcs n x }
/-- The stack of yoke y, top first: source and its PRIO at the claim (R323). -/
def Dev.bwStack (d : Dev) (y : Nat) : List (Nat × Nat) := Store.get (fun _ => []) d.bwStacks y
/-- Replace the stack of yoke y. -/
def Dev.setBwStack (d : Dev) (y : Nat) (l : List (Nat × Nat)) : Dev :=
  { d with bwStacks := Store.set (fun _ => []) d.bwStacks y l }
/-- A coalescing set. -/
def Dev.coal (d : Dev) (k : Nat) : Coal := Store.get (fun _ => {}) d.coals k
/-- Change a coalescing set. -/
def Dev.setCoal (d : Dev) (k : Nat) (x : Coal) : Dev := { d with coals := Store.set (fun _ => {}) d.coals k x }

/-- PRIO of a source. -/
def srcPrio (d : Dev) (n : Nat) : Nat := d.fld (Reg.SRC_CFG n) 5 0
/-- Whether yoke y is in TARGET of source n. -/
def srcTargets (d : Dev) (n y : Nat) : Bool := d.bit (Reg.SRC_CFG n) (8 + y)
/-- The set of which source n is a member (R331). -/
def memberOf (d : Dev) (n : Nat) : Option Nat :=
  if d.bit (Reg.SRC_CFG n) 21 then some (d.fld (Reg.SRC_CFG n) 20 16) else none
/-- EN of set k. -/
def coalEn (d : Dev) (k : Nat) : Bool := d.bit (Reg.COAL_CFG k) 9
/-- REP of set k. -/
def coalRep (d : Dev) (k : Nat) : Nat := d.fld (Reg.COAL_CFG k) 8 0
/-- The enabled set that holds source n, if any. -/
def heldBy (d : Dev) (n : Nat) : Option Nat :=
  match memberOf d n with
  | some k => if coalEn d k then some k else none
  | none => none

/-- Whether a source is claimed. -/
def isClaimed (d : Dev) (n : Nat) : Bool := match (d.src n).st with | .claimed _ => true | _ => false

/-- A source is pending (R320); the REP of an enabled set is pending while the set is fired (R332). -/
def srcPending (d : Dev) (n : Nat) : Bool :=
  1 ≤ n && n < 512 && srcPrio d n ≥ 1 && !isClaimed d n &&
  (match heldBy d n with
   | some k => coalRep d k == n && (d.coal k).fired
   | none => srcLevel d n)

/-- A yoke that the image enables: its STATE is not off (R323). -/
def yokeOn (d : Dev) (y : Nat) : Bool := d.fld (Reg.YOKE_STATE y) 12 10 != 0
/-- A halted yoke (R279). -/
def yokeHalted (d : Dev) (y : Nat) : Bool :=
  d.fld (Reg.YOKE_STATE y) 12 10 == 5 || d.fld (Reg.YOKE_STATE y) 12 10 == 6

/-- A yoke that target sets may hold (R323): one that runs under the image, or has stopped at its deep checkpoint (R561). -/
def yokeTaken (d : Dev) (y : Nat) : Bool := yokeOn d y || d.pw.deep.any (fun e => e.1 == y)

/-- The running priority of yoke y (R323). -/
def runPrio (d : Dev) (y : Nat) : Nat :=
  if yokeHalted d y then 63
  else max (d.fld (Reg.BASE_PRIO y) 5 0) (match d.bwStack y with | [] => 0 | e :: _ => e.2)

/-- The running priority as offers and the request line take it: 63 for a full stack (R323). -/
def offerPrio (d : Dev) (y : Nat) : Nat := if (d.bwStack y).length ≥ 8 then 63 else runPrio d y

/-- Whether yoke y is eligible for source n (R324). -/
def eligible (d : Dev) (n y : Nat) : Bool := srcTargets d n y && yokeTaken d y && decide (offerPrio d y < srcPrio d n)

/-- Of two candidate yokes the better one: lower running priority, the first in the order after LAST on a tie (R324). -/
def betterYoke (d : Dev) (n : Nat) (best : Option Nat) (y : Nat) : Option Nat :=
  if eligible d n y then
    match best with
    | none => some y
    | some b => if offerPrio d y < offerPrio d b then some y else some b
  else best

/-- The eligible yoke that R324 chooses. -/
def chooseYoke (d : Dev) (n : Nat) : Option Nat :=
  ((List.range 8).map (fun i => ((d.src n).last + 1 + i) % 8)).foldl (betterYoke d n) none

/-- Offer a source, or park it, or return it to idle when it is not pending (R324, R325). -/
def offer (n : Nat) (d : Dev) : Dev :=
  if isClaimed d n then d
  else if srcPending d n then
    match chooseYoke d n with
    | some y => d.setSrc n { d.src n with st := .offered y }
    | none => d.setSrc n { d.src n with st := .parked }
  else d.setSrc n { d.src n with st := .idle }

/-- After a change of running priorities from those of `old` (R325): a source offered to a yoke whose priority rose, and a
parked source of a yoke whose priority fell, are offered again. -/
def reofferOne (old : Dev) (n : Nat) (d : Dev) : Dev :=
  match (d.src n).st with
  | .offered y => if offerPrio old y < offerPrio d y then offer n d else d
  | .parked => if (List.range 8).any (fun y => srcTargets d n y && decide (offerPrio d y < offerPrio old y)) then offer n d else d
  | _ => d

/-- Re-offer every source that a change of running priorities concerns (R325, R326). An offer changes no running priority,
so the order among them changes nothing. -/
def reoffer (old d : Dev) : Dev := (d.srcs.map (·.1)).foldl (fun d n => reofferOne old n d) d

/-- The yokes that target sets hold have changed: a source that is parked, or offered to a yoke that they hold no more, is offered anew
(R323, R324). -/
def offerAnew (d : Dev) : Dev :=
  (d.srcs.map (·.1)).foldl (fun d n =>
    match (d.src n).st with
    | .offered y => if yokeTaken d y then d else offer n d
    | .parked => offer n d
    | _ => d) d

/-- Do something that may change running priorities, then re-offer (R325). -/
def withReoffer (f : Dev → Dev) (d : Dev) : Dev := reoffer d (f d)

/-! ### Claim and complete -/

/-- Of the sources offered to yoke y, the one with the highest PRIO, then the highest number (R328); 0 when none. -/
def bestOffered (d : Dev) (y : Nat) : Nat :=
  (d.srcs.map (·.1)).foldl (fun b n =>
    if n ≠ 0 && (d.src n).st = .offered y && (b == 0 || srcPrio d b < srcPrio d n || (srcPrio d b == srcPrio d n && b ≤ n))
    then n else b) 0

/-- Record the yoke of the last COMPLETE_ERR or STACK_FULL. -/
def bwNote (y bit : Nat) (d : Dev) : Dev := (d.setBit Reg.BW_FLAGS bit).setFld Reg.BW_FLAGS 10 8 y

/-- A CLAIM[y] read (R328): the number returned and the state after. -/
def claimRead (q : Req) (y : Nat) (d : Dev) : Nat × Dev :=
  if q ≠ .yoke y then (0, d)
  else if (d.bwStack y).length ≥ 8 then (0, bwNote y 2 d)
  else
    let n := bestOffered d y
    if n = 0 then (0, d)
    else (n, withReoffer (fun d => (d.setSrc n { d.src n with st := .claimed y, last := y }).setBwStack y ((n, srcPrio d n) :: d.bwStack y)) d)

/-- The number of members of set k whose level is asserted, and the set's members marked as seen (R331, R332). -/
def countAsserted (k : Nat) (d : Dev) : Nat × Dev :=
  forN 512 (0, d) (fun n p =>
    if memberOf p.2 n = some k then
      (p.1 + (if srcLevel p.2 n then 1 else 0), p.2.setSrc n { p.2.src n with seen := srcLevel p.2 n })
    else p)

/-- Fire a set: REP becomes pending and is offered (R332). -/
def coalFire (k : Nat) (d : Dev) : Dev :=
  offer (coalRep d k) (d.setCoal k { d.coal k with fired := true, timing := false })

/-- Fire a set whose COUNT has reached COUNT_TH. -/
def coalCheck (k : Nat) (d : Dev) : Dev :=
  if coalEn d k && !(d.coal k).fired && (d.coal k).count ≥ d.fld (Reg.COAL_CFG k) 25 16 then coalFire k d else d

/-- Rearm a set (R332): COUNT becomes the members asserted now, and the time count starts now for them. DEDUCED: with none
asserted, it starts at the first counted assertion (log entry 22). -/
def coalRearm (k : Nat) (d : Dev) : Dev :=
  let (c, d) := countAsserted k d
  coalCheck k (d.setCoal k
    { count := min c 1023, fired := false, timing := decide (c ≥ 1), firstHt := if c = 0 then (d.coal k).firstHt else d.ht, firstClk := d.clk })

/-- Return a claimed source to idle, and offer it anew when it is still pending (R329); the REP of an enabled set rearms
it (R332). -/
def completeSrc (n : Nat) (d : Dev) : Dev :=
  let d := d.setSrc n { d.src n with st := .idle }
  match heldBy d n with
  | some k => if coalRep d k = n then coalRearm k d else d
  | none => if srcPending d n then offer n d else d

/-- A COMPLETE[y] write (R329). -/
def completeWrite (q : Req) (y : Nat) (v : Word) (d : Dev) : Dev :=
  if q ≠ .yoke y then d.deny
  else
    let n := fld v 8 0
    if n = 0 then d.okay
    else match d.bwStack y with
      | e :: l =>
        if e.1 = n then (withReoffer (fun d => completeSrc n (d.setBwStack y l)) d).okay else (bwNote y 1 d).okay
      | [] => (bwNote y 1 d).okay

/-- RESTART and RESUME empty a yoke's stack; each source it held claimed is completed (R330). -/
def emptyStack (y : Nat) (d : Dev) : Dev := (d.bwStack y).foldl (fun d e => completeSrc e.1 d) (d.setBwStack y [])

/-! ### Assertion and coalescing -/

/-- A rising assertion of a member of an enabled set (R332). -/
def coalAssert (k n : Nat) (d : Dev) : Dev :=
  if (d.src n).seen then d
  else
    let d := d.setSrc n { d.src n with seen := true }
    let c := d.coal k
    let c' := if c.count = 0 && !c.fired then { c with timing := true, firstHt := d.ht, firstClk := d.clk } else c
    coalCheck k (d.setCoal k { c' with count := min (c.count + 1) 1023 })

/-- A source's level is found asserted: it becomes pending and is offered or parked (R324), or its set counts it (R332). -/
def sourceAssert (n : Nat) (d : Dev) : Dev :=
  if srcLevel d n then
    match heldBy d n with
    | some k => coalAssert k n d
    | none =>
      let d := d.setSrc n { d.src n with seen := true }
      if (d.src n).st = .idle && srcPending d n then offer n d else d
  else d

/-- A source's level has fallen: offered or parked, it returns to idle (R325). -/
def sourceDeassert (n : Nat) (d : Dev) : Dev :=
  if srcLevel d n then d
  else
    let d := d.setSrc n { d.src n with seen := false }
    match heldBy d n, (d.src n).st with
    | none, .offered _ => d.setSrc n { d.src n with st := .idle }
    | none, .parked => d.setSrc n { d.src n with st := .idle }
    | _, _ => d

/-- TIME_TH µs have passed since the first counted assertion (R332), counted in herd-clock periods (R600). -/
def coalTimeout (k : Nat) (d : Dev) : Dev :=
  let c := d.coal k
  if coalEn d k && c.timing && !c.fired && d.clk - c.firstClk ≥ (d.rd (Reg.COAL_TIME k)).toNat * 1000 then coalFire k d else d

/-! ### Writes of the page (R335) -/

/-- A BASE_PRIO[y] write: by a Keeper requester or by yoke y itself. -/
def basePrioWrite (q : Req) (y : Nat) (v : Word) (d : Dev) : Dev :=
  if d.keeper q || q = .yoke y then (withReoffer (fun d => d.wr (Reg.BASE_PRIO y) (v &&& 0x3F)) d).okay else d.deny

/-- Whether source n is the REP of an enabled set that a SRC_CFG value would take it out of (R333). -/
def leavesSet (d : Dev) (n : Nat) (v : Word) : Bool :=
  match heldBy d n with
  | some k => coalRep d k == n && !(bitOf v 21 && fld v 20 16 == k)
  | none => false

/-- A SRC_CFG[n] write (R325, R333, R335): the source is offered again under its new set-up. -/
def srcCfgWrite (q : Req) (n : Nat) (v : Word) (d : Dev) : Dev :=
  if !d.keeper q then d.deny
  else if leavesSet d n v then (d.setBit Reg.BW_FLAGS 0).okay
  else (offer n (d.wr (Reg.SRC_CFG n) (v &&& 0x3FFF3F))).okay

/-- A SWI_SET[i] or SWI_CLR[i] write (R322). -/
def swiWrite (i : Nat) (v : Word) (set : Bool) (d : Dev) : Dev :=
  (d.wr (Reg.SWI_SET i) (if set then d.rd (Reg.SWI_SET i) ||| v else d.rd (Reg.SWI_SET i) &&& ~~~ v)).okay

/-- Whether source n is a member of set k. -/
def isMember (d : Dev) (n k : Nat) : Bool := 1 ≤ n && memberOf d n == some k

/-- Every member of set k is offered anew as an ordinary source, or withdrawn as a member of an enabled set (R331). -/
def regroup (k : Nat) (d : Dev) : Dev :=
  forN 512 d (fun n d => if memberOf d n = some k && !isClaimed d n then offer n d else d)

/-- A COAL_CFG[k] write (R331 to R333). -/
def coalCfgWrite (q : Req) (k : Nat) (v : Word) (d : Dev) : Dev :=
  if !d.keeper q then d.deny
  else if fld v 25 16 = 0 || (bitOf v 9 && !isMember d (fld v 8 0) k) then (d.setBit Reg.BW_FLAGS 0).okay
  else
    let was := coalEn d k
    let d := d.wr (Reg.COAL_CFG k) (v &&& 0x3FF03FF)
    if !was && bitOf v 9 then (coalRearm k (regroup k d)).okay
    else if was && !bitOf v 9 then (regroup k (d.setCoal k {})).okay
    else if was && (d.coal k).fired then (regroup k d).okay
    else (coalCheck k d).okay

/-- A COAL_TIME[k] write: it can fire the set at once (R332). -/
def coalTimeWrite (q : Req) (k : Nat) (v : Word) (d : Dev) : Dev :=
  if !d.keeper q then d.deny
  else if fld v 19 0 = 0 || fld v 19 0 > 1000000 then (d.setBit Reg.BW_FLAGS 0).okay
  else (coalTimeout k (d.wr (Reg.COAL_TIME k) (v &&& 0xFFFFF))).okay

/-! ### Registers as a read returns them -/

/-- SRC_STATE[n] (R335). -/
def srcState (d : Dev) (n : Nat) : Word :=
  let x := d.src n
  let held := (heldBy d n).isSome && (match x.st with | .idle => true | _ => false)
  let (st, y) := match x.st with
    | .idle => (if held then 4 else 0, 0)
    | .parked => (1, 0)
    | .offered y => (2, y)
    | .claimed y => (3, y)
  w32 ((if srcLevel d n then 1 else 0) + (if srcPending d n then 2 else 0) + st * 4 + y * 0x100 + x.last * 0x1000)

/-- PENDING[w] (R335). -/
def pendingWord (d : Dev) (w : Nat) : Word :=
  forN 32 0 (fun j x => if srcPending d (32 * w + j) then x ||| w32 (2 ^ j) else x)

/-- RUN_PRIO[y] (R335): the request line asserts while a source is offered to y (R327). -/
def runPrioWord (d : Dev) (y : Nat) : Word :=
  w32 (runPrio d y + (d.bwStack y).length * 0x100 + (if bestOffered d y ≠ 0 then 0x1000 else 0))

/-- The request line of yoke y (R327). -/
def reqLine (d : Dev) (y : Nat) : Bool := bestOffered d y != 0

/-- STACK_TOP[y]. -/
def stackTop (d : Dev) (y : Nat) : Word := match d.bwStack y with | [] => 0 | e :: _ => w32 (e.1 + e.2 * 0x10000)

/-- COAL_STATUS[k]. -/
def coalStatus (d : Dev) (k : Nat) : Word :=
  let c := d.coal k
  w32 (c.count + (if c.fired then 0x10000 else 0) + (if c.timing then 0x20000 else 0))

/-! ### The steps -/

/-- SOURCE_ASSERT (R324). -/
def execSourceAssert (n : Fin 512) (s : State) : Host.Outcome State Fault Refusal := s.next (sourceAssert n)
/-- SOURCE_DEASSERT (R325). -/
def execSourceDeassert (n : Fin 512) (s : State) : Host.Outcome State Fault Refusal := s.next (sourceDeassert n)
/-- CLAIM (R328): the requester receives the number. -/
def execClaim (q : Req) (y : Fin 8) (s : State) : Host.Outcome State Fault Refusal :=
  s.next (fun d => let (n, d) := claimRead q y d; d.answer (.ok (w32 n)))
/-- COMPLETE (R329). -/
def execComplete (q : Req) (y : Fin 8) (v : Word) (s : State) : Host.Outcome State Fault Refusal := s.next (completeWrite q y v)
/-- BASE_PRIO_WRITE (R325). -/
def execBasePrioWrite (q : Req) (y : Fin 8) (v : Word) (s : State) : Host.Outcome State Fault Refusal := s.next (basePrioWrite q y v)
/-- SRC_CFG_WRITE (R325); source 0 does not exist, and its offset ignores writes. -/
def execSrcCfgWrite (q : Req) (n : Fin 512) (v : Word) (s : State) : Host.Outcome State Fault Refusal :=
  s.next (fun d => if n.val = 0 then (if d.keeper q then d.okay else d.deny) else srcCfgWrite q n v d)
/-- SWI_SET (R322). -/
def execSwiSet (i : Fin 4) (v : Word) (s : State) : Host.Outcome State Fault Refusal := s.next (swiWrite i v true)
/-- SWI_CLR (R322). -/
def execSwiClr (i : Fin 4) (v : Word) (s : State) : Host.Outcome State Fault Refusal := s.next (swiWrite i v false)
/-- COAL_CFG_WRITE (R331). -/
def execCoalCfgWrite (q : Req) (k : Fin 32) (v : Word) (s : State) : Host.Outcome State Fault Refusal := s.next (coalCfgWrite q k v)
/-- COAL_TIME_WRITE (R332). -/
def execCoalTimeWrite (q : Req) (k : Fin 32) (v : Word) (s : State) : Host.Outcome State Fault Refusal := s.next (coalTimeWrite q k v)
/-- COAL_TIMEOUT (R332). -/
def execCoalTimeout (k : Fin 32) (s : State) : Host.Outcome State Fault Refusal := s.next (coalTimeout k)

end Sys2Proof.Machine
end

