-- ==== Sys2Proof/Machine/Rail.lean ====
section
/-! DEFINITION. The array rail, twin admission, and the regime and mode fields (R26 to R31, R93 to R98, R288, R555). -/
namespace Sys2Proof.Machine

/-! ### Twin admission (R95 to R98) -/

/-- Guaranteed throughput in Mpx/s at a rail code, 0.60 V + code × 10 mV (R95). DEDUCED, log entry 68. -/
def throughput (code : Nat) : Nat :=
  if code < 10 then 1150 else if code < 15 then 1300 else if code < 20 then 1500 else if code < 25 then 1700 else 1900
/-- The doubled rate of a mode in kpx/s at its integer rate, rounded up (R96). -/
def doubledRate (mode : Nat) : Nat :=
  let m := modeTable mode
  (2 * m.hAct * m.vTot * m.pd * 1000000 + m.pn - 1) / m.pn
/-- Whether a twin cell of a head in `mode` is admitted at a cap (R97). DEDUCED, log entry 68. -/
def twinFits (mode cap : Nat) : Bool := doubledRate mode ≤ throughput cap * 1000
/-- The lowest rail of the R95 table that carries a doubled rate, if any. DEDUCED, log entry 68. -/
def twinRail (mode : Nat) : Nat :=
  if doubledRate mode ≤ 1150000 then 0 else if doubledRate mode ≤ 1300000 then 10 else if doubledRate mode ≤ 1500000 then 15
  else if doubledRate mode ≤ 1700000 then 20 else 25

/-- The modes of the heads of all twin posts. -/
def twinModes (d : Dev) : List Nat :=
  (List.range 16).flatMap (fun f =>
    if flockHead d f < 8 && (List.range 8).any (fun p => kindOf d f p != 0 && twinOf d f p)
    then [d.fld (Reg.HEAD_STATUS (flockHead d f)) 7 4] else [])
/-- Whether any cell has twin mode set. -/
def anyTwin (d : Dev) : Bool := (List.range 16).any (fun f => (List.range 8).any (fun p => kindOf d f p != 0 && twinOf d f p))
/-- The rail floor: 0.60 V or the twin floor (R94, R98). DEDUCED, log entry 68. -/
def railFloor (d : Dev) : Nat := (twinModes d).foldl (fun m k => max m (twinRail k)) 0

/-! ### Requests (R555, R288) -/

/-- LEVEL of the array rail. -/
def railLevel (d : Dev) : Nat := d.fld Reg.RAIL_STATUS 4 0
/-- The cap in force: 0.65 V from the moment MOVING sets (R93). -/
def railCap (d : Dev) : Nat := if d.bit Reg.REGIME_STATUS 1 then 5 else d.fld Reg.MODE 4 0
/-- Change the rail control. -/
def Dev.updRail (d : Dev) (f : Rail → Rail) : Dev := { d with rail := f d.rail }

/-- Request a level over AVSBus. No request is made while ARRAY_PG is low or while one is outstanding. -/
def railRequest (lvl : Nat) (d : Dev) : Dev :=
  if d.rail.pg && d.rail.request.isNone then
    (d.updRail (fun r => { r with request := some lvl, requestAt := d.clk, failed := none })).setBit Reg.RAIL_STATUS 10
  else d

/-- RAIL_CAPPED in every flock and in ST_FLAGS (R93). -/
def railCapped (d : Dev) : Dev := (forN 16 d (fun f d => d.setBit (Reg.FLOCK_STATUS f) 11)).setBit Reg.ST_FLAGS 7

/-! ### The move to Draught (R26) -/

/-- The yoke state beyond its page. -/
def Dev.yk (d : Dev) (y : Nat) : YokeSt := Store.get (fun _ => {}) d.yokes y
/-- Change the yoke state. -/
def Dev.updYk (d : Dev) (y : Nat) (g : YokeSt → YokeSt) : Dev := { d with yokes := Store.set (fun _ => {}) d.yokes y (g (d.yk y)) }

/-- Whether a re-pen runs. DEDUCED, log entry 30. -/
def repenBusy (d : Dev) : Bool := d.bit Reg.REPEN_STATUS 0
/-- Whether a move has reached step 2, which waits for a re-pen in progress at step 1 and for no later one. -/
def moveFree (d : Dev) : Bool := d.bit Reg.REGIME_STATUS 1 && d.rail.frozen
/-- Step 2 of a move: reached once no re-pen is in progress. -/
def moveFreeze (d : Dev) : Dev :=
  if d.bit Reg.REGIME_STATUS 1 && !repenBusy d then d.updRail (fun r => { r with frozen := true }) else d
/-- Step 3 is done: the rail is at or below 0.65 V. -/
def moveRailDone (d : Dev) : Bool := moveFree d && railLevel d ≤ 5
/-- Step 6: when steps 3 to 5 are done, REGIME reads Draught, MOVING clears and the mode fields read their Draught values. Steps 4 and 5
count as done where the interval in force is 100 µs and the period 6 h already. DESIGN CHOICE, log entry 119. -/
def moveCheck (d : Dev) : Dev :=
  if moveRailDone d && (List.range 8).all (fun y => !yokeOn d y || (d.yk y).interval == 10) && d.mc.scrub == 2 then
    let d := ((d.setBit Reg.REGIME_STATUS 0).clrBit Reg.REGIME_STATUS 1).updRail (fun r => { r with frozen := false })
    ((d.setFld Reg.MODE 4 0 5).setFld Reg.MODE 15 8 10).setFld Reg.MODE 17 16 2
  else d

/-- A TO_DRAUGHT write (R26, R30). -/
def toDraught (q : Req) (v : Word) (d : Dev) : Dev :=
  if !d.keeper q then d.deny
  else if !bitOf v 0 || d.bit Reg.REGIME_STATUS 0 || d.bit Reg.REGIME_STATUS 1 then d.okay
  else if anyTwin d then (d.setBit Reg.REGIME_STATUS 2).okay
  else (moveCheck (moveFreeze (d.setBit Reg.REGIME_STATUS 1))).okay

/-- Whether a MODE write is refused (R28, R30, R31): in Draught, in a move past its step 1, out of range, or a cap below what
some twin cell needs. DEDUCED, log entry 20. -/
def modeRefused (v : Word) (d : Dev) : Bool :=
  d.bit Reg.REGIME_STATUS 0 || moveFree d || fld v 4 0 < 5 || fld v 4 0 > 25 || fld v 15 8 < 5 || fld v 15 8 > 25 ||
  (twinModes d).any (fun m => !twinFits m (fld v 4 0))

/-- A MODE write (R31). DEDUCED, log entry 20. -/
def modeWrite (q : Req) (v : Word) (d : Dev) : Dev :=
  if !d.keeper q then d.deny
  else if modeRefused v d then (d.setBit Reg.REGIME_STATUS 3).okay
  else (d.wr Reg.MODE ((d.rd Reg.MODE &&& 0xE0) ||| (v &&& 0x3FF1F))).okay

/-! ### Reviews and steps -/

/-- The level to which the steward lowers the rail (R28, R26): that of RAIL_CAP, and 0.65 V once a move has reached step 3. -/
def lowerTo (d : Dev) : Nat := if moveFree d then 5 else d.fld Reg.MODE 4 0

/-- The end of a 100 µs window (R93, R28): at most one request. DESIGN CHOICE, log entry 67. -/
def railReview (d : Dev) : Dev :=
  let d := d.passClk (d.rail.windowAt + 100000)
  let low := d.rail.low
  let d := d.updRail (fun r => { r with low := false, windowAt := d.clk })
  let cap := railCap d
  let lvl := railLevel d
  if lvl > lowerTo d then railRequest (lvl - 1) (if low then railCapped d else d)
  else if low then (if lvl ≥ cap then railCapped d else railRequest (lvl + 1) d)
  else d

/-- 1 s with no miss and ample slack has passed: a step down, not below the floor; the count starts again after a step, not where none
can be requested (R94). -/
def railStepDown (d : Dev) : Dev :=
  let d := d.passClk (d.rail.calmFrom + 1000000000)
  if railLevel d > railFloor d && d.rail.pg && d.rail.request.isNone then
    railRequest (railLevel d - 1) (d.updRail (fun r => { r with calmFrom := d.clk }))
  else d

/-- A step of 100 µs toward the twin floor (R98). -/
def twinFloorStep (d : Dev) : Dev :=
  let d := d.passClk (d.rail.stepAt + 100000)
  if railLevel d < railFloor d && d.rail.request.isNone then
    railRequest (railLevel d + 1) (d.updRail (fun r => { r with stepAt := d.clk }))
  else d

/-- VDone: the steward enters the level read back (R555); a step up or down counts, and a step down clears RAIL_CAPPED. -/
def avsDone (lvl : Nat) (d : Dev) : Dev :=
  match d.rail.request with
  | none => d
  | some _ =>
    let old := railLevel d
    let d := (d.updRail (fun r => { r with request := none })).clrBit Reg.RAIL_STATUS 10
    let d := d.setFld Reg.RAIL_STATUS 4 0 lvl
    let d := if old < lvl then d.bump Reg.RAIL_UPS
      else if lvl < old then (forN 16 (d.bump Reg.RAIL_DOWNS) (fun f d => d.clrBit (Reg.FLOCK_STATUS f) 11)) else d
    moveCheck d

/-- A negative acknowledgement, or no VDone within 50 µs (R555). -/
def avsTimeout (d : Dev) : Dev :=
  match d.rail.request with
  | none => d
  | some l =>
    ((d.updRail (fun r => { r with request := none, failed := some l, failedAt := d.clk })).clrBit Reg.RAIL_STATUS 10).setBit
      Reg.ST_FLAGS 8

/-- Whether the steward may still ask for a level: one above the present rail not above the cap (R28), one below it not below the
floor (R94, R98). -/
def mayAsk (d : Dev) (l : Nat) : Bool := if railLevel d < l then l ≤ railCap d else railFloor d ≤ l

/-- The request that failed is repeated 1 ms later (R288), unless a cap or floor set meanwhile forbids its level.
DEDUCED, log entry 138. -/
def avsRetry (d : Dev) : Dev :=
  match d.rail.failed with
  | none => d
  | some l =>
    let d := d.passClk (d.rail.failedAt + 1000000)
    if mayAsk d l then railRequest l d else d.updRail (fun r => { r with failed := none })

/-- RAIL_STATUS as a read returns it: FLOOR is the present rail floor. -/
def railStatus (d : Dev) : Word := putFld (d.rd Reg.RAIL_STATUS) 9 5 (railFloor d)

/-! ### The steps -/

/-- PATROL_SCRUB (R465); a new pass may end a move to Draught (R26). -/
def execPatrolScrub (c : CopyCond) (s : State) : Host.Outcome State Fault Refusal :=
  .next (if s.dev.hbmUp then (patrolScrub c s).upd moveCheck else s)
/-- TO_DRAUGHT (R26). -/
def execToDraught (q : Req) (v : Word) (s : State) : Host.Outcome State Fault Refusal := s.next (toDraught q v)
/-- MODE_WRITE (R31). -/
def execModeWrite (q : Req) (v : Word) (s : State) : Host.Outcome State Fault Refusal := s.next (modeWrite q v)
/-- RAIL_REVIEW_WINDOW (R93). -/
def execRailReviewWindow (s : State) : Host.Outcome State Fault Refusal := s.next railReview
/-- RAIL_STEP_DOWN (R94). -/
def execRailStepDown (s : State) : Host.Outcome State Fault Refusal := s.next railStepDown
/-- TWIN_FLOOR_STEP (R98). -/
def execTwinFloorStep (s : State) : Host.Outcome State Fault Refusal := s.next twinFloorStep
/-- AVS_VDONE (R555): `lvl` is the level read back, as a rail code. DESIGN CHOICE, log entry 15. -/
def execAvsVdone (lvl : Fin 26) (s : State) : Host.Outcome State Fault Refusal := s.next (avsDone lvl)
/-- AVS_TIMEOUT (R555). -/
def execAvsTimeout (s : State) : Host.Outcome State Fault Refusal := s.next avsTimeout
/-- AVS_RETRY (R288). -/
def execAvsRetry (s : State) : Host.Outcome State Fault Refusal := s.next avsRetry

end Sys2Proof.Machine
end

