-- ==== Sys2Proof/Machine/Steward.lean ====
section
/-! DEFINITION. The Grenhiund steward over cells (R261 to R273, R602), requested and periodic self-tests (R281, R282), the
generation (R283), and the steward's own restart (R263). -/
namespace Sys2Proof.Machine

/-! ### Spares of a flock (R104, R264, R269, R273) -/

/-- INDEX of a physical cell (R287). -/
def cellIndex (f c : Nat) : Nat := 16 * f + c
/-- AUX of a cell's entry: its head, 0 for an idle flock. -/
def cellAux (d : Dev) (f : Nat) : Nat := if flockHead d f < 8 then flockHead d f else 0

/-- The flock has no spare: SPARE and CELL_ID of page 8 read 15, and UNGUARDED sets. DEDUCED, log entry 66. -/
def loseSpare (f : Nat) (d : Dev) : Dev :=
  let d := setPostCell f 8 15 (d.setBit (Reg.FLOCK_STATUS f) 8)
  (((setShadow f 15 d).wr (Reg.CELL_GEN f 8) 0).setBit (Reg.FLOCK_IRQ f) 2).setBit Reg.ST_FLAGS 1

/-- Cell c becomes the flock's spare with stamp 0. -/
def gainSpare (f c : Nat) (d : Dev) : Dev :=
  ((setPostCell f 8 c d).clrBit (Reg.FLOCK_STATUS f) 8).wr (Reg.CELL_GEN f 8) 0

/-- A retired cell that has passed self-test becomes the flock's spare, with its log entry (R271). -/
def spareAgain (f c : Nat) (d : Dev) : Dev := faultLog 1 7 (cellIndex f c) 12 0 (cellAux d f) (gainSpare f c d)

/-- The cell of the spare post is used: a cell that has passed self-test meanwhile becomes the spare, or the flock has none (R266, R271). -/
def spendSpare (f : Nat) (d : Dev) : Dev :=
  match (d.flock f).ready with
  | c :: l => spareAgain f c (setShadow f 15 (d.updFlock f (fun x => { x with ready := l })))
  | [] => loseSpare f d

/-- RESULT of a repair: 1 when the flock is now unguarded. -/
def guardResult (d : Dev) (f : Nat) : Nat := if d.bit (Reg.FLOCK_STATUS f) 8 then 1 else 0

/-- A cell is retired and starts self-test; the instant of each retirement counts (R271). -/
def retireCell (f c : Nat) (d : Dev) : Dev :=
  d.updFlock f (fun x => { x with retiredAt := x.retiredAt ++ [(c, d.clk)], testing := insNat c x.testing })

/-- A post has no cell: POST_MAP and CELL_ID read 15, and its bit sets in NOCELL (R273, R602). -/
def dropPost (f p : Nat) (d : Dev) : Dev :=
  (setPostCell f p 15 d).setBit (Reg.NOCELL (f / 4)) (8 * (f % 4) + p)

/-- The post that a physical cell holds: 8 for the spare post. -/
def postOf (d : Dev) (f c : Nat) : Option Nat :=
  match (List.range 8).find? (fun p => postCell d f p == c) with
  | some p => some p
  | none => if spareCell d f = c && c ≠ 15 then some 8 else none

/-! ### Takeover (R264 to R266) -/

/-- Line m of R264: the first line whose compositor read begins at least 64 µs after now, never before the next line.
DEDUCED, log entry 60. -/
def rejoinLine (d : Dev) (h : Nat) : Nat × Nat :=
  let x := d.head h
  let m := modeOf d h
  let n := (((d.clk + 64000 - x.fsClk) * m.den + m.pn - 1) / m.pn + 16 + m.hTot - 1) / m.hTot
  if x.latched then (if n ≤ m.vTot then (x.seq + 1, 0) else (x.seq + 1, n - m.vTot))
  else if n < m.vAct then (x.seq, max n x.next)
  else if n ≤ m.vTot then (x.seq + 1, 0) else (x.seq + 1, n - m.vTot)

/-- The post's buffers are discarded and its stamp becomes 0. -/
def clearPost (f p : Nat) (d : Dev) : Dev :=
  let d := (d.wr (Reg.CELL_GEN f p) 0).clrBit (Reg.CELL_STATUS f p) 13
  d.updCell f p (fun c => { c with bufs := [], cache := [], low := c.low })

/-- Step 4: the spare has loaded the post's entry and the writes made meanwhile, and takes GLOBAL_GEN. DEDUCED, log entry 60. -/
def takeoverLoaded (f : Nat) (d : Dev) : Dev :=
  match (d.flock f).takeover with
  | some t =>
    if t.loaded then d
    else
      let m := rejoinLine d (flockHead d f)
      let fix (y : LayerSt) : LayerSt := { y with frame := m.1, next := m.2, lineColl := [] }
      let d := d.updCell f t.post (fun c => { c with bufs := [], cache := [], l0 := fix c.l0, l1 := fix c.l1 })
      let d := d.wr (Reg.CELL_GEN f 8) (d.rd Reg.GLOBAL_GEN)
      d.updFlock f (fun x => { x with takeover := some { t with loaded := true, from_ := m } })
  | none => d

/-- Step 2: the takeover of a post by the spare starts; the spare abandons its shadow or self-test. A spare that was shadowing
the post holds its entry already (R265). -/
def takeoverStart (f : Nat) (t : Takeover) (d : Dev) : Dev :=
  let shadowed := d.fld (Reg.FLOCK_STATUS f) 15 12 == t.post
  let sp := spareCell d f
  let d := d.updFlock f (fun x => { x with
    takeover := some t, testing := x.testing.erase sp, probing := false, handoff := none })
  let d := setShadow f 15 ((clearPost f t.post d).setBit (Reg.FLOCK_STATUS f) 9)
  if shadowed then takeoverLoaded f d else d

/-- The oldest waiting post is taken over when the flock has a spare and no takeover runs (R266). -/
def takeoverNext (f : Nat) (d : Dev) : Dev :=
  let x := d.flock f
  match x.waiting with
  | t :: l =>
    if x.takeover.isNone && spareCell d f ≠ 15 then takeoverStart f t (d.updFlock f (fun x => { x with waiting := l })) else d
  | [] => d

/-- A post of kind off that lends nothing owes no work (R602): its cell is retired without a takeover. -/
def owesWork (d : Dev) (f p : Nat) : Bool := kindOf d f p != 0 || isLender d f p

/-- The steward detects a stall (`dog`) or an invalid code in physical cell c of flock f (R262, R264). -/
def cellFault (f c : Nat) (dog : Bool) (d : Dev) : Dev :=
  let det := if dog then 2 else 1
  match postOf d f c with
  | none => d
  | some p =>
    if p = 8 then
      let d := spendSpare f (retireCell f c d)
      faultLog 1 det (cellIndex f c) 2 1 (cellAux d f) d
    else if underTakeover d f p then d
    else if !owesWork d f p then
      if dog then d
      else
        let d := dropPost f p (retireCell f c (clearPost f p d))
        faultLog 1 det (cellIndex f c) 2 (guardResult d f) (cellAux d f) d
    else
      let t : Takeover := { post := p, cell := c, ht := d.now, detect := det }
      if (d.flock f).takeover.isNone && spareCell d f ≠ 15 then takeoverStart f t d
      else
        let d := (clearPost f p d).updFlock f (fun x => { x with waiting := x.waiting ++ [{ t with logged := true }] })
        let d := retireCell f c (d.setBit (Reg.FLOCK_STATUS f) 9)
        faultLog 1 det (cellIndex f c) 2 6 (cellAux d f) d

/-- Whether the compositor has come to line m, or reads nothing. -/
def rejoinDue (d : Dev) (h : Nat) (m : Nat × Nat) : Bool :=
  let x := d.head h
  !(h < 8) || !headBuilds d h || m.1 < x.seq || (m.1 = x.seq && m.2 ≤ x.next)

/-- Step 6: the post rejoins on the spare, unless a re-pen will join it; the failed cell is retired and starts self-test. A post that waits
is taken over next. -/
def takeoverRejoin (f : Nat) (d : Dev) : Dev :=
  match (d.flock f).takeover with
  | some t =>
    if t.loaded && rejoinDue d (flockHead d f) t.from_ then
      let d := setPostCell f t.post (spareCell d f) d
      let d := (d.wr (Reg.CELL_GEN f t.post) (d.rd (Reg.CELL_GEN f 8))).putBit (Reg.CELL_STATUS f t.post) 13 (d.flock f).repen.isNone
      let d := spendSpare f d
      let d := d.updFlock f (fun x => { x with takeover := none })
      let d := if t.logged then d else retireCell f t.cell d
      let d := if (d.flock f).waiting.isEmpty then d.clrBit (Reg.FLOCK_STATUS f) 9 else d
      let d := d.setBit (Reg.FLOCK_IRQ f) 3
      takeoverNext f (faultLogAt (if t.logged then d.now else t.ht) 1 t.detect (cellIndex f t.cell) 1 (guardResult d f) (cellAux d f) d)
    else d
  | none => d

/-! ### Shadow probe (R269) -/

/-- The probe line of a flock, as its seed and length make it, has the CRC of its FLOCK record (R102, R103). -/
def probeGood (d : Dev) (f : Nat) : Bool := probeCrc (d.flock f).seed (d.flock f).len == (d.flock f).crc

/-- Both probe lines are checked: a cell matches PROBE_CRC when it has built the flock's probe line right, which `postOk` and `spareOk` say
of the post's cell and of the spare, and that line has this CRC. DESIGN CHOICE, log entry 15. -/
def probeDone (f : Nat) (postOk spareOk : Bool) (d : Dev) : Dev :=
  if (d.flock f).probing then
    let postOk := postOk && probeGood d f
    let spareOk := spareOk && probeGood d f
    let p := d.fld (Reg.FLOCK_STATUS f) 15 12
    let d := d.updFlock f (fun x => { x with probing := false })
    if p ≥ 8 then d
    else match postOk, spareOk with
    | false, true =>
      let c := postCell d f p
      let d := swapSpare f p d
      let d := spendSpare f (retireCell f c d)
      let due := dueLine d (flockHead d f)
      let fix (y : LayerSt) : LayerSt := { y with frame := due.1, next := due.2, lineColl := [] }
      let d := (d.updCell f p (fun x => { x with bufs := [], cache := [], l0 := fix x.l0, l1 := fix x.l1 })).setBit (Reg.FLOCK_IRQ f) 3
      faultLog 1 6 (cellIndex f c) 1 (guardResult d f) (cellAux d f) d
    | true, false =>
      let c := spareCell d f
      let d := spendSpare f (retireCell f c d)
      faultLog 1 6 (cellIndex f c) 2 (guardResult d f) (cellAux d f) d
    | true, true => d.bump Reg.SHADOW_BENIGN
    | false, false =>
      let c := spareCell d f
      let d := (spendSpare f (retireCell f c d)).setBit Reg.ST_FLAGS 11
      faultLog 1 6 (cellIndex f c) 2 4 (cellAux d f) d
  else d

/-! ### Self-test of cells (R271, R281, R602) -/

/-- BIST_PASS of a physical cell. -/
def setBist (f c : Nat) (pass : Bool) (d : Dev) : Dev :=
  d.updFlock f (fun x => { x with bist := if pass then insNat c x.bist else x.bist.erase c })

/-- How often a cell has been retired within 30 days of herd time (R271, counted under R600). -/
def retirements (d : Dev) (f c : Nat) : Nat :=
  ((d.flock f).retiredAt.filter (fun e => e.1 == c && d.clk - e.2 ≤ 2592000000000000)).length

/-- The cell enters the repair map and is never used again. -/
def mapCell (f c : Nat) (d : Dev) : Dev :=
  let d := mapUnit 1 (cellIndex f c) (d.updFlock f (fun x => { x with mapped := insNat c x.mapped }))
  faultLog 1 7 (cellIndex f c) 13 (guardResult d f) (cellAux d f) d

/-- A cell's self-test ends. A retired cell that passes becomes the spare, at once or when the spare post is next free (R266, R271); the
cell of a post of kind off takes GLOBAL_GEN again (R284). -/
def cellTestDone (f c : Nat) (pass : Bool) (d : Dev) : Dev :=
  if (d.flock f).testing.contains c then
    let d := setBist f c pass (d.updFlock f (fun x => { x with testing := x.testing.erase c }))
    match postOf d f c with
    | none =>
      if !pass || retirements d f c ≥ 3 then mapCell f c d
      else if spareCell d f = 15 then takeoverNext f (spareAgain f c d)
      else d.updFlock f (fun x => { x with ready := insNat c x.ready })
    | some 8 => if pass then d else mapCell f c (spendSpare f d)
    | some p => if pass then d.wr (Reg.CELL_GEN f p) (d.rd Reg.GLOBAL_GEN) else retireCell f c (dropPost f p (clearPost f p d))
  else d

/-! ### Periodic tests and roving (R272, R281) -/

/-- Minutes in herd-clock periods. -/
def minutes (n : Nat) : Nat := n * 60000000000

/-- Every ROVE_MIN minutes each flock hands a post over at its next clean shadow frame, and so do the voice slices (R272, R280). -/
def roveTimer (d : Dev) : Dev :=
  if d.bit Reg.ROVE_CTRL 0 then
    let d := d.passClk (d.roveAt + minutes (d.fld Reg.ROVE_CTRL 15 8))
    forN 16 { d with roveAt := d.clk, au := { d.au with rove := true } } (fun f d => if flockHead d f < 8 then d.updFlock f (fun x => { x with rove := true }) else d)
  else d

/-- Cells of a flock that are tested every TEST_MIN minutes: the spare, when no takeover needs it, and those of posts of kind
off that lend nothing. -/
def testCells (d : Dev) (f : Nat) : List Nat :=
  (if spareCell d f ≠ 15 && (d.flock f).takeover.isNone then [spareCell d f] else []) ++
  (List.range 8).filterMap (fun p => if !owesWork d f p && postCell d f p ≠ 15 then some (postCell d f p) else none)

/-- A cell starts a periodic test: that of a post of kind off loses its stamp (R284). -/
def startCellTest (f c : Nat) (d : Dev) : Dev :=
  let d := d.updFlock f (fun x => { x with testing := insNat c x.testing })
  match postOf d f c with
  | some p => d.wr (Reg.CELL_GEN f p) 0
  | none => d

/-- Every TEST_MIN minutes the steward tests each spare. -/
def spareTest (d : Dev) : Dev :=
  let d := d.passClk (d.testAt + minutes (d.fld Reg.ROVE_CTRL 23 16))
  let d := forN 16 { d with testAt := d.clk } (fun f d => (testCells d f).foldl (fun d c => startCellTest f c d) d)
  ([2, 3, 4, 5, 6, 9] : List Nat).foldl (fun d cls => (sparesOf d cls).foldl (fun d i => startTest cls i d) d) d

/-! ### Requests (R282) -/

/-- Whether CLASS and INDEX name a unit that a request may test. -/
def requestNames (cls idx : Nat) : Bool :=
  match cls with
  | 1 => idx < 256 && idx % 16 < 9
  | 2 => idx < 18
  | 3 => idx < 9
  | 4 => idx < 17
  | 5 => idx < 36
  | 6 => idx < 3
  | 13 => idx < 2
  | 14 => idx < 8
  | _ => false

/-- QUEUED. -/
def syncRequests (d : Dev) : Dev := d.setFld Reg.SELFTEST_STATUS 4 0 d.requests.length

/-- A SELFTEST_REQ write. With ROTATE, an active cell is handed over at its post's next clean shadow frame. DEDUCED, log entry 80. -/
def selftestReq (q : Req) (v : Word) (d : Dev) : Dev :=
  if !d.keeper q then d.deny
  else if !bitOf v 31 then d.okay
  else
    let cls := fld v 3 0
    let idx := fld v 15 4
    if !requestNames cls idx || d.requests.length ≥ 16 then (d.setBit Reg.ST_FLAGS 6).okay
    else
      let d := syncRequests { d with requests := d.requests ++ [(cls, idx, bitOf v 16)] }
      if cls = 1 && bitOf v 16 then
        match postOf d (idx / 16) (idx % 16) with
        | some p => if p < 8 then (d.updFlock (idx / 16) (fun x => { x with want := insNat p x.want })).okay else d.okay
        | none => d.okay
      else d.okay

/-- A pseudo-channel of a stack is held out for calibration now (R464). -/
def calWindow (d : Dev) (st : Nat) : Bool := d.mc.calAt.any (fun e => e.1 / 32 == st && d.clk + 1 - e.2 ≤ 500)

/-- Whether a requested unit may be tested now: a spare or idle unit, a head's PHY while the head is not shown or its link trains,
an HBM3 stack in a calibration window (R282). DEDUCED, log entry 80. -/
def requestFree (d : Dev) (cls idx : Nat) : Bool :=
  match cls with
  | 1 =>
    match postOf d (idx / 16) (idx % 16) with
    | none => true
    | some p => (p = 8 && (d.flock (idx / 16)).takeover.isNone) || (p < 8 && (flockHead d (idx / 16) ≥ 8 || !owesWork d (idx / 16) p))
  | 2 => d.unit 2 idx != 0
  | 3 => d.unit 3 idx != 0
  | 4 => d.unit 4 idx != 0
  | 5 => d.unit 5 idx != 0 || (List.range 32).any (fun n => d.fld (Reg.PCH_STATUS n) 13 8 == idx && d.fld (Reg.PCH_STATUS n) 2 0 == 0)
  | 6 => d.unit 6 idx != 0 || !d.bit Reg.MULE_STATUS 0
  | 14 =>
    let st := headState d idx
    st == 0 || st == 1 || st == 5 || (!d.bit (Reg.PHY_STATUS idx) 1 && d.bit (Reg.PHY_STATUS idx) 0)
  | _ => calWindow d idx

/-! ### The generation and the steward itself (R263, R283) -/

/-- GLOBAL_GEN steps, from 0xFFFF_FFFF to 1. -/
def genStep (d : Dev) : Dev :=
  d.wr Reg.GLOBAL_GEN (if d.rd Reg.GLOBAL_GEN = 0xFFFFFFFF then 1 else d.rd Reg.GLOBAL_GEN + 1)

/-- A GEN_BUMP write. -/
def genBump (q : Req) (v : Word) (d : Dev) : Dev :=
  if !d.keeper q then d.deny else if bitOf v 0 then (genStep d).okay else d.okay

/-- The two copies disagree: both restart from their last committed state, and a repair goes on from its last completed step. -/
def stewardDisagree (d : Dev) : Dev := d.setBit Reg.ST_FLAGS 10

/-- ST_STATUS as a read returns it. -/
def stStatus (d : Dev) : Word :=
  let w := putFld (d.rd Reg.ST_STATUS) 0 0 (if unguardedAny d then 1 else 0)
  let st (y : Nat) : Nat := d.fld (Reg.YOKE_STATE y) 12 10
  let w := putFld w 1 1 (if (List.range 8).any (fun y => st y == 4) then 1 else 0)
  let w := putFld w 2 2 (if (List.range 8).any (fun y => st y == 5 || st y == 6) then 1 else 0)
  let busy := (List.range 16).any (fun f => (d.flock f).takeover.isSome || !(d.flock f).waiting.isEmpty || (d.flock f).probing) ||
    (List.range 8).any (fun y => st y == 2 || st y == 3) ||
    (List.range 32).any (fun n => d.fld (Reg.PCH_STATUS n) 2 0 == 4) || !d.mc.retiring.isEmpty || !d.mc.rowBad.isEmpty ||
    !d.keep.failing.isEmpty || d.au.down.any (fun k => !(sparesOf d (k / 32)).isEmpty) || !d.drv.swap.isEmpty || !d.mule.swap.isEmpty
  let w := putFld w 3 3 (if busy then 1 else 0)
  putFld w 4 4 (if d.requests.any (fun r => requestFree d r.1 r.2.1) then 1 else 0)

/-! ### The steps -/

/-- CELL_FAULT_DETECT (R264). -/
def execCellFaultDetect (f : Fin 16) (c : Fin 9) (dog : Bool) (s : State) : Host.Outcome State Fault Refusal := s.next (cellFault f c dog)
/-- SHADOW_PROBE_DONE (R269). -/
def execShadowProbeDone (f : Fin 16) (postOk spareOk : Bool) (s : State) : Host.Outcome State Fault Refusal :=
  s.next (probeDone f postOk spareOk)
/-- CELL_SELFTEST_DONE (R271). -/
def execCellSelftestDone (f : Fin 16) (c : Fin 9) (pass : Bool) (s : State) : Host.Outcome State Fault Refusal :=
  s.next (cellTestDone f c pass)
/-- ROVE_TIMER (R272). -/
def execRoveTimer (s : State) : Host.Outcome State Fault Refusal := s.next roveTimer
/-- SPARE_TEST_TIMER (R281). -/
def execSpareTestTimer (s : State) : Host.Outcome State Fault Refusal := s.next spareTest
/-- GEN_BUMP (R283). -/
def execGenBump (q : Req) (v : Word) (s : State) : Host.Outcome State Fault Refusal := s.next (genBump q v)
/-- SELFTEST_REQ (R282). -/
def execSelftestReq (q : Req) (v : Word) (s : State) : Host.Outcome State Fault Refusal := s.next (selftestReq q v)
/-- STEWARD_DISAGREE (R263). -/
def execStewardDisagree (s : State) : Host.Outcome State Fault Refusal := s.next stewardDisagree

end Sys2Proof.Machine
end

