-- ==== Sys2Proof/Machine/Yokes.lean ====
section
/-! DEFINITION. Yokes under the steward (R274 to R279, R284, R291, R330): starting, checkpoints, rollback and replay, core
repair, halts, RESTART and RESUME. -/
namespace Sys2Proof.Machine

/-! ### Tightly coupled RAM -/

/-- The key of byte `a` of yoke y's tightly coupled RAM. -/
def tcmKey (y a : Nat) : Nat := y * 2 ^ 17 + a
/-- n bytes of tightly coupled RAM. DESIGN CHOICE, log entry 3. -/
def tcmRead (s : State) (y a n : Nat) : List Byte := Store.getList (fun _ => 0) s.mem.tcm (tcmKey y a) n
/-- The word at a word address. -/
def tcmWord (s : State) (y a : Nat) : Word := w32 (leNat (tcmRead s y a 4))
/-- Write bytes of tightly coupled RAM. -/
def tcmPut (y a : Nat) (b : List Byte) (s : State) : State :=
  { s with mem := { s.mem with tcm := Store.setList (fun _ => 0) s.mem.tcm (tcmKey y a) b } }
/-- Zero the tightly coupled RAM of a yoke. -/
def tcmClear (y : Nat) (s : State) : State := { s with mem := { s.mem with tcm := Store.keep (fun k => k / 2 ^ 17 != y) s.mem.tcm } }

/-! ### The yoke's page -/

/-- STATE of a yoke (YOKE_STATE). -/
def yokeRun (d : Dev) (y : Nat) : Nat := d.fld (Reg.YOKE_STATE y) 12 10
/-- Set STATE. -/
def setRun (y st : Nat) (d : Dev) : Dev := d.setFld (Reg.YOKE_STATE y) 12 10 st
/-- Whether a yoke runs on one core. -/
def soloCores (d : Dev) (y : Nat) : Bool := d.fld (Reg.YOKE_STATE y) 4 0 == d.fld (Reg.YOKE_STATE y) 9 5
/-- STATE of a yoke that runs live: SOLO on one core. -/
def liveState (d : Dev) (y : Nat) : Nat := if soloCores d y then 4 else 1
/-- A yoke that executes instructions: running, in replay, or SOLO. -/
def yokeRuns (d : Dev) (y : Nat) : Bool := yokeRun d y == 1 || yokeRun d y == 2 || yokeRun d y == 4

/-- WAITING, EXL and IE of Y_STATUS follow the programmer's model. -/
def syncYoke (y : Nat) (d : Dev) : Dev :=
  let c := (d.yk y).ctx
  let o := Reg.Y_STATUS y
  ((d.putBit o 1 c.waiting).putBit o 2 c.exl).putBit o 3 c.ie

/-- Replace the programmer's model of a yoke. -/
def setCtx (y : Nat) (c : OxCtx) (d : Dev) : Dev := syncYoke y (d.updYk y (fun k => { k with ctx := c }))

/-- The window registers. -/
def yokeWins (d : Dev) (y : Nat) : List Word := (List.range 14).map (fun w => d.rd (Reg.Y_WIN y w))
/-- Restore the window registers. -/
def setWins (y : Nat) (ws : List Word) (d : Dev) : Dev := ((ws.take 14).zipIdx).foldl (fun d p => d.wr (Reg.Y_WIN y p.2) p.1) d

/-! ### Start (R49, R65, R291) -/

/-- The body of a yoke's YOKE record in the loaded image. -/
def yokeRec (d : Dev) (y : Nat) : Option (List Byte) :=
  (d.ld.recs.find? (fun r => r.ty = 6 && (r.body.getD 0 0).toNat == y)).map (·.body)
/-- A 32-bit field of a record's body. -/
def u32At (b : List Byte) (o : Nat) : Nat := leNat ((b.drop o).take 4)
/-- The image bytes [o, o + n) of a BLOB body. -/
def blobBytes (recs : List ImgRec) (o n : Nat) : List Byte :=
  match recs.find? (fun r => r.ty = 0xD && r.off ≤ o && o + n ≤ r.off + r.body.length) with
  | some r => (r.body.drop (o - r.off)).take n
  | none => []

/-- Copy a yoke's code from the image to its tightly coupled RAM from address 0; the rest is zeroed (R49). -/
def loadCode (y : Nat) (b : List Byte) (s : State) : State :=
  tcmPut y 0 (blobBytes s.dev.ld.recs (u32At b 8) (u32At b 12)) (tcmClear y s)

/-- The programmer's model at ENTRY (R291). -/
def startCtx (entry : Nat) : OxCtx := { pc := w32 entry }

/-- A yoke starts at ENTRY with empty logs, its windows as its record gives them, and GLOBAL_GEN. DEDUCED, log entry 37. -/
def startYoke (y : Nat) (b : List Byte) (d : Dev) : Dev :=
  let ws := (List.range 14).map (fun w => w32 (u32At b (16 + 4 * w)) &&& 0x800FFFFF)
  let c := startCtx (u32At b 4)
  let d := setWins y ws d
  let d := d.updYk y (fun _ => { ctx := c, ckpt := some c, ckptWin := ws, interval := d.fld Reg.MODE 15 8, ckptAt := d.clk })
  let d := d.putBit (Reg.Y_STATUS y) 0 (bitOf (w32 (b.getD 1 0).toNat) 1)
  (syncYoke y (setRun y (liveState d y) d)).wr (Reg.Y_GEN y) (d.rd Reg.GLOBAL_GEN)

/-! ### Checkpoints (R26, R275, R282) -/

/-- The yoke that runs on a physical core. -/
def yokeOfCore (d : Dev) (c : Nat) : Option Nat :=
  (List.range 8).find? (fun y => yokeOn d y && (d.fld (Reg.YOKE_STATE y) 4 0 == c || d.fld (Reg.YOKE_STATE y) 9 5 == c))

/-- Put core `n` in the place of core `c` of a yoke. -/
def swapCore (y c n : Nat) (d : Dev) : Dev :=
  if d.fld (Reg.YOKE_STATE y) 4 0 = c then d.setFld (Reg.YOKE_STATE y) 4 0 n else d.setFld (Reg.YOKE_STATE y) 9 5 n

/-- A requested test with ROTATE frees a core of the yoke by a planned swap (R282). -/
def plannedSwap (y : Nat) (d : Dev) : Dev :=
  match d.requests.find? (fun r => r.1 == 2 && r.2.2 && d.unit 2 r.2.1 == 0 && yokeOfCore d r.2.1 == some y) with
  | some r =>
    if soloCores d y then d
    else match takeSpare 2 d with
      | some (n, d) => setUnit 2 r.2.1 1 (swapCore y r.2.1 n d)
      | none => d
  | none => d

/-- A checkpoint can be taken: the yoke runs live and nothing that it has asked for is outstanding. -/
def ckptFree (y : Nat) (d : Dev) : Bool :=
  let k := d.yk y
  let st := yokeRun d y
  (st = 1 || st = 4 || st = 7) && k.replay.isNone && k.wait.isNone && k.ld.isNone && k.tdWait.isNone

/-- A checkpoint at an instruction boundary: the programmer's model and the windows are kept and the logs emptied. The point of a first
mismatch that the yoke has not passed stays ahead of it (R277). -/
def checkpoint (y : Nat) (d : Dev) : Dev :=
  if ckptFree y d then
    let iv := if moveRailDone d then 10 else d.fld Reg.MODE 15 8
    let d := d.updYk y (fun k => { k with
      ckpt := some k.ctx, ckptWin := yokeWins d y, echo := [], input := [], undo := [], retired := 0,
      point := k.point.map (· - k.retired), interval := iv, ckptAt := d.clk })
    moveCheck (plannedSwap y (d.wr (Reg.CKPT_HT y) (w32 d.now)))
  else d

/-- The checkpoint that falls due one interval after the last (R275). -/
def checkpointDue (y : Nat) (d : Dev) : Dev :=
  if ckptFree y d then checkpoint y (d.passClk ((d.yk y).ckptAt + 10000 * (d.yk y).interval)) else d

/-- When a log fills, the steward checkpoints the yoke at the next instruction boundary. -/
def checkpointFull (y : Nat) (d : Dev) : Dev :=
  let k := d.yk y
  if k.echo.length ≥ 1024 || k.input.length ≥ 1024 || k.undo.length ≥ 2048 then checkpoint y d else d

/-! ### Rollback (R276, R277) -/

/-- Restore tightly coupled RAM from the undo journal, newest entry first. -/
def undoTcm (y : Nat) (s : State) : State :=
  ((s.dev.yk y).undo).foldl (fun s e => tcmPut y e.1 (wordBytes e.2) s) s

/-- STATE of a yoke that replays: SOLO stays shown on one core. -/
def replayState (d : Dev) (y : Nat) : Nat := if soloCores d y then 4 else 2

/-- Restore the checkpoint and replay from the start of the logs. With no checkpoint the yoke starts as R291 states. A yoke
that replays does not stay in standby (R303). -/
def restore (y : Nat) (keepLogs : Bool) (s : State) : State :=
  let s := undoTcm y s
  s.upd (fun d =>
    let k := d.yk y
    let d := setWins y k.ckptWin d
    let d := d.updYk y (fun k => { k with
      ctx := k.ckpt.getD {}, undo := [], retired := 0, wait := none, ld := none, tdWait := none
      echo := if keepLogs then k.echo else [], input := if keepLogs then k.input else []
      replay := if keepLogs && (!k.echo.isEmpty || !k.input.isEmpty) then some (0, 0) else none })
    let d := d.updYk y (fun k => { k with ctx := { k.ctx with waiting := k.ctx.waiting && k.replay.isNone } })
    let k := d.yk y
    syncYoke y (setRun y (if k.replay.isSome then replayState d y else if k.ctx.waiting then 7 else liveState d y) d))

/-- The rollback of R276. DEDUCED, log entry 69. -/
def rollback (y : Nat) (s : State) : State := (restore y true s).upd (fun d => d.bump (Reg.ROLLBACKS y))

/-- A yoke halts (R276, R277): STATE 5 by divergence, 6 unresolved; its running priority becomes 63 (R279). DEDUCED, log entry 69. -/
def haltYoke (y st : Nat) (d : Dev) : Dev :=
  let core := d.fld (Reg.YOKE_STATE y) 4 0
  let d := withReoffer (setRun y st) d
  faultLog 2 3 core 5 2 y (d.setBit Reg.ST_FLAGS (if st = 5 then 2 else 3))

/-- The two cores retire different results; the mismatching instruction has had no effect. DEDUCED, log entry 69. -/
def mismatch (y : Nat) (s : State) : State :=
  let d := s.dev
  let st := yokeRun d y
  if (st = 1 || st = 2 || st = 7) && !soloCores d y then
    let k := d.yk y
    match k.tries with
    | 0 =>
      let s := s.upd (fun d => faultLog 2 3 (d.fld (Reg.YOKE_STATE y) 4 0) 3 3 y
        (d.updYk y (fun k => { k with point := some k.retired, tries := 1 })))
      rollback y s
    | 1 => s.upd (fun d => setRun y 3 ((d.updYk y (fun k => { k with tries := 2 })).wr (Reg.Y_GEN y) 0))
    | _ => s.upd (haltYoke y 6)
  else s

/-- A yoke returns from core self-test: its checkpoint reloads it, and it takes GLOBAL_GEN (R284). -/
def yokeReturn (y : Nat) (s : State) : State := (rollback y s).upd (fun d => d.wr (Reg.Y_GEN y) (d.rd Reg.GLOBAL_GEN))

/-- Put a failing core into the repair map. -/
def mapCore (c : Nat) (d : Dev) : Dev := mapUnit 2 c (setUnit 2 c 3 d)

/-- One core fails its self-test: a spare core takes its place, or the yoke runs SOLO. -/
def replaceCore (y c : Nat) (s : State) : State :=
  let d := mapCore c s.dev
  match takeSpare 2 d with
  | some (n, d) =>
    let d := (swapCore y c n d).updYk y (fun k => { k with tries := 1 })
    yokeReturn y { s with dev := faultLog 2 7 c 4 (if (sparesOf d 2).isEmpty then 1 else 0) y d }
  | none =>
    let a := d.fld (Reg.YOKE_STATE y) 4 0
    let good := if a = c then d.fld (Reg.YOKE_STATE y) 9 5 else a
    let d := (d.setFld (Reg.YOKE_STATE y) 4 0 good).setFld (Reg.YOKE_STATE y) 9 5 good
    let d := (d.updYk y (fun k => { k with tries := 1 })).setBit Reg.ST_FLAGS 1
    yokeReturn y { s with dev := faultLog 2 7 c 2 1 y d }

/-- The self-test of both cores ends (R277). -/
def coreTestDone (y : Nat) (passA passB : Bool) (s : State) : State :=
  let d := s.dev
  if yokeRun d y = 3 then
    let a := d.fld (Reg.YOKE_STATE y) 4 0
    let b := d.fld (Reg.YOKE_STATE y) 9 5
    match passA, passB with
    | true, true => yokeReturn y (s.upd (fun d => d.updYk y (fun k => { k with tries := 3 })))
    | false, false => s.upd (fun d => haltYoke y 6 (mapCore b (mapCore a d)))
    | false, true => replaceCore y a s
    | true, false => replaceCore y b s
  else s

/-! ### RESTART and RESUME (R279, R284, R330) -/

/-- RESTART reloads a halted yoke's RAM from the image and starts it at ENTRY. -/
def yokeRestart (q : Req) (y : Nat) (s : State) : State :=
  if !s.dev.keeper q then s.upd Dev.deny
  else if !yokeHalted s.dev y then s.upd Dev.okay
  else match yokeRec s.dev y with
    | some b => (loadCode y b s).upd (fun d => (withReoffer (fun d => emptyStack y (startYoke y b d)) d).okay)
    | none => s.upd Dev.okay

/-- RESUME starts a halted yoke from its checkpoint with the logs discarded. -/
def yokeResume (q : Req) (y : Nat) (s : State) : State :=
  if !s.dev.keeper q then s.upd Dev.deny
  else if !yokeHalted s.dev y then s.upd Dev.okay
  else (restore y false s).upd (fun d =>
    let d := emptyStack y ((d.updYk y (fun k => { k with point := none, tries := 0 })).wr (Reg.Y_GEN y) (d.rd Reg.GLOBAL_GEN))
    (reoffer s.dev d).okay)

/-- A YOKE_CTRL write. -/
def yokeCtrl (q : Req) (v : Word) (s : State) : State :=
  if !s.dev.keeper q then s.upd Dev.deny
  else if !bitOf v 31 then s.upd Dev.okay
  else match fld v 4 3 with
    | 1 => yokeRestart q (fld v 2 0) s
    | 2 => yokeResume q (fld v 2 0) s
    | _ => s.upd Dev.okay

/-! ### The steps -/

/-- YOKE_CHECKPOINT (R275). -/
def execYokeCheckpoint (y : Fin 8) (s : State) : Host.Outcome State Fault Refusal := s.next (checkpointDue y)
/-- LOCKSTEP_MISMATCH (R276, R277). -/
def execLockstepMismatch (y : Fin 8) (s : State) : Host.Outcome State Fault Refusal := .next (mismatch y s)
/-- CORE_SELFTEST_DONE (R277): whether each of the yoke's cores, CORE_A and CORE_B, passes. -/
def execCoreSelftestDone (y : Fin 8) (passA passB : Bool) (s : State) : Host.Outcome State Fault Refusal :=
  .next (coreTestDone y passA passB s)
/-- YOKE_RESTART (R279). -/
def execYokeRestart (q : Req) (y : Fin 8) (s : State) : Host.Outcome State Fault Refusal := .next (yokeRestart q y s)
/-- YOKE_RESUME (R279). -/
def execYokeResume (q : Req) (y : Fin 8) (s : State) : Host.Outcome State Fault Refusal := .next (yokeResume q y s)

end Sys2Proof.Machine
end

