-- ==== Sys2Proof/Machine/OxBase.lean ====
section
/-! DEFINITION. What every yoke instruction shares: registers, traps (R299, R300), retirement, the input log and the end of a
replay (R275, R276), and the completion of a load or a coprocessor request that waited (R298, R313, R318). -/
namespace Sys2Proof.Machine

/-- General register i; g0 reads 0 (R292). -/
def OxCtx.r (c : OxCtx) (i : Nat) : Word := if i = 0 then 0 else Store.get (fun _ => 0) c.g i
/-- Write general register i; a write to g0 is discarded (R292). -/
def OxCtx.setR (c : OxCtx) (i : Nat) (v : Word) : OxCtx := if i = 0 then c else { c with g := Store.set (fun _ => 0) c.g i v }
/-- A flag of FLAGS: 0 Z, 1 N, 2 C, 3 V, 4 DC, 5 DV (R292). -/
def OxCtx.flag (c : OxCtx) (n : Nat) : Bool := bitOf c.flags n
/-- Give a flag a value. -/
def OxCtx.setFlag (c : OxCtx) (n : Nat) (b : Bool) : OxCtx := { c with flags := putFld c.flags n n (if b then 1 else 0) }

/-- Once replay passes the last logged entry, the yoke runs live (R276). DEDUCED, log entry 73. -/
def replayEnd (y : Nat) (d : Dev) : Dev :=
  let k := d.yk y
  match k.replay with
  | some (e, i) =>
    if e ≥ k.echo.length && i ≥ k.input.length then setRun y (liveState d y) (d.updYk y (fun k => { k with replay := none })) else d
  | none => d

/-- A trap (R300): entry through VBASE, or a double trap while EXL is 1. One that is taken again, not `live`, does not count again.
DEDUCED, log entry 70. -/
def yokeTrapAs (live : Bool) (y cause : Nat) (info : Word) (d : Dev) : Dev :=
  let c := (d.yk y).ctx
  let d := if live then d.bump (Reg.Y_TRAPS y) else d
  replayEnd y
    (if c.exl then
      let d := setCtx y { c with dtpc := c.pc, pc := c.vbase + 0x40 } d
      if live then d.setBit (Reg.Y_STATUS y) 4 else d
    else
      (setCtx y { c with
        epc := c.pc
        estat := putFld (c.flags &&& 0x3F) 8 8 (if c.ie then 1 else 0)
        ecause := w32 cause, einfo := info, ie := false, exl := true, pc := c.vbase } d).setFld (Reg.Y_STATUS y) 9 5 cause)

/-- A trap of the instruction that a yoke executes: in a replay it has been taken before. -/
def yokeTrap (y cause : Nat) (info : Word) (d : Dev) : Dev := yokeTrapAs (d.yk y).replay.isNone y cause info d

/-- An instruction retires: the model after it, with its next PC, takes effect; Y_PC takes its address; the point of the first
mismatch is passed (R277); a full log brings a checkpoint (R275). -/
def yokeRetire (y : Nat) (c : OxCtx) (d : Dev) : Dev :=
  let k := d.yk y
  let d := (setCtx y c d).wr (Reg.Y_PC y) k.ctx.pc
  let past : Bool := match k.point with | some p => k.retired ≥ p | none => false
  let d := d.updYk y (fun k => { k with
    retired := k.retired + 1, point := if past then none else k.point, tries := if past then 0 else k.tries })
  checkpointFull y (replayEnd y d)

/-- Log a value that reaches a yoke from outside (R275). A yoke that replays logs it only past the end of its input log.
DEDUCED, log entry 73. -/
def logInput (y : Nat) (e : YIn) (d : Dev) : Dev :=
  d.updYk y (fun k => { k with input := k.input ++ [e], replay := k.replay.map (fun r => (r.1, r.2 + 1)) })

/-- The value that a load gives its register (R305). -/
def loadValue (size : Nat) (signed : Bool) (w : Word) : Word :=
  match size with
  | 4 => w
  | 2 => if signed then (w.extractLsb' 0 16).signExtend 32 else w &&& 0xFFFF
  | _ => if signed then (w.extractLsb' 0 8).signExtend 32 else w &&& 0xFF

/-- A load ends (R297, R298): rd takes the value, or the load traps POISON or ACCESS. DEDUCED, log entry 74. -/
def finishLoad (y rd size : Nat) (signed : Bool) (addr : Word) (r : Resp) (d : Dev) : Dev :=
  let c := (d.yk y).ctx
  match r with
  | .ok v => yokeRetire y { c.setR rd (loadValue size signed v) with pc := c.pc + 4 } d
  | .poison => yokeTrap y 6 addr d
  | _ => yokeTrap y 5 addr d

/-- The peer answers a read that a yoke waits for (R513). -/
def yokeLoadAnswer (y tag : Nat) (r : Resp) (d : Dev) : Dev :=
  match (d.yk y).ld with
  | some w =>
    if w.tag = tag then
      finishLoad y w.reg w.size w.signed w.addr r (logInput y (.load r) (d.updYk y (fun k => { k with ld := none })))
    else d
  | none => d

/-- A coprocessor response (R313): word 0 to rd, with WIDE word 1 to rd + 1, and C takes FAIL. -/
def finishCop (y rd : Nat) (wide : Bool) (w0 w1 : Word) (fail : Bool) (d : Dev) : Dev :=
  let c := (d.yk y).ctx
  let c := c.setR rd w0
  let c := if wide then c.setR (rd + 1) w1 else c
  yokeRetire y { c.setFlag 2 fail with pc := c.pc + 4 } d

/-- Whether a yoke keeps its logs for a replay that has not reached their end (R276, R277). -/
def yokeReplays (d : Dev) (y : Nat) : Bool := (d.yk y).replay.isSome || yokeRun d y == 3

/-- The outcome of the request with a TAG arrives while the yoke replays: it joins the input log if the request is in the echo log (R318); the
outcome of RUN bears no TAG (R446). DEDUCED, log entry 78. -/
def logLate (y : Nat) (tag : Option Nat) (e : YIn) (d : Dev) : Dev :=
  if yokeReplays d y && (tag.isNone || (d.yk y).echo.any (fun x => x.tag == tag)) then d.updYk y (fun k => { k with input := k.input ++ [e] }) else d

/-- A COP_RSP with the tag of an outstanding request (R514). DEDUCED, log entry 78. -/
def yokeCopAnswer (y tag : Nat) (w0 w1 : Word) (fail : Bool) (d : Dev) : Dev :=
  match (d.yk y).wait with
  | some w =>
    if w.tag = tag then
      finishCop y w.reg w.wide w0 w1 fail (logInput y (.cop w0 w1 fail) (d.updYk y (fun k => { k with wait := none })))
    else logLate y (some tag) (.cop w0 w1 fail) d
  | none => logLate y (some tag) (.cop w0 w1 fail) d

/-- A request has had no response within 20 µs (R318). DEDUCED, log entry 78. -/
def yokeCopTimeout (y tag c : Nat) (d : Dev) : Dev :=
  let d := d.bump (Reg.Y_COP_TIMEOUTS y)
  match (d.yk y).wait with
  | some w =>
    if w.tag = tag then yokeTrapAs true y 8 (w32 c) (logInput y (.copTimeout true) (d.updYk y (fun k => { k with wait := none })))
    else logLate y (some tag) (.copTimeout false) d
  | none => logLate y (some tag) (.copTimeout false) d

end Sys2Proof.Machine
end

