-- ==== Sys2Proof/Machine/Audio.lean ====
section
/-! DEFINITION. Audio at work (R420 to R449): voices, the crosspoint, scenes, meters, ports and rings at each sample instant, slice
repair, and the Tandem engine. -/
namespace Sys2Proof.Machine

/-! ### Arithmetic -/

/-- Saturate to Q1.31 (R420). -/
def sat31 (x : Int) : Int := clampI (-2147483648) 2147483647 x
/-- A quotient by 2^n, rounded as `Config.roundUp` decides where it is not exact. DESIGN CHOICE, log entry 10. -/
def shrRound (place n : Nat) (x : Int) : Int :=
  x / (2 ^ n : Nat) + (if x % (2 ^ n : Nat) ≠ 0 && Config.roundUp place x then 1 else 0)
/-- The integer square root of n, below 2^k. -/
def isqrt (k n : Nat) : Nat := (List.range k).foldr (fun i r => if (r + 2 ^ i) * (r + 2 ^ i) ≤ n then r + 2 ^ i else r) 0

/-! ### Sample instants (R22) -/

/-- The herd time at which sample k starts. DEDUCED, log entry 99. -/
def sampleAt (fast : Bool) (k : Nat) : Nat := k * (if fast then 31250 else 62500) / 3
/-- The first sample that starts at herd time t or later. -/
def sampleFrom (fast : Bool) (t : Nat) : Nat :=
  let k := t * 3 / (if fast then 31250 else 62500)
  if t ≤ sampleAt fast k then k else k + 1
/-- The sample to be processed next. -/
def nextSample (d : Dev) : Nat :=
  match d.au.last with
  | some k => k + 1
  | none => sampleFrom (auFast d) d.now

/-! ### IMA ADPCM (R425) -/

/-- Step sizes of the IMA algorithm. PRESUMED, log entry 100. -/
def imaSteps : List Nat :=
  [7, 8, 9, 10, 11, 12, 13, 14, 16, 17, 19, 21, 23, 25, 28, 31, 34, 37, 41, 45, 50, 55, 60, 66, 73, 80, 88, 97, 107, 118] ++
  [130, 143, 157, 173, 190, 209, 230, 253, 279, 307, 337, 371, 408, 449, 494, 544, 598, 658, 724, 796, 876, 963, 1060, 1166, 1282] ++
  [1411, 1552, 1707, 1878, 2066, 2272, 2499, 2749, 3024, 3327, 3660, 4026, 4428, 4871, 5358, 5894, 6484, 7132, 7845, 8630] ++
  [9493, 10442, 11487, 12635, 13899, 15289, 16818, 18500, 20350, 22385, 24623, 27086, 29794, 32767]
/-- One nibble: the next predictor and step index. PRESUMED, log entry 100. -/
def imaStep (x : Nat) (p : Int) (i : Nat) : Int × Nat :=
  let st := imaSteps.getD i 0
  let df := st / 8 + (if x.testBit 2 then st else 0) + (if x.testBit 1 then st / 2 else 0) + (if x.testBit 0 then st / 4 else 0)
  let q : Int := if x.testBit 3 then p - df else p + df
  let j : Int := i + (match x % 8 with | 4 => 2 | 5 => 4 | 6 => 6 | 7 => 8 | _ => -1)
  (clampI (-32768) 32767 q, (clampI 0 88 j).toNat)

/-! ### Voices (R424 to R429) -/

/-- A parameter of voice v as sampled at the start of the block (R428). -/
def vpar (d : Dev) (v off : Nat) : Word := Store.get resetWord d.au.vregs (0x118000 + 0x40 * v + off)
/-- Change a voice. -/
def updVoice (v : Nat) (f : Voice → Voice) (d : Dev) : Dev :=
  d.auUpd (fun u => { u with voices := Store.set (fun _ => {}) u.voices v (f (d.voice v)) })
/-- A voice ends (R428). -/
def voiceEnd (v : Nat) (d : Dev) : Dev :=
  let d := (updVoice v (fun x => { x with stage := 0 }) d).setBit (Reg.V_STATE v) 6
  let d := if bitOf (vpar d v 0) 6 then fire 0x2F0 d else d
  if bitOf (vpar d v 0) 7 then d.setBit Reg.AU_FLAGS 0 else d
/-- A voice ends on an error: 4 FETCH_ERR, 5 CFG_ERR of V_STATE. -/
def voiceFail (v b : Nat) (d : Dev) : Dev := voiceEnd v ((d.setBit (Reg.V_STATE v) b).setBit Reg.AU_FLAGS 1)
/-- Poison met a voice (R429). -/
def voicePoison (v : Nat) (d : Dev) : Dev := (d.setBit (Reg.V_STATE v) 3).setBit Reg.AU_FLAGS 1

/-- A command takes effect on voice v (R428). DEDUCED, log entry 99. -/
def voiceAct (v cmd : Nat) (d : Dev) : Dev :=
  let c := vpar d v 0
  let x := d.voice v
  if voiceCount d ≤ v then d
  else match cmd with
    | 1 =>
      let d := updVoice v (fun _ => { stage := 1 }) d
      if bitOf c 2 && (vpar d v 0x0C).toNat ≤ (vpar d v 0x10).toNat then voiceFail v 5 d else d
    | 2 => if 1 ≤ x.stage && x.stage ≤ 3 then updVoice v (fun x => { x with stage := 4 }) d else d
    | 3 => if 1 ≤ x.stage then updVoice v (fun x => { x with stage := 5, fadeFrom := x.l, faded := 0 }) d else d
    | _ => d

/-- The step of a rate code; a mantissa of 0 acts at once (R427). -/
def envRate (c : Nat) : Nat := if c % 4096 = 0 then 2 ^ 24 else c % 4096 * 2 ^ (c / 4096)
/-- One step of the envelope (R427): the voice after it, and whether the voice ends. DEDUCED, log entry 98. -/
def envStep (attDec susRel : Word) (x : Voice) : Voice × Bool :=
  let sus := fld susRel 15 0 * 256
  match x.stage with
  | 1 =>
    let l := min (2 ^ 24) (x.l + envRate (fld attDec 15 0))
    ({ x with l := l, stage := if l = 2 ^ 24 then 2 else 1 }, false)
  | 2 =>
    let l := max sus (x.l - envRate (fld attDec 31 16))
    ({ x with l := l, stage := if l = sus then 3 else 2 }, false)
  | 4 =>
    let l := x.l - envRate (fld susRel 31 16)
    ({ x with l := l }, l == 0)
  | 5 =>
    let n := x.faded + 1
    ({ x with faded := n, l := x.fadeFrom * (32 - n) / 32 }, decide (32 ≤ n))
  | _ => (x, false)

/-- Where a voice's samples lie. -/
def voiceBase (d : Dev) (v : Nat) : Nat := (vpar d v 4).toNat + fld (vpar d v 8) 15 0 * 2 ^ 32

/-- A voice fetch (R429): its bytes, zeros where poisoned; none outside memory. -/
def voiceFetch (v a n : Nat) (s : State) : Option (List Byte) × State :=
  match fetch 0 a n s with
  | (.data b, s) => (some b, s)
  | (.poison _, s) => (some (List.replicate n 0), s.upd (voicePoison v))
  | (.fail, s) => (none, s)

/-- Sample i of a PCM voice, in Q1.31. -/
def pcmSample (v i : Nat) (s : State) : Option Int × State :=
  let n := fld (vpar s.dev v 0) 1 0 + 1
  match voiceFetch v (voiceBase s.dev v + n * i) n s with
  | (some b, s) => (some (BitVec.ofNat 32 (leNat b * 2 ^ (32 - 8 * n))).toInt, s)
  | (none, s) => (none, s)

/-- The ADPCM decoder at its header: it stands before sample 0. A step index above 88 is no value of the format, and is free.
PRESUMED, log entry 100. -/
def adpcmHeader (v : Nat) (s : State) : Option (Int × Nat) × State :=
  match voiceFetch v (voiceBase s.dev v) 4 s with
  | (some b, s) =>
    let i := (b.getD 2 0).toNat
    let p := (BitVec.ofNat 16 (leNat (b.take 2))).toInt
    if i ≤ 88 then (some (p, i), s)
    else
      let (w, d) := s.dev.fresh
      (some (p, w.toNat % 89), { s with dev := d })
  | (none, s) => (none, s)

/-- The decoder goes on by n samples. -/
def adpcmAdvance (v loop : Nat) : Nat → Voice → State → Option Voice × State
  | 0, x, s => (some x, s)
  | n + 1, x, s =>
    let go (k : Nat) (p : Int) (i : Nat) (s : State) : Option Voice × State :=
      match voiceFetch v (voiceBase s.dev v + 4 + k / 2) 1 s with
      | (some b, s) =>
        let (q, j) := imaStep ((b.getD 0 0).toNat / (if k % 2 = 0 then 1 else 16) % 16) p i
        let x := { x with dec := some (k, q, j, p), decLoop := if k = loop && x.decLoop.isNone then some (q, j) else x.decLoop }
        adpcmAdvance v loop n x s
      | (none, s) => (none, s)
    match x.dec with
    | some (k, p, i, _) => go (k + 1) p i s
    | none =>
      match adpcmHeader v s with
      | (some (p, i), s) => go 0 p i s
      | (none, s) => (none, s)

/-- How many samples are decoded. -/
def decoded (x : Voice) : Nat := match x.dec with | some (k, _) => k + 1 | none => 0

/-- The value of ADPCM sample i, which is the last decoded or the one before it. -/
def adpcmValue (x : Voice) (i : Nat) : Int :=
  match x.dec with
  | some (k, p, _, q) => (if i = k then p else q) * 65536
  | none => 0

/-- s[i] and s[i+1] of a voice (R426), or none where a fetch fails. -/
def voicePair (v : Nat) (x : Voice) (s : State) : Option (Int × Int × Voice) × State :=
  let c := vpar s.dev v 0
  let i := x.p / 2 ^ 24
  let last := (vpar s.dev v 0x0C).toNat
  let loop := (vpar s.dev v 0x10).toNat
  if fld c 1 0 = 3 then
    let upto := if i + 1 < last then i + 2 else i + 1
    match adpcmAdvance v loop (upto - decoded x) x s with
    | (some x, s) =>
      let b : Int := if i + 1 < last then adpcmValue x (i + 1)
        else if bitOf c 2 then (match x.decLoop with | some (p, _) => p * 65536 | none => 0) else 0
      (some (adpcmValue x i, b, x), s)
    | (none, s) => (none, s)
  else
    match pcmSample v i s with
    | (some a, s) =>
      if i + 1 < last then
        (match pcmSample v (i + 1) s with | (some b, s) => (some (a, b, x), s) | (none, s) => (none, s))
      else if bitOf c 2 then
        (match pcmSample v loop s with | (some b, s) => (some (a, b, x), s) | (none, s) => (none, s))
      else (some (a, 0, x), s)
    | (none, s) => (none, s)

/-- The state-variable filter (R426): the output and the voice after it. -/
def voiceFilter (filt mode : Word) (x : Voice) (a : Int) : Int × Voice :=
  let low := sat31 (x.low + shrRound 0 15 (fld filt 15 0 * x.band))
  let high := sat31 (a - low - shrRound 1 14 (fld filt 31 16 * x.band))
  let band := sat31 (shrRound 2 15 (fld filt 15 0 * high) + x.band)
  let y := match fld mode 5 4 with
    | 0 => low
    | 1 => band
    | 2 => high
    | _ => sat31 (high + low)
  (y, { x with low := low, band := band })

/-- P after the instant (R426): the voice, and whether it ends. DEDUCED, log entry 99. -/
def voiceMove (d : Dev) (v : Nat) (x : Voice) : Voice × Bool :=
  let c := vpar d v 0
  let last := (vpar d v 0x0C).toNat
  let loop := (vpar d v 0x10).toNat
  let p := x.p + (vpar d v 0x14).toNat
  if p / 2 ^ 24 < last then ({ x with p := p }, false)
  else if bitOf c 2 then
    let n := last - loop
    let q := if n = 0 then (Config.freeWord p).toNat * 2 ^ 24 + p % 2 ^ 24 else ((p / 2 ^ 24 - loop) % n + loop) * 2 ^ 24 + p % 2 ^ 24
    ({ x with p := q, dec := match x.decLoop with | some (a, j) => some (loop, a, j, a) | none => none }, false)
  else ({ x with p := p }, true)

/-- Add to the send sum of a crosspoint input. -/
def addAt (m : Store Int) (i : Nat) (x : Int) : Store Int := Store.set (fun _ => 0) m i (Store.get (fun _ => 0) m i + x)

/-- One voice instant of a playing voice (R426): its contributions join the send sums of the instant. DEDUCED, log entry 98. -/
def voiceStep (v : Nat) (a : Store Int × State) : Store Int × State :=
  let (sums, s) := a
  let d := s.dev
  let (x, done) := envStep (vpar d v 0x18) (vpar d v 0x1C) (d.voice v)
  if done then (sums, s.upd (fun d => voiceEnd v (updVoice v (fun _ => x) d)))
  else match voicePair v x s with
    | (none, s) => (sums, s.upd (voiceFail v 4))
    | (some (p, q, x), s) =>
      let d := s.dev
      let y := p + (q - p) * (x.p % 2 ^ 24 : Nat) / (2 ^ 24 : Nat)
      let (y, x) := if bitOf (vpar d v 0) 3 then voiceFilter (vpar d v 0x20) (vpar d v 0) x y else (y, x)
      let y := shrRound 3 24 (y * x.l)
      let silent := d.au.missed.contains v || d.au.down.contains (96 + v / (if auFast d then 32 else 64))
      let send (n : Nat) (m : Store Int) : Store Int :=
        let w := vpar d v (0x24 + 4 * n)
        if bitOf w 6 && !silent then addAt m (fld w 5 0) (shrRound 4 13 (y * sfld w 31 16)) else m
      let (x, done) := voiceMove d v x
      let d := updVoice v (fun _ => x) d
      (forN 4 sums send, { s with dev := if done then voiceEnd v d else d })

/-- All voices at one voice instant: the saturated send sums. -/
def voicesStep (s : State) : State :=
  let playing := (s.dev.au.voices.filter (fun e => e.2.stage != 0)).map (·.1)
  let (sums, s) := playing.foldl (fun a v => voiceStep v a) ([], s)
  s.upd (fun d => d.auUpd (fun u => { u with
    missed := []
    sends := (sums.map (fun e => (e.1, sat31 e.2)) :: u.sends).take 33 }))

/-! ### Nodes and scenes (R432, R434) -/

/-- A crosspoint node. -/
def Dev.node (d : Dev) (o i : Nat) : Node := Store.get (fun _ => {}) d.au.nodes (128 * o + i)
/-- The target of a node. -/
def nodeTarget (n : Node) : Int := match n.ramp with | some (_, t, _) => t | none => n.g
/-- A node takes a target (R432): a changed target starts a ramp from the present gain. -/
def setTarget (o i : Nat) (t : Int) (id : Nat) (d : Dev) : Dev :=
  let n := d.node o i
  let d := d.wr (Reg.GAIN o i) (iw t &&& 0xFFFF)
  if nodeTarget n = t then d
  else d.auUpd (fun u => { u with nodes := Store.set (fun _ => {}) u.nodes (128 * o + i) { n with ramp := some (n.g, t, 0, id) } })

/-- A scene fires (R434). -/
def fireScene (es : List Word) (c : Option Arrival) (d : Dev) : Dev :=
  let id := d.au.nextFire
  let d := d.auUpd (fun u => { u with nextFire := id + 1, fires := u.fires ++ [(id, c)] })
  es.foldl (fun d e =>
    let o := fld e 13 7
    if isLent d o then d.bump Reg.XS_SKIPPED else setTarget o (fld e 6 0) (sfld e 31 16) id d) d

/-- An action takes effect (R422). -/
def auAct (a : AuAct) (d : Dev) : Dev :=
  match a with
  | .voice v c => voiceAct v c d
  | .trig k =>
    forN (voiceCount d) d (fun v d =>
      let c := vpar d v 0
      if bitOf c 11 && fld c 10 8 == k then voiceAct v 1 d else d)
  | .gain o i g => setTarget o i g 0 d
  | .scene es c => fireScene es c d

/-- Every ramp goes on by one sample (R432). -/
def rampStep (n : Node) : Node :=
  match n.ramp with
  | some (g0, t, k, id) =>
    let g := g0 + (t - g0) * (k + 1 : Nat) / 64
    { g := g, ramp := if k + 1 = 64 then none else some (g0, t, k + 1, id) }
  | none => n

/-- The fires whose last ramp has ended (R434). DEDUCED, log entry 101. -/
def sceneDone (d : Dev) : Dev :=
  let live (id : Nat) : Bool := d.au.nodes.any (fun e => match e.2.ramp with | some (_, _, _, i) => i == id | none => false)
  let ended := d.au.fires.filter (fun e => !live e.1)
  let d := d.auUpd (fun u => { u with fires := u.fires.filter (fun e => live e.1) })
  ended.foldl (fun d e => fireCause e.2 0x2F3 (d.setBit Reg.AU_FLAGS 4)) d

/-! ### Inputs (R430, R433, R438 to R441) -/

/-- The frame of port p that belongs to sample k: from outside for a master, the assigned one for a slave. -/
def tdmFrame (d : Dev) (tdm : List (List Word)) (k p : Nat) : List Word :=
  match d.fld (Reg.TDM_CFG p) 1 0 with
  | 3 => tdm.getD p []
  | 1 =>
    (match (Store.get (fun _ => {}) d.au.tdm p : TdmSt).frames.find? (fun e => e.1 == k) with
      | some e => e.2
      | none => [])
  | _ => []

/-- TDM input j (R439). -/
def tdmInput (d : Dev) (tdm : List (List Word)) (k j : Nat) : Int :=
  let sel := d.rd (Reg.TDM_IN_SEL j)
  let p := fld sel 2 0
  let c := d.rd (Reg.TDM_CFG p)
  if bitOf sel 7 && fld sel 6 3 ≤ fld c 5 2 then
    (BitVec.ofNat 32 (((tdmFrame d tdm k p).getD (fld sel 6 3) 0).toNat * 2 ^ (16 - 8 * fld c 7 6))).toInt
  else 0

/-- The input of PDM microphone m (R440), from the decimated samples of both edges of each pair, 8 sample periods after they were taken
(R421). DEDUCED, log entry 104. -/
def pdmInput (d : Dev) (m : Nat) : Int :=
  if d.bit Reg.PDM_CFG (m / 2) then
    sword ((d.au.pdm.getD 8 []).getD (if d.bit Reg.PDM_CFG (8 + m / 2) then (if m % 2 = 0 then m + 1 else m - 1) else m) 0)
  else 0

/-- A crosspoint input before MUTE and its filters. -/
def rawInput (d : Dev) (tdm : List (List Word)) (k i : Nat) : Int :=
  if i < 64 then Store.get (fun _ => 0) (d.au.sends.getD 32 []) i
  else if i < 96 then tdmInput d tdm k (i - 64)
  else if i < 112 then pdmInput d (i - 96)
  else sword ((Store.get (fun _ => []) d.au.ringBuf (i - 112)).getD (k % 32) 0)

/-- A meter takes a sample (R435). -/
def meterTake (m : Nat) (x : Int) (d : Dev) : Dev :=
  if x = 0 then d
  else
    let t := d.meter m
    let t := { t with peak := max t.peak (x.natAbs / 65536), sum := t.sum + x.natAbs * x.natAbs }
    d.auUpd (fun u => { u with meters := Store.set (fun _ => {}) u.meters m t })

/-- One input of sample k: its value after its filters, on its path. DESIGN CHOICE, log entry 11. -/
def takeInput (tdm : List (List Word)) (k i : Nat) (a : Store Int × Store Int × Dev) : Store Int × Store Int × Dev :=
  let (nrm, ll, d) := a
  let c := d.rd (Reg.IN_CFG i)
  let x := if bitOf c 5 then 0 else rawInput d tdm k i
  if bitOf c 4 then (nrm, Store.set (fun _ => 0) ll i x, meterTake i x d)
  else if 64 ≤ i && i < 112 && !(fld c 2 0 = 0 && bitOf c 3) then
    let (y, st) := Config.inputFilter (auFast d) (fld c 2 0) (bitOf c 3) (Store.get (fun _ => 0) d.au.filt i) (iw x)
    let d := d.auUpd (fun u => { u with filt := Store.set (fun _ => 0) u.filt i st })
    (Store.set (fun _ => 0) nrm i (sword y), ll, meterTake i (sword y) d)
  else (Store.set (fun _ => 0) nrm i x, ll, meterTake i x d)

/-- All inputs of sample k. DESIGN CHOICE, log entry 11. -/
def inputsStep (tdm : List (List Word)) (pdm : List Word) (k : Nat) (d : Dev) : Dev :=
  let d := d.auUpd (fun u => { u with pdm := (pdm :: u.pdm).take 9 })
  let (nrm, ll, d) := forN 128 (([], [], d) : Store Int × Store Int × Dev) (fun i a => takeInput tdm k i a)
  d.auUpd (fun u => { u with norm := (nrm :: u.norm).take 36, ll := (ll :: u.ll).take 4 })

/-! ### Outputs (R431, R436, R439, R441) -/

/-- Every output of sample k (R421, R431): the exact sums of the products, and the saturated outputs. DEDUCED, log entry 101. -/
def outputsStep (d : Dev) : Dev :=
  let nrm := d.au.norm.getD 35 []
  let ll := d.au.ll.getD 3 []
  let sums := d.au.nodes.foldl (fun (m : Store Int) e =>
    addAt m (e.1 / 128) (e.2.g * (Store.get (fun _ => 0) nrm (e.1 % 128) + Store.get (fun _ => 0) ll (e.1 % 128)))) []
  sums.foldl (fun d e =>
    let o := e.1
    if isLent d o then d
    else if d.au.down.contains (128 + o / 8) then d
    else
      let x := shrRound 5 13 e.2
      let y := sat31 x
      let d := d.auUpd (fun u => { u with outs := Store.set (fun _ => 0) u.outs o y })
      let d := meterTake (128 + o) y d
      if x ≠ y && !d.au.clipped then
        fire 0x2F4 ((d.auUpd (fun u => { u with clipped := true })).setBit Reg.AU_FLAGS 3)
      else d) (d.auUpd (fun u => { u with outs := [] }))

/-- The present value of output o. -/
def outAt (d : Dev) (o : Nat) : Int := Store.get (fun _ => 0) d.au.outs o

/-- A sample rounded to a slot of b bits, and saturated (R436); a tie goes as `Config.roundUp` decides. DESIGN CHOICE, log entry 10. -/
def slotWord (b : Nat) (x : Int) : Word :=
  let n := 32 - b
  let half : Int := (2 ^ n / 2 : Nat)
  let r := x % (2 ^ n : Nat)
  let q := x / (2 ^ n : Nat) + (if n ≠ 0 && (half < r || (r = half && Config.roundUp 6 x)) then 1 else 0)
  w32 ((iw (clampI (-(2 ^ (b - 1) : Nat)) ((2 ^ (b - 1) : Nat) - 1) q)).toNat % 2 ^ b)

/-- The frame that port p sends (R439). -/
def txFrame (d : Dev) (p : Nat) : List Word :=
  let c := d.rd (Reg.TDM_CFG p)
  (List.range (fld c 5 2 + 1)).map (fun n =>
    let b := fld (d.rd (Reg.TX_MAP p (n / 4))) (8 * (n % 4) + 7) (8 * (n % 4))
    if 128 ≤ b then slotWord (fld c 7 6 * 8 + 16) (outAt d (b % 64)) else 0)

/-- A slot of b bits as a 32-bit word: the slot fills the top bits (R436). DEDUCED, log entry 101. -/
def slotTop (b : Nat) (w : Word) : Word := w32 (w.toNat * 2 ^ (32 - b))

/-- The ports take in and send out the frames of sample k; the check units see them (R411). -/
def portsStep (tdm : List (List Word)) (k : Nat) (d : Dev) : Dev :=
  forN 8 d (fun p d =>
    if d.bit (Reg.TDM_CFG p) 0 then
      let tx := txFrame d p
      let n := d.fld (Reg.TDM_CFG p) 5 2 + 1
      let rx := (List.range n).map (fun i => (tdmFrame d tdm k p).getD i 0)
      let t : TdmSt := Store.get (fun _ => {}) d.au.tdm p
      let t := { t with frames := t.frames.filter (fun e => k < e.1) }
      let d := d.auUpd (fun u => { u with tdmOut := Store.set (fun _ => []) u.tdmOut p tx, tdm := Store.set (fun _ => {}) u.tdm p t })
      let top := slotTop (d.fld (Reg.TDM_CFG p) 7 6 * 8 + 16)
      snoopTdm p true (tx.map top) (snoopTdm p false (rx.map top) d)
    else d.auUpd (fun u => { u with tdmOut := Store.set (fun _ => []) u.tdmOut p [] }))

/-- Where sample n of ring r lies. -/
def ringSlot (d : Dev) (r : Nat) (n : Word) : Nat :=
  (d.rd (Reg.STREAM_BASE_LO r)).toNat + d.fld (Reg.STREAM_CFG r) 15 0 * 2 ^ 32 + 4 * (n.toNat % 2 ^ d.fld (Reg.STREAM_CFG r) 20 16)

/-- Recording ring r takes the sample of its output (R441). One outside HBM3 and the shared SRAM stores nothing.
DESIGN CHOICE, log entry 102. -/
def recordStep (r : Nat) (s : State) : State :=
  let d := s.dev
  if !d.bit (Reg.STREAM_CFG r) 31 then s
  else
    let wr := d.rd (Reg.STREAM_WR r)
    if 2 ^ d.fld (Reg.STREAM_CFG r) 20 16 ≤ (wr - d.rd (Reg.STREAM_RD r)).toNat then s.upd (fun d => d.setBit Reg.AU_FLAGS 9)
    else
      let a := ringSlot d r wr
      let s := s.upd (fun d => d.wr (Reg.STREAM_WR r) (wr + 1))
      if memOk d a 4 then memWrite a (wordBytes (iw (outAt d (r + 48)))) s else s

/-- Stream ring r gives its samples of a block (R441): a sample not yet written reads as 0. What a poisoned sample, or one outside
memory, reads as is free. DEDUCED, log entry 101; DESIGN CHOICE, log entry 102. -/
def ringTake (r : Nat) : Nat → List Word → State → List Word × State
  | 0, l, s => (l, s)
  | n + 1, l, s =>
    let d := s.dev
    let rd := d.rd (Reg.STREAM_RD r)
    if d.rd (Reg.STREAM_WR r) = rd then ringTake r n (l ++ [0]) (s.upd (fun d => fire 0x2F6 (d.setBit Reg.AU_FLAGS 8)))
    else
      let (x, s) := fetch 2 (ringSlot d r rd) 4 s
      let (w, d) := match x with
        | .data b => (w32 (leNat b), s.dev)
        | _ => s.dev.fresh
      ringTake r n (l ++ [w]) { s with dev := d.wr (Reg.STREAM_RD r) (rd + 1) }
/-- The stream rings at a block start. -/
def ringsStep (s : State) : State :=
  forN 16 s (fun r s =>
    let (l, s) := if s.dev.bit (Reg.STREAM_CFG r) 31 then ringTake r 32 [] s else ([], s)
    s.upd (fun d => d.auUpd (fun u => { u with ringBuf := Store.set (fun _ => []) u.ringBuf r l })))

/-! ### Blocks -/

/-- LEVEL of a meter at a block boundary (R435): the RMS over the last 1024 samples. DESIGN CHOICE, log entry 10; DEDUCED, log entry 101. -/
def meterBlock (t : AuMeter) : AuMeter :=
  let l := (t.sum :: t.sums).take 32
  let l := if l.all (· == 0) then [] else l
  let tot := l.foldl (· + ·) 0
  let q := isqrt 16 (tot / 2 ^ 42)
  { t with sum := 0, sums := l, level := q + (if q * q * 2 ^ 42 ≠ tot && Config.roundUp 7 tot then 1 else 0) }

/-- Physical slice sp serves logical slice l of a class, with GLOBAL_GEN (R284). -/
def sliceServe (cls l sp : Nat) (d : Dev) : Dev :=
  (d.auUpd (fun u => { u with slices := Store.set (fun k => k % 32) u.slices (32 * cls + l) sp })).wr Reg.AU_GEN (d.rd Reg.GLOBAL_GEN)

/-- A slice is handed over to the spare of its class, and the slice that served it becomes the spare and runs self-test (R272, R280, R282).
DEDUCED, log entry 129. -/
def sliceHandoff (cls l : Nat) (d : Dev) : Dev :=
  let key := 32 * cls + l
  let p := Store.get (fun k => k % 32) d.au.slices key
  match takeSpare cls d with
  | some (sp, d) => startTest cls p (setUnit cls p 1 (sliceServe cls l sp d))
  | none => d

/-- A request with ROTATE names the slice that serves logical slice l (R282). -/
def sliceWanted (cls l : Nat) (d : Dev) : Bool :=
  d.requests.any (fun r => r.1 == cls && r.2.1 == Store.get (fun k => k % 32) d.au.slices (32 * cls + l) && r.2.2)

/-- At a block boundary after a shadow block without a mismatch, a voice slice is handed over when a handoff is due; a crosspoint slice at
any boundary on request. -/
def sliceRotate (l : Nat) (clean : Bool) (d : Dev) : Dev :=
  let d := if clean && !d.au.down.contains (96 + l) then
      if d.au.rove && !(sparesOf d 3).isEmpty then (sliceHandoff 3 l (d.auUpd (fun u => { u with rove := false }))).bump Reg.HANDOFFS
      else if sliceWanted 3 l d then sliceHandoff 3 l d
      else d
    else d
  forN 16 d (fun x d => if sliceWanted 4 x d && !d.au.down.contains (128 + x) then sliceHandoff 4 x d else d)

/-- The spare voice slice has shadowed a slice for a block (R443): on a mismatch, the probe block tells whether the slice and the spare
are good. -/
def voiceShadow (b : Nat) (r : Option (Bool × Bool)) (d : Dev) : Dev :=
  let l := b % 8
  match (if d.au.down.contains (96 + l) then none else r), sparesOf d 3 with
  | some (good, spareGood), sp :: _ =>
    let d := d.bump Reg.SHADOW_MISMATCH
    let p := Store.get (fun k => k % 32) d.au.slices (96 + l)
    match good, spareGood with
    | true, true => d.bump Reg.SHADOW_BENIGN
    | false, true =>
      let d := retireUnit 3 p (endTest 3 sp (setUnit 3 sp 0 d))
      let d := (sliceServe 3 l sp d).setBit Reg.AU_FLAGS 12
      faultLog 3 6 p 1 (if (sparesOf d 3).isEmpty then 1 else 0) 0 d
    | true, false => let d := retireUnit 3 sp d; faultLog 3 6 sp 2 1 0 d
    | false, false => faultLog 3 6 sp 2 4 0 ((retireUnit 3 sp d).setBit Reg.ST_FLAGS 11)
  | _, _ => d

/-- Audio stops at a block boundary of a standby entry (R557, R559): every playing voice takes STOP, and outputs carry 0.
DEDUCED, log entry 104. -/
def auRetain (d : Dev) : Dev :=
  let d := (d.au.voices.filter (fun e => e.2.stage != 0)).foldl (fun d e => voiceAct e.1 3 d) d
  d.auUpd (fun u => { u with runs := false, outs := [], tdmOut := [], sends := [], norm := [], ll := [] })

/-- The start of a block: BLOCK fires, parameters are sampled (R428), staged actions take effect (R422), the rings give their
samples (R441), and levels are brought up to date (R435). -/
def blockStart (k : Nat) (shadow : Option (Bool × Bool)) (s : State) : State :=
  let s := s.upd (fun d => sliceRotate ((k / 32 - 1) % 8) shadow.isNone (voiceShadow (k / 32 - 1) shadow (fire 0x2F1 d)))
  let s := s.upd (fun d => d.auUpd (fun u => { u with
    vregs := Store.keep (fun o => 0x118000 ≤ o && o < 0x120000) d.regs
    clipped := false
    meters := (u.meters.map (fun e => (e.1, meterBlock e.2))).filter (fun e => e.2 != {}) }))
  let acts := s.dev.au.staged
  ringsStep (s.upd (fun d => acts.foldl (fun d a => auAct a d) (d.auUpd (fun u => { u with staged := [] }))))

/-- Sample k of running audio. -/
def sampleStep (tdm : List (List Word)) (pdm : List Word) (shadow : Option (Bool × Bool)) (k : Nat) (s : State) : State :=
  let s := if k % 32 = 0 then blockStart k shadow s else s
  let t := sampleAt (auFast s.dev) k
  let due := s.dev.au.now.filter (fun e => e.1 ≤ t)
  let s := s.upd (fun d => due.foldl (fun d e => auAct e.2 d) (d.auUpd (fun u => { u with now := u.now.filter (fun e => t < e.1) })))
  let s := voicesStep s
  let s := s.upd (fun d =>
    let d := d.auUpd (fun u => { u with nodes := (u.nodes.map (fun e => (e.1, rampStep e.2))).filter (fun e => e.2 != {}) })
    let d := settleHolds (portsStep tdm k (outputsStep (inputsStep tdm pdm k d)))
    let d := forN 32 d (fun b d => snoopBus b (iw (outAt d (96 + b))) d)
    let n := d.au.down.length
    sceneDone (if n = 0 then d else (d.bumpBy Reg.AU_MUTED n).setBit Reg.AU_FLAGS 13))
  forN 64 s (fun r s => recordStep (16 + r) s)

/-- One sample instant (R22): time passes to it; audio runs from the first block boundary after LOADED sets (R423), or after the
return from standby (R557). -/
def audioSample (tdm : List (List Word)) (pdm : List Word) (shadow : Option (Bool × Bool)) (s : State) : State :=
  let k := nextSample s.dev
  let s := s.upd (fun d => (d.passTo (sampleAt (auFast d) k)).auUpd (fun u => { u with last := some k }))
  let d := s.dev
  let up := d.bit Reg.IMAGE_STATUS 0 && d.pwr == 0
  let s := if k % 32 = 0 then (if up then s.upd (fun d => d.auUpd (fun u => { u with runs := true })) else if d.au.runs then s.upd auRetain else s) else s
  if s.dev.au.runs then sampleStep tdm pdm shadow k s else s

/-- AUDIO_SAMPLE: `tdm` is what each master port receives, `pdm` the decimated samples of the microphones by pair and edge, and `shadow`
what the compare of the block just ended found. -/
def execAudioSample (tdm : List (List Word)) (pdm : List Word) (shadow : Option (Bool × Bool)) (s : State) : Host.Outcome State Fault Refusal :=
  .next (audioSample tdm pdm shadow s)

/-- The words of an entry list. -/
def listWords : List Byte → List Word
  | a :: b :: c :: e :: l => w32 (leNat [a, b, c, e]) :: listWords l
  | _ => []

/-- A scene load ends (R434). -/
def xsLoadDone (s : State) : State :=
  match s.dev.au.load with
  | none => s
  | some (sc, a, n) =>
    let s := s.upd (fun d => (d.clrBit Reg.XS_STATE 16).auUpd (fun u => { u with load := none }))
    match fetch 2 a (4 * n) s with
    | (.data b, s) => s.upd (fun d => (d.setBit Reg.XS_STATE sc).auUpd (fun u => { u with scenes := Store.set (fun _ => []) u.scenes sc (listWords b) }))
    | (_, s) => s.upd (fun d => d.setBit Reg.AU_FLAGS 5)
/-- XS_LOAD_DONE. -/
def execXsLoadDone (s : State) : Host.Outcome State Fault Refusal := .next (xsLoadDone s)

/-! ### Slave ports (R438) -/

/-- A slave port receives a frame, `wait` ns from now. The first fixes the offset of FSYNC from the nearest sample instant; a drift of
more than half a sample period drops a sample or repeats one. DEDUCED, log entry 103. -/
def slaveFrame (p : Nat) (slots : List Word) (d : Dev) : Dev :=
  let fast := auFast d
  let t := d.now
  let x : TdmSt := Store.get (fun _ => {}) d.au.tdm p
  let put (x : TdmSt) (d : Dev) : Dev := d.auUpd (fun u => { u with tdm := Store.set (fun _ => {}) u.tdm p x })
  let slip (d : Dev) : Dev := fire 0x2F5 ((d.setBit (Reg.TDM_STATUS p) 1).setBit Reg.AU_FLAGS 6)
  let off (k : Nat) : Int := (t : Int) - sampleAt fast k
  if d.fld (Reg.TDM_CFG p) 1 0 ≠ 1 || !pinFeeds d (tdmPin d p 0) || !pinFeeds d (tdmPin d p 1) then d
  else if !x.locked then
    let k := sampleFrom fast t
    let k := if k ≠ 0 && t - sampleAt fast (k - 1) < sampleAt fast k - t then k - 1 else k
    (put { x with locked := true, next := k + 1, offset := off k, frames := [(k, slots)] } d).setBit (Reg.TDM_STATUS p) 0
  else
    let drift := off x.next - x.offset
    let half : Int := if fast then 31250 else 62500
    if half < drift * 6 then
      let prev := match x.frames.getLast? with | some e => e.2 | none => slots
      slip (put { x with next := x.next + 2, offset := off (x.next + 1), frames := x.frames ++ [(x.next, prev), (x.next + 1, slots)] } d)
    else if drift * 6 < -half then slip (put { x with offset := off (x.next - 1) } d)
    else put { x with next := x.next + 1, frames := x.frames ++ [(x.next, slots)] } d
/-- TDM_SLAVE_FRAME. -/
def execTdmSlaveFrame (p : Fin 8) (slots : List Word) (wait : Nat) (s : State) : Host.Outcome State Fault Refusal :=
  s.next (fun d => slaveFrame p slots (d.pass wait))

/-! ### Slice repair (R442) -/

/-- The physical slice that serves logical slice l of a class. -/
def sliceOf (d : Dev) (cls l : Nat) : Nat := Store.get (fun k => k % 32) d.au.slices (32 * cls + l)

/-- A failed slice is retired and starts self-test, with its fault log entry (R442 step 4): RESULT 6 where no spare serves it.
DEDUCED, log entry 104. -/
def sliceRetire (cls l p : Nat) (spared : Bool) (d : Dev) : Dev :=
  match d.au.faults.find? (fun e => e.1 == 32 * cls + l) with
  | some (key, det, ht) =>
    let d := retireUnit cls p (d.auUpd (fun u => { u with faults := u.faults.filter (fun e => e.1 != key) }))
    faultLogAt ht cls det p (if spared then 1 else 2) (if !spared then 6 else if (sparesOf d cls).isEmpty then 1 else 0) 0 d
  | none => d

/-- The steward detects a failed slice; `code` tells an invalid code from a stall. Its samples stop. -/
def sliceFault (cls l : Nat) (code : Bool) (d : Dev) : Dev :=
  let key := 32 * cls + l
  if d.au.down.contains key || (cls = 3 && 8 ≤ l) then d
  else
    let d := d.auUpd (fun u => { u with down := insNat key u.down, faults := u.faults ++ [(key, if code then 1 else 2, d.now)] })
    if (sparesOf d cls).isEmpty then sliceRetire cls l (sliceOf d cls l) false d else d
/-- AUDIO_SLICE_FAULT. -/
def execAudioSliceFault (xp : Bool) (l : Fin 16) (code : Bool) (s : State) : Host.Outcome State Fault Refusal :=
  s.next (sliceFault (if xp then 4 else 3) l code)

/-- The spare slice has loaded the committed state, and serves the slice with GLOBAL_GEN; the failed slice is retired. One that finds the
spare taken is retired without it. -/
def sliceTakeover (cls l : Nat) (d : Dev) : Dev :=
  let key := 32 * cls + l
  let p := sliceOf d cls l
  if !d.au.down.contains key then d
  else match takeSpare cls d with
    | some (sp, d) =>
      sliceRetire cls l p true ((sliceServe cls l sp (d.auUpd (fun u => { u with down := u.down.erase key }))).setBit Reg.AU_FLAGS 12)
    | none => sliceRetire cls l p false d
/-- AUDIO_SLICE_TAKEOVER. -/
def execAudioSliceTakeover (xp : Bool) (l : Fin 16) (s : State) : Host.Outcome State Fault Refusal :=
  s.next (sliceTakeover (if xp then 4 else 3) l)

/-! ### The Tandem engine (R445 to R447) -/

/-- x[i] of a vector of words. -/
def vecAt (x : List Word) (i : Nat) : Int := sfld (x.getD (i / 2) 0) (16 * (i % 2) + 15) (16 * (i % 2))
/-- acc[o] (R445). -/
def tdAcc (d : Dev) (x : List Word) (o : Nat) : Int :=
  forN 128 0 (fun i a => a + sfld (d.rd (Reg.GAIN o i)) 15 0 * vecAt x i)
/-- y[o] (R445). -/
def tdY (sh : Nat) (a : Int) : Int := sat31 (if sh = 0 then a else (a + (2 ^ (sh - 1) : Nat)) / (2 ^ sh : Nat))
/-- SHIFT. -/
def tdShift (d : Dev) : Nat := d.fld Reg.TD_SHIFT 4 0

/-- RUN of coprocessor 1 ends: TD_OUT takes the results, and the yoke its answer (R446). -/
def tdRunDone (y : Nat) (d : Dev) : Dev :=
  let x := (List.range 64).map (fun k => d.rd (Reg.TD_IN k))
  let rows := lentRows d
  let d := rows.foldl (fun d o =>
    let a := tdAcc d x o
    (d.auUpd (fun u => { u with acc := Store.set (fun _ => 0) u.acc o a })).wr (Reg.TD_OUT o) (iw (tdY (tdShift d) a))) d
  match (d.yk y).tdWait with
  | some rd =>
    let n := w32 rows.length
    finishCop y rd false n 0 false (logInput y (.cop n 0 false) (d.updYk y (fun k => { k with tdWait := none })))
  | none => logLate y none (.cop (w32 rows.length) 0 false) d

/-- The job ends at this vector (R447). DEDUCED, log entry 103. -/
def jobEnd (err : Bool) (d : Dev) : Dev :=
  (if err then d.setBit Reg.AU_FLAGS 11 else d).auUpd (fun u => { u with job := u.job.map (fun j => { j with ended := true }) })

/-- The present vector of the job completes (R447). -/
def jobVector (j : TdJob) (s : State) : State :=
  let rows := lentRows s.dev
  match fetch 2 (j.inAt + 256 * j.i) 256 s with
  | (.fail, s) => s.upd (jobEnd true)
  | (x, s) =>
    let (b, bad) := match x with | .data b => (b, false) | .poison b => (b, true) | .fail => ([], true)
    let d := s.dev
    let v := listWords b
    let out := rows.flatMap (fun o => wordBytes (iw (tdY (tdShift d) (tdAcc d v o))))
    let a := j.outAt + 4 * rows.length * j.i
    if !out.isEmpty && !memOk d a out.length then s.upd (jobEnd true)
    else
      let s := if out.isEmpty then s else memWriteP bad a out s
      s.upd (fun d =>
        let d := if bad then d.setBit Reg.AU_FLAGS 11 else d
        if j.i + 1 = j.n then jobEnd false d
        else d.auUpd (fun u => { u with job := some { j with i := j.i + 1 }, tdq := u.tdq ++ [none] }))

/-- The vector that has waited longest completes (R445). It waits while a lent slice has failed (R442). DEDUCED, log entry 103. -/
def vectorDone (s : State) : State :=
  let d := s.dev
  if (lentRows d).any (fun o => d.au.down.contains (128 + o / 8)) then s
  else match d.au.tdq with
    | [] => s
    | q :: l =>
      let s := s.upd (fun d => d.auUpd (fun u => { u with tdq := l }))
      match q with
      | some y => s.upd (tdRunDone y)
      | none => match d.au.job with
        | some j => jobVector j s
        | none => s
/-- TANDEM_VECTOR_DONE. -/
def execTandemVectorDone (s : State) : Host.Outcome State Fault Refusal := .next (vectorDone s)

/-- SETX of coprocessor 1 (R446): word 0, FAIL, and the die after it. -/
def tdSetx (x y z : Word) (d : Dev) : Word × Bool × Dev :=
  let i := fld x 6 0
  if 124 < i then (0, true, d)
  else
    let put (n v : Nat) (d : Dev) : Dev := d.setFld (Reg.TD_IN (n / 2)) (16 * (n % 2) + 15) (16 * (n % 2)) v
    (0, false, put (i + 3) (fld z 31 16) (put (i + 2) (fld z 15 0) (put (i + 1) (fld y 31 16) (put i (fld y 15 0) d))))
/-- GETY of coprocessor 1 (R446): words 0 and 1, and FAIL. -/
def tdGety (x : Word) (wide : Bool) (d : Dev) : Word × Word × Bool :=
  let o := fld x 6 0
  if isLent d o then
    let a := Store.get (fun _ => 0) d.au.acc o
    if wide then (iw a, iw (a / (2 ^ 32 : Nat)), false) else (d.rd (Reg.TD_OUT o), 0, false)
  else (0, 0, true)

end Sys2Proof.Machine
end

