-- ==== Sys2Proof/Machine/Net.lean ====
section
/-! DEFINITION. The network port (R521 to R535): MAC filters, rings, timestamps, one-step Sync, the PTP servo, statistics. -/
namespace Sys2Proof.Machine

/-- Change the port beyond its registers. -/
def Dev.netUpd (d : Dev) (f : NetSt → NetSt) : Dev := { d with net := f d.net }
/-- Change the servo. -/
def Dev.ptpUpd (d : Dev) (f : PtpSt → PtpSt) : Dev := d.netUpd (fun n => { n with ptp := f n.ptp })
/-- Set a flag of NET_FLAGS. -/
def netFlag (b : Nat) (d : Dev) : Dev := d.setBit Reg.NET_FLAGS b
/-- Step STAT[i] by n (R534). -/
def netStat (i n : Nat) (d : Dev) : Dev :=
  d.netUpd (fun s => { s with stats := Store.set (fun _ => 0) s.stats i ((Store.get (fun _ => 0) s.stats i + n) % 2 ^ 64) })
/-- A refused value (R535). -/
def netRefuse (d : Dev) : Dev := (netFlag 13 d).okay

/-! ### Frames (R523, R524) -/

/-- A byte of a frame. -/
def fb (f : List Byte) (i : Nat) : Nat := (f.getD i 0).toNat
/-- Two bytes of a frame, the first most significant. -/
def fb2 (f : List Byte) (i : Nat) : Nat := fb f i * 256 + fb f (i + 1)
/-- n bytes of a number, most significant first. -/
def beBytes (n v : Nat) : List Byte := (natBytes n v).reverse
/-- The FCS of a frame's bytes (IEEE 802.3). -/
def fcsOf (f : List Byte) : Nat :=
  let step (c : Nat) (b : Byte) : Nat := forN 8 (c ^^^ b.toNat) (fun _ c => if c % 2 = 1 then c / 2 ^^^ 0xEDB88320 else c / 2)
  f.foldl step 0xFFFFFFFF ^^^ 0xFFFFFFFF
/-- Whether a frame carries an 802.1Q tag. -/
def isTagged (f : List Byte) : Bool := fb2 f 12 == 0x8100
/-- Where the EtherType stands. -/
def typeAt (f : List Byte) : Nat := if isTagged f then 16 else 12
/-- A broadcast frame. -/
def isBroadcast (f : List Byte) : Bool := (List.range 6).all (fun i => fb f i == 255)
/-- A multicast frame. DEDUCED, log entry 108. -/
def isMulticast (f : List Byte) : Bool := fb f 0 % 2 == 1 && !isBroadcast f
/-- Whether a frame's destination is the address held in a LO and a HI word. -/
def destIs (f : List Byte) (lo hi : Word) : Bool := leNat (f.take 6) == lo.toNat + fld hi 15 0 * 2 ^ 32

/-- Stage 1 of R524. -/
def addrAccepts (d : Dev) (f : List Byte) : Bool :=
  d.bit Reg.NET_CTRL 3 || (isBroadcast f && d.bit Reg.NET_CTRL 5) || destIs f (d.rd Reg.MAC_ADDR_LO) (d.rd Reg.MAC_ADDR_HI) ||
  (isMulticast f && (d.bit Reg.NET_CTRL 4 ||
    (List.range 16).any (fun k => d.bit (Reg.MCAST_HI k) 31 && destIs f (d.rd (Reg.MCAST_LO k)) (d.rd (Reg.MCAST_HI k)))))
/-- Stage 2 of R524. DEDUCED, log entry 108. -/
def vlanAccepts (d : Dev) (f : List Byte) : Bool :=
  !d.bit Reg.NET_CTRL 6 ||
  (if isTagged f then (List.range 16).any (fun k => d.bit (Reg.VID k) 31 && d.fld (Reg.VID k) 11 0 == fb2 f 14 % 4096)
   else d.bit Reg.NET_CTRL 7)
/-- The UDP destination port of a frame over IPv4 or IPv6. PRESUMED, log entry 137. -/
def udpPort (f : List Byte) : Option Nat :=
  let t := typeAt f
  let o := t + 2
  if fb2 f t = 0x0800 then
    (if fb f (o + 9) = 17 && fb2 f (o + 6) % 8192 = 0 then some (fb2 f (o + fb f o % 16 * 4 + 2)) else none)
  else if fb2 f t = 0x86DD then (if fb f (o + 6) = 17 then some (fb2 f (o + 42)) else none)
  else none
/-- Whether rule k matches (R524). -/
def ruleMatches (d : Dev) (f : List Byte) (k : Nat) : Bool :=
  let v := d.fld (Reg.RULE k) 15 0
  match d.fld (Reg.RULE k) 17 16 with
  | 1 => fb2 f (typeAt f) == v
  | 2 => udpPort f == some v
  | 3 => isTagged f && fb f 14 / 32 == v
  | _ => false
/-- Stage 3 of R524: the rule (15 for none) and the ring. -/
def steer (d : Dev) (f : List Byte) : Nat × Nat :=
  match (List.range 16).find? (ruleMatches d f) with
  | some k => (k, d.fld (Reg.RULE k) 19 18)
  | none => (15, d.fld Reg.NET_CTRL 10 9)

/-! ### Receive rings (R525, R526) -/

/-- A descriptor's words, if it can be read: its ring is enabled, it lies in memory, and it is not poisoned. -/
def readDesc (cfg base head : Word) (s : State) : Option (Nat × List Word) × State :=
  let a := base.toNat + fld cfg 15 0 * 2 ^ 32 + 32 * head.toNat
  if !bitOf cfg 31 then (none, s)
  else match fetch 2 a 32 s with
    | (.data b, s) => (some (a, (List.range 8).map (fun i => w32 (leNat ((b.drop (4 * i)).take 4)))), s)
    | (_, s) => (none, s)
/-- A signed LAT_ADJ joins herd time (R528). -/
def stamp (d : Dev) (adj : Nat) : Nat := (((d.now : Int) + sfld (d.rd adj) 15 0) % (2 ^ 64 : Nat)).toNat
/-- HEAD of a ring steps. -/
def ringNext (d : Dev) (cfg head : Nat) : Word := w32 (((d.rd head).toNat + 1) % (max 1 (d.fld cfg 28 16)))

/-- A frame that passes the three stages takes the descriptor at HEAD of its ring (R526). DEDUCED, log entry 108. -/
def rxDeliver (f : List Byte) (rule r : Nat) (s : State) : State :=
  let d := s.dev
  let (x, s) := readDesc (d.rd (Reg.RX_CFG r)) (d.rd (Reg.RX_BASE_LO r)) (d.rd (Reg.RX_HEAD r)) s
  let drop (s : State) : State := s.upd (fun d => netStat 8 1 (netFlag 11 d))
  match x with
  | none => drop s
  | some (a, w) =>
    if !bitOf (w.getD 0 0) 31 then drop s
    else
      let strip := isTagged f && d.bit Reg.NET_CTRL 8
      let body := f.take (f.length - 4)
      let data := if strip then body.take 12 ++ body.drop 16 else body
      let buf := (w.getD 2 0).toNat + fld (w.getD 3 0) 15 0 * 2 ^ 32
      let st := if d.fld (Reg.RX_BUF r) 14 0 < data.length then 3 else if memOk d buf data.length then 0 else 1
      let s := if st = 0 then memWrite buf data s else s
      let t := stamp s.dev Reg.RX_LAT_ADJ
      let w0 := w32 (st * 2 ^ 24 + rule * 2 ^ 20 + data.length)
      let w1 := if strip then w32 (fb2 f 14 + 2 ^ 16) else 0
      let s := memWrite (a + 16) (natBytes 8 t) s
      let s := memWrite a (wordBytes w0 ++ wordBytes w1) s
      s.upd (fun d =>
        let d := d.wr (Reg.RX_HEAD r) (ringNext d (Reg.RX_CFG r) (Reg.RX_HEAD r))
        let d := netFlag r (if st = 1 then netStat 11 1 d else d)
        let d := if d.bit (Reg.RX_CFG r) 30 then fire 0x2FC d else d
        if d.fld Reg.NET_CTRL 26 25 = r then fire 0x2FF (netStat 10 1 d) else d)

/-- A frame arrives, its first bit after the SFD `wait` ns from now (R523, R524, R528). DEDUCED, log entry 108. -/
def netRx (f : List Byte) (wait : Nat) (s : State) : State :=
  let s := s.upd (fun d => d.pass wait)
  let d := s.dev
  let n := f.length
  if !(d.bit Reg.NET_CTRL 0 && d.bit Reg.NET_STATUS 0) then s
  else if n < 64 || d.fld Reg.NET_CTRL 24 11 < n then s.upd (netStat 5 1)
  else if fcsOf (f.take (n - 4)) ≠ leNat (f.drop (n - 4)) then s.upd (netStat 4 1)
  else
    let s := s.upd (fun d =>
      let d := netStat 1 1 (netStat 0 n d)
      if isBroadcast f then netStat 2 1 d else if isMulticast f then netStat 3 1 d else d)
    if fb2 f 12 = 0x8808 && fb2 f 14 = 1 then s.upd (netStat 9 1)
    else if !addrAccepts d f then s.upd (netStat 6 1)
    else if !vlanAccepts d f then s.upd (netStat 7 1)
    else rxDeliver f (steer d f).1 (steer d f).2 s
/-- NET_RX_FRAME: the frame from its destination to its FCS. -/
def execNetRxFrame (f : List Byte) (wait : Nat) (s : State) : Host.Outcome State Fault Refusal := .next (netRx f wait s)

/-! ### Transmit rings (R527 to R529) -/

/-- A TX_KICK write. -/
def txKick (t : Nat) (v : Word) (d : Dev) : Dev :=
  (if bitOf v 31 && d.bit (Reg.TX_CFG t) 31 then d.netUpd (fun n => { n with run := insNat t n.run }) else d).okay
/-- NET_TX_KICK. -/
def execNetTxKick (t : Fin 4) (v : Word) (s : State) : Host.Outcome State Fault Refusal := s.next (txKick t v)

/-- Where the PTP message of a frame begins, if ONE_STEP applies to the frame, and where its UDP checksum stands (R529).
DESIGN CHOICE, log entry 109; PRESUMED, log entry 137. -/
def syncAt (f : List Byte) : Option (Nat × Option Nat) :=
  let t := typeAt f
  let isSync (o : Nat) : Bool := fb f o % 16 == 0 && fb f (o + 1) % 16 == 2
  if fb2 f t = 0x88F7 then (if isSync (t + 2) then some (t + 2, none) else none)
  else if fb2 f t = 0x0800 && udpPort f = some 319 then
    let u := t + 2 + fb f (t + 2) % 16 * 4
    if isSync (u + 8) then some (u + 8, some (u + 6)) else none
  else none
/-- Bytes of a frame replaced from offset o. -/
def splice (f : List Byte) (o : Nat) (b : List Byte) : List Byte := f.take o ++ b ++ f.drop (o + b.length)
/-- The frame that ONE_STEP makes for a departure at herd time h. -/
def oneStep (d : Dev) (h : Nat) (f : List Byte) (o : Nat) (ck : Option Nat) : List Byte :=
  let p := h + d.herd.epoch
  let f := splice f (o + 34) (beBytes 6 (p / 1000000000) ++ beBytes 4 (p % 1000000000))
  match ck with
  | some c => splice f c [0, 0]
  | none => f

/-- The descriptor of ring t completes with a status (R527); `h` is the departure time where the table gives one.
DESIGN CHOICE, log entry 109. -/
def txEnd (t a : Nat) (w : List Word) (st : Nat) (h : Option Nat) (s : State) : State :=
  let w0 := putFld (putFld (w.getD 0 0) 31 31 0) 27 24 st
  let (lo, d) := s.dev.fresh
  let (hi, d) := d.fresh
  let b := match h with | some h => natBytes 8 h | none => wordBytes lo ++ wordBytes hi
  let s := memWrite a (wordBytes w0) (memWrite (a + 16) b { s with dev := d })
  s.upd (fun d =>
    let d := netFlag (4 + t) (d.wr (Reg.TX_HEAD t) (ringNext d (Reg.TX_CFG t) (Reg.TX_HEAD t)))
    fire 0x2FD (if st = 0 then d else netStat 16 1 (netFlag 12 d)))

/-- Transmit the frame of a descriptor of ring t. -/
def txSend (t a : Nat) (w : List Word) (s : State) : State :=
  let d := s.dev
  let w0 := w.getD 0 0
  let n := fld w0 13 0
  let buf := (w.getD 2 0).toNat + fld (w.getD 3 0) 15 0 * 2 ^ 32
  if n < 14 || d.fld Reg.NET_CTRL 24 11 - 4 < n then txEnd t a w 3 none s
  else match fetch 2 buf n s with
    | (.fail, s) => txEnd t a w 1 none s
    | (.poison _, s) => txEnd t a w 2 none s
    | (.data b, s) =>
      let f := if bitOf w0 28 then b.take 12 ++ [0x81, 0x00] ++ beBytes 2 (fld (w.getD 1 0) 15 0) ++ b.drop 12 else b
      let h := stamp s.dev Reg.TX_LAT_ADJ
      let sy := if bitOf w0 29 then syncAt f else none
      let f := match sy with | some (o, c) => oneStep s.dev h f o c | none => f
      let f := f ++ List.replicate (60 - f.length) 0
      let f := f ++ natBytes 4 (fcsOf f)
      let s := s.upd (fun d =>
        let d := netStat 13 1 (netStat 12 f.length (d.netUpd (fun x => { x with wire := f })))
        let d := if isBroadcast f then netStat 14 1 d else if isMulticast f then netStat 15 1 d else d
        if sy.isSome then netStat 17 1 d else d)
      txEnd t a w (if bitOf w0 29 && sy.isNone then 4 else 0) (if bitOf w0 29 || bitOf w0 30 then some h else none) s

/-- Of the rings given, the first that holds a frame sends it; one whose descriptor is not owned stops. -/
def txPick : List Nat → State → State
  | [], s => s
  | t :: l, s =>
    let d := s.dev
    let (x, s) := readDesc (d.rd (Reg.TX_CFG t)) (d.rd (Reg.TX_BASE_LO t)) (d.rd (Reg.TX_HEAD t)) s
    match x with
    | some (a, w) =>
      if bitOf (w.getD 0 0) 31 then txSend t a w s
      else txPick l (s.upd (fun d => d.netUpd (fun n => { n with run := n.run.erase t })))
    | none => txPick l (s.upd (fun d => d.netUpd (fun n => { n with run := n.run.erase t })))
/-- The transmitter sends the next frame (R527), which departs `wait` ns from now: a ring with a higher number goes first. -/
def netTx (wait : Nat) (s : State) : State :=
  if s.dev.bit Reg.NET_CTRL 0 && s.dev.bit Reg.NET_STATUS 0 && !s.dev.net.run.isEmpty then
    txPick s.dev.net.run.reverse (s.upd (fun d => d.pass wait))
  else s
/-- NET_TX_COMPLETE. -/
def execNetTxComplete (wait : Nat) (s : State) : Host.Outcome State Fault Refusal := .next (netTx wait s)

/-! ### The servo (R530, R531) -/

/-- PTP_LOCKED of a ROLE 2 master. -/
def ptpLocked (d : Dev) : Bool := d.bit Reg.PTP_STATUS 0
/-- PTP_LOCKED changes; at a lock EPOCH_TAI takes effect (R258, EPOCH_LO). -/
def setPtpLocked (on : Bool) (d : Dev) : Dev :=
  if ptpLocked d = on then d
  else
    let d := netFlag 14 ((d.putBit Reg.PTP_STATUS 0 on).putBit Reg.HERD_STATUS 5 on)
    if on then { d with herd := { d.herd with epoch := d.rd64 Reg.EPOCH_LO Reg.EPOCH_HI } } else d
/-- The lock is lost (R243, R531): the frequency correction holds. -/
def ptpLose (d : Dev) : Dev :=
  ((setPtpLocked false d).setBit Reg.HERD_FLAGS 16).setBit Reg.PTP_STATUS 1 |>.ptpUpd (fun p => { p with first := true, good := 0, big := none })

/-- An accepted measurement (R531): its step waits for the next herd frame; otherwise the servo slews and corrects its frequency.
DESIGN CHOICE, log entry 10; DEDUCED, log entry 110. -/
def ptpAccept (mht : Nat) (ofs : Int) (d : Dev) : Dev :=
  let p := d.net.ptp
  let c := d.clk
  let far := decide (1000 < ofs.natAbs)
  let since := if far then some (p.big.getD c) else none
  let late := decide (far ∧ c ≥ p.big.getD c + 1000000000)
  let good := if ofs.natAbs ≤ 100 then p.good + 1 else 0
  let d := netStat 19 1 (d.ptpUpd (fun p => { p with lastHt := some mht, lastClk := c, big := since, good := good }))
  let log := sfld (d.rd Reg.PTP_CTRL) 7 4
  if p.first then
    (d.ptpUpd (fun p => { p with first := false, pend := some (-ofs), big := none })).clrBit Reg.PTP_STATUS 1 |> setPtpLocked (decide (8 ≤ good) || ptpLocked d)
  else if late then
    let lost := ptpLocked d
    let d := d.ptpUpd (fun p => { p with pend := some (-ofs), big := none, good := 0, first := lost })
    (setPtpLocked false d).setBit Reg.HERD_FLAGS 16
  else
    let k : Nat := (7 + log).toNat
    let num := -ofs * (2 ^ 7 : Nat)
    let den : Nat := 16 * 2 ^ k
    let q := num / den + (if num % den ≠ 0 && Config.roundUp 8 (num * 2 ^ 16 + den) then 1 else 0)
    let d := d.wr Reg.PTP_FREQ (iw (clampI (-50000) 50000 (sword (d.rd Reg.PTP_FREQ) + q)))
    setPtpLocked (decide (8 ≤ good) || ptpLocked d) (d.ptpUpd (fun p => { p with slew := -ofs }))

/-- A PTP_MEAS_OFS write submits a measurement (R530, R531). -/
def ptpSubmit (q : Req) (v : Word) (d : Dev) : Dev :=
  let mht := d.rd64 Reg.PTP_MEAS_HT_LO Reg.PTP_MEAS_HT_HI
  if !d.keeper q then d.deny
  else if d.fld Reg.HERD_STATUS 7 6 ≠ 2 || !d.bit Reg.PTP_CTRL 0 then netRefuse d
  else if mht < d.herd.stepHt || (match d.net.ptp.lastHt with | some h => mht ≤ h | none => false) then (netFlag 15 d).okay
  else (ptpAccept mht (sword v) d).okay
/-- PTP_MEAS_SUBMIT. -/
def execPtpMeasSubmit (q : Req) (v : Word) (s : State) : Host.Outcome State Fault Refusal := s.next (ptpSubmit q v)

/-- 4 s pass without an accepted measurement (R531). DEDUCED, log entry 110. -/
def ptpTimeout (d : Dev) : Dev := if ptpLocked d && d.fld Reg.HERD_STATUS 7 6 = 2 then ptpLose (d.passClk (d.net.ptp.lastClk + 4000000000)) else d
/-- PTP_LOCK_TIMEOUT. -/
def execPtpLockTimeout (s : State) : Host.Outcome State Fault Refusal := s.next ptpTimeout

/-! ### Pins and the link (R521, R522) -/

/-- The link comes up or goes down; AN_DONE is 0 in MODE 0. A link is up only while EN is 1 and LOS is low. -/
def linkChange (up an : Bool) (d : Dev) : Dev :=
  let up := up && d.bit Reg.NET_CTRL 0 && !d.bit Reg.NET_STATUS 1
  let d := d.putBit Reg.NET_STATUS 3 (d.bit Reg.NET_CTRL 1 && (an || up))
  if d.bit Reg.NET_STATUS 0 = up then d
  else
    let d := netFlag (if up then 8 else 9) (d.putBit Reg.NET_STATUS 0 up)
    fire 0x2FE (if up then d else netStat 18 1 d)
/-- The LOS and MOD_ABS pins change; with LOS high no link is up (R521). DESIGN CHOICE, log entry 111. -/
def sfpPins (los modAbs : Bool) (d : Dev) : Dev :=
  let d := if d.bit Reg.NET_STATUS 2 = modAbs then d else netFlag 10 d
  let d := (d.putBit Reg.NET_STATUS 1 los).putBit Reg.NET_STATUS 2 modAbs
  if los then linkChange false false d else d
/-- SFP_PIN_CHANGE. -/
def execSfpPinChange (los modAbs : Bool) (s : State) : Host.Outcome State Fault Refusal := s.next (sfpPins los modAbs)


/-- NET_LINK_CHANGE. -/
def execNetLinkChange (up an : Bool) (s : State) : Host.Outcome State Fault Refusal := s.next (linkChange up an)

/-! ### Registers (R534, R535) -/

/-- A read of STAT_LO[i] latches STAT_HI[i]. -/
def statRead (i : Nat) (d : Dev) : Dev :=
  let n := if i < 20 then Store.get (fun _ => 0) d.net.stats i else 0
  (d.wr (Reg.STAT_HI i) (w32 (n / 2 ^ 32))).answer (.ok (w32 n))
/-- STAT_LO_READ. -/
def execStatLoRead (i : Fin 32) (s : State) : Host.Outcome State Fault Refusal := s.next (statRead i)

/-- A write of a ring register: k is its offset within the ring's registers, `rx` tells a receive ring. -/
def netRingWrite (rx : Bool) (r k : Nat) (v : Word) (d : Dev) : Dev :=
  let cfg := if rx then Reg.RX_CFG r else Reg.TX_CFG r
  let c := d.rd cfg
  let on := bitOf c 31
  let head (o : Nat) : Dev := if on || fld c 28 16 ≤ fld v 11 0 then netRefuse d else (d.wr o (v &&& 0xFFF)).okay
  match k with
  | 0x00 => if on then netRefuse d else (d.wr (if rx then Reg.RX_BASE_LO r else Reg.TX_BASE_LO r) (v &&& 0xFFFFFFE0)).okay
  | 0x04 =>
    if fld v 28 16 = 0 || 4096 < fld v 28 16 || (on && (fld v 15 0 ≠ fld c 15 0 || fld v 28 16 ≠ fld c 28 16)) then netRefuse d
    else
      let d := d.wr cfg (v &&& (if rx then 0xDFFFFFFF else 0x9FFFFFFF))
      (if rx || bitOf v 31 then d else d.netUpd (fun n => { n with run := n.run.erase r })).okay
  | 0x08 =>
    if rx then
      (if fld v 14 0 % 64 ≠ 0 || fld v 14 0 < d.fld Reg.NET_CTRL 24 11 then netRefuse d else (d.wr (Reg.RX_BUF r) (v &&& 0x7FFF)).okay)
    else head (Reg.TX_HEAD r)
  | 0x0C => if rx then head (Reg.RX_HEAD r) else txKick r v d
  | _ => d.okay

/-- A write of a register of the NET page. DEDUCED, log entry 19. -/
def netWrite (q : Req) (o : Nat) (v : Word) (d : Dev) : Dev :=
  let keep (m : Word) : Dev := (d.wr (0x70000 + o) (v &&& m)).okay
  if 0x300 ≤ o && o < 0x380 && o % 0x20 = 0x0C then txKick ((o - 0x300) / 0x20) v d
  else if !d.keeper q then d.deny
  else if 0x040 ≤ o && o < 0x0C0 then keep (if o % 8 = 0 then 0xFFFFFFFF else 0x8000FFFF)
  else if 0x0C0 ≤ o && o < 0x100 then keep 0x80000FFF
  else if 0x100 ≤ o && o < 0x140 then (if fld v 17 16 = 3 && 7 < fld v 15 0 then netRefuse d else keep 0xFFFFF)
  else if 0x200 ≤ o && o < 0x280 then netRingWrite true ((o - 0x200) / 0x20) (o % 0x20) v d
  else if 0x300 ≤ o && o < 0x380 then netRingWrite false ((o - 0x300) / 0x20) (o % 0x20) v d
  else match o with
    | 0x004 =>
      let m := fld v 24 11
      if m < 1518 || 9022 < m || (d.bit Reg.NET_CTRL 0 && bitOf v 1 != d.bit Reg.NET_CTRL 1) then netRefuse d
      else
        let d := d.wr Reg.NET_CTRL (v &&& 0x7FFFFFF)
        (if bitOf v 0 then d else linkChange false false d).okay
    | 0x00C => (d.wr Reg.NET_FLAGS (d.rd Reg.NET_FLAGS &&& ~~~ v)).okay
    | 0x010 => keep 0x1FFFF
    | 0x014 => (keepField Reg.MAC_ADDR_LO v d).okay
    | 0x018 => (keepField Reg.MAC_ADDR_HI (v &&& 0xFFFF) d).okay
    | 0x400 =>
      if sfld v 7 4 < -7 || 4 < sfld v 7 4 then netRefuse d
      else
        let fresh := bitOf v 0 && !d.bit Reg.PTP_CTRL 0
        let d := d.wr Reg.PTP_CTRL (v &&& 0xF1)
        (if fresh then d.ptpUpd (fun p => { p with first := true, lastHt := none, good := 0, big := none }) else d).okay
    | 0x404 | 0x408 => keep 0xFFFF
    | 0x410 | 0x414 => keep 0xFFFFFFFF
    | 0x418 => ptpSubmit q v d
    | _ => d.okay

end Sys2Proof.Machine
end

