-- ==== Sys2Proof/Machine/Timers.lean ====
section
/-! DEFINITION. The timers (R353 to R368): ticks, starting and stopping, buffered values, capture, stagger groups, chained
pairs. -/
namespace Sys2Proof.Machine

/-- A channel beyond its registers. -/
def Dev.tm (d : Dev) (u c : Nat) : TmSt := Store.get (fun _ => {}) d.timers (4 * u + c)
/-- Change a channel beyond its registers. -/
def Dev.updTm (d : Dev) (u c : Nat) (f : TmSt → TmSt) : Dev :=
  { d with timers := Store.set (fun _ => {}) d.timers (4 * u + c) (f (d.tm u c)) }
/-- A unit beyond its registers. -/
def Dev.tmUnit (d : Dev) (u : Nat) : TmUnit := Store.get (fun _ => {}) d.tmUnits u
/-- Change a unit beyond its registers. -/
def Dev.updTmUnit (d : Dev) (u : Nat) (f : TmUnit → TmUnit) : Dev :=
  { d with tmUnits := Store.set (fun _ => {}) d.tmUnits u (f (d.tmUnit u)) }

/-- RUN. -/
def tmRun (d : Dev) (u c : Nat) : Bool := d.bit (Reg.TM_STATUS u c) 0
/-- An odd channel with CHAIN ticks on the period matches of the channel below it (R364). -/
def tmChained (d : Dev) (u c : Nat) : Bool := c % 2 == 1 && d.bit (Reg.TM_CTRL u c) 17
/-- The low channel of a chained pair (R364). -/
def tmLow (d : Dev) (u c : Nat) : Bool := c % 2 == 0 && tmChained d u (c + 1)
/-- Unit u is powered: in deep standby unit 0 alone is (R366, R552). -/
def tmPowered (d : Dev) (u : Nat) : Bool := u == 0 || !d.inDeep
/-- A register access of unit u: one that is not powered meets an access error. -/
def tmAccess (u : Nat) (f : Dev → Dev) (d : Dev) : Dev := if tmPowered d u then f d else d.deny
/-- PRESCALE. -/
def tmPre (d : Dev) (u c : Nat) : Nat := d.fld (Reg.TM_CTRL u c) 15 0
/-- P is PERIOD, or 2^32 when PERIOD is 0 (R354). -/
def tmP (d : Dev) (u c : Nat) : Nat := if d.rd (Reg.TM_PERIOD u c) = 0 then 2 ^ 32 else (d.rd (Reg.TM_PERIOD u c)).toNat
/-- The number of channels below c that a mask names. -/
def maskRank (m c : Nat) : Nat := ((List.range c).filter (fun k => m.testBit k)).length
/-- S: the stagger offset floor(k × P_k / N) of a channel of the group in force, else 0 (R354, R363). DEDUCED, log entry 82. -/
def tmStartValue (d : Dev) (u c : Nat) : Nat :=
  let m := (d.tmUnit u).mask
  if m.testBit c then maskRank m c * tmP d u c / maskRank m 4 else 0

/-- The pending buffers replace the values in force (R358). -/
def tmTake (u c : Nat) (d : Dev) : Dev :=
  let t := d.tm u c
  let d := match t.perBuf with | some v => d.wr (Reg.TM_PERIOD u c) v | none => d
  let d := match t.cmpBuf with | some v => d.wr (Reg.TM_CMP u c) v | none => d
  d.updTm u c (fun t => { t with perBuf := none, cmpBuf := none })

/-- An output action: 0 none, 1 set, 2 clear, 3 toggle (R360). -/
def tmAct (u c act : Nat) (d : Dev) : Dev :=
  match act with
  | 1 => d.setBit (Reg.TM_STATUS u c) 1
  | 2 => d.clrBit (Reg.TM_STATUS u c) 1
  | 3 => d.putBit (Reg.TM_STATUS u c) 1 (!d.bit (Reg.TM_STATUS u c) 1)
  | _ => d

/-- Set flag n and fire event n of a channel with a mark; a timer event carries hop 0 (R337). -/
def tmHit (u c n : Nat) (isOpen : Bool) (d : Dev) : Dev :=
  fireMarked (0x200 + 4 * (4 * u + c) + n) 0 isOpen (d.setBit (Reg.TM_FLAGS u c) n)

/-- Whether the next tick of a channel is a period match (R354, R359). -/
def tmPeriodMatch (d : Dev) (u c : Nat) : Bool :=
  (d.tm u c).late || (d.rd (Reg.TM_CNT u c)).toNat + 1 ≥ tmP d u c

/-- One tick of a running channel (R354). DEDUCED, log entry 82. -/
def tmStep (u c : Nat) (d : Dev) : Dev :=
  let isOpen := d.bit (Reg.TM_STATUS u c) 5
  let d :=
    if tmPeriodMatch d u c then
      let s := if (d.tm u c).late then tmStartValue d u c else 0
      let d := (d.wr (Reg.TM_CNT u c) (w32 s)).updTm u c (fun t => { t with late := false })
      let d := tmAct u c (d.fld (Reg.TM_CTRL u c) 20 19) (tmHit u c 0 isOpen (tmTake u c d))
      if d.bit (Reg.TM_CTRL u c) 18 then d.clrBit (Reg.TM_STATUS u c) 0 else d
    else d.wr (Reg.TM_CNT u c) (d.rd (Reg.TM_CNT u c) + 1)
  if d.rd (Reg.TM_CNT u c) = d.rd (Reg.TM_CMP u c) then tmAct u c (d.fld (Reg.TM_CTRL u c) 22 21) (tmHit u c 1 isOpen d)
  else d

/-- The tick of an unchained channel, PRESCALE + 1 periods of the herd clock after the last (R353), with the tick that its
period match gives the high channel of its pair (R364). -/
def timerTick (u c : Nat) (d : Dev) : Dev :=
  if tmPowered d u && tmRun d u c && !tmChained d u c then
    let t := (d.tm u c).last + tmPre d u c + 1
    let d := (d.passClk t).updTm u c (fun s => { s with last := t })
    let m := tmPeriodMatch d u c
    let hi := m && tmLow d u c && tmRun d u (c + 1)
    let d := tmStep u c d
    if hi then tmStep u (c + 1) d else d
  else d

/-! ### Commands (R356, R357) -/

/-- START: a stopped channel runs on from its present count. -/
def tmStart (u c : Nat) (isOpen : Bool) (d : Dev) : Dev :=
  if tmRun d u c then d
  else ((d.setBit (Reg.TM_STATUS u c) 0).putBit (Reg.TM_STATUS u c) 5 isOpen).updTm u c (fun t => { t with last := d.clk })

/-- STOP: the channel stops, its own armed restart is cancelled, and it leaves an armed group restart. -/
def tmStop (u c : Nat) (d : Dev) : Dev :=
  let d := (d.clrBit (Reg.TM_STATUS u c) 0).updTm u c (fun t => { t with arm := none })
  if (d.tmUnit u).arm.isSome && d.bit (Reg.UNIT_STAGGER u) c then d.updTmUnit u (fun t => { t with gone := insNat c t.gone }) else d

/-- RESTART as at an instant of the herd clock. -/
def tmRestart (u c : Nat) (isOpen : Bool) (clk : Nat) (d : Dev) : Dev :=
  let d := tmTake u c d
  let d := (d.wr (Reg.TM_CNT u c) (w32 (tmStartValue d u c))).updTm u c (fun t => { t with late := false, last := clk })
  let d := d.putBit (Reg.TM_STATUS u c) 1 (d.bit (Reg.TM_CTRL u c) 23)
  (d.setBit (Reg.TM_STATUS u c) 0).putBit (Reg.TM_STATUS u c) 5 isOpen

/-- A capture (R361, R362), with the mark that its event carries. -/
def tmCapture (u c : Nat) (isOpen : Bool) (d : Dev) : Dev :=
  let d := if d.bit (Reg.TM_STATUS u c) 2 then d.setBit (Reg.TM_FLAGS u c) 3 else d
  let hi := if tmLow d u c then d.rd (Reg.TM_CNT u (c + 1)) else 0
  let d := (d.wr (Reg.TM_CAP u c) (d.rd (Reg.TM_CNT u c))).updTm u c (fun t => { t with capHi := hi })
  tmHit u c 2 isOpen (d.setBit (Reg.TM_STATUS u c) 2)

/-- RESTART_AT: arm a restart at UNIT_START_HT, or restart at once when that is at or before HT (R357). -/
def tmRestartAt (u c : Nat) (isOpen : Bool) (d : Dev) : Dev :=
  let t := d.rd64 (Reg.UNIT_START_HT_LO u) (Reg.UNIT_START_HT_HI u)
  if t ≤ d.now then
    (tmRestart u c isOpen d.clk (d.updTm u c (fun t => { t with arm := none }))).setBit (Reg.TM_FLAGS u c) 5
  else d.updTm u c (fun s => { s with arm := some (t, isOpen) })

/-- Whether a group restart may be performed, else the flag that its refusal sets (R363). -/
def groupCheck (u : Nat) (d : Dev) : Option Dev :=
  let m := d.fld (Reg.UNIT_STAGGER u) 3 0
  let cs := (List.range 4).filter (fun c => m.testBit c)
  match cs with
  | [] => some (d.setBit (Reg.TM_FLAGS u 0) 7)
  | c0 :: _ =>
    if cs.any (fun c => d.bit (Reg.TM_CTRL u c) 17 || tmPre d u c != tmPre d u c0) then some (d.setBit (Reg.TM_FLAGS u c0) 7)
    else none

/-- A group restart (R363): every channel of MASK but those that a STOP has removed from the armed restart. DEDUCED, log entry 82. -/
def groupRestart (u : Nat) (isOpen isLate : Bool) (gone : List Nat) (clk : Nat) (d : Dev) : Dev :=
  match groupCheck u d with
  | some d => d
  | none =>
    let m := d.fld (Reg.UNIT_STAGGER u) 3 0
    let d := d.updTmUnit u (fun t => { t with mask := m })
    forN 4 d (fun c d =>
      if m.testBit c && !gone.contains c then
        let d := tmRestart u c isOpen clk d
        if isLate then d.setBit (Reg.TM_FLAGS u c) 5 else d
      else d)

/-- UNIT_CMD group restart, at once or with AT (R357, R363). -/
def groupCommand (u : Nat) (isOpen timed : Bool) (d : Dev) : Dev :=
  if !timed then groupRestart u isOpen false [] d.clk d
  else
    match groupCheck u d with
    | some d => d
    | none =>
      let t := d.rd64 (Reg.UNIT_START_HT_LO u) (Reg.UNIT_START_HT_HI u)
      if t ≤ d.now then groupRestart u isOpen true [] d.clk (d.updTmUnit u (fun t => { t with arm := none, gone := [] }))
      else d.updTmUnit u (fun s => { s with arm := some (t, isOpen), gone := [] })

/-- UNIT_CMD group stop (R363). -/
def groupStop (u : Nat) (d : Dev) : Dev :=
  let m := d.fld (Reg.UNIT_STAGGER u) 3 0
  if m = 0 then d.setBit (Reg.TM_FLAGS u 0) 7
  else forN 4 (d.updTmUnit u (fun t => { t with arm := none, gone := [] })) (fun c d => if m.testBit c then tmStop u c d else d)

/-- A TM_CMD write (R356). -/
def tmCmd (q : Req) (u c : Nat) (v : Word) (d : Dev) : Dev :=
  let o := !d.keeper q
  let d := if bitOf v 31 then
      match fld v 2 0 with
      | 1 => tmStart u c o d
      | 2 => tmStop u c d
      | 3 => tmRestart u c o d.clk d
      | 4 => tmCapture u c o d
      | 5 => tmRestartAt u c o d
      | _ => d
    else d
  d.okay

/-- A UNIT_CMD write (R363). -/
def unitCmd (q : Req) (u : Nat) (v : Word) (d : Dev) : Dev :=
  let d := if bitOf v 31 then
      match fld v 1 0 with
      | 1 => groupCommand u (!d.keeper q) (bitOf v 2) d
      | 2 => groupStop u d
      | _ => d
    else d
  d.okay

/-- A command of a channel, from its task or from a TM_CMD write. `k` is 1 START, 2 STOP, 3 RESTART, 4 CAPTURE. -/
def tmCommand (u c k : Nat) (q : Option Req) (d : Dev) : Dev :=
  match q with
  | some q => tmAccess u (tmCmd q u c (w32 (0x80000000 + k))) d
  | none =>
    if !tmPowered d u then d
    else match takeTask (0x200 + 4 * (4 * u + c) + (k - 1)) d with
    | none => d
    | some (a, d) =>
      match k with
      | 1 => tmStart u c a.isOpen d
      | 2 => tmStop u c d
      | 3 => tmRestart u c a.isOpen d.clk d
      | _ => tmCapture u c a.isOpen d

/-- An armed restart of a channel is performed when HT reaches its target (R357). -/
def armedRestart (u c : Nat) (d : Dev) : Dev :=
  match (d.tm u c).arm with
  | none => d
  | some (t, o) =>
    let d := (d.passTo t).updTm u c (fun s => { s with arm := none })
    tmRestart u c o (d.clk - (d.now - t)) d

/-- An armed group restart is performed when HT reaches its target; it is checked again (R357, R363). -/
def armedGroup (u : Nat) (d : Dev) : Dev :=
  match (d.tmUnit u).arm with
  | none => d
  | some (t, o) =>
    let gone := (d.tmUnit u).gone
    let d := (d.passTo t).updTmUnit u (fun s => { s with arm := none, gone := [] })
    groupRestart u o false gone (d.clk - (d.now - t)) d

/-- A forward step of herd time passes over the targets below its new value: those restarts are performed at once (R357). -/
def timersStepped (d : Dev) : Dev :=
  let d := forN 32 d (fun i d =>
    let u := i / 4
    let c := i % 4
    match (d.tm u c).arm with
    | some (t, o) =>
      if t < d.now then (tmRestart u c o d.clk (d.updTm u c (fun s => { s with arm := none }))).setBit (Reg.TM_FLAGS u c) 5 else d
    | none => d)
  forN 8 d (fun u d =>
    match (d.tmUnit u).arm with
    | some (t, o) =>
      if t < d.now then
        groupRestart u o true (d.tmUnit u).gone d.clk (d.updTmUnit u (fun s => { s with arm := none, gone := [] }))
      else d
    | none => d)

/-- On entry to deep standby, units 1 to 7 stop every channel as by STOP and set STBY_STOPPED (R366). DEDUCED, log entry 82. -/
def timersDeep (d : Dev) : Dev :=
  forN 32 d (fun i d => if i < 4 then d else (tmStop (i / 4) (i % 4) d).setBit (Reg.TM_FLAGS (i / 4) (i % 4)) 6)

/-! ### Registers -/

/-- TM_STATUS as a read returns it: PEND (R358) and START_ARMED (R356). DEDUCED, log entry 82. -/
def tmStatus (d : Dev) (u c : Nat) : Word :=
  let t := d.tm u c
  let g := d.tmUnit u
  let armed := t.arm.isSome || (g.arm.isSome && d.bit (Reg.UNIT_STAGGER u) c && !g.gone.contains c)
  let w := putFld (d.rd (Reg.TM_STATUS u c)) 3 3 (if t.perBuf.isSome || t.cmpBuf.isSome then 1 else 0)
  putFld w 4 4 (if armed then 1 else 0)

/-- A TM_CNT read (R365). -/
def tmCntRead (u c : Nat) (d : Dev) : Dev :=
  let hi := if tmLow d u c then d.rd (Reg.TM_CNT u (c + 1)) else 0
  (d.wr (Reg.CNT_HI_SNAP u c) hi).answer (.ok (d.rd (Reg.TM_CNT u c)))

/-- An edge on TMR_CAP, of the pin that feeds it (R539), of the polarity that CAP_EDGE selects captures with the channel's mark (R361). -/
def tmCapEdge (u c : Nat) (rising : Bool) (d : Dev) : Dev :=
  if tmPowered d u && pinFeeds d (capPin d (4 * u + c)) && d.bit (Reg.TM_CTRL u c) (if rising then 24 else 25) then
    tmCapture u c (d.bit (Reg.TM_STATUS u c) 5) d
  else d

/-- A TM_CAP read (R361, R365). -/
def tmCapRead (u c : Nat) (d : Dev) : Dev :=
  let hi := if tmLow d u c then (d.tm u c).capHi else 0
  ((d.wr (Reg.CAP_HI_SNAP u c) hi).clrBit (Reg.TM_STATUS u c) 2).answer (.ok (d.rd (Reg.TM_CAP u c)))

/-- A TM_PERIOD write (R358, R359). -/
def tmPeriodWrite (u c : Nat) (v : Word) (d : Dev) : Dev :=
  let d :=
    if d.bit (Reg.TM_CTRL u c) 16 then d.updTm u c (fun t => { t with perBuf := some v })
    else
      let d := d.wr (Reg.TM_PERIOD u c) v
      if v != 0 && v.toNat ≤ (d.rd (Reg.TM_CNT u c)).toNat then
        (d.setBit (Reg.TM_FLAGS u c) 4).updTm u c (fun t => { t with late := true })
      else d
  d.okay

/-- A TM_CMP write (R358, R359). -/
def tmCmpWrite (u c : Nat) (v : Word) (d : Dev) : Dev :=
  (if d.bit (Reg.TM_CTRL u c) 16 then d.updTm u c (fun t => { t with cmpBuf := some v }) else d.wr (Reg.TM_CMP u c) v).okay

/-- A TM_CNT write (R359): refused while the channel runs. -/
def tmCntWrite (u c : Nat) (v : Word) (d : Dev) : Dev :=
  if tmRun d u c then (d.setBit (Reg.TM_FLAGS u c) 7).okay
  else
    let p := d.rd (Reg.TM_PERIOD u c)
    let isLate := p != 0 && p.toNat ≤ v.toNat
    let d := (d.wr (Reg.TM_CNT u c) v).updTm u c (fun t => { t with late := isLate })
    (if isLate then d.setBit (Reg.TM_FLAGS u c) 4 else d).okay

/-- A TM_CTRL write: PRESCALE and CHAIN do not change while RUN is 1, and an even channel has no CHAIN. -/
def tmCtrlWrite (u c : Nat) (v : Word) (d : Dev) : Dev :=
  let old := d.rd (Reg.TM_CTRL u c)
  if (bitOf v 17 && c % 2 == 0) || (tmRun d u c && (old ^^^ v) &&& 0x2FFFF != 0) then (d.setBit (Reg.TM_FLAGS u c) 7).okay
  else (d.wr (Reg.TM_CTRL u c) (v &&& 0x3FFFFFF)).okay

/-- A UNIT_STAGGER write: a MASK of exactly one channel is refused (R363). -/
def staggerWrite (u : Nat) (v : Word) (d : Dev) : Dev :=
  if maskRank (fld v 3 0) 4 = 1 then (d.setBit (Reg.TM_FLAGS u 0) 7).okay else (d.wr (Reg.UNIT_STAGGER u) (v &&& 0xF)).okay

/-! ### The steps -/

/-- TIMER_TICK. -/
def execTimerTick (u : Fin 8) (c : Fin 4) (s : State) : Host.Outcome State Fault Refusal := s.next (timerTick u c)
/-- TM_START: from the START task, or from a TM_CMD write. -/
def execTmStart (u : Fin 8) (c : Fin 4) (q : Option Req) (s : State) : Host.Outcome State Fault Refusal :=
  s.next (tmCommand u c 1 q)
/-- TM_STOP. -/
def execTmStop (u : Fin 8) (c : Fin 4) (q : Option Req) (s : State) : Host.Outcome State Fault Refusal :=
  s.next (tmCommand u c 2 q)
/-- TM_RESTART. -/
def execTmRestart (u : Fin 8) (c : Fin 4) (q : Option Req) (s : State) : Host.Outcome State Fault Refusal :=
  s.next (tmCommand u c 3 q)
/-- TM_CAPTURE. -/
def execTmCapture (u : Fin 8) (c : Fin 4) (q : Option Req) (s : State) : Host.Outcome State Fault Refusal :=
  s.next (tmCommand u c 4 q)
/-- TM_RESTART_AT: a TM_CMD write. -/
def execTmRestartAt (q : Req) (u : Fin 8) (c : Fin 4) (s : State) : Host.Outcome State Fault Refusal :=
  s.next (tmAccess u (tmCmd q u c 0x80000005))
/-- ARMED_RESTART: of channel c, or of the group. -/
def execArmedRestart (u : Fin 8) (c : Option Nat) (s : State) : Host.Outcome State Fault Refusal :=
  s.next (match c with | some c => armedRestart u (c % 4) | none => armedGroup u)
/-- GROUP_RESTART: a UNIT_CMD write with CMD 1. -/
def execGroupRestart (q : Req) (u : Fin 8) (timed : Bool) (s : State) : Host.Outcome State Fault Refusal :=
  s.next (tmAccess u (unitCmd q u (if timed then 0x80000005 else 0x80000001)))
/-- GROUP_STOP: a UNIT_CMD write with CMD 2. -/
def execGroupStop (q : Req) (u : Fin 8) (s : State) : Host.Outcome State Fault Refusal := s.next (tmAccess u (unitCmd q u 0x80000002))
/-- TMR_CAP_EDGE: an edge of the polarity that CAP_EDGE selects captures with the channel's mark. -/
def execTmrCapEdge (u : Fin 8) (c : Fin 4) (rising : Bool) (s : State) : Host.Outcome State Fault Refusal :=
  s.next (tmCapEdge u c rising)
/-- TM_CAP_READ. -/
def execTmCapRead (u : Fin 8) (c : Fin 4) (s : State) : Host.Outcome State Fault Refusal := s.next (tmAccess u (tmCapRead u c))
/-- TM_CNT_READ. -/
def execTmCntRead (u : Fin 8) (c : Fin 4) (s : State) : Host.Outcome State Fault Refusal := s.next (tmAccess u (tmCntRead u c))
/-- TM_PERIOD_WRITE. -/
def execTmPeriodWrite (u : Fin 8) (c : Fin 4) (v : Word) (s : State) : Host.Outcome State Fault Refusal :=
  s.next (tmAccess u (tmPeriodWrite u c v))
/-- TM_CMP_WRITE. -/
def execTmCmpWrite (u : Fin 8) (c : Fin 4) (v : Word) (s : State) : Host.Outcome State Fault Refusal := s.next (tmAccess u (tmCmpWrite u c v))
/-- TM_CNT_WRITE. -/
def execTmCntWrite (u : Fin 8) (c : Fin 4) (v : Word) (s : State) : Host.Outcome State Fault Refusal := s.next (tmAccess u (tmCntWrite u c v))

end Sys2Proof.Machine
end

