-- ==== Sys2Proof/Machine/Herd.lean ====
section
/-! DEFINITION. The herd (R230 to R250): ring frames, delay compensation, loss and reversal, joining, steps of herd time, and cue
slots. -/
namespace Sys2Proof.Machine

/-- Change the herd beyond its registers. -/
def Dev.hdUpd (d : Dev) (f : HerdSt → HerdSt) : Dev := { d with herd := f d.herd }
/-- Ring B or ring A. -/
def Dev.ring (d : Dev) (b : Bool) : RingSt := if b then d.herd.b else d.herd.a
/-- Change ring B or ring A. -/
def Dev.updRing (d : Dev) (b : Bool) (f : RingSt → RingSt) : Dev :=
  d.hdUpd (fun h => if b then { h with b := f h.b } else { h with a := f h.a })
/-- Set a flag of HERD_FLAGS. -/
def herdFlag (n : Nat) (d : Dev) : Dev := d.setBit Reg.HERD_FLAGS n
/-- The rings that the image gives the device (R233). -/
def hasRing (d : Dev) (b : Bool) : Bool := d.bit Reg.HERD_STATUS (if b then 9 else 8)
/-- The HERD record is in force: the image is loaded, or the device is in deep standby, where the herd goes on (R561).
DEDUCED, log entry 39. -/
def herdSet (d : Dev) : Bool := d.bit Reg.IMAGE_STATUS 0 || 5 ≤ d.pwr
/-- RINGS 0 (R233). -/
def ringless (d : Dev) : Bool := d.fld Reg.HERD_STATUS 9 8 == 0
/-- A ring time master. -/
def isMaster (d : Dev) : Bool := herdRole d != 0
/-- DEV_INDEX. -/
def devIndex (d : Dev) : Nat := d.fld Reg.HERD_STATUS 23 16
/-- An input delivers good frames (A_OK, B_OK). -/
def ringOk (d : Dev) (b : Bool) : Bool := d.bit Reg.HERD_STATUS (if b then 3 else 2)
/-- The source ring (R238). -/
def sourceB (d : Dev) : Bool := d.bit Reg.HERD_STATUS 4

/-! ### Frames (R235, R247, R259) -/

/-- A herd frame without SOF, CRC and EOF (R235); `res1` and `res2` are its reserved bytes 34 and 109, which a forwarder leaves as they are. -/
structure HFrame where
  ver : Nat := 1
  master : Nat := 0
  hops : Nat := 0
  id : Nat := 0
  ht : Nat := 0
  corr : Nat := 0
  flags : Nat := 0
  span : Nat := 0
  epoch : Nat := 0
  ltype : Nat := 0
  lseq : Nat := 0
  lturn : Nat := 0
  res1 : List Byte := [0, 0]
  res2 : List Byte := List.replicate 11 0
  cues : List (List Byte) := List.replicate 4 (List.replicate 14 0)
  census : List Byte := List.replicate 13 0
  deriving DecidableEq, Repr

/-- n bytes of a frame from offset o, where byte 0 is SOF. -/
def hbytes (f : List Byte) (o n : Nat) : List Byte := (f.drop (o - 1)).take n
/-- The fields of bytes 1 to 123 of a frame. -/
def hparse (f : List Byte) : HFrame :=
  let n (o k : Nat) : Nat := leNat (hbytes f o k)
  { ver := n 1 1, master := n 2 1, hops := n 3 1, id := n 4 4, ht := n 8 8, corr := n 16 4, flags := n 20 2, span := n 22 2,
    epoch := n 24 8, ltype := n 32 1, lseq := n 33 1, res1 := hbytes f 34 2, lturn := n 36 4,
    res2 := hbytes f 109 11,
    cues := (List.range 4).map (fun i => hbytes f (40 + 14 * i) 14), census := hbytes f 96 13 }
/-- CRC-32C of bytes (R103). -/
def crc32c (b : List Byte) : Nat := (b.foldl (fun c x => crc32cByte c x.toNat) 0xFFFFFFFF).toNat ^^^ 0xFFFFFFFF
/-- Bytes 1 to 123 of a frame. -/
def hbuild (f : HFrame) : List Byte :=
  let b := natBytes 1 f.ver ++ natBytes 1 f.master ++ natBytes 1 f.hops ++ natBytes 4 f.id ++ natBytes 8 f.ht ++ natBytes 4 f.corr ++
    natBytes 2 f.flags ++ natBytes 2 f.span ++ natBytes 8 f.epoch ++ natBytes 1 f.ltype ++ natBytes 1 f.lseq ++ f.res1 ++
    natBytes 4 f.lturn ++ f.cues.flatten ++ f.census ++ f.res2
  b ++ natBytes 4 (crc32c b)
/-- A good frame: its code groups, its CRC and VER (R236). -/
def hgood (code : Bool) (f : List Byte) : Bool :=
  !code && f.length == 123 && crc32c (f.take 119) == leNat (hbytes f 120 4) && (f.getD 0 0).toNat % 16 == 1

/-- VALID of an entry. -/
def entValid (cue : Bool) (e : List Byte) : Bool := (e.getD (if cue then 1 else 0) 0).getLsbD 0
/-- PASSED of an entry. -/
def entPassed (cue : Bool) (e : List Byte) : Bool := (e.getD (if cue then 1 else 0) 0).getLsbD 2
/-- ORIGIN of an entry. -/
def entOrigin (e : List Byte) : Nat := (e.getD 2 0).toNat
/-- PASSED sets. -/
def entPass (cue : Bool) (e : List Byte) : List Byte := e.modify (if cue then 1 else 0) (· ||| 4)
/-- A cue entry (R247). -/
def cueEntry (slot : Nat) (cancel : Bool) (origin seq arg l : Nat) : List Byte :=
  natBytes 1 slot ++ natBytes 1 (if cancel then 3 else 1) ++ natBytes 1 origin ++ natBytes 1 seq ++ natBytes 2 arg ++ natBytes 8 l
/-- A census entry (R259). -/
def cenEntry (groups origin id t : Nat) : List Byte := natBytes 1 1 ++ natBytes 1 groups ++ natBytes 1 origin ++ natBytes 2 id ++ natBytes 8 t

/-- An entry goes into the first free entry of its kind, if there is one (R245). -/
def putEntry (cue : Bool) (e : List Byte) (f : HFrame) : Option HFrame :=
  if cue then
    match f.cues.findIdx? (fun x => !entValid true x) with
    | some i => some { f with cues := f.cues.set i e }
    | none => none
  else if entValid false f.census then none else some { f with census := e }

/-- The outgoing queue gives its entries to a frame of ring b: each goes into 3 frames of each ring (R245). -/
def giveEntries (b : Bool) (f : HFrame) (d : Dev) : HFrame × Dev :=
  let step (a : HFrame × List OutEntry) (e : OutEntry) : HFrame × List OutEntry :=
    if (if b then e.leftB else e.leftA) = 0 then (a.1, a.2 ++ [e])
    else match putEntry e.cue e.bytes a.1 with
      | some g =>
        let e := if b then { e with leftB := e.leftB - 1 } else { e with leftA := e.leftA - 1 }
        (g, if e.leftA + e.leftB = 0 then a.2 else a.2 ++ [e])
      | none => (a.1, a.2 ++ [e])
  let (f, q) := d.herd.queue.foldl step (f, [])
  (f, d.hdUpd (fun h => { h with queue := q }))
/-- Queue a broadcast entry for every ring of the device. -/
def queueEntry (cue : Bool) (e : List Byte) (d : Dev) : Dev :=
  d.hdUpd (fun h => { h with queue := h.queue ++
    [{ cue := cue, bytes := e, leftA := if hasRing d false then 3 else 0, leftB := if hasRing d true then 3 else 0 }] })

/-- The link fields of a frame that leaves on ring b at t (1/16 ns): an answer that is owed, else a request in every 16th frame (R237).
DEDUCED, log entry 87. -/
def giveLink (b : Bool) (t : Nat) (f : HFrame) (d : Dev) : HFrame × Dev :=
  let r := d.ring b
  let n := r.sent
  let d := d.updRing b (fun r => { r with sent := (r.sent + 1) % 16 })
  match r.rsp with
  | some (q, t2) => ({ f with ltype := 2, lseq := q, lturn := (t - t2) % 2 ^ 32 }, d.updRing b (fun r => { r with rsp := none }))
  | none =>
    if n = (if b then 8 else 0) && hasRing d false && hasRing d true then
      let q := (d.herd.lseq + 1) % 256
      ({ f with ltype := 1, lseq := q, lturn := 0 }, (d.updRing b (fun r => { r with req := some (q, t) })).hdUpd (fun h => { h with lseq := q }))
    else ({ f with ltype := 0, lseq := 0, lturn := 0 }, d)

/-- A frame leaves on ring b at t (1/16 ns), with the device's link fields and, unless it is rebuilt, its entries. -/
def sendFrame (b : Bool) (t : Nat) (f : HFrame) (d : Dev) : Dev :=
  let (f, d) := if f.flags.testBit 3 then (f, d) else let (f, d) := giveLink b t f d; giveEntries b f d
  d.updRing b (fun r => { r with out := hbuild f })

/-! ### Steps of herd time (R240, R241) -/

/-- Slot state: ARMED. -/
def cueArmed (d : Dev) (s : Nat) : Bool := d.bit (Reg.CUE_STATE s) 0
/-- L of a slot. -/
def cueL (d : Dev) (s : Nat) : Nat := d.rd64 (Reg.CUE_SL_LO s) (Reg.CUE_SL_HI s)

/-- A slot fires (R250). In deep standby only its event takes effect (R561). DEDUCED, log entry 81; DEDUCED, log entry 88. -/
def cueFire (s : Nat) (late : Bool) (d : Dev) : Dev :=
  let cfg := d.rd (Reg.CUE_CFG s)
  let act := d.rd (Reg.CUE_ACT s)
  let arg := d.fld (Reg.CUE_STATE s) 31 16
  let l := cueL d s
  let d := (d.clrBit (Reg.CUE_STATE s) 0).putBit (Reg.CUE_STATE s) 1 late
  let d := d.wr64 (Reg.CUE_FIRED_LO s) (Reg.CUE_FIRED_HI s) d.now
  let d := if late then herdFlag 4 d else d
  let d := forN 8 d (fun h d =>
    if (d.head h).cues.any (fun c => c.slot == s && !c.fired) then
      let kept := (d.head h).cues.filter (fun c => !(c.slot == s && c.fired))
      d.updHead h (fun x => { x with cues := kept.map (fun c => if c.slot = s then { c with fired := true } else c) })
    else d)
  let event (d : Dev) : Dev := if bitOf cfg 19 then fire (0x2E0 + fld cfg 22 20) d else d
  if d.inDeep then event d
  else
    let v := if bitOf act 10 then arg % 512 else fld act 8 0
    let now (a : AuAct) (d : Dev) : Dev := d.auUpd (fun u => { u with now := u.now ++ [(l, a)] })
    let d := if bitOf act 9 then now (.voice v 1) d else d
    let d := if bitOf act 16 then now (sceneAct d (fld act 15 12) none) d else d
    let d := if bitOf act 22 then arrive (0x100 + 4 * fld act 21 17) { hop := 0, isOpen := false, chan := 128 } d else d
    let d := if bitOf act 26 then gpioPattern (fld act 25 23) d else d
    let d := event d
    if bitOf cfg 18 then herdFlag 0 d else d

/-- A census is skipped, with its cause (R253, R255, R241). -/
def cenSkip (cause : Nat) (d : Dev) : Dev := ((herdFlag 7 d).bump Reg.CEN_SKIPS).setFld Reg.CEN_STATUS 10 8 cause
/-- The queue of pending censuses, which PENDING counts. -/
def setCens (l : List Census) (d : Dev) : Dev := (d.hdUpd (fun h => { h with cens := l })).setFld Reg.CEN_STATUS 5 3 l.length

/-- Herd time steps (R240, R241, R357): slots and armed restarts that it passes over act at the step, and censuses are skipped. -/
def htStep (new : Nat) (d : Dev) : Dev :=
  let d := herdFlag 15 ({ d with ht := BitVec.ofNat 64 new }.hdUpd (fun h => { h with stepHt := new }))
  let d := forN 256 d (fun s d => if cueArmed d s && cueL d s < new then cueFire s true d else d)
  let gone := d.herd.cens.filter (fun c => c.t < new)
  let d := if gone.isEmpty then d else setCens (d.herd.cens.filter (fun c => new ≤ c.t)) d
  let d := gone.foldl (fun d _ => cenSkip 2 d) d
  (timersStepped d).auUpd (fun u => { u with last := none })

/-! ### Loss, reversal and return (R238, R239) -/

/-- Ring b's input is lost. DEDUCED, log entry 86. -/
def inputLost (b : Bool) (d : Dev) : Dev :=
  if !ringOk d b then d
  else
    let d := (d.clrBit Reg.HERD_STATUS (if b then 3 else 2)).updRing b (fun r => { r with lost := true, bad := 0 })
    let d := herdFlag (if b then 9 else 8) d
    let d := if hasRing d !b && ringOk d !b then d.setBit Reg.ST_FLAGS 1 else d
    if isMaster d || sourceB d ≠ b then d
    else if ringOk d !b then
      faultLog 10 5 (if b then 1 else 0) 10 1 0 (herdFlag 10 ((d.putBit Reg.HERD_STATUS 4 (!b)).bump Reg.REVERSALS))
    else
      herdFlag 14 (((d.setBit Reg.HERD_STATUS 1).clrBit Reg.HERD_STATUS 0).hdUpd (fun h => { h with lockAt := none, evaled := false, stepDue := false }))
/-- The expected arrival of the next frame on ring b, in 1/16 ns on the herd clock (R238): on a master the sending time of its oldest frame
under way plus the last measured return time. -/
def expected (b : Bool) (d : Dev) : Nat :=
  if isMaster d then
    match (d.ring b).sends, (d.ring b).ret with
    | (_, t) :: _, some r => t + 16 * r
    | _, _ => 0
  else (d.ring b).due
/-- RING_INPUT_LOST: no SOF within 200 ns after the expected arrival. -/
def execRingInputLost (b : Bool) (wait : Nat) (s : State) : Host.Outcome State Fault Refusal :=
  s.next (fun d => let d := d.pass wait; inputLost b (d.passClk ((expected b d + 15) / 16 + 200)))

/-- A has delivered good frames for 10 ms: the device returns to it. -/
def ringReturn (d : Dev) : Dev :=
  if sourceB d && ringOk d false && !isMaster d then (d.passClk (d.herd.a.goodSince + 10000000)).clrBit Reg.HERD_STATUS 4 else d
/-- RING_A_RETURN. -/
def execRingAReturn (s : State) : Host.Outcome State Fault Refusal := s.next ringReturn

/-- A good frame keeps its input good, or brings it back. DEDUCED, log entry 86. -/
def inputGood (b : Bool) (d : Dev) : Dev :=
  if ringOk d b then d.updRing b (fun r => { r with bad := 0 })
  else
    let d := (d.setBit Reg.HERD_STATUS (if b then 3 else 2)).updRing b (fun r => { r with lost := false, bad := 0, goodSince := d.clk })
    if ringOk d (sourceB d) then d else d.putBit Reg.HERD_STATUS 4 b

/-! ### Link delays (R237) -/

/-- The delay of the input link of ring b, in 1/16 ns. -/
def linkDelay (d : Dev) (b : Bool) : Nat :=
  if hasRing d false && hasRing d true then d.fld (if b then Reg.LINK_DELAY_B else Reg.LINK_DELAY_A) 15 0 else d.fld Reg.LINK_DELAY_SET 15 0
/-- A frame's link fields arrive on ring b at t (1/16 ns): a request is answered on the other ring; an answer gives a sample.
DESIGN CHOICE, log entry 10; DEDUCED, log entry 87. -/
def takeLink (b : Bool) (t : Nat) (f : HFrame) (d : Dev) : Dev :=
  match f.ltype with
  | 1 => d.updRing (!b) (fun r => { r with rsp := some (f.lseq, t) })
  | 2 =>
    (match (d.ring (!b)).req with
      | some (q, t1) =>
        if q = f.lseq then
          let x : Int := (t : Int) - t1 - f.lturn
          let x := x / 2 + (if x % 2 ≠ 0 && Config.roundUp 9 x then 1 else 0)
          let l := (x.toNat :: (d.ring b).delays).take 256
          let tot := l.foldl (· + ·) 0
          let m := tot / l.length + (if tot % l.length ≠ 0 && Config.roundUp 10 (tot * 512 + l.length : Nat) then 1 else 0)
          ((d.updRing (!b) (fun r => { r with req := none })).updRing b (fun r => { r with delays := l })).setFld
            (if b then Reg.LINK_DELAY_B else Reg.LINK_DELAY_A) 15 0 (min m 0xFFFF)
        else d
      | none => d)
  | _ => d

/-! ### Cues (R248, R249, R251) -/

/-- A slot's change is recorded by the heads of its HEAD_MASK that the image enables and that are no mirrors (R251).
DEDUCED, log entry 88. -/
def headsRecord (s arg l : Nat) (cancel : Bool) (d : Dev) : Dev :=
  let cfg := d.rd (Reg.CUE_CFG s)
  let bank := if bitOf cfg 17 then arg % 2 else fld cfg 16 16
  forN 8 d (fun h d =>
    if bitOf cfg (8 + h) && headState d h ≠ 0 && !isMirror d h then
      let new : List HeadCue := if cancel then [] else [{ slot := s, l := l, bank := bank, fired := false }]
      d.updHead h (fun x => { x with cues := x.cues.filter (fun c => !(c.slot == s && !c.fired)) ++ new })
    else d)
/-- A slot is armed with L and ARG, or returns to idle. DEDUCED, log entry 84. -/
def cueSet (s seq arg l : Nat) (cancel : Bool) (d : Dev) : Dev :=
  let d := d.setFld (Reg.CUE_STATE s) 15 8 seq
  let d := if cancel then d.clrBit (Reg.CUE_STATE s) 0
    else ((d.setBit (Reg.CUE_STATE s) 0).setFld (Reg.CUE_STATE s) 31 16 arg).wr64 (Reg.CUE_SL_LO s) (Reg.CUE_SL_HI s) l
  headsRecord s arg l cancel d

/-- An arm or a cancel (R248): refused with its reason, or accepted with a new SEQ. DEDUCED, log entry 84. -/
def cueRequest (s arg l : Nat) (bcast cancel : Bool) (d : Dev) : Dev :=
  let ride := bcast && !ringless d
  let reason :=
    if (l : Int) - d.now < (d.rd Reg.CUE_LEAD_MIN).toNat then 1
    else if d.fld (Reg.CUE_CFG s) 7 0 ≠ devIndex d then 2
    else if ride && 16 ≤ d.herd.queue.length then 3
    else if ride && !herdJoined d then 4
    else 0
  if reason ≠ 0 then herdFlag 1 (d.setFld Reg.CUE_RESULT 3 0 (reason * 2))
  else
    let seq := (d.fld (Reg.CUE_STATE s) 15 8 + 1) % 256
    let d := cueSet s seq arg l cancel d
    let d := d.wr Reg.CUE_RESULT (w32 (1 + seq * 16))
    if ride then queueEntry true (cueEntry s cancel (devIndex d) seq arg l) d else d
/-- The staged L. -/
def cueStaged (d : Dev) : Nat := d.rd64 Reg.CUE_L_LO Reg.CUE_L_HI
/-- A CUE_CMD write. -/
def cueCmdWrite (v : Word) (d : Dev) : Dev :=
  (if bitOf v 31 then cueRequest (fld v 7 0) (fld v 23 8) (cueStaged d) (bitOf v 24) (bitOf v 25) d else d).okay
/-- CUE_ARM: a CUE_CMD write with GO. -/
def execCueArm (s : Fin 256) (arg : BitVec 16) (bcast : Bool) (st : State) : Host.Outcome State Fault Refusal :=
  st.next (fun d => (cueRequest s arg.toNat (cueStaged d) bcast false d).okay)
/-- CUE_CANCEL: a CUE_CMD write with GO and CANCEL. -/
def execCueCancel (s : Fin 256) (arg : BitVec 16) (bcast : Bool) (st : State) : Host.Outcome State Fault Refusal :=
  st.next (fun d => (cueRequest s arg.toNat (cueStaged d) bcast true d).okay)

/-- A received cue entry (R249). -/
def cueReceive (e : List Byte) (d : Dev) : Dev :=
  let s := (e.getD 0 0).toNat
  let cancel := (e.getD 1 0).getLsbD 1
  let seq := (e.getD 3 0).toNat
  let l := leNat (e.drop 6)
  let k := (seq + 256 - d.fld (Reg.CUE_STATE s) 15 8) % 256
  if !entValid true e || entOrigin e = devIndex d then d
  else if entOrigin e ≠ d.fld (Reg.CUE_CFG s) 7 0 then herdFlag 3 d
  else if k = 0 || 127 < k then d
  else if l ≤ d.now && !cancel then herdFlag 2 (d.setFld (Reg.CUE_STATE s) 15 8 seq)
  else cueSet s seq (leNat ((e.drop 4).take 2)) l cancel d

/-- A slot that is armed, or fired and not yet taken by its heads (R249). -/
def cueBusy (d : Dev) (s : Nat) : Bool := cueArmed d s || (List.range 8).any (fun h => (d.head h).cues.any (fun c => c.slot == s))
/-- A CUE_CFG (`act` false) or CUE_ACT write (R249, R258). -/
def cueCfgWrite (q : Req) (s : Nat) (act : Bool) (v : Word) (d : Dev) : Dev :=
  if !d.keeper q then d.deny
  else if cueBusy d s then (herdFlag 5 d).okay
  else (if act then d.wr (Reg.CUE_ACT s) (v &&& 0x7FFF7FF) else d.wr (Reg.CUE_CFG s) (v &&& 0x7FFFFF)).okay

/-- The armed slot that fires next: the least L, and the lowest slot of those. DEDUCED, log entry 88. -/
def nextCue (d : Dev) : Option Nat :=
  (List.range 256).foldl (fun m s =>
    if cueArmed d s then (match m with | some t => if cueL d s < cueL d t then some s else m | none => some s) else m) none
/-- The next cue fires at its L. DEDUCED, log entry 88. -/
def cueDue (d : Dev) : Dev :=
  match nextCue d with
  | some s => cueFire s false (d.passTo (cueL d s))
  | none => d
/-- CUE_FIRE. -/
def execCueFire (s : State) : Host.Outcome State Fault Refusal := s.next cueDue

/-! ### Census requests (R252, R253) -/

/-- A census joins the queue in order of T. DEDUCED, log entry 85. -/
def cenInsert (c : Census) : List Census → List Census
  | [] => [c]
  | x :: l => if c.t < x.t then c :: x :: l else x :: cenInsert c l
/-- A census that concerns this device (R253). DEDUCED, log entry 85. -/
def cenAdd (c : Census) (d : Dev) : Dev :=
  if c.t ≤ d.now then cenSkip 2 d
  else if d.herd.cens.any (fun x => x.t == c.t) then
    setCens (d.herd.cens.map (fun x => if x.t = c.t then { (if c.origin < x.origin then c else x) with merged := true } else x)) d
  else if 4 ≤ d.herd.cens.length then cenSkip 3 d
  else setCens (cenInsert c d.herd.cens) d
/-- A request for a census at t (R252). DEDUCED, log entry 85. -/
def cenRequest (id groups t : Nat) (bcast : Bool) (d : Dev) : Dev :=
  if (t : Int) - d.now < 20000 + (d.rd Reg.SPAN).toNat then d.setFld Reg.CEN_STATUS 10 8 4
  else
    let ride := bcast && !ringless d && d.herd.queue.length < 16 && groups ≠ 0
    let d := if ride then queueEntry false (cenEntry groups (devIndex d) id t) d else d
    if groups &&& d.fld Reg.CEN_GROUPS 7 0 ≠ 0 then cenAdd { t := t, id := id, origin := devIndex d } d else d
/-- The staged T. -/
def cenStaged (d : Dev) : Nat := d.rd64 Reg.CEN_T_LO Reg.CEN_T_HI
/-- A CEN_CMD write. -/
def cenCmdWrite (v : Word) (d : Dev) : Dev :=
  (if bitOf v 31 then cenRequest (fld v 15 0) (fld v 23 16) (cenStaged d) (bitOf v 24) d else d).okay
/-- CENSUS_REQUEST: a CEN_CMD write. -/
def execCensusRequest (v : Word) (s : State) : Host.Outcome State Fault Refusal := s.next (cenCmdWrite v)

/-- A received census entry: each is processed once (R245). DEDUCED, log entry 85. -/
def cenReceive (e : List Byte) (d : Dev) : Dev :=
  let o := entOrigin e
  let id := leNat ((e.drop 3).take 2)
  if !entValid false e || o = devIndex d || d.herd.seen.contains (o, id) then d
  else
    let d := d.hdUpd (fun h => { h with seen := ((o, id) :: h.seen).take 64 })
    if (e.getD 1 0).toNat &&& d.fld Reg.CEN_GROUPS 7 0 ≠ 0 then cenAdd { t := leNat (e.drop 5), id := id, origin := o } d else d

/-! ### Receiving a frame (R234, R236, R237, R240, R245) -/

/-- The device processes the entries of a frame once it has joined (R240). -/
def takeEntries (f : HFrame) (d : Dev) : Dev :=
  if herdJoined d then cenReceive f.census (f.cues.foldl (fun d e => cueReceive e d) d) else d

/-- e of R237 as TIME_ERR shows it. -/
def timeErr (e : Int) : Word := iw (clampI (-0x7FFFFFFF) 0x7FFFFFFF e)

/-- JOINED sets (R240). DEDUCED, log entry 86. -/
def setJoined (d : Dev) : Dev := if herdJoined d then d else joinHeads (d.setBit Reg.HERD_STATUS 0)

/-- A member takes time from a good frame of its source ring, which arrived `sub` sixteenths of a ns after the present herd time.
DEDUCED, log entry 86. -/
def takeTime (b : Bool) (sub : Nat) (f : HFrame) (d : Dev) : Dev :=
  let target := 16 * f.ht + f.corr + linkDelay d b
  let d := match d.herd.lockAt with
    | some _ => d
    | none => (d.clrBit Reg.HERD_STATUS 1).hdUpd (fun h => { h with lockAt := some d.clk, evaled := false })
  let d := if (f.flags.testBit 2 || d.herd.stepDue) && target / 16 ≠ d.now then htStep (target / 16) d else d
  let e : Int := (16 * d.now + sub : Nat) - (target : Int)
  let d := (d.hdUpd (fun h => { h with stepDue := false, epoch := f.epoch })).wr Reg.TIME_ERR (timeErr e)
  let d := (d.putBit Reg.HERD_STATUS 5 (f.flags.testBit 0)).wr Reg.SPAN (w32 (f.span * 10))
  if d.herd.evaled && e.natAbs ≤ 64 then setJoined d else d

/-- The expected arrival of the frame after a good frame f of ring b: FRAME_HT + 1000 with CORR and the delay of the link, or, while herd time
is more than 1 µs away from the ring's, 1000 ns after the arrival (R238). DEDUCED, log entry 86. -/
def expectNext (b : Bool) (sub : Nat) (f : HFrame) (d : Dev) : Dev :=
  let e : Int := (16 * d.now + sub : Nat) - (16 * f.ht + f.corr + linkDelay d b : Nat)
  d.updRing b (fun r => { r with due := ((16 * d.clk + sub + 16000 : Nat) - (if e.natAbs ≤ 16000 then e else 0)).toNat })

/-- A frame that a member forwards on ring b, `res` sixteenths of a ns after it arrived at t (R234, R237). Its own entries are stripped. -/
def forward (b : Bool) (t res : Nat) (f : HFrame) (d : Dev) : Dev :=
  if f.hops = 255 then d
  else
    let own (e : List Byte) : Bool := entOrigin e == devIndex d
    let f := { f with
      hops := f.hops + 1
      corr := (f.corr + linkDelay d b + res) % 2 ^ 32
      cues := f.cues.map (fun e => if entValid true e && own e then List.replicate 14 0 else e)
      census := if entValid false f.census && own f.census then List.replicate 13 0 else f.census }
    sendFrame b (t + res) f d

/-- A bad frame (R236): a member sends a rebuilt one in its place. -/
def herdBadFrame (b : Bool) (res : Nat) (d : Dev) : Dev :=
  let d := (herdFlag 11 d).bump (if b then Reg.RING_CRC_B else Reg.RING_CRC_A)
  let r := d.ring b
  let d := d.updRing b (fun r =>
    { r with bad := r.bad + 1, missed := r.missed + 1, goodSince := d.clk, due := r.due + 16000, sends := r.sends.drop 1 })
  let d := if isMaster d || r.last.isEmpty then d
    else
      let f := hparse r.last
      forward b 0 res { f with ht := f.ht + 1000 * (r.missed + 1), flags := f.flags % 4 ||| 8, ltype := 0, lseq := 0, lturn := 0,
                               cues := List.replicate 4 (List.replicate 14 0), census := List.replicate 13 0 } d
  if 3 ≤ (d.ring b).bad then inputLost b d else d

/-- A master takes a frame that returns at t (1/16 ns on the herd clock) off the ring, and carries its entries (R245, R246). -/
def masterTake (b : Bool) (t : Nat) (f : HFrame) (d : Dev) : Dev :=
  if f.master ≠ devIndex d then herdFlag 13 d
  else
    let es := (f.cues.map (fun e => (true, e))) ++ [(false, f.census)]
    let es := es.filter (fun e => entValid e.1 e.2 && !entPassed e.1 e.2 && entOrigin e.2 != devIndex d)
    let back (r : RingSt) : RingSt :=
      match r.sends.dropWhile (fun s => s.1 != f.ht) with
      | (_, t0) :: rest => { r with ret := some ((t - t0 + 15) / 16), sends := rest }
      | [] => r
    takeEntries f (d.updRing b (fun r => { back r with carry := r.carry ++ es.map (fun e => (e.1, entPass e.1 e.2)) }))

/-- A frame arrives on ring b: `code` tells a bad code group, `f` is bytes 1 to 123; it arrives `sub` sixteenths of a ns after the
present herd time, and its residence is `res` sixteenths. DESIGN CHOICE, log entry 117. -/
def herdReceive (b code : Bool) (f : List Byte) (sub res : Nat) (d : Dev) : Dev :=
  let t := 16 * d.clk + sub
  if herdSet d && !hasRing d b then d
  else if !hgood code f then herdBadFrame b res d
  else
    let h := hparse f
    let d := snoopHerd (if b then 1 else 0) f (inputGood b d)
    if h.id ≠ (d.rd Reg.HERD_ID).toNat then
      let d := (herdFlag 12 d).updRing b (fun r => { r with due := t + 16000 })
      if isMaster d then (if h.master = devIndex d then d else herdFlag 13 d)
      else if h.hops = 255 then d
      else d.updRing b (fun r => { r with out := hbuild { h with hops := h.hops + 1, corr := (h.corr + linkDelay d b + res) % 2 ^ 32 } })
    else
      let d := d.setFld Reg.HERD_STATUS 31 24 h.master
      let d := takeLink b t h (d.updRing b (fun r => { r with last := f, missed := 0 }))
      if isMaster d then masterTake b t h d
      else
        let d := expectNext b sub h (if sourceB d = b && !h.flags.testBit 3 then takeTime b sub h d else d)
        forward b t res h (takeEntries h d)
/-- HERD_FRAME_RECEIVE. -/
def execHerdFrameReceive (b code : Bool) (f : List Byte) (wait sub res : Nat) (s : State) : Host.Outcome State Fault Refusal :=
  s.next (fun d => herdReceive b code f sub res (d.pass wait))

/-- Step 2 of R240: 1 ms after the lock the member slews, or steps at the next frame. DEDUCED, log entry 87. -/
def joinEval (d : Dev) : Dev :=
  match d.herd.lockAt with
  | some c =>
    if d.herd.evaled || isMaster d then d
    else
      let d := d.passClk (c + 1000000)
      let e := (sword (d.rd Reg.TIME_ERR)).natAbs
      let d := d.hdUpd (fun h => { h with evaled := true, stepDue := 16000 < e })
      if e ≤ 64 then setJoined d else d
  | none => d
/-- HERD_JOIN_EVAL. -/
def execHerdJoinEval (s : State) : Host.Outcome State Fault Refusal := s.next joinEval

/-! ### The master (R234, R243, R244, R246) -/

/-- The herd time of the master's next frame. -/
def nextSend (d : Dev) : Nat :=
  let t := (d.now + 999) / 1000 * 1000
  if d.herd.lastSend = some t then t + 1000 else t
/-- A step that waits for a frame takes place: HT_SET of a ROLE 1 master, or the servo's step of a ROLE 2 master (R531).
DEDUCED, log entry 87; DEDUCED, log entry 89. -/
def masterStep (d : Dev) : Dev :=
  if d.herd.htSet then
    (htStep (d.rd64 Reg.HT_SET_LO Reg.HT_SET_HI / 1000 * 1000) d).hdUpd (fun h => { h with htSet := false, stepFlag := true })
  else match d.net.ptp.pend with
    | some x =>
      if herdRole d = 2 then
        let d := htStep ((((d.now : Int) + x) % (2 ^ 64 : Nat)).toNat) (d.ptpUpd (fun p => { p with pend := none }))
        netFlag 16 (d.hdUpd (fun h => { h with stepFlag := true }))
      else d
    | none => d
/-- The master's frame on ring b: carried entries go before its own. -/
def masterFrame (b : Bool) (d : Dev) : Dev :=
  let fl := (if ptpLocked d then 1 else 0) + (if d.herd.stepFlag then 4 else 0)
  let f : HFrame := { master := devIndex d, id := (d.rd Reg.HERD_ID).toNat, ht := d.now, flags := fl,
                      span := (d.rd Reg.SPAN).toNat / 10 % 2 ^ 16, epoch := d.herd.epoch }
  let step (a : HFrame × List (Bool × List Byte)) (e : Bool × List Byte) : HFrame × List (Bool × List Byte) :=
    match putEntry e.1 e.2 a.1 with
    | some g => (g, a.2)
    | none => (a.1, a.2 ++ [e])
  let (f, rest) := (d.ring b).carry.foldl step (f, [])
  sendFrame b (16 * d.clk) f (d.updRing b (fun r => { r with carry := rest, sends := (r.sends ++ [(d.now, 16 * d.clk)]).drop (r.sends.length - 255) }))
/-- The master sends a frame on each ring (R234). -/
def masterSend (d : Dev) : Dev :=
  if !isMaster d || !herdSet d then d
  else
    let d := masterStep (d.passTo (nextSend d))
    if d.now % 1000 ≠ 0 then d
    else
      let d := d.hdUpd (fun h => { h with lastSend := some d.now })
      let d := if hasRing d false then masterFrame false d else d
      let d := if hasRing d true then masterFrame true d else d
      setJoined (d.hdUpd (fun h => { h with stepFlag := false }))
/-- HERD_FRAME_SEND. -/
def execHerdFrameSend (s : State) : Host.Outcome State Fault Refusal := s.next masterSend

/-- An HT_SET_CMD write (R258, R244). DEDUCED, log entry 89. -/
def htSetWrite (q : Req) (v : Word) (d : Dev) : Dev :=
  if !d.keeper q then d.deny
  else (if bitOf v 31 && herdRole d = 1 then d.hdUpd (fun h => { h with htSet := true }) else d).okay
/-- HT_SET. -/
def execHtSet (q : Req) (v : Word) (s : State) : Host.Outcome State Fault Refusal := s.next (htSetWrite q v)

/-- SPAN: the greater return time plus 1000 ns, rounded up to 10 ns, while both rings are whole (R246). -/
def spanMeasure (d : Dev) : Dev :=
  if !isMaster d then d
  else
    let d := d.passClk (d.herd.spanClk + 1000000)
    let d := d.hdUpd (fun h => { h with spanClk := d.clk })
    let ret (b : Bool) : Option Nat := if !hasRing d b then some 0 else if ringOk d b then (d.ring b).ret else none
    match ret false, ret true with
    | some a, some b => if ringless d then d else d.wr Reg.SPAN (w32 ((max a b + 1000 + 9) / 10 * 10 % 2 ^ 20))
    | _, _ => d
/-- SPAN_MEASURE. -/
def execSpanMeasure (s : State) : Host.Outcome State Fault Refusal := s.next spanMeasure

/-! ### HERD_PPS (R244) -/

/-- HERD_PPS output rises at the next whole second. -/
def ppsRise (d : Dev) : Dev :=
  if !d.bit Reg.TIME_CTRL 0 || d.herd.pps then d
  else
    let t := (d.now + 999999999) / 1000000000 * 1000000000
    let d := d.passTo (if d.herd.ppsAt = some t then t + 1000000000 else t)
    d.hdUpd (fun h => { h with pps := true, ppsAt := some d.now, ppsClk := d.clk })
/-- PPS_OUT_RISE. -/
def execPpsOutRise (s : State) : Host.Outcome State Fault Refusal := s.next ppsRise
/-- HERD_PPS output falls 100 µs after its rise. -/
def ppsFall (d : Dev) : Dev := if d.herd.pps then (d.passClk (d.herd.ppsClk + 100000)).hdUpd (fun h => { h with pps := false }) else d
/-- PPS_OUT_FALL. -/
def execPpsOutFall (s : State) : Host.Outcome State Fault Refusal := s.next ppsFall
/-- A rising edge of the HERD_PPS input. -/
def ppsEdge (d : Dev) : Dev := fire 0x2E9 (herdFlag 17 ((d.hdUpd (fun h => { h with ppsIn := d.now })).wr Reg.PPS_IN_LO (w32 d.now)))
/-- PPS_IN_EDGE. -/
def execPpsInEdge (wait : Nat) (s : State) : Host.Outcome State Fault Refusal := s.next (fun d => ppsEdge (d.pass wait))

/-! ### Registers (R258, R260) -/

/-- A write of a register of the HERD page. -/
def herdWrite (q : Req) (o : Nat) (v : Word) (d : Dev) : Dev :=
  let keep (m : Word) : Dev := (d.wr (0x60000 + o) (v &&& m)).okay
  let priv (x : Dev) : Dev := if d.keeper q then x else d.deny
  if 0x2000 ≤ o && o < 0x4000 then
    match o % 0x20 with
    | 0 => cueCfgWrite q ((o - 0x2000) / 0x20) false v d
    | 4 => cueCfgWrite q ((o - 0x2000) / 0x20) true v d
    | _ => d.okay
  else match o with
    | 0x018 => (d.wr Reg.HERD_FLAGS (d.rd Reg.HERD_FLAGS &&& ~~~ v)).okay
    | 0x01C => keep 0x3FFFF
    | 0x020 => priv (if isMaster d then (keepField Reg.EPOCH_LO v d).okay else d.okay)
    | 0x024 => priv (if isMaster d then (keepField Reg.EPOCH_HI v d).okay else d.okay)
    | 0x028 => priv (keep 3)
    | 0x02C | 0x030 => priv (keep 0xFFFFFFFF)
    | 0x034 => htSetWrite q v d
    | 0x044 => priv (keep 0xFFFF)
    | 0x048 | 0x04C | 0x050 => keep 0xFFFFFFFF
    | 0x100 | 0x104 | 0x200 | 0x204 | 0x218 => keep 0xFFFFFFFF
    | 0x108 => cueCmdWrite v d
    | 0x208 => cenCmdWrite v d
    | 0x20C => keep 0xFF
    | 0x214 => (d.wr Reg.CEN_STATUS (d.rd Reg.CEN_STATUS &&& ~~~ (v &&& 3))).okay
    | _ => d.okay
/-- A read of a register of the HERD page: HT_LO latches HT_HI, and PPS_IN_LO latches PPS_IN_HI (R232). -/
def herdRead (o : Nat) (d : Dev) : Dev :=
  match o with
  | 0x00C => (d.wr Reg.HT_HI (w32 (d.now / 2 ^ 32))).answer (.ok (w32 d.now))
  | 0x054 => (d.wr Reg.PPS_IN_HI (w32 (d.herd.ppsIn / 2 ^ 32))).answer (.ok (w32 d.herd.ppsIn))
  | 0x020 => d.answer (.ok (if isMaster d then d.rd Reg.EPOCH_LO else w32 d.herd.epoch))
  | 0x024 => d.answer (.ok (if isMaster d then d.rd Reg.EPOCH_HI else w32 (d.herd.epoch / 2 ^ 32)))
  | _ => d.answer (.ok (d.rd (0x60000 + o)))

/-- CEN_RELEASE: a CEN_RELEASE write (R255). -/
def execCenRelease (v : Word) (s : State) : Host.Outcome State Fault Refusal :=
  s.next (fun d => (d.wr Reg.CEN_STATUS (d.rd Reg.CEN_STATUS &&& ~~~ (v &&& 3))).okay)

end Sys2Proof.Machine
end

