-- ==== Sys2Proof/Machine/Drove.lean ====
section
/-! DEFINITION. The Drove link below its register space and memory transactions (R487 to R510, R513, R515 to R520): frames,
credits, sequence numbers and replay, training and sessions, lane sparing, the rings' registers. -/
namespace Sys2Proof.Machine

/-- Change the link beyond its registers. -/
def Dev.drvUpd (d : Dev) (f : DrvSt → DrvSt) : Dev := { d with drv := f d.drv }
/-- STATE: 0 DOWN, 1 TRAINING, 2 ACTIVE, 3 RETRAIN. -/
def drvState (d : Dev) : Nat := d.fld Reg.DRV_STATUS 1 0
/-- Set STATE. -/
def setDrvState (n : Nat) (d : Dev) : Dev := d.setFld Reg.DRV_STATUS 1 0 n

/-! ### Frames (R492 to R497) -/

/-- Sequenced frame types. -/
def sequenced (ty : Nat) : Bool := ty == 1 || ty == 2 || (5 ≤ ty && ty ≤ 9)

/-- Whether STREAM and LEN keep their row of the frame type table (R494). -/
def frameRow (f : DrvFrame) : Bool :=
  let n := f.payload.length
  match f.ty with
  | 1 => f.stream < 60 && 1 ≤ n && n ≤ 4096
  | 2 => f.stream == 0 && 4 ≤ n && n ≤ 256 && n % 4 == 0
  | 3 => f.stream == 0 && n == 0 && f.ack.isSome
  | 4 => f.stream == 0 && n == 0 && f.ack.isSome
  | 5 => f.stream == 60 && 9 ≤ n && n ≤ 4096
  | 6 => f.stream == 61 && n == 12
  | 7 => f.stream == 62 && n ≤ 4096
  | 8 => f.stream == 63 && n == 16
  | 9 => f.stream == 63 && n == 12
  | 10 => f.stream == 0 && n == 0
  | _ => false

/-- Reserved bits of CR_STREAM, of a payload or of a tag (R493, R494, R514) are 0. -/
def frameReserved (f : DrvFrame) : Bool :=
  (match f.cr with | some (s, _) => s < 64 | none => true) &&
  match f.ty with
  | 2 => (List.range (f.payload.length / 4)).all (fun i => f.payload.getD (4 * i + 1) 0 == 0)
  | 7 => fld f.tag 31 24 == 0
  | 8 => (f.payload.getD 3 0) &&& 0x7C == 0
  | 9 => (f.payload.getD 8 0) &&& 0xFE == 0 && (f.payload.drop 9).all (· == 0)
  | _ => true

/-- The cost of a sequenced frame in credit units (R497). -/
def frameCost (f : DrvFrame) : Nat := if f.ty = 2 then 0 else (16 + f.payload.length + 255) / 256

/-- The bytes of a frame without its padding: header, payload and CRC-32C (R493, R495). -/
def frameBytes (f : DrvFrame) : List Byte :=
  let cr := f.cr.getD (0, 0)
  let flags := (if f.ack.isSome then 1 else 0) + (if f.cr.isSome then 2 else 0) + (if f.eom then 4 else 0)
  let body := natBytes 1 f.ty ++ natBytes 1 f.stream ++ natBytes 2 f.seq ++ natBytes 2 f.payload.length ++ natBytes 1 flags ++
    natBytes 1 cr.1 ++ natBytes 2 cr.2 ++ natBytes 2 (f.ack.getD 0) ++ wordBytes f.tag ++ f.payload
  body ++ wordBytes (~~~ body.foldl (fun c b => crc32cByte c b.toNat) 0xFFFFFFFF)

/-- The bytes that a frame takes, padding included (R492). -/
def frameSize (f : DrvFrame) : Nat := (20 + f.payload.length + 7) / 8 * 8

/-- One bit through the scrambler of a lane (R489): the bit sent, and the last 58 bits after it. -/
def scrambleBit (st : Nat) (b : Bool) : Bool × Nat :=
  let s := b ^^ (st.testBit 38 ^^ st.testBit 57)
  (s, (st * 2 + (if s then 1 else 0)) % 2 ^ 58)

/-- A block's payload through the scrambler, bit 0 first. -/
def scrambleWord : Nat → Nat → Nat → Nat → Nat × Nat
  | 0, _, st, acc => (acc, st)
  | n + 1, v, st, acc =>
    let (s, st) := scrambleBit st (v.testBit (63 - n))
    scrambleWord n v st (if s then acc + 2 ^ (63 - n) else acc)

/-- An alignment marker (R490): logical lane, physical lane and the lane's marker count. -/
def marker (lg ph n : Nat) : DWord :=
  let v := 0xF0 + lg * 2 ^ 8 + ph * 2 ^ 16 + n % 256 * 2 ^ 24
  BitVec.ofNat 64 (v + (2 ^ 32 - 1 - v) * 2 ^ 32)

/-! ### Lanes (R487 to R490, R506, R509) -/

/-- The physical lanes of a direction that can carry a logical lane: in service or spare (R487, R510). DEDUCED, log entry 106. -/
def goodLanes (d : Dev) (dir : Nat) : List Nat := (List.range 9).filter (fun l => d.unit 9 (16 * dir + l) ≤ 1)

/-- The lane map register of a direction: 0 transmit, 1 receive. -/
def laneMap (dir : Nat) : Nat := if dir = 0 then Reg.LANE_MAP_TX else Reg.LANE_MAP_RX
/-- The spare lane of a direction, 15 when none. -/
def spareLane (d : Dev) (dir : Nat) : Nat := d.fld Reg.DRV_STATUS (19 + 4 * dir) (16 + 4 * dir)
/-- Set the spare lane of a direction. -/
def setSpareLane (dir n : Nat) (d : Dev) : Dev := d.setFld Reg.DRV_STATUS (19 + 4 * dir) (16 + 4 * dir) n

/-- The logical lane that a physical lane of a direction carries. -/
def laneCarries (d : Dev) (dir l : Nat) : Option Nat :=
  (List.range 8).find? (fun k => d.fld (laneMap dir) (4 * k + 3) (4 * k) == l)

/-- Lane `sp` carries logical lane k in the place of lane l, whose fault `det` found (R509 steps 3 and 4). -/
def moveLane (dir k l sp det : Nat) (d : Dev) : Dev :=
  let d := d.drvUpd (fun x => { x with
    swap := x.swap.filter (fun e => !(e.1 == dir && e.2.1 % 16 == l)), lsOut := if dir = 1 then none else x.lsOut })
  let d := setSpareLane dir (if spareLane d dir = sp then 15 else spareLane d dir) (d.setFld (laneMap dir) (4 * k + 3) (4 * k) sp)
  let d := retireUnit 9 (16 * dir + l) (setUnit 9 (16 * dir + sp) 0 (endTest 9 (16 * dir + sp) d))
  let d := faultLog 9 det (16 * dir + l) 9 (if (sparesFor d 9 (16 * dir + l)).isEmpty then 1 else 0) 0 d
  fire 0x2FB ((d.setBit Reg.DRV_FLAGS 8).bump Reg.LANE_SWAPS)

/-- A lane fault of the transmit direction whose swap is due: a marker position at least 2 µs after the request or the detection. -/
def swapDue (d : Dev) : Option (Nat × Nat × Nat) := d.drv.swap.find? (fun e => e.1 == 0 && e.2.2 + 2000 ≤ d.clk)

/-- At a marker position the spare takes over the logical lane of a failed transmit lane (R509 step 3). -/
def swapTx (d : Dev) : Dev :=
  match swapDue d with
  | some e =>
    match laneCarries d 0 (e.2.1 % 16) with
    | some k => if spareLane d 0 = 15 then d else moveLane 0 k (e.2.1 % 16) (spareLane d 0) (e.2.1 / 16) d
    | none => d
  | none => d

/-- A TS1 block of physical lane ph with its RX_STATUS (R506). -/
def ts1Block (ph st : Nat) : Nat := 0xF1 + ph * 2 ^ 8 + st * 2 ^ 16
/-- The TS2 set that the device sends (R506): VERSION 1, ROLE 0, CAPS with MEM as PEER_MEM_EN, LOCAL_ID, its NEXT and its SESSION. -/
def ts2Set (d : Dev) (session : Word) : List Nat :=
  [0xF2 + 2 ^ 16 + 16 * d.fld Reg.DRV_CTRL 1 1 * 2 ^ 32, 0xF2 + 2 ^ 8 + (d.rd Reg.LOCAL_ID).toNat * 2 ^ 16,
   0xF2 + 2 * 2 ^ 8 + d.drv.next * 2 ^ 16 + session.toNat * 2 ^ 32]
/-- An LS block, the request to move a logical lane (R506). -/
def lsBlock (k : Nat) : Nat := 0xF3 + k * 2 ^ 8 + 2 ^ 16

/-- One block leaves on a physical lane through its scrambler (R488, R489); the sync header is 2 for a start block, 1 for a continuation
block. DEDUCED, log entry 106. -/
def laneBlock (ph hdr v : Nat) (d : Dev) : Dev :=
  let (w, st) := scrambleWord 64 v (Store.get (fun _ => 0) d.drv.scramble ph) 0
  d.drvUpd (fun x => { x with scramble := Store.set (fun _ => 0) x.scramble ph st, lanes := x.lanes ++ [(ph, hdr, BitVec.ofNat 64 w)] })

/-- A marker position: a swap that is due takes place, and every lane inserts a marker past its scrambler, with LOG 0x0F on a lane that
carries no logical lane (R489, R490, R509). -/
def markersOut (d : Dev) : Dev :=
  let d := swapTx d
  let k := d.drv.blocks / (8 * 16384) - 1
  let m := (List.range 9).map (fun l => (l, 2, marker ((laneCarries d 0 l).getD 15) l k))
  d.drvUpd (fun x => { x with lanes := x.lanes ++ m })

/-- Send one 8-byte block, a start block when `first`: block n goes to logical lane n mod 8, while the spare carries TS1 blocks, and after
every 16 384 lane blocks a marker follows (R490). -/
def sendBlock (first : Bool) (v : Nat) (d : Dev) : Dev :=
  let n := d.drv.blocks
  let k := n % 8
  let sp := spareLane d 0
  let d := laneBlock (d.fld Reg.LANE_MAP_TX (4 * k + 3) (4 * k)) (if first then 2 else 1) v (d.drvUpd (fun x => { x with blocks := n + 1 }))
  let d := if k = 7 && sp ≠ 15 then laneBlock sp 2 (ts1Block sp 7) d else d
  if (n + 1) % (8 * 16384) = 0 then markersOut d else d

/-- The 8-byte groups of a byte list, zero-padded (R492). -/
def groups8 : Nat → List Byte → List Nat
  | 0, _ => []
  | n + 1, b => leNat (b.take 8) :: groups8 n (b.drop 8)

/-- The blocks of a frame. -/
def frameGroups (f : DrvFrame) : List Nat := groups8 (frameSize f / 8) (frameBytes f)
/-- A frame leaves on the lanes, after the LS blocks that are due (R492, R509). -/
def sendWire (f : DrvFrame) (d : Dev) : Dev :=
  let n := d.drv.lsLeft
  let k := d.drv.lsOut.getD 0
  let d := d.drvUpd (fun x => { x with wire := some f, lanes := [], lsLeft := 0 })
  let d := forN n d (fun _ d => sendBlock true (lsBlock k) d)
  ((frameGroups f).zipIdx).foldl (fun d e => sendBlock (e.2 == 0) e.1 d) d

/-- IDLE frames fill the n blocks up to the next marker position (R492), of which the last blocks stay as those that left. -/
def idleFill (n : Nat) (d : Dev) : Dev :=
  let g := frameGroups { ty := 10 }
  forN n d (fun i d => sendBlock (i % g.length == 0) (g.getD (i % g.length) 0) (d.drvUpd (fun x => { x with lanes := [] })))

/-- The next marker position that R509 allows arrives: the spare carries the logical lane of a failed transmit lane from then on. -/
def laneSwapTx (d : Dev) : Dev :=
  match d.drv.swap.find? (fun e => e.1 == 0) with
  | some e =>
    if drvState d < 2 then d
    else
      let d := d.passClk (e.2.2 + 2000)
      idleFill (8 * 16384 - d.drv.blocks % (8 * 16384)) d
  | none => d

/-- Bytes held in the replay buffer. -/
def replayUsed (l : List TxFrame) : Nat := l.foldl (fun n t => n + frameSize t.f) 0

/-- Replace the outstanding frames, with REPLAY_USED. -/
def setOut (l : List TxFrame) (d : Dev) : Dev := (d.drvUpd (fun x => { x with out := l })).wr Reg.REPLAY_USED (w32 (replayUsed l))

/-- Credits come back for a stream: the count holds at 65 535 (R497). -/
def addCredits (s n : Nat) (d : Dev) : Dev :=
  if s < 64 then d.wr (Reg.TX_CREDITS s) (w32 (min 65535 ((d.rd (Reg.TX_CREDITS s)).toNat + n))) else d

/-- The device owes the peer credit units of a stream (R497). -/
def oweCredits (s n : Nat) (d : Dev) : Dev :=
  d.drvUpd (fun x => { x with owed := Store.set (fun _ => 0) x.owed s (Store.get (fun _ => 0) x.owed s + n) })

/-! ### Requests toward the peer (R513, R514) -/

/-- Queue a frame for its first transmission. -/
def queueFrame (who : Option Req) (f : DrvFrame) (d : Dev) : Dev := d.drvUpd (fun x => { x with queue := x.queue ++ [{ f := f, who := who }] })

/-- Whether the peer's memory can be reached: ACTIVE or RETRAIN, with MEM advertised (R508, R513). -/
def peerMem (d : Dev) : Bool := (drvState d == 2 || drvState d == 3) && d.bit Reg.DRV_STATUS 9

/-- A store of 1 to 4088 bytes to peer address a leaves as a MEM_WR frame; none is an access error. -/
def peerWrite (who : Req) (a : Nat) (b : List Byte) (d : Dev) : Option Dev :=
  if peerMem d then some (queueFrame (some who) { ty := 5, stream := 60, payload := natBytes 8 a ++ b } d) else none

/-- Whether a read of the peer must wait: 32 are outstanding. -/
def peerReadFull (d : Dev) : Bool := d.drv.reads.length ≥ 32

/-- A read of the peer leaves as a MEM_RD_REQ frame with the next tag; none is an access error. -/
def peerRead (who : Req) (a n : Nat) (d : Dev) : Option (Nat × Dev) :=
  if peerMem d then
    let t := d.drv.readTag
    let d := queueFrame (some who) { ty := 6, stream := 61, tag := w32 t, payload := natBytes 8 a ++ natBytes 4 n } d
    some (t, d.drvUpd (fun x => { x with readTag := (t + 1) % 65536, reads := x.reads ++ [{ tag := t, who := who, addr := a, len := n, at_ := d.clk }] }))
  else none

/-- A read of the peer completes: a waiting load of a yoke ends; another requester takes the answer. DEDUCED, log entry 112. -/
def peerAnswer (p : PeerRead) (status : Nat) (data : List Byte) (d : Dev) : Dev :=
  let d := d.drvUpd (fun x => { x with reads := x.reads.filter (fun r => r.tag != p.tag) })
  match p.who with
  | .yoke y => if y < 8 then yokeLoadAnswer y p.tag (match status with | 0 => .ok (w32 (leNat data)) | 2 => .poison | _ => .accessError) d else d
  | .jtag =>
    let st := if status = 0 || status = 2 then status else 1
    let v := if status = 0 then w32 (leNat data) else 0
    { d with jtag := { d.jtag with status := st, data := v } }
  | w => d.drvUpd (fun x => { x with answers := x.answers ++ [{ who := w, addr := p.addr, len := p.len, status := status, data := data }] })

/-- Take the answer that a requester waits for. DEDUCED, log entry 105. -/
def takeAnswer (who : Req) (d : Dev) : Option (PeerAnswer × Dev) :=
  match d.drv.answers.find? (fun a => a.who == who) with
  | some a =>
    let d := d.drvUpd (fun x => { x with answers := x.answers.erase a })
    some (a, if a.status = 3 then d else oweCredits 62 ((16 + a.data.length + 255) / 256) d)
  | none => none

/-- Whether a read of the peer by a requester is outstanding. -/
def peerReading (who : Req) (d : Dev) : Bool := d.drv.reads.any (fun r => r.who == who)

/-! ### Sessions (R498, R504 to R508) -/

/-- The session ends (R508): outstanding frames are discarded, reads complete with an access error, and LINK_DOWN sets.
DEDUCED, log entry 106. -/
def endSession (d : Dev) : Dev :=
  let had := d.drv.session.isSome
  let n := d.drv.out.length + d.drv.queue.length
  let d := d.drv.reads.foldl (fun d r => peerAnswer r 1 [] d) d
  let d := d.drvUpd (fun x => { x with
    next := 0, txSeq := 0, queue := [], resend := none, fails := 0, nakAt := none, nakDue := false, ackDue := false, badRun := 0
    owed := [], session := none })
  let d := forN 64 (setOut [] d) (fun s d => d.wr (Reg.TX_CREDITS s) 0)
  let d := setDrvState 0 (d.bumpBy Reg.DROPPED n)
  if had then fire 0x2FA (d.setBit Reg.DRV_FLAGS 1) else d

/-- A retraining starts, with the session kept (R504, R505). -/
def retrain (d : Dev) : Dev :=
  let c := d.clk
  ((setDrvState 3 (d.drvUpd (fun x => { x with start := c, badRun := 0, ts := (List.range 9).map (fun l => ts1Block l 0) }))).setBit Reg.DRV_FLAGS 2).bump Reg.RETRAINS

/-- The transmit lane map of a new session (R487). -/
def newLaneMap (d : Dev) : Dev :=
  let g := goodLanes d 0
  let d := forN 8 d (fun k d => setUnit 9 (g.getD k 0) 0 (d.setFld Reg.LANE_MAP_TX (4 * k + 3) (4 * k) (g.getD k 0)))
  match g[8]? with
  | some l => setUnit 9 l 1 (setSpareLane 0 l d)
  | none => setSpareLane 0 15 d

/-- A received marker that passes the check of bytes 4 to 7 (R490, R491). -/
def markOk (m : RxMark) : Bool :=
  m.lane < 9 && m.word.extractLsb' 32 32 == ~~~ m.word.extractLsb' 0 32 && m.word.extractLsb' 0 8 == 0xF0
/-- LOG of a marker. -/
def markLog (m : RxMark) : Nat := (m.word.extractLsb' 8 8).toNat
/-- The receiver can align its lanes: valid markers name all eight logical lanes, and no two lanes, nor a lane and the clock, lie more than
20 ns apart (R491). -/
def rxAligned (marks : List RxMark) : Bool :=
  let ms := marks.filter markOk
  (List.range 8).all (fun k => ms.any (fun m => markLog m == k)) &&
    ms.all (fun m => m.skew.natAbs ≤ 20000 && ms.all (fun x => (m.skew - x.skew).natAbs ≤ 20000))
/-- The receiver delays each lane to the latest, and takes each logical lane from the physical lane whose marker names it; a lane that is
not retired and whose marker names none is the spare (R491). DEDUCED, log entry 106. -/
def rxLaneMap (marks : List RxMark) (d : Dev) : Dev :=
  let ms := marks.filter markOk
  let latest := ms.foldl (fun t m => max t m.skew) (-20000)
  let d := d.drvUpd (fun x => { x with align := ms.foldl (fun a m => Store.set (fun _ => 0) a m.lane (latest - m.skew).toNat) [] })
  let d := forN 8 d (fun k d =>
    match ms.find? (fun m => markLog m == k) with
    | some m => setUnit 9 (16 + m.lane) 0 (d.setFld Reg.LANE_MAP_RX (4 * k + 3) (4 * k) m.lane)
    | none => d)
  match ms.find? (fun m => markLog m == 15 && d.unit 9 (16 + m.lane) ≤ 1) with
  | some m => setUnit 9 (16 + m.lane) 1 (setSpareLane 1 m.lane d)
  | none => setSpareLane 1 15 d

/-- What the device advertises for a stream in a new session (R496). -/
def advertised (d : Dev) (s : Nat) : Nat :=
  if s < 60 then
    let c := d.rd (Reg.DRX_CFG s)
    if bitOf c 29 then min 65535 ((2 ^ fld c 20 16 - (d.rd (Reg.DRX_WR s) - d.rd (Reg.DRX_RD s)).toNat) / 256) else 0
  else match s with
    | 60 => 128
    | 61 => 32
    | 62 => 256
    | _ => 8

/-- The first sequenced frame of a session (R498). -/
def firstCredit (d : Dev) : DrvFrame :=
  { ty := 2, payload := (List.range 64).flatMap (fun s => natBytes 1 s ++ [0] ++ natBytes 2 (advertised d s)) }

/-- A SESSION value that is not 0 and differs from the last one (R507). DESIGN CHOICE, log entry 107. -/
def chooseSession (v last : Word) : Word := if v != 0 && v != last then v else if last = 1 then 2 else 1

/-! ### Sequence numbers and replay (R499 to R503) -/

/-- The place of the outstanding frame with a sequence number. -/
def outPlace (d : Dev) (seq : Nat) : Option Nat := d.drv.out.findIdx? (fun t => t.f.seq == seq)

/-- The frames before place n are freed; a replay goes on with the first frame not yet resent. -/
def freeFrames (n : Nat) (d : Dev) : Dev :=
  if n = 0 then d
  else
    let l := d.drv.out.drop n
    let d := setOut l d
    let c := d.clk
    d.drvUpd (fun x => { x with
      fails := 0, timer := c
      resend := match x.resend with
        | some q => if l.any (fun t => t.f.seq == q) then some q else (l.head?).map (fun t => t.f.seq)
        | none => none })

/-- An ACK_SEQ (R502). -/
def ackIn (a : Nat) (d : Dev) : Dev :=
  match outPlace d a with
  | some n => freeFrames (n + 1) d
  | none => d

/-- Start a replay from an outstanding frame (R502 to R504). DEDUCED, log entry 106. -/
def startReplay (seq : Nat) (d : Dev) : Dev :=
  let go : Bool := match d.drv.resend with
    | some q => (match outPlace d seq, outPlace d q with | some i, some j => i < j | _, _ => true)
    | none => true
  if !go then d
  else if d.drv.fails ≥ 8 then retrain (d.drvUpd (fun x => { x with resend := none }))
  else
    let c := d.clk
    (d.drvUpd (fun x => { x with resend := some seq, fails := x.fails + 1, timer := c })).bump Reg.REPLAYS

/-- Owe the peer a NAK, unless one was sent since the last acceptance and within 2 µs (R501). -/
def oweNak (d : Dev) : Dev :=
  let held : Bool := match d.drv.nakAt with | some t => d.clk < t + 2000 | none => false
  if held then d else d.drvUpd (fun x => { x with nakDue := true })

/-- A bad frame is discarded whole (R495, R501, R504). -/
def badFrame (startBad : Bool) (d : Dev) : Dev :=
  if drvState d = 2 then
    let d := oweNak (d.bump Reg.BAD_FRAMES)
    let n := if startBad then d.drv.badRun + 1 else 0
    let d := d.drvUpd (fun x => { x with badRun := n })
    if n > 4 then retrain d else d
  else d

/-- The receiver's handling of a frame of type `ty` (R499): whether it is performed, and the state after. DESIGN CHOICE, log entry 117. -/
def rxFrame (ty : Nat) (f : DrvFrame) (d : Dev) : Bool × Dev :=
  let f := { f with ty := ty }
  if drvState d ≠ 2 then (false, d)
  else if !(frameRow f && frameReserved f) then (false, badFrame false d)
  else
    let d := d.drvUpd (fun x => { x with badRun := 0 })
    let d := match f.ack with | some a => ackIn a d | none => d
    if !sequenced ty then (true, d)
    else if f.seq = d.drv.next then
      let d := d.drvUpd (fun x => { x with next := (x.next + 1) % 65536, nakAt := none, ackDue := true })
      (true, match f.cr with | some (s, n) => addCredits s n d | none => d)
    else
      let b := (d.drv.next + 65536 - f.seq) % 65536
      (false, if 1 ≤ b && b ≤ 32768 then d.drvUpd (fun x => { x with ackDue := true }) else oweNak d)

/-- An accepted CREDIT frame applies its entries. -/
def applyCredits : List Byte → Dev → Dev
  | s :: _ :: a :: b :: l, d => applyCredits l (addCredits s.toNat (leNat [a, b]) d)
  | _, d => d

/-- A NAK frame (R502). -/
def nakIn (a : Nat) (d : Dev) : Dev :=
  let d := d.bump Reg.NAKS_RCVD
  match outPlace d ((a + 1) % 65536) with
  | some n => startReplay ((a + 1) % 65536) (freeFrames n d)
  | none => d

/-! ### Sending (R497, R502, R517) -/

/-- Attach an acknowledgement that is due (R500). -/
def withAck (f : DrvFrame) (d : Dev) : DrvFrame × Dev :=
  if d.drv.ackDue then
    ({ f with ack := some ((d.drv.next + 65535) % 65536) }, d.drvUpd (fun x => { x with ackDue := false }))
  else (f, d)

/-- Attach returned credits to a frame that can carry them. -/
def withCredits (f : DrvFrame) (d : Dev) : DrvFrame × Dev :=
  match f.ty == 2, d.drv.owed with
  | false, (s, n) :: _ =>
    let m := min n 65535
    ({ f with cr := some (s, m) }, d.drvUpd (fun x => { x with owed := Store.set (fun _ => 0) x.owed s (n - m) }))
  | _, _ => (f, d)

/-- The first transmission of a sequenced frame, if its credits are held and it fits the replay buffer. -/
def sendNew (t : TxFrame) (d : Dev) : Option Dev :=
  let held := (d.rd (Reg.TX_CREDITS t.f.stream)).toNat
  let cost := frameCost t.f
  if cost ≤ held && replayUsed d.drv.out + frameSize t.f ≤ 262144 && d.drv.out.length < 32768 then
    let d := if cost = 0 then d else d.wr (Reg.TX_CREDITS t.f.stream) (w32 (held - cost))
    let (f, d) := withCredits { t.f with seq := d.drv.txSeq } d
    let (f, d) := withAck f d
    let c := d.clk
    let first := d.drv.out.isEmpty
    let d := setOut (d.drv.out ++ [{ t with f := f }]) d
    some (sendWire f (d.drvUpd (fun x => { x with txSeq := (x.txSeq + 1) % 65536, timer := if first then c else x.timer })))
  else none

/-- The first queued frame of a stream that no earlier frame of its requester holds back (R513). -/
def pickQueued (s : Nat) (seen : List Req) : List TxFrame → Option TxFrame
  | [] => none
  | t :: l =>
    let blocked : Bool := match t.who with | some w => seen.contains w | none => false
    if t.f.ty ≠ 2 && t.f.stream = s && !blocked then some t
    else if t.f.ty ≠ 2 && t.f.stream = s then none
    else pickQueued s (match t.who with | some w => w :: seen | none => seen) l

/-- Read n bytes of a ring of 2^lg bytes at a base, from a count on. -/
def ringRead (base lg cnt n : Nat) (s : State) : List Byte × Bool × State :=
  let o := cnt % 2 ^ lg
  let m := min n (2 ^ lg - o)
  let (a, p, s) := memRead 2 (base + o) m s
  let (b, q, s) := memRead 2 base (n - m) s
  (a ++ b, p || q, s)

/-- What a ring of records gives: the bytes, or free values where a word of them is poisoned. DESIGN CHOICE, log entry 102. -/
def ringData (base lg cnt n : Nat) (s : State) : List Byte × State :=
  let (b, p, s) := ringRead base lg cnt n s
  if p then
    let f := s.dev.free
    ((List.range n).map (fun i => (Config.freeWord (f + i)).setWidth 8), s.upd (fun d => { d with free := f + n }))
  else (b, s)

/-- Write bytes into a ring, wrapping at its end. -/
def ringWrite (base lg cnt : Nat) (b : List Byte) (s : State) : State :=
  let o := cnt % 2 ^ lg
  let m := min b.length (2 ^ lg - o)
  memWrite base (b.drop m) (memWrite (base + o) (b.take m) s)

/-- The base of a ring whose BASE_LO and CFG registers are given. -/
def ringBase (d : Dev) (lo cfg : Nat) : Nat := (d.rd lo).toNat + d.fld cfg 15 0 * 2 ^ 32

/-- The next record of a stream's transmit ring is sent as a DATA frame (R517). -/
def sendRecord (s : Nat) (st : State) : State :=
  let d := st.dev
  let cfg := Reg.DTX_CFG s
  let wr := d.rd (Reg.DTX_WR s)
  let rd := d.rd (Reg.DTX_RD s)
  if !d.bit cfg 29 || d.drv.stopped.contains s || wr = rd then st
  else
    let base := ringBase d (Reg.DTX_BASE_LO s) cfg
    let lg := d.fld cfg 20 16
    if !memOk d base (2 ^ lg) || (base < 0xC00000000 && !d.hbmUp) then st
    else
      let (h, st) := ringData base lg rd.toNat 16 st
      let n := leNat (h.take 2)
      if n = 0 || n > 4096 then st.upd (fun d => (d.drvUpd (fun x => { x with stopped := insNat s x.stopped })).setBit Reg.DRV_FLAGS 6)
      else
        let f : DrvFrame := { ty := 1, stream := s, eom := (h.getD 2 0).getLsbD 0 }
        if frameCost { f with payload := List.replicate n 0 } > (d.rd (Reg.TX_CREDITS s)).toNat then st
        else
          let (b, st) := ringData base lg (rd.toNat + 16) n st
          match sendNew { f := { f with payload := b } } st.dev with
          | some d => { st with dev := (snoopStream 2 s b d).wr (Reg.DTX_RD s) (rd + w32 ((16 + n + 255) / 256 * 256)) }
          | none => st

/-- The device sends a frame (R497, R502). A replay comes before any new sequenced frame. `sel` below 64 asks for the next frame of
that stream, 64 for a CREDIT frame, 65 for an unsequenced frame: a NAK or an ACK that is due, else IDLE. -/
def frameSend (sel : Nat) (st : State) : State :=
  let d := st.dev
  if drvState d ≠ 2 then st
  else if sel ≥ 65 then
    let a := some ((d.drv.next + 65535) % 65536)
    let f : DrvFrame := if d.drv.nakDue then { ty := 4, ack := a } else if d.drv.ackDue then { ty := 3, ack := a } else { ty := 10 }
    st.upd (fun d =>
      let c := d.clk
      let d := if d.drv.nakDue then (d.drvUpd (fun x => { x with nakDue := false, nakAt := some c })).bump Reg.NAKS_SENT else d
      sendWire f (d.drvUpd (fun x => { x with ackDue := false })))
  else match d.drv.resend with
    | some q =>
      match outPlace d q with
      | some n => st.upd (fun d =>
          let d := match d.drv.out[n]? with | some t => sendWire t.f d | none => d
          d.drvUpd (fun x => { x with resend := (x.out[n + 1]?).map (fun t => t.f.seq) }))
      | none => st.upd (fun d => d.drvUpd (fun x => { x with resend := none }))
    | none =>
      match d.drv.queue.find? (fun t => t.f.ty == 2) with
      | some t =>
        if sel = 64 then
          match sendNew t d with
          | some d => { st with dev := d.drvUpd (fun x => { x with queue := x.queue.erase t }) }
          | none => st
        else st
      | none =>
        if sel = 64 then
          if d.drv.owed.isEmpty then st
          else
            let es := d.drv.owed.take 64
            let f : DrvFrame := { ty := 2, payload := es.flatMap (fun e => natBytes 1 e.1 ++ [0] ++ natBytes 2 (min e.2 65535)) }
            match sendNew { f := f } d with
            | some d => { st with dev := d.drvUpd (fun x => { x with
                owed := es.foldl (fun o e => Store.set (fun _ => 0) o e.1 (e.2 - min e.2 65535)) x.owed }) }
            | none => st
        else match pickQueued sel [] d.drv.queue with
          | some t =>
            match sendNew t d with
            | some d => { st with dev := d.drvUpd (fun x => { x with queue := x.queue.erase t }) }
            | none => st
          | none => if sel < 60 then sendRecord sel st else st

/-! ### Training (R505, R507) -/

/-- Training starts while EN is 1 (R505); with too few lanes the link stays DOWN (R510). -/
def trainingStart (d : Dev) : Dev :=
  if d.bit Reg.DRV_CTRL 0 && drvState d = 0 && !d.drv.dead && d.pwr != 5 then
    let c := d.clk
    setDrvState 1 (d.drvUpd (fun x => { x with start := c, ts := (List.range 9).map (fun l => ts1Block l 0) }))
  else d

/-- What the peer's TS2 sets show (R506). -/
def peerTs2 (role caps : Nat) (id : Word) (d : Dev) : Dev :=
  let d := (d.setFld Reg.DRV_STATUS 4 3 role).setFld Reg.DRV_STATUS 8 5 caps
  (d.setFld Reg.DRV_STATUS 9 9 (caps / 16)).wr Reg.PEER_ID id

/-- Eight identical TS2 sets have been received over lanes that `marks` have aligned (R491): the session is continued or new (R507). `peerKeeps` says that the device's RX_NEXT
names a frame outstanding at the peer, or the one after the last it sent. DEDUCED, log entry 106; DESIGN CHOICE, log entry 107. -/
def trainingDone (role caps : Nat) (id : Word) (rxNext : Nat) (session : Word) (peerKeeps : Bool)
    (marks : List RxMark) (d : Dev) : Dev :=
  if !(drvState d = 1 || drvState d = 3) || !rxAligned marks then d
  else
    let same : Bool := match d.drv.session with | some (_, p) => p == session | none => false
    let named := (outPlace d rxNext).isSome || rxNext == d.drv.txSeq
    if same && peerKeeps && named then
      let n := (outPlace d rxNext).getD d.drv.out.length
      let d := d.drvUpd (fun x => { x with ts := ts2Set d (match d.drv.session with | some (v, _) => v | none => 0) })
      let d := freeFrames n (d.drvUpd (fun x => { x with resend := none, nakAt := none, badRun := 0, fails := 0 }))
      let d := setDrvState 2 (peerTs2 role caps id d)
      let d := rxLaneMap marks (d.setFld Reg.DRV_STATUS 2 2 0)
      let d := match d.drv.out with | t :: _ => startReplay t.f.seq d | [] => d
      fire 0x2F9 (d.setBit Reg.DRV_FLAGS 0)
    else if (goodLanes d 0).length < 8 then d
    else
      let d := if d.drv.session.isSome then endSession d else d
      let (v, d) := d.fresh
      let v := chooseSession v d.drv.lastSession
      let d := rxLaneMap marks (newLaneMap (d.drvUpd (fun x => { x with ts := ts2Set d v })))
      let d := d.drvUpd (fun x => { x with
        session := some (v, session), lastSession := v, next := 0, txSeq := 0, queue := [{ f := firstCredit d }], swap := [], owed := []
        lsOut := none, lsLeft := 0
        nakAt := none, nakDue := false, ackDue := false, fails := 0, badRun := 0 })
      let d := rejoinUnit Reg.DRV_GEN (fun d => d) (setDrvState 2 (peerTs2 role caps id d))
      fire 0x2F9 ((d.setFld Reg.DRV_STATUS 2 2 1).setBit Reg.DRV_FLAGS 0)

/-- Training has not reached ACTIVE within 10 ms (R505): the session ends and training starts again. -/
def trainingTimeout (d : Dev) : Dev :=
  if drvState d = 1 || drvState d = 3 then trainingStart (endSession (d.passClk (d.drv.start + 10000000))) else d

/-- A DRV_CTRL write (R505, R508). -/
def drvCtrlWrite (q : Req) (v : Word) (d : Dev) : Dev :=
  if !d.keeper q then d.deny
  else
    let was := d.bit Reg.DRV_CTRL 0
    let d := d.wr Reg.DRV_CTRL (v &&& 0xF)
    let d := if was && !bitOf v 0 then endSession d else d
    let d := if bitOf v 5 && drvState d ≥ 2 then endSession d else d
    (if bitOf v 4 && drvState d = 2 then retrain d else d).okay

/-- 2 µs pass without an acknowledgement that frees a frame (R502). -/
def replayTimeout (d : Dev) : Dev :=
  if drvState d = 2 then
    match d.drv.out with
    | t :: _ => startReplay t.f.seq (d.passClk (d.drv.timer + 2000))
    | [] => d
  else d

/-! ### Lane sparing (R509, R510) -/

/-- A lane fails: `det` is 2 for the steward's watchdog, 5 for a receiver. A logical lane waits for the next marker to move onto the
spare; without a spare the session ends. -/
def laneFault (dir l det : Nat) (d : Dev) : Dev :=
  match laneCarries d dir l with
  | some k =>
    if d.unit 9 (16 * dir + l) ≠ 0 || d.drv.swap.any (fun e => e.1 == dir && e.2.1 % 16 == l) then d
    else if spareLane d dir = 15 then
      let d := retireUnit 9 (16 * dir + l) (endSession d)
      faultLog 9 det (16 * dir + l) 2 6 0 ((d.drvUpd (fun x => { x with dead := true })).setBit Reg.DRV_FLAGS 9)
    else
      let c := d.clk
      let ask := dir == 1 && det == 5
      d.drvUpd (fun x => { x with
        swap := x.swap ++ [(dir, l + 16 * det, c)], lsOut := if ask then some k else x.lsOut, lsLeft := if ask then 4 else x.lsLeft })
  | none =>
    if spareLane d dir = l then faultLog 9 det (16 * dir + l) 2 1 0 (retireUnit 9 (16 * dir + l) (setSpareLane dir 15 d)) else d

/-- The peer asks, by LS blocks, for a logical lane of the transmit direction to move onto the spare. -/
def lsIn (k : Nat) (d : Dev) : Dev :=
  if drvState d ≥ 2 then laneFault 0 (d.fld Reg.LANE_MAP_TX (4 * k + 3) (4 * k)) 5 d else d

/-- A marker arrives in a session: the receiver takes the logical lane that it names from its lane (R491, R509 step 4). A move that the
device has not asked for is one that the peer's own watchdog began. DEDUCED, log entry 106. -/
def laneSwapRx (m : RxMark) (d : Dev) : Dev :=
  let k := markLog m
  let l := d.fld Reg.LANE_MAP_RX (4 * k + 3) (4 * k)
  if drvState d < 2 || !markOk m || 8 ≤ k || l = m.lane || (laneCarries d 1 m.lane).isSome then d
  else
    let det := match d.drv.swap.find? (fun e => e.1 == 1 && e.2.1 % 16 == l) with | some e => e.2.1 / 16 | none => 5
    moveLane 1 k l m.lane det d

/-- The loopback test of a retired lane ends (R509, R510). -/
def laneTestDone (dir l : Nat) (pass : Bool) (d : Dev) : Dev :=
  if d.testing.contains (9, 16 * dir + l) then
    let retired := d.unit 9 (16 * dir + l) == 2
    let d := unitTestDone 9 (16 * dir + l) pass d
    if pass && retired then
      let d := if spareLane d dir = 15 then setSpareLane dir l d else d
      d.drvUpd (fun x => { x with dead := false })
    else if !pass && spareLane d dir = l then setSpareLane dir 15 d
    else d
  else d

/-- A read of the peer is left without a response for 20 µs (R513). -/
def peerReadTimeout (tag : Nat) (d : Dev) : Dev :=
  match d.drv.reads.find? (fun r => r.tag == tag) with
  | some r => peerAnswer r 3 [] (d.passClk (r.at_ + 20000))
  | none => d

/-! ### The rings' registers (R520) -/

/-- A write of RX_RD (R516): the freed units return as credits. -/
def rxRdWrite (s : Nat) (v : Word) (d : Dev) : Dev :=
  let wr := d.rd (Reg.DRX_WR s)
  let old := d.rd (Reg.DRX_RD s)
  if v.toNat % 256 ≠ 0 || (wr - v).toNat > 2 ^ d.fld (Reg.DRX_CFG s) 20 16 then (d.setBit Reg.DRV_FLAGS 7).okay
  else
    let n := (v - old).toNat
    ((if n ≤ (wr - old).toNat && n ≠ 0 then oweCredits s (n / 256) d else d).wr (Reg.DRX_RD s) v).okay

/-- A write of TX_WR (R517). -/
def txWrWrite (s : Nat) (v : Word) (d : Dev) : Dev :=
  if v.toNat % 256 ≠ 0 || (v - d.rd (Reg.DTX_RD s)).toNat > 2 ^ d.fld (Reg.DTX_CFG s) 20 16 then (d.setBit Reg.DRV_FLAGS 7).okay
  else (d.wr (Reg.DTX_WR s) v).okay

/-- A write of a ring's BASE_LO: refused while EN is 1. -/
def ringBaseWrite (lo cfg : Nat) (v : Word) (d : Dev) : Dev :=
  if d.bit cfg 29 then (d.setBit Reg.DRV_FLAGS 7).okay else (d.wr lo (v &&& 0xFFFFFF00)).okay

/-- Whether a ring's CFG refuses a value: LOG2 and the place of the ring. -/
def ringCfgBad (lo cfg : Nat) (v : Word) (d : Dev) : Bool :=
  let lg := fld v 20 16
  lg < 12 || 24 < lg || (d.bit cfg 29 && lg ≠ d.fld cfg 20 16) ||
    (bitOf v 29 && !memOk d ((d.rd lo).toNat + fld v 15 0 * 2 ^ 32) (2 ^ lg))
/-- A write of a ring's CFG, which a ring accepts: a change of EN to 1 zeroes WR and RD. -/
def ringCfgTake (cfg wr rd : Nat) (v : Word) (d : Dev) : Dev :=
  let d := if bitOf v 29 && !d.bit cfg 29 then (d.wr wr 0).wr rd 0 else d
  (d.wr cfg v).okay

/-- A write of RX_CFG. -/
def rxCfgWrite (s : Nat) (v : Word) (d : Dev) : Dev :=
  if ringCfgBad (Reg.DRX_BASE_LO s) (Reg.DRX_CFG s) v d then (d.setBit Reg.DRV_FLAGS 7).okay
  else ringCfgTake (Reg.DRX_CFG s) (Reg.DRX_WR s) (Reg.DRX_RD s) (v &&& 0xE01FFFFF) d
/-- A write of TX_CFG, which lets a stopped ring go on (R517). -/
def txCfgWrite (s : Nat) (v : Word) (d : Dev) : Dev :=
  if ringCfgBad (Reg.DTX_BASE_LO s) (Reg.DTX_CFG s) v d then (d.setBit Reg.DRV_FLAGS 7).okay
  else ringCfgTake (Reg.DTX_CFG s) (Reg.DTX_WR s) (Reg.DTX_RD s) (v &&& 0x201FFFFF)
    (d.drvUpd (fun x => { x with stopped := x.stopped.erase s }))

/-! ### The steps -/

/-- DROVE_TRAINING_START (R505). -/
def execDroveTrainingStart (s : State) : Host.Outcome State Fault Refusal := s.next trainingStart
/-- DROVE_TRAINING_DONE (R505, R507). -/
def execDroveTrainingDone (role : Fin 3) (caps : Fin 32) (peer : Word) (rxNext : Nat) (session : Word) (peerKeeps : Bool)
    (s : State) (marks : List RxMark := []) : Host.Outcome State Fault Refusal :=
  s.next (trainingDone role caps peer rxNext session peerKeeps marks)
/-- DROVE_TRAINING_TIMEOUT (R505). -/
def execDroveTrainingTimeout (s : State) : Host.Outcome State Fault Refusal := s.next trainingTimeout
/-- DROVE_RETRAIN: a DRV_CTRL write with RETRAIN. -/
def execDroveRetrain (q : Req) (s : State) : Host.Outcome State Fault Refusal :=
  s.next (fun d => drvCtrlWrite q (d.rd Reg.DRV_CTRL &&& 0xF ||| 0x10) d)
/-- DROVE_RESET_SESSION: a DRV_CTRL write with RESET_SESSION. -/
def execDroveResetSession (q : Req) (s : State) : Host.Outcome State Fault Refusal :=
  s.next (fun d => drvCtrlWrite q (d.rd Reg.DRV_CTRL &&& 0xF ||| 0x20) d)
/-- DROVE_FRAME_SEND (R497). -/
def execDroveFrameSend (sel : Fin 66) (s : State) : Host.Outcome State Fault Refusal := .next (frameSend sel s)
/-- DROVE_CREDIT_RX (R497). -/
def execDroveCreditRx (f : DrvFrame) (s : State) : Host.Outcome State Fault Refusal :=
  s.next (fun d => match rxFrame 2 f d with | (true, d) => applyCredits f.payload d | (_, d) => d)
/-- DROVE_ACK_RX (R502). -/
def execDroveAckRx (f : DrvFrame) (s : State) : Host.Outcome State Fault Refusal := s.next (fun d => (rxFrame 3 f d).2)
/-- DROVE_NAK_RX (R502). -/
def execDroveNakRx (f : DrvFrame) (s : State) : Host.Outcome State Fault Refusal :=
  s.next (fun d => match rxFrame 4 f d with | (true, d) => nakIn (f.ack.getD 0) d | (_, d) => d)
/-- DROVE_COP_REQ_RX: accepted and discarded, with PEER_PROTO (R514). -/
def execDroveCopReqRx (f : DrvFrame) (s : State) : Host.Outcome State Fault Refusal :=
  s.next (fun d => match rxFrame 8 f d with | (true, d) => d.setBit Reg.DRV_FLAGS 4 | (_, d) => d)
/-- DROVE_IDLE_RX (R494). -/
def execDroveIdleRx (f : DrvFrame) (s : State) : Host.Outcome State Fault Refusal := s.next (fun d => (rxFrame 10 f d).2)
/-- DROVE_BAD_FRAME (R495). -/
def execDroveBadFrame (startBad : Bool) (s : State) : Host.Outcome State Fault Refusal := s.next (badFrame startBad)
/-- DROVE_REPLAY_TIMEOUT (R502). -/
def execDroveReplayTimeout (s : State) : Host.Outcome State Fault Refusal := s.next replayTimeout
/-- DROVE_LANE_FAULT (R509). -/
def execDroveLaneFault (rx : Bool) (l : Fin 9) (watchdog : Bool) (s : State) : Host.Outcome State Fault Refusal :=
  s.next (laneFault (if rx then 1 else 0) l (if watchdog then 2 else 5))
/-- DROVE_LS_RX (R509). -/
def execDroveLsRx (k : Fin 8) (s : State) : Host.Outcome State Fault Refusal := s.next (lsIn k)
/-- DROVE_LANE_SWAP (R509): of a transmit lane, or of a receive lane by the marker that arrives. -/
def execDroveLaneSwap (rx : Bool) (s : State) (mark : RxMark := {}) : Host.Outcome State Fault Refusal :=
  s.next (if rx then laneSwapRx mark else laneSwapTx)
/-- DROVE_LANE_TEST_DONE (R509). -/
def execDroveLaneTestDone (rx : Bool) (l : Fin 9) (pass : Bool) (s : State) : Host.Outcome State Fault Refusal :=
  s.next (laneTestDone (if rx then 1 else 0) l pass)
/-- PEER_READ_TIMEOUT (R513). -/
def execPeerReadTimeout (tag : Nat) (s : State) : Host.Outcome State Fault Refusal := s.next (peerReadTimeout tag)
/-- DROVE_RX_RD_WRITE (R516). -/
def execDroveRxRdWrite (n : Fin 60) (v : Word) (s : State) : Host.Outcome State Fault Refusal := s.next (rxRdWrite n v)
/-- DROVE_TX_WR_WRITE (R517). -/
def execDroveTxWrWrite (n : Fin 60) (v : Word) (s : State) : Host.Outcome State Fault Refusal := s.next (txWrWrite n v)

end Sys2Proof.Machine
end

