-- ==== Sys2Proof/Machine/PhRegs.lean ====
section
/-! DEFINITION. The Packhorse below register space (R369 to R372, R376, R380, R381, R384 to R387): commands of a channel, its
registers, completion queues, takeover by a spare. -/
namespace Sys2Proof.Machine

/-- A channel beyond its registers. -/
def Dev.ph (d : Dev) (n : Nat) : PhSt := Store.get (fun _ => {}) d.phs n
/-- Change a channel beyond its registers. -/
def Dev.updPh (d : Dev) (n : Nat) (f : PhSt → PhSt) : Dev := { d with phs := Store.set (fun _ => {}) d.phs n (f (d.ph n)) }

/-- STATE: 0 IDLE, 1 RUNNING, 2 WAIT_STEP, 3 STOPPED, 4 HALTED, 5 TAKEOVER, 6 CQ_STALL. -/
def phState (d : Dev) (n : Nat) : Nat := d.fld (Reg.PCH_STATUS n) 2 0
/-- Set STATE. -/
def setPhState (n st : Nat) (d : Dev) : Dev := d.setFld (Reg.PCH_STATUS n) 2 0 st
/-- PACE 1. -/
def phStepped (d : Dev) (n : Nat) : Bool := d.bit (Reg.PCH_CFG n) 0

/-- The address of the descriptor at RING_HEAD (R371). -/
def descAddr (d : Dev) (n : Nat) : Nat :=
  (d.rd (Reg.RING_BASE_LO n)).toNat + (d.rd (Reg.RING_BASE_HI n)).toNat * 2 ^ 32 + 32 * (d.rd (Reg.RING_HEAD n)).toNat

/-- Whether a requester of the memories can reach [a, a + n) now (R48, R558). -/
def memUp (d : Dev) (a n : Nat) : Bool := memOk d a n && (a ≥ 0xC00000000 || d.hbmUp)

/-- Whether the descriptor at RING_HEAD reads OWN 0. -/
def ownClear (n : Nat) (s : State) : Bool × State :=
  let a := descAddr s.dev n
  if memUp s.dev a 32 then
    let (b, p, s) := memRead 2 a 32 s
    (!p && !bitOf (w32 (leNat (b.take 4))) 31, s)
  else (false, s)

/-- A free-running channel goes on to RING_HEAD, or enters IDLE where it reads OWN 0 (R376, R377). DEDUCED, log entry 93. -/
def phProceed (n : Nat) (s : State) : State :=
  let (clear, s) := ownClear n s
  s.upd (setPhState n (if clear && (s.dev.ph n).desc.isNone then 0 else 1))

/-- START (R376). DEDUCED, log entry 93. -/
def phStart (n : Nat) (a : Option Arrival) (s : State) : State :=
  let st := phState s.dev n
  if (st = 0 || st = 3) && !(s.dev.ph n).broken then
    if phStepped s.dev n then s.upd (setPhState n 2)
    else phProceed n (s.upd (fun d => d.updPh n (fun p => { p with run := a, stepped := false })))
  else s

/-- STEP (R376): one descriptor of a stepped channel, or STARVED where OWN is 0. DEDUCED, log entry 93. -/
def phStep (n : Nat) (a : Option Arrival) (s : State) : State :=
  if phState s.dev n = 2 && phStepped s.dev n && !(s.dev.ph n).broken then
    let (clear, s) := ownClear n s
    if clear && (s.dev.ph n).desc.isNone then s.upd (fun d => d.setBit (Reg.PCH_FLAGS n) 1)
    else s.upd (fun d => setPhState n 1 (d.updPh n (fun p => { p with run := a, stepped := true })))
  else s

/-- STOP (R376): units are whole in this model, so a channel with work enters STOPPED; one that waits for its completion queue goes on
with that completion at its next START. DEDUCED, log entry 93. -/
def phStop (n : Nat) (d : Dev) : Dev :=
  if phState d n = 1 || phState d n = 2 || phState d n = 6 then setPhState n 3 d else d

/-- The present descriptor ends with a status. -/
def phEnd (n status : Nat) (d : Dev) : Dev :=
  d.updPh n (fun p => { p with desc := p.desc.map (fun x => { x with status := status, ended := true }) })

/-- ABORT in RUNNING or STOPPED ends the descriptor with ABORTED (R381), unless it has ended already. -/
def phAbort (n : Nat) (d : Dev) : Dev :=
  match (d.ph n).desc with
  | some x => if (phState d n = 1 || phState d n = 3) && !x.ended then setPhState n 1 (phEnd n 6 d) else d
  | none => d

/-- A NOSPARE record is still owed (R385). -/
def phOwesRecord (d : Dev) (n : Nat) : Bool := match (d.ph n).desc with | some x => x.ended && x.status == 8 | none => false

/-- CLEAR returns a HALTED channel to IDLE; one without a working physical channel needs a spare first (R385). -/
def phClear (n : Nat) (d : Dev) : Dev :=
  if phState d n ≠ 4 || phOwesRecord d n then d
  else if (d.ph n).broken then
    match takeSpare 5 d with
    | some (i, d) =>
      let d := (setPhState n 0 d).setFld (Reg.PCH_STATUS n) 13 8 i
      (d.updPh n (fun p => { p with broken := false })).wr (Reg.PCH_GEN n) (d.rd Reg.GLOBAL_GEN)
    | none => d
  else setPhState n 0 d

/-- A CH_CMD write. -/
def phCmd (q : Req) (n : Nat) (v : Word) (s : State) : State :=
  if s.dev.bit (Reg.PCH_CFG n) 3 && !s.dev.keeper q then s.upd Dev.deny
  else
    let s := if bitOf v 31 then
        match fld v 2 0 with
        | 1 => phStart n none s
        | 2 => phStep n none s
        | 3 => s.upd (phStop n)
        | 4 => s.upd (phAbort n)
        | 5 => s.upd (phClear n)
        | _ => s
      else s
    s.upd Dev.okay

/-- A command of a channel from its task or from a CH_CMD write: 0 START, 1 STEP, 2 STOP. Every task waits in TAKEOVER (R384), a START
or STEP in HALTED, and a STEP outside WAIT_STEP. DEDUCED, log entry 93. -/
def phCommand (n k : Nat) (q : Option Req) (s : State) : State :=
  match q with
  | some q => phCmd q n (w32 (0x80000001 + k)) s
  | none =>
    let st := phState s.dev n
    if (k < 2 && st = 4) || st = 5 || (k = 1 && st ≠ 2) then s
    else match takeTask (0x100 + 4 * n + k) s.dev with
      | none => s
      | some (a, d) =>
        let s := { s with dev := d }
        match k with
        | 0 => phStart n (some a) s
        | 1 => phStep n (some a) s
        | _ => s.upd (phStop n)

/-! ### Takeover (R384, R385) -/

/-- A descriptor that stands for a record owed without one: its queue is a free value. DESIGN CHOICE, log entry 94. -/
def freeDesc (n status : Nat) (d : Dev) : PhDesc × Dev :=
  let (v, d) := d.fresh
  ({ idx := (d.rd (Reg.RING_HEAD n)).toNat, w := [v &&& 0xE00000], status := status, ended := true }, d)

/-- The physical channel of a logical channel is retired and starts self-test; the logical channel has lost its state (R284). -/
def phRetire (n p : Nat) (d : Dev) : Dev := (retireUnit 5 p d).wr (Reg.PCH_GEN n) 0

/-- No spare is free: the channel halts with a NOSPARE record (R385). DESIGN CHOICE, log entry 94. -/
def phNoSpare (n det : Nat) (d : Dev) : Dev :=
  let p := d.fld (Reg.PCH_STATUS n) 13 8
  let d := (phRetire n p d).setBit (Reg.PCH_FLAGS n) 5
  let d := faultLog 5 det p 5 2 0 (d.updPh n (fun p => { p with broken := true }))
  let d := match (d.ph n).desc with
    | some _ => phEnd n 8 d
    | none =>
      let (x, d) := freeDesc n 8 d
      (d.updPh n (fun p => { p with desc := some x })).wr (Reg.PROGRESS n) 0
  setPhState n 4 (d.setBit (Reg.PCH_FLAGS n) 0)

/-- The physical channel of logical channel n fails, found by a code check or by the watchdog (R262, R384). -/
def phFault (n : Nat) (code : Bool) (d : Dev) : Dev :=
  if (d.ph n).broken || phState d n = 5 || d.inDeep then d
  else if (sparesOf d 5).isEmpty then phNoSpare n (if code then 1 else 2) d
  else
    let st := phState d n
    setPhState n 5 ((d.wr (Reg.PCH_GEN n) 0).updPh n (fun x => { x with was := st, ht := d.now }))

/-- The lowest spare has loaded the committed state and resumes, and the failed channel is retired (R384 steps 3 and 4). -/
def phResume (n : Nat) (det : Nat) (d : Dev) : Dev :=
  if phState d n ≠ 5 then d
  else
    let old := d.fld (Reg.PCH_STATUS n) 13 8
    match takeSpare 5 d with
    | some (i, d) =>
      let d := (setPhState n (d.ph n).was (retireUnit 5 old d)).setFld (Reg.PCH_STATUS n) 13 8 i
      let d := (d.wr (Reg.PCH_GEN n) (d.rd Reg.GLOBAL_GEN)).setBit (Reg.PCH_FLAGS n) 4
      faultLogAt (d.ph n).ht 5 det old 1 (if (sparesOf d 5).isEmpty then 1 else 0) 0 d
    | none => phNoSpare n det d

/-! ### Registers -/

/-- A read of BYTES_LO, which latches BYTES_HI (R387). -/
def phBytesRead (n : Nat) (d : Dev) : Dev :=
  let b := (d.ph n).bytes
  (d.wr (Reg.BYTES_HI n) (w32 (b / 2 ^ 32))).answer (.ok (w32 b))

/-- A CQ_RD write (R380). -/
def cqRdWrite (c : Nat) (v : Word) (d : Dev) : Dev :=
  if (d.rd (Reg.CQ_WR c) - v).toNat > 2 ^ d.fld (Reg.CQ_CTRL c) 8 4 then (d.setBit Reg.PH_FLAGS 0).okay
  else (d.wr (Reg.CQ_RD c) v).okay

/-- A CQ_CTRL write. -/
def cqCtrlWrite (c : Nat) (v : Word) (d : Dev) : Dev :=
  let v := v &&& 0x1F3
  let sz := fld v 8 4
  let on := d.bit (Reg.CQ_CTRL c) 0
  if sz < 4 || 16 < sz || (on && sz ≠ d.fld (Reg.CQ_CTRL c) 8 4) then (d.setBit Reg.PH_FLAGS 0).okay
  else
    let d := if bitOf v 0 && !on then (d.wr (Reg.CQ_WR c) 0).wr (Reg.CQ_RD c) 0 else d
    (d.wr (Reg.CQ_CTRL c) v).okay

/-- A CQ_BASE write: refused while EN is 1. -/
def cqBaseWrite (c o : Nat) (mask v : Word) (d : Dev) : Dev :=
  if d.bit (Reg.CQ_CTRL c) 0 then (d.setBit Reg.PH_FLAGS 0).okay else (d.wr o (v &&& mask)).okay

/-- A write of a register of a channel's page at channel offset o, other than CH_CMD and the flags. -/
def phRegWrite (q : Req) (n o : Nat) (v : Word) (d : Dev) : Dev :=
  let k := d.keeper q
  if (d.bit (Reg.PCH_CFG n) 3 && !k) || (o = 0 && bitOf v 3 && !k) then d.deny
  else
    let st := phState d n
    let still := st = 0 || st = 3 || st = 4
    let refuse := (d.setBit (Reg.PCH_FLAGS n) 3).okay
    match o with
    | 0x00 => if still then (d.wr (Reg.PCH_CFG n) (v &&& 0xF)).okay else refuse
    | 0x0C => (d.wr (Reg.PCH_FLAGS n) (d.rd (Reg.PCH_FLAGS n) &&& ~~~ v)).okay
    | 0x10 => (d.wr (Reg.PCH_IRQ_EN n) (v &&& 0x3F)).okay
    | 0x14 => if still then (d.wr (Reg.RING_BASE_LO n) (v &&& 0xFFFFFFE0)).okay else refuse
    | 0x18 => if still then (d.wr (Reg.RING_BASE_HI n) (v &&& 0xFFFF)).okay else refuse
    | 0x1C =>
      if still && v &&& 0x1FFFF != 0 && fld v 16 0 ≤ 65536 then (d.wr (Reg.RING_SIZE n) (v &&& 0x1FFFF)).okay else refuse
    | 0x20 =>
      if still && fld v 15 0 < (d.rd (Reg.RING_SIZE n)).toNat then
        let d := d.wr (Reg.RING_HEAD n) (v &&& 0xFFFF)
        (if phOwesRecord d n then d else (d.wr (Reg.PROGRESS n) 0).updPh n (fun p => { p with desc := none })).okay
      else refuse
    | _ => d.okay

/-! ### The steps -/

/-- PH_START: from the START task or a CH_CMD write. -/
def execPhStart (n : Fin 32) (q : Option Req) (s : State) : Host.Outcome State Fault Refusal := .next (phCommand n 0 q s)
/-- PH_STEP. -/
def execPhStep (n : Fin 32) (q : Option Req) (s : State) : Host.Outcome State Fault Refusal := .next (phCommand n 1 q s)
/-- PH_STOP. -/
def execPhStop (n : Fin 32) (q : Option Req) (s : State) : Host.Outcome State Fault Refusal := .next (phCommand n 2 q s)
/-- PH_ABORT: a CH_CMD write. -/
def execPhAbort (q : Req) (n : Fin 32) (s : State) : Host.Outcome State Fault Refusal := .next (phCmd q n 0x80000004 s)
/-- PH_CLEAR: a CH_CMD write. -/
def execPhClear (q : Req) (n : Fin 32) (s : State) : Host.Outcome State Fault Refusal := .next (phCmd q n 0x80000005 s)
/-- CQ_RD_WRITE. -/
def execCqRdWrite (c : Fin 8) (v : Word) (s : State) : Host.Outcome State Fault Refusal := s.next (cqRdWrite c v)
/-- PH_CHANNEL_FAULT (R384). -/
def execPhChannelFault (n : Fin 32) (s : State) (code : Bool := false) : Host.Outcome State Fault Refusal := s.next (phFault n code)
/-- PH_SPARE_RESUME (R384): the fault was found by a code check or by the watchdog. -/
def execPhSpareResume (n : Fin 32) (code : Bool) (s : State) : Host.Outcome State Fault Refusal :=
  s.next (phResume n (if code then 1 else 2))

end Sys2Proof.Machine
end

