-- ==== Sys2Proof/Machine/Census.lean ====
section
/-! DEFINITION. The census latch (R254 to R256). -/
namespace Sys2Proof.Machine

/-- The low and the high word of a 64-bit count. -/
def words64 (n : Nat) : List Word := [w32 n, w32 (n / 2 ^ 32)]

/-- Six words of a post (R256). -/
def cellWords (d : Dev) (i : Nat) : List Word :=
  let f := i / 8
  let p := i % 8
  let bin (b : Nat) : Nat := d.fld (Reg.CELL_SLACK_HIST f p b) 15 0
  [d.rd (Reg.CELL_SLACK_MIN f p), d.rd (Reg.CELL_MISS f p)] ++ (List.range 4).map (fun k => w32 (bin (2 * k) + bin (2 * k + 1) * 2 ^ 16))

/-- The contents of a census bank, as words from each offset of its layout (R256). -/
def bankParts (d : Dev) (c : Census) : List (Nat × List Word) :=
  [(0x0000, words64 c.t ++ [w32 (c.id + c.origin * 2 ^ 16), w32 (devIndex d + (if c.merged then 256 else 0))]),
   (0x0010, (List.range 32).map (fun i => d.rd (Reg.TM_CNT (i / 4) (i % 4)))),
   (0x0100, (List.range 128).flatMap (cellWords d)),
   (0x0D00, (List.range 32).flatMap (fun i => words64 (if i < 20 then Store.get (fun _ => 0) d.net.stats i else 0))),
   (0x0E00, (List.range 8).flatMap (fun m =>
      [d.rd (Reg.CK_BLOCKS m), d.rd (Reg.CK_MISMATCHES m), d.rd (Reg.CK_REPEATS m), d.rd (Reg.CK_GAPS m)])),
   (0x0F00, (List.range 32).flatMap (fun n => words64 (d.ph n).bytes)),
   (0x1100, (List.range 256).map (meterWord d)),
   (0x1500, [d.rd Reg.RING_CRC_A, d.rd Reg.RING_CRC_B, d.rd Reg.REVERSALS, d.rd Reg.TIME_ERR])]

/-- The words of a bank that are not 0, by offset. -/
def bankWords (d : Dev) (c : Census) : Store Word :=
  (bankParts d c).flatMap (fun p => ((p.2.zipIdx).filter (fun e => e.1 != 0)).map (fun e => (p.1 + 4 * e.2, e.1)))

/-- The first pending census reaches its T (R254, R255): the device latches its counters, and the meters restart (R435).
DEDUCED, log entry 88. -/
def censusLatch (d : Dev) : Dev :=
  match d.herd.cens with
  | [] => d
  | c :: l =>
    let d := setCens l (d.passTo c.t)
    let b := 1 - d.fld Reg.CEN_STATUS 2 2
    if d.bit Reg.CEN_STATUS b || d.herd.fill.isSome then cenSkip 1 d
    else
      let d := d.hdUpd (fun h => { h with fill := some (b, bankWords d c) })
      (List.range 256).foldl (fun d m => if (d.meter m).peak = 0 then d else meterRestart m d) d
/-- CENSUS_LATCH. -/
def execCensusLatch (s : State) : Host.Outcome State Fault Refusal := s.next censusLatch

/-- The bank is filled (R254). -/
def censusFilled (d : Dev) : Dev :=
  match d.herd.fill with
  | none => d
  | some (b, w) =>
    let base := 0x68000 + b * 0x4000
    let d := { d with regs := Store.keep (fun o => o < base || base + 0x4000 ≤ o) d.regs }
    let d := w.reverse.foldl (fun d e => d.wr (base + e.1) e.2) (d.hdUpd (fun h => { h with fill := none }))
    fire 0x2E8 (herdFlag 6 ((d.setBit Reg.CEN_STATUS b).setFld Reg.CEN_STATUS 2 2 b))
/-- CENSUS_BANK_FILLED. -/
def execCensusBankFilled (s : State) : Host.Outcome State Fault Refusal := s.next censusFilled

end Sys2Proof.Machine
end

