-- ==== Sys2Proof/Machine/CheckUnits.lean ====
section
/-! DEFINITION. The check units (R410 to R419): CRCs, blocks, comparison, alive counters, feeding by yokes. -/
namespace Sys2Proof.Machine

/-! ### The CRC (R410) -/

/-- The parameters of a CRC. -/
structure CrcPar where
  width : Nat
  poly : Nat
  init : Nat
  refin : Bool
  refout : Bool
  xorout : Nat
  deriving DecidableEq, Repr

/-- The parameters that unit m uses. -/
def crcPar (d : Dev) (m : Nat) : CrcPar :=
  match d.fld (Reg.CK_POLY m) 2 0 with
  | 1 => ⟨32, 0x04C11DB7, 0xFFFFFFFF, true, true, 0xFFFFFFFF⟩
  | 2 => ⟨32, 0x1EDC6F41, 0xFFFFFFFF, true, true, 0xFFFFFFFF⟩
  | 3 => ⟨16, 0x1021, 0xFFFF, false, false, 0⟩
  | 4 => ⟨8, 0x07, 0, false, false, 0⟩
  | _ =>
    let w := d.fld (Reg.CK_POLY m) 13 8
    ⟨w, (d.rd (Reg.CK_POLYVAL m)).toNat % 2 ^ w, (d.rd (Reg.CK_INIT m)).toNat % 2 ^ w, d.bit (Reg.CK_POLY m) 14, d.bit (Reg.CK_POLY m) 15,
      (d.rd (Reg.CK_XOROUT m)).toNat % 2 ^ w⟩

/-- Bring one bit into the CRC register. -/
def crcBit (p : CrcPar) (c : Nat) (b : Bool) : Nat :=
  let top := c.testBit (p.width - 1)
  let s := c * 2 % 2 ^ p.width
  if top != b then s ^^^ p.poly else s
/-- Bring one byte into the CRC register, least significant bit first under REFIN. -/
def crcByte (p : CrcPar) (c : Nat) (b : Byte) : Nat :=
  forN 8 c (fun i c => crcBit p c (b.getLsbD (if p.refin then i else 7 - i)))
/-- The result of the CRC register. -/
def crcResult (p : CrcPar) (c : Nat) : Nat :=
  (if p.refout then forN p.width 0 (fun i r => if c.testBit i then r + 2 ^ (p.width - 1 - i) else r) else c) ^^^ p.xorout

/-! ### Blocks (R413 to R416) -/

/-- E: the bytes of the expected value, or 0 where it does not come in the block (R415). -/
def ckTail (d : Dev) (m : Nat) : Nat :=
  let e := d.fld (Reg.CK_CTRL m) 19 18
  if e = 1 || e = 2 then ((crcPar d m).width + 7) / 8 else 0

/-- A new, empty block: the CRC restarts from INIT. -/
def ckNewBlock (m : Nat) (d : Dev) : Dev :=
  let i := (crcPar d m).init
  d.updCk m (fun c => { c with n := 0, crc := i, tail := [], vlo := 0, vdone := false, lost := false })

/-- RESET (R414): the partial block is discarded, the CRC restarts and the alive reference is cleared. -/
def ckReset (m : Nat) (d : Dev) : Dev := (ckNewBlock m d).wr (Reg.CK_ALIVE_REF m) 0

/-- The CRC register over what the CRC covers of the present block, and the bytes held back. -/
def ckCovered (d : Dev) (m : Nat) : Nat × List Byte := ((d.ck m).crc, (d.ck m).tail)

/-- The finalised CRC of the block so far, held-back bytes included. -/
def ckSoFar (d : Dev) (m : Nat) : Nat :=
  let p := crcPar d m
  crcResult p ((d.ck m).tail.foldl (crcByte p) (d.ck m).crc)

/-- The width of the alive value, 0 when off (R416). -/
def aliveWidth (d : Dev) (m : Nat) : Nat :=
  match d.fld (Reg.CK_CTRL m) 21 20 with
  | 0 => 0
  | 1 => 4
  | 2 => 8
  | _ => 16

/-- The alive value V is complete (R416). -/
def aliveSeen (m v : Nat) (d : Dev) : Dev :=
  let w := aliveWidth d m
  let r := d.rd (Reg.CK_ALIVE_REF m)
  let d := d.updCk m (fun c => { c with vdone := true })
  let ref := w32 (v + 0x10000)
  if !bitOf r 16 then d.wr (Reg.CK_ALIVE_REF m) ref
  else if v = (fld r 15 0 + 1) % 2 ^ w then d.wr (Reg.CK_ALIVE_REF m) ref
  else if v = fld r 15 0 then fire (0x2D1 + 2 * m) ((d.setBit (Reg.CK_FLAGS m) 1).bump (Reg.CK_REPEATS m))
  else fire (0x2D1 + 2 * m) (((d.setBit (Reg.CK_FLAGS m) 2).bump (Reg.CK_GAPS m)).wr (Reg.CK_ALIVE_REF m) ref)

/-- The byte at offset n of the block, for the alive value. -/
def aliveByte (m n : Nat) (b : Byte) (d : Dev) : Dev :=
  let off := d.fld (Reg.CK_ALIVE m) 23 0
  match aliveWidth d m with
  | 0 => d
  | 4 => if n = off then aliveSeen m (if d.bit (Reg.CK_CTRL m) 22 then b.toNat / 16 else b.toNat % 16) d else d
  | 8 => if n = off then aliveSeen m b.toNat d else d
  | _ =>
    if n = off then d.updCk m (fun c => { c with vlo := b.toNat })
    else if n = off + 1 then aliveSeen m ((d.ck m).vlo + 256 * b.toNat) d
    else d

/-- The present block ends (R413, R415): an empty block ends nothing, and one that lost bytes is not counted (R412). -/
def ckEnd (m : Nat) (cause : Option Arrival) (d : Dev) : Dev :=
  let c := d.ck m
  if c.lost then ckNewBlock m d
  else if c.n = 0 then d
  else
    let p := crcPar d m
    let res := crcResult p c.crc
    let e := d.fld (Reg.CK_CTRL m) 19 18
    let d := (d.bump (Reg.CK_BLOCKS m)).wr (Reg.CK_RESULT m) (w32 res)
    let d := if aliveWidth d m ≠ 0 && !c.vdone then d.setBit (Reg.CK_FLAGS m) 3 else d
    let short := ckTail d m ≠ 0 && c.n ≤ ckTail d m
    let d := if short then d.setBit (Reg.CK_FLAGS m) 3 else d
    let want : Option Nat := match e with
      | 0 => some ((d.rd (Reg.CK_EXPECTED m)).toNat % 2 ^ p.width)
      | 1 => some (leNat c.tail)
      | 2 => some (leNat c.tail.reverse)
      | _ => none
    let d := match want with
      | some x =>
        if short || x = res then d
        else fireCause cause (0x2D0 + 2 * m) ((d.setBit (Reg.CK_FLAGS m) 0).bump (Reg.CK_MISMATCHES m))
      | none => d
    ckNewBlock m d

/-- A byte is taken into the present block (R413, R414, R416); `nat` says that a natural end follows it. -/
def ckTake (m : Nat) (b : Byte) (nat : Bool) (d : Dev) : Dev :=
  let p := crcPar d m
  let t := ckTail d m
  let d := aliveByte m (d.ck m).n b d
  let d := d.updCk m (fun c =>
    let l := c.tail ++ [b]
    if l.length ≤ t then { c with n := c.n + 1, tail := l }
    else { c with n := c.n + 1, tail := l.drop 1, crc := crcByte p c.crc (l.headD 0) })
  let ends : Bool := match d.fld (Reg.CK_CTRL m) 17 16 with
    | 0 => (d.ck m).n ≥ d.fld (Reg.CK_BLOCK m) 23 0 && d.fld (Reg.CK_BLOCK m) 23 0 != 0
    | 1 => nat
    | 2 => b.toNat == d.fld (Reg.CK_BLOCK m) 31 24
    | _ => false
  if ends then ckEnd m none d else d

/-- A byte is dropped: LOST sets, and the block ends uncounted where it would have ended (R412). DEDUCED, log entry 97. -/
def ckDrop (m : Nat) (nat : Bool) (d : Dev) : Dev :=
  let d := (d.setBit (Reg.CK_FLAGS m) 4).updCk m (fun c => { c with lost := true })
  if nat && d.fld (Reg.CK_CTRL m) 17 16 == 1 then ckEnd m none d else d

/-- The next byte copied at the snoop point: taken, or dropped by a unit that cannot keep up. Only memory writes can come faster than a
unit takes bytes (R412). -/
def ckByte (m : Nat) (drop : Bool) (d : Dev) : Dev :=
  match (d.ck m).queue with
  | [] => d
  | (b, nat) :: l =>
    let d := d.updCk m (fun c => { c with queue := l })
    if drop && d.fld (Reg.CK_CTRL m) 3 1 == 3 then ckDrop m nat d else ckTake m b nat d

/-! ### Feeding and commands (R417) -/

/-- Feed bytes by software. -/
def ckFeedBytes (m : Nat) (b : List Byte) (d : Dev) : Dev := b.foldl (fun d x => ckTake m x false d) d

/-- A CK_FEED or CK_FEED1 write: only yokes feed a unit, and only one with SRC 0. DEDUCED, log entry 97. -/
def ckFeedWrite (q : Req) (m : Nat) (b : List Byte) (d : Dev) : Dev :=
  let yoke : Bool := match q with | .yoke _ => true | _ => false
  if d.fld (Reg.CK_CTRL m) 3 1 ≠ 0 then (d.setBit (Reg.CK_FLAGS m) 5).okay
  else if yoke && d.bit (Reg.CK_CTRL m) 0 then (ckFeedBytes m b d).okay
  else d.okay

/-- A CK_CMD write. -/
def ckCmdWrite (m : Nat) (v : Word) (d : Dev) : Dev :=
  (match fld v 1 0 with
  | 1 => ckEnd m none d
  | 2 => ckReset m d
  | _ => d).okay

/-- Coprocessor 2 FEED: word 0 and FAIL. -/
def ckCopFeed (m : Nat) (x v : Word) (d : Dev) : Word × Bool × Dev :=
  let n := fld v 2 0
  let soft := d.fld (Reg.CK_CTRL m) 3 1 == 0
  if !soft then (w32 (ckSoFar d m), true, d.setBit (Reg.CK_FLAGS m) 5)
  else if !d.bit (Reg.CK_CTRL m) 0 || n = 0 || n > 4 then (w32 (ckSoFar d m), true, d)
  else
    let d := ckFeedBytes m ((wordBytes x).take n) d
    (w32 (ckSoFar d m), false, d)

/-- Coprocessor 2 END: word 0 and FAIL. -/
def ckCopEnd (m : Nat) (d : Dev) : Word × Bool × Dev :=
  if (d.ck m).n = 0 then (d.rd (Reg.CK_RESULT m), true, d)
  else
    let before := d.rd (Reg.CK_MISMATCHES m)
    let p := crcPar d m
    let c := d.ck m
    let e := d.fld (Reg.CK_CTRL m) 19 18
    let want : Nat := match e with
      | 0 => (d.rd (Reg.CK_EXPECTED m)).toNat % 2 ^ p.width
      | 1 => leNat c.tail
      | 2 => leNat c.tail.reverse
      | _ => crcResult p c.crc
    let d' := ckEnd m none d
    let bad := !c.lost && !(ckTail d m ≠ 0 && c.n ≤ ckTail d m) && want != crcResult p c.crc
    (d'.rd (Reg.CK_RESULT m), bad || before != d'.rd (Reg.CK_MISMATCHES m), d')

/-! ### Registers (R419) -/

/-- A refused write. -/
def ckRefuse (m : Nat) (d : Dev) : Dev := (d.setBit (Reg.CK_FLAGS m) 6).okay

/-- The bits of ID that a SRC uses (R411). -/
def ckIdMask (src : Nat) : Nat :=
  match src with
  | 0 => 0
  | 1 => 0x3F
  | 2 => 0x3F
  | 3 => 0
  | 4 => 0xF
  | 5 => 0x1F
  | 6 => 1
  | _ => 7

/-- Whether a unit's window or rectangle is allowed for a SRC, the bits that it does not use being 0 (SNOOP_A). DEDUCED, log entry 97. -/
def snoopOk (d : Dev) (src : Nat) (a b c : Word) : Bool :=
  match src with
  | 3 =>
    let base := a.toNat + fld b 15 0 * 2 ^ 32
    fld b 31 16 == 0 && (c == 0 || memOk d base c.toNat || (base + c.toNat ≤ 0xC00000000))
  | 4 => fld a 31 16 == 0 && b == 0 && c == 0
  | 7 => (a ||| b) &&& 0xE000E000 == 0 && c == 0 && fld a 12 0 ≤ fld a 28 16 && fld b 12 0 ≤ fld b 28 16
  | _ => a == 0 && b == 0 && c == 0

/-- A CK_CTRL write: with EN 1 only EN changes; ID, END_MODE and the snoop window are checked. A change of EN to 1 acts as RESET, and
with EN 0 no byte waits. DEDUCED, log entry 97. -/
def ckCtrlWrite (m : Nat) (v : Word) (d : Dev) : Dev :=
  let v := v &&& 0x7FFF0F ||| (v &&& 0xFF00)
  let old := d.rd (Reg.CK_CTRL m)
  let src := fld v 3 1
  let mode := fld v 17 16
  if (bitOf old 0 && (old ^^^ v) &&& 0xFFFFFFFE != 0) || (fld v 15 8 ||| ckIdMask src) != ckIdMask src || (mode = 1 && (src = 0 || src = 3)) ||
      (bitOf v 0 && !(snoopOk d src (d.rd (Reg.SNOOP_A m)) (d.rd (Reg.SNOOP_B m)) (d.rd (Reg.SNOOP_C m)) && (src != 3 || d.rd (Reg.SNOOP_C m) != 0)))
  then ckRefuse m d
  else
    let d := d.wr (Reg.CK_CTRL m) v
    let d := if bitOf v 0 && !bitOf old 0 then ckReset m d else d
    (if bitOf v 0 then d else d.updCk m (fun c => { c with queue := [] })).okay

/-- A write of a register of unit m at offset o, other than CK_CTRL, the feeds and CK_CMD. -/
def ckRegWrite (m o : Nat) (v : Word) (d : Dev) : Dev :=
  let on := d.bit (Reg.CK_CTRL m) 0
  let src := d.fld (Reg.CK_CTRL m) 3 1
  let a := d.rd (Reg.SNOOP_A m)
  let b := d.rd (Reg.SNOOP_B m)
  let c := d.rd (Reg.SNOOP_C m)
  let locked (ok : Bool) (r : Nat) (v : Word) : Dev := if on || !ok then ckRefuse m d else (d.wr r v).okay
  match o with
  | 0x008 => locked (fld v 2 0 ≤ 4 && 1 ≤ fld v 13 8 && fld v 13 8 ≤ 32) (Reg.CK_POLY m) (v &&& 0xFF07)
  | 0x00C => locked true (Reg.CK_POLYVAL m) v
  | 0x010 => locked true (Reg.CK_INIT m) v
  | 0x014 => locked true (Reg.CK_XOROUT m) v
  | 0x018 => locked (!(fld v 23 0 = 0 && d.fld (Reg.CK_CTRL m) 17 16 = 0)) (Reg.CK_BLOCK m) v
  | 0x01C => locked true (Reg.CK_ALIVE m) (v &&& 0xFFFFFF)
  | 0x020 => locked (snoopOk d src v (if src = 3 then b else 0) (if src = 3 then c else 0)) (Reg.SNOOP_A m) v
  | 0x024 => locked (snoopOk d src (if src = 3 then a else 0) v (if src = 3 then c else 0)) (Reg.SNOOP_B m) v
  | 0x028 => locked (if src = 3 then v != 0 && snoopOk d src a b v else v == 0) (Reg.SNOOP_C m) v
  | 0x02C => (d.wr (Reg.CK_EXPECTED m) v).okay
  | 0x034 => (d.wr (Reg.CK_FLAGS m) (d.rd (Reg.CK_FLAGS m) &&& ~~~ v)).okay
  | 0x038 => locked true (Reg.CK_IRQ_EN m) (v &&& 0x7F)
  | 0x040 => (d.wr (Reg.CK_BLOCKS m) v).okay
  | 0x044 => (d.wr (Reg.CK_MISMATCHES m) v).okay
  | 0x048 => (d.wr (Reg.CK_REPEATS m) v).okay
  | 0x04C => (d.wr (Reg.CK_GAPS m) v).okay
  | _ => d.okay

/-! ### The steps -/

/-- CK_BYTE (R412, R414). -/
def execCkByte (m : Fin 8) (drop : Bool) (s : State) : Host.Outcome State Fault Refusal := s.next (ckByte m drop)
/-- CK_END: from the BLOCK_END task, or from a CK_CMD write (R413). -/
def execCkEnd (m : Fin 8) (byTask : Bool) (s : State) : Host.Outcome State Fault Refusal :=
  s.next (fun d =>
    if byTask then (match takeTask (0x290 + 2 * m) d with | some (a, d) => ckEnd m (some a) d | none => d) else ckCmdWrite m 1 d)
/-- CK_RESET: from the RESET task, or from a CK_CMD write (R414). -/
def execCkReset (m : Fin 8) (byTask : Bool) (s : State) : Host.Outcome State Fault Refusal :=
  s.next (fun d =>
    if byTask then (match takeTask (0x291 + 2 * m) d with | some (_, d) => ckReset m d | none => d) else ckCmdWrite m 2 d)
/-- CK_FEED (R417). -/
def execCkFeed (q : Req) (m : Fin 8) (v : Word) (s : State) : Host.Outcome State Fault Refusal := s.next (ckFeedWrite q m (wordBytes v))
/-- CK_FEED1 (R417). -/
def execCkFeed1 (q : Req) (m : Fin 8) (v : Word) (s : State) : Host.Outcome State Fault Refusal :=
  s.next (ckFeedWrite q m ((wordBytes v).take 1))

end Sys2Proof.Machine
end

