-- ==== Sys2Proof/Machine/Crypto.lean ====
section
/-! DEFINITION. The digest and the signature of an image (R59): SHA-384 (FIPS 180-4) over bytes and ECDSA over the curve P-384
(FIPS 186-5). The spec names both and leaves their definition to those standards (log entry 40). -/
namespace Sys2Proof.Machine

/-! ### SHA-384 -/

/-- The e-th root of n, rounded down, whose bits below bit k are still to be found: `r` holds those above. -/
def rootBits (e n : Nat) : Nat → Nat → Nat
  | 0, r => r
  | k + 1, r => rootBits e n k (if (r + 2 ^ k) ^ e ≤ n then r + 2 ^ k else r)
/-- The primes below m. -/
def primesBelow (m : Nat) : List Nat := (List.range m).filter (fun n => 2 ≤ n && (List.range n).all (fun q => q < 2 || n % q != 0))
/-- The first 64 bits of the fraction of the e-th root of a prime below 512. -/
def rootFraction (e p : Nat) : DWord := BitVec.ofNat 64 (rootBits e (p * 2 ^ (64 * e)) 69 0)
/-- The 80 round constants: from the cube roots of the first 80 primes. -/
def shaKeys : List DWord := (primesBelow 410).map (rootFraction 3)
/-- The initial hash value: from the square roots of the 9th to the 16th prime. -/
def shaInit : List DWord := ((primesBelow 54).drop 8).map (rootFraction 2)

/-- The big-endian number of a byte string. -/
def beNat (b : List Byte) : Nat := b.foldl (fun n x => n * 256 + x.toNat) 0

/-- A padded message as 128-byte blocks of sixteen words each: a 1 bit, zeros, and the length in bits as 128 bits. -/
def shaMessage (b : List Byte) : List (List DWord) :=
  let n := (b.length + 17 + 127) / 128
  let m := beNat b * 256 ^ (128 * n - b.length) + 128 * 256 ^ (128 * n - b.length - 1) + b.length * 8
  (List.range n).map (fun i => (List.range 16).map (fun j => BitVec.ofNat 64 (m >>> (64 * (16 * (n - i) - j - 1)))))

/-- A word's rotations by each of some amounts, added without carry. -/
def rotations (x : DWord) (rs : List Nat) : DWord := rs.foldl (fun y r => y ^^^ x.rotateRight r) 0

/-- One block: a window of the sixteen last words of the schedule moves on, and each of its first words enters a round. -/
def shaBlock (h w : List DWord) : List DWord :=
  let step (s : List DWord × List DWord) (key : DWord) : List DWord × List DWord :=
    let (v, win) := s
    let x (i : Nat) : DWord := v.getD i 0
    let y (i : Nat) : DWord := win.getD i 0
    let choice := x 6 ^^^ (x 4 &&& (x 5 ^^^ x 6))
    let majority := (x 0 &&& x 1) ||| (x 2 &&& (x 0 ||| x 1))
    let up := x 7 + rotations (x 4) [14, 18, 41] + choice + key + y 0
    let next := y 0 + (rotations (y 1) [1, 8] ^^^ (y 1 >>> 7)) + y 9 + (rotations (y 14) [19, 61] ^^^ (y 14 >>> 6))
    ((up + (rotations (x 0) [28, 34, 39] + majority)) :: (v.take 7).modify 3 (· + up), win.drop 1 ++ [next])
  List.zipWith (· + ·) h (shaKeys.foldl step (h, w)).1

/-- SHA-384 of a byte string, as a big-endian number of 384 bits. PRESUMED, log entry 40. -/
def sha384 (b : List Byte) : Nat := (((shaMessage b).foldl shaBlock shaInit).take 6).foldl (fun n x => n * 2 ^ 64 + x.toNat) 0

/-! ### ECDSA over P-384 -/

/-- The field prime of P-384. -/
def p384 : Nat := 2 ^ 384 - 2 ^ 128 - 2 ^ 96 + 2 ^ 32 - 1
/-- The order of the base point. -/
def n384 : Nat := 0xffffffffffffffffffffffffffffffffffffffffffffffffc7634d81f4372ddf581a0db248b0a77aecec196accc52973
/-- The coefficient b of y² = x³ − 3x + b. -/
def b384 : Nat := 0xb3312fa7e23ee7e4988e056be3f82d19181d9c6efe8141120314088f5013875ac656398d8a2ed19d2a85c8edd3ec2aef
/-- The base point. -/
def g384 : Nat × Nat :=
  (0xaa87ca22be8b05378eb1c71ef320ad746e1d3b628ba79b9859f741e082542a385502f25dbf55296c3a545e3872760ab7,
   0x3617de4a96262c6f5d9e98bf9292dc29f8f41dbd289a147ce9da3113b5f0b8c00a60b1ce1d7e819d7a431d7c90ea0e5f)

/-- b to the power of the low n bits of e, modulo m. -/
def powMod : Nat → Nat → Nat → Nat → Nat
  | 0, _, _, m => 1 % m
  | n + 1, b, e, m =>
    let r := powMod n (b * b % m) (e / 2) m
    if e % 2 = 1 then r * b % m else r
/-- The inverse modulo a prime (Fermat). -/
def invMod (a m : Nat) : Nat := powMod 384 a (m - 2) m

/-- A point in Jacobian coordinates; Z = 0 is the point at infinity. -/
abbrev JPoint := Nat × Nat × Nat

/-- Double a point. -/
def ecDouble (q : JPoint) : JPoint :=
  match q with
  | (x, y, z) =>
    if z = 0 || y = 0 then (1, 1, 0)
    else
      let p := p384
      let yy := y * y % p
      let zz := z * z % p
      let s := 4 * x * yy % p
      let m := 3 * ((x + zz) * (x + (p - zz)) % p) % p
      let x3 := (m * m + 2 * (p - s)) % p
      let y3 := (m * (s + (p - x3)) + (p - 8 * (yy * yy % p) % p)) % p
      (x3, y3, 2 * y * z % p)

/-- Add two points. -/
def ecAdd (a b : JPoint) : JPoint :=
  match a, b with
  | (x1, y1, z1), (x2, y2, z2) =>
    if z1 = 0 then (x2, y2, z2)
    else if z2 = 0 then (x1, y1, z1)
    else
      let p := p384
      let z1z1 := z1 * z1 % p
      let z2z2 := z2 * z2 % p
      let u1 := x1 * z2z2 % p
      let u2 := x2 * z1z1 % p
      let s1 := y1 * (z2 * z2z2 % p) % p
      let s2 := y2 * (z1 * z1z1 % p) % p
      if u1 = u2 then (if s1 = s2 then ecDouble (x1, y1, z1) else (1, 1, 0))
      else
        let h := (u2 + (p - u1)) % p
        let r := (s2 + (p - s1)) % p
        let hh := h * h % p
        let hhh := h * hh % p
        let v := u1 * hh % p
        let x3 := (r * r + (p - hhh) + 2 * (p - v)) % p
        let y3 := (r * (v + (p - x3)) + (p - s1 * hhh % p)) % p
        (x3, y3, h * (z1 * z2 % p) % p)

/-- u·G + v·Q over the low n bits of u and v, most significant first. -/
def ecMul2 (g q gq : JPoint) (u v : Nat) : Nat → JPoint
  | 0 => (1, 1, 0)
  | n + 1 =>
    let r := ecDouble (ecMul2 g q gq (u / 2) (v / 2) n)
    if u % 2 = 1 then (if v % 2 = 1 then ecAdd r gq else ecAdd r g)
    else if v % 2 = 1 then ecAdd r q else r

/-- The ECDSA verification of a 384-bit digest under a public key of 97 bytes (0x04, X, Y) by SIG_R and SIG_S. PRESUMED, log entry 40. -/
def ecdsaVerify (key : List Byte) (digest r s : Nat) : Bool :=
  let x := beNat ((key.drop 1).take 48)
  let y := beNat ((key.drop 49).take 48)
  let onCurve := y * y % p384 == (x * x * x + (p384 - 3) * x + b384) % p384
  if key.length ≠ 97 || key.head? != some 4 || x ≥ p384 || y ≥ p384 || !onCurve then false
  else if r = 0 || s = 0 || r ≥ n384 || s ≥ n384 then false
  else
    let w := invMod s n384
    let g : JPoint := (g384.1, g384.2, 1)
    let q : JPoint := (x, y, 1)
    match ecMul2 g q (ecAdd g q) (digest * w % n384) (r * w % n384) 384 with
    | (x3, _, z3) =>
      if z3 = 0 then false
      else
        let zi := invMod z3 p384
        x3 * (zi * zi % p384) % p384 % n384 == r

end Sys2Proof.Machine
end

