-- ==== Sys2Proof/Machine/ImageCheck.lean ====
section
/-! DEFINITION. The checks of a Kathen structure image (R38 to R60, R66): header, key and signature, framing, record rules, counts,
structure, and the rules that name their own code. A check answers the refusal, its code with the record at fault, or none. -/
namespace Sys2Proof.Machine

/-! ### Fields of records (R38) -/

/-- A byte of a record's body. -/
def u8At (b : List Byte) (o : Nat) : Nat := (b.getD o 0).toNat
/-- A 16-bit field. -/
def u16At (b : List Byte) (o : Nat) : Nat := leNat ((b.drop o).take 2)
/-- A 64-bit field. -/
def u64At (b : List Byte) (o : Nat) : Nat := leNat ((b.drop o).take 8)
/-- Whether bytes [o, o + n) of a body are 0. -/
def zeroAt (b : List Byte) (o n : Nat) : Bool := ((b.drop o).take n).all (· == 0)

/-- A refusal: the code of R66 and the record. -/
abbrev Refused := Option (Nat × Nat)
/-- Refuse with a code and a record unless a rule holds. -/
def need (ok : Bool) (code n : Nat) : Refused := if ok then none else some (code, n)
/-- The first refusal of a list of checks. -/
def firstRefusal {α : Type} (l : List α) (f : α → Refused) : Refused := l.findSome? f

/-- The pseudo TYPE under which the model keeps the 64-byte header as record 0. -/
def headerType : Nat := 0x10000
/-- The records of a TYPE with their numbers. -/
def recsOf (recs : List ImgRec) (ty : Nat) : List (Nat × List Byte) :=
  recs.zipIdx.filterMap (fun p => if p.1.ty = ty then some (p.2, p.1.body) else none)
/-- The body of the first record of a TYPE, empty when there is none. -/
def bodyOf (recs : List ImgRec) (ty : Nat) : List Byte := ((recsOf recs ty).head?.map (·.2)).getD []
/-- The SERIAL of an image. -/
def serialOf (recs : List ImgRec) : Nat := u32At (bodyOf recs headerType) 0x10

/-! ### Header (R39) -/

/-- The checks of the header; `len` is what STAGE_LEN gives for a staged image. DESIGN CHOICE, log entry 8. -/
def headerCheck (d : Dev) (len : Option Nat) (h : List Byte) : Refused :=
  let n := u32At h 8
  if !(h.take 8 == [0x4B, 0x54, 0x48, 0x4E, 1, 0, 64, 0]) then some (1, 0)
  else if n % 4 ≠ 0 || n < 64 || n > 0x800000 || (match len with | some l => l != n | none => false) then some (2, 0)
  else if u8At h 0x14 ≠ 1 || u8At h 0x15 > Config.minor.toNat then some (3, 0)
  else if u32At h 0x10 < (d.rd Reg.MIN_SERIAL).toNat then some (4, 0)
  else if u16At h 0x0E ≠ 0 || u16At h 0x16 ≠ 0 then some (9, 0)
  else none

/-! ### Framing (R38, R40) -/

/-- Split bytes into records, of which `left` bytes remain: the records with the SIGNATURE record last, or the number of the record at
which the framing breaks. DEDUCED, log entry 21; DEDUCED, log entry 23. -/
def frameRecs : Nat → Nat → Nat → Nat → List Byte → Nat ⊕ List ImgRec
  | 0, n, _, _, _ => .inl n
  | k + 1, n, off, left, a :: b :: c :: e :: v :: w :: x :: y :: l =>
    let ty := leNat [a, b]
    let len := leNat [v, w, x, y]
    if len % 4 ≠ 0 || left < 8 + len then .inl n
    else
      let r : ImgRec := { ty := ty, flags := leNat [c, e], off := off + 8, body := l.take len }
      if ty = 0xFFFF then (if left = 8 + len then .inr [r] else .inl n)
      else match frameRecs k (n + 1) (off + 8 + len) (left - 8 - len) (l.drop len) with
        | .inl m => .inl m
        | .inr rs => .inr (r :: rs)
  | _ + 1, n, _, _, _ => .inl n

/-! ### Keys and signature (R59, R60) -/

/-- The words of KEY_HASH of a slot. -/
def keyWords (d : Dev) (k : Nat) : List Word := (List.range 12).map (fun i => d.rd (Reg.KEY_HASH k i))
/-- A slot is provisioned while its hash is not 0. -/
def provisioned (d : Dev) (k : Nat) : Bool := (keyWords d k).any (· != 0)
/-- The device is unprovisioned while all four slots read 0. -/
def unprovisioned (d : Dev) : Bool := (List.range 4).all (fun k => !provisioned d k)
/-- The key-slot rules: the slot is provisioned and not revoked, and its hash is that of the public key. -/
def keyOk (d : Dev) (k : Nat) (pub : List Byte) : Bool :=
  k < 4 && provisioned d k && !d.bit Reg.KEY_REVOKE k && beNat ((keyWords d k).flatMap wordBytes) == sha384 pub

/-- The key and the signature of an image by its SIGNATURE body, record n. DEDUCED, log entry 23; PRESUMED, log entry 40. -/
def sigCheck (d : Dev) (img sig : List Byte) (n : Nat) : Refused :=
  let pub := (sig.drop 4).take 97
  if !unprovisioned d && !keyOk d (u8At sig 0) pub then some (5, n)
  else need (ecdsaVerify pub (sha384 (img.take (img.length - 96))) (beNat ((sig.drop 0x68).take 48)) (beNat ((sig.drop 0x98).take 48))) 6 n

/-! ### Record rules (R40 to R58): codes 0x08, 0x09 and 0x11 -/

/-- The body size that a record's rule gives (R40); none where any multiple of 4 serves. -/
def bodySize (r : ImgRec) : Option Nat :=
  match r.ty with
  | 1 | 2 | 7 => some 8
  | 3 => some 48
  | 4 => some 132
  | 5 => some (4 + 24 * u32At r.body 0)
  | 6 => some 72
  | 8 => some 4
  | 9 => some (4 + 8 * u16At r.body 0)
  | 0xB => some (4 + 8 * u32At r.body 0)
  | 0xC => some (56 + 4 * u8At r.body 3 + 8 * u16At r.body 4)
  | 0xFFFF => some 200
  | _ => none

/-- A TYPE that R41 assigns. -/
def knownType (ty : Nat) : Bool := (1 ≤ ty && ty ≤ 0xD) || ty == 0xFFFF || ty == headerType

/-- The fields of REGIME (R42). -/
def regimeOk (b : List Byte) : Bool :=
  u8At b 0 ≤ 1 && 5 ≤ u8At b 1 && u8At b 1 ≤ 25 && u8At b 2 ≤ 1 && u8At b 3 ≤ 3 && 5 ≤ u8At b 4 && u8At b 4 ≤ 25 && u8At b 5 ≤ 3 &&
  u8At b 6 ≤ 1 && u8At b 7 == 0
/-- A flag of a HEAD record: 0 ENABLE, 1 FRAC, 2 DSI, 3 COMMAND, 4 MIRROR. -/
def headFlag (b : List Byte) (i : Nat) : Bool := (u8At b 2).testBit i
/-- The fields of HEAD (R43, R206). -/
def headOk (b : List Byte) : Bool :=
  u8At b 0 ≤ 7 && u8At b 1 ≤ 11 && u8At b 2 < 32 && (u8At b 0 ≥ 4 || !headFlag b 2) && (headFlag b 2 || !headFlag b 3) &&
  !(headFlag b 1 && u8At b 1 == 11) && (headFlag b 2 || u8At b 4 ≤ 3) && (!headFlag b 4 || u8At b 3 ≤ 7) && zeroAt b 5 3
/-- KIND and TWIN of the eight posts of a FLOCK body. -/
def flockKinds (b : List Byte) : List (Nat × Nat) := (List.range 8).map (fun c => (u8At b (16 + 4 * c), u8At b (17 + 4 * c)))
/-- The fields of FLOCK (R44). -/
def flockOk (b : List Byte) : Bool :=
  u8At b 0 ≤ 15 && (u8At b 1 ≤ 7 || u8At b 1 == 0xFF) && zeroAt b 2 2 && 256 ≤ u16At b 0xC && u16At b 0xC ≤ 7680 && zeroAt b 0xE 2 &&
  (flockKinds b).all (fun k => k.1 ≤ 4 && (k.2 == 0 || (k.2 == 1 && 1 ≤ k.1 && k.1 ≤ 3))) &&
  (List.range 8).all (fun c => zeroAt b (18 + 4 * c) 2)
/-- A slot entry: flock or slot, cell, layer and SFLAGS. -/
def slotEntry (b : List Byte) (o : Nat) : List Nat := [u8At b o, u8At b (o + 1), u8At b (o + 2), u8At b (o + 3)]
/-- The cell, layer and SFLAGS of a slot entry lie in range. -/
def entryOk (e : List Nat) : Bool := e.getD 1 0 ≤ 7 && e.getD 2 0 ≤ 1 && e.getD 3 0 ≤ 1
/-- The 32 slot entries of a SLOTMAP body. -/
def slotEntries (b : List Byte) : List (List Nat) := (List.range 32).map (fun s => slotEntry b (4 + 4 * s))
/-- The fields of SLOTMAP (R45): SRC_CELL, LAYER and SFLAGS lie in range in every entry, empty or not. -/
def slotmapOk (b : List Byte) : Bool :=
  u8At b 0 ≤ 7 && zeroAt b 1 3 &&
  (slotEntries b).all (fun e => (e.getD 0 0 == 0xFF || e.getD 0 0 ≤ 15) && entryOk e)
/-- The fields of MEMPART that 0x09 covers (R47): COUNT and the KIND of each region. -/
def mempartOk (b : List Byte) : Bool :=
  u32At b 0 ≤ 256 && (List.range (u32At b 0)).all (fun i => 1 ≤ u8At b (20 + 24 * i) && u8At b (20 + 24 * i) ≤ 4)
/-- The fields of YOKE that 0x09 covers (R49). -/
def yokeOk (b : List Byte) : Bool :=
  u8At b 0 ≤ 7 && u8At b 1 ≤ 3 && zeroAt b 2 2 && (List.range 14).all (fun w => u32At b (16 + 4 * w) / 2 ^ 20 % 2 ^ 11 == 0) &&
  (u8At b 1 % 2 == 0 || (u32At b 12 % 4 == 0 && u32At b 12 ≤ 0x20000 && u32At b 4 % 4 == 0))
/-- The fields of HERD (R50, R233). -/
def herdOk (b : List Byte) : Bool := u8At b 1 ≤ 2 && u8At b 2 ≤ 3 && u8At b 3 == 0 && (u8At b 1 != 0 || u8At b 2 != 0)

/-- An entry of CONJ: channel, clause, event, task, CFLAGS and owner (R52). -/
structure ConjEntry where
  chan : Nat
  clause : Nat
  event : Nat
  task : Nat
  flags : Nat
  owner : Nat
  deriving DecidableEq, Repr

/-- The entries of a CONJ body. -/
def conjEntries (b : List Byte) : List ConjEntry :=
  (List.range (u16At b 0)).map (fun i =>
    let o := 4 + 8 * i
    { chan := u8At b o, clause := u8At b (o + 1), event := u16At b (o + 2), task := u16At b (o + 4), flags := u8At b (o + 6),
      owner := u8At b (o + 7) })
/-- Whether a list has no repeats. -/
def noRepeats : List Nat → Bool
  | [] => true
  | a :: l => !l.contains a && noRepeats l
/-- The fields of CONJ (R52). -/
def conjOk (b : List Byte) : Bool :=
  u16At b 0 ≤ 128 && noRepeats ((conjEntries b).map (·.chan)) && (conjEntries b).all (fun e =>
    e.chan ≤ 127 && e.clause ≤ 15 && eventAssigned e.event && taskAssigned e.task && e.flags < 16 && e.owner ≤ 7)

/-- The slot entries of a VARIANT body. -/
def variantSlots (b : List Byte) : List (List Nat) := (List.range (u8At b 3)).map (fun i => slotEntry b (56 + 4 * i))
/-- The register entries of a VARIANT body. -/
def variantRegs (b : List Byte) : List (Nat × Word) := regPairs (b.drop (56 + 4 * u8At b 3))
/-- The FLOCK body of a VARIANT body. -/
def variantFlock (b : List Byte) : List Byte := (b.drop 8).take 48
/-- The fields of VARIANT (R69). DEDUCED, log entry 25. -/
def variantOk (b : List Byte) : Bool :=
  u16At b 0 ≤ 0xFFFE && u8At b 2 ≤ 15 && u8At b 3 ≤ 32 && zeroAt b 6 2 && flockOk (variantFlock b) &&
  (variantSlots b).all (fun e => e.getD 0 0 ≤ 31 && entryOk e)

/-- The fields of a record: the code that refuses it, 0 for none. -/
def recFields (r : ImgRec) : Nat :=
  let ok : Bool := match r.ty with
    | 1 => regimeOk r.body
    | 2 => headOk r.body
    | 3 => flockOk r.body
    | 4 => slotmapOk r.body
    | 5 => mempartOk r.body
    | 6 => yokeOk r.body
    | 7 => herdOk r.body
    | 8 => zeroAt r.body 2 2
    | 9 => conjOk r.body
    | 0xA => r.body.length % 8 == 0
    | 0xC => variantOk r.body
    | 0xFFFF => u8At r.body 0 ≤ 3 && zeroAt r.body 1 3 && zeroAt r.body 0x65 3
    | _ => true
  if ok then 0 else if r.ty = 0xC then 0x11 else 9

/-- The rules of one record. DEDUCED, log entry 24. -/
def recCheck (p : ImgRec × Nat) : Refused :=
  let r := p.1
  if !knownType r.ty && r.flags % 2 = 1 then some (8, p.2)
  else if r.flags / 2 ≠ 0 then some (9, p.2)
  else if (match bodySize r with | some n => n != r.body.length | none => false) then some (9, p.2)
  else match recFields r with
    | 0 => none
    | c => some (c, p.2)

/-! ### Counts (R41): code 0x0A -/

/-- At most n records of a TYPE: the first beyond that count is at fault. -/
def atMost (recs : List ImgRec) (ty n : Nat) : Refused :=
  match (recsOf recs ty)[n]? with
  | some p => some (0xA, p.1)
  | none => none
/-- The first record whose index repeats that of an earlier one. -/
def firstRepeat : List Nat → List (Nat × Nat) → Refused
  | _, [] => none
  | seen, (n, i) :: l => if seen.contains i then some (0xA, n) else firstRepeat (i :: seen) l
/-- At most one record of a TYPE for each index in its byte 0. -/
def atMostEach (recs : List ImgRec) (ty : Nat) : Refused := firstRepeat [] ((recsOf recs ty).map (fun p => (p.1, u8At p.2 0)))

/-- The HEAD record of a head. -/
def headRec (recs : List ImgRec) (h : Nat) : Option (Nat × List Byte) := (recsOf recs 2).find? (fun p => u8At p.2 0 == h)
/-- A head that is enabled and not mirrored. -/
def headActive (recs : List ImgRec) (h : Nat) : Bool :=
  match headRec recs h with
  | some p => headFlag p.2 0 && !headFlag p.2 4
  | none => false
/-- The FLOCK body of a flock. -/
def flockRec (recs : List ImgRec) (f : Nat) : List Byte :=
  (((recsOf recs 3).find? (fun p => u8At p.2 0 == f)).map (·.2)).getD []
/-- The SLOTMAP record of a head. -/
def slotRec (recs : List ImgRec) (h : Nat) : Option (Nat × List Byte) := (recsOf recs 4).find? (fun p => u8At p.2 0 == h)

/-- The counts of an image. DEDUCED, log entry 24. -/
def countCheck (recs : List ImgRec) : Refused :=
  let missing (ok : Bool) : Refused := need ok 0xA 0
  firstRefusal [1, 7, 5, 8, 9, 0xB] (fun ty => atMost recs ty 1)
    <|> firstRefusal [2, 3, 4, 6] (atMostEach recs)
    <|> atMost recs 0xC 64
    <|> missing ((recsOf recs 1).length == 1 && (recsOf recs 7).length == 1 && (recsOf recs 3).length == 16)
    <|> missing ((recsOf recs 6).any (fun p => u8At p.2 0 == 0))
    <|> firstRefusal (recsOf recs 4) (fun p => need (headActive recs (u8At p.2 0)) 0xA p.1)
    <|> missing ((List.range 8).all (fun h => !headActive recs h || (slotRec recs h).isSome))

/-! ### Structure (R46, R49, R193, R207, R225): code 0x0B -/

/-- Whether a DisplayPort LINK carries a mode at 8 bits per component (R216). -/
def carries8 (link mode : Nat) : Bool := link ≥ 2 || mode ≤ 7 || mode == 11
/-- Whether a DSI head can run a mode (R207). -/
def dsiRuns (mode : Nat) : Bool := mode ≤ 7 || mode == 11

/-- The rules of a HEAD record, enabled or not (R43, R207, R224). -/
def headStructure (recs : List ImgRec) (p : Nat × List Byte) : Refused :=
  let b := p.2
  let ok := (if headFlag b 2 then dsiRuns (u8At b 1) else carries8 (u8At b 4) (u8At b 1)) &&
    (!headFlag b 4 || (match headRec recs (u8At b 3) with
      | some (_, s) => headFlag s 0 && !headFlag s 4 && u8At s 1 == u8At b 1 && headFlag s 1 == headFlag b 1 &&
          !headFlag b 3 && !headFlag s 3
      | none => false))
  need ok 0xB p.1

/-- The rules of an enabled yoke: its code lies in one BLOB body and its ENTRY in the code. -/
def yokeStructure (recs : List ImgRec) (p : Nat × List Byte) : Refused :=
  let b := p.2
  let on := u8At b 1 % 2 == 1
  let code := recs.any (fun r => r.ty == 0xD && r.off ≤ u32At b 8 && u32At b 8 + u32At b 12 ≤ r.off + r.body.length)
  if u8At b 0 = 0 && u8At b 1 ≠ 3 then some (0xB, p.1)
  else need (!on || (code && u32At b 4 < u32At b 12)) 0xB p.1

/-- The active layers of a flock: flock, post, layer and kind. -/
def layersOf (f : Nat) (b : List Byte) : List (Nat × Nat × Nat × Nat) :=
  (flockKinds b).zipIdx.flatMap (fun p =>
    if p.1.1 = 0 then [] else (f, p.2, 0, p.1.1) :: (if p.1.2 = 1 then [(f, p.2, 1, p.1.1)] else []))

/-- A slot map matches the layers of its head: each in exactly one slot, SCALED on VIDEO slots alone, at most 4 of them. `slots` holds
flock (255 for an empty slot), post, layer and SCALED. -/
def slotsMatch (layers : List (Nat × Nat × Nat × Nat)) (slots : List (Nat × Nat × Nat × Bool)) : Bool :=
  let used := slots.filter (fun s => s.1 != 0xFF)
  let scaled := slots.filter (fun s => s.2.2.2)
  layers.all (fun y => (used.filter (fun s => s.1 == y.1 && s.2.1 == y.2.1 && s.2.2.1 == y.2.2.1)).length == 1) &&
  used.length == layers.length && scaled.length ≤ 4 &&
  slots.all (fun s => s.2.2.2 == (s.1 != 0xFF && layers.contains (s.1, s.2.1, s.2.2.1, 4)))

/-- The slots of a SLOTMAP body. -/
def slotsOf (b : List Byte) : List (Nat × Nat × Nat × Bool) :=
  (slotEntries b).map (fun e => (e.getD 0 0, e.getD 1 0, e.getD 2 0, e.getD 3 0 % 2 == 1))

/-- A flock has its lenders under a LEND_DEPTH code (R193). DEDUCED, log entry 26. -/
def lendersOk (depth : Nat) (b : List Byte) : Bool :=
  depth * ((flockKinds b).filter (fun k => k.1 == 4)).length ≤ ((flockKinds b).filter (fun k => k.1 == 0)).length

/-- The rules of a flock. DEDUCED, log entry 26. -/
def flockStructure (recs : List ImgRec) (p : Nat × List Byte) : Refused :=
  need ((u8At p.2 1 == 0xFF || headActive recs (u8At p.2 1)) && lendersOk (u8At (bodyOf recs 1) 3) p.2) 0xB p.1

/-- The flocks of a head, in order. -/
def flocksFor (recs : List ImgRec) (h : Nat) : List Nat := (List.range 16).filter (fun f => u8At (flockRec recs f) 1 == h)

/-- The rules of an enabled head that is not mirrored: 1 to 4 flocks, and its slot map. -/
def slotStructure (recs : List ImgRec) (h : Nat) : Refused :=
  if !headActive recs h then none
  else
    let fs := flocksFor recs h
    let n (r : Option (Nat × List Byte)) : Nat := (r.map (·.1)).getD 0
    need (1 ≤ fs.length && fs.length ≤ 4) 0xB (n (headRec recs h))
      <|> need (slotsMatch (fs.flatMap (fun f => layersOf f (flockRec recs f)))
            (slotsOf (((slotRec recs h).map (·.2)).getD []))) 0xB (n (slotRec recs h))

/-- Every structure rule. DEDUCED, log entry 24. -/
def structureCheck (recs : List ImgRec) : Refused :=
  firstRefusal (recsOf recs 6) (yokeStructure recs)
    <|> firstRefusal (recsOf recs 2) (headStructure recs)
    <|> firstRefusal (recsOf recs 3) (flockStructure recs)
    <|> firstRefusal (List.range 8) (slotStructure recs)

/-! ### Draught and twin mode (R27, R97): codes 0x0C and 0x0D -/

/-- Whether a FLOCK body sets twin mode in some cell. -/
def setsTwin (b : List Byte) : Bool := (flockKinds b).any (fun k => k.2 == 1)

/-- An image that selects Draught holds the Draught values and no twin cell. DEDUCED, log entry 24. -/
def draughtCheck (recs : List ImgRec) : Refused :=
  let b := bodyOf recs 1
  if u8At b 0 = 0 then none
  else need (u8At b 1 == 5 && u8At b 2 == 0 && u8At b 4 == 10 && u8At b 5 == 2) 0xC (((recsOf recs 1).head?.map (·.1)).getD 0)
    <|> firstRefusal (recsOf recs 3) (fun p => need (!setsTwin p.2) 0xC p.1)

/-- Each twin cell's doubled rate lies within the guaranteed throughput at RAIL_CAP. -/
def twinCheck (recs : List ImgRec) : Refused :=
  firstRefusal (recsOf recs 3) (fun p =>
    match headRec recs (u8At p.2 1) with
    | some (_, h) => need (!setsTwin p.2 || twinFits (u8At h 1) (u8At (bodyOf recs 1) 1)) 0xD p.1
    | none => none)

/-! ### Static event loops (R53, R339): code 0x0E -/

/-- The events that a task can raise. -/
def taskRaises (t : Nat) : List Nat :=
  if 0x100 ≤ t && t < 0x180 then (if t % 4 ≤ 1 then let n := (t - 0x100) / 4; [0x280 + 2 * n, 0x281 + 2 * n] else [])
  else if 0x200 ≤ t && t < 0x280 then (if t % 4 = 1 then [] else let e := t / 4 * 4; [e, e + 1, e + 2])
  else if 0x290 ≤ t && t < 0x2A0 then (if t % 2 = 0 then [0x2D0 + (t - 0x290)] else [])
  else if t = 0x2A8 then [0x2F2]
  else if t = 0x2A9 then [0x2F3]
  else if 0x400 ≤ t && t < 0x600 then let q := (t - 0x400) / 4; [0x300 + 2 * q, 0x301 + 2 * q]
  else []

/-- The clauses that are on at load or that a channel of the graph turns on, found in n passes. -/
def graphClauses (es : List ConjEntry) : Nat → List Nat → List Nat
  | 0, cs => cs
  | n + 1, cs =>
    graphClauses es n (es.foldl (fun cs e =>
      if e.flags % 2 = 1 && cs.contains e.clause && 0x10 ≤ e.task && e.task < 0x20 && !cs.contains (e.task - 0x10)
      then (e.task - 0x10) :: cs else cs) cs)

/-- Remove, n times over, the channels that lead to no other channel left. -/
def pruneGraph : Nat → List ConjEntry → List ConjEntry
  | 0, es => es
  | n + 1, es => pruneGraph n (es.filter (fun x => es.any (fun y => (taskRaises x.task).contains y.event)))

/-- No static event loop: each cycle of the graph holds a METRONOME channel, and METRONOME stands on timer tasks only. -/
def loopOk (es : List ConjEntry) (on : Nat) : Bool :=
  let cs := graphClauses es 16 ((List.range 16).filter (fun c => on.testBit c))
  let g := es.filter (fun e => e.flags % 2 == 1 && cs.contains e.clause && !e.flags.testBit 3)
  es.all (fun e => !e.flags.testBit 3 || taskIsTimer e.task) && (pruneGraph g.length g).isEmpty

/-- The rule over the CONJ record. DEDUCED, log entry 24. -/
def loopCheck (recs : List ImgRec) : Refused :=
  firstRefusal (recsOf recs 9) (fun p => need (loopOk (conjEntries p.2) (u16At p.2 2)) 0xE p.1)

/-! ### Memory partition (R47, R48): code 0x0F -/

/-- The regions of a MEMPART body: base and length. -/
def regionsOf (b : List Byte) : List (Nat × Nat) := (List.range (u32At b 0)).map (fun i => (u64At b (4 + 24 * i), u64At b (12 + 24 * i)))
/-- Whether two spans meet. -/
def regionsMeet (a b : Nat × Nat) : Bool := a.1 < b.1 + b.2 && b.1 < a.1 + a.2
/-- Whether no two spans of a list meet. -/
def regionsApart : List (Nat × Nat) → Bool
  | [] => true
  | a :: l => l.all (fun b => !regionsMeet a b) && regionsApart l
/-- The reserve pool (R48). -/
def poolSpans (il : Bool) : List (Nat × Nat) :=
  if il then [(0xBF8000000, 0x8000000)] else [(0x5FC000000, 0x4000000), (0xBFC000000, 0x4000000)]
/-- RFLAGS and the reserved bytes of every region of a MEMPART body (R47). -/
def regionFlagsOk (b : List Byte) : Bool :=
  (List.range (u32At b 0)).all (fun i => u8At b (21 + 24 * i) ≤ 3 && zeroAt b (22 + 24 * i) 6)
/-- The rules of the regions. DEDUCED, log entry 24. -/
def partitionCheck (recs : List ImgRec) : Refused :=
  let il := u8At (bodyOf recs 1) 6 == 1
  firstRefusal (recsOf recs 5) (fun p =>
    let rs := regionsOf p.2
    need (rs.all (fun r => r.1 % 4096 == 0 && r.2 % 4096 == 0 && r.2 > 0 && r.1 + r.2 ≤ 0xC00000000 &&
      (poolSpans il).all (fun q => !regionsMeet r q)) && regionsApart rs && regionFlagsOk p.2) 0xF p.1)

/-! ### Register entries (R56): code 0x10 -/

/-- Whether R56 lets a register entry target an offset with a value; `kt` gives KIND and TWIN of each post. -/
def targetOk (kt : Nat → Nat → Nat × Nat) (e : Nat × Word) : Bool :=
  let row : Option RegRow := match pageOf e.1 with
    | none => none
    | some (.cell f p, o) =>
      if p = 8 then (spareRow o).map (·.1) else (cellRow (kt f p).1 ((kt f p).2 == 1) o).map (·.1)
    | some (pg, o) => (findRow pg.rows o).map (·.1)
  match row with
  | none => false
  | some r =>
    let m := r.rw ||| r.rwl ||| r.wo ||| r.w1c ||| r.w1s
    0x40000 ≤ e.1 && e.1 % 4 = 0 && m ≠ 0 && r.rwk = 0 && e.2 &&& ~~~ m = 0

/-- KIND and TWIN of the posts as the FLOCK records give them. -/
def imageKinds (recs : List ImgRec) (f p : Nat) : Nat × Nat := (flockKinds (flockRec recs f)).getD p (0, 0)

/-- The targets of every REGSET. DEDUCED, log entry 24. -/
def regsetCheck (recs : List ImgRec) : Refused :=
  firstRefusal (recsOf recs 0xA) (fun p => need ((regPairs p.2).all (targetOk (imageKinds recs))) 0x10 p.1)

/-! ### Keep layout and variants (R54, R69, R70): code 0x11 -/

/-- The entries of a KEEPLAYOUT body: REC_ID, WORDS and KEEP_OFF. -/
def layoutEntries (b : List Byte) : List (Nat × Nat × Nat) :=
  (List.range (u32At b 0)).map (fun i => (u16At b (4 + 8 * i), u16At b (6 + 8 * i), u32At b (8 + 8 * i)))
/-- The rules of the keep layout. -/
def layoutOk (b : List Byte) : Bool :=
  let es := layoutEntries b
  u32At b 0 ≤ 512 && es.all (fun e => 1 ≤ e.2.1 && e.2.1 ≤ 64 && e.2.2 % 4 == 0 && e.2.2 + 4 * e.2.1 ≤ 0xE000) &&
  noRepeats (es.map (·.1)) && regionsApart (es.map (fun e => (e.2.2, 4 * e.2.1)))

/-- Whether an offset lies in a cell page of a flock. -/
def inCellPages (f off : Nat) : Bool := 0x1010000 + f * 0x100000 ≤ off && off < 0x1090000 + f * 0x100000

/-- The rules of a variant against the base records (R69, R70). DEDUCED, log entry 25. -/
def variantFits (recs : List ImgRec) (b : List Byte) : Bool :=
  let f := u8At b 2
  let v := variantFlock b
  let base := flockRec recs f
  let kt (g p : Nat) : Nat × Nat := if g = f then (flockKinds v).getD p (0, 0) else imageKinds recs g p
  let slots := ((slotRec recs (u8At base 1)).map (fun p => slotEntries p.2)).getD []
  u8At v 0 = f && u8At v 1 = u8At base 1 &&
  (variantRegs b).all (fun e => inCellPages f e.1 && targetOk kt e) &&
  (variantSlots b).all (fun e => match slots[e.getD 0 0]? with
    | some s => s.getD 0 0 == 0xFF || s.getD 0 0 == f
    | none => false)

/-- The keep layout and every variant. DEDUCED, log entry 24; DEDUCED, log entry 25. -/
def layoutCheck (recs : List ImgRec) : Refused :=
  firstRefusal (recsOf recs 0xB) (fun p => need (layoutOk p.2) 0x11 p.1)
    <|> firstRefusal (recsOf recs 0xC) (fun p =>
      let before := (recsOf recs 0xC).filter (fun q => q.1 < p.1)
      need (variantFits recs p.2 && !before.any (fun q => u16At q.2 0 == u16At p.2 0) &&
        before.foldl (fun n q => n + q.2.length) p.2.length ≤ 0x10000) 0x11 p.1)

/-! ### The whole image -/

/-- Framing, record rules, counts and structure of an accepted signature (step 5 of the load): `n` is REC_COUNT.
DEDUCED, log entry 21; DEDUCED, log entry 24. -/
def recordChecks (recs : List ImgRec) (n : Nat) : Refused :=
  need (recs.length == n + 1 && 2 ≤ n && n ≤ 4096) 7 0
    <|> firstRefusal recs.zipIdx recCheck
    <|> countCheck recs
    <|> structureCheck recs
    <|> draughtCheck recs
    <|> twinCheck recs
    <|> loopCheck recs
    <|> partitionCheck recs
    <|> regsetCheck recs
    <|> layoutCheck recs

/-- Every check of an image of which `get` reads bytes: the records with the header as record 0, and the refusal. DEDUCED, log entry 23. -/
def checkImage (d : Dev) (len : Option Nat) (get : Nat → Nat → List Byte) : Refused × List ImgRec :=
  let h := get 0 64
  match headerCheck d len h with
  | some r => (some r, [])
  | none =>
    let n := u32At h 8
    let img := get 0 n
    let walk := frameRecs 4097 1 64 (n - 64) (img.drop 64)
    let recs : List ImgRec := match walk with
      | .inl _ => []
      | .inr rs => { ty := headerType, flags := 0, off := 0, body := h } :: rs
    let broken : Refused := match walk with
      | .inl r => some (7, r)
      | .inr _ => none
    let tail := img.drop (n - 208)
    if 272 ≤ n && u16At tail 0 == 0xFFFF && u32At tail 4 == 200 then
      let num := if recs.isEmpty then u16At h 0xC else recs.length - 1
      (sigCheck d img (tail.drop 8) num <|> broken <|> recordChecks recs (u16At h 0xC), recs)
    else (broken <|> some (9, recs.length - 1), recs)

end Sys2Proof.Machine
end

