-- ==== Sys2Proof/Machine/Image.lean ====
section
/-! DEFINITION. The loader up to the point where an image is accepted (R61 to R66), staging and slot programming (R67, R79), the
writes of the IMAGE page (R78), and the re-pen (R68 to R77). -/
namespace Sys2Proof.Machine

/-- Change the loader. -/
def Dev.ldUpd (d : Dev) (f : Loader → Loader) : Dev := { d with ld := f d.ld }

/-! ### Slots (R61 to R64) -/

/-- The flash offset of a slot: 0 A, 1 B, 2 golden (R61). -/
def slotBase (k : Nat) : Nat := if k = 0 then 0x1000000 else if k = 1 then 0x2000000 else 0
/-- The bytes of a slot. -/
def slotBytes (s : State) (k o n : Nat) : List Byte := Store.getList (fun _ => 0xFF) s.mem.flash (slotBase k + o) n

/-- SLOT of SLOT_CTRL. -/
def slotSel (d : Dev) : Nat := d.fld Reg.SLOT_CTRL 1 0
/-- FAIL_COUNT of SLOT_CTRL. -/
def failCount (d : Dev) : Nat := d.fld Reg.SLOT_CTRL 3 2
/-- The device's own write of FAIL_COUNT. -/
def setFailCount (n : Nat) (d : Dev) : Dev := keepDevField Reg.SLOT_CTRL (putFld (d.rd Reg.SLOT_CTRL) 3 2 n) d

/-- The loader chooses a slot (R62); `bad` says that the keep store returns SLOT as poison. -/
def chooseSlot (bad : Bool) (d : Dev) : Dev :=
  let go (k : Nat) (fb : Bool) (d : Dev) : Dev := (d.ldUpd (fun l => { l with phase := 1, slot := k, recs := [] })).putBit Reg.IMAGE_STATUS 1 fb
  if bad || slotSel d = 3 then go 2 true d
  else if slotSel d = 2 || failCount d ≥ 2 then go 2 (slotSel d != 2) d
  else go (slotSel d) false (setFailCount (min 3 (failCount d + 1)) d)

/-- LOAD_START: after step 5 of the boot table the loader starts (R568); in an exit from deep standby it takes the slot last loaded and
leaves FAIL_COUNT (R562). -/
def loadStart (bad : Bool) (d : Dev) : Dev :=
  if d.pw.boot ≠ 5 || d.ld.phase ≠ 0 || d.bit Reg.IMAGE_STATUS 5 then d
  else
    let d := { d with pw := { d.pw with boot := 6 } }
    if d.pw.kind = 3 then
      (d.ldUpd (fun l => { l with phase := 1, slot := d.pw.slot, recs := [] })).putBit Reg.IMAGE_STATUS 1 (d.pw.slot = 2 && slotSel d ≠ 2)
    else chooseSlot bad d

/-- The exit from deep standby ends in a full boot: the deep checkpoints are dropped (R562). -/
def fullBoot (d : Dev) : Dev := { d with pw := { d.pw with kind := 0, deep := [] } }

/-- A refusal: the code and the record; the load restarts at once, or golden leaves the device in HALT (R63, R66). -/
def loadRefused (bad : Bool) (r : Nat × Nat) (d : Dev) : Dev :=
  let d := (d.setFld Reg.IMAGE_STATUS 15 8 r.1).setFld Reg.IMAGE_STATUS 31 16 r.2
  if d.pw.kind = 3 then chooseSlot bad (fullBoot d)
  else if d.ld.slot = 2 then (d.ldUpd (fun l => { l with phase := 0 })).setBit Reg.IMAGE_STATUS 5
  else chooseSlot bad d

/-- The loader's staging area in the shared SRAM (R566). -/
def stagingArea : Nat := 0x1000800000
/-- Step 3 of a load: an image whose header passes is read into the staging area (R65). DESIGN CHOICE, log entry 28. -/
def loadCopy (s : State) : State :=
  let h := slotBytes s s.dev.ld.slot 0 64
  match headerCheck s.dev none h with
  | some _ => s
  | none => memWrite stagingArea (slotBytes s s.dev.ld.slot 0 (u32At h 8)) s

/-- LOAD_CHECK_DONE: the image is read and checked, and accepted or refused (R66). -/
def loadCheck (bad : Bool) (s : State) : State :=
  if s.dev.ld.phase ≠ 1 then s
  else
  let s := loadCopy s
  match checkImage s.dev none (slotBytes s s.dev.ld.slot) with
    | (some r, _) => s.upd (loadRefused bad r)
    | (none, recs) => s.upd (fun d =>
      if d.pw.kind = 3 && w32 (serialOf recs) ≠ d.pw.serial then chooseSlot bad (fullBoot d)
      else d.ldUpd (fun l => { l with phase := 2, recs := recs }))

/-! ### Staging and programming (R67, R79) -/

/-- The staged image's system address. -/
def stageAddr (d : Dev) : Nat := (d.rd Reg.STAGE_ADDR_LO).toNat + d.fld Reg.STAGE_ADDR_HI 15 0 * 2 ^ 32

/-- The result of the checks of a staged image: the code with the record at fault, and the bytes. The header is read whole even where LEN is
less, so that such a LEN meets the IMAGE_LEN it differs from. DEDUCED, log entry 27; DEDUCED, log entry 121. -/
def stageCheck (s : State) : (Nat × Nat) × List Byte × State :=
  let a := stageAddr s.dev
  let len := (s.dev.rd Reg.STAGE_LEN).toNat
  let n := max len 64
  if a % 4 ≠ 0 then ((0x22, 0), [], s)
  else if !memOk s.dev a n || (!s.dev.hbmUp && a < 0xC00000000) then
    ((0x22, 0), [], if poolHit s.dev a n then s.upd (fun d => d.setBit Reg.MEM_FLAGS 9) else s)
  else
    let (b, p, s) := memRead 1 a n s
    if p then ((0x23, 0), [], s)
    else ((checkImage s.dev (some len) (fun o k => (b.drop o).take k)).1.getD (0, 0), b, s)

/-- Erase a slot. -/
def eraseSlot (k : Nat) (s : State) : State :=
  { s with mem := { s.mem with flash := Store.keep (fun a => !(slotBase k ≤ a && a < slotBase k + 0x1000000)) s.mem.flash } }
/-- The slot that a command programs: PROGRAM_A, PROGRAM_B, PROGRAM_GOLDEN. -/
def progSlot (cmd : Nat) : Nat := cmd - 2

/-- A STAGE_CMD write (R67): the checks run on the staged copy; a PROGRAM command whose checks pass erases its slot.
DEDUCED, log entry 27. -/
def stageCmd (q : Req) (cmd : Nat) (s : State) : State :=
  if !s.dev.keeper q then s.upd Dev.deny
  else if cmd = 0 || cmd > 4 || s.dev.bit Reg.STAGE_STATUS 0 then s.upd Dev.okay
  else
    let start (c : Nat × Nat) (b : List Byte) (s : State) : State :=
      s.upd (fun d => ((d.ldUpd (fun l => { l with stage := some { cmd := cmd, code := c.1, record := c.2, data := b } })).setBit
        Reg.STAGE_STATUS 0).okay)
    if cmd = 4 && s.dev.bit Reg.SLOT_CTRL 4 then start (0x21, 0) [] s
    else
      let (c, b, s) := stageCheck s
      if c.1 ≠ 0 || cmd = 1 then start c [] s else start c b (eraseSlot (progSlot cmd) s)

/-- STAGE_CMD_DONE: the slot is written and read back; `bad` says that the read-back differs. DEDUCED, log entry 27. -/
def stageDone (bad : Bool) (s : State) : State :=
  match s.dev.ld.stage with
  | none => s
  | some c =>
    let writes := c.cmd ≠ 1 && c.code = 0
    let fl := if writes then Store.setList (fun _ => 0xFF) s.mem.flash (slotBase (progSlot c.cmd)) c.data else s.mem.flash
    let s := { s with mem := { s.mem with flash := fl } }
    let code := if writes && bad then 0x20 else c.code
    s.upd (fun d =>
      let d := (d.ldUpd (fun l => { l with stage := none })).clrBit Reg.STAGE_STATUS 0
      let d := (d.setFld Reg.STAGE_STATUS 15 8 code).setFld Reg.STAGE_STATUS 31 16 c.record
      d.setBit Reg.STAGE_STATUS (if code = 0 then 1 else 2))

/-! ### Keep-backed registers of the page (R64, R78) -/

/-- A BOOT_OK write confirms the boot: FAIL_COUNT clears while FALLBACK is clear, and BOOT_WDT stops. -/
def bootOk (q : Req) (v : Word) (d : Dev) : Dev :=
  if !d.keeper q then d.deny
  else if !bitOf v 0 then d.okay
  else
    let d := { d with pw := { d.pw with wdt := none } }
    (if d.bit Reg.IMAGE_STATUS 1 then d else setFailCount 0 d).okay

/-- A SLOT_CTRL write: not performed with SLOT 3, nor with GOLDEN_WP 0 once the field is 1; else it clears FAIL_COUNT. -/
def slotCtrlWrite (q : Req) (v : Word) (d : Dev) : Dev :=
  if !d.keeper q then d.deny
  else if fld v 1 0 = 3 || (d.bit Reg.SLOT_CTRL 4 && !bitOf v 4) then d.okay
  else
    let w := (d.rd Reg.SLOT_CTRL &&& 0xC) ||| (v &&& 0x13)
    let d := keepPart Reg.SLOT_CTRL 1 0x10 w (keepPart Reg.SLOT_CTRL 0 3 w d)
    (if (d.rd Reg.SLOT_CTRL ^^^ w) &&& 0x13 = 0 then setFailCount 0 d else d).okay

/-- A MIN_SERIAL write: not below the present value, nor above IMAGE_SERIAL. -/
def minSerialWrite (q : Req) (v : Word) (d : Dev) : Dev :=
  if !d.keeper q then d.deny
  else if v < d.rd Reg.MIN_SERIAL || d.rd Reg.IMAGE_SERIAL < v then d.okay
  else (keepField Reg.MIN_SERIAL v d).okay

/-- A KEY_REVOKE write: each 1 revokes its slot, unless no slot both provisioned and unrevoked would remain. -/
def keyRevokeWrite (q : Req) (v : Word) (d : Dev) : Dev :=
  if !d.keeper q then d.deny
  else
    let w := d.rd Reg.KEY_REVOKE ||| (v &&& 0xF)
    if (List.range 4).any (fun k => provisioned d k && !bitOf w k) then (keepField Reg.KEY_REVOKE w d).okay else d.okay

/-- A KEY_HASH write: held while the slot reads 0, and committed with word 11. -/
def keyHashWrite (q : Req) (k i : Nat) (v : Word) (d : Dev) : Dev :=
  if !d.keeper q then d.deny
  else if provisioned d k || i > 11 then d.okay
  else
    let d := d.kp (fun p => { p with keyHeld := Store.set (fun _ => 0) p.keyHeld (16 * k + i) v })
    if i < 11 then d.okay
    else
      let d := forN 12 d (fun j d => keepDevField (Reg.KEY_HASH k j) (Store.get (fun _ => 0) d.keep.keyHeld (16 * k + j)) d)
      (d.kp (fun p => { p with keyHeld := Store.keep (fun a => a / 16 != k) p.keyHeld })).okay

/-! ### Slot maps of heads (R45, R70, R194) -/

/-- What SLOT_SRC gives of a slot: flock (255 when empty), post, layer and SCALED. -/
def slotNow (d : Dev) (h s : Nat) : Nat × Nat × Nat × Bool :=
  let w := d.rd (Reg.SLOT_SRC h s)
  (fld w 7 0, fld w 11 8, fld w 12 12, bitOf w 13)
/-- The present slot map of a head. -/
def slotsNow (d : Dev) (h : Nat) : List (Nat × Nat × Nat × Bool) := (List.range 32).map (slotNow d h)

/-- Video slots take indices 0 to 3 in increasing slot order (R194): the index of each slot. -/
def videoIndex (slots : List (Nat × Nat × Nat × Bool)) (s : Nat) : Nat :=
  if (slots.getD s (255, 0, 0, false)).2.2.2 then ((slots.take s).filter (fun e => e.2.2.2)).length else 0

/-- Enter a slot map into SLOT_SRC. -/
def setSlots (h : Nat) (slots : List (Nat × Nat × Nat × Bool)) (d : Dev) : Dev :=
  forN 32 d (fun s d =>
    let e := slots.getD s (255, 0, 0, false)
    d.wr (Reg.SLOT_SRC h s) (w32 (e.1 % 2 ^ 8 + e.2.1 % 8 * 2 ^ 8 + e.2.2.1 % 2 * 2 ^ 12 + (if e.2.2.2 then 2 ^ 13 else 0) + videoIndex slots s * 2 ^ 14)))

/-! ### Layouts of a flock (R69 to R71) -/

/-- The VARIANT body of a VAR_ID. -/
def variantRec (recs : List ImgRec) (v : Nat) : Option (List Byte) := ((recsOf recs 0xC).find? (fun p => u16At p.2 0 == v)).map (·.2)

/-- The FLOCK body of flock f under a VAR_ID, the base layout for 0xFFFF. -/
def layoutFlock (recs : List ImgRec) (f v : Nat) : List Byte :=
  match variantRec recs v with
  | some b => variantFlock b
  | none => flockRec recs f

/-- The slot entries of flock f under a VAR_ID, by slot. -/
def layoutSlots (recs : List ImgRec) (f v : Nat) : List (Nat × Nat × Nat × Nat × Bool) :=
  match variantRec recs v with
  | some b => (variantSlots b).map (fun e => (e.getD 0 0, f, e.getD 1 0, e.getD 2 0, e.getD 3 0 % 2 == 1))
  | none =>
    let base := ((slotRec recs (u8At (flockRec recs f) 1)).map (fun p => slotsOf p.2)).getD []
    (base.zipIdx.filter (fun p => p.1.1 == f)).map (fun p => (p.2, p.1))

/-- The slot map of a head with the entries of flock f replaced (R70). -/
def replaceSlots (f : Nat) (new : List (Nat × Nat × Nat × Nat × Bool)) (slots : List (Nat × Nat × Nat × Bool)) :
    List (Nat × Nat × Nat × Bool) :=
  slots.zipIdx.map (fun p =>
    match new.find? (fun e => e.1 == p.2) with
    | some e => e.2
    | none => if p.1.1 = f then (255, 0, 0, false) else p.1)

/-- The active layers of a flock as it stands. -/
def layersNow (d : Dev) (f : Nat) : List (Nat × Nat × Nat × Nat) :=
  (List.range 8).flatMap (fun p => (activeLayers d f p).map (fun l => (f, p, l, kindOf d f p)))

/-- Whether a layout keeps R46, R70, R193 and R194 for the head as it then stands. -/
def layoutFits (f v : Nat) (d : Dev) : Bool :=
  let recs := d.ld.recs
  let b := layoutFlock recs f v
  let h := flockHead d f
  let new := layoutSlots recs f v
  if !lendersOk (d.fld Reg.MODE 7 6) b then false
  else if h ≥ 8 then new.isEmpty
  else
    let now := slotsNow d h
    let next := replaceSlots f new now
    let others := (flocksOf d h).filter (· != f)
    new.all (fun e => let s := now.getD e.1 (255, 0, 0, false); s.1 == 255 || s.1 == f) &&
    slotsMatch (others.flatMap (layersNow d) ++ layersOf f b) next &&
    (!setsTwin b || twinFits (d.fld (Reg.HEAD_STATUS h) 7 4) (d.fld Reg.MODE 4 0)) &&
    (List.range 32).all (fun s => !(now.getD s (255, 0, 0, false)).2.2.2 || (now.getD s (255, 0, 0, false)).1 == f ||
      videoIndex now s == videoIndex next s)

/-! ### The request (R71 to R74) -/

/-- Change the re-pen of a flock. -/
def setRepen (f : Nat) (r : Option Repen) (d : Dev) : Dev := d.updFlock f (fun x => { x with repen := r })

/-- A request is refused. -/
def repenRefuse (cause : Nat) (d : Dev) : Dev := (d.setBit Reg.REPEN_STATUS 2).setFld Reg.REPEN_STATUS 15 8 cause

/-- The cause for which R72 refuses a re-pen of flock f to a VAR_ID; 0 when it is accepted. -/
def repenCause (f v : Nat) (d : Dev) : Nat :=
  if repenBusy d then 1
  else if d.ld.phase ≠ 3 || (v ≠ 0xFFFF && (variantRec d.ld.recs v).isNone) then 2
  else if !layoutFits f v d then 3
  else if setsTwin (layoutFlock d.ld.recs f v) && d.fld Reg.REGIME_STATUS 1 0 ≠ 0 then 4
  else 0

/-- Step 1: the request has been checked: the journal records START, and BUSY sets; or it is refused for a cause. -/
def repenAccept (cause f v : Nat) (align : Bool) (d : Dev) : Dev :=
  match cause with
  | 0 =>
    let d := d.ldUpd (fun l => { l with journal := some (f, v), serial := d.rd Reg.IMAGE_SERIAL })
    let d := (d.setBit Reg.REPEN_STATUS 0).setBit (Reg.FLOCK_STATUS f) 10
    let d := (setShadow f 15 d).updFlock f (fun x => { x with probing := false, handoff := none })
    setRepen f (some { step := 1, variant := v, align := align, since := d.clk, seq := (d.head (flockHead d f)).seq }) d
  | c => repenRefuse c (setRepen f none d)

/-- The flock that a request is for: that of its variant, or FLOCK with VAR_ID 0xFFFF. -/
def repenFlock (v : Word) (d : Dev) : Option Nat :=
  if fld v 15 0 = 0xFFFF then some (fld v 19 16) else (variantRec d.ld.recs (fld v 15 0)).map (fun b => u8At b 2)

/-- A REPEN_CTRL write (R71). A request during a takeover in its flock waits for it (R72). DEDUCED, log entry 30; DEDUCED, log entry 32. -/
def repenRequest (q : Req) (v : Word) (d : Dev) : Dev :=
  if !d.keeper q then d.deny
  else if !bitOf v 31 then d.okay
  else
    let id := fld v 15 0
    let cause (f : Nat) : Nat := repenCause f id d
    let fl := repenFlock v d
    let d := d.setFld Reg.REPEN_STATUS 31 16 id
    match fl with
    | none => (repenRefuse (if repenBusy d then 1 else 2) d).okay
    | some f =>
      let d := d.setFld Reg.REPEN_STATUS 7 4 f
      if repenBusy d || (d.flock f).repen.isSome then (repenRefuse 1 d).okay
      else if (d.flock f).takeover.isSome then
        (setRepen f (some { step := 0, variant := id, align := bitOf v 24, since := d.clk }) d).okay
      else (repenAccept (cause f) f id (bitOf v 24) d).okay

/-- A takeover of the flock has ended: a request that waited for it is checked (R72). DEDUCED, log entry 30. -/
def repenWaited (f : Nat) (d : Dev) : Dev :=
  match (d.flock f).repen with
  | some r => if r.step = 0 && (d.flock f).takeover.isNone then repenAccept (repenCause f r.variant d) f r.variant r.align d else d
  | none => d

/-! ### The steps of a re-pen (R74 to R76) -/

/-- The flock whose re-pen stands at step n, if one does. -/
def repenAt (d : Dev) (n : Nat) : Option (Nat × Repen) :=
  (List.range 16).findSome? (fun f =>
    match (d.flock f).repen with
    | some r => if r.step = n then some (f, r) else none
    | none => none)

/-- A head that sends frames: its timing generator runs. -/
def headScans (d : Dev) (f : Nat) : Bool := flockHead d f < 8 && (d.head (flockHead d f)).genOn
/-- Time passes until the first line start of a flock's head after the present instant (R74, R181). -/
def toLineStart (f : Nat) (d : Dev) : Dev :=
  if headScans d f then
    let h := flockHead d f
    let m := modeOf d h
    let n := (pixelsRun d h + 16) / m.hTot
    match [n, n + 1, n + 2].find? (fun n => decide (d.clk < lineStartClk d h n)) with
    | some n => d.passClk (lineStartClk d h n)
    | none => d
  else d
/-- Whether a step that waits for a frame start with ALIGN has seen one (R75). -/
def frameCame (d : Dev) (f : Nat) (r : Repen) : Bool := !r.align || !headScans d f || (d.head (flockHead d f)).seq != r.seq

/-- The posts of a flock. -/
def posts : List Nat := List.range 8

/-- Step 2: the flock's slots turn transparent, its cells stop and lose their stamps, and staged writes are discarded. -/
def repenBlankStep (d : Dev) : Dev :=
  match repenAt d 1 with
  | none => d
  | some (f, r) =>
    if !frameCame d f r then d
    else
      let d := if r.align then d else toLineStart f d
      let h := flockHead d f
      let dropped := posts.foldl (fun n p => n + (d.cell f p).staged.length) 0
      let d := if h < 8 then d.bumpBy (Reg.LS_DROPS h) dropped else d
      let d := posts.foldl (fun d p =>
        (clearPost f p d).updCell f p (fun c => { c with staged := [] })) d
      setRepen f (some { r with step := 2, since := d.clk, seq := (d.head h).seq }) d

/-- The base layout gives a post the same kind as a layout does. DEDUCED, log entry 32. -/
def sameKind (recs : List ImgRec) (f p : Nat) (b : List Byte) : Bool :=
  (flockKinds b).getD p (0, 0) == (flockKinds (flockRec recs f)).getD p (0, 0)

/-- KIND and TWIN of the posts, and the probe line, as a FLOCK body gives them; the layer registers take the reset values of the kind. -/
def setKinds (f : Nat) (b : List Byte) (d : Dev) : Dev :=
  let d := forN 8 d (fun p d =>
    let k := (flockKinds b).getD p (0, 0)
    layerInit f p ((d.setFld (Reg.CELL_STATUS f p) 2 0 k.1).setFld (Reg.CELL_STATUS f p) 3 3 k.2))
  d.updFlock f (fun x => { x with seed := w32 (u32At b 4), crc := w32 (u32At b 8), len := u16At b 0xC })

/-- The registers of a post's page after a change of layout: a post of the kind that the base layout gives it takes its REGSET entries, any
other its reset values. DEDUCED, log entry 32. -/
def resetPost (f p : Nat) (same : Bool) (d : Dev) : Dev :=
  let lo := 0x1010000 + f * 0x100000 + p * 0x10000
  if same then reloadRange lo (lo + 0x10000) (layerInit f p d) else layerClear f p d

/-- The flock config store is rewritten from a layout: kinds, probe line and registers (R74 step 3); the attribute stores are empty until the
next copy (R133). DEDUCED, log entry 32; DESIGN CHOICE, log entry 131. -/
def layoutApply (f v : Nat) (d : Dev) : Dev :=
  let recs := d.ld.recs
  let b := layoutFlock recs f v
  let d := setKinds f b d
  let d := forN 8 d (fun p d => (resetPost f p (v == 0xFFFF || sameKind recs f p b) d).updCell f p (fun _ => {}))
  match variantRec recs v with
  | some x => (variantRegs x).foldl (fun d e =>
      let o := e.1 - (0x1010000 + f * 0x100000)
      cellRegWrite f (o / 0x10000) (o % 0x10000) e.2 d) d
  | none => d

/-- Step 3. -/
def repenRewritten (d : Dev) : Dev :=
  match repenAt d 2 with
  | none => d
  | some (f, r) => setRepen f (some { r with step := 3 }) (layoutApply f r.variant d)

/-- The store entry of a post is lost (R99): TAKEOVER sets, and the entry is reloaded from the image, its REGSET entries and those of the
variant in force. -/
def entryLost (f p v : Nat) (d : Dev) : Dev :=
  let recs := d.ld.recs
  let d := resetPost f p (v == 0xFFFF || sameKind recs f p (layoutFlock recs f v)) d
  let at' (e : Nat × Word) : Nat := e.1 - (0x1010000 + f * 0x100000)
  let d := match variantRec recs v with
    | some x => ((variantRegs x).filter (fun e => at' e / 0x10000 == p)).foldl (fun d e => cellRegWrite f p (at' e % 0x10000) e.2 d) d
    | none => d
  d.setBit (Reg.FLOCK_IRQ f) 3

/-- Step 4 of a takeover: the spare reads the post's store entry, whose code may find a symbol error in it (R99, R264). -/
def takeoverRead (f : Nat) (code : CopyCond) (d : Dev) : Dev :=
  match (d.flock f).takeover with
  | some t =>
    if t.loaded then d
    else takeoverLoaded f (match code with
      | .good => d
      | .oneSymbol => noteArrayCorrected d
      | .bad => entryLost f t.post (d.fld (Reg.PEN_VARIANT f) 15 0) (noteArrayBad d))
  | none => d

/-- A post without a cell whose new kind is not off takes the flock's spare (R602). DEDUCED, log entry 128. -/
def repenSpare (f p : Nat) (d : Dev) : Dev :=
  if kindOf d f p ≠ 0 && postCell d f p = 15 && !underTakeover d f p && spareCell d f ≠ 15 && (d.flock f).takeover.isNone then
    let d := (setPostCell f p (spareCell d f) d).clrBit (Reg.NOCELL (f / 4)) (8 * (f % 4) + p)
    (spendSpare f d).setBit (Reg.FLOCK_IRQ f) 3
  else d

/-- Step 4: every cell loads its entry, of which `lost` names those that its code cannot correct (R99), and takes the generation stamp. -/
def repenLoaded (lost : List Nat) (d : Dev) : Dev :=
  match repenAt d 3 with
  | none => d
  | some (f, r) =>
    let d := (posts.filter (fun p => lost.contains p)).foldl (fun d p => entryLost f p r.variant (noteArrayBad d)) d
    let d := posts.foldl (fun d p => repenSpare f p d) d
    let d := forN 8 d (fun p d => if postCell d f p = 15 then d else d.wr (Reg.CELL_GEN f p) (d.rd Reg.GLOBAL_GEN))
    setRepen f (some { r with step := 4 }) d

/-- A cell that misses PROBE_CRC is retired, and the spare takes its place unless it misses too; with no spare its layers stay transparent
(R76). -/
def probeMiss (f p : Nat) (spareOk : Bool) (d : Dev) : Dev :=
  let c := postCell d f p
  let fail (d : Dev) : Dev :=
    let d := d.updFlock f (fun x => { x with waiting := x.waiting ++ [{ post := p, cell := c, ht := d.now, detect := 8, logged := true }] })
    let d := (retireCell f c (clearPost f p (d.setBit (Reg.FLOCK_STATUS f) 9))).setBit Reg.REPEN_STATUS 3
    faultLog 1 8 (cellIndex f c) 2 6 (cellAux d f) d
  if spareCell d f = 15 then fail d
  else if spareOk then
    let d := loseSpare f (retireCell f c (swapSpare f p d))
    faultLog 1 8 (cellIndex f c) 1 1 (cellAux d f) (d.setBit (Reg.FLOCK_IRQ f) 3)
  else
    let sp := spareCell d f
    let d := loseSpare f (retireCell f sp d)
    fail (faultLog 1 8 (cellIndex f sp) 2 1 (cellAux d f) d)

/-- The posts of a flock that are active and have a cell. -/
def servedPosts (d : Dev) (f : Nat) : List Nat := posts.filter (fun p => kindOf d f p != 0 && postCell d f p != 15 && !underTakeover d f p)

/-- The probe line of each cell of a flock is checked: `bad` lists the posts whose cell builds it wrong, and a line whose CRC is not
PROBE_CRC is missed by every cell (R76, R102). -/
def probeCells (f : Nat) (bad : List Nat) (spareOk : Bool) (d : Dev) : Dev :=
  let good := probeGood d f
  ((servedPosts d f).filter (fun p => !good || bad.contains p)).foldl (fun d p => probeMiss f p (spareOk && good) d) d

/-- Step 5: the probe lines are checked. The cells then fill their line buffers from the line at which the slots may return.
DEDUCED, log entry 32. -/
def repenProbed (bad : List Nat) (spareOk : Bool) (d : Dev) : Dev :=
  match repenAt d 4 with
  | none => d
  | some (f, r) =>
    let d := probeCells f bad spareOk d
    let h := flockHead d f
    let due := dueLine d h
    let from_ := if r.align then (due.1 + 1, 0) else if due.2 + 4 < (modeOf d h).vAct then (due.1, due.2 + 4) else (due.1 + 1, 0)
    let fix (y : LayerSt) : LayerSt := { y with frame := from_.1, next := from_.2, lineColl := [] }
    let d := (servedPosts d f).foldl (fun d p => d.updCell f p (fun c => { c with l0 := fix c.l0, l1 := fix c.l1 })) d
    setRepen f (some { r with step := 5, since := d.clk, seq := (d.head h).seq }) d

/-- A cell rejoins after a re-pen: one whose stamp is not GLOBAL_GEN loads its entry again and takes it (R101). -/
def repenJoin (f p : Nat) (d : Dev) : Dev :=
  (d.wr (Reg.CELL_GEN f p) (d.rd Reg.GLOBAL_GEN)).setBit (Reg.CELL_STATUS f p) 13

/-- Steps 6 and 7: at a line start at least 3 line periods later, or at the frame start with ALIGN, once a repair of the flock has ended and
the rail has reached the twin floor, the cells rejoin, the slots return with the new entries and the journal records DONE. -/
def repenRejoin (d : Dev) : Dev :=
  match repenAt d 5 with
  | none => d
  | some (f, r) =>
    if !frameCame d f r || railLevel d < railFloor d || (d.flock f).takeover.isSome then d
    else
      let h := flockHead d f
      let m := modeOf d h
      let d := if r.align || !headScans d f then d else toLineStart f (d.passClk (r.since + (3 * m.pn + m.pd * m.vTot - 1) / (m.pd * m.vTot) - 1))
      let d := (servedPosts d f).foldl (fun d p => repenJoin f p d) d
      let d := if h < 8 then setSlots h (replaceSlots f (layoutSlots d.ld.recs f r.variant) (slotsNow d h)) d else d
      let d := setRepen f none ((d.clrBit (Reg.FLOCK_STATUS f) 10).ldUpd (fun l => { l with journal := none }))
      let d := keepDevField (Reg.PEN_VARIANT f) (w32 r.variant) d
      moveCheck (moveFreeze ((d.clrBit Reg.REPEN_STATUS 0).setBit Reg.REPEN_STATUS 1))

/-! ### The steps -/

/-- LOAD_START (R62). -/
def execLoadStart (slotPoison : Bool) (s : State) : Host.Outcome State Fault Refusal := s.next (loadStart slotPoison)
/-- LOAD_CHECK_DONE (R66). -/
def execLoadCheckDone (slotPoison : Bool) (s : State) : Host.Outcome State Fault Refusal := .next (loadCheck slotPoison s)
/-- VERIFY (R67). -/
def execVerify (q : Req) (s : State) : Host.Outcome State Fault Refusal := .next (stageCmd q 1 s)
/-- PROGRAM_A (R67). -/
def execProgramA (q : Req) (s : State) : Host.Outcome State Fault Refusal := .next (stageCmd q 2 s)
/-- PROGRAM_B (R67). -/
def execProgramB (q : Req) (s : State) : Host.Outcome State Fault Refusal := .next (stageCmd q 3 s)
/-- PROGRAM_GOLDEN (R67). -/
def execProgramGolden (q : Req) (s : State) : Host.Outcome State Fault Refusal := .next (stageCmd q 4 s)
/-- STAGE_CMD_DONE (R67). DESIGN CHOICE, log entry 15. -/
def execStageCmdDone (bad : Bool) (s : State) : Host.Outcome State Fault Refusal := .next (stageDone bad s)
/-- BOOT_OK (R64). -/
def execBootOk (q : Req) (v : Word) (s : State) : Host.Outcome State Fault Refusal := s.next (bootOk q v)
/-- SLOT_CTRL_WRITE (R64, R78). -/
def execSlotCtrlWrite (q : Req) (v : Word) (s : State) : Host.Outcome State Fault Refusal := s.next (slotCtrlWrite q v)
/-- MIN_SERIAL_WRITE (R78). -/
def execMinSerialWrite (q : Req) (v : Word) (s : State) : Host.Outcome State Fault Refusal := s.next (minSerialWrite q v)
/-- KEY_REVOKE_WRITE (R78). -/
def execKeyRevokeWrite (q : Req) (v : Word) (s : State) : Host.Outcome State Fault Refusal := s.next (keyRevokeWrite q v)
/-- KEY_HASH_WRITE (R78). -/
def execKeyHashWrite (q : Req) (k : Fin 4) (i : Fin 12) (v : Word) (s : State) : Host.Outcome State Fault Refusal :=
  s.next (keyHashWrite q k i v)
/-- REPEN_REQUEST (R71). -/
def execRepenRequest (q : Req) (v : Word) (s : State) : Host.Outcome State Fault Refusal := s.next (repenRequest q v)
/-- REPEN_BLANK (R74). -/
def execRepenBlank (s : State) : Host.Outcome State Fault Refusal := s.next repenBlankStep
/-- REPEN_STORE_REWRITTEN (R74). -/
def execRepenStoreRewritten (s : State) : Host.Outcome State Fault Refusal := s.next repenRewritten
/-- REPEN_CELLS_LOADED (R74). DESIGN CHOICE, log entry 15. -/
def execRepenCellsLoaded (s : State) (lost : List Nat := []) : Host.Outcome State Fault Refusal := s.next (repenLoaded lost)
/-- TAKEOVER_SPARE_LOADED (R264). DESIGN CHOICE, log entry 15. -/
def execTakeoverSpareLoaded (f : Fin 16) (s : State) (code : CopyCond := .good) : Host.Outcome State Fault Refusal := s.next (takeoverRead f code)
/-- REPEN_PROBE_DONE (R76). -/
def execRepenProbeDone (bad : List Nat) (spareOk : Bool) (s : State) : Host.Outcome State Fault Refusal := s.next (repenProbed bad spareOk)
/-- REPEN_REJOIN (R74). -/
def execRepenRejoin (s : State) : Host.Outcome State Fault Refusal := s.next repenRejoin
/-- TAKEOVER_REJOIN (R264); a re-pen that waited for the takeover is then checked (R72). -/
def execTakeoverRejoin (f : Fin 16) (s : State) : Host.Outcome State Fault Refusal :=
  s.next (fun d => repenWaited f (takeoverRejoin f d))

end Sys2Proof.Machine
end

