-- ==== Sys2Proof/Machine/Access.lean ====
section
/-! DEFINITION. The memory regions of the loaded image and the protection that they give (R47). -/
namespace Sys2Proof.Machine

/-- The entries of a MEMPART body after its count: base, length and RFLAGS. -/
def partEntries : Nat → List Byte → List (Nat × Nat × Nat)
  | 0, _ => []
  | n + 1, b => (leNat (b.take 8), leNat ((b.drop 8).take 8), (b.getD 17 0).toNat) :: partEntries n (b.drop 24)

/-- The regions of the loaded image. -/
def partition (d : Dev) : List (Nat × Nat × Nat) :=
  match d.ld.recs.find? (fun r => r.ty == 5) with
  | some r => partEntries (leNat (r.body.take 4)) (r.body.drop 4)
  | none => []

/-- Whether [a, a + n) meets a region with a bit of RFLAGS set: 0 SECURE, 1 PEER_RO. -/
def regionFlag (d : Dev) (bit a n : Nat) : Bool :=
  (partition d).any (fun (b, l, f) => f.testBit bit && a < b + l && b < a + n && n != 0)

/-- Whether a write of [a, a + n) by a requester meets a SECURE region that only Keeper requesters write. DEDUCED, log entry 75. -/
def secureRefuses (d : Dev) (keeper : Bool) (a n : Nat) : Bool := !keeper && regionFlag d 0 a n

end Sys2Proof.Machine
end

