-- ==== Sys2Proof/Machine/Mule.lean ====
section
/-! DEFINITION. The Mule (R388 to R409): command blocks, surfaces and formats, pixel operations, overlap, the queue, lanes and
repair. -/
namespace Sys2Proof.Machine

/-- Change the Mule beyond its registers. -/
def Dev.muleUpd (d : Dev) (f : MuleSt → MuleSt) : Dev := { d with mule := f d.mule }

/-! ### Fields of a command block (R388) -/

/-- Field of a word of a command. -/
def MuleCmd.f (c : MuleCmd) (w hi lo : Nat) : Nat := fld (c.w.getD w 0) hi lo
/-- Bit of word 0. -/
def MuleCmd.b (c : MuleCmd) (n : Nat) : Bool := bitOf (c.w.getD 0 0) n
/-- OP. -/
def MuleCmd.op (c : MuleCmd) : Nat := c.f 0 1 0
/-- ROT. -/
def MuleCmd.rot (c : MuleCmd) : Nat := c.f 0 3 2
/-- BLEND. -/
def MuleCmd.blend (c : MuleCmd) : Nat := c.f 0 7 5
/-- W. -/
def MuleCmd.wd (c : MuleCmd) : Nat := c.f 8 14 0
/-- H. -/
def MuleCmd.ht (c : MuleCmd) : Nat := c.f 8 30 16
/-- Destination width (R390). -/
def MuleCmd.dw (c : MuleCmd) : Nat := if c.rot % 2 = 1 then c.ht else c.wd
/-- Destination height. -/
def MuleCmd.dh (c : MuleCmd) : Nat := if c.rot % 2 = 1 then c.wd else c.ht

/-- A surface with its rectangle: base, pitch, format, origin and size. -/
structure MuleSurf where
  base : Nat
  pitch : Nat
  fmt : Nat
  x : Nat
  y : Nat
  w : Nat
  h : Nat
  deriving DecidableEq, Repr

/-- The source surface and rectangle. -/
def MuleCmd.src (c : MuleCmd) : MuleSurf :=
  { base := c.f 2 31 0 + c.f 3 15 0 * 2 ^ 32, pitch := c.f 5 19 0, fmt := c.f 1 3 0, x := c.f 7 13 0, y := c.f 7 29 16, w := c.wd, h := c.ht }
/-- The destination surface and rectangle. -/
def MuleCmd.dst (c : MuleCmd) : MuleSurf :=
  { base := c.f 4 31 0 + c.f 3 31 16 * 2 ^ 32, pitch := c.f 6 19 0, fmt := c.f 1 7 4, x := c.f 9 13 0, y := c.f 9 29 16, w := c.dw, h := c.dh }

/-- The reserved bits of each word of a command. DEDUCED, log entry 95. -/
def muleReserved : List Word :=
  [0xFE000000, 0xFFFC0000, 0, 0, 0, 0xFFF00000, 0xFFF00000, 0xC000C000, 0x80008000, 0xC000C000, 0, 0xC000C000, 0xC000C000, 0xC000C000,
   0xC000C000, 0]

/-! ### Formats (R389, R391, R393) -/

/-- Bits per pixel of a format code. -/
def fmtBits (f : Nat) : Nat :=
  match f with
  | 0 => 4
  | 1 => 8
  | 5 => 32
  | 6 => 32
  | 7 => 24
  | _ => 16
/-- What BASE must be a multiple of. -/
def fmtAlign (f : Nat) : Nat :=
  match f with
  | 0 => 1
  | 1 => 1
  | 5 => 4
  | 6 => 4
  | 7 => 1
  | _ => 2
/-- The direct format of a code of 2 or more. -/
def fmtDirect (f : Nat) : PixFmt :=
  match f with
  | 2 => .p16x565
  | 3 => .p16x1555
  | 4 => .p16x4444
  | 5 => .p32x8888
  | 6 => .p32x2101010
  | _ => .p24x888

/-- A 10-bit channel narrows to b bits (R393). -/
def narrow (b v : Nat) : Nat := (v * (2 ^ b - 1) + 511) / 1023

/-- A pixel value from A, R, G and B (R393). -/
def PixFmt.encode (f : PixFmt) (p : Nat × Nat × Nat × Nat) : Nat :=
  let (a, r, g, b) := p
  match f with
  | .p16x565 => narrow 5 r * 2 ^ 11 + narrow 6 g * 2 ^ 5 + narrow 5 b
  | .p16x1555 => narrow 1 a * 2 ^ 15 + narrow 5 r * 2 ^ 10 + narrow 5 g * 2 ^ 5 + narrow 5 b
  | .p16x4444 => narrow 4 a * 2 ^ 12 + narrow 4 r * 2 ^ 8 + narrow 4 g * 2 ^ 4 + narrow 4 b
  | .p24x888 => narrow 8 r * 2 ^ 16 + narrow 8 g * 2 ^ 8 + narrow 8 b
  | .p32x8888 => narrow 8 a * 2 ^ 24 + narrow 8 r * 2 ^ 16 + narrow 8 g * 2 ^ 8 + narrow 8 b
  | .p32x2101010 => narrow 2 a * 2 ^ 30 + narrow 10 r * 2 ^ 20 + narrow 10 g * 2 ^ 10 + narrow 10 b

/-- The byte address of pixel (x, y) of a surface (R389). -/
def MuleSurf.addr (u : MuleSurf) (x y : Nat) : Nat := u.base + y * u.pitch + x * fmtBits u.fmt / 8
/-- The first byte of the rectangle and the bytes from it to the last (R392). -/
def MuleSurf.span (u : MuleSurf) : Nat × Nat :=
  let a := u.addr u.x u.y
  (a, u.base + (u.y + u.h - 1) * u.pitch + ((u.x + u.w) * fmtBits u.fmt + 7) / 8 - a)

/-- Whether two byte spans meet. -/
def spansMeet (a b : Nat × Nat) : Bool := a.1 < b.1 + b.2 && b.1 < a.1 + a.2

/-- The rules of R391 for one surface. -/
def MuleSurf.aligned (u : MuleSurf) : Bool :=
  u.pitch % 16 == 0 && (u.w * fmtBits u.fmt + 7) / 8 ≤ u.pitch && u.base % fmtAlign u.fmt == 0 &&
    (u.fmt != 0 || (u.x % 2 == 0 && u.w % 2 == 0))

/-- Whether the spans lie in one memory (R392). -/
def MuleSurf.inMemory (d : Dev) (u : MuleSurf) : Bool := memUp d u.span.1 u.span.2

/-- Whether a COPY overlaps (R400). -/
def MuleCmd.overlaps (c : MuleCmd) : Bool :=
  let s := c.src
  let t := c.dst
  if s.base = t.base && s.pitch = t.pitch && s.fmt = t.fmt then
    s.x < t.x + t.w && t.x < s.x + s.w && s.y < t.y + t.h && t.y < s.y + s.h
  else spansMeet s.span t.span

/-- Whether the scan order alone serves an overlap: one surface, no rotation, no mirror (R400). -/
def MuleCmd.scans (c : MuleCmd) : Bool :=
  c.src.base == c.dst.base && c.src.pitch == c.dst.pitch && c.src.fmt == c.dst.fmt && c.rot == 0 && !c.b 4

/-- The refused field values of a command (R388, R391, R393, R394). -/
def MuleCmd.refused (c : MuleCmd) : Bool :=
  let indexed (f : Nat) : Bool := f ≤ 1
  c.op == 3 || ((c.w.zip muleReserved).any (fun p => p.1 &&& p.2 != 0)) || c.blend ≥ 3 || c.dst.fmt ≥ 8 ||
    c.wd == 0 || c.wd > 16384 || c.ht == 0 || c.ht > 16384 || (c.blend != 0 && indexed c.dst.fmt) ||
    (c.op == 1 && (c.src.fmt ≥ 8 || ((indexed c.src.fmt || indexed c.dst.fmt) && c.src.fmt != c.dst.fmt))) ||
    (c.op == 2 && (c.rot != 0 || c.b 4))

/-- The code with which a command ends before it writes anything; 0 when it runs (R403). -/
def muleCheck (c : MuleCmd) (d : Dev) : Nat :=
  if c.refused then 1
  else if c.op = 0 then 0
  else if !c.dst.aligned || (c.op == 1 && !c.src.aligned) then 2
  else if c.op == 1 && !c.src.inMemory d then 3
  else if !c.dst.inMemory d || secureRefuses d c.keeper c.dst.span.1 c.dst.span.2 then 4
  else if c.op == 1 && c.overlaps && !c.scans && c.wd * c.ht * fmtBits c.src.fmt / 8 > 65536 then 6
  else 0

/-! ### Pixels in memory -/

/-- Read a pixel: its raw value and whether it is poisoned. -/
def pixRead (u : MuleSurf) (x y : Nat) (s : State) : Nat × Bool × State :=
  let (b, p, s) := memRead 2 (u.addr x y) (max 1 (fmtBits u.fmt / 8)) s
  let v := leNat b
  ((if u.fmt = 0 then (if x % 2 = 0 then v % 16 else v / 16) else v), p, s)

/-- Write a pixel. -/
def pixWrite (u : MuleSurf) (x y v : Nat) (s : State) : State :=
  let a := u.addr x y
  if u.fmt = 0 then
    let old := (Store.get (fun _ => 0) s.mem.bytes a).toNat
    memWrite a [BitVec.ofNat 8 (if x % 2 = 0 then old / 16 * 16 + v % 16 else old % 16 + v % 16 * 16)] s
  else memWrite a (natBytes (fmtBits u.fmt / 8) v) s

/-- The clip test (R399). -/
def MuleCmd.clip (c : MuleCmd) (x y : Nat) : Bool :=
  let inside (k : Nat) : Bool :=
    c.f (11 + 2 * k) 13 0 ≤ x && x ≤ c.f (11 + 2 * k) 29 16 && c.f (12 + 2 * k) 13 0 ≤ y && y ≤ c.f (12 + 2 * k) 29 16
  let region (k : Nat) : Bool := c.b (13 + 2 * k) && (inside k ^^ c.b (14 + 2 * k))
  (!c.b 13 && !c.b 15) || region 0 || region 1

/-- The source pixel of a destination offset (R394). -/
def MuleCmd.from_ (c : MuleCmd) (dx dy : Nat) : Nat × Nat :=
  let (m, j) := match c.rot with
    | 0 => (dx, dy)
    | 1 => (dy, c.ht - 1 - dx)
    | 2 => (c.wd - 1 - dx, c.ht - 1 - dy)
    | _ => (c.wd - 1 - dy, dx)
  (if c.b 4 then c.wd - 1 - m else m, j)

/-- The raster operation over n bits (R397). -/
def ropBits (rop s d : Nat) : Nat → Nat
  | 0 => 0
  | n + 1 =>
    let k := 2 * (s / 2 ^ n % 2) + d / 2 ^ n % 2
    (if rop.testBit k then 2 ^ n else 0) + ropBits rop s d n

/-- One channel of a blend (R396). DEDUCED, log entry 95. -/
def blendChannel (mode sv dv alpha g : Nat) : Nat :=
  let a := alpha * g
  if mode = 1 then (sv * a + dv * (1046529 - a) + 523264) / 1046529
  else min 1023 ((sv * g * 1023 + dv * (1046529 - a) + 523264) / 1046529)

/-- The value written for a source value (in the source's format, or in the destination's for a FILL) over destination value `dv`
(R395 to R397). DEDUCED, log entry 95. -/
def MuleCmd.pixel (c : MuleCmd) (sv dv : Nat) : Nat :=
  let df := c.dst.fmt
  let sf := if c.op = 2 then df else c.src.fmt
  if c.blend = 0 then
    let conv := if df ≤ 1 || sf = df then sv else (fmtDirect df).encode ((fmtDirect sf).decode sv)
    ropBits (c.f 0 11 8) conv dv (fmtBits df)
  else
    let (a, r, g, b) := (fmtDirect sf).decode sv
    let (da, dr, dg, db) := (fmtDirect df).decode dv
    let ch (s t : Nat) : Nat := blendChannel c.blend s t a (c.f 1 17 8)
    (fmtDirect df).encode (ch a da, ch r dr, ch g dg, ch b db)

/-- Read the whole source rectangle into the tile buffer (R400). -/
def stageSource (c : MuleCmd) (s : State) : List (Nat × Bool) × State :=
  (List.range (c.wd * c.ht)).foldl (fun (l, s) k =>
    let (v, p, s) := pixRead c.src (c.src.x + k % c.wd) (c.src.y + k / c.wd) s
    (l ++ [(v, p)], s)) ([], s)

/-- The destination tiles of a command: columns and all (R408). -/
def MuleCmd.tiles (c : MuleCmd) : Nat × Nat :=
  let n := (c.dw + 63) / 64
  (n, if c.op = 0 then 0 else n * ((c.dh + 63) / 64))

/-- The offsets of the pixels of tile t, in the tile order of R400. -/
def MuleCmd.tilePixels (c : MuleCmd) (t : Nat) : List (Nat × Nat) :=
  let (n, all) := c.tiles
  let scan := c.op == 1 && c.overlaps && c.scans
  let rows := all / n
  let ty := if scan && c.dst.y > c.src.y then rows - 1 - t / n else t / n
  let tx := if scan && c.dst.x > c.src.x then n - 1 - t % n else t % n
  (List.range (min 64 (c.dh - 64 * ty))).flatMap (fun y => (List.range (min 64 (c.dw - 64 * tx))).map (fun x => (64 * tx + x, 64 * ty + y)))

/-- The source values of a tile's pixels that pass the clip test and the key, read before any of them is written; a poisoned one is
left out and noted (R395, R398, R399, R405). -/
def tileSources (r : MuleRun) : List (Nat × Nat) → State → List (Nat × Nat × Nat) × Bool × State
  | [], s => ([], false, s)
  | (dx, dy) :: l, s =>
    let c := r.cmd
    if !c.clip (c.dst.x + dx) (c.dst.y + dy) then tileSources r l s
    else if c.op = 2 then
      let (rest, p, s) := tileSources r l s
      ((dx, dy, (c.w.getD 10 0).toNat % 2 ^ fmtBits c.dst.fmt) :: rest, p, s)
    else
      let (i, j) := c.from_ dx dy
      let (v, bad, s) := match r.staged with
        | some st => let e := st.getD (j * c.wd + i) (0, false); (e.1, e.2, s)
        | none => pixRead c.src (c.src.x + i) (c.src.y + j) s
      let (rest, p, s) := tileSources r l s
      if bad then (rest, true, s)
      else if c.b 12 && v = (c.w.getD 10 0).toNat % 2 ^ fmtBits c.src.fmt then (rest, p, s)
      else ((dx, dy, v) :: rest, p, s)

/-- Write the pixels of a tile. ROP 0xA with BLEND 0 writes nothing (R397). -/
def tileWrite (c : MuleCmd) (l : List (Nat × Nat × Nat)) (s : State) : State :=
  if c.blend = 0 && c.f 0 11 8 = 0xA then s
  else l.foldl (fun s (dx, dy, v) =>
    let x := c.dst.x + dx
    let y := c.dst.y + dy
    let (dv, _, s) := pixRead c.dst x y s
    pixWrite c.dst x y (c.pixel v dv) s) s

/-! ### The queue and the lanes (R401, R402, R408) -/

/-- The active lanes. -/
def muleLanes (d : Dev) : List Nat := (List.range 3).filter (fun l => d.unit 6 l == 0)
/-- The active lanes that run nothing and are not awaited by the spare. -/
def muleFree (d : Dev) : List Nat := (muleLanes d).filter (fun l => !d.mule.run.any (fun r => r.lane == some l))

/-- MULE_STATUS as a read returns it. -/
def muleStatus (d : Dev) : Word :=
  let n (l : Nat) : Nat := if d.unit 6 l ≤ 1 then 2 ^ l else 0
  w32 (d.mule.queue.length + d.mule.run.length * 2 ^ 7 + (n 0 + n 1 + n 2) * 2 ^ 9 + ((sparesOf d 6).headD 3) * 2 ^ 12)

/-- Whether no lane is in service, so that coprocessor 0 is absent (R314, R408). -/
def muleAbsent (d : Dev) : Bool := (List.range 3).all (fun l => d.unit 6 l ≥ 2)

/-- Whether two commands share a span of which one is a destination (R401). A NOP names both of its spans. DEDUCED, log entry 95. -/
def MuleCmd.conflicts (a b : MuleCmd) : Bool :=
  let sp (c : MuleCmd) : Bool := c.op != 2
  spansMeet a.dst.span b.dst.span || (sp b && spansMeet a.dst.span b.src.span) || (sp a && spansMeet a.src.span b.dst.span)

/-- The word that completion writes (R403). DEDUCED, log entry 95. -/
def muleStatusWord (code : Nat) (t : Word) : Word := w32 (code + 16 + fld t 15 0 * 2 ^ 16)

/-- Steps 2 to 4 of a completion (R403, R404). -/
def muleFinish (c : MuleCmd) (code : Nat) (s : State) : State :=
  let s := if memUp s.dev (c.block + 60) 4 then memWrite (c.block + 60) (wordBytes (muleStatusWord code c.ticket)) s else s
  s.upd (fun d =>
    let d := d.wr Reg.COMPLETED (d.rd Reg.COMPLETED + 1)
    let d := d.muleUpd (fun m => { m with ended := (m.ended ++ [(c.ticket, code)]).drop (m.ended.length + 1 - 256) })
    if c.b 17 then d.setBit (Reg.SWI_SET (c.f 0 24 18 / 32)) (c.f 0 24 18 % 32) else d)

/-- What a submission finds. -/
inductive MuleSubmit where
  | accepted (ticket : Word)
  | full | badBlock | poison
  deriving DecidableEq, Repr

/-- Submit the block at an address (R402). -/
def muleSubmit (a : Nat) (keeper : Bool) (s : State) : MuleSubmit × State :=
  if a % 64 ≠ 0 || !memUp s.dev a 64 then (.badBlock, s)
  else if s.dev.mule.queue.length ≥ 64 then (.full, s)
  else
    let (b, p, s) := memRead 2 a 64 s
    if p then (.poison, s)
    else
      let t := s.dev.rd Reg.SUBMITTED + 1
      let w := (List.range 16).map (fun i => w32 (leNat ((b.drop (4 * i)).take 4)))
      (.accepted t, s.upd (fun d => (d.wr Reg.SUBMITTED t).muleUpd (fun m =>
        { m with queue := m.queue ++ [{ ticket := t, w := w, block := a, keeper := keeper }] })))

/-- A MULE_SUBMIT write. -/
def muleSubmitWrite (q : Req) (v : Word) (s : State) : State :=
  if !bitOf v 31 then s.upd Dev.okay
  else
    let a := 0x1000000000 + 64 * fld v 17 0
    match muleSubmit a (s.dev.keeper q) s with
    | (.accepted _, s) => s.upd Dev.okay
    | (.full, s) => (memWrite (a + 60) (wordBytes (muleStatusWord 7 0)) s).upd (fun d => (d.setBit Reg.MULE_FLAGS 0).okay)
    | (.poison, s) => s.upd (fun d => (d.setBit Reg.MULE_FLAGS 1).okay)
    | (.badBlock, s) => s.upd Dev.okay

/-- Coprocessor 0 SUBMIT (R407): word 0 and FAIL. -/
def muleCopSubmit (y : Nat) (x v : Word) (s : State) : Word × Bool × State :=
  match muleSubmit (x.toNat + fld v 15 0 * 2 ^ 32) (s.dev.keeper (.yoke y)) s with
  | (.accepted t, s) => (t, false, s)
  | (.full, s) => (7, true, s)
  | (.badBlock, s) => (10, true, s)
  | (.poison, s) => (11, true, s)

/-- Coprocessor 0 POLL (R407). -/
def mulePoll (t : Word) (d : Dev) : Word :=
  match d.mule.ended.find? (fun e => e.1 == t) with
  | some e => w32 (e.2 + 0x30)
  | none =>
    if d.mule.queue.any (fun c => c.ticket == t) || d.mule.run.any (fun r => r.cmd.ticket == t) then 0x20 else 0

/-- The command at the head of the queue starts on the lowest free lane, if it is of the operation asked and meets no running
command; a command that waits for a lane goes first (R401, R408). DEDUCED, log entry 96. -/
def muleStart (op : Nat) (s : State) : State :=
  let d := s.dev
  match d.mule.queue, muleFree d with
  | c :: rest, l :: _ =>
    if (c.op ≠ op && c.op ≠ 3) || d.mule.run.any (fun r => r.lane.isNone || r.cmd.conflicts c) then s
    else
      let code := muleCheck c d
      let stage := code == 0 && c.op == 1 && c.overlaps && !c.scans
      let (st, s) := if stage then stageSource c s else ([], s)
      s.upd (fun d => d.muleUpd (fun m => { m with
        queue := rest
        run := m.run ++ [{ lane := some l, cmd := c, code := code, ended := code != 0, staged := if stage then some st else none }] }))
  | _, _ => s

/-- Replace the run of a lane. -/
def setRunOn (l : Nat) (f : MuleRun → MuleRun) (d : Dev) : Dev :=
  d.muleUpd (fun m => { m with run := m.run.map (fun r => if r.lane = some l then f r else r) })

/-- A lane finishes its next destination tile (R408). -/
def muleTile (l : Nat) (s : State) : State :=
  match s.dev.mule.run.find? (fun r => r.lane == some l) with
  | some r =>
    if r.ended || r.tile ≥ r.cmd.tiles.2 then s
    else
      let (px, bad, s) := tileSources r (r.cmd.tilePixels r.tile) s
      (tileWrite r.cmd px s).upd (setRunOn l (fun r => { r with tile := r.tile + 1, code := if bad then 5 else r.code }))
  | none => s

/-- The command of a lane completes (R403). -/
def muleComplete (l : Nat) (s : State) : State :=
  match s.dev.mule.run.find? (fun r => r.lane == some l) with
  | some r =>
    if r.ended || r.tile ≥ r.cmd.tiles.2 then
      muleFinish r.cmd r.code (s.upd (fun d => d.muleUpd (fun m => { m with run := m.run.erase r })))
    else s
  | none => s

/-- A MULE_ABORT write (R406). -/
def muleAbort (q : Req) (t : Word) (s : State) : State :=
  if !s.dev.keeper q then s.upd Dev.deny
  else match s.dev.mule.queue.find? (fun c => c.ticket == t) with
    | some c => (muleFinish c 8 (s.upd (fun d => d.muleUpd (fun m => { m with queue := m.queue.erase c })))).upd Dev.okay
    | none =>
      s.upd (fun d => (d.muleUpd (fun m => { m with
        run := m.run.map (fun r => if r.cmd.ticket = t then { r with ended := true, code := 8 } else r) })).okay)

/-- A lane fails (R408): the spare, when there is one, is to take its place and the lane's self-test starts then; else the surviving lane takes its command next.
DEDUCED, log entry 96. -/
def muleFault (l det : Nat) (d : Dev) : Dev :=
  if d.unit 6 l ≥ 2 then d
  else
    let active := d.unit 6 l == 0
    let d := setUnit 6 l 2 d
    let d := if !active || (sparesOf d 6).isEmpty then startTest 6 l d else d
    if !active then faultLog 6 det l 2 (if (sparesOf d 6).isEmpty then 1 else 0) 0 d
    else
      let d := setRunOn l (fun r => { r with lane := none }) d
      if (sparesOf d 6).isEmpty then
        faultLog 6 det l 2 (if (muleLanes d).isEmpty then 6 else 1) 0 (d.setBit Reg.MULE_FLAGS 3)
      else d.muleUpd (fun m => { m with swap := m.swap ++ [(l, det, d.now)] })

/-- Give the oldest command that waits for a lane to lane l. -/
def muleResume (l : Nat) (d : Dev) : Dev :=
  match d.mule.run.find? (fun r => r.lane.isNone) with
  | some r => d.muleUpd (fun m => { m with run := m.run.map (fun x => if x.cmd.ticket = r.cmd.ticket then { x with lane := some l } else x) })
  | none => d

/-- The spare lane restores the tile and takes the failed lane's place; with no swap due, a free lane takes a command that waits
(R408). DEDUCED, log entry 96. -/
def muleSpareRestart (d : Dev) : Dev :=
  match d.mule.swap with
  | (l, det, ht) :: rest =>
    let d := startTest 6 l (d.muleUpd (fun m => { m with swap := rest }))
    match takeSpare 6 d with
    | some (i, d) =>
      let d := (muleResume i (d.wr Reg.MULE_GEN (d.rd Reg.GLOBAL_GEN))).setBit Reg.MULE_FLAGS 2
      faultLogAt ht 6 det l 1 (if (sparesOf d 6).isEmpty then 1 else 0) 0 d
    | none => faultLogAt ht 6 det l 2 (if (muleLanes d).isEmpty then 6 else 1) 0 (d.setBit Reg.MULE_FLAGS 3)
  | [] => match muleFree d with
    | l :: _ => muleResume l d
    | [] => d

/-! ### The steps -/

/-- MULE_SUBMIT (R402). -/
def execMuleSubmit (q : Req) (v : Word) (s : State) : Host.Outcome State Fault Refusal := .next (muleSubmitWrite q v s)
/-- MULE_COPY (R400). -/
def execMuleCopy (s : State) : Host.Outcome State Fault Refusal := .next (muleStart 1 s)
/-- MULE_FILL (R395). -/
def execMuleFill (s : State) : Host.Outcome State Fault Refusal := .next (muleStart 2 s)
/-- MULE_NOP (R388). -/
def execMuleNop (s : State) : Host.Outcome State Fault Refusal := .next (muleStart 0 s)
/-- MULE_TILE_DONE (R408). -/
def execMuleTileDone (l : Fin 3) (s : State) : Host.Outcome State Fault Refusal := .next (muleTile l s)
/-- MULE_CMD_COMPLETE (R403). -/
def execMuleCmdComplete (l : Fin 3) (s : State) : Host.Outcome State Fault Refusal := .next (muleComplete l s)
/-- MULE_ABORT (R406). -/
def execMuleAbort (q : Req) (t : Word) (s : State) : Host.Outcome State Fault Refusal := .next (muleAbort q t s)
/-- MULE_LANE_FAULT (R408): found by a code check or by the watchdog. -/
def execMuleLaneFault (l : Fin 3) (code : Bool) (s : State) : Host.Outcome State Fault Refusal :=
  s.next (muleFault l (if code then 1 else 2))
/-- MULE_SPARE_RESTART (R408). -/
def execMuleSpareRestart (s : State) : Host.Outcome State Fault Refusal := s.next muleSpareRestart

end Sys2Proof.Machine
end

