-- ==== Sys2Proof/Machine/Power.lean ====
section
/-! DEFINITION. Power states (R552 to R563), resets (R564 to R567), the boot sequence up to the loader (R568, R569), THERMTRIPn (R580), and
the end of self-tests of spared units (R281). -/
namespace Sys2Proof.Machine

/-- Change the power and boot state. -/
def Dev.pwUpd (d : Dev) (f : PwrSt → PwrSt) : Dev := { d with pw := f d.pw }
/-- PWR_STATUS.STATE takes a value. -/
def setPwr (st : Nat) (d : Dev) : Dev := d.setFld Reg.PWR_STATUS 2 0 st

/-! ### Outputs (R554, R580) -/

/-- RSTOUTn is low: from any reset until LOADED, and in deep standby. -/
def rstoutLow (d : Dev) : Bool := d.pw.boot != 7 || d.pwr == 5 || d.pwr == 6
/-- SW_EN: groups 2 and 3 are on. -/
def swEn (d : Dev) : Bool := d.pwr != 5
/-- ARRAY_EN: group 4 is on. -/
def arrayEn (d : Dev) : Bool := d.pwr != 2 && d.pwr != 5
/-- THERMTRIPn follows the sensors alone. DEDUCED, log entry 49; DESIGN CHOICE, log entry 115. -/
def thermTripLow (d : Dev) : Bool := d.pw.trip

/-! ### PWR_STATUS (R556, R573) -/

/-- The condition IDLE of Run, which a device without an image does not meet (R14, R556). DEDUCED, log entry 48. -/
def idleNow (d : Dev) : Bool :=
  d.pwr == 0 && d.bit Reg.IMAGE_STATUS 0 && (List.range 8).all (fun h => headState d h == 0 || headState d h == 5) &&
  (List.range 8).all (fun p => !d.bit (Reg.TDM_CFG p) 0) && d.fld Reg.PDM_CFG 7 0 == 0 &&
  (List.range 32).all (fun n => d.fld (Reg.PCH_STATUS n) 2 0 == 0) && d.mule.queue.isEmpty && d.mule.run.isEmpty &&
  (List.range 8).all (fun y => match yokeRec d y with
    | some b => u8At b 1 % 2 == 0 || yokeHalted d y || d.fld (Reg.YOKE_STATE y) 12 10 == 7
    | none => true)

/-- PWR_STATUS as a read returns it. -/
def pwrStatus (d : Dev) : Word := putFld (d.rd Reg.PWR_STATUS) 3 3 (if idleNow d then 1 else 0)

/-! ### Commands (R559 to R563) -/

/-- A refused command changes nothing but REFUSED and REFUSE. -/
def pwrRefuse (cause : Nat) (d : Dev) : Dev := ((d.setFld Reg.PWR_STATUS 7 4 cause).setBit Reg.PWR_FLAGS 0).okay

/-- Whether a requester may write PWR_CMD: a Keeper, and in standby only a yoke or JTAG (R557, R573). DEDUCED, log entry 48. -/
def pwrMay (q : Req) (d : Dev) : Bool :=
  d.keeper q && (d.pwr != 2 || (match q with | .yoke _ | .jtag => true | _ => false))

/-- The cause for which an entry is refused in RUN (R559): 0 for none. DEDUCED, log entry 48. -/
def pwrBusy (d : Dev) : Nat :=
  if repenBusy d || (List.range 16).any (fun f => (d.flock f).repen.isSome) then 1
  else if (List.range 32).any (fun n => d.fld (Reg.PCH_STATUS n) 2 0 == 1) || !d.mule.queue.isEmpty || !d.mule.run.isEmpty then 2
  else 0

/-- Every head that is not OFF takes STANDBY. -/
def headsStandby (d : Dev) : Dev :=
  forN 8 d (fun h d => let st := headState d h; if 1 ≤ st && st ≤ 4 then headHalt h true d else d)
/-- Every head is OFF or in STANDBY. -/
def headsDown (d : Dev) : Bool := (List.range 8).all (fun h => headState d h == 0 || headState d h == 5)

/-- PWR_CMD RUN (R560, R563). -/
def pwrRun (q : Req) (d : Dev) : Dev :=
  if !pwrMay q d then d.deny
  else match d.pwr with
    | 0 => d.okay
    | 2 => (setPwr 3 (d.pwUpd (fun p => { p with since := d.clk }))).okay
    | _ => pwrRefuse 3 d

/-- PWR_CMD STANDBY (R559). -/
def pwrStandby (q : Req) (d : Dev) : Dev :=
  if !pwrMay q d then d.deny
  else if d.pwr ≠ 0 then pwrRefuse 3 d
  else match pwrBusy d with
    | 0 => (headsStandby (setPwr 1 d)).okay
    | c => pwrRefuse c d

/-- PWR_CMD DEEP (R561). -/
def pwrDeep (q : Req) (d : Dev) : Dev :=
  if !pwrMay q d then d.deny
  else if d.pwr ≠ 0 then pwrRefuse 3 d
  else match pwrBusy d with
    | 0 => (endSession (headsStandby (setPwr 4 d))).okay
    | c => pwrRefuse c d

/-- A PWR_CMD write (R573). DEDUCED, log entry 48. -/
def pwrCmd (q : Req) (v : Word) (d : Dev) : Dev :=
  if !pwrMay q d then d.deny
  else if !bitOf v 31 then d.okay
  else match fld v 1 0 with
    | 1 => pwrRun q d
    | 2 => pwrStandby q d
    | 3 => pwrDeep q d
    | _ => d.okay

/-! ### Standby (R557, R559, R560, R468) -/

/-- Post-package repair of the pending pages: those of `noRes` lack a repair resource. DEDUCED, log entry 47; DEDUCED, log entry 52. -/
def pprRun (noRes : List Nat) (d : Dev) : Dev :=
  if !d.bit Reg.MEM_CFG 16 then d
  else
    let bad := d.mc.ppr.filter (fun p => noRes.contains p)
    let good := d.mc.ppr.filter (fun p => !noRes.contains p)
    let d := d.mcUpd (fun m => { m with ppr := [], pprDone := m.pprDone ++ good })
    let d := if good.isEmpty then d else d.setBit Reg.MEM_FLAGS 6
    if bad.isEmpty then d else d.setBit Reg.MEM_FLAGS 7

/-- The cells lose their state: stamps 0, not joined. -/
def cellsDown (d : Dev) : Dev :=
  forN 16 d (fun f d => setShadow f 15 (forN 9 d (fun p d => clearPost f p d)))

/-- The array rail goes off. -/
def railOff (d : Dev) : Dev := (d.updRail (fun _ => { pg := false, windowAt := d.clk, calmFrom := d.clk })).clrBit Reg.RAIL_STATUS 10

/-- STANDBY_ENTRY_DONE: steps 4 and 5 of R559, once the heads are down and audio is retained. -/
def standbyEntry (noRes : List Nat) (d : Dev) : Dev :=
  if d.pwr ≠ 1 || !headsDown d || d.au.runs then d else setPwr 2 (railOff (cellsDown (wearSave (pprRun noRes d))))

/-- ARRAY_PG_RISE: the steward writes 650 mV. -/
def arrayPgRise (d : Dev) : Dev :=
  if d.pwr ≠ 3 || d.rail.pg then d else railRequest 5 (d.updRail (fun r => { r with pg := true }))

/-- ARRAY_PG_TIMEOUT: the device stays in STANDBY. -/
def arrayPgTimeout (d : Dev) : Dev :=
  if d.pwr ≠ 3 || d.rail.pg then d else (setPwr 2 (d.passClk (d.pw.since + 50000000))).setBit Reg.PWR_FLAGS 1

/-- A repaired page is copied back, and its pool page becomes free (R468). DEDUCED, log entry 52. -/
def copyBack (p : Nat) (s : State) : State :=
  (copyPage p s).upd (fun d =>
    let d := d.mcUpd (fun m => { m with
      pprDone := m.pprDone.erase p, remap := Store.set (fun p => p) m.remap p p
      table := m.table.filter (fun e => e.1 != p && e.1 != servedBy d p) })
    faultLog 7 4 p 7 0 0 { d with repairs := d.repairs.erase (7, p) })

/-- Units whose stamp differs reload from the image: audio, Mule, Drove link, Packhorse (R284). Heads, their engines and compositors do so at START. -/
def rejoinUnits (d : Dev) : Dev :=
  let d := rejoinUnit Reg.AU_GEN (reloadRange 0xF0000 0x120000) d
  let d := rejoinUnit Reg.MULE_GEN (reloadRange 0xA0000 0xB0000) d
  let d := rejoinUnit Reg.DRV_GEN (reloadRange 0x80000 0x90000) d
  forN 32 d (fun n d => rejoinUnit (Reg.PCH_GEN n) (reloadRange (0xB0400 + n * 0x400) (0xB0800 + n * 0x400)) d)

/-- The cells reload their config store entries and rejoin (R101, R557). -/
def cellsUp (d : Dev) : Dev :=
  forN 16 d (fun f d => forN 8 d (fun p d =>
    if postCell d f p = 15 || underTakeover d f p || repenBlank d f || (d.flock f).testing.contains (postCell d f p) then d
    else (d.wr (Reg.CELL_GEN f p) (d.rd Reg.GLOBAL_GEN)).setBit (Reg.CELL_STATUS f p) 13))

/-- STANDBY_EXIT_DONE: the rail has its level, HBM3 is calibrated, and repaired pages are copied back. -/
def standbyExit (s : State) : State :=
  let d := s.dev
  if d.pwr ≠ 3 || !d.rail.pg || d.rail.request.isSome || railLevel d < max 5 (railFloor d) then s
  else (d.mc.pprDone.foldl (fun s p => copyBack p s) s).upd (fun d => setPwr 0 (rejoinUnits (cellsUp d)))

/-! ### What a reset and deep standby leave (R549, R552, R561, R566) -/

/-- Registers that lie in the keep store: RWK fields, the counts of repairs and of the log, PEN_VARIANT. DEDUCED, log entry 46. -/
def regKept (o : Nat) : Bool :=
  o == Reg.FAULT_COUNT || o == Reg.REPAIR_MEM || (Reg.PEN_VARIANT 0 ≤ o && o ≤ Reg.PEN_VARIANT 15) ||
  (match pageOf o with
    | some (.cell _ _, _) | none => false
    | some (p, q) => match findRow p.rows q with | some (r, _, _) => r.rwk != 0 | none => false)

/-- The registers that report levels of pins stay as the pins are. DEDUCED, log entry 46. -/
def regPin (o : Nat) : Bool := (List.range 4).any (fun b => o == Reg.GPIO_IN b || o == Reg.BANK_STATUS b)

/-- Page of VDD_AON: GLOBAL, KEEP, BELLWETHER, CONJ, HERD, GPIO and timer unit 0 (R552). DEDUCED, log entry 18. -/
def regAon (o : Nat) : Bool :=
  match pageOf o with
  | some (.global, _) | some (.keep, _) | some (.bellwether, _) | some (.conj, _) | some (.herd, _) | some (.gpio, _)
  | some (.timer 0, _) => true
  | _ => false
/-- The registers of timer units 1 to 7, which keep their values in deep standby (R366). -/
def regTimer (o : Nat) : Bool := match pageOf o with | some (.timer _, _) => true | _ => false

/-- A unit of the repair map leaves service, and a spare takes its place (R285): cores, slices, channels and lanes.
DEDUCED, log entry 47. -/
def mapOut (e : Nat × Nat) (d : Dev) : Dev :=
  let served := d.unit e.1 e.2 == 0
  let d := if 2 ≤ e.1 && e.1 ≤ 9 && e.1 ≠ 7 && e.1 ≠ 8 then setUnit e.1 e.2 3 d else d
  if !served then d
  else match e.1 with
    | 2 =>
      let y := e.2 / 2
      match takeSpare 2 d with
      | some (n, d) => swapCore y e.2 n d
      | none =>
        let a := d.fld (Reg.YOKE_STATE y) 4 0
        swapCore y e.2 (if a = e.2 then d.fld (Reg.YOKE_STATE y) 9 5 else a) d
    | 3 | 4 =>
      match takeSpare e.1 d with
      | some (n, d) => d.auUpd (fun u => { u with slices := Store.set (fun k => k % 32) u.slices (32 * e.1 + e.2) n })
      | none => d.auUpd (fun u => { u with down := insNat (32 * e.1 + e.2) u.down })
    | 5 =>
      match takeSpare 5 d with
      | some (n, d) => d.setFld (Reg.PCH_STATUS e.2) 13 8 n
      | none => d.updPh e.2 (fun p => { p with broken := true })
    | 6 => match takeSpare 6 d with | some (_, d) => d | none => d
    | _ => d

/-- The repair map is applied before any unit starts (R285): first every mapped unit is marked, then the places of those in service are
filled. DEDUCED, log entry 47. -/
def applyMap (d : Dev) : Dev :=
  let spares := d.repairs.filter (fun e => unitInit (unitKey e.1 e.2) == 1)
  let inUse := d.repairs.filter (fun e => unitInit (unitKey e.1 e.2) != 1)
  let d := inUse.foldl (fun d e => mapOut e d) (spares.foldl (fun d e => mapOut e d) d)
  (d.repairs.filter (fun e => e.1 == 1)).foldl (fun d e =>
    d.updFlock (e.2 / 16) (fun x => { x with mapped := insNat (e.2 % 16) x.mapped })) { d with testing := [] }

/-- The keep store after a reset: the store's words and facts stay; a commit in progress is past its commit point or not, as the instant of
the reset had it, which the spec does not fix; held writes and the counts of the present second are gone. A power loss takes the wear
counters back to the last save (R478). DESIGN CHOICE, log entry 45; DEDUCED, log entry 46; DESIGN CHOICE, log entry 53. -/
def keepAfter (lost : Bool) (past : Bool) (clk : Nat) (k : Keep) : Keep :=
  { k with
    held := [], rate := [], commits := 0, keyHeld := [], meterHi := [], wearAt := clk
    recOp := k.recOp.map (fun r => { r with committed := past || r.at' + (r.data.length + 3) * 250 ≤ clk })
    wear := if lost then k.wearSaved else k.wear
    uncorr := if lost then [] else k.uncorr }

/-- The memory controller after a reset: remaps and unusable pool pages as the repair map lists them, and pending repairs, stay (R285,
R566, R567). DEDUCED, log entry 46. -/
def mcAfter (reps : List (Nat × Nat)) (m : MemCtl) : MemCtl :=
  { remap := Store.keep (fun p => reps.contains (7, p)) m.remap, bad := m.bad.filter (fun p => reps.contains (13, p))
    ppr := m.ppr ++ m.pprDone }

/-- The state that every reset starts from: what R566 keeps, and the Reset column elsewhere.
DEDUCED, log entry 42; DESIGN CHOICE, log entry 45; DEDUCED, log entry 46. -/
def resetBase (lost : Bool) (d : Dev) : Dev :=
  let (w, d) := d.fresh
  let base : Dev := {
    regs := Store.keep (fun o => regKept o || regPin o) d.regs, ht := d.ht, clk := d.clk, free := d.free
    keep := keepAfter lost (bitOf w 0) d.clk d.keep, mc := mcAfter d.repairs d.mc, repairs := d.repairs
    ld := { journal := d.ld.journal, serial := d.ld.serial }
    pw := { boot := 0, trip := d.pw.trip }, jtag := if lost then {} else { d.jtag with chal := none } }
  applyMap base

/-- Copy registers from an older state. -/
def copyRegs (p : Nat → Bool) (old d : Dev) : Dev := (old.regs.filter (fun e => p e.1)).foldl (fun d e => d.wr e.1 e.2) d

/-- The set-up of the locked pins of a bank: PIN_CFG, latch bit and OE stay. -/
def keepLocks (old : Dev) (b : Nat) (d : Dev) : Dev :=
  let m := old.rd (Reg.GPIO_LOCKED b)
  let d := d.wr (Reg.GPIO_LOCKED b) m
  let d := d.wr (Reg.GPIO_OUT b) (old.rd (Reg.GPIO_OUT b) &&& m)
  forN 32 d (fun i d => if bitOf m i then d.wr (Reg.PIN_CFG (32 * b + i)) (old.rd (Reg.PIN_CFG (32 * b + i))) else d)

/-- A software or watchdog reset also keeps herd time, JOINED with the ring, and the locked pins.
DEDUCED, log entry 34; DEDUCED, log entry 46. -/
def keepSoft (old d : Dev) : Dev :=
  let d := { d with herd := { old.herd with queue := [], cens := [], seen := [], fill := none, htSet := false } }
  let d := (d.wr Reg.HERD_STATUS (old.rd Reg.HERD_STATUS)).wr Reg.HERD_ID (old.rd Reg.HERD_ID)
  let d := forN 4 d (fun b d => keepLocks old b d)
  { d with gpio := { d.gpio with holds := old.gpio.holds.filter (fun e => bitOf (old.rd (Reg.GPIO_LOCKED (e.1 / 32))) (e.1 % 32)) } }

/-- RESET_CAUSE: each reset sets its bit, and a power-on reset clears the others. DEDUCED, log entry 46. -/
def setCause (bit : Nat) (old d : Dev) : Dev :=
  d.wr Reg.RESET_CAUSE (w32 (2 ^ bit) ||| (if bit ≤ 1 then 0 else old.rd Reg.RESET_CAUSE))

/-- A reset: 0 power-on, 1 monitor, 2 pin, 3 software, 4 watchdog. A software or watchdog reset releases at once and keeps the herd clock
(R568). -/
def doReset (bit : Nat) (d : Dev) : Dev :=
  let n := setCause bit d (resetBase (bit ≤ 1) d)
  if bit ≤ 1 then n.pwUpd (fun p => { p with kind := 0, line := true })
  else if bit = 2 then n.pwUpd (fun p => { p with kind := 1, line := true })
  else (keepSoft d n).pwUpd (fun p => { p with kind := 2, boot := 2 })

/-- Power-on reset is in force: it prevails over every other. -/
def porHeld (d : Dev) : Bool := d.pw.boot == 0 && d.pw.kind == 0

/-! ### Deep standby (R561, R562) -/

/-- A yoke takes its deep checkpoint at its next instruction boundary, and stops. -/
def deepCheckpoint (y : Nat) (d : Dev) : Dev :=
  let k := d.yk y
  let st := yokeRun d y
  if d.pwr ≠ 4 || !(st = 1 || st = 4 || st = 7) || k.replay.isSome || k.wait.isSome || k.ld.isSome || k.tdWait.isSome then d
  else setRun y 0 (d.pwUpd (fun p => { p with deep := p.deep ++ [(y, k.ctx, yokeWins d y)] }))

/-- What VDD_AON keeps while everything else loses its state. -/
def deepBase (d : Dev) : Dev :=
  let base : Dev := { d with
    regs := Store.keep (fun o => regKept o || regPin o || regAon o || regTimer o) d.regs
    mc := mcAfter d.repairs d.mc, cells := [], flocks := [], heads := [], scripts := [], rail := { pg := false, windowAt := d.clk, calmFrom := d.clk }
    ld := { journal := d.ld.journal, serial := d.ld.serial }, yokes := [], units := [], requests := [], drv := {}, phs := [], cks := []
    au := {}, mule := {}, net := {} }
  applyMap base

/-- A pin that carries a waveform keeps the level it has at the entry to deep standby (R549), which is a free value. DESIGN CHOICE, log
entry 111. -/
def holdWaves (d : Dev) : Dev :=
  forN 128 d (fun q d =>
    if pinOutput d q = .wave then
      let (w, d) := d.fresh
      setHold q (some { til := d.clk, level := bitOf w 0, past := true }) d
    else d)

/-- DEEP_ENTRY_DONE: wear counters are saved, timer units 1 to 7 stop, and SW_EN and ARRAY_EN go low. -/
def deepEntry (s : State) : State :=
  let d := s.dev
  if d.pwr ≠ 4 || !headsDown d || d.au.runs || (List.range 8).any (fun y => let st := yokeRun d y; st == 1 || st == 2 || st == 3 || st == 4 || st == 7)
  then s
  else
    let d := holdWaves (timersDeep (wearSave d))
    let d := d.pwUpd (fun p => { p with slot := d.fld Reg.IMAGE_STATUS 3 2, serial := d.rd Reg.IMAGE_SERIAL })
    { s with dev := setPwr 5 (deepBase d), mem := { s.mem with bytes := [], poison := [], err := [] } }

/-- WAKE_TASK: the fabric executes the WAKE task (R338); outside deep standby it has no effect. -/
def wakeTask (d : Dev) : Dev :=
  match takeTask 0x40 d with
  | some (_, d) => wakeDeep 8 d
  | none => d

/-- SW_PG_RISE: steps 4 and 5 of the boot table follow. DEDUCED, log entry 48. -/
def swPgRise (d : Dev) : Dev :=
  if d.pwr ≠ 6 || d.pw.boot ≠ 7 then d
  else railRequest 5 ((d.pwUpd (fun p => { p with boot := 3, kind := 3 })).updRail (fun r => { r with pg := true }))

/-- SW_PG_TIMEOUT: SW_PG has not risen in 50 ms, and the device returns to DEEP. -/
def swPgTimeout (d : Dev) : Dev :=
  if d.pwr ≠ 6 || d.pw.boot ≠ 7 then d else (setPwr 5 (d.passClk (d.pw.since + 50000000))).setBit Reg.PWR_FLAGS 1

/-! ### Debug instructions (R570, R571) -/

/-- Whether a debug instruction acts at the present level: 0x10 and 0x11 below SEALED, 0x12 at OPEN or once unlocked, 0x13 and 0x14 once
unlocked. -/
def dbgActs (d : Dev) (op : Nat) : Bool :=
  let level := d.fld Reg.DBG_LOCK 1 0
  let open_ := d.bit Reg.DBG_STATUS 0
  match op with
  | 0x10 | 0x11 => level ≤ 1
  | 0x12 => level == 0 || (level == 1 && open_)
  | 0x13 | 0x14 => level ≤ 1 && open_
  | _ => false

/-- DBG_STATUS as a read returns it: ACTIVE while a debug instruction that acts is selected. -/
def dbgStatus (d : Dev) : Word := putFld (d.rd Reg.DBG_STATUS) 1 1 (if dbgActs d d.jtag.ir then 1 else 0)

/-! ### Resets (R564) and boot (R568) -/

/-- RESETn goes low for a number of nanoseconds: under 100 it is ignored. -/
def pinReset (low : Nat) (d : Dev) : Dev := if low < 100 || porHeld d then d else doReset 2 d

/-- A SW_RESET write. -/
def swReset (q : Req) (v : Word) (d : Dev) : Dev :=
  if !d.keeper q then d.deny else if fld v 15 0 ≠ 0x5E7A || d.pw.boot = 0 then d.okay else doReset 3 d

/-- BOOT_OK was not written within BOOT_WDT seconds of LOADED. -/
def watchdogReset (d : Dev) : Dev :=
  match d.pw.wdt with
  | some c => if d.fld Reg.BOOT_WDT 11 0 = 0 then d else doReset 4 (d.passClk (c + d.fld Reg.BOOT_WDT 11 0 * 1000000000))
  | none => d

/-- tp: the reset lines are released, and the boot starts unless JTAG holds the device (R570). -/
def releaseBoot (d : Dev) : Dev :=
  let d := d.pwUpd (fun p => { p with line := false })
  if d.pw.boot ≠ 0 || d.jtag.hold then d else d.pwUpd (fun p => { p with boot := 1 })

/-- HERD_CLOCK_LOCK: herd time starts at 0. DEDUCED, log entry 34. -/
def clockLock (d : Dev) : Dev := if d.pw.boot ≠ 1 then d else { d with ht := 0, pw := { d.pw with boot := 2 } }

/-- KEEP_READY in the boot: the store finishes its journal, and the steward writes 650 mV (R482, R555). -/
def bootKeepReady (d : Dev) : Dev := if d.pw.boot ≠ 2 then d else railRequest 5 ((keepReady d).pwUpd (fun p => { p with boot := 3 }))

/-- HBM_TRAIN_DONE: HBM3 is trained, or has left self-refresh; the boot waits for the rail. -/
def hbmTrained (d : Dev) : Dev :=
  if d.pw.boot ≠ 3 || d.rail.request.isSome || railLevel d ≠ 5 then d else d.pwUpd (fun p => { p with boot := 4 })

/-- The memories after step 5: zero-filled after a power-on reset or deep standby, else with the staging area cleared. -/
def bootFill (all : Bool) (m : Mem) : Mem :=
  let p (a : Nat) : Bool := !all && (a < 0x1000800000 || 0x1001000000 ≤ a)
  { m with bytes := Store.keep p m.bytes, poison := m.poison.filter (fun w => p (w * 32)), err := Store.keep (fun w => p (w * 32)) m.err }

/-- BOOT_ZERO_FILL_DONE. -/
def zeroFilled (s : State) : State :=
  if s.dev.pw.boot ≠ 4 then s
  else { s with mem := bootFill (s.dev.pw.kind == 0 || s.dev.pw.kind == 3) s.mem,
                dev := s.dev.pwUpd (fun p => { p with boot := 5 }) }

/-- HEAD_JOIN_WAIT_TIMEOUT: 1 s has passed since the head's start (R569). -/
def joinTimeout (h : Nat) (d : Dev) : Dev :=
  if (d.head h).awaitJoin then endJoinWait h (d.passClk ((d.head h).startClk + 1000000000)) else d

/-! ### Self-tests of spared units (R281, R408) -/

/-- A self-test of a core, slice, channel or lane ends. A Mule lane that passes while none is in service goes into service.
DEDUCED, log entry 96. -/
def unitSelftest (cls idx : Nat) (pass : Bool) (d : Dev) : Dev :=
  if cls < 2 || 6 < cls then d
  else
    let d := unitTestDone cls idx pass d
    if cls = 6 && (muleLanes d).isEmpty then
      match takeSpare 6 d with
      | some (i, d) => muleResume i (d.wr Reg.MULE_GEN (d.rd Reg.GLOBAL_GEN))
      | none => d
    else d

/-! ### The steps -/

/-- PWR_RUN (R560). -/
def execPwrRun (q : Req) (s : State) : Host.Outcome State Fault Refusal := s.next (pwrRun q)
/-- PWR_STANDBY (R559). -/
def execPwrStandby (q : Req) (s : State) : Host.Outcome State Fault Refusal := s.next (pwrStandby q)
/-- PWR_DEEP (R561). -/
def execPwrDeep (q : Req) (s : State) : Host.Outcome State Fault Refusal := s.next (pwrDeep q)
/-- STANDBY_ENTRY_DONE (R559). -/
def execStandbyEntryDone (noRes : List Nat) (s : State) : Host.Outcome State Fault Refusal := s.next (standbyEntry noRes)
/-- ARRAY_PG_RISE (R560). -/
def execArrayPgRise (s : State) : Host.Outcome State Fault Refusal := s.next arrayPgRise
/-- ARRAY_PG_TIMEOUT (R560). -/
def execArrayPgTimeout (s : State) : Host.Outcome State Fault Refusal := s.next arrayPgTimeout
/-- STANDBY_EXIT_DONE (R560). -/
def execStandbyExitDone (s : State) : Host.Outcome State Fault Refusal := .next (standbyExit s)
/-- DEEP_CHECKPOINT (R561). -/
def execDeepCheckpoint (y : Fin 8) (s : State) : Host.Outcome State Fault Refusal := s.next (deepCheckpoint y)
/-- DEEP_ENTRY_DONE (R561). -/
def execDeepEntryDone (s : State) : Host.Outcome State Fault Refusal := .next (deepEntry s)
/-- WAKE_TASK (R338). -/
def execWakeTask (s : State) : Host.Outcome State Fault Refusal := s.next wakeTask
/-- SW_PG_RISE (R562). -/
def execSwPgRise (s : State) : Host.Outcome State Fault Refusal := s.next swPgRise
/-- SW_PG_TIMEOUT (R562). -/
def execSwPgTimeout (s : State) : Host.Outcome State Fault Refusal := s.next swPgTimeout
/-- POWER_ON_RESET (R564). -/
def execPowerOnReset (s : State) : Host.Outcome State Fault Refusal := s.next (doReset 0)
/-- AON_MONITOR_TRIP (R554). -/
def execAonMonitorTrip (s : State) : Host.Outcome State Fault Refusal := s.next (doReset 1)
/-- PIN_RESET (R564). -/
def execPinReset (low : Nat) (s : State) : Host.Outcome State Fault Refusal := s.next (pinReset low)
/-- SW_RESET (R564). -/
def execSwReset (q : Req) (v : Word) (s : State) : Host.Outcome State Fault Refusal := s.next (swReset q v)
/-- WATCHDOG_RESET (R564). -/
def execWatchdogReset (s : State) : Host.Outcome State Fault Refusal := s.next watchdogReset
/-- RESET_RELEASE (R568). -/
def execResetRelease (s : State) : Host.Outcome State Fault Refusal := s.next releaseBoot
/-- HERD_CLOCK_LOCK (R568). -/
def execHerdClockLock (s : State) : Host.Outcome State Fault Refusal := s.next clockLock
/-- KEEP_READY (R482, R555, R568). -/
def execKeepReady (s : State) : Host.Outcome State Fault Refusal := s.next bootKeepReady
/-- HBM_TRAIN_DONE (R568). -/
def execHbmTrainDone (s : State) : Host.Outcome State Fault Refusal := s.next hbmTrained
/-- BOOT_ZERO_FILL_DONE (R568). -/
def execBootZeroFillDone (s : State) : Host.Outcome State Fault Refusal := .next (zeroFilled s)
/-- HEAD_JOIN_WAIT_TIMEOUT (R569). -/
def execHeadJoinWaitTimeout (h : Fin 8) (s : State) : Host.Outcome State Fault Refusal := s.next (joinTimeout h)
/-- THERMTRIP (R580). DEDUCED, log entry 49. -/
def execThermtrip (s : State) : Host.Outcome State Fault Refusal := s.next (fun d => d.pwUpd (fun p => { p with trip := true }))
/-- THERMTRIP_CLEAR (R580). DEDUCED, log entry 49. -/
def execThermtripClear (s : State) : Host.Outcome State Fault Refusal := s.next (fun d => d.pwUpd (fun p => { p with trip := false }))
/-- UNIT_SELFTEST_DONE (R281). -/
def execUnitSelftestDone (cls idx : Nat) (pass : Bool) (s : State) : Host.Outcome State Fault Refusal := s.next (unitSelftest cls idx pass)

end Sys2Proof.Machine
end

