-- ==== Sys2Proof/Machine/Bus.lean ====
section
/-! DEFINITION. Register space as a whole (R6 to R13, R35): what a read of each register returns, and what a write of each does,
for every requester. A write reaches the operation of its block, with the privilege that the block's chapter asks for. -/
namespace Sys2Proof.Machine

/-! ### Reads -/

/-- A LO register whose read latches its HI register in the same access. -/
def readPair (hi v : Nat) (d : Dev) : Dev := (d.wr hi (w32 (v / 2 ^ 32))).answer (.ok (w32 v))

/-- A read of a cell page (R106): the spare post's page answers only with ID, CELL_STATUS and CELL_GEN.
DEDUCED, log entry 38; DEDUCED, log entry 55. -/
def cellRead (f p o : Nat) (d : Dev) : Word :=
  if p = 8 then
    match o with
    | 0x004 =>
      let c := spareCell d f
      putFld (putFld (d.rd (Reg.CELL_STATUS f 8)) 7 4 c) 15 15 (if (d.flock f).bist.contains c then 1 else 0)
    | 0x008 => d.rd (Reg.CELL_GEN f 8)
    | _ => 0
  else if o = 0x004 then putFld (cellStatus d f p) 15 15 (if (d.flock f).bist.contains (postCell d f p) then 1 else 0)
  else match cellRow (kindOf d f p) (twinOf d f p) o with
    | some _ => d.rd (cellOff f p o)
    | none => 0

/-- A read of the BELLWETHER page (R328, R335). -/
def bwRead (q : Req) (o : Nat) (d : Dev) : Dev :=
  let give (w : Word) : Dev := d.answer (.ok w)
  let y := (o - 0x200) / 0x20
  if 0x080 ≤ o && o < 0x0C0 then give (pendingWord d ((o - 0x080) / 4))
  else if 0x200 ≤ o && o < 0x300 then
    match o % 0x20 with
    | 0x00 => let (n, d) := claimRead q y d; d.answer (.ok (w32 n))
    | 0x08 => give (runPrioWord d y)
    | 0x0C => give (d.rd (Reg.BASE_PRIO y))
    | 0x10 => give (stackTop d y)
    | _ => give 0
  else if 0x400 ≤ o && o < 0x600 && o % 0x10 = 8 then give (coalStatus d ((o - 0x400) / 0x10))
  else if 0x400 ≤ o && o < 0x600 && o % 0x10 = 12 then give (w32 (d.coal ((o - 0x400) / 0x10)).firstHt.toNat)
  else if 0x050 ≤ o && o < 0x060 then give (d.rd (0x40000 + o - 0x10))
  else if 0x2004 ≤ o && o < 0x2800 then give (srcState d ((o - 0x2000) / 4))
  else if o = 0x1000 || o = 0x2000 then give 0
  else give (d.rd (0x40000 + o))

/-- A read of the KEEP page (R486). -/
def keepPageRead (o : Nat) (d : Dev) : Dev :=
  let give (w : Word) : Dev := d.answer (.ok w)
  if 0x200 ≤ o && o < 0x400 then
    let m := (o - 0x200) / 16
    match o % 16 with
    | 0 => meterLoRead m d
    | 4 => give (Store.get (fun _ => 0) d.keep.meterHi m)
    | 8 => give (d.rd (Reg.ADD_HI m))
    | _ => give 0
  else match o with
    | 0x004 => give (keepStatus d)
    | 0x024 => give (w32 (Store.get (fun _ => 0) d.keep.wear (d.fld Reg.WEAR_SEL 15 2)))
    | _ => give (d.rd (0x30000 + o))

/-- A read of a timer unit (R361, R365). -/
def timerRead (u o : Nat) (d : Dev) : Dev :=
  let c := (o - 0x100) / 0x40
  if 0x100 ≤ o && o < 0x200 then
    match o % 0x40 with
    | 0x04 => d.answer (.ok (tmStatus d u c))
    | 0x10 => tmCntRead u c d
    | 0x1C => tmCapRead u c d
    | 0x20 | 0x24 => d.answer (.ok (if tmLow d u c then d.rd (0xE0000 + 0x1000 * u + o) else 0))
    | _ => d.answer (.ok (d.rd (0xE0000 + 0x1000 * u + o)))
  else d.answer (.ok (d.rd (0xE0000 + 0x1000 * u + o)))

/-- A read of a head's timing page. -/
def scanRead (h o : Nat) (d : Dev) : Dev :=
  let x := d.head h
  let te := if isCommand d h then x.teHt else 0
  match o with
  | 0x018 => d.answer (.ok (beamPos d h))
  | 0x01C => readPair (Reg.FRAME_K_HI h) x.k d
  | 0x024 => readPair (Reg.FS_HI h) x.fs d
  | 0x038 => readPair (Reg.TE_HT_HI h) te d
  | 0x040 => d.answer (.ok (if isCommand d h then d.rd (Reg.TE_PHASE h) else 0))
  | _ => d.answer (.ok (d.rd (0x2020000 + h * 0x100000 + o)))

/-- A read at offset o of a page: RO and RW fields return their present value, WO fields 0 (R12), an offset without a register 0
(R8). DESIGN CHOICE, log entry 118. -/
def pageRead (q : Req) (p : Page) (o : Nat) (d : Dev) : Dev :=
  let give (w : Word) : Dev := d.answer (.ok w)
  if !p.carries then give 0
  else if o = 0 && p ≠ .xpoint then give p.idWord
  else match p with
    | .global => give (if o = 0x024 then pwrStatus d else if o = 0x03C then dbgStatus d else d.rd o)
    | .grenhiund => give (match o with
      | 0x004 => stStatus d
      | 0x020 => railStatus d
      | 0x100 | 0x104 | 0x108 | 0x10C => repairWord d o
      | 0x114 => w32 (min d.mc.ppr.length 0xFFFF)
      | _ => d.rd (0x10000 + o))
    | .image => give (d.rd (0x20000 + o))
    | .keep => keepPageRead o d
    | .bellwether => bwRead q o d
    | .conj => give (match o with
      | 0x00C | 0x010 | 0x014 => clauseState d
      | _ => if 0x4000 ≤ o && o < 0x5800 then taskState d ((o - 0x4000) / 4) else d.rd (0x50000 + o))
    | .herd => herdRead o d
    | .net => if 0x800 ≤ o && o < 0x900 && o % 8 = 0 then statRead ((o - 0x800) / 8) d else give (d.rd (0x70000 + o))
    | .drove => if o = 0x068 then readPair Reg.PEER_ERR_ADDR_HI d.drv.errAddr d else give (d.rd (0x80000 + o))
    | .memctl => match o with
      | 0x018 => give (poolFreeWord d)
      | 0x020 => (lastErrLoRead d).answer (.ok (d.rd Reg.LAST_ERR_LO))
      | _ => give (d.rd (0x90000 + o))
    | .mule => give (if o = 0x004 then muleStatus d else d.rd (0xA0000 + o))
    | .packhorse => if 0x400 ≤ o && o % 0x400 = 0x028 then phBytesRead ((o - 0x400) / 0x400) d else give (d.rd (0xB0000 + o))
    | .check m => give (d.rd (0xC0000 + 0x1000 * m + o))
    | .gpio => give (d.rd (0xD0000 + o))
    | .timer u => timerRead u o d
    | .audio => if 0x400 ≤ o && o < 0x800 then meterRestart ((o - 0x400) / 4) (give (auRead o d)) else give (auRead o d)
    | .xpoint => give (d.rd (0x100000 + o))
    | .voices => give (voiceRead o d)
    | .yoke y => give (d.rd (0x200000 + 0x10000 * y + o))
    | .flock f => give (if o = 0x004 then flockStatus d f else d.rd (0x1000000 + 0x100000 * f + o))
    | .cell f p => give (cellRead f p o d)
    | .comp h => let d := compCatch h (readPixel d h) d; d.answer (.ok (d.rd (0x2000000 + h * 0x100000 + o)))
    | .ls h => give (d.rd (0x2010000 + h * 0x100000 + o))
    | .scan h => scanRead h o d
    | .phy h => give (if o = 0x008 then phyLatency d h else d.rd (0x2030000 + h * 0x100000 + o))
    | .mat h => give (d.rd (0x2040000 + h * 0x100000 + o))

/-- Whether an access reaches a register page: 32 bits wide, aligned (R6), inside an assigned page (R8), and in a domain that is
powered: in deep standby only the units of VDD_AON are (R556). The index of a CHECK or TIMER sub-page is at most 7.
DEDUCED, log entry 18. -/
def regPage (d : Dev) (off width : Nat) : Option (Page × Nat) :=
  if width ≠ 4 || off % 4 ≠ 0 || (d.inDeep && !regAon off) then none else pageOf off

/-- In HALT the device answers only on JTAG (R63). -/
def haltBars (d : Dev) (q : Req) : Bool := d.bit Reg.IMAGE_STATUS 5 && q != .jtag

/-- A read of register space; the requester's answer is in `resp`. DESIGN CHOICE, log entry 118. -/
def regRead (q : Req) (off width : Nat) (d : Dev) : Dev :=
  if haltBars d q then d.deny
  else match regPage d off width with
  | some (p, o) => pageRead q p o d
  | none => d.deny

/-! ### Writes -/

/-- A write performed by the access types of its register (R12). -/
def mergeAt (p : Page) (off o : Nat) (v : Word) (d : Dev) : Dev :=
  match findRow p.rows o with
  | some (r, _, _) => (d.wr off (r.merge (d.rd off) v)).okay
  | none => d.okay

/-- A write that only a Keeper requester makes. -/
def asKeeper (q : Req) (f : Dev → Dev) (d : Dev) : Dev := if d.keeper q then f d else d.deny

/-- A write of the GLOBAL page (R30, R573). -/
def globalWrite (q : Req) (o : Nat) (v : Word) (d : Dev) : Dev :=
  match o with
  | 0x004 => mergeAt .global o o v d
  | 0x008 => toDraught q v d
  | 0x00C => modeWrite q v d
  | 0x020 => pwrCmd q v d
  | 0x030 => swReset q v d
  | 0x034 => asKeeper q (fun d => if fld v 11 0 > 3600 then d.okay else (keepField Reg.BOOT_WDT (v &&& 0xFFF) d).okay) d
  | 0x038 => asKeeper q (fun d =>
      if fld v 1 0 = 3 || fld v 1 0 < d.fld Reg.DBG_LOCK 1 0 then d.okay else (keepField Reg.DBG_LOCK (v &&& 3) d).okay) d
  | _ => if 0x020 ≤ o && o < 0x040 then asKeeper q (mergeAt .global o o v) d else mergeAt .global o o v d

/-- A write of the GRENHIUND page (R289). DEDUCED, log entry 19. -/
def stewardWrite (q : Req) (o : Nat) (v : Word) (s : State) : State :=
  if !s.dev.keeper q then s.upd Dev.deny
  else match o with
    | 0x010 => s.upd (genBump q v)
    | 0x0A0 => yokeCtrl q v s
    | 0x0B0 => if fld v 15 8 = 0 || fld v 23 16 = 0 then s.upd Dev.okay else s.upd (mergeAt .grenhiund (0x10000 + o) o v)
    | 0x0B4 => s.upd (selftestReq q v)
    | _ => s.upd (mergeAt .grenhiund (0x10000 + o) o v)

/-- A write of the IMAGE page (R78). DEDUCED, log entry 19. -/
def imageWrite (q : Req) (o : Nat) (v : Word) (s : State) : State :=
  if !s.dev.keeper q then s.upd Dev.deny
  else if 0x100 ≤ o && o < 0x200 then s.upd (keyHashWrite q ((o - 0x100) / 0x40) (o % 0x40 / 4) v)
  else match o with
    | 0x00C => s.upd (slotCtrlWrite q v)
    | 0x010 => s.upd (bootOk q v)
    | 0x014 => s.upd (minSerialWrite q v)
    | 0x018 => s.upd (keyRevokeWrite q v)
    | 0x02C => if 1 ≤ fld v 2 0 && fld v 2 0 ≤ 4 then stageCmd q (fld v 2 0) s else s.upd Dev.okay
    | 0x040 => s.upd (repenRequest q v)
    | _ => s.upd (mergeAt .image (0x20000 + o) o v)

/-- A write of the KEEP page (R486). Writes of REC_CTRL and REC_DATA during a commit are not performed. -/
def keepPageWrite (q : Req) (o : Nat) (v : Word) (d : Dev) : Dev :=
  if (o = 0x040 || (0x100 ≤ o && o < 0x200)) && d.keep.recOp.isSome then d.okay
  else if 0x200 ≤ o && o < 0x400 && o % 16 = 12 then meterAdd q ((o - 0x200) / 16) v d
  else match o with
    | 0x014 => asKeeper q (fun d => (keepField Reg.OPEN_FROM (v &&& 0xFF) d).okay) d
    | 0x018 => asKeeper q (fun d => (keepField Reg.METER_OPEN v d).okay) d
    | 0x044 => recCommit q v d
    | _ => mergeAt .keep (0x30000 + o) o v d

/-- A write of the BELLWETHER page (R335). DEDUCED, log entry 19. -/
def bwWrite (q : Req) (o : Nat) (v : Word) (d : Dev) : Dev :=
  let y := (o - 0x200) / 0x20
  if 0x040 ≤ o && o < 0x050 then swiWrite ((o - 0x040) / 4) v true d
  else if 0x050 ≤ o && o < 0x060 then swiWrite ((o - 0x050) / 4) v false d
  else if 0x200 ≤ o && o < 0x300 && o % 0x20 = 0x04 then completeWrite q y v d
  else if 0x200 ≤ o && o < 0x300 && o % 0x20 = 0x0C then basePrioWrite q y v d
  else if !d.keeper q then d.deny
  else if 0x400 ≤ o && o < 0x600 && o % 0x10 = 0 then coalCfgWrite q ((o - 0x400) / 0x10) v d
  else if 0x400 ≤ o && o < 0x600 && o % 0x10 = 4 then coalTimeWrite q ((o - 0x400) / 0x10) v d
  else if 0x1004 ≤ o && o < 0x1800 then srcCfgWrite q ((o - 0x1000) / 4) v d
  else if o = 0x1000 then d.okay
  else mergeAt .bellwether (0x40000 + o) o v d

/-- A write of the CONJ page (R343, R352). -/
def conjWrite (q : Req) (o : Nat) (v : Word) (d : Dev) : Dev :=
  if 0x1000 ≤ o && o < 0x1800 && o % 16 = 0 then chCfgWrite q ((o - 0x1000) / 16) v d
  else if 0x1000 ≤ o && o < 0x1800 && o % 16 = 4 then chCtrlWrite q ((o - 0x1000) / 16) v d
  else if 0x4000 ≤ o && o < 0x5800 && !taskAssigned ((o - 0x4000) / 4) then d.okay
  else match o with
    | 0x010 => clauseWrite q v true d
    | 0x014 => clauseWrite q v false d
    | 0x020 => swFire q v d
    | _ => mergeAt .conj (0x50000 + o) o v d

/-- A write of the DROVE page (R520). DEDUCED, log entry 19. -/
def droveWrite (q : Req) (o : Nat) (v : Word) (d : Dev) : Dev :=
  let s := (o - 0x1000) / 32
  let ring := 0x1000 ≤ o && o < 0x1780
  if ring && o % 32 = 0x0C then rxRdWrite s v d
  else if ring && o % 32 = 0x18 then txWrWrite s v d
  else if !d.keeper q then d.deny
  else if ring then
    match o % 32 with
    | 0x00 => ringBaseWrite (Reg.DRX_BASE_LO s) (Reg.DRX_CFG s) v d
    | 0x04 => rxCfgWrite s v d
    | 0x10 => ringBaseWrite (Reg.DTX_BASE_LO s) (Reg.DTX_CFG s) v d
    | 0x14 => txCfgWrite s v d
    | _ => d.okay
  else if o = 0x004 then drvCtrlWrite q v d
  else mergeAt .drove (0x80000 + o) o v d

/-- A write of the MEMCTL page (R470). DEDUCED, log entry 19. -/
def memctlWrite (q : Req) (o : Nat) (v : Word) (d : Dev) : Dev :=
  if !d.keeper q then d.deny
  else match o with
    | 0x004 => memCfgWrite v d
    | 0x034 => errInjectWrite v d
    | _ => mergeAt .memctl (0x90000 + o) o v d

/-- A write of the MULE page (R409). -/
def mulePageWrite (q : Req) (o : Nat) (v : Word) (s : State) : State :=
  match o with
  | 0x00C => muleSubmitWrite q v s
  | 0x010 => muleAbort q v s
  | _ => s.upd (mergeAt .mule (0xA0000 + o) o v)

/-- A write of the PACKHORSE page (R387). -/
def phPageWrite (q : Req) (o : Nat) (v : Word) (s : State) : State :=
  if 0x400 ≤ o && o < 0x8400 then
    let n := (o - 0x400) / 0x400
    if o % 0x400 = 4 then phCmd q n v s else s.upd (phRegWrite q n (o % 0x400) v)
  else s.upd (fun d =>
    if 0x100 ≤ o && o < 0x200 then
      let c := (o - 0x100) / 0x20
      match o % 0x20 with
      | 0x00 => cqBaseWrite c (Reg.CQ_BASE_LO c) 0xFFFFFFF0 v d
      | 0x04 => cqBaseWrite c (Reg.CQ_BASE_HI c) 0xFFFF v d
      | 0x08 => cqCtrlWrite c v d
      | 0x10 => cqRdWrite c v d
      | _ => d.okay
    else mergeAt .packhorse (0xB0000 + o) o v d)

/-- A write of a check unit's registers (R417, R419). -/
def checkWrite (q : Req) (m o : Nat) (v : Word) (d : Dev) : Dev :=
  if m ≥ 8 then d.okay
  else match o with
    | 0x004 => ckCtrlWrite m v d
    | 0x058 => ckFeedWrite q m (wordBytes v) d
    | 0x05C => ckFeedWrite q m ((wordBytes v).take 1) d
    | 0x060 => ckCmdWrite m v d
    | _ => ckRegWrite m o v d

/-- A write of a timer unit's registers (R367). -/
def timerWrite (q : Req) (u o : Nat) (v : Word) (d : Dev) : Dev :=
  let c := (o - 0x100) / 0x40
  if u ≥ 8 then d.okay
  else if 0x100 ≤ o && o < 0x200 then
    match o % 0x40 with
    | 0x00 => tmCtrlWrite u c v d
    | 0x10 => tmCntWrite u c v d
    | 0x14 => tmPeriodWrite u c v d
    | 0x18 => tmCmpWrite u c v d
    | 0x28 => tmCmd q u c v d
    | _ => mergeAt (.timer u) (0xE0000 + 0x1000 * u + o) o v d
  else match o with
    | 0x004 => staggerWrite u v d
    | 0x008 => unitCmd q u v d
    | _ => mergeAt (.timer u) (0xE0000 + 0x1000 * u + o) o v d

/-- A write of a flock's control page: UNGUARDED sets again at once while the flock has no spare (FLOCK_IRQ). -/
def flockWrite (f o : Nat) (v : Word) (d : Dev) : Dev :=
  let d := mergeAt (.flock f) (0x1000000 + 0x100000 * f + o) o v d
  if o = 0x010 && d.bit (Reg.FLOCK_STATUS f) 8 then d.setBit (Reg.FLOCK_IRQ f) 2 else d

/-- A write of a line script engine's page. -/
def lsPageWrite (h o : Nat) (v : Word) (d : Dev) : Dev :=
  if o = 0x00C then bankReqWrite h v d
  else if 0x8000 ≤ o then (bankWordWrite h o v d).okay
  else mergeAt (.ls h) (0x2010000 + h * 0x100000 + o) o v d

/-- A write of a YOKE page (R319). A write of Y_WIN by another requester also updates the copy in the yoke's checkpoint (R296).
DEDUCED, log entry 19. -/
def yokePageWrite (q : Req) (y off o : Nat) (v : Word) (d : Dev) : Dev :=
  if !d.keeper q then d.deny
  else
    let d := mergeAt (.yoke y) off o v d
    if 0x040 ≤ o && o < 0x078 && q ≠ .yoke y then
      d.updYk y (fun k => { k with ckptWin := k.ckptWin.set ((o - 0x040) / 4) (v &&& 0x800FFFFF) })
    else d

/-- A write at offset o of a page, by a requester. -/
def pageWrite (q : Req) (p : Page) (off o : Nat) (v : Word) (s : State) : State :=
  if o = 0 && p ≠ .xpoint then
    match p with
    | .grenhiund | .image | .net | .drove | .memctl | .bellwether | .yoke _ => if s.dev.keeper q then s.upd Dev.okay else s.upd Dev.deny
    | .cell f r => s.upd (cellBusWrite f r 0 v)
    | _ => s.upd Dev.okay
  else match p with
    | .global => s.upd (globalWrite q o v)
    | .grenhiund => stewardWrite q o v s
    | .image => imageWrite q o v s
    | .keep => s.upd (keepPageWrite q o v)
    | .bellwether => s.upd (bwWrite q o v)
    | .conj => s.upd (conjWrite q o v)
    | .herd => s.upd (herdWrite q o v)
    | .net => s.upd (netWrite q o v)
    | .drove => s.upd (droveWrite q o v)
    | .memctl => s.upd (memctlWrite q o v)
    | .mule => mulePageWrite q o v s
    | .packhorse => phPageWrite q o v s
    | .check m => s.upd (checkWrite q m o v)
    | .gpio => s.upd (gpioWrite q o v)
    | .timer u => s.upd (timerWrite q u o v)
    | .audio => s.upd (auWrite o v)
    | .xpoint => s.upd (gainWrite o v)
    | .voices => s.upd (voiceWrite o v)
    | .yoke y => s.upd (yokePageWrite q y off o v)
    | .flock f => s.upd (flockWrite f o v)
    | .cell f r => s.upd (cellBusWrite f r o v)
    | .comp h => s.upd (fun d => (compFirmware h o v d).okay)
    | .ls h => s.upd (lsPageWrite h o v)
    | .scan h => s.upd (fun d => (if o = 0x008 then headCmd h v d else scanWrite h o v d).okay)
    | .phy h => s.upd (fun d => if o = 0x010 then (sideStart h v d).okay else mergeAt p off o v d)
    | .mat h => s.upd (fun d => (matRegWrite h o v d).okay)

/-- A write of register space (R6, R8, R12). -/
def regWrite (q : Req) (off width : Nat) (v : Word) (s : State) : State :=
  if haltBars s.dev q then s.upd Dev.deny
  else match regPage s.dev off width with
  | some (p, o) => pageWrite q p off o v s
  | none => s.upd Dev.deny

/-! ### The system bus (R32, R33, R511, R558, R601) -/

/-- The regions of system addresses. -/
inductive SysRegion where
  | memory | keep | register | flash | peer | none
  deriving DecidableEq, Repr

/-- The region that holds [a, a + n) whole. -/
def sysRegion (a n : Nat) : SysRegion :=
  let within (lo hi : Nat) : Bool := lo ≤ a && a + n ≤ hi
  if within 0 0xC00000000 || within 0x1000000000 0x1001000000 then .memory
  else if within 0x1800000000 0x1800010000 then .keep
  else if within 0x2000000000 0x2010000000 then .register
  else if within 0x2800000000 0x2810000000 then .flash
  else if within 0x3000000000 0x3100000000 then .peer
  else .none

/-- An access that memory refuses: one to the reserve pool sets POOL_ACCESS (R467). -/
def memRefuse (a n : Nat) (s : State) : State :=
  s.upd (fun d => (if poolHit d a n then d.setBit Reg.MEM_FLAGS 9 else d).deny)

/-- Bytes of the boot flash. DESIGN CHOICE, log entry 3; DESIGN CHOICE, log entry 12. -/
def flashRead (s : State) (a n : Nat) : List Byte := Store.getList (fun _ => 0xFF) s.mem.flash (a - 0x2800000000) n

/-- A read of n bytes at a system address, other than the peer window, by a requester of a class of R461; `resp` tells the outcome, and
the bytes stand beside it. A 32-bit read has its word in `resp`. -/
def sysRead (q : Req) (cls a n : Nat) (s : State) : List Byte × State :=
  if haltBars s.dev q then ([], s.upd Dev.deny)
  else match sysRegion a n with
  | .memory =>
    if memUp s.dev a n then
      let (b, p, s) := memRead cls a n s
      (b, s.upd (fun d => d.answer (if p then .poison else .ok (w32 (leNat b)))))
    else ([], memRefuse a n s)
  | .keep =>
    let s := s.upd (keepRead (a - 0x1800000000) n .good .good)
    (match s.dev.resp with | .ok v => wordBytes v | _ => [], s)
  | .register =>
    let s := s.upd (regRead q (a - 0x2000000000) n)
    (match s.dev.resp with | .ok v => wordBytes v | _ => [], s)
  | .flash =>
    if a + n - 0x2800000000 ≤ Config.flashBytes then
      let b := flashRead s a n
      (b, s.upd (fun d => d.answer (.ok (w32 (leNat b)))))
    else ([], s.upd Dev.deny)
  | _ => ([], s.upd Dev.deny)

/-- A write of bytes at a system address, other than the peer window, by a requester; a write that a SECURE region refuses meets an
access error (R47). -/
def sysWrite (q : Req) (a : Nat) (b : List Byte) (s : State) : State :=
  let n := b.length
  if haltBars s.dev q then s.upd Dev.deny
  else match sysRegion a n with
  | .memory =>
    if memUp s.dev a n then
      if secureRefuses s.dev (s.dev.keeper q) a n then s.upd Dev.deny else (memWrite a b s).upd Dev.okay
    else memRefuse a n s
  | .keep => s.upd (keepWrite q (a - 0x1800000000) n (w32 (leNat b)) false false)
  | .register => regWrite q (a - 0x2000000000) n (w32 (leNat b)) s
  | _ => s.upd Dev.deny

/-- REG_WRITE. -/
def execRegWrite (q : Req) (off width : Nat) (v : Word) (s : State) : Host.Outcome State Fault Refusal := .next (regWrite q off width v s)

end Sys2Proof.Machine
end

