-- ==== Sys2Proof/Machine/Packhorse.lean ====
section
/-! DEFINITION. Running a Packhorse ring (R370 to R383): taking a descriptor, its 256-byte units, and its completion. -/
namespace Sys2Proof.Machine

/-! ### Descriptors (R373 to R375) -/

/-- Word i of a descriptor. -/
def descWord (w : List Word) (i : Nat) : Word := w.getD i 0
/-- TYPE. -/
def descType (w : List Word) : Nat := fld (descWord w 0) 27 24
/-- The source address. -/
def descSrc (w : List Word) : Nat := (descWord w 2).toNat + fld (descWord w 3) 15 0 * 2 ^ 32
/-- The destination address. -/
def descDst (w : List Word) : Nat := (descWord w 4).toNat + fld (descWord w 5) 15 0 * 2 ^ 32
/-- Width and rows of a COPY2D. -/
def descWidth (w : List Word) : Nat := fld (descWord w 1) 15 0
/-- Rows of a COPY2D. -/
def descRows (w : List Word) : Nat := fld (descWord w 1) 31 16
/-- The bytes that a descriptor writes. -/
def descBytes (w : List Word) : Nat := if descType w = 1 then descWidth w * descRows w else (descWord w 1).toNat

/-- DESC_ERR of R374: a TYPE of 5 to 15, a LEN outside its range, or a reserved bit set; an IMM destination that is not a multiple of 4.
DEDUCED, log entry 90. -/
def descBad (w : List Word) : Bool :=
  let t := descType w
  let len := (descWord w 1).toNat
  5 ≤ t || fld (descWord w 0) 20 0 ≠ 0 || fld (descWord w 3) 31 16 ≠ 0 || fld (descWord w 5) 31 16 ≠ 0 ||
  (if t = 1 then fld (descWord w 6) 31 20 ≠ 0 || fld (descWord w 7) 31 20 ≠ 0 || descWidth w = 0 || descRows w = 0
   else descWord w 6 ≠ 0 || descWord w 7 ≠ 0 ||
     (match t with
      | 3 => len ≠ 4 || descDst w % 4 ≠ 0
      | 4 => len ≠ 0
      | _ => len = 0))

/-- The bytes from the first to the last that a side of a descriptor touches. -/
def descSpan (w : List Word) (pitch : Nat) : Nat :=
  if descType w = 1 then (descRows w - 1) * fld (descWord w pitch) 19 0 + descWidth w else descBytes w

/-- Whether source and destination of a COPY or COPY2D overlap. DEDUCED, log entry 90. -/
def descOverlaps (w : List Word) : Bool :=
  descSrc w < descDst w + descSpan w 7 && descDst w < descSrc w + descSpan w 6
/-- OVERLAP of R375. -/
def descOverlap (w : List Word) : Bool :=
  match descType w with
  | 0 => descOverlaps w && ((descDst w : Int) - descSrc w).natAbs < 256
  | 1 => descOverlaps w
  | _ => false

/-- The status with which a descriptor that was read ends at once, if it does; a NOP ends at once with 0. DEDUCED, log entry 91. -/
def descAtOnce (w : List Word) : Option Nat :=
  if descBad w then some 1 else if descOverlap w then some 5 else if descType w = 4 then some 0 else none

/-- The channel takes the descriptor at RING_HEAD (R371, R372, R377, R381), when it is of a type that `is` names. A ring outside
memory counts as DESC_ERR of an unknown descriptor. DEDUCED, log entry 91. -/
def phTake (n : Nat) (is : Nat → Bool) (s : State) : State :=
  if phState s.dev n ≠ 1 || (s.dev.ph n).desc.isSome then s
  else
    let put (status : Nat) (s : State) : State :=
      s.upd (fun d => let (x, d) := freeDesc n status d; (d.updPh n (fun p => { p with desc := some x })).wr (Reg.PROGRESS n) 0)
    let a := descAddr s.dev n
    if !memUp s.dev a 32 then put 1 s
    else
      let (b, poisoned, t) := memRead 2 a 32 s
      let w := listWords b
      if poisoned then put 7 t
      else if !bitOf (descWord w 0) 31 then
        t.upd (fun d => if (d.ph n).stepped then (setPhState n 2 d).setBit (Reg.PCH_FLAGS n) 1 else setPhState n 0 d)
      else if !is (descType w) then s
      else t.upd (fun d =>
        let x : PhDesc := { idx := (d.rd (Reg.RING_HEAD n)).toNat, w := w, status := (descAtOnce w).getD 0, ended := (descAtOnce w).isSome }
        (d.updPh n (fun p => { p with desc := some x })).wr (Reg.PROGRESS n) 0)

/-! ### Units (R370, R374, R375, R381 to R383) -/

/-- Where the next unit of a descriptor with p bytes done reads and writes, and its length. A unit lies within one row, and a
COPY to a higher address runs from the end (R375). DEDUCED, log entry 90. -/
def descUnit (w : List Word) (p : Nat) : Nat × Nat × Nat :=
  match descType w with
  | 1 =>
    let row := p / descWidth w
    let col := p % descWidth w
    (descSrc w + row * fld (descWord w 6) 19 0 + col, descDst w + row * fld (descWord w 7) 19 0 + col, min 256 (descWidth w - col))
  | _ =>
    let n := descBytes w
    let m := min 256 (n - p)
    let o := if descType w = 0 && descSrc w < descDst w then n - p - m else p
    (descSrc w + o, descDst w + o, m)

/-- Read [a, a + n) of memory with the poison of each byte. -/
def readMarked : Nat → Nat → Nat → State → List (Byte × Bool) × State
  | 0, _, _, s => ([], s)
  | fuel + 1, a, n, s =>
    if n = 0 then ([], s)
    else
      let m := min n (32 - a % 32)
      let (b, p, s) := memRead 2 a m s
      let (l, s) := readMarked fuel (a + m) (n - m) s
      (b.map (fun x => (x, p)) ++ l, s)

/-- What a unit reads: its bytes with their poison, an access error, or nothing yet. -/
inductive UnitRead where
  | got (b : List (Byte × Bool))
  | fail
  | wait
  deriving DecidableEq, Repr

/-- A unit reads its source over the peer window (R513). DEDUCED, log entry 92. -/
def peerUnit (n a m : Nat) (s : State) : UnitRead × State :=
  let a := a - 0x3000000000
  let ask (d : Dev) : UnitRead × State :=
    if peerReading (.channel n) d || peerReadFull d then (.wait, { s with dev := d })
    else match peerRead (.channel n) a m d with
      | some (_, d) => (.wait, { s with dev := d })
      | none => (.fail, { s with dev := d })
  match takeAnswer (.channel n) s.dev with
  | none => ask s.dev
  | some (x, d) =>
    if x.addr ≠ a || x.len ≠ m then ask d
    else match x.status with
      | 0 => (.got ((x.data.take m).map (fun b => (b, false))), { s with dev := d })
      | 2 => (.got ((x.data.take m).map (fun b => (b, true))), { s with dev := d })
      | _ => (.fail, { s with dev := d })

/-- A unit reads its source. Register space and the keep store take no unit. -/
def readUnit (n a m : Nat) (s : State) : UnitRead × State :=
  match sysRegion a m with
  | .memory =>
    if memUp s.dev a m then let (b, s) := readMarked 9 a m s; (.got b, s)
    else (.fail, if poolHit s.dev a m then s.upd (fun d => d.setBit Reg.MEM_FLAGS 9) else s)
  | .flash => let (b, s) := sysRead (.channel n) 2 a m s; if b.length = m then (.got (b.map (fun x => (x, false))), s) else (.fail, s)
  | .peer => peerUnit n a m s
  | _ => (.fail, s)

/-- The runs of bytes of a unit that are not poisoned, each with its offset. DEDUCED, log entry 92. -/
def cleanRuns : Nat → List (Byte × Bool) → List (Nat × List Byte)
  | _, [] => []
  | o, (b, p) :: l =>
    if p then cleanRuns (o + 1) l
    else match cleanRuns (o + 1) l with
      | (k, r) :: t => if k = o + 1 then (o, b :: r) :: t else (o, [b]) :: (k, r) :: t
      | [] => [(o, [b])]

/-- A unit writes its destination: the state after it, unless the write meets an access error. Poisoned bytes poison their memory words
and go nowhere else (R382). DEDUCED, log entry 90; DEDUCED, log entry 92. -/
def writeUnit (n a : Nat) (b : List (Byte × Bool)) (s : State) : Option State :=
  match sysRegion a b.length with
  | .memory =>
    if !memUp s.dev a b.length || secureRefuses s.dev (s.dev.keeper (.channel n)) a b.length then none
    else
      let s := memWrite a (b.map (·.1)) s
      some (b.zipIdx.foldl (fun s p => if p.1.2 then markPoison (a + p.2) 1 s else s) s)
  | .peer =>
    if peerMem s.dev then
      some ((cleanRuns 0 b).foldl (fun s r => s.upd (fun d => (peerWrite (.channel n) (a - 0x3000000000 + r.1) r.2 d).getD d)) s)
    else none
  | _ => none

/-- A unit has been written: PROGRESS and BYTES step, and the last one ends the descriptor, with POISON when a source was poisoned. -/
def unitDone (n m : Nat) (poisoned : Bool) (x : PhDesc) (d : Dev) : Dev :=
  let p := (d.rd (Reg.PROGRESS n)).toNat + m
  let bad := x.poisoned || poisoned
  (d.updPh n (fun q => { q with
    bytes := (q.bytes + m) % 2 ^ 64
    desc := some { x with poisoned := bad, ended := decide (descBytes x.w ≤ p), status := if descBytes x.w ≤ p && bad then 4 else 0 } })).wr
    (Reg.PROGRESS n) (w32 p)

/-- Whether a channel has a unit to move now: one that waits for the peer's answer to a read has moved its unit's request. -/
def phHasUnit (d : Dev) (n : Nat) : Bool :=
  phState d n == 1 && (match (d.ph n).desc with | some x => !x.ended | none => false) &&
  (!peerReading (.channel n) d || (takeAnswer (.channel n) d).isSome)

/-- The channel whose turn it is: the highest PRIO with a unit to move, and round-robin among equals (R370). -/
def phTurn (d : Dev) : Option Nat :=
  let ready := ((List.range 32).map (fun i => (d.phLast + 1 + i) % 32)).filter (phHasUnit d)
  let prio (n : Nat) : Nat := d.fld (Reg.PCH_CFG n) 2 1
  let top := ready.foldl (fun m n => max m (prio n)) 0
  ready.find? (fun n => prio n == top)

/-- The next unit of the present descriptor. An IMM is one 32-bit access at any system address. -/
def phUnit (n : Nat) (s : State) : State :=
  match (s.dev.ph n).desc with
  | none => s
  | some x =>
    if phState s.dev n ≠ 1 || x.ended then s
    else
      let (src, dst, m) := descUnit x.w (s.dev.rd (Reg.PROGRESS n)).toNat
      match descType x.w with
      | 3 =>
        let b := wordBytes (descWord x.w 2)
        if sysRegion dst 4 = .peer then
          match peerWrite (.channel n) (dst - 0x3000000000) b s.dev with
          | some d => { s with dev := unitDone n 4 false x d }
          | none => s.upd (phEnd n 3)
        else
          let t := sysWrite (.channel n) dst b s
          t.upd (if t.dev.resp = .accessError then phEnd n 3 else unitDone n 4 false x)
      | 2 =>
        let pat := wordBytes (descWord x.w 2)
        match writeUnit n dst ((List.range m).map (fun i => (pat.getD ((dst + i) % 4) 0, false))) s with
        | some s => s.upd (unitDone n m false x)
        | none => (memRefuse dst m s).upd (phEnd n 3)
      | _ =>
        match readUnit n src m s with
        | (.wait, s) => s
        | (.fail, s) => s.upd (phEnd n 2)
        | (.got b, s) =>
          match writeUnit n dst b s with
          | some s => s.upd (unitDone n m (b.any (·.2)) x)
          | none => (memRefuse dst m s).upd (phEnd n 3)

/-! ### Completion (R378 to R381) -/

/-- A write of the channel to its ring or to a queue, which memory takes unless it is out of reach or SECURE against the channel.
DEDUCED, log entry 91. -/
def phStore (n a : Nat) (w : List Word) (s : State) : State :=
  let b := w.flatMap wordBytes
  if memUp s.dev a b.length && !secureRefuses s.dev (s.dev.keeper (.channel n)) a b.length then memWrite a b s else s

/-- Whether queue q is full. -/
def cqFull (d : Dev) (q : Nat) : Bool := (d.rd (Reg.CQ_WR q) - d.rd (Reg.CQ_RD q)).toNat ≥ 2 ^ d.fld (Reg.CQ_CTRL q) 8 4

/-- Steps 3 and 4 of R378: the record, and CQ_WR. DEDUCED, log entry 91. -/
def cqRecord (n q idx status ht : Nat) (s : State) : State :=
  let d := s.dev
  let w := (d.rd (Reg.CQ_WR q)).toNat
  let size := 2 ^ d.fld (Reg.CQ_CTRL q) 8 4
  let a := (d.rd (Reg.CQ_BASE_LO q)).toNat + (d.rd (Reg.CQ_BASE_HI q)).toNat * 2 ^ 32 + 16 * (w % size)
  let phase := 1 - w / size % 2
  (phStore n a [w32 (idx % 65536 + n * 2 ^ 16 + status * 2 ^ 24 + phase * 2 ^ 31), d.rd (Reg.PROGRESS n), w32 ht,
    w32 (ht / 2 ^ 32 % 65536)] s).upd (fun d => d.wr (Reg.CQ_WR q) (w32 (w + 1)))

/-- The channel after step 6 of R378. DEDUCED, log entry 93. -/
def phAfter (n status : Nat) (hold : Bool) (s : State) : State :=
  let s := s.upd (fun d => (d.updPh n (fun p => { p with desc := none })).setFld (Reg.PCH_STATUS n) 7 4 status)
  if status ≠ 0 then s.upd (fun d => setPhState n 4 (d.setBit (Reg.PCH_FLAGS n) 0))
  else if hold then s.upd (setPhState n 0)
  else if (s.dev.ph n).stepped then s.upd (setPhState n 2)
  else phProceed n s

/-- The present descriptor completes. DEDUCED, log entry 91. -/
def phComplete (n : Nat) (s : State) : State :=
  match (s.dev.ph n).desc with
  | none => s
  | some x =>
    let st := phState s.dev n
    if !(st = 1 || st = 6 || (st = 4 && x.status = 8)) || !x.ended then s
    else
      let w0 := descWord x.w 0
      let q := fld w0 23 21
      let ht := x.ht.getD s.dev.now
      let keeps := x.status = 7 || x.status = 8
      let owes := x.status ≠ 0 || bitOf w0 30
      let off := !s.dev.bit (Reg.CQ_CTRL q) 0
      if owes && !off && cqFull s.dev q then
        if st = 6 || st = 4 then s
        else s.upd (fun d => setPhState n 6 ((d.setBit (Reg.PCH_FLAGS n) 2).updPh n (fun p => { p with desc := some { x with ht := some ht } })))
      else
        let status := if owes && off && !keeps then 1 else x.status
        let ring := (s.dev.rd (Reg.RING_BASE_LO n)).toNat + (s.dev.rd (Reg.RING_BASE_HI n)).toNat * 2 ^ 32 + 32 * x.idx
        let s := if keeps || x.w.length < 8 then s else phStore n ring [w0 &&& 0x7FFFFFFF] s
        let s := if owes && !off then cqRecord n q x.idx status ht s else s
        let run := (s.dev.ph n).run
        let s := s.upd (fun d =>
          let d := if status ≠ 0 then fireCause run (0x281 + 2 * n) d else if bitOf w0 29 then fireCause run (0x280 + 2 * n) d else d
          if keeps then d
          else
            d.wr (Reg.RING_HEAD n) (w32 ((x.idx + 1) % (d.rd (Reg.RING_SIZE n)).toNat)))
        phAfter n status (bitOf w0 28) s

/-! ### The steps -/

/-- PH_COPY (R375). -/
def execPhCopy (n : Fin 32) (s : State) : Host.Outcome State Fault Refusal := .next (phTake n (fun t => t == 0) s)
/-- PH_COPY2D (R374). -/
def execPhCopy2d (n : Fin 32) (s : State) : Host.Outcome State Fault Refusal := .next (phTake n (fun t => t == 1) s)
/-- PH_FILL (R374). -/
def execPhFill (n : Fin 32) (s : State) : Host.Outcome State Fault Refusal := .next (phTake n (fun t => t == 2) s)
/-- PH_IMM (R374). -/
def execPhImm (n : Fin 32) (s : State) : Host.Outcome State Fault Refusal := .next (phTake n (fun t => t == 3) s)
/-- PH_NOP (R374), and a TYPE of 5 to 15, which is no type. -/
def execPhNop (n : Fin 32) (s : State) : Host.Outcome State Fault Refusal := .next (phTake n (fun t => 4 ≤ t) s)
/-- A channel moves its next unit when its turn comes (R370). -/
def phUnitTurn (n : Nat) (s : State) : State :=
  if phTurn s.dev = some n then phUnit n (s.upd (fun d => { d with phLast := n })) else s
/-- PH_UNIT_DONE (R370, R384). -/
def execPhUnitDone (n : Fin 32) (s : State) : Host.Outcome State Fault Refusal := .next (phUnitTurn n s)
/-- PH_DESC_COMPLETE (R378). DESIGN CHOICE, log entry 15. -/
def execPhDescComplete (n : Fin 32) (s : State) : Host.Outcome State Fault Refusal := .next (phComplete n s)

end Sys2Proof.Machine
end

