-- ==== Sys2Proof/Machine/DroveRx.lean ====
section
/-! DEFINITION. Frames from the peer that reach memory, registers, a requester of the device or a yoke (R511 to R516), and the timeout of a
request to customer logic (R318). -/
namespace Sys2Proof.Machine

/-- The credit units that a frame costs, to be returned (R497). DEDUCED, log entry 105. -/
def oweFrame (f : DrvFrame) (d : Dev) : Dev := oweCredits f.stream ((16 + f.payload.length + 255) / 256) d
/-- A frame of a type arrives and is accepted: its effect follows (R499). -/
def onFrame (ty : Nat) (f : DrvFrame) (k : State → State) (s : State) : State :=
  match rxFrame ty f s.dev with
  | (true, d) => k { s with dev := d }
  | (false, d) => { s with dev := d }

/-! ### DATA (R515, R516) -/

/-- The record of a DATA frame, padded to whole units. -/
def dataRecord (f : DrvFrame) (ht : DWord) : List Byte :=
  let b := natBytes 2 f.payload.length ++ [BitVec.ofNat 8 f.eom.toNat, BitVec.ofNat 8 f.stream] ++ natBytes 2 f.seq ++ [0, 0] ++
    natBytes 8 ht.toNat ++ f.payload
  b ++ List.replicate ((b.length + 255) / 256 * 256 - b.length) 0

/-- A DATA frame lands in its receive ring, and RX_MSG fires; without room it is discarded and PEER_PROTO sets. DEDUCED, log entry 106. -/
def dataLand (f : DrvFrame) (s : State) : State :=
  let d := s.dev
  let n := f.stream
  let cfg := d.rd (Reg.DRX_CFG n)
  let lg := fld cfg 20 16
  let base := (d.rd (Reg.DRX_BASE_LO n)).toNat + fld cfg 15 0 * 2 ^ 32
  let wr := d.rd (Reg.DRX_WR n)
  let b := dataRecord f d.ht
  if !bitOf cfg 29 || (wr - d.rd (Reg.DRX_RD n)).toNat + b.length > 2 ^ lg then s.upd (fun d => d.setBit Reg.DRV_FLAGS 4)
  else if !memUp d base (2 ^ lg) then s
  else
    let s := ringWrite base lg wr.toNat b s
    s.upd (fun d =>
      let d := snoopStream 1 n f.payload (d.wr (Reg.DRX_WR n) (wr + w32 b.length))
      if f.eom && bitOf cfg 31 then fire 0x2F8 d else d)

/-! ### Memory transactions (R511, R512) -/

/-- The causes that refuse a write and a read of the peer alike. -/
def peerRefused (d : Dev) (a n : Nat) : Bool :=
  !d.bit Reg.DRV_CTRL 1 || 2 ^ 48 ≤ a ||
  (match sysRegion a n with
   | .memory => !memUp d a n
   | .register => !d.bit Reg.DRV_CTRL 2 || a % 4 ≠ 0 || n % 4 ≠ 0
   | _ => true)

/-- The words of a register write by the peer, in ascending order: none where register space refuses one of them, and then the state that
this word's refusal leaves. DEDUCED, log entry 105. -/
def peerRegs : Nat → List Word → State → State × State → Option State × State
  | _, [], s, (_, bad) => (some s, bad)
  | off, v :: l, s, (s0, bad) =>
    let t := regWrite .peer off 4 v s
    if t.dev.resp = .accessError then (none, regWrite .peer off 4 v s0) else peerRegs (off + 4) l t (s0, bad)

/-- A refused write of the peer. -/
def peerWrErr (a : Nat) (d : Dev) : Dev :=
  ((d.setBit Reg.DRV_FLAGS 3).bump Reg.PEER_WR_ERRS).drvUpd (fun x => { x with errAddr := a }) |>.wr Reg.PEER_ERR_ADDR_LO (w32 a)

/-- A MEM_WR is performed as a whole or refused (R511). -/
def peerStore (f : DrvFrame) (s : State) : State :=
  let a := leNat (f.payload.take 8)
  let b := f.payload.drop 8
  let s := s.upd (oweFrame f)
  if peerRefused s.dev a b.length then
    (if poolHit s.dev a b.length then s.upd (fun d => d.setBit Reg.MEM_FLAGS 9) else s).upd (peerWrErr a)
  else if sysRegion a b.length = .memory then
    if regionFlag s.dev 1 a b.length || secureRefuses s.dev (s.dev.keeper .peer) a b.length then s.upd (peerWrErr a)
    else memWrite a b s
  else match peerRegs (a - 0x2000000000) (listWords b) s (s, s) with
    | (some s, _) => s
    | (none, s) => s.upd (peerWrErr a)

/-- The words of a register read by the peer: none where one is refused. -/
def peerRegRead : Nat → Nat → State → Option (List Byte) × State
  | _, 0, s => (some [], s)
  | off, n + 1, s =>
    let s := s.upd (regRead .peer off 4)
    match s.dev.resp with
    | .ok v => match peerRegRead (off + 4) n s with
      | (some l, s) => (some (wordBytes v ++ l), s)
      | (none, s) => (none, s)
    | _ => (none, s)

/-- What a read of the peer gives: STATUS and data. A poisoned word is sent as zeros. DEDUCED, log entry 105. -/
def peerFetch (a n : Nat) (s : State) : Nat × List Byte × State :=
  if n = 0 || 4096 < n || peerRefused s.dev a n then
    (1, [], if poolHit s.dev a n then s.upd (fun d => d.setBit Reg.MEM_FLAGS 9) else s)
  else if sysRegion a n = .memory then
    let (b, s) := readMarked 130 a n s
    (if b.any (·.2) then 2 else 0, b.map (fun x => if x.2 then 0 else x.1), s)
  else match peerRegRead (a - 0x2000000000) (n / 4) s with
    | (some b, s) => (0, b, s)
    | (none, s) => (1, [], s)

/-- A MEM_RD_REQ is answered with a MEM_RD_RSP (R512). -/
def peerAsks (f : DrvFrame) (s : State) : State :=
  let (st, b, s) := peerFetch (leNat (f.payload.take 8)) (leNat (f.payload.drop 8)) s
  let tag := w32 (fld f.tag 15 0 + st * 2 ^ 16)
  s.upd (fun d => oweFrame f (queueFrame none { ty := 7, stream := 62, tag := tag, payload := b } d))

/-! ### Responses (R513, R514) -/

/-- A response that no request waits for. -/
def lateRsp (d : Dev) : Dev := (d.setBit Reg.DRV_FLAGS 5).bump Reg.LATE_RSPS

/-- A MEM_RD_RSP completes the read that its tag names. A response whose length is not what its STATUS calls for counts as STATUS 1.
DEDUCED, log entry 105. -/
def peerAnswers (f : DrvFrame) (d : Dev) : Dev :=
  match d.drv.reads.find? (fun r => r.tag == fld f.tag 15 0) with
  | none => oweFrame f (lateRsp d)
  | some r =>
    let st := fld f.tag 23 16
    let st := if (st = 0 || st = 2) && f.payload.length = r.len then st else 1
    match r.who with
    | .channel _ => peerAnswer r st f.payload d
    | _ => oweFrame f (peerAnswer r st f.payload d)

/-- A COP_RSP completes the request that its TAG names. -/
def copAnswers (f : DrvFrame) (d : Dev) : Dev :=
  let d := oweFrame f d
  match d.drv.cops.find? (fun r => r.tag == f.tag.toNat) with
  | none => lateRsp d
  | some r =>
    let word (o : Nat) : Word := w32 (leNat ((f.payload.drop o).take 4))
    yokeCopAnswer r.y r.tag (word 0) (word 4) (bitOf (word 8) 0)
      (d.drvUpd (fun x => { x with cops := x.cops.filter (fun c => c.tag != r.tag) }))

/-- 20 µs have passed since a request to customer logic left, with no response (R318). -/
def copTimeout (y : Nat) (d : Dev) : Dev :=
  match d.drv.cops.find? (fun r => r.y == y) with
  | none => d
  | some r =>
    yokeCopTimeout y r.tag r.c
      ((d.passClk (r.at_ + 20000)).drvUpd (fun x => { x with cops := x.cops.filter (fun c => c.tag != r.tag) }))

/-! ### The steps -/

/-- DROVE_DATA_RX (R516). -/
def execDroveDataRx (f : DrvFrame) (s : State) : Host.Outcome State Fault Refusal := .next (onFrame 1 f (dataLand f) s)
/-- DROVE_MEM_WR_RX (R511). -/
def execDroveMemWrRx (f : DrvFrame) (s : State) : Host.Outcome State Fault Refusal := .next (onFrame 5 f (peerStore f) s)
/-- DROVE_MEM_RD_REQ_RX (R512). -/
def execDroveMemRdReqRx (f : DrvFrame) (s : State) : Host.Outcome State Fault Refusal := .next (onFrame 6 f (peerAsks f) s)
/-- DROVE_MEM_RD_RSP_RX (R513). -/
def execDroveMemRdRspRx (f : DrvFrame) (s : State) : Host.Outcome State Fault Refusal :=
  .next (onFrame 7 f (fun s => s.upd (peerAnswers f)) s)
/-- DROVE_COP_RSP_RX (R514). -/
def execDroveCopRspRx (f : DrvFrame) (s : State) : Host.Outcome State Fault Refusal :=
  .next (onFrame 9 f (fun s => s.upd (copAnswers f)) s)
/-- COP_TIMEOUT (R318). -/
def execCopTimeout (y : Fin 8) (s : State) : Host.Outcome State Fault Refusal := s.next (copTimeout y)

end Sys2Proof.Machine
end

