-- ==== Sys2Proof/Machine/Jtag.lean ====
section
/-! DEFINITION. The TAP (R570): boundary-scan instructions, the hold in pin reset, and the debug instructions (R571, R572). Each command is
the selection of an instruction with one scan of its data register. -/
namespace Sys2Proof.Machine

/-- Change the TAP. -/
def Dev.jtUpd (d : Dev) (f : JtagSt → JtagSt) : Dev := { d with jtag := f d.jtag }
/-- Select an instruction, with what its data register captures. -/
def selectIr (op dr : Nat) (d : Dev) : Dev := d.jtUpd (fun j => { j with ir := op, dr := dr })

/-! ### Boundary scan (R570) -/

/-- The opcodes that the table lists, BYPASS apart. DEDUCED, log entry 44. -/
def listedOps : List Nat := [0, 1, 2, 3, 4, 0x10, 0x11, 0x12, 0x13, 0x14]

/-- EXTEST, CLAMP and HIGHZ hold the device in pin reset while they are selected. DEDUCED, log entry 44. -/
def holdReset (op : Nat) (d : Dev) : Dev :=
  let d := selectIr op 0 d
  if d.jtag.hold then d
  else
    let line := d.pw.line
    let d := if porHeld d then d else (doReset 2 d).pwUpd (fun p => { p with line := line })
    d.jtUpd (fun j => { j with hold := true })

/-- Test-Logic-Reset selects IDCODE and releases the hold: the boot starts unless a reset line is held. DEDUCED, log entry 44. -/
def tapReset (d : Dev) : Dev :=
  let d := selectIr 1 0x18220A5F d
  if d.jtag.hold then
    let d := d.jtUpd (fun j => { j with hold := false })
    if d.pw.boot = 0 && !d.pw.line then d.pwUpd (fun p => { p with boot := 1 }) else d
  else d

/-- SAMPLE/PRELOAD: the pins are sampled, and the boundary register is preloaded. -/
def samplePreload (pins data : List Byte) (d : Dev) : Dev := (selectIr 2 0 d).jtUpd (fun j => { j with sample := pins, preload := data })

/-- BYPASS: an opcode that the table does not list selects it as 0xFF does; it captures 0. DEDUCED, log entry 44. -/
def bypass (op : Nat) (d : Dev) : Dev := selectIr (if listedOps.contains op then 0xFF else op) 0 d

/-! ### Unlocking debug (R571) -/

/-- n fresh free words as one number. DEDUCED, log entry 41. -/
def freshNum : Nat → Dev → Nat × Dev
  | 0, d => (0, d)
  | n + 1, d =>
    let (w, d) := d.fresh
    let (m, d) := freshNum n d
    (w.toNat + 2 ^ 32 * m, d)

/-- DBG_CHAL captures a fresh challenge. DEDUCED, log entry 41. -/
def dbgChal (d : Dev) : Dev :=
  if !dbgActs d 0x10 then selectIr 0x10 0 d
  else
    let (c, d) := freshNum 12 d
    (selectIr 0x10 c d).jtUpd (fun j => { j with chal := some c })

/-- Whether a DBG_UNLOCK value answers a challenge: KEY_SLOT, PUBKEY, SIG_R and SIG_S in the order of their bytes.
PRESUMED, log entry 40; DEDUCED, log entry 41; DEDUCED, log entry 42. -/
def unlockOk (d : Dev) (c v : Nat) : Bool :=
  let pub := natBytes 97 (v / 2 ^ 8)
  keyOk d (v % 2 ^ 8) pub &&
  ecdsaVerify pub (sha384 (natBytes 48 c)) (beNat (natBytes 48 (v / 2 ^ 784))) (beNat (natBytes 48 (v / 2 ^ 1168)))

/-- DBG_UNLOCK: one attempt for each challenge; after a failure none is accepted for 1 s. DEDUCED, log entry 42. -/
def dbgUnlock (v : Nat) (d : Dev) : Dev :=
  let acts := dbgActs d 0x11
  let d := selectIr 0x11 0 d
  if !acts || d.clk < d.jtag.block then d
  else
    let ok : Bool := match d.jtag.chal with
      | some c => unlockOk d c v
      | none => false
    let d := d.jtUpd (fun j => { j with chal := none })
    if ok then d.setBit Reg.DBG_STATUS 0
    else (d.setBit Reg.DBG_STATUS 2).jtUpd (fun j => { j with block := d.clk + 1000000000 })

/-! ### DBG_ACCESS (R572) -/

/-- Capture-DR: the data and the STATUS of the access before; the spec gives the other bits no value. DEDUCED, log entry 41. -/
def accessCapture (d : Dev) : Dev :=
  let (n, d) := freshNum 2 d
  selectIr 0x12 (n % 2 ^ 50 + d.jtag.data.toNat * 2 ^ 50 + d.jtag.status * 2 ^ 82) d

/-- The result of an access. -/
def accessDone (status : Nat) (v : Word) (d : Dev) : Dev := d.jtUpd (fun j => { j with status := status, data := v })
/-- The result that an answer of the bus gives. -/
def accessResp (d : Dev) : Dev :=
  match d.resp with
  | .ok v => accessDone 0 v d
  | .poison => accessDone 2 0 d
  | _ => accessDone 1 0 d

/-- One 32-bit access at Update-DR as a Keeper requester. A read of the peer is busy until its answer comes. DESIGN CHOICE, log entry 43. -/
def accessMake (op a : Nat) (v : Word) (s : State) : State :=
  if peerReading .jtag s.dev then s
  else if op = 1 then
    if sysRegion a 4 = .peer then
      s.upd (fun d => match peerRead .jtag (a - 0x3000000000) 4 d with
        | some (_, d) => accessDone 3 0 d
        | none => accessDone 1 0 d)
    else (sysRead .jtag 1 a 4 s).2.upd accessResp
  else if op = 2 then
    if sysRegion a 4 = .peer then
      s.upd (fun d => match peerWrite .jtag (a - 0x3000000000) (wordBytes v) d with
        | some d => accessDone 0 0 d
        | none => accessDone 1 0 d)
    else (sysWrite .jtag a (wordBytes v) s).upd accessResp
  else s

/-- DBG_ACCESS: the scan captures the result of the access before and makes a new one. DESIGN CHOICE, log entry 43. -/
def dbgAccess (v : Nat) (s : State) : State :=
  if !dbgActs s.dev 0x12 then s.upd (selectIr 0x12 0)
  else accessMake (v % 4) (v / 4 % 2 ^ 48) (w32 (v / 2 ^ 50)) (s.upd accessCapture)

/-! ### DBG_MAP_CLEAR and DBG_METER_SET (R572) -/

/-- DBG_MAP_CLEAR removes an entry of the repair map; the map is next applied at the next boot (R285). DESIGN CHOICE, log entry 43. -/
def dbgMapClear (v : Nat) (d : Dev) : Dev :=
  let acts := dbgActs d 0x13
  let d := selectIr 0x13 0 d
  let e := (v % 2 ^ 8, v / 2 ^ 8 % 2 ^ 32)
  if !acts || !d.repairs.contains e then d
  else faultLog 12 9 e.2 14 5 e.1 { d with repairs := d.repairs.erase e }

/-- DBG_METER_SET sets a meter to 16 digits. DESIGN CHOICE, log entry 43. -/
def dbgMeterSet (v : Nat) (d : Dev) : Dev :=
  let acts := dbgActs d 0x14
  let d := selectIr 0x14 0 d
  let m := v % 2 ^ 5
  let n := v / 2 ^ 5 % 2 ^ 64
  if !acts || !bcdValid 16 n then d
  else
    let d := if (meterOf d m).toNat = n then d
      else wearStep (meterSlotKey d m) (d.kp (fun k => { k with meters := Store.set (fun _ => 0) k.meters m (BitVec.ofNat 64 n) }))
    faultLog 12 9 m 15 5 0 d

/-! ### The steps -/

/-- TAP_RESET (R570). -/
def execTapReset (s : State) : Host.Outcome State Fault Refusal := s.next tapReset
/-- EXTEST (R570). -/
def execExtest (s : State) : Host.Outcome State Fault Refusal := s.next (holdReset 0)
/-- IDCODE (R570). -/
def execIdcode (s : State) : Host.Outcome State Fault Refusal := s.next (selectIr 1 0x18220A5F)
/-- SAMPLE_PRELOAD (R570). -/
def execSamplePreload (pins data : List Byte) (s : State) : Host.Outcome State Fault Refusal := s.next (samplePreload pins data)
/-- CLAMP (R570). -/
def execClamp (s : State) : Host.Outcome State Fault Refusal := s.next (holdReset 3)
/-- HIGHZ (R570). -/
def execHighz (s : State) : Host.Outcome State Fault Refusal := s.next (holdReset 4)
/-- BYPASS (R570). -/
def execBypass (op : BitVec 8) (s : State) : Host.Outcome State Fault Refusal := s.next (bypass op.toNat)
/-- DBG_CHAL (R571). -/
def execDbgChal (s : State) : Host.Outcome State Fault Refusal := s.next dbgChal
/-- DBG_UNLOCK (R571). -/
def execDbgUnlock (v : BitVec 1552) (s : State) : Host.Outcome State Fault Refusal := s.next (dbgUnlock v.toNat)
/-- DBG_ACCESS (R572). -/
def execDbgAccess (v : BitVec 84) (s : State) : Host.Outcome State Fault Refusal := .next (dbgAccess v.toNat s)
/-- DBG_MAP_CLEAR (R572). -/
def execDbgMapClear (v : BitVec 40) (s : State) : Host.Outcome State Fault Refusal := s.next (dbgMapClear v.toNat)
/-- DBG_METER_SET (R572). -/
def execDbgMeterSet (v : BitVec 69) (s : State) : Host.Outcome State Fault Refusal := s.next (dbgMeterSet v.toNat)

end Sys2Proof.Machine
end

