-- ==== Sys2Proof/Machine/Load.lean ====
section
/-! DEFINITION. The loader applies an accepted image (R65, R77), and what happens at LOADED: the units take the generation, the yokes, the
heads and audio start; and the return from deep standby (R562). -/
namespace Sys2Proof.Machine

/-! ### REGIME, KEEPLAYOUT, HERD and HEAD (R42, R55, R50, R43) -/

/-- REGIME: the regime, the mode fields and the interleave. -/
def applyRegime (recs : List ImgRec) (d : Dev) : Dev :=
  let b := bodyOf recs 1
  let d := d.setFld Reg.REGIME_STATUS 0 0 (u8At b 0)
  let d := d.wr Reg.MODE (w32 (u8At b 1 + u8At b 2 * 2 ^ 5 + u8At b 3 * 2 ^ 6 + u8At b 4 * 2 ^ 8 + u8At b 5 * 2 ^ 16))
  (d.setFld Reg.MEM_CFG 0 0 (u8At b 6)).mcUpd (fun m => { m with scrub := u8At b 5 })

/-- Zero-fill one record of the user area. -/
def zeroRecord (e : Nat × Nat × Nat) (d : Dev) : Dev := forN e.2.1 d (fun i d => keepDevWord (e.2.2 / 4 + i) 0 d)
/-- KEEPLAYOUT: dropped, new and changed records are zero-filled, and the layout is stored. DEDUCED, log entry 33. -/
def applyKeepLayout (recs : List ImgRec) (d : Dev) : Dev :=
  match recsOf recs 0xB with
  | [] => d
  | p :: _ =>
    let new := layoutEntries p.2
    let old := d.keep.layout
    let d := (old.filter (fun e => !new.contains e)).foldl (fun d e => zeroRecord e d) d
    let d := (new.filter (fun e => !old.contains e)).foldl (fun d e => zeroRecord e d) d
    d.kp (fun k => { k with layout := new })

/-- HERD: the identity of the device in its herd. A master's EPOCH_TAI is in force from the load on (R243). DEDUCED, log entry 34. -/
def applyHerd (recs : List ImgRec) (d : Dev) : Dev :=
  let b := bodyOf recs 7
  let d := (d.setFld Reg.HERD_STATUS 9 6 (u8At b 1 + 4 * u8At b 2)).setFld Reg.HERD_STATUS 23 16 (u8At b 0)
  let d := d.wr Reg.HERD_ID (w32 (u32At b 4))
  let e := d.rd64 Reg.EPOCH_LO Reg.EPOCH_HI
  if u8At b 1 = 0 then d else d.hdUpd (fun h => { h with epoch := e })

/-- HEAD: the mode and the flags of an enabled head, and the link rate of its PHY. DEDUCED, log entry 36. -/
def applyHead (recs : List ImgRec) (h : Nat) (d : Dev) : Dev :=
  match headRec recs h with
  | none => d
  | some p =>
    let b := p.2
    if !headFlag b 0 then d
    else
      let src := if headFlag b 4 then u8At b 3 else 0
      let w := u8At b 1 + u8At b 2 / 2 * 2 ^ 4 + src * 2 ^ 8
      (d.setFld (Reg.HEAD_STATUS h) 14 4 w).setFld (Reg.PHY_STATUS h) 3 2 (if headFlag b 2 then 0 else u8At b 4)

/-! ### FLOCK (R44, R273) -/

/-- The good physical cells of a flock. -/
def goodCells (d : Dev) (f : Nat) : List Nat := (List.range 9).filter (fun c => !(d.flock f).mapped.contains c)
/-- The order in which posts take good cells: those whose kind is not off, those of kind off, the spare post (R273). -/
def postOrder (d : Dev) (f : Nat) : List Nat :=
  (List.range 8).filter (fun p => kindOf d f p != 0) ++ (List.range 8).filter (fun p => kindOf d f p == 0) ++ [8]
/-- The cell that post p takes among those left: cell Cp where it is left (R80), else C8, else that of a post of kind off.
DEDUCED, log entry 120. -/
def cellFor (d : Dev) (f : Nat) (left : List Nat) (p : Nat) : Option Nat :=
  if left.contains p then some p else if left.contains 8 then some 8 else left.find? (fun c => kindOf d f c == 0)
/-- Give the posts of a flock their cells. -/
def assignCells (f : Nat) (d : Dev) : Dev :=
  let d := d.setFld (Reg.NOCELL (f / 4)) (8 * (f % 4) + 7) (8 * (f % 4)) 0
  ((postOrder d f).foldl (fun (e : Dev × List Nat) p =>
    match cellFor e.1 f e.2 p with
    | some c => (if p = 8 then gainSpare f c e.1 else setPostCell f p c e.1, e.2.erase c)
    | none => (if p = 8 then loseSpare f e.1 else dropPost f p e.1, e.2)) (d, goodCells d f)).1
/-- FLOCK: the head, the kinds, the probe line and the cells of a flock. -/
def applyFlock (recs : List ImgRec) (f : Nat) (d : Dev) : Dev :=
  let b := flockRec recs f
  let d := d.setFld (Reg.FLOCK_STATUS f) 3 0 (if u8At b 1 = 0xFF then 15 else u8At b 1)
  assignCells f (setKinds f b d)

/-- SLOTMAP (R45). -/
def applySlots (recs : List ImgRec) (h : Nat) (d : Dev) : Dev :=
  match slotRec recs h with
  | some p => setSlots h (slotsOf p.2) d
  | none => setSlots h [] d

/-! ### TANDEM and CONJ (R51, R52) -/

/-- TANDEM, with the sample rate that REGIME gives. -/
def applyTandem (recs : List ImgRec) (d : Dev) : Dev :=
  let m := u16At (bodyOf recs 8) 0
  d.wr Reg.AU_STATUS (w32 (d.fld Reg.MODE 5 5 + (if m = 0 then 0 else 2) + m * 4))

/-- One entry of CONJ. -/
def applyChannel (e : ConjEntry) (d : Dev) : Dev :=
  (d.wr (Reg.CH_CFG e.chan) (w32 (e.event + e.task * 2 ^ 16))).wr (Reg.CH_CTRL e.chan) (w32 (e.flags + e.clause * 2 ^ 4 + e.owner * 2 ^ 8))
/-- CONJ: the channels, and the clauses that are on at load: each channel has the state of the clause that its CLAUSE field names.
DEDUCED, log entry 35. -/
def applyConj (recs : List ImgRec) (d : Dev) : Dev :=
  let b := bodyOf recs 9
  let d := (conjEntries b).foldl (fun d e => applyChannel e d) d
  forN 128 d (fun n d => d.putBit (Reg.CH_CTRL n) 11 ((u16At b 2).testBit (d.fld (Reg.CH_CTRL n) 7 4)))

/-! ### YOKE (R49, R274, R291) -/

/-- The cores of a yoke that the image does not enable are spares (R274). -/
def spareCores (y : Nat) (d : Dev) : Dev :=
  let free (c : Nat) (d : Dev) : Dev := if d.unit 2 c = 0 then setUnit 2 c 1 d else d
  free (d.fld (Reg.YOKE_STATE y) 9 5) (free (d.fld (Reg.YOKE_STATE y) 4 0) d)

/-- YOKE: the privilege and the windows of its page; an enabled yoke has its code copied and stands at ENTRY. DEDUCED, log entry 37. -/
def applyYoke (y : Nat) (s : State) : State :=
  match yokeRec s.dev y with
  | none => s.upd (spareCores y)
  | some b =>
    if u8At b 1 % 2 = 1 then (loadCode y b s).upd (startYoke y b)
    else s.upd (fun d =>
      let ws := (List.range 14).map (fun w => w32 (u32At b (16 + 4 * w)) &&& 0x800FFFFF)
      spareCores y ((setWins y ws d).putBit (Reg.Y_STATUS y) 0 ((u8At b 1).testBit 1)))

/-! ### Variants in force (R77) -/

/-- The variant that the keep store gives each flock: that of a journal left at START is redone. DEDUCED, log entry 29. -/
def wantedVariant (d : Dev) (f : Nat) : Nat :=
  match d.ld.journal with
  | some (g, v) => if g = f then v else d.fld (Reg.PEN_VARIANT f) 15 0
  | none => d.fld (Reg.PEN_VARIANT f) 15 0
/-- Whether the variants in force are those of this image: SERIAL is that of the journal, and each variant is present.
DEDUCED, log entry 29. -/
def variantsHold (d : Dev) : Bool :=
  w32 (serialOf d.ld.recs) == d.ld.serial && (List.range 16).all (fun f =>
    let v := wantedVariant d f
    v == 0xFFFF || (match variantRec d.ld.recs v with | some b => u8At b 2 == f | none => false))
/-- One flock takes its variant; whether a twin cell of it fits RAIL_CAP is not tested here. DESIGN CHOICE, log entry 122. -/
def applyVariant (f : Nat) (d : Dev) : Dev :=
  let v := wantedVariant d f
  let d := if v = 0xFFFF then d
    else
      let h := flockHead d f
      let d := layoutApply f v d
      if h < 8 then setSlots h (replaceSlots f (layoutSlots d.ld.recs f v) (slotsNow d h)) d else d
  keepDevField (Reg.PEN_VARIANT f) (w32 v) d
/-- The re-pen that a journal left at START redoes checks the probe line of its flock (R74 step 5, R76, R77): every cell misses one whose CRC
is not PROBE_CRC. DEDUCED, log entry 29. -/
def journalProbe (d : Dev) : Dev :=
  match d.ld.journal with
  | some (f, _) => probeCells f [] true d
  | none => d
/-- The variants in force, or every flock in its base layout. DEDUCED, log entry 29. -/
def applyVariants (d : Dev) : Dev :=
  let d := if variantsHold d then journalProbe (forN 16 d applyVariant)
    else forN 16 d (fun f d => keepDevField (Reg.PEN_VARIANT f) 0xFFFF d)
  d.ldUpd (fun l => { l with journal := none, serial := w32 (serialOf d.ld.recs) })

/-! ### Applying the image (R65) -/

/-- The records up to CONJ, in the order of R65. MEMPART stays in the records, from which the protection of a region is read. -/
def applyStructure (d : Dev) : Dev :=
  let recs := d.ld.recs
  let d := applyHerd recs (applyKeepLayout recs (applyRegime recs d))
  let d := forN 8 d (applyHead recs)
  let d := forN 16 d (applyFlock recs)
  let d := forN 8 d (applySlots recs)
  applyConj recs (applyTandem recs d)

/-- REGSET entries in file order, written as firmware with Keeper privilege writes them (R56). DEDUCED, log entry 37. -/
def applyRegset (s : State) : State := (regsetOf s.dev).foldl (fun s e => regWrite .loader e.1 4 e.2 s) s

/-- Every record is applied in the order of R65. DESIGN CHOICE, log entry 28. -/
def applyImage (s : State) : State :=
  let s := s.upd applyStructure
  let s := forN 8 s applyYoke
  (applyRegset s).upd applyVariants

/-! ### LOADED (R65 step 7, R283, R284) -/

/-- GLOBAL_GEN becomes 1, and every unit that the load has set up carries it; cells that hold a post have joined. -/
def stampAll (d : Dev) : Dev :=
  let d := d.wr Reg.GLOBAL_GEN 1
  let d := ((d.wr Reg.AU_GEN 1).wr Reg.MULE_GEN 1).wr Reg.DRV_GEN 1
  let d := forN 32 d (fun n d => d.wr (Reg.PCH_GEN n) 1)
  let d := forN 8 d (fun y d => if yokeOn d y then d.wr (Reg.Y_GEN y) 1 else d)
  let d := forN 8 d (fun h d => ((d.wr (Reg.HEAD_GEN h) 1).wr (Reg.LS_GEN h) 1).wr (Reg.COMP_GEN h) 1)
  forN 16 d (fun f d => forN 8 d (fun p d =>
    if postCell d f p = 15 then d else (d.wr (Reg.CELL_GEN f p) 1).setBit (Reg.CELL_STATUS f p) 13))

/-- Every enabled head starts (R213), and its mirrors with it. DEDUCED, log entry 38. -/
def startHeads (d : Dev) : Dev :=
  forN 8 d (fun h d =>
    match headRec d.ld.recs h with
    | some p => if headFlag p.2 0 then beginCold h d else d
    | none => d)

/-- LOADED sets, with what the IMAGE page shows of the image. -/
def setLoaded (d : Dev) : Dev :=
  let d := stampAll d
  let d := ((d.setBit Reg.IMAGE_STATUS 0).setFld Reg.IMAGE_STATUS 3 2 d.ld.slot).putBit Reg.IMAGE_STATUS 4 (unprovisioned d)
  let d := d.wr Reg.IMAGE_SERIAL (w32 (serialOf d.ld.recs))
  let d := (d.ldUpd (fun l => { l with phase := 3 })).pwUpd (fun p => { p with boot := 7 })
  let d := if ringless d then setJoined d else d
  offerAnew (syncSpares (startHeads (patrolStart d)))

/-- An accepted image is applied; the load then waits until the rail has reached the twin floor (R98). -/
def applyOnce (s : State) : State :=
  if s.dev.ld.phase = 2 then (applyImage s).upd (fun d => d.ldUpd (fun l => { l with phase := 4 })) else s

/-- LOAD_DONE: an accepted image is applied, and once the rail has reached the twin floor LOADED sets. The BOOT_WDT count begins (R568).
DESIGN CHOICE, log entry 28. -/
def loadDone (s : State) : State :=
  if (s.dev.ld.phase ≠ 2 && s.dev.ld.phase ≠ 4) || s.dev.pw.kind = 3 then s
  else (applyOnce s).upd (fun d =>
    if railLevel d < railFloor d then d
    else (setLoaded d).pwUpd (fun p => { p with wdt := some d.clk }))

/-! ### Return from deep standby (R562) -/

/-- A yoke resumes from its deep checkpoint after the instruction at which it stopped; its logs are empty. DEDUCED, log entry 39. -/
def resumeDeep (e : Nat × OxCtx × List Word) (d : Dev) : Dev :=
  let y := e.1
  let d := setWins y e.2.2 d
  let d := d.updYk y (fun k => { k with ctx := e.2.1, ckpt := some e.2.1, ckptWin := e.2.2 })
  syncYoke y (setRun y (if e.2.1.waiting then 7 else liveState d y) d)

/-- A yoke that holds a deep checkpoint keeps its tightly coupled RAM. DEDUCED, log entry 39. -/
def keepTcm (old s : State) : State :=
  let held (k : Nat) : Bool := old.dev.pw.deep.any (fun e => e.1 == k / 2 ^ 17)
  let tcm := (old.mem.tcm.filter (fun e => held e.1)).foldl (fun m e => Store.set (fun _ => 0) m e.1 e.2)
    (Store.keep (fun k => !held k) s.mem.tcm)
  { s with mem := { s.mem with tcm := tcm } }

/-- DEEP_EXIT_DONE: the image is applied again, and once the rail has reached the twin floor each yoke with a valid deep checkpoint
resumes. DEDUCED, log entry 39. -/
def deepExit (s : State) : State :=
  if (s.dev.ld.phase ≠ 2 && s.dev.ld.phase ≠ 4) || s.dev.pw.kind ≠ 3 then s
  else
    (if s.dev.ld.phase = 2 then keepTcm s (applyOnce s) else s).upd (fun d =>
      if railLevel d < railFloor d then d
      else
        let d := setLoaded d
        let d := (d.pw.deep.filter (fun e => yokeOn d e.1)).foldl (fun d e => resumeDeep e d) d
        offerAnew ((setPwr 0 (d.pwUpd (fun p => { p with deep := [], kind := 0 }))).setBit Reg.PWR_FLAGS 2))

/-! ### The steps -/

/-- LOAD_DONE (R65). -/
def execLoadDone (s : State) : Host.Outcome State Fault Refusal := .next (loadDone s)
/-- DEEP_EXIT_DONE (R562). -/
def execDeepExitDone (s : State) : Host.Outcome State Fault Refusal := .next (deepExit s)

end Sys2Proof.Machine
end

