-- ==== Sys2Proof/Machine/Flags.lean ====
section
/-! DEFINITION. Results and flags of the Ox arithmetic (R292, R305, R306, R309 to R311). Each operation gives the programmer's model with
the flags its row names changed, beside the result. -/
namespace Sys2Proof.Machine

/-- Z and N of a result: N is bit 31 (R306). -/
def zn (r : Word) (c : OxCtx) : OxCtx := (c.setFlag 0 (r == 0)).setFlag 1 (bitOf r 31)

/-- a + b + cin with C and V (R306). -/
def addWith (a b : Word) (cin : Bool) (c : OxCtx) : Word × OxCtx :=
  let n := a.toNat + b.toNat + cin.toNat
  let r := w32 n
  (r, ((zn r c).setFlag 2 (decide (2 ^ 32 ≤ n))).setFlag 3 (bitOf a 31 == bitOf b 31 && bitOf r 31 != bitOf a 31))
/-- a - b - (1 - cin); C is 1 when there is no borrow (R292, R306). -/
def subWith (a b : Word) (cin : Bool) (c : OxCtx) : Word × OxCtx := addWith a (~~~ b) cin c

/-- A result with Z and N alone. -/
def logic (r : Word) (c : OxCtx) : Word × OxCtx := (r, zn r c)

/-- A shift of kind k (0 left, 1 logical right, 2 arithmetic right, 3 rotate right) by n, 0 to 31: C takes the last bit shifted out, and
keeps its value for an amount of 0 (R306). -/
def shiftBy (k n : Nat) (a : Word) (c : OxCtx) : Word × OxCtx :=
  let r : Word := match k with
    | 0 => a <<< n
    | 1 => a >>> n
    | 2 => a.sshiftRight n
    | _ => a.rotateRight n
  let c := zn r c
  (r, if n = 0 then c else c.setFlag 2 (bitOf a (if k = 0 then 32 - n else n - 1)))

/-- A quotient or remainder, with the flag V of its special cases. -/
def divided (r : Word) (v : Bool) (c : OxCtx) : Word × OxCtx := (r, (zn r c).setFlag 3 v)
/-- The one signed quotient that overflows. -/
def divOverflow (a b : Word) : Bool := a == 0x80000000 && b == 0xFFFFFFFF
/-- DIVU. -/
def divU (a b : Word) (c : OxCtx) : Word × OxCtx := if b = 0 then divided 0xFFFFFFFF true c else divided (a / b) false c
/-- DIVS, toward 0. -/
def divS (a b : Word) (c : OxCtx) : Word × OxCtx :=
  if b = 0 then divided 0xFFFFFFFF true c
  else if divOverflow a b then divided 0x80000000 true c
  else divided (iw (a.toInt.tdiv b.toInt)) false c
/-- REMU. -/
def remU (a b : Word) (c : OxCtx) : Word × OxCtx := if b = 0 then divided a true c else divided (a % b) false c
/-- REMS, with the sign of a. -/
def remS (a b : Word) (c : OxCtx) : Word × OxCtx :=
  if b = 0 then divided a true c
  else if divOverflow a b then divided 0 true c
  else divided (iw (a.toInt.tmod b.toInt)) false c

/-- Count of leading zeros, 0 to 32; Z tells a result of 0. -/
def leadingZeros (a : Word) : Nat := if a = 0 then 32 else 31 - a.toNat.log2

/-- A condition of R305. -/
def condHolds (cond : Nat) (c : OxCtx) : Bool :=
  let z := c.flag 0
  let n := c.flag 1
  let cy := c.flag 2
  let v := c.flag 3
  match cond with
  | 0 => true
  | 1 => z
  | 2 => !z
  | 3 => cy
  | 4 => !cy
  | 5 => n
  | 6 => !n
  | 7 => v
  | 8 => !v
  | 9 => cy && !z
  | 10 => !cy || z
  | 11 => n == v
  | 12 => n != v
  | 13 => !z && n == v
  | 14 => z || n != v
  | _ => c.flag 4

/-! ### Decimal (R309 to R311) -/

/-- N of a decimal result: digit 7 is 5 or more. -/
def decN (r : Word) : Bool := decide (5 ≤ bcdDigit r.toNat 7)
/-- Z, N and DC of a decimal result, and DV, which is sticky. -/
def decFlags (r : Word) (dc bad : Bool) (c : OxCtx) : OxCtx :=
  let c := ((c.setFlag 0 (r == 0)).setFlag 1 (decN r)).setFlag 4 dc
  if bad then c.setFlag 5 true else c
/-- DC as the carry in of an instruction with DCI. -/
def decIn (dci : Bool) (c : OxCtx) : Nat := if dci && c.flag 4 then 1 else 0
/-- Whether an operand holds a digit above 9. -/
def decBad (a : Word) : Bool := !bcdValid 8 a.toNat

/-- DADD and DADDC. -/
def decAdd (dci : Bool) (a b : Word) (c : OxCtx) : Word × OxCtx :=
  let (r, k) := bcdAdd 8 a.toNat b.toNat (decIn dci c)
  (w32 r, decFlags (w32 r) (k == 1) (decBad a || decBad b) c)
/-- DSUB and DSUBC. -/
def decSub (dci : Bool) (a b : Word) (c : OxCtx) : Word × OxCtx :=
  let (r, k) := bcdSub 8 a.toNat b.toNat (decIn dci c)
  (w32 r, decFlags (w32 r) (k == 1) (decBad a || decBad b) c)
/-- DCMP and DCMPC, which chains Z. -/
def decCmp (dci : Bool) (a b : Word) (c : OxCtx) : OxCtx :=
  let z := c.flag 0
  let (r, c) := decSub dci a b c
  if dci then c.setFlag 0 (z && r == 0) else c

/-- The digits of DADJ from digit i on: cin holds the carries into each bit, corr the carry of the correction. -/
def adjDigits (sum cin : Word) (cy : Bool) : Nat → Nat → Nat → Nat × Nat
  | 0, _, corr => (0, corr)
  | n + 1, i, corr =>
    let bc := if i < 7 then bitOf cin (4 * i + 4) else cy
    let v := bcdDigit sum.toNat i + corr
    let v := if bc || 9 < v then v + 6 else v
    let (r, k) := adjDigits sum cin cy n (i + 1) (v / 16)
    (v % 16 * 16 ^ i + r, k)
/-- DADJ. -/
def decAdj (a b : Word) (c : OxCtx) : Word × OxCtx :=
  let cy := c.flag 2
  let (r, k) := adjDigits a (a ^^^ b) cy 8 0 0
  (w32 r, decFlags (w32 r) (cy || k != 0) false c)

/-- DSHL and DSHR by n digits, 0 to 15: DC tells whether a digit other than 0 was shifted out. -/
def decShift (left : Bool) (a : Word) (n : Nat) (c : OxCtx) : Word × OxCtx :=
  let r : Word := if left then a <<< (4 * n) else a >>> (4 * n)
  let back : Word := if left then r >>> (4 * n) else r <<< (4 * n)
  (r, decFlags r (back != a) (decBad a) c)

/-- B2D. -/
def binToDec (a : Word) (c : OxCtx) : Word × OxCtx :=
  let r := w32 (natToBcd 8 (a.toNat % 100000000))
  (r, decFlags r (decide (100000000 ≤ a.toNat)) false c)
/-- D2B: N is bit 31. -/
def decToBin (a : Word) (c : OxCtx) : Word × OxCtx :=
  let r := w32 (bcdToNat 8 a.toNat)
  (r, (decFlags r false (decBad a) c).setFlag 1 (bitOf r 31))

end Sys2Proof.Machine
end

