-- ==== Sys2Proof/Machine/Operands.lean ====
section
/-! DEFINITION. What every Ox instruction shares: its encoding (R304), the fetch (R295), addresses (R296), loads and stores with the logs
of R275 and the replay of R276 (R297, R298), atomics (R308), the return stack (R312) and coprocessor requests (R313 to R316). -/
namespace Sys2Proof.Machine

/-! ### Encodings (R304, R305) -/

/-- R form. DESIGN CHOICE, log entry 71. -/
def encR (major rd ra rb func : Nat) : Word := w32 (major * 2 ^ 26 + rd * 2 ^ 21 + ra * 2 ^ 16 + rb * 2 ^ 11 + func)
/-- I form. DESIGN CHOICE, log entry 71. -/
def encI (major rd ra : Nat) (imm : BitVec 16) : Word := w32 (major * 2 ^ 26 + rd * 2 ^ 21 + ra * 2 ^ 16 + imm.toNat)
/-- B form. DESIGN CHOICE, log entry 71. -/
def encB (major cond : Nat) (off : BitVec 22) : Word := w32 (major * 2 ^ 26 + cond * 2 ^ 22 + off.toNat)
/-- C form. DESIGN CHOICE, log entry 71. -/
def encC (c rd ra rb : Nat) (wide : Bool) (op : Nat) : Word :=
  w32 ((0x38 + c) * 2 ^ 26 + rd * 2 ^ 21 + ra * 2 ^ 16 + rb * 2 ^ 11 + wide.toNat * 2 ^ 10 + op)

/-- Whether a word names an instruction (R305 to R309, R314): its major, and its func or the OP of an on-die coprocessor. -/
def oxDefined (w : Word) : Bool :=
  let m := fld w 31 26
  let f := fld w 10 0
  let op := fld w 9 0
  match m with
  | 0x00 => f ≤ 0x17
  | 0x01 => f ≤ 0x07 || f == 0x20 || f == 0x21 || f == 0x22
  | 0x02 => f ≤ 0x09
  | 0x1C => f ≤ 0x02
  | 0x38 => op ≤ 1
  | 0x39 => op ≤ 2
  | 0x3A => op < 0x18
  | 0x3B => op ≤ 2
  | _ => (3 ≤ m && m ≤ 0x0D) || (0x10 ≤ m && m ≤ 0x14) || (0x18 ≤ m && m ≤ 0x1A) || m == 0x20 || m == 0x21 || 0x3C ≤ m

/-! ### Fetch (R295) -/

/-- The programmer's model of a yoke. -/
def ctxOf (s : State) (y : Nat) : OxCtx := (s.dev.yk y).ctx
/-- The word that a yoke fetches at its PC; none outside tightly coupled RAM or at a PC that is no multiple of 4.
DESIGN CHOICE, log entry 71. -/
def oxFetch (s : State) (y : Nat) : Option Word :=
  let pc := (ctxOf s y).pc.toNat
  if pc < 0x20000 && pc % 4 = 0 then some (tcmWord s y pc) else none

/-- Whether a replay is at an instruction count at which its log takes an interrupt (R276). DESIGN CHOICE, log entry 77. -/
def irqReplay (k : YokeSt) : Bool :=
  match k.replay with
  | some (_, i) => match k.input[i]? with
    | some (.irq n) => n ≤ k.retired
    | _ => false
  | none => false

/-- Whether a yoke that runs live takes an interrupt before its next instruction (R301). -/
def irqDue (d : Dev) (y : Nat) : Bool :=
  let k := d.yk y
  k.ctx.ie && !k.ctx.exl && k.replay.isNone && reqLine d y

/-- Whether a yoke is at the boundary before an instruction: it runs, waits for no answer, and has no interrupt to take first.
DESIGN CHOICE, log entry 71; DESIGN CHOICE, log entry 77. -/
def oxReady (d : Dev) (y : Nat) : Bool :=
  let k := d.yk y
  yokeRuns d y && k.wait.isNone && k.ld.isNone && k.tdWait.isNone && !irqReplay k && !irqDue d y

/-- Yoke y executes the instruction word w, which is what it fetches at its PC; a fetch that fails traps FETCH. A word that is not the one
at the PC is not what the yoke executes: nothing happens. DESIGN CHOICE, log entry 71. -/
def oxRun (y : Nat) (w : Word) (f : State → State) (s : State) : State :=
  if !oxReady s.dev y then s
  else match oxFetch s y with
    | none => s.upd (yokeTrap y 3 (ctxOf s y).pc)
    | some x => if x = w then f s else s

/-- ILLEGAL, with the instruction word (R299). -/
def illegal (y : Nat) (w : Word) (s : State) : State := s.upd (yokeTrap y 1 w)

/-- An instruction that changes only the programmer's model: a field that it does not use and that is not 0 traps ILLEGAL (R304). -/
def oxPure (y : Nat) (w : Word) (legal : Bool) (g : OxCtx → OxCtx) (s : State) : State :=
  oxRun y w (fun s =>
    if legal then s.upd (fun d => yokeRetire y { g (d.yk y).ctx with pc := (d.yk y).ctx.pc + 4 } d) else illegal y w s) s

/-- An instruction that writes a result to rd with its flags. -/
def oxResult (y : Nat) (w : Word) (legal : Bool) (rd : Nat) (g : OxCtx → Word × OxCtx) (s : State) : State :=
  oxPure y w legal (fun c => let (r, c) := g c; c.setR rd r) s

/-! ### Addresses (R34, R296) -/

/-- The system address of a yoke address outside tightly coupled RAM: a mapped window, or register space; none otherwise. -/
def yokeSys (d : Dev) (y : Nat) (a : Word) : Option Nat :=
  let a := a.toNat
  if 0xF0000000 ≤ a then some (0x2000000000 + (a - 0xF0000000))
  else if 0x10000000 ≤ a then
    let w := d.rd (Reg.Y_WIN y (a / 2 ^ 28 - 1))
    if bitOf w 31 then some (fld w 19 0 * 2 ^ 28 + a % 2 ^ 28) else none
  else none

/-! ### The logs and replay (R275, R276) -/

/-- The next entry of the input log that a replay takes. DEDUCED, log entry 72. -/
def nextInput (k : YokeSt) : Option YIn := match k.replay with | some (_, i) => k.input[i]? | none => none
/-- A replay has taken an entry of the input log. -/
def tookInput (y : Nat) (d : Dev) : Dev := d.updYk y (fun k => { k with replay := k.replay.map (fun r => (r.1, r.2 + 1)) })
/-- The next entry of the echo log that a replay meets. -/
def nextEcho (k : YokeSt) : Option Echo := match k.replay with | some (e, _) => k.echo[e]? | none => none
/-- A replay has suppressed an entry of the echo log. -/
def tookEcho (y : Nat) (d : Dev) : Dev := d.updYk y (fun k => { k with replay := k.replay.map (fun r => (r.1 + 1, r.2)) })
/-- Log an effect that leaves the yoke. A replay logs one only past the end of its echo log.
DEDUCED, log entry 72; DEDUCED, log entry 73. -/
def logEcho (y : Nat) (e : Echo) (d : Dev) : Dev :=
  d.updYk y (fun k => { k with echo := k.echo ++ [e], replay := k.replay.map (fun r => (r.1 + 1, r.2)) })
/-- Whether an effect equals a logged one in kind, address, size and data. DEDUCED, log entry 72. -/
def Echo.same (a b : Echo) : Bool := a.kind == b.kind && a.addr == b.addr && a.size == b.size && a.data == b.data

/-! ### Tightly coupled RAM -/

/-- A write of tightly coupled RAM, with the old word in the undo journal (R275). -/
def tcmStore (y a : Nat) (b : List Byte) (s : State) : State :=
  let o := a / 4 * 4
  let old := tcmWord s y o
  (tcmPut y a b s).upd (fun d => d.updYk y (fun k => { k with undo := (o, old) :: k.undo }))

/-! ### Loads (R297, R298, R305) -/

/-- A load that goes out now: to the peer, where the yoke waits for the answer while 32 reads are outstanding (R513), or to the system
bus. -/
def loadLive (y rd size : Nat) (signed : Bool) (addr : Word) (s : State) : State :=
  let fin (r : Resp) (s : State) : State := s.upd (fun d => finishLoad y rd size signed addr r (logInput y (.load r) d))
  match yokeSys s.dev y addr with
  | none => fin .accessError s
  | some a =>
    if sysRegion a size = .peer then
      if peerReadFull s.dev then s
      else match peerRead (.yoke y) (a - 0x3000000000) size s.dev with
        | none => fin .accessError s
        | some (t, d) => { s with dev := d.updYk y (fun k => { k with ld := some { tag := t, addr := addr, size := size, signed := signed, reg := rd } }) }
    else let s := (sysRead (.yoke y) 1 a size s).2; fin s.dev.resp s

/-- A load of `size` bytes. A replay takes its logged outcome; a log that holds another kind of value there halts the yoke.
DEDUCED, log entry 72. -/
def oxLoad (y rd size : Nat) (signed : Bool) (addr : Word) (s : State) : State :=
  if addr.toNat % size ≠ 0 then s.upd (yokeTrap y 4 addr)
  else if addr.toNat < 0x20000 then
    s.upd (finishLoad y rd size signed addr (.ok (w32 (leNat (tcmRead s y addr.toNat size)))))
  else match nextInput (s.dev.yk y) with
    | some (.load r) => s.upd (fun d => finishLoad y rd size signed addr r (tookInput y d))
    | some _ => s.upd (haltYoke y 5)
    | none => loadLive y rd size signed addr s

/-! ### Stores (R297, R298) -/

/-- A store ends: it retires, or it traps ACCESS. DEDUCED, log entry 74. -/
def finishStore (y : Nat) (addr : Word) (ok : Bool) (d : Dev) : Dev :=
  if ok then yokeRetire y { (d.yk y).ctx with pc := (d.yk y).ctx.pc + 4 } d else yokeTrap y 5 addr d

/-- A store goes out: whether it was performed. DEDUCED, log entry 74. -/
def storeOut (y : Nat) (addr : Word) (b : List Byte) (s : State) : Bool × State :=
  match yokeSys s.dev y addr with
  | none => (false, s)
  | some a =>
    if sysRegion a b.length = .peer then
      match peerWrite (.yoke y) (a - 0x3000000000) b s.dev with
      | some d => (true, { s with dev := d })
      | none => (false, s)
    else let s := sysWrite (.yoke y) a b s; (decide (s.dev.resp ≠ .accessError), s)

/-- A suppressed store to the yoke's own window registers takes effect again, since the checkpoint held their old values (R275, R296).
DEDUCED, log entry 70. -/
def ownWindow (y : Nat) (addr v : Word) (d : Dev) : Dev :=
  match yokeSys d y addr with
  | some a =>
    let o := a - 0x2000000000
    let base := Reg.Y_WIN y 0
    if 0x2000000000 ≤ a && base ≤ o && o < base + 56 then d.wr o (v &&& 0x800FFFFF) else d
  | none => d

/-- A store of `size` bytes of v. DEDUCED, log entry 74. -/
def oxStore (y size : Nat) (addr v : Word) (s : State) : State :=
  let b := (wordBytes v).take size
  if addr.toNat % size ≠ 0 then s.upd (yokeTrap y 4 addr)
  else if addr.toNat < 0x20000 then (tcmStore y addr.toNat b s).upd (finishStore y addr true)
  else
    let e : Echo := { kind := 0, addr := addr.toNat, size := size, data := [w32 (leNat b)] }
    match nextEcho (s.dev.yk y) with
    | some x =>
      if x.same e then
        s.upd (fun d => let d := tookEcho y d; finishStore y addr (!x.failed) (if x.failed then d else ownWindow y addr v d))
      else s.upd (haltYoke y 5)
    | none =>
      let (ok, s) := storeOut y addr b s
      s.upd (fun d => finishStore y addr ok (logEcho y { e with failed := !ok } d))

/-! ### Atomics (R308) -/

/-- What an atomic writes for the old word: none where it writes nothing. -/
abbrev AtomOp := Word → Option Word

/-- An atomic ends (R308): rd takes the old word, and Z of a CAS tells whether it wrote; or it traps. -/
def finishAtom (y rd : Nat) (cas : Bool) (op : AtomOp) (addr : Word) (r : Resp) (d : Dev) : Dev :=
  match r with
  | .ok old =>
    let c := (d.yk y).ctx
    let c := if cas then c.setFlag 0 (op old).isSome else c
    yokeRetire y { c.setR rd old with pc := c.pc + 4 } d
  | .poison => yokeTrap y 6 addr d
  | _ => yokeTrap y 5 addr d

/-- An atomic on memory: the old word and the state after the write. DEDUCED, log entry 75. -/
def atomMem (y a : Nat) (op : AtomOp) (s : State) : Resp × State :=
  if !memUp s.dev a 4 then (.accessError, memRefuse a 4 s)
  else if secureRefuses s.dev (s.dev.keeper (.yoke y)) a 4 then (.accessError, s)
  else
    let (b, p, s) := memRead 1 a 4 s
    let old := w32 (leNat b)
    if p then (.poison, s)
    else (.ok old, match op old with | some v => memWrite a (wordBytes v) s | none => s)

/-- An atomic that leaves the yoke: one to a target outside memory meets an access error (R299, R308). -/
def atomOut (y : Nat) (addr : Word) (op : AtomOp) (s : State) : Resp × State :=
  match yokeSys s.dev y addr with
  | some a => if sysRegion a 4 = .memory then atomMem y a op s else (.accessError, s)
  | none => (.accessError, s)

/-- An atomic on the word at addr. `data` is what the echo log compares beside the address. DEDUCED, log entry 72; DEDUCED, log entry 75. -/
def oxAtom (y rd : Nat) (cas : Bool) (op : AtomOp) (data : List Word) (addr : Word) (s : State) : State :=
  if addr.toNat % 4 ≠ 0 then s.upd (yokeTrap y 4 addr)
  else if addr.toNat < 0x20000 then
    let old := tcmWord s y addr.toNat
    (match op old with | some v => tcmStore y addr.toNat (wordBytes v) s | none => s).upd (finishAtom y rd cas op addr (.ok old))
  else
    let e : Echo := { kind := 1, addr := addr.toNat, size := 4, data := data }
    match nextEcho (s.dev.yk y), nextInput (s.dev.yk y) with
    | some x, some (.load r) =>
      if x.same e then s.upd (fun d => finishAtom y rd cas op addr r (tookInput y (tookEcho y d))) else s.upd (haltYoke y 5)
    | none, none =>
      let (r, s) := atomOut y addr op s
      s.upd (fun d => finishAtom y rd cas op addr r (logInput y (.load r) (logEcho y e d)))
    | _, _ => s.upd (haltYoke y 5)

/-! ### The return stack (R312) -/

/-- Push: none where it traps RS_OVERFLOW. -/
def rsPush (v : Word) (c : OxCtx) : Option OxCtx :=
  if c.depth ≥ 16 && c.trapMode then none
  else some { c with rs := Store.set (fun _ => 0) c.rs c.ptr v, ptr := (c.ptr + 1) % 16, depth := min 16 (c.depth + 1) }
/-- Pop: none where it traps RS_UNDERFLOW. -/
def rsPop (c : OxCtx) : Option (Word × OxCtx) :=
  if c.depth = 0 && c.trapMode then none
  else
    let p := (c.ptr + 15) % 16
    some (Store.get (fun _ => 0) c.rs p, { c with ptr := p, depth := c.depth - 1, rsu := c.rsu || c.depth == 0 })

/-- An instruction that pushes or jumps: `g` gives the model with its next PC, none where it traps with a cause. -/
def oxJump (y : Nat) (w : Word) (legal : Bool) (cause : Nat) (g : OxCtx → Option OxCtx) (s : State) : State :=
  oxRun y w (fun s =>
    if !legal then illegal y w s
    else match g (ctxOf s y) with
      | some c => s.upd (yokeRetire y c)
      | none => s.upd (yokeTrap y cause 0)) s

/-! ### Coprocessor requests (R313 to R316) -/

/-- Whether a coprocessor is absent (R314). DEDUCED, log entry 78. -/
def copAbsent (d : Dev) (c : Nat) : Bool :=
  match c with
  | 0 => (muleLanes d).isEmpty
  | 1 => (lentRows d).isEmpty
  | 2 | 3 => false
  | _ => !((drvState d == 2 || drvState d == 3) && d.bit Reg.DRV_STATUS (5 + (c - 4)))

/-- Whether a yoke may use a coprocessor (R315). -/
def copAllowed (d : Dev) (y c : Nat) : Bool := d.keeper (.yoke y) || d.bit (Reg.Y_COP_ALLOW y) c

/-- The trap that a coprocessor instruction meets first, if any (R316): a wrong field of its own, PRIV, COP_ABSENT, an OP or WIDE that
the coprocessor does not define. DEDUCED, log entry 76. -/
def copTrap (d : Dev) (y c : Nat) (w : Word) (fieldsBad undefinedOp : Bool) : Option (Nat × Word) :=
  if fieldsBad then some (1, w)
  else if !copAllowed d y c then some (2, w32 c)
  else if copAbsent d c then some (7, w32 c)
  else if undefinedOp then some (1, w)
  else none

/-- What a coprocessor gives at once: words 0 and 1, and FAIL. -/
abbrev CopNow := Word × Word × Bool

/-- The operands X, Y and Z of a coprocessor instruction (R313). -/
def copArgs (g : OxCtx) (ra rb : Nat) : List Word := [g.r ra, g.r rb, if rb = 31 then 0 else g.r (rb + 1)]
/-- The echo log entry of a coprocessor request (R275, R276). -/
def copEcho (s : State) (y c op ra rb : Nat) (wide : Bool) : Echo :=
  { kind := 2, addr := c * 2048 + wide.toNat * 1024 + op, size := 0, data := copArgs (ctxOf s y) ra rb }
/-- A timeout that came during a replay traps for the first time when the replay reaches it, and counts then (R300). -/
def tookTimeout (y c : Nat) (taken : Bool) (d : Dev) : Dev :=
  let d := d.updYk y (fun k => { k with input := match k.replay with | some (_, i) => k.input.set i (.copTimeout true) | none => k.input })
  yokeTrapAs (!taken) y 8 (w32 c) (tookInput y d)

/-- A request of a coprocessor instruction (R313). `go` performs it with X, Y and Z, and gives the answer or none where the yoke waits;
`again` waits for the answer of a request that a replay suppresses before its answer has come, by its TAG (R318).
DEDUCED, log entry 72; DEDUCED, log entry 76. -/
def copRequest (y c op rd ra rb : Nat) (wide : Bool) (go : Word → Word → Word → State → Option CopNow × State)
    (again : Option Nat → Dev → Dev) (s : State) : State :=
  let e := copEcho s y c op ra rb wide
  let arg (i : Nat) : Word := e.data.getD i 0
  match nextEcho (s.dev.yk y) with
  | some k =>
    if k.same e then
      let s := s.upd (tookEcho y)
      match nextInput (s.dev.yk y) with
      | some (.cop w0 w1 f) => s.upd (fun d => finishCop y rd wide w0 w1 f (tookInput y d))
      | some (.copTimeout taken) => s.upd (tookTimeout y c taken)
      | some _ => s.upd (haltYoke y 5)
      | none => s.upd (fun d => again k.tag (replayEnd y d))
    else s.upd (haltYoke y 5)
  | none =>
    match go (arg 0) (arg 1) (arg 2) (s.upd (logEcho y e)) with
    | (some (w0, w1, f), s) => s.upd (fun d => finishCop y rd wide w0 w1 f (logInput y (.cop w0 w1 f) d))
    | (none, s) => s

/-- A coprocessor instruction with OP op. A replay takes the logged outcome of a request that it has logged, whatever PRIV and COP_ABSENT
would find now (R276, R318). DEDUCED, log entry 76. -/
def oxCop (y c op rd ra rb : Nat) (wide fieldsBad undefinedOp : Bool) (go : Word → Word → Word → State → Option CopNow × State)
    (again : Option Nat → Dev → Dev) (s : State) : State :=
  let w := encC c rd ra rb wide op
  oxRun y w (fun s =>
    match copTrap s.dev y c w (fieldsBad || (wide && rd == 31)) undefinedOp with
    | some (cause, info) =>
      let logged := cause != 1 && (match nextEcho (s.dev.yk y) with | some k => k.same (copEcho s y c op ra rb wide) | none => false)
      if logged then copRequest y c op rd ra rb wide go again s else s.upd (yokeTrap y cause info)
    | none => copRequest y c op rd ra rb wide go again s) s

end Sys2Proof.Machine
end

