-- ==== Sys2Proof/Machine/OxAlu.lean ====
section
/-! DEFINITION. The Ox arithmetic (R305, R306): ALU funcs and the immediate forms. -/
namespace Sys2Proof.Machine

/-- An ALU instruction that writes rd. -/
def aluOp (y f : Nat) (rd ra rb : Nat) (legal : Bool) (g : Word → Word → OxCtx → Word × OxCtx) (s : State) : State :=
  oxResult y (encR 0x00 rd ra rb f) legal rd (fun c => g (c.r ra) (c.r rb) c) s
/-- An ALU instruction that writes no register: its rd field is 0. -/
def aluFlags (y f : Nat) (rd ra rb : Nat) (g : Word → Word → OxCtx → Word × OxCtx) (s : State) : State :=
  oxPure y (encR 0x00 rd ra rb f) (rd == 0) (fun c => (g (c.r ra) (c.r rb) c).2) s
/-- An immediate instruction that writes rd. -/
def immOp (y major : Nat) (rd ra : Nat) (imm : BitVec 16) (legal : Bool) (g : Word → OxCtx → Word × OxCtx) (s : State) : State :=
  oxResult y (encI major rd ra imm) legal rd (fun c => g (c.r ra) c) s
/-- imm16, sign-extended. -/
def immS (imm : BitVec 16) : Word := imm.signExtend 32
/-- imm16, zero-extended. -/
def immZ (imm : BitVec 16) : Word := imm.zeroExtend 32

/-! ### The steps -/

/-- ADD: rd = ra + rb. -/
def execAdd (y : Fin 8) (rd ra rb : Fin 32) (s : State) : Host.Outcome State Fault Refusal :=
  .next (aluOp y 0x00 rd ra rb true (fun a b c => addWith a b false c) s)
/-- ADC: rd = ra + rb + C. -/
def execAdc (y : Fin 8) (rd ra rb : Fin 32) (s : State) : Host.Outcome State Fault Refusal :=
  .next (aluOp y 0x01 rd ra rb true (fun a b c => addWith a b (c.flag 2) c) s)
/-- SUB: rd = ra - rb. -/
def execSub (y : Fin 8) (rd ra rb : Fin 32) (s : State) : Host.Outcome State Fault Refusal :=
  .next (aluOp y 0x02 rd ra rb true (fun a b c => subWith a b true c) s)
/-- SBC: rd = ra - rb - (1 - C). -/
def execSbc (y : Fin 8) (rd ra rb : Fin 32) (s : State) : Host.Outcome State Fault Refusal :=
  .next (aluOp y 0x03 rd ra rb true (fun a b c => subWith a b (c.flag 2) c) s)
/-- AND: rd = ra AND rb. -/
def execAnd (y : Fin 8) (rd ra rb : Fin 32) (s : State) : Host.Outcome State Fault Refusal :=
  .next (aluOp y 0x04 rd ra rb true (fun a b c => logic (a &&& b) c) s)
/-- OR: rd = ra OR rb. -/
def execOr (y : Fin 8) (rd ra rb : Fin 32) (s : State) : Host.Outcome State Fault Refusal :=
  .next (aluOp y 0x05 rd ra rb true (fun a b c => logic (a ||| b) c) s)
/-- XOR: rd = ra XOR rb. -/
def execXor (y : Fin 8) (rd ra rb : Fin 32) (s : State) : Host.Outcome State Fault Refusal :=
  .next (aluOp y 0x06 rd ra rb true (fun a b c => logic (a ^^^ b) c) s)
/-- ANDN: rd = ra AND NOT rb. -/
def execAndn (y : Fin 8) (rd ra rb : Fin 32) (s : State) : Host.Outcome State Fault Refusal :=
  .next (aluOp y 0x07 rd ra rb true (fun a b c => logic (a &&& ~~~b) c) s)
/-- SHL: shift left by rb[4:0]. -/
def execShl (y : Fin 8) (rd ra rb : Fin 32) (s : State) : Host.Outcome State Fault Refusal :=
  .next (aluOp y 0x08 rd ra rb true (fun a b c => shiftBy 0 (fld b 4 0) a c) s)
/-- SHR: logical right shift by rb[4:0]. -/
def execShr (y : Fin 8) (rd ra rb : Fin 32) (s : State) : Host.Outcome State Fault Refusal :=
  .next (aluOp y 0x09 rd ra rb true (fun a b c => shiftBy 1 (fld b 4 0) a c) s)
/-- SAR: arithmetic right shift by rb[4:0]. -/
def execSar (y : Fin 8) (rd ra rb : Fin 32) (s : State) : Host.Outcome State Fault Refusal :=
  .next (aluOp y 0x0A rd ra rb true (fun a b c => shiftBy 2 (fld b 4 0) a c) s)
/-- ROR: rotate right by rb[4:0]. -/
def execRor (y : Fin 8) (rd ra rb : Fin 32) (s : State) : Host.Outcome State Fault Refusal :=
  .next (aluOp y 0x0B rd ra rb true (fun a b c => shiftBy 3 (fld b 4 0) a c) s)
/-- MUL: low half of the product. -/
def execMul (y : Fin 8) (rd ra rb : Fin 32) (s : State) : Host.Outcome State Fault Refusal :=
  .next (aluOp y 0x0C rd ra rb true (fun a b c => logic (a * b) c) s)
/-- MULHU: high half of the unsigned product. -/
def execMulhu (y : Fin 8) (rd ra rb : Fin 32) (s : State) : Host.Outcome State Fault Refusal :=
  .next (aluOp y 0x0D rd ra rb true (fun a b c => logic (w32 (a.toNat * b.toNat / 2 ^ 32)) c) s)
/-- MULHS: high half of the signed product. -/
def execMulhs (y : Fin 8) (rd ra rb : Fin 32) (s : State) : Host.Outcome State Fault Refusal :=
  .next (aluOp y 0x0E rd ra rb true (fun a b c => logic (iw (a.toInt * b.toInt / (2 ^ 32 : Nat))) c) s)
/-- DIVU: unsigned quotient. -/
def execDivu (y : Fin 8) (rd ra rb : Fin 32) (s : State) : Host.Outcome State Fault Refusal :=
  .next (aluOp y 0x0F rd ra rb true (divU) s)
/-- DIVS: signed quotient. -/
def execDivs (y : Fin 8) (rd ra rb : Fin 32) (s : State) : Host.Outcome State Fault Refusal :=
  .next (aluOp y 0x10 rd ra rb true (divS) s)
/-- REMU: unsigned remainder. -/
def execRemu (y : Fin 8) (rd ra rb : Fin 32) (s : State) : Host.Outcome State Fault Refusal :=
  .next (aluOp y 0x11 rd ra rb true (remU) s)
/-- REMS: signed remainder. -/
def execRems (y : Fin 8) (rd ra rb : Fin 32) (s : State) : Host.Outcome State Fault Refusal :=
  .next (aluOp y 0x12 rd ra rb true (remS) s)
/-- CMP: flags of SUB. -/
def execCmp (y : Fin 8) (rd ra rb : Fin 32) (s : State) : Host.Outcome State Fault Refusal :=
  .next (aluFlags y 0x13 rd ra rb (fun a b c => subWith a b true c) s)
/-- TST: flags of AND. -/
def execTst (y : Fin 8) (rd ra rb : Fin 32) (s : State) : Host.Outcome State Fault Refusal :=
  .next (aluFlags y 0x14 rd ra rb (fun a b c => logic (a &&& b) c) s)
/-- SEXB: ra[7:0] sign-extended; rb 0. -/
def execSexb (y : Fin 8) (rd ra rb : Fin 32) (s : State) : Host.Outcome State Fault Refusal :=
  .next (aluOp y 0x15 rd ra rb (rb == 0) (fun a _ c => logic ((a.extractLsb' 0 8).signExtend 32) c) s)
/-- SEXH: ra[15:0] sign-extended; rb 0. -/
def execSexh (y : Fin 8) (rd ra rb : Fin 32) (s : State) : Host.Outcome State Fault Refusal :=
  .next (aluOp y 0x16 rd ra rb (rb == 0) (fun a _ c => logic ((a.extractLsb' 0 16).signExtend 32) c) s)
/-- CLZ: count of leading zeros, with Z; rb 0. -/
def execClz (y : Fin 8) (rd ra rb : Fin 32) (s : State) : Host.Outcome State Fault Refusal :=
  .next (aluOp y 0x17 rd ra rb (rb == 0) (fun a _ c => (w32 (leadingZeros a), c.setFlag 0 (leadingZeros a == 0))) s)
/-- ADDI: rd = ra + imm16. -/
def execAddi (y : Fin 8) (rd ra : Fin 32) (imm : BitVec 16) (s : State) : Host.Outcome State Fault Refusal :=
  .next (immOp y 0x04 rd ra imm true (fun a c => addWith a (immS imm) false c) s)
/-- ANDI: rd = ra AND imm16. -/
def execAndi (y : Fin 8) (rd ra : Fin 32) (imm : BitVec 16) (s : State) : Host.Outcome State Fault Refusal :=
  .next (immOp y 0x05 rd ra imm true (fun a c => logic (a &&& immZ imm) c) s)
/-- ORI: rd = ra OR imm16. -/
def execOri (y : Fin 8) (rd ra : Fin 32) (imm : BitVec 16) (s : State) : Host.Outcome State Fault Refusal :=
  .next (immOp y 0x06 rd ra imm true (fun a c => logic (a ||| immZ imm) c) s)
/-- XORI: rd = ra XOR imm16. -/
def execXori (y : Fin 8) (rd ra : Fin 32) (imm : BitVec 16) (s : State) : Host.Outcome State Fault Refusal :=
  .next (immOp y 0x07 rd ra imm true (fun a c => logic (a ^^^ immZ imm) c) s)
/-- SHLI: shift left by imm[4:0]; imm[15:5] 0. -/
def execShli (y : Fin 8) (rd ra : Fin 32) (imm : BitVec 16) (s : State) : Host.Outcome State Fault Refusal :=
  .next (immOp y 0x08 rd ra imm (decide (imm.toNat < 32)) (fun a c => shiftBy 0 (imm.toNat % 32) a c) s)
/-- SHRI: logical right shift by imm[4:0]; imm[15:5] 0. -/
def execShri (y : Fin 8) (rd ra : Fin 32) (imm : BitVec 16) (s : State) : Host.Outcome State Fault Refusal :=
  .next (immOp y 0x09 rd ra imm (decide (imm.toNat < 32)) (fun a c => shiftBy 1 (imm.toNat % 32) a c) s)
/-- SARI: arithmetic right shift by imm[4:0]; imm[15:5] 0. -/
def execSari (y : Fin 8) (rd ra : Fin 32) (imm : BitVec 16) (s : State) : Host.Outcome State Fault Refusal :=
  .next (immOp y 0x0A rd ra imm (decide (imm.toNat < 32)) (fun a c => shiftBy 2 (imm.toNat % 32) a c) s)
/-- CMPI: flags of ra - imm16; rd 0. -/
def execCmpi (y : Fin 8) (rd ra : Fin 32) (imm : BitVec 16) (s : State) : Host.Outcome State Fault Refusal :=
  .next (oxPure y (encI 0x0B rd ra imm) (rd == 0) (fun c => (subWith (c.r ra) (immS imm) true c).2) s)
/-- LUI: rd = imm16 << 16; ra 0. -/
def execLui (y : Fin 8) (rd ra : Fin 32) (imm : BitVec 16) (s : State) : Host.Outcome State Fault Refusal :=
  .next (immOp y 0x0C rd ra imm (ra == 0) (fun _ c => (immZ imm <<< 16, c)) s)
/-- MOVI: rd = imm16; ra 0. -/
def execMovi (y : Fin 8) (rd ra : Fin 32) (imm : BitVec 16) (s : State) : Host.Outcome State Fault Refusal :=
  .next (immOp y 0x0D rd ra imm (ra == 0) (fun _ c => (immS imm, c)) s)

end Sys2Proof.Machine
end

