-- ==== Sys2Proof/Machine/OxCop.lean ====
section
/-! DEFINITION. The operations of the coprocessors (R313 to R318, R407, R417, R446). -/
namespace Sys2Proof.Machine

/-- A coprocessor that answers at once always has its answer logged beside its request: a replay without it has left its log. -/
def noAnswer (y : Nat) (_ : Option Nat) (d : Dev) : Dev := haltYoke y 5 d

/-- SUBMIT (R407). -/
def copSubmit (y : Nat) (x v : Word) (s : State) : Option CopNow × State :=
  let (t, f, s) := muleCopSubmit y x v s
  (some (t, 0, f), s)

/-- GETY (R446): the words of a row that is not lent are free values. DESIGN CHOICE, log entry 79. -/
def copGety (x : Word) (wide : Bool) (s : State) : Option CopNow × State :=
  let (w0, w1, f) := tdGety x wide s.dev
  if f then
    let (a, d) := s.dev.fresh
    let (b, d) := d.fresh
    (some (a, b, true), { s with dev := d })
  else (some (w0, w1, false), s)

/-- RUN (R446): the vector waits its turn in the fabric, and the yoke for it. -/
def copRun (y rd : Nat) (s : State) : Option CopNow × State :=
  (none, s.upd (fun d => (d.auUpd (fun u => { u with tdq := u.tdq ++ [some y] })).updYk y (fun k => { k with tdWait := some rd })))

/-- An operation of a check unit: word 0, FAIL and the die after it. -/
def copCheck (r : Word × Bool × Dev) (s : State) : Option CopNow × State := (some (r.1, 0, r.2.1), { s with dev := r.2.2 })

/-- RESET of a check unit (R414): FAIL 0; the spec gives no word 0, so it is a free value. DESIGN CHOICE, log entry 79. -/
def copCkReset (m : Nat) (s : State) : Option CopNow × State :=
  let (a, d) := (ckReset m s.dev).fresh
  (some (a, 0, false), { s with dev := d })

/-- HTRD (R317): both halves of herd time, from one instant. -/
def copHtrd (s : State) : Option CopNow × State := (some (w32 s.dev.now, w32 (s.dev.now / 2 ^ 32), false), s)

/-- CUE (R317): an arm or a cancel that leaves CUE_RESULT as it is; word 0 is laid out as CUE_RESULT, and its SEQ after a refusal is a free
value. DEDUCED, log entry 76; DESIGN CHOICE, log entry 79. -/
def copCue (x v z : Word) (s : State) : Option CopNow × State :=
  let old := s.dev.rd Reg.CUE_RESULT
  let d := cueRequest (fld x 7 0) (fld x 23 8) (v.toNat * 2 ^ 32 + z.toNat) (bitOf x 24) (bitOf x 25) s.dev
  let r := d.rd Reg.CUE_RESULT
  let d := d.wr Reg.CUE_RESULT old
  if bitOf r 0 then (some (r, 0, false), { s with dev := d })
  else
    let (a, d) := d.fresh
    (some (putFld r 11 4 (fld a 7 0), 0, true), { s with dev := d })

/-- CENSUS (R317): accepted unless its lead is refused (R252). DEDUCED, log entry 76. -/
def copCensus (x v z : Word) (s : State) : Option CopNow × State :=
  let t : Nat := v.toNat * 2 ^ 32 + z.toNat
  let refused : Bool := decide ((t : Int) - s.dev.now < 20000 + (s.dev.rd Reg.SPAN).toNat)
  (some (if refused then 0 else 1, 0, refused), s.upd (cenRequest (fld x 15 0) (fld x 23 16) t (bitOf x 24)))

/-- A request to customer logic leaves as a COP_REQ frame with a fresh TAG (R318, R514), and the yoke waits. DEDUCED, log entry 78. -/
def copCustomer (y c op rd : Nat) (wide : Bool) (x v z : Word) (s : State) : Option CopNow × State :=
  let d := s.dev
  let tag := d.drv.copTag
  let p := [BitVec.ofNat 8 y, BitVec.ofNat 8 c] ++ natBytes 2 (op + wide.toNat * 2 ^ 15) ++ wordBytes x ++ wordBytes v ++ wordBytes z
  let d := queueFrame (some (.yoke y)) { ty := 8, stream := 63, tag := tag, payload := p } d
  let d := d.drvUpd (fun r => { r with copTag := tag + 1, cops := r.cops ++ [{ tag := tag.toNat, y := y, c := c, at_ := d.clk }] })
  let d := d.updYk y (fun k => { k with echo := k.echo.modify (k.echo.length - 1) (fun e => { e with tag := some tag.toNat }) })
  (none, { s with dev := d.updYk y (fun k => { k with wait := some { c := c, wide := wide, reg := rd, tag := tag.toNat } }) })

/-- A replay reaches a request to customer logic whose response has not come: the yoke waits for it. DEDUCED, log entry 78. -/
def customerAgain (y c rd : Nat) (wide : Bool) (tag : Option Nat) (d : Dev) : Dev :=
  match d.drv.cops.find? (fun r => some r.tag == tag) with
  | some r => d.updYk y (fun k => { k with wait := some { c := c, wide := wide, reg := rd, tag := r.tag } })
  | none => yokeTrap y 8 (w32 c) d

/-! ### The steps -/

/-- MULE_SUBMIT_COP (R407). -/
def execMuleSubmitCop (y : Fin 8) (rd ra rb : Fin 32) (wide : Bool) (s : State) : Host.Outcome State Fault Refusal :=
  .next (oxCop y 0 0x000 rd ra rb wide false wide (fun x v _ s => copSubmit y x v s) (noAnswer y) s)
/-- MULE_POLL (R407). -/
def execMulePoll (y : Fin 8) (rd ra rb : Fin 32) (wide : Bool) (s : State) : Host.Outcome State Fault Refusal :=
  .next (oxCop y 0 0x001 rd ra rb wide (rb != 0) wide (fun x _ _ s => (some (mulePoll x s.dev, 0, false), s)) (noAnswer y) s)
/-- TD_SETX (R446). -/
def execTdSetx (y : Fin 8) (rd ra rb : Fin 32) (wide : Bool) (s : State) : Host.Outcome State Fault Refusal :=
  .next (oxCop y 1 0x000 rd ra rb wide false wide (fun x v z s => copCheck (tdSetx x v z s.dev) s) (noAnswer y) s)
/-- TD_RUN (R446). -/
def execTdRun (y : Fin 8) (rd ra rb : Fin 32) (wide : Bool) (s : State) : Host.Outcome State Fault Refusal :=
  .next (oxCop y 1 0x001 rd ra rb wide (ra != 0 || rb != 0) wide (fun _ _ _ s => copRun y rd s)
    (fun _ d => d.updYk y (fun k => { k with tdWait := some rd.val })) s)
/-- TD_GETY (R446). -/
def execTdGety (y : Fin 8) (rd ra rb : Fin 32) (wide : Bool) (s : State) : Host.Outcome State Fault Refusal :=
  .next (oxCop y 1 0x002 rd ra rb wide (rb != 0) false (fun x _ _ s => copGety x wide s) (noAnswer y) s)
/-- CK_COP_FEED (R417). -/
def execCkCopFeed (y : Fin 8) (rd ra rb : Fin 32) (wide : Bool) (m : Fin 8) (s : State) : Host.Outcome State Fault Refusal :=
  .next (oxCop y 2 m rd ra rb wide false wide (fun x v _ s => copCheck (ckCopFeed m x v s.dev) s) (noAnswer y) s)
/-- CK_COP_END (R417). -/
def execCkCopEnd (y : Fin 8) (rd ra rb : Fin 32) (wide : Bool) (m : Fin 8) (s : State) : Host.Outcome State Fault Refusal :=
  .next (oxCop y 2 (0x008 + m) rd ra rb wide (ra != 0 || rb != 0) wide (fun _ _ _ s => copCheck (ckCopEnd m s.dev) s) (noAnswer y) s)
/-- CK_COP_RESET (R417). -/
def execCkCopReset (y : Fin 8) (rd ra rb : Fin 32) (wide : Bool) (m : Fin 8) (s : State) : Host.Outcome State Fault Refusal :=
  .next (oxCop y 2 (0x010 + m) rd ra rb wide (ra != 0 || rb != 0) wide (fun _ _ _ s => copCkReset m s) (noAnswer y) s)
/-- HTRD (R317): WIDE 0 traps ILLEGAL. -/
def execHtrd (y : Fin 8) (rd ra rb : Fin 32) (wide : Bool) (s : State) : Host.Outcome State Fault Refusal :=
  .next (oxCop y 3 0x000 rd ra rb wide (ra != 0 || rb != 0) (!wide) (fun _ _ _ s => copHtrd s) (noAnswer y) s)
/-- COP_CUE (R317). -/
def execCopCue (y : Fin 8) (rd ra rb : Fin 32) (wide : Bool) (s : State) : Host.Outcome State Fault Refusal :=
  .next (oxCop y 3 0x001 rd ra rb wide false wide (fun x v z s => copCue x v z s) (noAnswer y) s)
/-- COP_CENSUS (R317). -/
def execCopCensus (y : Fin 8) (rd ra rb : Fin 32) (wide : Bool) (s : State) : Host.Outcome State Fault Refusal :=
  .next (oxCop y 3 0x002 rd ra rb wide false wide (fun x v z s => copCensus x v z s) (noAnswer y) s)
/-- COP_CUSTOMER (R318): coprocessor 4 + c. -/
def execCopCustomer (y : Fin 8) (rd ra rb : Fin 32) (wide : Bool) (c : Fin 4) (op : Fin 1024) (s : State) :
    Host.Outcome State Fault Refusal :=
  .next (oxCop y (4 + c) op rd ra rb wide false false (fun x v z s => copCustomer y (4 + c) op rd wide x v z s)
    (customerAgain y (4 + c) rd wide) s)

end Sys2Proof.Machine
end

