-- ==== Sys2Proof/Machine/OxDec.lean ====
section
/-! DEFINITION. The Ox decimal instructions (R309 to R311). -/
namespace Sys2Proof.Machine

/-- A decimal instruction that writes rd. -/
def decOp (y f : Nat) (rd ra rb : Nat) (legal : Bool) (g : Word → Word → OxCtx → Word × OxCtx) (s : State) : State :=
  oxResult y (encR 0x01 rd ra rb f) legal rd (fun c => g (c.r ra) (c.r rb) c) s
/-- A decimal compare: its rd field is 0. -/
def decTest (y f : Nat) (rd ra rb : Nat) (dci : Bool) (s : State) : State :=
  oxPure y (encR 0x01 rd ra rb f) (rd == 0) (fun c => decCmp dci (c.r ra) (c.r rb) c) s

/-! ### The steps -/

/-- DADD: decimal sum. -/
def execDadd (y : Fin 8) (rd ra rb : Fin 32) (s : State) : Host.Outcome State Fault Refusal :=
  .next (decOp y 0x00 rd ra rb true (decAdd false) s)
/-- DADDC: decimal sum with DC. -/
def execDaddc (y : Fin 8) (rd ra rb : Fin 32) (s : State) : Host.Outcome State Fault Refusal :=
  .next (decOp y 0x20 rd ra rb true (decAdd true) s)
/-- DSUB: decimal difference. -/
def execDsub (y : Fin 8) (rd ra rb : Fin 32) (s : State) : Host.Outcome State Fault Refusal :=
  .next (decOp y 0x01 rd ra rb true (decSub false) s)
/-- DSUBC: decimal difference with DC. -/
def execDsubc (y : Fin 8) (rd ra rb : Fin 32) (s : State) : Host.Outcome State Fault Refusal :=
  .next (decOp y 0x21 rd ra rb true (decSub true) s)
/-- DCMP: flags of DSUB. -/
def execDcmp (y : Fin 8) (rd ra rb : Fin 32) (s : State) : Host.Outcome State Fault Refusal :=
  .next (decTest y 0x02 rd ra rb false s)
/-- DCMPC: flags of DSUBC, Z chained. -/
def execDcmpc (y : Fin 8) (rd ra rb : Fin 32) (s : State) : Host.Outcome State Fault Refusal :=
  .next (decTest y 0x22 rd ra rb true s)
/-- DADJ: decimal correction of a binary sum. -/
def execDadj (y : Fin 8) (rd ra rb : Fin 32) (s : State) : Host.Outcome State Fault Refusal :=
  .next (decOp y 0x03 rd ra rb true (decAdj) s)
/-- DSHL: shift left by rb[3:0] digits. -/
def execDshl (y : Fin 8) (rd ra rb : Fin 32) (s : State) : Host.Outcome State Fault Refusal :=
  .next (decOp y 0x04 rd ra rb true (fun a b c => decShift true a (fld b 3 0) c) s)
/-- DSHR: shift right by rb[3:0] digits. -/
def execDshr (y : Fin 8) (rd ra rb : Fin 32) (s : State) : Host.Outcome State Fault Refusal :=
  .next (decOp y 0x05 rd ra rb true (fun a b c => decShift false a (fld b 3 0) c) s)
/-- B2D: binary to packed BCD; rb 0. -/
def execB2d (y : Fin 8) (rd ra rb : Fin 32) (s : State) : Host.Outcome State Fault Refusal :=
  .next (decOp y 0x06 rd ra rb (rb == 0) (fun a _ c => binToDec a c) s)
/-- D2B: packed BCD to binary; rb 0. -/
def execD2b (y : Fin 8) (rd ra rb : Fin 32) (s : State) : Host.Outcome State Fault Refusal :=
  .next (decOp y 0x07 rd ra rb (rb == 0) (fun a _ c => decToBin a c) s)

end Sys2Proof.Machine
end

