-- ==== Sys2Proof/Machine/OxMem.lean ====
section
/-! DEFINITION. The Ox loads, stores and atomics (R297, R298, R305, R308). -/
namespace Sys2Proof.Machine

/-- The address of a load or store. -/
def ea (s : State) (y ra : Nat) (imm : BitVec 16) : Word := (ctxOf s y).r ra + imm.signExtend 32
/-- A load instruction. -/
def loadOp (y major rd ra : Nat) (imm : BitVec 16) (size : Nat) (signed : Bool) (s : State) : State :=
  oxRun y (encI major rd ra imm) (fun s => oxLoad y rd size signed (ea s y ra imm) s) s
/-- A store instruction: rd names the data. -/
def storeOp (y major rd ra : Nat) (imm : BitVec 16) (size : Nat) (s : State) : State :=
  oxRun y (encI major rd ra imm) (fun s => oxStore y size (ea s y ra imm) ((ctxOf s y).r rd) s) s
/-- An atomic instruction on the word at g[ra]. -/
def atomOp (y f rd ra rb : Nat) (cas : Bool) (op : OxCtx → AtomOp) (data : OxCtx → List Word) (s : State) : State :=
  oxRun y (encR 0x1C rd ra rb f) (fun s =>
    let c := ctxOf s y
    oxAtom y rd cas (op c) (data c) (c.r ra) s) s

/-! ### The steps -/

/-- LDW: rd = word. -/
def execLdw (y : Fin 8) (rd ra : Fin 32) (imm : BitVec 16) (s : State) : Host.Outcome State Fault Refusal :=
  .next (loadOp y 0x10 rd ra imm 4 false s)
/-- LDH: rd = halfword, sign-extended. -/
def execLdh (y : Fin 8) (rd ra : Fin 32) (imm : BitVec 16) (s : State) : Host.Outcome State Fault Refusal :=
  .next (loadOp y 0x11 rd ra imm 2 true s)
/-- LDHU: rd = halfword, zero-extended. -/
def execLdhu (y : Fin 8) (rd ra : Fin 32) (imm : BitVec 16) (s : State) : Host.Outcome State Fault Refusal :=
  .next (loadOp y 0x12 rd ra imm 2 false s)
/-- LDB: rd = byte, sign-extended. -/
def execLdb (y : Fin 8) (rd ra : Fin 32) (imm : BitVec 16) (s : State) : Host.Outcome State Fault Refusal :=
  .next (loadOp y 0x13 rd ra imm 1 true s)
/-- LDBU: rd = byte, zero-extended. -/
def execLdbu (y : Fin 8) (rd ra : Fin 32) (imm : BitVec 16) (s : State) : Host.Outcome State Fault Refusal :=
  .next (loadOp y 0x14 rd ra imm 1 false s)
/-- STW: word = g[rd]. -/
def execStw (y : Fin 8) (rd ra : Fin 32) (imm : BitVec 16) (s : State) : Host.Outcome State Fault Refusal :=
  .next (storeOp y 0x18 rd ra imm 4 s)
/-- STH: halfword = g[rd]. -/
def execSth (y : Fin 8) (rd ra : Fin 32) (imm : BitVec 16) (s : State) : Host.Outcome State Fault Refusal :=
  .next (storeOp y 0x19 rd ra imm 2 s)
/-- STB: byte = g[rd]. -/
def execStb (y : Fin 8) (rd ra : Fin 32) (imm : BitVec 16) (s : State) : Host.Outcome State Fault Refusal :=
  .next (storeOp y 0x1A rd ra imm 1 s)
/-- SWAP writes g[rb]. -/
def execSwap (y : Fin 8) (rd ra rb : Fin 32) (s : State) : Host.Outcome State Fault Refusal :=
  .next (atomOp y 0x00 rd ra rb false (fun c _ => some (c.r rb)) (fun c => [0, c.r rb]) s)
/-- FADD writes old + g[rb]. -/
def execFadd (y : Fin 8) (rd ra rb : Fin 32) (s : State) : Host.Outcome State Fault Refusal :=
  .next (atomOp y 0x01 rd ra rb false (fun c old => some (old + c.r rb)) (fun c => [1, c.r rb]) s)
/-- CAS writes g[rb] only if old = g[rd]. -/
def execCas (y : Fin 8) (rd ra rb : Fin 32) (s : State) : Host.Outcome State Fault Refusal :=
  .next (atomOp y 0x02 rd ra rb true (fun c old => if old = c.r rd then some (c.r rb) else none) (fun c => [2, c.r rb, c.r rd]) s)

end Sys2Proof.Machine
end

