-- ==== Sys2Proof/Machine/OxSys.lean ====
section
/-! DEFINITION. Control flow, special registers, traps, interrupts and standby of the Ox (R293, R299 to R303, R305, R307, R312). -/
namespace Sys2Proof.Machine

/-! ### Special registers (R293) -/

/-- What MFS reads; none for a number that R293 does not list. -/
def mfsRead (d : Dev) (y n : Nat) (c : OxCtx) : Option Word :=
  match n with
  | 0 => some c.flags
  | 1 => some (w32 (c.ie.toNat + 2 * c.exl.toNat + 4 * (d.bit (Reg.Y_STATUS y) 0).toNat))
  | 2 => some c.epc
  | 3 => some c.estat
  | 4 => some c.ecause
  | 5 => some c.einfo
  | 6 => some c.vbase
  | 7 => some (w32 (c.depth + 2 ^ 8 * c.trapMode.toNat + 2 ^ 9 * c.rsu.toNat))
  | 8 => some c.dtpc
  | 9 => some (w32 y)
  | _ => none

/-- What MTS writes; none for a number that R293 does not list. -/
def mtsWrite (n : Nat) (v : Word) (c : OxCtx) : Option OxCtx :=
  match n with
  | 0 => some { c with flags := v &&& 0x3F }
  | 1 => some { c with ie := bitOf v 0, exl := bitOf v 1 }
  | 2 => some { c with epc := v }
  | 3 => some { c with estat := v &&& 0x13F }
  | 4 => some { c with ecause := v &&& 0x1F }
  | 5 => some { c with einfo := v }
  | 6 => some { c with vbase := v &&& 0x1FF00 }
  | 7 => some { c with trapMode := bitOf v 8, rsu := c.rsu && !bitOf v 9 }
  | 8 | 9 => some c
  | _ => none

/-! ### Control flow -/

/-- The model at the next instruction. -/
def OxCtx.go (c : OxCtx) (pc : Word) : OxCtx := { c with pc := pc }
/-- The target of a branch (R305). -/
def branchTo (c : OxCtx) (off : BitVec 22) : Word := c.pc + (off.signExtend 32 <<< 2)

/-- A SYS instruction that uses no field but those that `legal` allows. -/
def sysOp (y f rd ra rb : Nat) (legal : Bool) (cause : Nat) (g : OxCtx → Option OxCtx) (s : State) : State :=
  oxJump y (encR 0x02 rd ra rb f) legal cause g s

/-- MFS and MTS of an unlisted number trap ILLEGAL. -/
def mfsOp (y rd ra rb : Nat) (s : State) : State :=
  let w := encR 0x02 rd ra rb 0x06
  oxRun y w (fun s =>
    match (if ra = 0 then mfsRead s.dev y rb (ctxOf s y) else none) with
    | some v => s.upd (yokeRetire y (((ctxOf s y).setR rd v).go ((ctxOf s y).pc + 4)))
    | none => illegal y w s) s
/-- MTS. -/
def mtsOp (y rd ra rb : Nat) (s : State) : State :=
  let w := encR 0x02 rd ra rb 0x07
  oxRun y w (fun s =>
    match (if rb = 0 then mtsWrite rd ((ctxOf s y).r ra) (ctxOf s y) else none) with
    | some c => s.upd (yokeRetire y (c.go (c.pc + 4)))
    | none => illegal y w s) s

/-- ERET (R302). -/
def eretCtx (c : OxCtx) : OxCtx := { c with pc := c.epc, flags := c.estat &&& 0x3F, ie := bitOf c.estat 8, exl := false }

/-- WAIT (R303): the yoke is in standby at the next instruction; a replay that goes on past it does not stay. DEDUCED, log entry 70. -/
def waitOp (y rd ra rb : Nat) (s : State) : State :=
  let w := encR 0x02 rd ra rb 0x09
  oxRun y w (fun s =>
    if rd = 0 && ra = 0 && rb = 0 then
      s.upd (fun d =>
        let c := (d.yk y).ctx
        setRun y 7 (yokeRetire y { c with pc := c.pc + 4, waiting := true } d))
    else illegal y w s) s

/-! ### Traps, interrupts and standby (R299 to R303) -/

/-- The TRAP instruction, and every word that names no instruction: ILLEGAL, after the checks of R316 in a coprocessor major. -/
def trapOp (y : Nat) (w : Word) (s : State) : State :=
  let m := fld w 31 26
  oxRun y w (fun s =>
    if m = 0x03 then
      if fld w 25 16 = 0 then s.upd (yokeTrap y 11 (w32 (fld w 15 0))) else illegal y w s
    else if oxDefined w then s
    else if 0x38 ≤ m then
      match copTrap s.dev y (m - 0x38) w (bitOf w 10 && fld w 25 21 == 31) true with
      | some (cause, info) => s.upd (yokeTrap y cause info)
      | none => s
    else illegal y w s) s

/-- The entry of an interrupt (R301): EPC is the address of the next instruction to execute. -/
def irqEnter (y : Nat) (d : Dev) : Dev :=
  let c := (d.yk y).ctx
  replayEnd y ((setCtx y { c with
    epc := c.pc
    estat := putFld (c.flags &&& 0x3F) 8 8 (if c.ie then 1 else 0)
    ecause := 16, einfo := 0, ie := false, exl := true, waiting := false, pc := c.vbase + 0x20 } d).setFld (Reg.Y_STATUS y) 9 5 16)

/-- A yoke takes an interrupt: live while its request line is asserted, IE is 1 and EXL is 0; in a replay at the logged count (R276).
DESIGN CHOICE, log entry 77. -/
def irqTake (y : Nat) (d : Dev) : Dev :=
  let k := d.yk y
  if k.replay.isSome then
    if irqReplay k then irqEnter y (tookInput y d)
    else if (nextInput k).isNone && (nextEcho k).isNone && reqLine d y && k.ctx.ie && !k.ctx.exl then irqEnter y (logInput y (.irq k.retired) d)
    else d
  else if reqLine d y && k.ctx.ie && !k.ctx.exl then irqEnter y (logInput y (.irq k.retired) d)
  else d

/-- INTERRUPT_ENTRY. DESIGN CHOICE, log entry 77. -/
def interruptEntry (y : Nat) (d : Dev) : Dev :=
  let k := d.yk y
  if yokeRuns d y && k.wait.isNone && k.ld.isNone && k.tdWait.isNone then irqTake y d else d

/-- A yoke in standby leaves it when its request line asserts, or at once in a replay that goes on; it takes the interrupt if it may. -/
def waitWake (y : Nat) (d : Dev) : Dev :=
  let k := d.yk y
  if yokeRun d y ≠ 7 then d
  else if k.replay.isNone && !reqLine d y then d
  else
    let st := if k.replay.isSome then replayState d y else liveState d y
    let d := setRun y st (setCtx y { k.ctx with waiting := false } d)
    irqTake y d

/-! ### The steps -/

/-- NOP. -/
def execNop (y : Fin 8) (rd ra rb : Fin 32) (s : State) : Host.Outcome State Fault Refusal :=
  .next (sysOp y 0x00 rd ra rb (rd == 0 && ra == 0 && rb == 0) 0 (fun c => some (c.go (c.pc + 4))) s)
/-- RET pops PC. -/
def execRet (y : Fin 8) (rd ra rb : Fin 32) (s : State) : Host.Outcome State Fault Refusal :=
  .next (sysOp y 0x01 rd ra rb (rd == 0 && ra == 0 && rb == 0) 10 (fun c => (rsPop c).map (fun p => p.2.go p.1)) s)
/-- JR: PC = g[ra]. -/
def execJr (y : Fin 8) (rd ra rb : Fin 32) (s : State) : Host.Outcome State Fault Refusal :=
  .next (sysOp y 0x02 rd ra rb (rd == 0 && rb == 0) 0 (fun c => some (c.go (c.r ra))) s)
/-- CALLR pushes PC + 4; PC = g[ra]. -/
def execCallr (y : Fin 8) (rd ra rb : Fin 32) (s : State) : Host.Outcome State Fault Refusal :=
  .next (sysOp y 0x03 rd ra rb (rd == 0 && rb == 0) 9 (fun c => (rsPush (c.pc + 4) c).map (fun x => x.go (c.r ra))) s)
/-- RSPUSH pushes g[ra]. -/
def execRspush (y : Fin 8) (rd ra rb : Fin 32) (s : State) : Host.Outcome State Fault Refusal :=
  .next (sysOp y 0x04 rd ra rb (rd == 0 && rb == 0) 9 (fun c => (rsPush (c.r ra) c).map (fun x => x.go (c.pc + 4))) s)
/-- RSPOP pops into g[rd]. -/
def execRspop (y : Fin 8) (rd ra rb : Fin 32) (s : State) : Host.Outcome State Fault Refusal :=
  .next (sysOp y 0x05 rd ra rb (ra == 0 && rb == 0) 10 (fun c => (rsPop c).map (fun p => (p.2.setR rd p.1).go (c.pc + 4))) s)
/-- MFS: g[rd] = special register rb. -/
def execMfs (y : Fin 8) (rd ra rb : Fin 32) (s : State) : Host.Outcome State Fault Refusal := .next (mfsOp y rd ra rb s)
/-- MTS: special register rd = g[ra]. -/
def execMts (y : Fin 8) (rd ra rb : Fin 32) (s : State) : Host.Outcome State Fault Refusal := .next (mtsOp y rd ra rb s)
/-- ERET. -/
def execEret (y : Fin 8) (rd ra rb : Fin 32) (s : State) : Host.Outcome State Fault Refusal :=
  .next (sysOp y 0x08 rd ra rb (rd == 0 && ra == 0 && rb == 0) 0 (fun c => some (eretCtx c)) s)
/-- WAIT. -/
def execWait (y : Fin 8) (rd ra rb : Fin 32) (s : State) : Host.Outcome State Fault Refusal := .next (waitOp y rd ra rb s)
/-- TRAP. -/
def execTrap (y : Fin 8) (w : Word) (s : State) : Host.Outcome State Fault Refusal := .next (trapOp y w s)
/-- B: if cond holds, PC = PC + 4 × offset. -/
def execB (y : Fin 8) (cond : Fin 16) (off : BitVec 22) (s : State) : Host.Outcome State Fault Refusal :=
  .next (oxJump y (encB 0x20 cond off) true 0 (fun c => some (c.go (if condHolds cond c then branchTo c off else c.pc + 4))) s)
/-- CALL: if cond holds, push PC + 4 and PC = PC + 4 × offset. -/
def execCall (y : Fin 8) (cond : Fin 16) (off : BitVec 22) (s : State) : Host.Outcome State Fault Refusal :=
  .next (oxJump y (encB 0x21 cond off) true 9
    (fun c => if condHolds cond c then (rsPush (c.pc + 4) c).map (fun x => x.go (branchTo c off)) else some (c.go (c.pc + 4))) s)
/-- INTERRUPT_ENTRY (R301). -/
def execInterruptEntry (y : Fin 8) (s : State) : Host.Outcome State Fault Refusal := s.next (interruptEntry y)
/-- WAIT_WAKE (R303). -/
def execWaitWake (y : Fin 8) (s : State) : Host.Outcome State Fault Refusal := s.next (waitWake y)

end Sys2Proof.Machine
end

