-- ==== Sys2Proof/Machine/SelfTest.lean ====
section
/-! DEFINITION. The end of a requested self-test or calibration (R282). -/
namespace Sys2Proof.Machine

/-- A failed Packhorse channel that serves an idle logical channel: a spare serves it instead, or it has none (R282, R385).
DEDUCED, log entry 141. -/
def phReplace (idx : Nat) (d : Dev) : Dev :=
  match (List.range 32).find? (fun n => d.fld (Reg.PCH_STATUS n) 13 8 == idx) with
  | none => d
  | some n =>
    match takeSpare 5 d with
    | some (i, d) => (d.setFld (Reg.PCH_STATUS n) 13 8 i).wr (Reg.PCH_GEN n) (d.rd Reg.GLOBAL_GEN)
    | none => ((d.updPh n (fun p => { p with broken := true })).setBit (Reg.PCH_FLAGS n) 5).wr (Reg.PCH_GEN n) 0

/-- A unit of a class has failed its requested test: it enters the repair map (R282). -/
def selftestFailed (cls idx : Nat) (d : Dev) : Dev :=
  match cls with
  | 1 =>
    let f := idx / 16
    let c := idx % 16
    let d := match postOf d f c with
      | some 8 => spendSpare f d
      | some p => dropPost f p d
      | none => d
    mapCell f c (d.updFlock f (fun x => { x with testing := x.testing.erase c, ready := x.ready.erase c }))
  | 13 => faultLog 13 7 idx 13 0 0 (mapUnit 13 idx d)
  | 14 =>
    let d := (d.clrBit (Reg.PHY_STATUS idx) 1).updHead idx (fun x => { x with trained := false, tries := 0 })
    faultLog 14 7 idx 13 0 0 (mapUnit 14 idx d)
  | _ =>
    let served := cls = 5 && d.unit 5 idx = 0
    let d := mapUnit cls idx (setUnit cls idx 3 (endTest cls idx d))
    let d := if served then phReplace idx d else d
    faultLog cls 7 idx 13 (if (sparesOf d cls).isEmpty then 1 else 0) 0 d

/-- A memory self-test of the reserve pool of a stack (R281, R464, R467): pages that hold no remapped page count their corrections, and one
with an uncorrectable word is marked unusable. -/
def poolTest (st : Nat) (counted bad : List Nat) (d : Dev) : Dev :=
  let mine (p : Nat) : Bool := isPool (interleave d) (p * 4096) && stackOf (interleave d) (p * 4096) == st && (serves d p).isNone
  let d := (counted.filter mine).foldl (fun d p => pageCount p ((d.setBit Reg.MEM_FLAGS 0).bump Reg.CORR_COUNT)) d
  (bad.filter mine).foldl (fun d p => retireStart p d) d

/-- The test or calibration of the n-th queued request ends (R282): one whose unit is still active stays queued. That of an HBM3 stack finds
corrections in the pool pages `counted` and uncorrectable words in `bad`. DEDUCED, log entry 80; DESIGN CHOICE, log entry 15. -/
def selftestDone (n : Nat) (pass : Bool) (counted bad : List Nat) (d : Dev) : Dev :=
  match d.requests[n]? with
  | none => d
  | some (cls, idx, _) =>
    if !requestFree d cls idx then d
    else
      let d := syncRequests { d with requests := d.requests.eraseIdx n }
      let w := putFld (putFld (d.rd Reg.SELFTEST_STATUS) 5 5 (if pass then 1 else 0)) 19 8 idx
      let d := (d.wr Reg.SELFTEST_STATUS (putFld w 23 20 cls)).setBit Reg.ST_FLAGS 4
      let d := if cls = 1 then setBist (idx / 16) (idx % 16) pass d else if cls = 13 then poolTest idx counted bad d else d
      if pass then d else selftestFailed cls idx (d.setBit Reg.ST_FLAGS 5)

/-- SELFTEST_REQ_DONE (R282): the n-th queued request. -/
def execSelftestReqDone (n : Fin 16) (pass : Bool) (s : State) (counted bad : List Nat := []) :
    Host.Outcome State Fault Refusal :=
  s.next (selftestDone n pass counted bad)

end Sys2Proof.Machine
end

