-- ==== Sys2Proof/Machine/Dispatch.lean ====
section
/-! DEFINITION. One arm for each command: its meaning, or its rejection by name. -/
namespace Sys2Proof.Machine

def exec (i : Instr) (s : State) : Host.Outcome State Fault Refusal :=
  match i with
  | .regWrite q off width v => Sys2Proof.Machine.execRegWrite q off width v s
  | .toDraught q v => Sys2Proof.Machine.execToDraught q v s
  | .modeWrite q v => Sys2Proof.Machine.execModeWrite q v s
  | .railReviewWindow => Sys2Proof.Machine.execRailReviewWindow s
  | .railStepDown => Sys2Proof.Machine.execRailStepDown s
  | .twinFloorStep => Sys2Proof.Machine.execTwinFloorStep s
  | .avsVdone lvl => Sys2Proof.Machine.execAvsVdone lvl s
  | .avsTimeout => Sys2Proof.Machine.execAvsTimeout s
  | .avsRetry => Sys2Proof.Machine.execAvsRetry s
  | .loadStart slotPoison => Sys2Proof.Machine.execLoadStart slotPoison s
  | .loadCheckDone slotPoison => Sys2Proof.Machine.execLoadCheckDone slotPoison s
  | .loadDone => Sys2Proof.Machine.execLoadDone s
  | .verify q => Sys2Proof.Machine.execVerify q s
  | .programA q => Sys2Proof.Machine.execProgramA q s
  | .programB q => Sys2Proof.Machine.execProgramB q s
  | .programGolden q => Sys2Proof.Machine.execProgramGolden q s
  | .stageCmdDone bad => Sys2Proof.Machine.execStageCmdDone bad s
  | .bootOk q v => Sys2Proof.Machine.execBootOk q v s
  | .slotCtrlWrite q v => Sys2Proof.Machine.execSlotCtrlWrite q v s
  | .minSerialWrite q v => Sys2Proof.Machine.execMinSerialWrite q v s
  | .keyRevokeWrite q v => Sys2Proof.Machine.execKeyRevokeWrite q v s
  | .keyHashWrite q k j v => Sys2Proof.Machine.execKeyHashWrite q k j v s
  | .repenRequest q v => Sys2Proof.Machine.execRepenRequest q v s
  | .repenBlank => Sys2Proof.Machine.execRepenBlank s
  | .repenStoreRewritten => Sys2Proof.Machine.execRepenStoreRewritten s
  | .repenCellsLoaded lost => Sys2Proof.Machine.execRepenCellsLoaded s lost
  | .repenProbeDone bad spareOk => Sys2Proof.Machine.execRepenProbeDone bad spareOk s
  | .repenRejoin => Sys2Proof.Machine.execRepenRejoin s
  | .cellLineStart f p l evict late => Sys2Proof.Machine.execCellLineStart f p l evict late s
  | .cellLineDone f p lead spare pal => Sys2Proof.Machine.execCellLineDone f p lead spare s pal
  | .lineMissed f p l => Sys2Proof.Machine.execLineMissed f p l s
  | .statsLatch h => Sys2Proof.Machine.execStatsLatch h s
  | .cacheInv f p l => Sys2Proof.Machine.execCacheInv f p l s
  | .sprReload f p l => Sys2Proof.Machine.execSprReload f p l s
  | .collRecordWrite f p l => Sys2Proof.Machine.execCollRecordWrite f p l s
  | .fbFlipArm f p l => Sys2Proof.Machine.execFbFlipArm f p l s
  | .lsDecisionPoint h => Sys2Proof.Machine.execLsDecisionPoint h s
  | .lsEnd h poison => Sys2Proof.Machine.execLsEnd h poison s
  | .lsWait h => Sys2Proof.Machine.execLsWait h s
  | .lsWr h => Sys2Proof.Machine.execLsWr h s
  | .lsMask h => Sys2Proof.Machine.execLsMask h s
  | .lsAdd h => Sys2Proof.Machine.execLsAdd h s
  | .lsFetch h => Sys2Proof.Machine.execLsFetch h s
  | .lsRep h => Sys2Proof.Machine.execLsRep h s
  | .lsNext h => Sys2Proof.Machine.execLsNext h s
  | .lsBank h => Sys2Proof.Machine.execLsBank h s
  | .lsSignal h => Sys2Proof.Machine.execLsSignal h s
  | .lsSignalReached h => Sys2Proof.Machine.execLsSignalReached h s
  | .lsBankReq h v => Sys2Proof.Machine.execLsBankReq h v s
  | .compLineStart h lost => Sys2Proof.Machine.execCompLineStart h s lost
  | .compLineEnd h => Sys2Proof.Machine.execCompLineEnd h s
  | .compPixelLate h x => Sys2Proof.Machine.execCompPixelLate h x s
  | .headStart h => Sys2Proof.Machine.execHeadStart h s
  | .headStop h => Sys2Proof.Machine.execHeadStop h s
  | .headStandby h => Sys2Proof.Machine.execHeadStandby h s
  | .headLinkReady h hpd => Sys2Proof.Machine.execHeadLinkReady h hpd s
  | .headFrameStart h => Sys2Proof.Machine.execHeadFrameStart h s
  | .headFramePredict h => Sys2Proof.Machine.execHeadFramePredict h s
  | .beamLineMatch h => Sys2Proof.Machine.execBeamLineMatch h s
  | .linkTrainAttemptDone h ok => Sys2Proof.Machine.execLinkTrainAttemptDone h ok s
  | .trainRetry h => Sys2Proof.Machine.execTrainRetry h s
  | .hpdLoss h => Sys2Proof.Machine.execHpdLoss h s
  | .hpdIrqPulse h lost => Sys2Proof.Machine.execHpdIrqPulse h lost s
  | .hpdRise h => Sys2Proof.Machine.execHpdRise h s
  | .sideTransaction h v => Sys2Proof.Machine.execSideTransaction h v s
  | .auxDeferRetry h => Sys2Proof.Machine.execAuxDeferRetry h s
  | .auxTimeout h => Sys2Proof.Machine.execAuxTimeout h s
  | .sideTransactionDone h result wrote data => Sys2Proof.Machine.execSideTransactionDone h result wrote data s
  | .teEdge h rising wait => Sys2Proof.Machine.execTeEdge h rising wait s
  | .teMissing h => Sys2Proof.Machine.execTeMissing h s
  | .herdFrameSend => Sys2Proof.Machine.execHerdFrameSend s
  | .herdFrameReceive b code f wait sub res => Sys2Proof.Machine.execHerdFrameReceive b code f wait sub res s
  | .ringInputLost b wait => Sys2Proof.Machine.execRingInputLost b wait s
  | .ringAReturn => Sys2Proof.Machine.execRingAReturn s
  | .herdJoinEval => Sys2Proof.Machine.execHerdJoinEval s
  | .spanMeasure => Sys2Proof.Machine.execSpanMeasure s
  | .ppsOutRise => Sys2Proof.Machine.execPpsOutRise s
  | .ppsOutFall => Sys2Proof.Machine.execPpsOutFall s
  | .ppsInEdge wait => Sys2Proof.Machine.execPpsInEdge wait s
  | .htSet q v => Sys2Proof.Machine.execHtSet q v s
  | .cueArm sl arg bcast => Sys2Proof.Machine.execCueArm sl arg bcast s
  | .cueCancel sl arg bcast => Sys2Proof.Machine.execCueCancel sl arg bcast s
  | .cueFire => Sys2Proof.Machine.execCueFire s
  | .censusRequest v => Sys2Proof.Machine.execCensusRequest v s
  | .censusLatch => Sys2Proof.Machine.execCensusLatch s
  | .censusBankFilled => Sys2Proof.Machine.execCensusBankFilled s
  | .cenRelease v => Sys2Proof.Machine.execCenRelease v s
  | .cellFaultDetect f c dog => Sys2Proof.Machine.execCellFaultDetect f c dog s
  | .takeoverSpareLoaded f code => Sys2Proof.Machine.execTakeoverSpareLoaded f s code
  | .takeoverRejoin f => Sys2Proof.Machine.execTakeoverRejoin f s
  | .shadowProbeDone f postOk spareOk => Sys2Proof.Machine.execShadowProbeDone f postOk spareOk s
  | .cellSelftestDone f c pass => Sys2Proof.Machine.execCellSelftestDone f c pass s
  | .roveTimer => Sys2Proof.Machine.execRoveTimer s
  | .spareTestTimer => Sys2Proof.Machine.execSpareTestTimer s
  | .yokeCheckpoint y => Sys2Proof.Machine.execYokeCheckpoint y s
  | .lockstepMismatch y => Sys2Proof.Machine.execLockstepMismatch y s
  | .coreSelftestDone y passA passB => Sys2Proof.Machine.execCoreSelftestDone y passA passB s
  | .yokeRestart q y => Sys2Proof.Machine.execYokeRestart q y s
  | .yokeResume q y => Sys2Proof.Machine.execYokeResume q y s
  | .genBump q v => Sys2Proof.Machine.execGenBump q v s
  | .selftestReq q v => Sys2Proof.Machine.execSelftestReq q v s
  | .selftestReqDone n pass counted bad => Sys2Proof.Machine.execSelftestReqDone n pass s counted bad
  | .stewardDisagree => Sys2Proof.Machine.execStewardDisagree s
  | .add y rd ra rb => Sys2Proof.Machine.execAdd y rd ra rb s
  | .adc y rd ra rb => Sys2Proof.Machine.execAdc y rd ra rb s
  | .sub y rd ra rb => Sys2Proof.Machine.execSub y rd ra rb s
  | .sbc y rd ra rb => Sys2Proof.Machine.execSbc y rd ra rb s
  | .and y rd ra rb => Sys2Proof.Machine.execAnd y rd ra rb s
  | .or y rd ra rb => Sys2Proof.Machine.execOr y rd ra rb s
  | .xor y rd ra rb => Sys2Proof.Machine.execXor y rd ra rb s
  | .andn y rd ra rb => Sys2Proof.Machine.execAndn y rd ra rb s
  | .shl y rd ra rb => Sys2Proof.Machine.execShl y rd ra rb s
  | .shr y rd ra rb => Sys2Proof.Machine.execShr y rd ra rb s
  | .sar y rd ra rb => Sys2Proof.Machine.execSar y rd ra rb s
  | .ror y rd ra rb => Sys2Proof.Machine.execRor y rd ra rb s
  | .mul y rd ra rb => Sys2Proof.Machine.execMul y rd ra rb s
  | .mulhu y rd ra rb => Sys2Proof.Machine.execMulhu y rd ra rb s
  | .mulhs y rd ra rb => Sys2Proof.Machine.execMulhs y rd ra rb s
  | .divu y rd ra rb => Sys2Proof.Machine.execDivu y rd ra rb s
  | .divs y rd ra rb => Sys2Proof.Machine.execDivs y rd ra rb s
  | .remu y rd ra rb => Sys2Proof.Machine.execRemu y rd ra rb s
  | .rems y rd ra rb => Sys2Proof.Machine.execRems y rd ra rb s
  | .cmp y rd ra rb => Sys2Proof.Machine.execCmp y rd ra rb s
  | .tst y rd ra rb => Sys2Proof.Machine.execTst y rd ra rb s
  | .sexb y rd ra rb => Sys2Proof.Machine.execSexb y rd ra rb s
  | .sexh y rd ra rb => Sys2Proof.Machine.execSexh y rd ra rb s
  | .clz y rd ra rb => Sys2Proof.Machine.execClz y rd ra rb s
  | .dadd y rd ra rb => Sys2Proof.Machine.execDadd y rd ra rb s
  | .daddc y rd ra rb => Sys2Proof.Machine.execDaddc y rd ra rb s
  | .dsub y rd ra rb => Sys2Proof.Machine.execDsub y rd ra rb s
  | .dsubc y rd ra rb => Sys2Proof.Machine.execDsubc y rd ra rb s
  | .dcmp y rd ra rb => Sys2Proof.Machine.execDcmp y rd ra rb s
  | .dcmpc y rd ra rb => Sys2Proof.Machine.execDcmpc y rd ra rb s
  | .dadj y rd ra rb => Sys2Proof.Machine.execDadj y rd ra rb s
  | .dshl y rd ra rb => Sys2Proof.Machine.execDshl y rd ra rb s
  | .dshr y rd ra rb => Sys2Proof.Machine.execDshr y rd ra rb s
  | .b2d y rd ra rb => Sys2Proof.Machine.execB2d y rd ra rb s
  | .d2b y rd ra rb => Sys2Proof.Machine.execD2b y rd ra rb s
  | .nop y rd ra rb => Sys2Proof.Machine.execNop y rd ra rb s
  | .ret y rd ra rb => Sys2Proof.Machine.execRet y rd ra rb s
  | .jr y rd ra rb => Sys2Proof.Machine.execJr y rd ra rb s
  | .callr y rd ra rb => Sys2Proof.Machine.execCallr y rd ra rb s
  | .rspush y rd ra rb => Sys2Proof.Machine.execRspush y rd ra rb s
  | .rspop y rd ra rb => Sys2Proof.Machine.execRspop y rd ra rb s
  | .mfs y rd ra rb => Sys2Proof.Machine.execMfs y rd ra rb s
  | .mts y rd ra rb => Sys2Proof.Machine.execMts y rd ra rb s
  | .eret y rd ra rb => Sys2Proof.Machine.execEret y rd ra rb s
  | .wait y rd ra rb => Sys2Proof.Machine.execWait y rd ra rb s
  | .trap y w => Sys2Proof.Machine.execTrap y w s
  | .addi y rd ra imm => Sys2Proof.Machine.execAddi y rd ra imm s
  | .andi y rd ra imm => Sys2Proof.Machine.execAndi y rd ra imm s
  | .ori y rd ra imm => Sys2Proof.Machine.execOri y rd ra imm s
  | .xori y rd ra imm => Sys2Proof.Machine.execXori y rd ra imm s
  | .shli y rd ra imm => Sys2Proof.Machine.execShli y rd ra imm s
  | .shri y rd ra imm => Sys2Proof.Machine.execShri y rd ra imm s
  | .sari y rd ra imm => Sys2Proof.Machine.execSari y rd ra imm s
  | .cmpi y rd ra imm => Sys2Proof.Machine.execCmpi y rd ra imm s
  | .lui y rd ra imm => Sys2Proof.Machine.execLui y rd ra imm s
  | .movi y rd ra imm => Sys2Proof.Machine.execMovi y rd ra imm s
  | .ldw y rd ra imm => Sys2Proof.Machine.execLdw y rd ra imm s
  | .ldh y rd ra imm => Sys2Proof.Machine.execLdh y rd ra imm s
  | .ldhu y rd ra imm => Sys2Proof.Machine.execLdhu y rd ra imm s
  | .ldb y rd ra imm => Sys2Proof.Machine.execLdb y rd ra imm s
  | .ldbu y rd ra imm => Sys2Proof.Machine.execLdbu y rd ra imm s
  | .stw y rd ra imm => Sys2Proof.Machine.execStw y rd ra imm s
  | .sth y rd ra imm => Sys2Proof.Machine.execSth y rd ra imm s
  | .stb y rd ra imm => Sys2Proof.Machine.execStb y rd ra imm s
  | .swap y rd ra rb => Sys2Proof.Machine.execSwap y rd ra rb s
  | .fadd y rd ra rb => Sys2Proof.Machine.execFadd y rd ra rb s
  | .cas y rd ra rb => Sys2Proof.Machine.execCas y rd ra rb s
  | .b y cond off => Sys2Proof.Machine.execB y cond off s
  | .call y cond off => Sys2Proof.Machine.execCall y cond off s
  | .muleSubmitCop y rd ra rb wide => Sys2Proof.Machine.execMuleSubmitCop y rd ra rb wide s
  | .mulePoll y rd ra rb wide => Sys2Proof.Machine.execMulePoll y rd ra rb wide s
  | .tdSetx y rd ra rb wide => Sys2Proof.Machine.execTdSetx y rd ra rb wide s
  | .tdRun y rd ra rb wide => Sys2Proof.Machine.execTdRun y rd ra rb wide s
  | .tdGety y rd ra rb wide => Sys2Proof.Machine.execTdGety y rd ra rb wide s
  | .ckCopFeed y rd ra rb wide m => Sys2Proof.Machine.execCkCopFeed y rd ra rb wide m s
  | .ckCopEnd y rd ra rb wide m => Sys2Proof.Machine.execCkCopEnd y rd ra rb wide m s
  | .ckCopReset y rd ra rb wide m => Sys2Proof.Machine.execCkCopReset y rd ra rb wide m s
  | .htrd y rd ra rb wide => Sys2Proof.Machine.execHtrd y rd ra rb wide s
  | .copCue y rd ra rb wide => Sys2Proof.Machine.execCopCue y rd ra rb wide s
  | .copCensus y rd ra rb wide => Sys2Proof.Machine.execCopCensus y rd ra rb wide s
  | .copCustomer y rd ra rb wide c op => Sys2Proof.Machine.execCopCustomer y rd ra rb wide c op s
  | .copTimeout y => Sys2Proof.Machine.execCopTimeout y s
  | .interruptEntry y => Sys2Proof.Machine.execInterruptEntry y s
  | .waitWake y => Sys2Proof.Machine.execWaitWake y s
  | .sourceAssert n => Sys2Proof.Machine.execSourceAssert n s
  | .sourceDeassert n => Sys2Proof.Machine.execSourceDeassert n s
  | .claim q y => Sys2Proof.Machine.execClaim q y s
  | .complete q y v => Sys2Proof.Machine.execComplete q y v s
  | .basePrioWrite q y v => Sys2Proof.Machine.execBasePrioWrite q y v s
  | .srcCfgWrite q n v => Sys2Proof.Machine.execSrcCfgWrite q n v s
  | .swiSet k v => Sys2Proof.Machine.execSwiSet k v s
  | .swiClr k v => Sys2Proof.Machine.execSwiClr k v s
  | .coalCfgWrite q k v => Sys2Proof.Machine.execCoalCfgWrite q k v s
  | .coalTimeWrite q k v => Sys2Proof.Machine.execCoalTimeWrite q k v s
  | .coalTimeout k => Sys2Proof.Machine.execCoalTimeout k s
  | .swFire q v => Sys2Proof.Machine.execSwFire q v s
  | .clauseOn c => Sys2Proof.Machine.execClauseOn c s
  | .clauseOff c => Sys2Proof.Machine.execClauseOff c s
  | .clauseSet q v => Sys2Proof.Machine.execClauseSet q v s
  | .clauseClr q v => Sys2Proof.Machine.execClauseClr q v s
  | .irqTask j => Sys2Proof.Machine.execIrqTask j s
  | .wakeTask => Sys2Proof.Machine.execWakeTask s
  | .chWrite q n ctrl v => Sys2Proof.Machine.execChWrite q n ctrl v s
  | .timerTick u c => Sys2Proof.Machine.execTimerTick u c s
  | .tmStart u c q => Sys2Proof.Machine.execTmStart u c q s
  | .tmStop u c q => Sys2Proof.Machine.execTmStop u c q s
  | .tmRestart u c q => Sys2Proof.Machine.execTmRestart u c q s
  | .tmCapture u c q => Sys2Proof.Machine.execTmCapture u c q s
  | .tmRestartAt q u c => Sys2Proof.Machine.execTmRestartAt q u c s
  | .armedRestart u c => Sys2Proof.Machine.execArmedRestart u c s
  | .groupRestart q u timed => Sys2Proof.Machine.execGroupRestart q u timed s
  | .groupStop q u => Sys2Proof.Machine.execGroupStop q u s
  | .tmrCapEdge u c rising => Sys2Proof.Machine.execTmrCapEdge u c rising s
  | .tmCapRead u c => Sys2Proof.Machine.execTmCapRead u c s
  | .tmCntRead u c => Sys2Proof.Machine.execTmCntRead u c s
  | .tmPeriodWrite u c v => Sys2Proof.Machine.execTmPeriodWrite u c v s
  | .tmCmpWrite u c v => Sys2Proof.Machine.execTmCmpWrite u c v s
  | .tmCntWrite u c v => Sys2Proof.Machine.execTmCntWrite u c v s
  | .phStart n q => Sys2Proof.Machine.execPhStart n q s
  | .phStep n q => Sys2Proof.Machine.execPhStep n q s
  | .phStop n q => Sys2Proof.Machine.execPhStop n q s
  | .phAbort q n => Sys2Proof.Machine.execPhAbort q n s
  | .phClear q n => Sys2Proof.Machine.execPhClear q n s
  | .phCopy n => Sys2Proof.Machine.execPhCopy n s
  | .phCopy2d n => Sys2Proof.Machine.execPhCopy2d n s
  | .phFill n => Sys2Proof.Machine.execPhFill n s
  | .phImm n => Sys2Proof.Machine.execPhImm n s
  | .phNop n => Sys2Proof.Machine.execPhNop n s
  | .phUnitDone n => Sys2Proof.Machine.execPhUnitDone n s
  | .phDescComplete n => Sys2Proof.Machine.execPhDescComplete n s
  | .cqRdWrite c v => Sys2Proof.Machine.execCqRdWrite c v s
  | .phChannelFault n code => Sys2Proof.Machine.execPhChannelFault n s code
  | .phSpareResume n code => Sys2Proof.Machine.execPhSpareResume n code s
  | .muleSubmit q v => Sys2Proof.Machine.execMuleSubmit q v s
  | .muleCopy => Sys2Proof.Machine.execMuleCopy s
  | .muleFill => Sys2Proof.Machine.execMuleFill s
  | .muleNop => Sys2Proof.Machine.execMuleNop s
  | .muleTileDone l => Sys2Proof.Machine.execMuleTileDone l s
  | .muleCmdComplete l => Sys2Proof.Machine.execMuleCmdComplete l s
  | .muleAbort q t => Sys2Proof.Machine.execMuleAbort q t s
  | .muleLaneFault l code => Sys2Proof.Machine.execMuleLaneFault l code s
  | .muleSpareRestart => Sys2Proof.Machine.execMuleSpareRestart s
  | .ckByte m drop => Sys2Proof.Machine.execCkByte m drop s
  | .ckEnd m byTask => Sys2Proof.Machine.execCkEnd m byTask s
  | .ckReset m byTask => Sys2Proof.Machine.execCkReset m byTask s
  | .ckFeed q m v => Sys2Proof.Machine.execCkFeed q m v s
  | .ckFeed1 q m v => Sys2Proof.Machine.execCkFeed1 q m v s
  | .audioSample tdm pdm shadow => Sys2Proof.Machine.execAudioSample tdm pdm shadow s
  | .voiceStart v => Sys2Proof.Machine.execVoiceStart v s
  | .voiceKeyOff v => Sys2Proof.Machine.execVoiceKeyOff v s
  | .voiceStop v => Sys2Proof.Machine.execVoiceStop v s
  | .voiceTrig k => Sys2Proof.Machine.execVoiceTrig k s
  | .voiceDeadlineMiss v => Sys2Proof.Machine.execVoiceDeadlineMiss v s
  | .xsLoad sc => Sys2Proof.Machine.execXsLoad sc s
  | .xsLoadDone => Sys2Proof.Machine.execXsLoadDone s
  | .xsFire sc => Sys2Proof.Machine.execXsFire sc s
  | .xscene => Sys2Proof.Machine.execXscene s
  | .tdmSlaveFrame p slots wait => Sys2Proof.Machine.execTdmSlaveFrame p slots wait s
  | .tdRunJob v => Sys2Proof.Machine.execTdRunJob v s
  | .tandemRun => Sys2Proof.Machine.execTandemRun s
  | .tandemVectorDone => Sys2Proof.Machine.execTandemVectorDone s
  | .tandemJobDone => Sys2Proof.Machine.execTandemJobDone s
  | .audioSliceFault xp l code => Sys2Proof.Machine.execAudioSliceFault xp l code s
  | .audioSliceTakeover xp l => Sys2Proof.Machine.execAudioSliceTakeover xp l s
  | .meterRead m => Sys2Proof.Machine.execMeterRead m s
  | .patrolScrub c => Sys2Proof.Machine.execPatrolScrub c s
  | .pageRemap p => Sys2Proof.Machine.execPageRemap p s
  | .sramRowSpare r left => Sys2Proof.Machine.execSramRowSpare r left s
  | .hbmCalibrate pc beamSoon => Sys2Proof.Machine.execHbmCalibrate pc beamSoon s
  | .bulkWaitExpire bank services late => Sys2Proof.Machine.execBulkWaitExpire bank services late s
  | .keepWrite q off width v fa fb => Sys2Proof.Machine.execKeepWrite q off width v fa fb s
  | .keepRead off width ca cb => Sys2Proof.Machine.execKeepRead off width ca cb s
  | .keepScrub k cb => Sys2Proof.Machine.execKeepScrub k cb s
  | .keepBlockSpare b copyB => Sys2Proof.Machine.execKeepBlockSpare b copyB s
  | .wearSave => Sys2Proof.Machine.execWearSave s
  | .keepRateSecond => Sys2Proof.Machine.execKeepRateSecond s
  | .recCommit q v => Sys2Proof.Machine.execRecCommit q v s
  | .recCommitDone => Sys2Proof.Machine.execRecCommitDone s
  | .meterAdd q m v => Sys2Proof.Machine.execMeterAdd q m v s
  | .meterLoRead m => Sys2Proof.Machine.execMeterLoRead m s
  | .keepReady => Sys2Proof.Machine.execKeepReady s
  | .droveTrainingStart => Sys2Proof.Machine.execDroveTrainingStart s
  | .droveTrainingDone role caps peer rxNext session peerKeeps marks => Sys2Proof.Machine.execDroveTrainingDone role caps peer rxNext session peerKeeps s marks
  | .droveTrainingTimeout => Sys2Proof.Machine.execDroveTrainingTimeout s
  | .droveRetrain q => Sys2Proof.Machine.execDroveRetrain q s
  | .droveResetSession q => Sys2Proof.Machine.execDroveResetSession q s
  | .droveFrameSend sel => Sys2Proof.Machine.execDroveFrameSend sel s
  | .droveDataRx f => Sys2Proof.Machine.execDroveDataRx f s
  | .droveCreditRx f => Sys2Proof.Machine.execDroveCreditRx f s
  | .droveAckRx f => Sys2Proof.Machine.execDroveAckRx f s
  | .droveNakRx f => Sys2Proof.Machine.execDroveNakRx f s
  | .droveMemWrRx f => Sys2Proof.Machine.execDroveMemWrRx f s
  | .droveMemRdReqRx f => Sys2Proof.Machine.execDroveMemRdReqRx f s
  | .droveMemRdRspRx f => Sys2Proof.Machine.execDroveMemRdRspRx f s
  | .droveCopReqRx f => Sys2Proof.Machine.execDroveCopReqRx f s
  | .droveCopRspRx f => Sys2Proof.Machine.execDroveCopRspRx f s
  | .droveIdleRx f => Sys2Proof.Machine.execDroveIdleRx f s
  | .droveBadFrame startBad => Sys2Proof.Machine.execDroveBadFrame startBad s
  | .droveReplayTimeout => Sys2Proof.Machine.execDroveReplayTimeout s
  | .droveLaneFault rx l watchdog => Sys2Proof.Machine.execDroveLaneFault rx l watchdog s
  | .droveLsRx k => Sys2Proof.Machine.execDroveLsRx k s
  | .droveLaneSwap rx mark => Sys2Proof.Machine.execDroveLaneSwap rx s mark
  | .droveLaneTestDone rx l pass => Sys2Proof.Machine.execDroveLaneTestDone rx l pass s
  | .peerReadTimeout tag => Sys2Proof.Machine.execPeerReadTimeout tag s
  | .droveRxRdWrite n v => Sys2Proof.Machine.execDroveRxRdWrite n v s
  | .droveTxWrWrite n v => Sys2Proof.Machine.execDroveTxWrWrite n v s
  | .netRxFrame f wait => Sys2Proof.Machine.execNetRxFrame f wait s
  | .netTxKick t v => Sys2Proof.Machine.execNetTxKick t v s
  | .netTxComplete wait => Sys2Proof.Machine.execNetTxComplete wait s
  | .ptpMeasSubmit q v => Sys2Proof.Machine.execPtpMeasSubmit q v s
  | .ptpLockTimeout => Sys2Proof.Machine.execPtpLockTimeout s
  | .sfpPinChange los modAbs => Sys2Proof.Machine.execSfpPinChange los modAbs s
  | .netLinkChange up an => Sys2Proof.Machine.execNetLinkChange up an s
  | .statLoRead k => Sys2Proof.Machine.execStatLoRead k s
  | .gpioEdge q => Sys2Proof.Machine.execGpioEdge q s
  | .gpioOutWrite b v => Sys2Proof.Machine.execGpioOutWrite b v s
  | .gpioOutMwLo b v => Sys2Proof.Machine.execGpioOutMwLo b v s
  | .gpioOutMwHi b v => Sys2Proof.Machine.execGpioOutMwHi b v s
  | .gpioSet q => Sys2Proof.Machine.execGpioSet q s
  | .gpioClear q => Sys2Proof.Machine.execGpioClear q s
  | .gpioToggle q => Sys2Proof.Machine.execGpioToggle q s
  | .pinCfgWrite r q v => Sys2Proof.Machine.execPinCfgWrite r q v s
  | .funcGapEnd q => Sys2Proof.Machine.execFuncGapEnd q s
  | .gpioLockKey r b v => Sys2Proof.Machine.execGpioLockKey r b v s
  | .gpioLockMask r b v => Sys2Proof.Machine.execGpioLockMask r b v s
  | .bankRailChange b present v33 => Sys2Proof.Machine.execBankRailChange b present v33 s
  | .pwrRun q => Sys2Proof.Machine.execPwrRun q s
  | .pwrStandby q => Sys2Proof.Machine.execPwrStandby q s
  | .pwrDeep q => Sys2Proof.Machine.execPwrDeep q s
  | .standbyEntryDone noRes => Sys2Proof.Machine.execStandbyEntryDone noRes s
  | .arrayPgRise => Sys2Proof.Machine.execArrayPgRise s
  | .arrayPgTimeout => Sys2Proof.Machine.execArrayPgTimeout s
  | .standbyExitDone => Sys2Proof.Machine.execStandbyExitDone s
  | .deepCheckpoint y => Sys2Proof.Machine.execDeepCheckpoint y s
  | .deepEntryDone => Sys2Proof.Machine.execDeepEntryDone s
  | .swPgRise => Sys2Proof.Machine.execSwPgRise s
  | .swPgTimeout => Sys2Proof.Machine.execSwPgTimeout s
  | .deepExitDone => Sys2Proof.Machine.execDeepExitDone s
  | .powerOnReset => Sys2Proof.Machine.execPowerOnReset s
  | .aonMonitorTrip => Sys2Proof.Machine.execAonMonitorTrip s
  | .pinReset low => Sys2Proof.Machine.execPinReset low s
  | .swReset q v => Sys2Proof.Machine.execSwReset q v s
  | .watchdogReset => Sys2Proof.Machine.execWatchdogReset s
  | .herdClockLock => Sys2Proof.Machine.execHerdClockLock s
  | .hbmTrainDone => Sys2Proof.Machine.execHbmTrainDone s
  | .bootZeroFillDone => Sys2Proof.Machine.execBootZeroFillDone s
  | .headJoinWaitTimeout h => Sys2Proof.Machine.execHeadJoinWaitTimeout h s
  | .thermtrip => Sys2Proof.Machine.execThermtrip s
  | .tapReset => Sys2Proof.Machine.execTapReset s
  | .extest => Sys2Proof.Machine.execExtest s
  | .idcode => Sys2Proof.Machine.execIdcode s
  | .samplePreload pins data => Sys2Proof.Machine.execSamplePreload pins data s
  | .clamp => Sys2Proof.Machine.execClamp s
  | .highz => Sys2Proof.Machine.execHighz s
  | .bypass op => Sys2Proof.Machine.execBypass op s
  | .dbgChal => Sys2Proof.Machine.execDbgChal s
  | .dbgUnlock v => Sys2Proof.Machine.execDbgUnlock v s
  | .dbgAccess v => Sys2Proof.Machine.execDbgAccess v s
  | .dbgMapClear v => Sys2Proof.Machine.execDbgMapClear v s
  | .dbgMeterSet v => Sys2Proof.Machine.execDbgMeterSet v s
  | .resetRelease => Sys2Proof.Machine.execResetRelease s
  | .unitSelftestDone cls idx pass => Sys2Proof.Machine.execUnitSelftestDone cls idx pass s
  | .thermtripClear => Sys2Proof.Machine.execThermtripClear s

end Sys2Proof.Machine
end

