-- ==== Sys2Proof/Machine/Step.lean ====
section
/-! DEFINITION. One step of the device: the command at the front of the queue, or a period of the herd clock. -/
namespace Sys2Proof.Machine

/-- An empty queue: one period of the herd clock passes (R230), and nothing else happens (log entry 4). -/
def State.idle (s : State) : State := s.upd (fun d => d.pass 1)

/-- A step takes the command at the front of the queue and runs it with the queue's rest.
DESIGN CHOICE, log entry 4; DESIGN CHOICE, log entry 6; DESIGN CHOICE, log entry 13; DESIGN CHOICE, log entry 17. -/
def step (s : State) : Host.Outcome State Fault Refusal :=
  match s.pending with
  | [] => .next s.idle
  | c :: cs => exec c { s with pending := cs }

/-- The state with the command that a word spells put at the front of its queue. DESIGN CHOICE, log entry 6. -/
def State.withFetchWord (s : State) (nbits w : Nat) : State :=
  match decodeTableWord nbits w with
  | some c => { s with pending := c :: s.pending }
  | none => s

end Sys2Proof.Machine
end

