-- ==== Sys2Proof/WellFormed.lean ====
section
/-! DEFINITION. Well-formed commands: operands that a type does not bound lie in the range that the spec gives them. -/
namespace Sys2Proof

/-- A requester exists: 8 yokes, 32 Packhorse channels, 8 line scripts (R19). -/
def Req.wf : Req → Bool
  | .yoke y => y < 8
  | .channel n => n < 32
  | .script h => h < 8
  | .jtag | .loader | .peer => true

/-- The fields of a Drove frame fit their places (R493). -/
def DrvFrame.wf (f : DrvFrame) : Bool :=
  f.ty < 256 && f.stream < 64 && f.seq < 65536 && f.payload.length ≤ 4096 &&
  (match f.cr with | some (s, n) => s < 64 && n < 65536 | none => true) &&
  (match f.ack with | some a => a < 65536 | none => true)

/-- An access width that some requester makes: 8, 16, 32 or 64 bits (R6). -/
def widthOk (n : Nat) : Bool := n == 1 || n == 2 || n == 4 || n == 8

/-- Well-formed commands. Commands that no arm names have operands whose types bound them, or that may take any value. -/
def Instr.wf : Instr → Bool
  | .regWrite q off width _ => q.wf && off < 0x10000000 && widthOk width
  | .claim q _ | .complete q _ _ | .basePrioWrite q _ _ | .srcCfgWrite q _ _ | .coalCfgWrite q _ _ | .coalTimeWrite q _ _
  | .swFire q _ | .clauseSet q _ | .clauseClr q _ | .chWrite q _ _ _ | .recCommit q _ | .meterAdd q _ _ | .toDraught q _
  | .modeWrite q _ | .genBump q _ | .selftestReq q _ | .yokeRestart q _ | .yokeResume q _ | .groupRestart q _ _ | .groupStop q _
  | .tmRestartAt q _ _ | .droveRetrain q | .droveResetSession q | .phAbort q _ | .phClear q _ | .muleSubmit q _ | .muleAbort q _
  | .ckFeed q _ _ | .ckFeed1 q _ _ | .pinCfgWrite q _ _ | .gpioLockKey q _ _ | .gpioLockMask q _ _ | .ptpMeasSubmit q _ | .htSet q _
  | .verify q | .programA q | .programB q | .programGolden q | .bootOk q _ | .slotCtrlWrite q _ | .minSerialWrite q _
  | .keyRevokeWrite q _ | .keyHashWrite q _ _ _ | .repenRequest q _ | .pwrRun q | .pwrStandby q | .pwrDeep q | .swReset q _ => q.wf
  | .tmStart _ _ q | .tmStop _ _ q | .tmRestart _ _ q | .tmCapture _ _ q | .phStart _ q | .phStep _ q | .phStop _ q => q.all Req.wf
  | .keepWrite q off width _ _ _ => q.wf && off < 0x10000 && widthOk width
  | .keepRead off width _ _ => off < 0x10000 && widthOk width
  | .pageRemap p => p < 0xC00000
  | .sramRowSpare r _ => r < 16384
  | .armedRestart _ c => c.all (· < 4)
  | .compPixelLate _ x => x < 7680
  | .sideTransactionDone _ _ wrote data => wrote ≤ 16 && data.length ≤ 16
  | .droveCreditRx f | .droveAckRx f | .droveNakRx f | .droveCopReqRx f | .droveIdleRx f | .droveDataRx f | .droveMemWrRx f
  | .droveMemRdReqRx f | .droveMemRdRspRx f | .droveCopRspRx f => f.wf
  | .droveTrainingDone _ _ _ rxNext _ _ marks => rxNext < 65536 && marks.all (·.lane < 9)
  | .droveLaneSwap _ mark => mark.lane < 9
  | .peerReadTimeout tag => tag < 65536
  | .audioSample tdm pdm _ => tdm.length ≤ 8 && tdm.all (·.length ≤ 32) && pdm.length ≤ 16
  | .tdmSlaveFrame _ slots _ => slots.length ≤ 32
  | .herdFrameReceive _ _ f _ t _ => f.length == 123 && t < 16
  | .repenProbeDone bad _ => bad.all (· < 8)
  | .repenCellsLoaded lost => lost.all (· < 8)
  | .unitSelftestDone cls _ _ => 2 ≤ cls && cls ≤ 6
  | _ => true

end Sys2Proof
end

