-- ==== Sys2Proof/Safety.lean ====
section
/-! DEFINITION. What counts as a safe run, in the terms that statements use. -/
namespace Sys2Proof.Machine

/-- The bulk memories are in canonical form. -/
def State.Ok (s : State) : Prop := s.mem.wf = true

/-- A command answers a next state with a property. -/
def Gives (i : Instr) (s : State) (P : State → Prop) : Prop := ∃ t, exec i s = .next t ∧ P t

/-- The registers of the CONJ page (R352), which the firing of an event changes. -/
def InConj (o : Nat) : Prop := 0x50000 ≤ o ∧ o < 0x60000

/-- What a command leaves: the memories, the queue, the registers outside a set, and every part of the die that `g` does not take from its
first argument. `g d e` is d with the parts that may change taken from e. -/
def Leaves (g : Dev → Dev → Dev) (p : Nat → Prop) (s t : State) : Prop :=
  t.mem = s.mem ∧ t.pending = s.pending ∧ g t.dev s.dev = s.dev ∧ ∀ o, ¬ p o → t.dev.rd o = s.dev.rd o

/-- Only registers of a set change, and the answer to a requester. -/
def OnlyRegs (p : Nat → Prop) (s t : State) : Prop := Leaves (fun d e => { d with regs := e.regs, resp := e.resp }) p s t

/-- Only registers of a set change, and what the firing of events changes: task inputs and the CONJ page. -/
def RegsAndEvents (p : Nat → Prop) (s t : State) : Prop :=
  Leaves (fun d e => { d with regs := e.regs, resp := e.resp, tasks := e.tasks }) (fun o => p o ∨ InConj o) s t

/-- The registers that an entry of the fault log and a write of the keep store may change (R286, R478, R479, R486). -/
def LogReg (o : Nat) : Prop :=
  o = Reg.ST_FLAGS ∨ o = Reg.FAULT_COUNT ∨ o = Reg.LOG_DROPS ∨ o = Reg.KEEP_FLAGS ∨ o = Reg.WEAR_ADDR ∨ o = Reg.RATE_ADDR

/-- Only registers of a set change, and what firings and entries of the fault log change; the words of the keep window that firmware may
write stay. -/
def RegsEventsLog (p : Nat → Prop) (s t : State) : Prop :=
  Leaves (fun d e => { d with regs := e.regs, resp := e.resp, tasks := e.tasks, keep := e.keep, logSecond := e.logSecond, logKeys := e.logKeys })
    (fun o => p o ∨ InConj o ∨ LogReg o) s t ∧ ∀ k < 0x3800, keepWord t.dev k = keepWord s.dev k

/-- The registers of the page of post p of flock f, 8 for its spare (R106). -/
def InCell (f p o : Nat) : Prop := cellOff f p 0 ≤ o ∧ o < cellOff f p 0 + 0x10000

/-- The registers of the pages of all heads. -/
def InHeads (o : Nat) : Prop := 0x2000000 ≤ o ∧ o < 0x2800000

/-- A timer output after an action: 0 none, 1 set, 2 clear, 3 toggle (R360). -/
def outAfter (act : Nat) (l : Bool) : Bool :=
  match act with
  | 1 => true
  | 2 => false
  | 3 => !l
  | _ => l

/-- The count after a tick of timer channel (u, c): 0 or the start value at a period match, else one more (R354, R359). -/
def tickCnt (d : Dev) (u c : Nat) : Word :=
  if tmPeriodMatch d u c then (if (d.tm u c).late then w32 (tmStartValue d u c) else 0) else d.rd (Reg.TM_CNT u c) + 1
/-- The compare value after a tick: at a period match the buffered one, if any (R358). -/
def tickCmp (d : Dev) (u c : Nat) : Word :=
  if tmPeriodMatch d u c then (d.tm u c).cmpBuf.getD (d.rd (Reg.TM_CMP u c)) else d.rd (Reg.TM_CMP u c)
/-- The output after a tick: the period match acts first, then the compare match (R354, R360). -/
def tickOut (d : Dev) (u c : Nat) : Bool :=
  let old := d.bit (Reg.TM_STATUS u c) 1
  let mid := if tmPeriodMatch d u c then outAfter (d.fld (Reg.TM_CTRL u c) 20 19) old else old
  if tickCnt d u c = tickCmp d u c then outAfter (d.fld (Reg.TM_CTRL u c) 22 21) mid else mid
/-- What one tick makes of a channel (R354, R358 to R360). -/
def Ticked (d e : Dev) (u c : Nat) : Prop :=
  e.rd (Reg.TM_CNT u c) = tickCnt d u c ∧ e.rd (Reg.TM_CMP u c) = tickCmp d u c ∧ e.bit (Reg.TM_STATUS u c) 1 = tickOut d u c ∧
  e.rd (Reg.TM_PERIOD u c) =
    (if tmPeriodMatch d u c then (d.tm u c).perBuf.getD (d.rd (Reg.TM_PERIOD u c)) else d.rd (Reg.TM_PERIOD u c)) ∧
  tmRun e u c = !(tmPeriodMatch d u c && d.bit (Reg.TM_CTRL u c) 18) ∧
  e.bit (Reg.TM_FLAGS u c) 0 = (d.bit (Reg.TM_FLAGS u c) 0 || tmPeriodMatch d u c) ∧
  e.bit (Reg.TM_FLAGS u c) 1 = (d.bit (Reg.TM_FLAGS u c) 1 || decide (tickCnt d u c = tickCmp d u c)) ∧
  (e.tm u c).late = false ∧ (tmPeriodMatch d u c = true → (e.tm u c).perBuf = none ∧ (e.tm u c).cmpBuf = none)

/-- The registers of timer channel (u, c) that a tick may change. -/
def TickReg (u c o : Nat) : Prop :=
  o = Reg.TM_CNT u c ∨ o = Reg.TM_PERIOD u c ∨ o = Reg.TM_CMP u c ∨ o = Reg.TM_STATUS u c ∨ o = Reg.TM_FLAGS u c

/-- Where a command of timer channel (u, c) comes from, `k` its place among the channel's tasks: a task that waits with mark `o`, which leaves
`d`; or a TM_CMD write, OPEN for a requester without Keeper privilege (R356). -/
def tmFrom (s : Dev) (u c k : Nat) (q : Option Req) (d : Dev) (o : Bool) : Prop :=
  match q with
  | some q => d = s ∧ o = !s.keeper q
  | none => ∃ a l, s.tasksAt (0x200 + 4 * (4 * u + c) + k) = a :: l ∧ d = s.setTasks (0x200 + 4 * (4 * u + c) + k) l ∧ o = a.isOpen

/-- Where a command of Packhorse channel n comes from, `k` its place among the channel's tasks: a task, which leaves `d` and which the run
notes as `a`; or a CH_CMD write of a requester that the channel's PRIV lets write (R376, R386). -/
def phFrom (s : Dev) (n k : Nat) (q : Option Req) (d : Dev) (a : Option Arrival) : Prop :=
  match q with
  | some q => (s.bit (Reg.PCH_CFG n) 3 = true → s.keeper q = true) ∧ d = s ∧ a = none
  | none => ∃ x l, s.tasksAt (0x100 + 4 * n + k) = x :: l ∧ d = s.setTasks (0x100 + 4 * n + k) l ∧ a = some x

/-- A command comes from a write, or from a task input that holds a task. -/
def FromTask (s : Dev) (i : Nat) (byTask : Bool) : Prop := byTask = true → s.tasksAt i ≠ []

/-- The bulk memories are as they were. -/
def SameMem (s t : State) : Prop := t.mem = s.mem

/-- What commands that read memory leave of it: the bytes; and the queue. -/
def SameBytes (s t : State) : Prop :=
  t.mem.bytes = s.mem.bytes ∧ t.mem.tcm = s.mem.tcm ∧ t.mem.flash = s.mem.flash ∧ t.pending = s.pending

/-- A byte of the system memories. -/
def State.byteAt (s : State) (a : Nat) : Byte := Store.get (fun _ => 0) s.mem.bytes a

/-- What a command that stores to [a, a + n) of the system memories leaves: the other bytes of all memories, the queue, the registers
outside a set, and every part of the die that `g` does not take from its first argument. -/
def Stores (g : Dev → Dev → Dev) (p : Nat → Prop) (a n : Nat) (s t : State) : Prop :=
  (∀ k, k < a ∨ a + n ≤ k → t.byteAt k = s.byteAt k) ∧ t.mem.tcm = s.mem.tcm ∧ t.mem.flash = s.mem.flash ∧ t.pending = s.pending ∧
  g t.dev s.dev = s.dev ∧ ∀ o, ¬ p o → t.dev.rd o = s.dev.rd o

/-- Every word that [a, a + n) touches holds data that the code accepts: no poison, no error. -/
def CleanWords (s : State) (a n : Nat) : Prop :=
  ∀ w, a / 32 ≤ w → w < a / 32 + wordSpan a n → s.mem.poison.contains w = false ∧ Store.get (fun _ => 0) s.mem.err w = 0

/-- The next verb of the script of head h is one of opcode `op` that fits its line's budget (R160, R175). -/
def VerbAt (s : State) (h op words cost : Nat) : Prop :=
  nextVerb s.dev h = some op ∧ (s.dev.ls h).pc + words ≤ 4096 ∧ (s.dev.ls h).slots + cost ≤ 96

/-- The script goes on after a verb, or ends after word 4095 (R159). -/
def VerbDone (s t : State) (h words cost : Nat) : Prop :=
  (t.dev.ls h).pc = (s.dev.ls h).pc + words ∧ (t.dev.ls h).ended = decide (4096 ≤ (s.dev.ls h).pc + words) ∧
  (t.dev.ls h).slots = (s.dev.ls h).slots + cost ∧ (t.dev.ls h).line = (s.dev.ls h).line ∧ (t.dev.ls h).pixel = (s.dev.ls h).pixel

/-- A verb error of head h ends the frame's script (R168). -/
def VerbError (h : Nat) (s t : State) : Prop :=
  (t.dev.ls h).ended = true ∧ t.dev.bit (Reg.LS_FLAGS h) 2 = true ∧ t.dev.bit (Reg.LS_POS h) 31 = true ∧
  Leaves (fun d e => { d with regs := e.regs, scripts := e.scripts }) (fun o => o = Reg.LS_POS h ∨ o = Reg.LS_FLAGS h) s t

/-- The staged writes to a space: a cell's registers, head h's compositor or its matrices (R164). -/
def stagedIn (d : Dev) (h space f p : Nat) : List Staged :=
  match space with
  | 0 => (d.cell f p).staged
  | 1 => (d.ls h).comp
  | _ => (d.ls h).mat

/-- The writes that a verb stages from byte offset o: each takes effect where R164 places it. -/
def stagedAt (d : Dev) (h space o : Nat) (op : StageOp) (vs : List Word) : List Staged :=
  vs.zipIdx.map (fun v =>
    let w := placeAt d h (space = 1 && pixelExact (o + 4 * v.2))
    { frame := w.1, line := w.2.1, pixel := w.2.2, off := o + 4 * v.2, op := op, v := v.1 })

/-- R174 accepts the target of a verb's first word for n registers, and no re-pen runs in its flock. -/
def TargetOk (d : Dev) (h : Nat) (w : Word) (n : Nat) : Prop :=
  targetRange (fld w 27 26) (4 * fld w 13 0) n = true ∧
  (fld w 27 26 = 0 → flockHead d (fld w 25 22) = h ∧ fld w 21 18 < 8 ∧ (d.flock (fld w 25 22)).repen = none)

/-- The die changes only in what the firing of an event changes (R340 to R347). -/
def FiringOnly (d e : Dev) : Prop := { e with regs := d.regs, tasks := d.tasks } = d ∧ ∀ o, ¬ InConj o → e.rd o = d.rd o

/-- A frame of a type is one that an ACTIVE receiver performs: it keeps its row and, when sequenced, comes in its turn (R494, R499). -/
def Accepts (d : Dev) (ty : Nat) (f : DrvFrame) : Prop :=
  drvState d = 2 ∧ frameRow { f with ty := ty } = true ∧ frameReserved { f with ty := ty } = true ∧ (sequenced ty = true → f.seq = d.drv.next)

/-- A sequenced frame has been accepted (R499 to R501). -/
def Took (s t : Dev) : Prop :=
  t.drv.next = (s.drv.next + 1) % 65536 ∧ t.drv.ackDue = true ∧ t.drv.nakAt = none ∧ t.drv.badRun = 0

/-- The registers that the acknowledgement and the credits of a received frame may change (R497, R502). -/
def RxReg (o : Nat) : Prop := o = Reg.REPLAY_USED ∨ ∃ k < 64, o = Reg.TX_CREDITS k

/-- The commands by which a frame arrives, with the frame type of each. -/
def RxCommand (f : DrvFrame) (i : Instr) (ty : Nat) : Prop :=
  (i = .droveDataRx f ∧ ty = 1) ∨ (i = .droveCreditRx f ∧ ty = 2) ∨ (i = .droveAckRx f ∧ ty = 3) ∨ (i = .droveNakRx f ∧ ty = 4) ∨
  (i = .droveMemWrRx f ∧ ty = 5) ∨ (i = .droveMemRdReqRx f ∧ ty = 6) ∨ (i = .droveMemRdRspRx f ∧ ty = 7) ∨ (i = .droveCopReqRx f ∧ ty = 8) ∨
  (i = .droveCopRspRx f ∧ ty = 9) ∨ (i = .droveIdleRx f ∧ ty = 10)

/-- A NAK was sent since the last frame taken, and less than 2 µs ago (R501). -/
def nakHeld (d : Dev) : Bool := match d.drv.nakAt with | some t => d.clk < t + 2000 | none => false

/-- No swap of a transmit lane can take place before a frame of n blocks has left (R490, R509). -/
def NoSwapWithin (d : Dev) (n : Nat) : Prop := swapDue d = none ∨ d.drv.blocks % (8 * 16384) + n < 8 * 16384

/-- The slot that the loader chooses: golden when the keep store has lost SLOT, when SLOT names it or nothing, or after two failed boots
(R62). -/
def bootSlot (bad : Bool) (d : Dev) : Nat := if bad || slotSel d == 3 || slotSel d == 2 || failCount d ≥ 2 then 2 else slotSel d

/-- Yoke y is at an instruction boundary and w is the word at its PC (R295). -/
def OxAt (s : State) (y : Nat) (w : Word) : Prop := oxReady s.dev y = true ∧ oxFetch s y = some w

/-- The registers that the retirement of an instruction of yoke y, its trap or the checkpoint that may follow it change (R275, R300). -/
def YokeReg (y o : Nat) : Prop :=
  o = Reg.Y_STATUS y ∨ o = Reg.Y_PC y ∨ o = Reg.YOKE_STATE y ∨ o = Reg.CKPT_HT y ∨ o = Reg.Y_TRAPS y ∨ o = Reg.REGIME_STATUS ∨ o = Reg.MODE ∨
  o = Reg.ST_STATUS ∨ o = Reg.ST_FLAGS

/-- What an instruction of yoke y that acts on no memory and no other unit leaves: the memories, the queue, the other yokes, the other
registers, and every other part of the die but the units and self-tests that a planned swap of R282 takes and the hold on MODE that the end
of a move to Draught lifts (R26). -/
def YokeFrame (y : Nat) (s t : State) : Prop :=
  (∀ z, z ≠ y → t.dev.yk z = s.dev.yk z) ∧
  Leaves (fun d e => { d with
    regs := e.regs, yokes := e.yokes, units := e.units, testing := e.testing, rail := { d.rail with frozen := e.rail.frozen } }) (YokeReg y) s t

/-- An instruction of yoke y retires: its programmer's model becomes c, and Y_PC takes its address. -/
def Retires (y : Nat) (c : OxCtx) (s t : State) : Prop :=
  ctxOf t y = c ∧ t.dev.rd (Reg.Y_PC y) = (ctxOf s y).pc ∧ YokeFrame y s t

/-- The programmer's model at the entry of a trap: PC and the status are saved, and with EXL 1 it is a double trap (R300). -/
def trapCtx (c : OxCtx) (cause : Nat) (info : Word) : OxCtx :=
  if c.exl then { c with dtpc := c.pc, pc := c.vbase + 0x40 }
  else { c with
    epc := c.pc
    estat := putFld (c.flags &&& 0x3F) 8 8 (if c.ie then 1 else 0)
    ecause := w32 cause, einfo := info, ie := false, exl := true, pc := c.vbase }

/-- An instruction of yoke y traps with a cause and INFO. -/
def Traps (y cause : Nat) (info : Word) (s t : State) : Prop :=
  ctxOf t y = trapCtx (ctxOf s y) cause info ∧ ((ctxOf s y).exl = false → t.dev.fld (Reg.Y_STATUS y) 9 5 = cause) ∧ YokeFrame y s t

/-- The programmer's model at the entry of an interrupt (R301). -/
def irqCtx (c : OxCtx) : OxCtx := { c with
  epc := c.pc
  estat := putFld (c.flags &&& 0x3F) 8 8 (if c.ie then 1 else 0)
  ecause := 16, einfo := 0, ie := false, exl := true, waiting := false, pc := c.vbase + 0x20 }

/-- The programmer's model after a push of v, where the return stack takes it (R312). -/
def pushCtx (c : OxCtx) (v : Word) : OxCtx :=
  { c with rs := Store.set (fun _ => 0) c.rs c.ptr v, ptr := (c.ptr + 1) % 16, depth := min 16 (c.depth + 1) }
/-- The programmer's model after a pop (R312). -/
def popCtx (c : OxCtx) : OxCtx := { c with ptr := (c.ptr + 15) % 16, depth := c.depth - 1, rsu := c.rsu || c.depth == 0 }

/-- The programmer's model after a coprocessor's response: word 0 to rd, with WIDE word 1 to rd + 1, and C takes FAIL (R313). -/
def copCtx (c : OxCtx) (rd : Nat) (wide : Bool) (w0 w1 : Word) (fail : Bool) : OxCtx :=
  { (if wide then (c.setR rd w0).setR (rd + 1) w1 else c.setR rd w0).setFlag 2 fail with pc := c.pc + 4 }
/-- A coprocessor has answered yoke y. -/
def Answered (y : Nat) (c : OxCtx) (s t : State) : Prop :=
  ctxOf t y = c ∧ (∀ z, z ≠ y → t.dev.yk z = s.dev.yk z) ∧ SameMem s t ∧ t.pending = s.pending
/-- Yoke y stands at the word of a request to coprocessor c that it may make, and replays no log. -/
def CopAt (s : State) (y c : Nat) (w : Word) : Prop :=
  OxAt s y w ∧ (s.dev.yk y).replay = none ∧ copAllowed s.dev y c = true ∧ copAbsent s.dev c = false

/-- The programmer's model with flags given in order: 0 Z, 1 N, 2 C, 3 V, 4 DC, 5 DV. -/
def setFlags (l : List (Nat × Bool)) (c : OxCtx) : OxCtx := l.foldl (fun c p => c.setFlag p.1 p.2) c
/-- Z and N of a binary result. -/
def znOf (r : Word) : List (Nat × Bool) := [(0, r == 0), (1, bitOf r 31)]
/-- Z and N of a decimal result, and DC (R311). -/
def decOf (r : Word) (dc : Bool) : List (Nat × Bool) := [(0, r == 0), (1, decide (5 ≤ r.toNat / 2 ^ 28)), (4, dc)]
/-- DV sets on an invalid digit, and is sticky. -/
def dvOf (bad : Bool) : List (Nat × Bool) := if bad then [(5, true)] else []

end Sys2Proof.Machine
end

