-- ==== Sys2Proof/Certificates/Slice0/Obligations.lean ====
section
/-! DEFINITION. The statements about the device that the provers settle. -/
open Sys2Proof Sys2Proof.Machine

/-! ### Interrupts (chapter 12) -/

/-- R324: a source that becomes pending is offered to the eligible yoke of lowest running priority, the first in the order LAST + 1,
LAST + 2, … among equals; with no eligible yoke it is parked.
Clauses that rest on a choice or reading of the model: log entry 13. -/
def Obligations.RaisedSourceGoesToLowestPriorityYoke : Prop :=
  ∀ (s : State) (n : Fin 512), srcLevel s.dev n = true → heldBy s.dev n = none → (s.dev.src n).st = .idle → srcPending s.dev n = true →
    Gives (.sourceAssert n) s (fun t =>
      ((∃ y < 8, (t.dev.src n).st = .offered y ∧ eligible s.dev n y = true ∧
          ∀ z < 8, eligible s.dev n z = true → offerPrio s.dev y < offerPrio s.dev z ∨
            (offerPrio s.dev y = offerPrio s.dev z ∧ (y + 7 - (s.dev.src n).last % 8) % 8 ≤ (z + 7 - (s.dev.src n).last % 8) % 8)) ∨
        ((t.dev.src n).st = .parked ∧ ∀ z < 8, eligible s.dev n z = false)) ∧
      (t.dev.src n).last = (s.dev.src n).last ∧ (∀ m, m ≠ n.val → t.dev.src m = s.dev.src m) ∧
      Leaves (fun d e => { d with srcs := e.srcs }) (fun _ => False) s t)

/-- R328: a read of CLAIM[y] by yoke y takes the source offered to y with the highest PRIO, and among equals the highest number; it
marks it claimed, pushes it with its PRIO, and sets its LAST to y. Nothing else is claimed, and no register changes. With none offered, a full
stack or another requester, the read returns 0 and changes nothing, but a full stack sets STACK_FULL. -/
def Obligations.ClaimTakesHighestOfferedSource : Prop :=
  (∀ (s : State) (y : Fin 8) (m : Nat), (s.dev.bwStack y).length < 8 → m ≠ 0 →
    (s.dev.src m).st = .offered y.val →
    Gives (.claim (.yoke y) y) s (fun t => ∃ n, n ≠ 0 ∧ (s.dev.src n).st = .offered y.val ∧
      (∀ k, k ≠ 0 → (s.dev.src k).st = .offered y.val →
        srcPrio s.dev k < srcPrio s.dev n ∨ (srcPrio s.dev k = srcPrio s.dev n ∧ k ≤ n)) ∧
      t.dev.resp = .ok (w32 n) ∧ (t.dev.src n).st = .claimed y.val ∧ (t.dev.src n).last = y.val ∧
      t.dev.bwStack y = (n, srcPrio s.dev n) :: s.dev.bwStack y ∧ (∀ z, z ≠ y.val → t.dev.bwStack z = s.dev.bwStack z) ∧
      (∀ k, k ≠ n → isClaimed t.dev k = isClaimed s.dev k) ∧
      Leaves (fun d e => { d with srcs := e.srcs, bwStacks := e.bwStacks, resp := e.resp }) (fun _ => False) s t)) ∧
  (∀ (s : State) (y : Fin 8), (s.dev.bwStack y).length < 8 →
    (∀ m, m ≠ 0 → (s.dev.src m).st ≠ .offered y.val) →
    Gives (.claim (.yoke y) y) s (fun t => t.dev.resp = .ok 0 ∧ OnlyRegs (fun _ => False) s t)) ∧
  (∀ (s : State) (y : Fin 8), 8 ≤ (s.dev.bwStack y).length →
    Gives (.claim (.yoke y) y) s (fun t => t.dev.resp = .ok 0 ∧ t.dev.bit Reg.BW_FLAGS 2 = true ∧ OnlyRegs (· = Reg.BW_FLAGS) s t)) ∧
  ∀ (s : State) (y : Fin 8) (q : Req), q ≠ .yoke y →
    Gives (.claim q y) s (fun t => t.dev.resp = .ok 0 ∧ OnlyRegs (fun _ => False) s t)

/-- R329, R325, R332: the ends of a source's turn, and what an enabled set counts. COMPLETE pops the source on top of the stack and leaves it
unclaimed, is denied to another requester, ignores 0 and notes any other number as COMPLETE_ERR; a fallen level withdraws an offered or parked
source, and leaves a claimed one and a member of an enabled set where they are; an assertion that an enabled set has not seen counts once, and
fires the set when its count reaches COUNT_TH; a set whose time has run out is fired.
Clauses that rest on a choice or reading of the model: log entry 22. -/
def Obligations.SourceTurnsAndSetsEnd : Prop :=
  (∀ (s : State) (y : Fin 8) (v : Word) (p : Nat) (l : List (Nat × Nat)), fld v 8 0 ≠ 0 → s.dev.bwStack y = (fld v 8 0, p) :: l →
    Gives (.complete (.yoke y) y v) s (fun t => t.dev.bwStack y = l ∧ isClaimed t.dev (fld v 8 0) = false ∧ t.dev.resp = .ok 0 ∧
      (∀ z, z ≠ y.val → t.dev.bwStack z = s.dev.bwStack z) ∧ (∀ k, k ≠ fld v 8 0 → isClaimed t.dev k = isClaimed s.dev k) ∧
      (∀ j, heldBy s.dev (fld v 8 0) ≠ some j → t.dev.coal j = s.dev.coal j) ∧
      Leaves (fun d e => { d with srcs := e.srcs, bwStacks := e.bwStacks, coals := e.coals, resp := e.resp }) (fun _ => False) s t)) ∧
  (∀ (s : State) (q : Req) (y : Fin 8) (v : Word),
    q ≠ .yoke y ∨ fld v 8 0 = 0 ∨ (∀ e ∈ (s.dev.bwStack y).head?, e.1 ≠ fld v 8 0) →
    Gives (.complete q y v) s (fun t => t.dev.resp = (if q = .yoke y then .ok 0 else .accessError) ∧
      t.dev.bit Reg.BW_FLAGS 1 = (s.dev.bit Reg.BW_FLAGS 1 || decide (q = .yoke y ∧ fld v 8 0 ≠ 0)) ∧
      OnlyRegs (fun o => o = Reg.BW_FLAGS ∧ q = .yoke y ∧ fld v 8 0 ≠ 0) s t)) ∧
  (∀ (s : State) (n : Fin 512), srcLevel s.dev n = false →
    Gives (.sourceDeassert n) s (fun t =>
      (t.dev.src n).st = (if heldBy s.dev n = none ∧ isClaimed s.dev n = false then .idle else (s.dev.src n).st) ∧
      (∀ m, m ≠ n.val → t.dev.src m = s.dev.src m) ∧ Leaves (fun d e => { d with srcs := e.srcs }) (fun _ => False) s t)) ∧
  (∀ (s : State) (n : Fin 512) (k : Nat), srcLevel s.dev n = true → heldBy s.dev n = some k →
    Gives (.sourceAssert n) s (fun t =>
      (t.dev.coal k).count = (if (s.dev.src n).seen = true then (s.dev.coal k).count else min ((s.dev.coal k).count + 1) 1023) ∧
      ((s.dev.src n).seen = false → (t.dev.coal k).fired =
        ((s.dev.coal k).fired || decide (s.dev.fld (Reg.COAL_CFG k) 25 16 ≤ min ((s.dev.coal k).count + 1) 1023))) ∧
      (t.dev.src n).seen = true ∧ (∀ j, j ≠ k → t.dev.coal j = s.dev.coal j) ∧
      (∀ m, m ≠ n.val → m ≠ coalRep s.dev k → t.dev.src m = s.dev.src m) ∧
      Leaves (fun d e => { d with srcs := e.srcs, coals := e.coals }) (fun _ => False) s t)) ∧
  (∀ (s : State) (k : Fin 32), coalEn s.dev k = true → (s.dev.coal k).timing = true → (s.dev.coal k).fired = false →
    (s.dev.rd (Reg.COAL_TIME k)).toNat * 1000 ≤ s.dev.clk - (s.dev.coal k).firstClk →
    Gives (.coalTimeout k) s (fun t => (t.dev.coal k).fired = true ∧ (t.dev.coal k).count = (s.dev.coal k).count ∧
      (∀ j, j ≠ k.val → t.dev.coal j = s.dev.coal j) ∧ (∀ m, m ≠ coalRep s.dev k → t.dev.src m = s.dev.src m) ∧
      Leaves (fun d e => { d with srcs := e.srcs, coals := e.coals }) (fun _ => False) s t))

/-- R322, R335: a write of a software word, a base priority, a source's set-up and a coalescing set's set-up. -/
def Obligations.BellwetherWritesPerform : Prop :=
  (∀ (s : State) (k : Fin 4) (v : Word),
    Gives (.swiSet k v) s (fun t => t.dev.rd (Reg.SWI_SET k) = s.dev.rd (Reg.SWI_SET k) ||| v ∧ OnlyRegs (· = Reg.SWI_SET k) s t) ∧
    Gives (.swiClr k v) s (fun t => t.dev.rd (Reg.SWI_SET k) = s.dev.rd (Reg.SWI_SET k) &&& ~~~ v ∧ OnlyRegs (· = Reg.SWI_SET k) s t)) ∧
  (∀ (s : State) (q : Req) (y : Fin 8) (v : Word),
    Gives (.basePrioWrite q y v) s (fun t =>
      t.dev.rd (Reg.BASE_PRIO y) = (if s.dev.keeper q = true ∨ q = .yoke y then v &&& 0x3F else s.dev.rd (Reg.BASE_PRIO y)) ∧
      t.dev.resp = (if s.dev.keeper q = true ∨ q = .yoke y then .ok 0 else .accessError) ∧
      Leaves (fun d e => { d with regs := e.regs, srcs := e.srcs, resp := e.resp }) (· = Reg.BASE_PRIO y) s t)) ∧
  (∀ (s : State) (q : Req) (n : Fin 512) (v : Word), n.val ≠ 0 → s.dev.keeper q = true →
    Gives (.srcCfgWrite q n v) s (fun t =>
      (if leavesSet s.dev n v = true then t.dev.rd Reg.BW_FLAGS = s.dev.rd Reg.BW_FLAGS ||| 1 ∧ OnlyRegs (· = Reg.BW_FLAGS) s t
        else t.dev.rd (Reg.SRC_CFG n) = v &&& 0x3FFF3F ∧ (∀ m, m ≠ n.val → t.dev.src m = s.dev.src m) ∧
          Leaves (fun d e => { d with regs := e.regs, srcs := e.srcs, resp := e.resp }) (· = Reg.SRC_CFG n) s t) ∧ t.dev.resp = .ok 0)) ∧
  (∀ (s : State) (q : Req) (v : Word), s.dev.keeper q = true →
    Gives (.srcCfgWrite q 0 v) s (fun t => t.dev.resp = .ok 0 ∧ OnlyRegs (fun _ => False) s t)) ∧
  (∀ (s : State) (q : Req) (n : Fin 512) (k : Fin 32) (v : Word), s.dev.keeper q = false →
    Gives (.srcCfgWrite q n v) s (fun t => t.dev.resp = .accessError ∧ OnlyRegs (fun _ => False) s t) ∧
    Gives (.coalCfgWrite q k v) s (fun t => t.dev.resp = .accessError ∧ OnlyRegs (fun _ => False) s t) ∧
    Gives (.coalTimeWrite q k v) s (fun t => t.dev.resp = .accessError ∧ OnlyRegs (fun _ => False) s t)) ∧
  (∀ (s : State) (q : Req) (k : Fin 32) (v : Word), s.dev.keeper q = true →
    Gives (.coalCfgWrite q k v) s (fun t =>
      (if fld v 25 16 = 0 ∨ (bitOf v 9 = true ∧ isMember s.dev (fld v 8 0) k = false) then
        t.dev.rd Reg.BW_FLAGS = s.dev.rd Reg.BW_FLAGS ||| 1 ∧ OnlyRegs (· = Reg.BW_FLAGS) s t
      else t.dev.rd (Reg.COAL_CFG k) = v &&& 0x3FF03FF ∧ (∀ j, j ≠ k.val → t.dev.coal j = s.dev.coal j) ∧
        Leaves (fun d e => { d with regs := e.regs, srcs := e.srcs, coals := e.coals, resp := e.resp }) (· = Reg.COAL_CFG k) s t) ∧
      t.dev.resp = .ok 0) ∧
    Gives (.coalTimeWrite q k v) s (fun t =>
      (if fld v 19 0 = 0 ∨ fld v 19 0 > 1000000 then
        t.dev.rd Reg.BW_FLAGS = s.dev.rd Reg.BW_FLAGS ||| 1 ∧ OnlyRegs (· = Reg.BW_FLAGS) s t
      else t.dev.rd (Reg.COAL_TIME k) = v &&& 0xFFFFF ∧ (∀ j, j ≠ k.val → t.dev.coal j = s.dev.coal j) ∧
        Leaves (fun d e => { d with regs := e.regs, srcs := e.srcs, coals := e.coals, resp := e.resp }) (· = Reg.COAL_TIME k) s t) ∧
      t.dev.resp = .ok 0))

/-! ### Conjunction events (chapter 13) -/

/-- R340, R342, R344: firing software event j through SW_FIRE gives an always-ready task input one arrival through each active channel that
joins the two, in channel order, at hop 0 and OPEN for a requester without Keeper privilege; a SECURE channel drops an OPEN event. Another
task input that is not in COLLAPSE holds at most three of them, and in deep standby one whose owner has no power takes none (R344, R349).
Clauses that rest on a choice or reading of the model: log entries 81, 83. -/
def Obligations.FiringArrivesOncePerActiveChannel : Prop :=
  (∀ (s : State) (q : Req) (j tk : Nat), 1 ≤ j → j < 16 → taskReady tk = true → (s.dev.inDeep = true → taskPowered tk = true) →
    Gives (.swFire q (w32 (2 ^ j))) s (fun t =>
      t.dev.tasksAt tk = s.dev.tasksAt tk ++ ((List.range 128).filter (fun n => chActive s.dev n && chEvent s.dev n == j &&
        chTask s.dev n == tk && !(s.dev.bit (Reg.CH_CTRL n) 1 && !s.dev.keeper q))).map
          (fun n => { hop := 0, isOpen := !s.dev.keeper q, chan := n }) ∧
      t.dev.resp = .ok 0 ∧ RegsAndEvents (fun _ => False) s t)) ∧
  (∀ (s : State) (q : Req) (j tk : Nat), 1 ≤ j → j < 16 → taskReady tk = false → inCollapse s.dev tk = false → (s.dev.tasksAt tk).length ≤ 3 →
    (s.dev.inDeep = true → taskPowered tk = true) →
    Gives (.swFire q (w32 (2 ^ j))) s (fun t =>
      t.dev.tasksAt tk = (s.dev.tasksAt tk ++ ((List.range 128).filter (fun n => chActive s.dev n && chEvent s.dev n == j &&
        chTask s.dev n == tk && !(s.dev.bit (Reg.CH_CTRL n) 1 && !s.dev.keeper q))).map
          (fun n => ({ hop := 0, isOpen := !s.dev.keeper q, chan := n } : Arrival))).take 3 ∧
      t.dev.resp = .ok 0 ∧ RegsAndEvents (fun _ => False) s t)) ∧
  (∀ (s : State) (q : Req) (v : Word) (tk : Nat), s.dev.inDeep = true → taskPowered tk = false →
    Gives (.swFire q v) s (fun t => t.dev.tasksAt tk = s.dev.tasksAt tk ∧ t.dev.resp = .ok 0 ∧ RegsAndEvents (fun _ => False) s t))

/-- R341: a clause turns on or off for the channels that name it; an OPEN task leaves those that are SECURE, and a write needs Keeper privilege. Other bits of CH_CTRL, and every
other register, stay. -/
def Obligations.ClauseChangesReachTheirChannels : Prop :=
  (∀ (s : State) (c : Fin 16) (a : Arrival) (l : List Arrival) (on : Bool),
    s.dev.tasksAt ((if on then 0x10 else 0x20) + c.val) = a :: l →
    Gives (if on then .clauseOn c else .clauseOff c) s (fun t =>
      (∀ n < 128, t.dev.bit (Reg.CH_CTRL n) 11 =
        if s.dev.fld (Reg.CH_CTRL n) 7 4 = c.val ∧ ¬(a.isOpen = true ∧ s.dev.bit (Reg.CH_CTRL n) 1 = true) then on else s.dev.bit (Reg.CH_CTRL n) 11) ∧
      (∀ n < 128, ∀ b, b ≠ 11 → t.dev.bit (Reg.CH_CTRL n) b = s.dev.bit (Reg.CH_CTRL n) b) ∧
      t.dev.tasksAt ((if on then 0x10 else 0x20) + c.val) = l ∧ (∀ k, k ≠ (if on then 0x10 else 0x20) + c.val → t.dev.tasksAt k = s.dev.tasksAt k) ∧
      Leaves (fun d e => { d with regs := e.regs, tasks := e.tasks }) (fun o => ∃ n < 128, o = Reg.CH_CTRL n) s t)) ∧
  (∀ (s : State) (q : Req) (v : Word) (on : Bool), s.dev.keeper q = true →
    Gives (if on then .clauseSet q v else .clauseClr q v) s (fun t =>
      (∀ n < 128, t.dev.bit (Reg.CH_CTRL n) 11 = if bitOf v (s.dev.fld (Reg.CH_CTRL n) 7 4) = true then on else s.dev.bit (Reg.CH_CTRL n) 11) ∧
      (∀ n < 128, ∀ b, b ≠ 11 → t.dev.bit (Reg.CH_CTRL n) b = s.dev.bit (Reg.CH_CTRL n) b) ∧
      t.dev.resp = .ok 0 ∧ OnlyRegs (fun o => ∃ n < 128, o = Reg.CH_CTRL n) s t)) ∧
  (∀ (s : State) (q : Req) (v : Word), s.dev.keeper q = false →
    Gives (.clauseSet q v) s (fun t => t.dev.resp = .accessError ∧ OnlyRegs (fun _ => False) s t) ∧
    Gives (.clauseClr q v) s (fun t => t.dev.resp = .accessError ∧ OnlyRegs (fun _ => False) s t))

/-- R343, R351, R352, R12: IRQ tasks, channel writes, and a write of a register of the page that has no row of its own: RW bits take the value
written, W1C bits clear where it is 1, and other bits stay.
Clauses that rest on a choice or reading of the model: log entry 35. -/
def Obligations.FabricTasksAndWritesPerform : Prop :=
  (∀ (s : State) (j : Fin 16) (a : Arrival) (l : List Arrival), s.dev.tasksAt (0x30 + j.val) = a :: l →
    Gives (.irqTask j) s (fun t => t.dev.rd Reg.IRQ_LATCH = s.dev.rd Reg.IRQ_LATCH ||| w32 (2 ^ j.val) ∧ t.dev.tasksAt (0x30 + j.val) = l ∧
      (∀ k, k ≠ 0x30 + j.val → t.dev.tasksAt k = s.dev.tasksAt k) ∧
      Leaves (fun d e => { d with regs := e.regs, tasks := e.tasks }) (· = Reg.IRQ_LATCH) s t)) ∧
  (∀ (s : State) (q : Req) (n : Fin 128) (v : Word),
    (s.dev.keeper q = true ∨ (s.dev.bit (Reg.CH_CTRL n) 1 = false ∧ ∃ y, q = .yoke y ∧ s.dev.fld (Reg.CH_CTRL n) 10 8 = y)) →
    ((eventAssigned (fld v 15 0) = true ∧ taskAssigned (fld v 31 16) = true ∧
        (s.dev.bit (Reg.CH_CTRL n) 3 = true → taskIsTimer (fld v 31 16) = true)) →
      Gives (.chWrite q n false v) s (fun t => t.dev.rd (Reg.CH_CFG n) = v ∧ t.dev.resp = .ok 0 ∧ OnlyRegs (· = Reg.CH_CFG n) s t)) ∧
    ((bitOf v 3 = true → taskIsTimer (chTask s.dev n) = true) →
      Gives (.chWrite q n true v) s (fun t => (∀ b < 11, t.dev.bit (Reg.CH_CTRL n) b = bitOf v b) ∧
        t.dev.bit (Reg.CH_CTRL n) 11 = s.dev.bit (Reg.CH_CTRL n) 11 ∧ t.dev.resp = .ok 0 ∧ OnlyRegs (· = Reg.CH_CTRL n) s t))) ∧
  (∀ (s : State) (q : Req) (n : Fin 128) (ctrl : Bool) (v : Word), s.dev.keeper q = false →
    (s.dev.bit (Reg.CH_CTRL n) 1 = true ∨ ∀ y, q = .yoke y → s.dev.fld (Reg.CH_CTRL n) 10 8 ≠ y) →
    Gives (.chWrite q n ctrl v) s (fun t => t.dev.rd Reg.CONJ_FLAGS = s.dev.rd Reg.CONJ_FLAGS ||| 8 ∧ t.dev.resp = .accessError ∧
      OnlyRegs (· = Reg.CONJ_FLAGS) s t)) ∧
  (∀ (s : State) (q : Req) (v : Word) (b : Nat), b < 32 → haltBars s.dev q = false →
    Gives (.regWrite q Reg.CONJ_FLAGS 4 v) s (fun t =>
      t.dev.bit Reg.CONJ_FLAGS b = (s.dev.bit Reg.CONJ_FLAGS b && !(bitOf v b && decide (b < 7))) ∧ t.dev.resp = .ok 0 ∧
      OnlyRegs (· = Reg.CONJ_FLAGS) s t) ∧
    Gives (.regWrite q Reg.CONJ_IRQ_EN 4 v) s (fun t =>
      t.dev.bit Reg.CONJ_IRQ_EN b = (if b < 7 then bitOf v b else s.dev.bit Reg.CONJ_IRQ_EN b) ∧ t.dev.resp = .ok 0 ∧
      OnlyRegs (· = Reg.CONJ_IRQ_EN) s t)) ∧
  (∀ (s : State) (q : Req) (off width : Nat) (v : Word), width ≠ 4 ∨ off % 4 ≠ 0 ∨ pageOf off = none ∨ haltBars s.dev q = true →
    Gives (.regWrite q off width v) s (fun t => t.dev.resp = .accessError ∧ OnlyRegs (fun _ => False) s t))

/-! ### The keep store (chapter 20) -/

/-- R471 to R479: a write of a window word that R471 allows stores the word; an equal word is skipped; the rate guard stops the seventeenth
write of a second; a copy whose read-back fails is out of use; a write to a word of a record being committed is held; any other write is
refused with an access error. No other word changes.
Clauses that rest on a choice or reading of the model: log entries 53, 54. -/
def Obligations.KeepWindowWritesStoreOneWord : Prop :=
  (∀ (s : State) (q : Req) (off : Nat) (v : Word) (fa fb : Bool), off % 4 = 0 → off < 0xE000 →
    (s.dev.keeper q = true ∨ s.dev.fld Reg.OPEN_FROM 7 0 * 256 ≤ off) → recHeld s.dev (off / 4) = none →
    Gives (.keepWrite q off 4 v fa fb) s (fun t =>
      (if keepWord s.dev (off / 4) = v ∧ s.dev.keep.poison.contains (off / 4) = false then t.dev = s.dev.okay
      else if 16 ≤ rateOf s.dev (off / 4) then
        t.dev.keep = s.dev.keep ∧ t.dev.bit Reg.KEEP_FLAGS 1 = true ∧ t.dev.rd Reg.RATE_ADDR = w32 off
      else keepWord t.dev (off / 4) = v ∧ t.dev.keep.poison = s.dev.keep.poison.erase (off / 4) ∧
        rateOf t.dev (off / 4) = rateOf s.dev (off / 4) + 1 ∧ (∀ k, k ≠ off / 4 → keepWord t.dev k = keepWord s.dev k) ∧
        (fa = true → copyOut t.dev (blockOf (off / 4)) 0 = true) ∧ (fb = true → copyOut t.dev (blockOf (off / 4)) 1 = true)) ∧
      t.dev.resp = .ok 0 ∧
      Leaves (fun d e => { d with regs := e.regs, keep := e.keep, resp := e.resp })
        (fun o => o = Reg.KEEP_FLAGS ∨ o = Reg.WEAR_ADDR ∨ o = Reg.RATE_ADDR) s t)) ∧
  (∀ (s : State) (q : Req) (off : Nat) (v w : Word) (fa fb : Bool), off % 4 = 0 → off < 0xE000 →
    (s.dev.keeper q = true ∨ s.dev.fld Reg.OPEN_FROM 7 0 * 256 ≤ off) → recHeld s.dev (off / 4) = some w →
    Gives (.keepWrite q off 4 v fa fb) s (fun t => t.dev.keep = { s.dev.keep with held := s.dev.keep.held ++ [(off / 4, v)] } ∧
      t.dev.resp = .ok 0 ∧ Leaves (fun d e => { d with keep := e.keep, resp := e.resp }) (fun _ => False) s t)) ∧
  (∀ (s : State) (q : Req) (off width : Nat) (v : Word) (fa fb : Bool), width ≠ 4 ∨ off % 4 ≠ 0 ∨ 0xE000 ≤ off ∨
    (s.dev.keeper q = false ∧ off < s.dev.fld Reg.OPEN_FROM 7 0 * 256) →
    Gives (.keepWrite q off width v fa fb) s (fun t => t.dev.resp = .accessError ∧ t.dev.rd Reg.KEEP_FLAGS = s.dev.rd Reg.KEEP_FLAGS ||| 0x40 ∧
      OnlyRegs (· = Reg.KEEP_FLAGS) s t))

/-- R474 to R476, R480: a read returns copy A when that copy is in use and its code finds at most one symbol error, else copy B; with neither
it returns poison, and the word stays poison. A scrub of copy B counts a correction or notes the copy. A read of a word of a record being
committed returns the record's word; one of another width or alignment is refused. A read changes no word.
Clauses that rest on a choice or reading of the model: log entries 3, 53. -/
def Obligations.KeepReadsReturnAGoodCopy : Prop :=
  (∀ (s : State) (off : Nat) (ca cb : CopyCond), off % 4 = 0 → off < 0x10000 → recHeld s.dev (off / 4) = none →
    s.dev.keep.poison.contains (off / 4) = false →
    Gives (.keepRead off 4 ca cb) s (fun t =>
      (if (ca = .bad ∨ copyOut s.dev (blockOf (off / 4)) 0 = true) ∧ (cb = .bad ∨ copyOut s.dev (blockOf (off / 4)) 1 = true) then
        t.dev.resp = .poison ∧ t.dev.keep.poison = insNat (off / 4) s.dev.keep.poison
      else t.dev.resp = .ok (keepWord s.dev (off / 4)) ∧ t.dev.keep.poison = s.dev.keep.poison) ∧
      t.dev.keep.win = s.dev.keep.win ∧
      Leaves (fun d e => { d with regs := e.regs, keep := e.keep, resp := e.resp }) (· = Reg.KEEP_CORR) s t)) ∧
  (∀ (s : State) (off : Nat) (ca cb : CopyCond), off % 4 = 0 → off < 0x10000 → recHeld s.dev (off / 4) = none →
    s.dev.keep.poison.contains (off / 4) = true →
    Gives (.keepRead off 4 ca cb) s (fun t => t.dev = s.dev.answer .poison ∧ t.mem = s.mem ∧ t.pending = s.pending)) ∧
  (∀ (s : State) (off : Nat) (ca cb : CopyCond) (v : Word), off % 4 = 0 → off < 0x10000 → recHeld s.dev (off / 4) = some v →
    Gives (.keepRead off 4 ca cb) s (fun t => t.dev = s.dev.answer (.ok v) ∧ t.mem = s.mem ∧ t.pending = s.pending)) ∧
  (∀ (s : State) (off width : Nat) (ca cb : CopyCond), width ≠ 4 ∨ off % 4 ≠ 0 ∨ 0x10000 ≤ off →
    Gives (.keepRead off width ca cb) s (fun t => t.dev.resp = .accessError ∧ t.dev.rd Reg.KEEP_FLAGS = s.dev.rd Reg.KEEP_FLAGS ||| 0x40 ∧
      OnlyRegs (· = Reg.KEEP_FLAGS) s t)) ∧
  (∀ (s : State) (k : Fin 16384),
    Gives (.keepScrub k .good) s (fun t => t = s) ∧
    Gives (.keepScrub k .oneSymbol) s (fun t =>
      t = if copyOut s.dev (blockOf k) 1 = true then s else s.upd (fun d => d.bump Reg.KEEP_CORR)) ∧
    Gives (.keepScrub k .bad) s (fun t =>
      (if copyOut s.dev (blockOf k) 1 = true then t = s
      else Store.get (fun _ => 0) t.dev.keep.uncorr (copyKey (blockOf k) 1) = s.dev.clk + 1) ∧
      t.dev.keep.win = s.dev.keep.win ∧ Leaves (fun d e => { d with keep := e.keep }) (fun _ => False) s t))

/-- R476, R478, R479: a failing copy of a block moves to a spare block of its array, or stays on one copy; the wear counters are saved 60 s
after the last save; a new second restarts the rate guard and the commit count.
Clauses that rest on a choice or reading of the model: log entries 1, 53, 54. -/
def Obligations.KeepUpkeepPerforms : Prop :=
  (∀ (s : State) (b : Nat) (copyB : Bool),
    (s.dev.keep.failing.contains (b * 2 + (if copyB then 1 else 0)) = true ∨
      (256 ≤ b ∧ s.dev.keep.oneCopy.contains (b * 2 + (if copyB then 1 else 0)) = false)) →
    Gives (.keepBlockSpare b copyB) s (fun t =>
      t.dev.keep.failing = s.dev.keep.failing.erase (b * 2 + (if copyB then 1 else 0)) ∧
      (if (if copyB then s.dev.keep.spareB else s.dev.keep.spareA) = 0 then
        t.dev.bit Reg.KEEP_FLAGS 8 = true ∧ t.dev.keep.oneCopy = insNat (b * 2 + (if copyB then 1 else 0)) s.dev.keep.oneCopy ∧
          t.dev.keep.spareA = s.dev.keep.spareA ∧ t.dev.keep.spareB = s.dev.keep.spareB
      else t.dev.bit Reg.KEEP_FLAGS 7 = true ∧ t.dev.keep.oneCopy = s.dev.keep.oneCopy ∧
        t.dev.keep.spareA = s.dev.keep.spareA - (if copyB then 0 else 1) ∧ t.dev.keep.spareB = s.dev.keep.spareB - (if copyB then 1 else 0)) ∧
      RegsEventsLog (fun _ => False) s t)) ∧
  (∀ (s : State) (b : Nat) (copyB : Bool), s.dev.keep.failing.contains (b * 2 + (if copyB then 1 else 0)) = false →
    (b < 256 ∨ s.dev.keep.oneCopy.contains (b * 2 + (if copyB then 1 else 0)) = true) →
    Gives (.keepBlockSpare b copyB) s (fun t => t = s)) ∧
  (∀ s : State, Gives .wearSave s (fun t =>
      t.dev.keep = { s.dev.keep with wearSaved := s.dev.keep.wear, wearAt := t.dev.clk } ∧
      t.dev.clk = max s.dev.clk (s.dev.keep.wearAt + 60000000000) ∧
      Leaves (fun d e => { d with keep := e.keep, ht := e.ht, clk := e.clk }) (fun _ => False) s t)) ∧
  (∀ s : State, s.dev.second < 18000000000 →
    Gives .keepRateSecond s (fun t => t.dev.now = (s.dev.second + 1) * 1000000000 ∧
      (s.dev.keep.rateSec ≤ s.dev.second → ∀ k, rateOf t.dev k = 0) ∧ (s.dev.keep.rateSec ≤ s.dev.second → commitsOf t.dev = 0) ∧
      t.dev.keep.win = s.dev.keep.win ∧
      Leaves (fun d e => { d with keep := { d.keep with rate := e.keep.rate, commits := e.keep.commits, rateSec := e.keep.rateSec }, ht := e.ht, clk := e.clk })
        (fun _ => False) s t))

/-- R480, R481: a REC_CMD write with GO that no cause of R481 refuses takes a copy of the record and starts the commit; one that a cause
refuses records it and does nothing else; one without GO has no effect. The commit writes each of the record's words home, and no word that
is neither of the record nor held.
Clauses that rest on a choice or reading of the model: log entries 45, 53. -/
def Obligations.RecordCommitIsWhole : Prop :=
  (∀ (s : State) (q : Req) (v : Word), bitOf v 31 = true → s.dev.keep.recOp = none →
    1 ≤ s.dev.fld Reg.REC_CTRL 22 16 → s.dev.fld Reg.REC_CTRL 22 16 ≤ 64 →
    s.dev.fld Reg.REC_CTRL 15 2 + s.dev.fld Reg.REC_CTRL 22 16 ≤ 0x3800 →
    (∀ i < s.dev.fld Reg.REC_CTRL 22 16, (keepWord s.dev (s.dev.fld Reg.REC_CTRL 15 2 + i) = s.dev.rd (Reg.REC_DATA i) ∧
      s.dev.keep.poison.contains (s.dev.fld Reg.REC_CTRL 15 2 + i) = false) ∨
      rateOf s.dev (s.dev.fld Reg.REC_CTRL 15 2 + i) < 16) → commitsOf s.dev < 64 →
    (s.dev.keeper q = true ∨ s.dev.fld Reg.OPEN_FROM 7 0 * 256 ≤ s.dev.fld Reg.REC_CTRL 15 2 * 4) →
    Gives (.recCommit q v) s (fun t => (∃ r, t.dev.keep.recOp = some r ∧ r.word = s.dev.fld Reg.REC_CTRL 15 2 ∧ r.committed = false ∧
        r.data.length = s.dev.fld Reg.REC_CTRL 22 16 ∧ ∀ i < r.data.length, r.data.getD i 0 = s.dev.rd (Reg.REC_DATA i)) ∧
      commitsOf t.dev = commitsOf s.dev + 1 ∧ t.dev.keep.win = s.dev.keep.win ∧
      t.dev.bit Reg.REC_STATUS 0 = true ∧ t.dev.fld Reg.REC_STATUS 3 1 = 0 ∧ t.dev.resp = .ok 0 ∧
      Leaves (fun d e => { d with regs := e.regs, keep := e.keep, resp := e.resp }) (fun o => o = Reg.REC_STATUS ∨ o = Reg.KEEP_STATUS) s t)) ∧
  (∀ (s : State) (q : Req) (v : Word), bitOf v 31 = true → recReason q s.dev ≠ 0 →
    Gives (.recCommit q v) s (fun t => t.dev.fld Reg.REC_STATUS 3 1 = recReason q s.dev ∧ t.dev.bit Reg.KEEP_FLAGS 3 = true ∧
      t.dev.resp = .ok 0 ∧ OnlyRegs (fun o => o = Reg.REC_STATUS ∨ o = Reg.KEEP_FLAGS) s t)) ∧
  (∀ (s : State) (q : Req) (v : Word), bitOf v 31 = false → Gives (.recCommit q v) s (fun t => t = s.upd Dev.okay)) ∧
  (∀ s : State, s.dev.keep.recOp = none → Gives .recCommitDone s (fun t => t = s)) ∧
  (∀ (s : State) (r : RecCommit), s.dev.keep.recOp = some r →
    Gives .recCommitDone s (fun t =>
      (∀ i < r.data.length, (∀ e ∈ s.dev.keep.held, e.1 ≠ r.word + i) → keepWord t.dev (r.word + i) = r.data.getD i 0) ∧
      (∀ k, k < r.word ∨ r.word + r.data.length ≤ k → (∀ e ∈ s.dev.keep.held, e.1 ≠ k) → keepWord t.dev k = keepWord s.dev k) ∧
      t.dev.keep.recOp = none ∧ t.dev.keep.held = [] ∧ t.dev.bit Reg.REC_STATUS 0 = false ∧ t.dev.bit Reg.KEEP_FLAGS 2 = true ∧
      Leaves (fun d e => { d with regs := e.regs, keep := e.keep })
        (fun o => o = Reg.REC_STATUS ∨ o = Reg.KEEP_STATUS ∨ o = Reg.KEEP_FLAGS ∨ o = Reg.WEAR_ADDR ∨ o = Reg.RATE_ADDR) s t))

/-- R479, R482, R483, R486: an add of valid digits to a meter gives the decimal sum; one that would pass 9 999 999 999 999 999 changes nothing
but its flag, and so does one of invalid digits, one that the rate guard stops and one that is denied. A read of METER_LO returns the low
digits and latches the high ones. In its step of the boot the store restores a record past its commit point or discards one before it,
latches the high digits and sets READY.
Clauses that rest on a choice or reading of the model: log entry 53. -/
def Obligations.MetersAddInDecimal : Prop :=
  (∀ (s : State) (q : Req) (m : Fin 32) (v : Word), (s.dev.keeper q = true ∨ s.dev.bit Reg.METER_OPEN m = true) →
    bcdValid 16 (meterOf s.dev m).toNat = true → bcdValid 16 (v.toNat + (s.dev.rd (Reg.ADD_HI m)).toNat * 2 ^ 32) = true →
    rateOf s.dev (keyOfMeter m) < 16 →
    Gives (.meterAdd q m v) s (fun t =>
      bcdToNat 16 (meterOf t.dev m).toNat =
        (if bcdToNat 16 (meterOf s.dev m).toNat + bcdToNat 16 (v.toNat + (s.dev.rd (Reg.ADD_HI m)).toNat * 2 ^ 32) < 10 ^ 16 then
          bcdToNat 16 (meterOf s.dev m).toNat + bcdToNat 16 (v.toNat + (s.dev.rd (Reg.ADD_HI m)).toNat * 2 ^ 32)
        else bcdToNat 16 (meterOf s.dev m).toNat) ∧
      bcdValid 16 (meterOf t.dev m).toNat = true ∧
      (10 ^ 16 ≤ bcdToNat 16 (meterOf s.dev m).toNat + bcdToNat 16 (v.toNat + (s.dev.rd (Reg.ADD_HI m)).toNat * 2 ^ 32) →
        t.dev.bit Reg.KEEP_FLAGS 5 = true) ∧
      t.dev.rd (Reg.ADD_HI m) = 0 ∧ t.dev.resp = .ok 0 ∧ (∀ k, k ≠ m.val → meterOf t.dev k = meterOf s.dev k) ∧
      t.dev.keep.win = s.dev.keep.win ∧
      Leaves (fun d e => { d with regs := e.regs, keep := e.keep, resp := e.resp })
        (fun o => o = Reg.ADD_HI m ∨ o = Reg.KEEP_FLAGS ∨ o = Reg.WEAR_ADDR) s t)) ∧
  (∀ (s : State) (q : Req) (m : Fin 32) (v : Word) (add : Nat), add = v.toNat + (s.dev.rd (Reg.ADD_HI m)).toNat * 2 ^ 32 →
    ((s.dev.keeper q = false ∧ s.dev.bit Reg.METER_OPEN m = false) →
      Gives (.meterAdd q m v) s (fun t => t.dev.bit Reg.KEEP_FLAGS 6 = true ∧ t.dev.rd (Reg.ADD_HI m) = 0 ∧ t.dev.resp = .accessError ∧
        OnlyRegs (fun o => o = Reg.ADD_HI m ∨ o = Reg.KEEP_FLAGS) s t)) ∧
    ((s.dev.keeper q = true ∨ s.dev.bit Reg.METER_OPEN m = true) → bcdValid 16 add = false →
      Gives (.meterAdd q m v) s (fun t => t.dev.bit Reg.KEEP_FLAGS 4 = true ∧ t.dev.rd (Reg.ADD_HI m) = 0 ∧ t.dev.resp = .ok 0 ∧
        OnlyRegs (fun o => o = Reg.ADD_HI m ∨ o = Reg.KEEP_FLAGS) s t)) ∧
    ((s.dev.keeper q = true ∨ s.dev.bit Reg.METER_OPEN m = true) → bcdValid 16 add = true → add ≠ 0 →
      bcdValid 16 (meterOf s.dev m).toNat = true → bcdToNat 16 (meterOf s.dev m).toNat + bcdToNat 16 add < 10 ^ 16 → 16 ≤ rateOf s.dev (keyOfMeter m) →
      Gives (.meterAdd q m v) s (fun t => t.dev.bit Reg.KEEP_FLAGS 1 = true ∧ t.dev.rd (Reg.ADD_HI m) = 0 ∧ t.dev.resp = .ok 0 ∧
        OnlyRegs (fun o => o = Reg.ADD_HI m ∨ o = Reg.KEEP_FLAGS ∨ o = Reg.RATE_ADDR) s t))) ∧
  (∀ (s : State) (m : Fin 32), Gives (.meterLoRead m) s (fun t => t.dev.resp = .ok (w32 (meterOf s.dev m).toNat) ∧
    Store.get (fun _ => 0) t.dev.keep.meterHi m = w32 ((meterOf s.dev m).toNat / 2 ^ 32) ∧
    Leaves (fun d e => { d with keep := { d.keep with meterHi := e.keep.meterHi }, resp := e.resp }) (fun _ => False) s t)) ∧
  (∀ s : State, s.dev.pw.boot = 2 → s.dev.bit Reg.KEEP_STATUS 0 = false → s.dev.keep.recOp = none →
    Gives .keepReady s (fun t => t.dev.bit Reg.KEEP_STATUS 0 = true ∧ t.dev.pw = { s.dev.pw with boot := 3 } ∧
      (∀ m < 32, Store.get (fun _ => 0) t.dev.keep.meterHi m = w32 ((meterOf s.dev m).toNat / 2 ^ 32)) ∧
      Leaves (fun d e => { d with regs := e.regs, keep := { d.keep with meterHi := e.keep.meterHi }, rail := e.rail, pw := e.pw })
        (fun o => o = Reg.KEEP_STATUS ∨ o = Reg.RAIL_STATUS) s t)) ∧
  (∀ (s : State) (r : RecCommit), s.dev.pw.boot = 2 → s.dev.bit Reg.KEEP_STATUS 0 = false → s.dev.keep.recOp = some r → s.dev.keep.held = [] →
    Gives .keepReady s (fun t => t.dev.bit Reg.KEEP_STATUS 0 = true ∧ t.dev.keep.recOp = none ∧
      (r.committed = true → t.dev.bit Reg.KEEP_STATUS 2 = true) ∧
      (∀ i < r.data.length, r.committed = true → keepWord t.dev (r.word + i) = r.data.getD i 0) ∧
      ∀ k, r.committed = false ∨ k < r.word ∨ r.word + r.data.length ≤ k → keepWord t.dev k = keepWord s.dev k))

/-! ### The bulk memories (chapter 19) -/

/-- R462, R464, R465, R466, R469: the controller's own steps. A page's copy ends and its remap takes effect; a row is spared; a
pseudo-channel is calibrated, unless a BEAM request is near or 100 ms have not passed; a waiting request is promoted or waits on; patrol scrub
goes on to its next word when that is due, while HBM3 is in service.
Clauses that rest on a choice or reading of the model: log entries 1, 16, 50, 51. -/
def Obligations.MemoryUpkeepPerforms : Prop :=
  (∀ (s : State) (p : Nat) (r : Retire), s.dev.mc.retiring.find? (fun r => r.page == p) = some r →
    Gives (.pageRemap p) s (fun t => Store.get (fun p => p) t.dev.mc.remap r.page = r.pool ∧
      (∀ k, k ≠ r.page → Store.get (fun p => p) t.dev.mc.remap k = Store.get (fun p => p) s.dev.mc.remap k) ∧
      t.dev.bit Reg.MEM_FLAGS 2 = true ∧ t.dev.repairs.contains (pageClass s.dev r.old, r.old) = true ∧
      t.mem.bytes = s.mem.bytes ∧ t.mem.tcm = s.mem.tcm ∧ t.mem.flash = s.mem.flash ∧ t.pending = s.pending)) ∧
  (∀ (s : State) (p : Nat), s.dev.mc.retiring.find? (fun r => r.page == p) = none → Gives (.pageRemap p) s (fun t => t = s)) ∧
  (∀ (s : State) (r : Nat) (left : Bool), s.dev.mc.rowBad.contains r = true ∨ (0x80000000 ≤ r ∧ r < 0x100000000) →
    Gives (.sramRowSpare r left) s (fun t => t.dev.bit Reg.MEM_FLAGS (if left then 4 else 5) = true ∧
      t.dev.mc.rowBad = s.dev.mc.rowBad.erase r ∧ (left = true → t.dev.repairs.contains (8, r) = true) ∧
      Leaves (fun d e => { d with
        regs := e.regs, keep := e.keep, mc := e.mc, repairs := e.repairs, logSecond := e.logSecond, logKeys := e.logKeys })
        (fun o => LogReg o ∨ o = Reg.MEM_FLAGS ∨ o = Reg.REPAIR_MEM) s t)) ∧
  (∀ (s : State) (r : Nat) (left : Bool), s.dev.mc.rowBad.contains r = false → r < 0x80000000 →
    Gives (.sramRowSpare r left) s (fun t => t = s)) ∧
  (∀ (s : State) (pc : Fin 64), s.dev.hbmUp = true →
    (Store.get (fun _ => 0) s.dev.mc.calAt pc = 0 ∨ Store.get (fun _ => 0) s.dev.mc.calAt pc + 100000000 ≤ s.dev.clk + 1) →
    Gives (.hbmCalibrate pc false) s (fun t => Store.get (fun _ => 0) t.dev.mc.calAt pc = s.dev.clk + 1 ∧
      (∀ k, k ≠ pc.val → Store.get (fun _ => 0) t.dev.mc.calAt k = Store.get (fun _ => 0) s.dev.mc.calAt k) ∧
      Leaves (fun d e => { d with mc := { d.mc with calAt := e.mc.calAt } }) (fun _ => False) s t)) ∧
  (∀ (s : State) (pc : Fin 64) (soon : Bool), soon = true ∨ s.dev.hbmUp = false ∨
    (Store.get (fun _ => 0) s.dev.mc.calAt pc ≠ 0 ∧ s.dev.clk + 1 - Store.get (fun _ => 0) s.dev.mc.calAt pc < 100000000) →
    Gives (.hbmCalibrate pc soon) s (fun t => t = s)) ∧
  (∀ (s : State) (b : Fin 80) (n late : Nat),
    Gives (.bulkWaitExpire b n late) s (fun t =>
      Store.get (fun _ => 16) t.dev.mc.promoted b =
        (if 16 ≤ Store.get (fun _ => 16) s.dev.mc.promoted b + n then 0 else Store.get (fun _ => 16) s.dev.mc.promoted b + n) ∧
      (16 ≤ Store.get (fun _ => 16) s.dev.mc.promoted b + n → 1 ≤ late → t.dev.bit Reg.MEM_FLAGS 8 = true ∧
        (t.dev.rd Reg.LATE_FETCHES).toNat = min ((s.dev.rd Reg.LATE_FETCHES).toNat + late) 0xFFFFFFFF) ∧
      Leaves (fun d e => { d with regs := e.regs, mc := { d.mc with promoted := e.mc.promoted } })
        (fun o => o = Reg.MEM_FLAGS ∨ o = Reg.LATE_FETCHES) s t)) ∧
  (∀ (s : State) (c : CopyCond), s.dev.hbmUp = false → Gives (.patrolScrub c) s (fun t => t = s)) ∧
  (∀ (s : State) (c : CopyCond), s.dev.hbmUp = true →
    Gives (.patrolScrub c) s (fun t => t.dev.mc.patrol = (if s.dev.mc.patrol + 1 < patrolWords then s.dev.mc.patrol + 1 else 0) ∧
      t.dev.clk = max s.dev.clk (patrolDue s.dev) ∧
      t.mem.bytes = s.mem.bytes ∧ t.mem.tcm = s.mem.tcm ∧ t.mem.flash = s.mem.flash ∧ t.pending = s.pending))

/-! ### Raster cells (chapter 3) -/

/-- R83, R87, R88, R197, R198: a layer starts the line that is due; a line under construction completes at its lead before the deadline, or as
soon after as the time reached allows, and its slack is binned; a line that is neither complete nor abandoned at its deadline is missed, and a
VIDEO cell misses each source row that the output line needs. A layer that may start nothing, has nothing under construction or owes nothing
stays as it is.
Clauses that rest on a choice or reading of the model: log entries 1, 15, 58, 59, 67, 140. -/
def Obligations.CellLinesStartCompleteAndMiss : Prop :=
  (∀ (s : State) (f : Fin 16) (p : Fin 8) (l : Fin 2) (evict : List Nat) (late fr n : Nat), mayStart s.dev f p l = some (fr, n) →
    Gives (.cellLineStart f p l evict late) s (fun t => (∃ b, (t.dev.cell f p).bufs.getLast? = some b ∧ b.layer = l.val ∧ b.frame = fr ∧
        b.line = n ∧ b.done = false) ∧
      ((t.dev.cell f p).layer l).frame = fr ∧ ((t.dev.cell f p).layer l).next = n + 1 ∧ SameBytes s t)) ∧
  (∀ (s : State) (f : Fin 16) (p : Fin 8) (l : Fin 2) (evict : List Nat) (late : Nat), mayStart s.dev f p l = none →
    Gives (.cellLineStart f p l evict late) s (fun t => t = s)) ∧
  (∀ (s : State) (f : Fin 16) (p : Fin 8) (lead : Nat) (pal : List Nat) (spare : Option Word) (b : LineBuf) (k c : Nat),
    (s.dev.cell f p).bufs.find? (fun b => !b.done) = some b → b.layer < 2 →
    (match frameClk s.dev (flockHead s.dev f) b.frame with
      | none => k = (modeOf s.dev (flockHead s.dev f)).pixels lead ∧ c = s.dev.clk
      | some base => ∃ at', at' = max (s.dev.clk * 1000) ((modeOf s.dev (flockHead s.dev f)).deadline base (readAt s.dev f p b.line) - lead) ∧
          (k : Int) = (modeOf s.dev (flockHead s.dev f)).slack base (readAt s.dev f p b.line) at' ∧ c = max s.dev.clk (at' / 1000)) →
    Gives (.cellLineDone f p lead spare pal) s (fun t =>
      t.dev.rd (Reg.CELL_SLACK_LAST f p) = w32 (min 65535 k) ∧ t.dev.clk = c ∧
      (b.layer = 0 → t.dev.rd (Reg.CELL_LINE_CRC f p) = lineCrc (mixLine f p b pal s)) ∧
      (t.dev.cell f p).slackMin = min (s.dev.cell f p).slackMin (min 65535 k) ∧
      (t.dev.cell f p).hist = bumpAt (slackBin (min 65535 k)) (s.dev.cell f p).hist ∧
      (t.dev.cell f p).bufs.length = (s.dev.cell f p).bufs.length ∧ (t.dev.cell f p).bufs.all (·.done) = true ∧
      (∀ g q, g < 16 → q < 9 → (g ≠ f.val ∨ q ≠ p.val) → t.dev.cell g q = s.dev.cell g q) ∧
      Leaves (fun d e => { d with
        regs := e.regs, cells := e.cells, flocks := e.flocks, rail := e.rail, tasks := e.tasks, ht := e.ht, clk := e.clk })
        (fun o => InCell f p o ∨ o = Reg.FLOCK_IRQ f ∨ o = Reg.SHADOW_MISMATCH ∨ InConj o) s t)) ∧
  (∀ (s : State) (f : Fin 16) (p : Fin 8) (lead : Nat) (pal : List Nat) (spare : Option Word) (b : LineBuf) (base at' : Nat),
    (s.dev.cell f p).bufs.find? (fun b => !b.done) = some b → b.layer < 2 →
    frameClk s.dev (flockHead s.dev f) b.frame = some base →
    at' = max (s.dev.clk * 1000) ((modeOf s.dev (flockHead s.dev f)).deadline base (readAt s.dev f p b.line) - lead) →
    (modeOf s.dev (flockHead s.dev f)).slack base (readAt s.dev f p b.line) at' < 0 →
    Gives (.cellLineDone f p lead spare pal) s (fun t =>
      (t.dev.rd (Reg.CELL_MISS f p)).toNat = min ((s.dev.rd (Reg.CELL_MISS f p)).toNat + 1) 0xFFFFFFFF ∧
      t.dev.bit (Reg.CELL_EVT f p) 1 = true ∧ t.dev.bit (Reg.FLOCK_IRQ f) 1 = true ∧
      t.dev.rd (Reg.CELL_SLACK_LAST f p) = s.dev.rd (Reg.CELL_SLACK_LAST f p) ∧ t.dev.rail.calmFrom = s.dev.clk ∧
      Leaves (fun d e => { d with regs := e.regs, cells := e.cells, rail := { d.rail with calmFrom := e.rail.calmFrom }, tasks := e.tasks })
        (fun o => o = Reg.CELL_MISS f p ∨ o = Reg.CELL_EVT f p ∨ o = Reg.FLOCK_IRQ f ∨ InConj o) s t)) ∧
  (∀ (s : State) (f : Fin 16) (p : Fin 8) (lead : Nat) (pal : List Nat) (spare : Option Word),
    (s.dev.cell f p).bufs.find? (fun b => !b.done) = none → Gives (.cellLineDone f p lead spare pal) s (fun t => t = s)) ∧
  (∀ (s : State) (f : Fin 16) (p : Fin 8) (l : Fin 2) (due : Nat × Nat), due = dueLine s.dev (flockHead s.dev f) →
    (((activeLayers s.dev f p).contains l.val = false ∨ owesLines s.dev f p = false ∨
        (kindOf s.dev f p ≠ 4 ∧ lineOwed s.dev f p l due = false) ∨ (kindOf s.dev f p = 4 ∧ rowsOwed s.dev f p due = [])) →
      Gives (.lineMissed f p l) s (fun t => t = s)) ∧
    ((activeLayers s.dev f p).contains l.val = true → owesLines s.dev f p = true → kindOf s.dev f p ≠ 4 → lineOwed s.dev f p l due = true →
      Gives (.lineMissed f p l) s (fun t =>
        (t.dev.rd (Reg.CELL_MISS f p)).toNat = min ((s.dev.rd (Reg.CELL_MISS f p)).toNat + 1) 0xFFFFFFFF ∧
        t.dev.bit (Reg.CELL_EVT f p) 1 = true ∧ t.dev.bit (Reg.FLOCK_IRQ f) 1 = true ∧
        ((t.dev.cell f p).layer l).frame = due.1 ∧ ((t.dev.cell f p).layer l).next = due.2 + 1 ∧
        (∀ b ∈ (t.dev.cell f p).bufs, b.layer = l.val → b.done = true) ∧
        t.dev.clk = (toDeadline (flockHead s.dev f) due.1 due.2 s.dev).clk ∧ t.dev.rail.calmFrom = t.dev.clk ∧
        Leaves (fun d e => { d with
          regs := e.regs, cells := e.cells, rail := { d.rail with calmFrom := e.rail.calmFrom }, tasks := e.tasks, ht := e.ht, clk := e.clk })
          (fun o => o = Reg.CELL_MISS f p ∨ o = Reg.CELL_EVT f p ∨ o = Reg.FLOCK_IRQ f ∨ InConj o) s t)) ∧
    ((activeLayers s.dev f p).contains l.val = true → owesLines s.dev f p = true → kindOf s.dev f p = 4 → rowsOwed s.dev f p due ≠ [] →
      Gives (.lineMissed f p l) s (fun t =>
        (t.dev.rd (Reg.CELL_MISS f p)).toNat = min ((s.dev.rd (Reg.CELL_MISS f p)).toNat + (rowsOwed s.dev f p due).length) 0xFFFFFFFF ∧
        t.dev.bit (Reg.CELL_EVT f p) 1 = true ∧ t.dev.bit (Reg.FLOCK_IRQ f) 1 = true ∧
        (∀ r ∈ rowsOwed s.dev f p due, ∃ b ∈ (t.dev.cell f p).bufs, b.frame = due.1 ∧ b.line = r ∧ b.missing = true) ∧
        t.dev.clk = (toDeadline (flockHead s.dev f) due.1 due.2 s.dev).clk ∧ t.dev.rail.calmFrom = t.dev.clk ∧
        Leaves (fun d e => { d with
          regs := e.regs, cells := e.cells, rail := { d.rail with calmFrom := e.rail.calmFrom }, tasks := e.tasks, ht := e.ht, clk := e.clk })
          (fun o => o = Reg.CELL_MISS f p ∨ o = Reg.CELL_EVT f p ∨ o = Reg.FLOCK_IRQ f ∨ InConj o) s t)))

/-- R73, R90, R146, R127, R134, R214, R227, R150 to R152: when the beam of a RUNNING head that has read its last active line reaches the
blanking, or a head starts its first frame, is STOPPED or in STANDBY, the statistics of its posts are latched, and new ones start; a cache
discard, a table reload and a flip are noted, and denied during a re-pen; the oldest waiting collision record goes to its slot of the ring, 16
bytes, and to no other byte, or is lost when the ring is full or cannot be written.
Clauses that rest on a choice or reading of the model: log entries 56, 66, 124, 132, 134. -/
def Obligations.CellRequestsStatisticsAndCollisions : Prop :=
  (∀ (s : State) (h : Fin 8),
     (headState s.dev h = 4 ∧ (s.dev.head h).latched = false ∧ (s.dev.head h).reading = false ∧ (modeOf s.dev h).vAct ≤ (s.dev.head h).next) ∨
       (headState s.dev h = 3 ∧ (s.dev.head h).latched = false) ∨ headState s.dev h = 1 ∨ headState s.dev h = 5 →
     Gives (.statsLatch h) s (fun t => (t.dev.head h).latched = true ∧
       (∀ f < 16, ∀ p < 8, flockHead s.dev f = h.val →
         (∀ b < 8, t.dev.rd (Reg.CELL_SLACK_HIST f p b) = w32 ((s.dev.cell f p).hist.getD b 0)) ∧
         t.dev.rd (Reg.CELL_SLACK_MIN f p) = w32 ((s.dev.cell f p).slackMin + (s.dev.cell f p).missed * 0x10000) ∧
         (t.dev.cell f p).slackMin = 0xFFFF ∧ (t.dev.cell f p).missed = 0 ∧ (t.dev.cell f p).low = false) ∧ SameBytes s t)) ∧
  (∀ (s : State) (f : Fin 16) (p : Fin 8) (l : Fin 2), (s.dev.flock f).repen ≠ none →
    Gives (.cacheInv f p l) s (fun t => t.dev.resp = .accessError ∧ OnlyRegs (fun _ => False) s t) ∧
    Gives (.sprReload f p l) s (fun t => t.dev.resp = .accessError ∧ OnlyRegs (fun _ => False) s t) ∧
    Gives (.fbFlipArm f p l) s (fun t => t.dev.resp = .accessError ∧ OnlyRegs (fun _ => False) s t)) ∧
  (∀ (s : State) (f : Fin 16) (p : Fin 8) (l : Fin 2), (s.dev.flock f).repen = none → (l.val = 1 → twinOf s.dev f p = true) →
    ((kindOf s.dev f p = 1 ∨ kindOf s.dev f p = 2) → Gives (.cacheInv f p l) s (fun t => (t.dev.cell f p).inv = true ∧ t.dev.resp = .ok 0 ∧
      Leaves (fun d e => { d with regs := e.regs, cells := e.cells, resp := e.resp }) (· = cellOff f p (0x178 + l.val * 0xF00)) s t)) ∧
    (kindOf s.dev f p = 2 → Gives (.sprReload f p l) s (fun t => ((t.dev.cell f p).layer l).reload = true ∧ t.dev.resp = .ok 0 ∧
      Leaves (fun d e => { d with regs := e.regs, cells := e.cells, resp := e.resp }) (· = cellOff f p (0x11C + l.val * 0xF00)) s t)) ∧
    (kindOf s.dev f p = 3 → Gives (.fbFlipArm f p l) s (fun t => t.dev.bit (Reg.FB_FLIP f p l) 0 = true ∧ t.dev.resp = .ok 0 ∧
      OnlyRegs (· = Reg.FB_FLIP f p l) s t))) ∧
  (∀ (s : State) (f : Fin 16) (p : Fin 8) (l : Fin 2) (c : CollRec) (rest : List CollRec), ((s.dev.cell f p).layer l).collQ = c :: rest →
    (s.dev.rd (Reg.COLL_WR f p l) - s.dev.rd (Reg.COLL_RD f p l)).toNat < 2 ^ s.dev.fld (Reg.COLL_SIZE f p l) 4 0 →
    ∀ a, a = base48 s.dev (Reg.COLL_BASE_LO f p l) (Reg.COLL_BASE_HI f p l) +
      16 * ((s.dev.rd (Reg.COLL_WR f p l)).toNat % 2 ^ s.dev.fld (Reg.COLL_SIZE f p l) 4 0) → memOk s.dev a 16 = true →
    Gives (.collRecordWrite f p l) s (fun t =>
      (∀ i < 16, t.byteAt (a + i) = (collBytes c (collFrameHt s.dev (flockHead s.dev f) c).1 l (s.dev.rd (Reg.COLL_WR f p l)).toNat
        (s.dev.fld (Reg.COLL_SIZE f p l) 4 0)).getD i 0) ∧
      (∀ x, x < a ∨ a + 16 ≤ x → t.byteAt x = s.byteAt x) ∧
      t.dev.rd (Reg.COLL_WR f p l) = s.dev.rd (Reg.COLL_WR f p l) + 1 ∧ ((t.dev.cell f p).layer l).collQ = rest ∧
      t.dev.bit (Reg.SPR_STATUS f p l) 6 = true ∧ t.mem.tcm = s.mem.tcm ∧ t.mem.flash = s.mem.flash ∧ t.pending = s.pending)) ∧
  (∀ (s : State) (f : Fin 16) (p : Fin 8) (l : Fin 2) (c : CollRec) (rest : List CollRec) (full : Bool),
    ((s.dev.cell f p).layer l).collQ = c :: rest →
    full = decide (2 ^ s.dev.fld (Reg.COLL_SIZE f p l) 4 0 ≤ (s.dev.rd (Reg.COLL_WR f p l) - s.dev.rd (Reg.COLL_RD f p l)).toNat) →
    (full = true ∨ memOk s.dev (base48 s.dev (Reg.COLL_BASE_LO f p l) (Reg.COLL_BASE_HI f p l) +
      16 * ((s.dev.rd (Reg.COLL_WR f p l)).toNat % 2 ^ s.dev.fld (Reg.COLL_SIZE f p l) 4 0)) 16 = false) →
    Gives (.collRecordWrite f p l) s (fun t =>
      (t.dev.rd (Reg.COLL_LOST f p l)).toNat = min ((s.dev.rd (Reg.COLL_LOST f p l)).toNat + 1) 0xFFFFFFFF ∧
      ((t.dev.cell f p).layer l).collQ = rest ∧ (full = true → t.dev.bit (Reg.SPR_STATUS f p l) 7 = true) ∧
      Leaves (fun d e => { d with regs := e.regs, cells := e.cells }) (fun o => o = Reg.COLL_LOST f p l ∨ o = Reg.SPR_STATUS f p l) s t)) ∧
  (∀ (s : State) (f : Fin 16) (p : Fin 8) (l : Fin 2), ((s.dev.cell f p).layer l).collQ = [] →
    Gives (.collRecordWrite f p l) s (fun t => t = s))

/-! ### Line scripts (chapter 6) -/

/-- R158, R162, R177: at the decision point the bank is chosen (the latest due cue, else a pending request, else the bank in use), the script
starts at word 0 of the bank for the coming frame when LS_CTRL enables it, and the request is no longer pending. A head that is not at its
decision point stays as it is.
Clauses that rest on a choice or reading of the model: log entries 1, 61, 126, 127. -/
def Obligations.DecisionPointChoosesBankAndStartsScript : Prop :=
  (∀ (s : State) (h : Fin 8), headState s.dev h = 3 ∨ headState s.dev h = 4 → (s.dev.head h).latched = true → (s.dev.head h).decided = false →
    s.dev.bit (Reg.HEAD_STATUS h) 11 = false →
    Gives (.lsDecisionPoint h) s (fun t => (t.dev.head h).decided = true ∧
      t.dev.fld (Reg.LS_BANK h) 0 0 = (match latestCue (decisionFs t.dev h) (s.dev.head h).cues with
        | some c => c.bank % 2
        | none => if s.dev.bit (Reg.LS_BANK h) 1 = true then s.dev.fld (Reg.LS_BANK h) 2 2 else s.dev.fld (Reg.LS_BANK h) 0 0) ∧
      t.dev.bit (Reg.LS_BANK h) 1 = false ∧ t.dev.bit (Reg.LS_BANK h) 4 = s.dev.bit (Reg.LS_CTRL h) 0 ∧
      (t.dev.ls h).active = s.dev.bit (Reg.LS_CTRL h) 0 ∧ (t.dev.ls h).ended = !s.dev.bit (Reg.LS_CTRL h) 0 ∧
      (t.dev.ls h).frame = (s.dev.head h).seq + 1 ∧ (t.dev.ls h).pc = 0 ∧ (t.dev.ls h).line = 0 ∧ (t.dev.ls h).pixel = 0 ∧ (t.dev.ls h).slots = 0 ∧
      (t.dev.ls h).loop = none ∧ (t.dev.ls h).comp = (s.dev.ls h).comp ∧ (t.dev.ls h).mat = (s.dev.ls h).mat ∧
      Leaves (fun d e => { d with regs := e.regs, ht := e.ht, clk := e.clk, heads := e.heads, scripts := e.scripts })
        (fun o => o = Reg.LS_BANK h ∨ o = Reg.LS_FLAGS h ∨ o = Reg.LS_PEAK h ∨ o = Reg.LS_POS h ∨ o = Reg.HEAD_FLAGS h ∨ o = Reg.RELOCKS h) s t)) ∧
  (∀ (s : State) (h : Fin 8), (headState s.dev h ≠ 3 ∧ headState s.dev h ≠ 4) ∨ (s.dev.head h).latched = false ∨ (s.dev.head h).decided = true ∨
    s.dev.bit (Reg.HEAD_STATUS h) 11 = true → Gives (.lsDecisionPoint h) s (fun t => t = s))

/-- R164 to R171: WR, MASK and ADD stage their writes, and FETCH stages the words that it reads from memory, behind those already staged, each
at the place of R164. No register takes a value yet. A target that R174 does not allow is dropped and counted; a faulty encoding, or a verb that
would pass word 4095, is a verb error; a FETCH of memory that is not there or is poisoned stages nothing and sets its flag; a verb that would
pass the slots of its line goes on to the next.
Clauses that rest on a choice or reading of the model: log entry 60. -/
def Obligations.WritingVerbsStageTheirWrites : Prop :=
  (∀ (s : State) (h : Fin 8) (n : Nat), n = fld (verbWord s.dev h 0) 17 14 + 1 → VerbAt s h 2 (1 + n) (1 + n) →
    targetBad (verbWord s.dev h 0) false = false → TargetOk s.dev h (verbWord s.dev h 0) n →
    Gives (.lsWr h) s (fun t => VerbDone s t h (1 + n) (1 + n) ∧
      stagedIn t.dev h (fld (verbWord s.dev h 0) 27 26) (fld (verbWord s.dev h 0) 25 22) (fld (verbWord s.dev h 0) 21 18) =
        stagedIn s.dev h (fld (verbWord s.dev h 0) 27 26) (fld (verbWord s.dev h 0) 25 22) (fld (verbWord s.dev h 0) 21 18) ++
        stagedAt s.dev h (fld (verbWord s.dev h 0) 27 26) (4 * fld (verbWord s.dev h 0) 13 0) .put
          ((List.range n).map (fun i => verbWord s.dev h (1 + i))) ∧
      Leaves (fun d e => { d with regs := e.regs, cells := e.cells, scripts := e.scripts }) (· = Reg.LS_POS h) s t)) ∧
  (∀ (s : State) (h : Fin 8), targetBad (verbWord s.dev h 0) true = false → TargetOk s.dev h (verbWord s.dev h 0) 1 →
    (VerbAt s h 3 3 3 → Gives (.lsMask h) s (fun t => VerbDone s t h 3 3 ∧
      stagedIn t.dev h (fld (verbWord s.dev h 0) 27 26) (fld (verbWord s.dev h 0) 25 22) (fld (verbWord s.dev h 0) 21 18) =
        stagedIn s.dev h (fld (verbWord s.dev h 0) 27 26) (fld (verbWord s.dev h 0) 25 22) (fld (verbWord s.dev h 0) 21 18) ++
        stagedAt s.dev h (fld (verbWord s.dev h 0) 27 26) (4 * fld (verbWord s.dev h 0) 13 0) (.mask (verbWord s.dev h 1)) [verbWord s.dev h 2] ∧
      Leaves (fun d e => { d with regs := e.regs, cells := e.cells, scripts := e.scripts }) (· = Reg.LS_POS h) s t)) ∧
    (VerbAt s h 4 2 2 → Gives (.lsAdd h) s (fun t => VerbDone s t h 2 2 ∧
      stagedIn t.dev h (fld (verbWord s.dev h 0) 27 26) (fld (verbWord s.dev h 0) 25 22) (fld (verbWord s.dev h 0) 21 18) =
        stagedIn s.dev h (fld (verbWord s.dev h 0) 27 26) (fld (verbWord s.dev h 0) 25 22) (fld (verbWord s.dev h 0) 21 18) ++
        stagedAt s.dev h (fld (verbWord s.dev h 0) 27 26) (4 * fld (verbWord s.dev h 0) 13 0) .add [verbWord s.dev h 1] ∧
      Leaves (fun d e => { d with regs := e.regs, cells := e.cells, scripts := e.scripts }) (· = Reg.LS_POS h) s t))) ∧
  (∀ (s : State) (h : Fin 8) (n a i : Nat), n = fld (verbWord s.dev h 0) 17 14 + 1 → VerbAt s h 5 3 (3 + n) →
    targetBad (verbWord s.dev h 0) false = false → fld (verbWord s.dev h 1) 1 0 = 0 → fld (verbWord s.dev h 2) 31 17 = 0 →
    TargetOk s.dev h (verbWord s.dev h 0) n →
    i = (match (s.dev.ls h).loop with | some (_, _, k) => if bitOf (verbWord s.dev h 2) 16 = true then k else 0 | none => 0) →
    a = (verbWord s.dev h 1).toNat + fld (verbWord s.dev h 2) 15 0 * 2 ^ 32 + 4 * n * i → memOk s.dev a (4 * n) = true → CleanWords s a (4 * n) →
    Gives (.lsFetch h) s (fun t => VerbDone s t h 3 (3 + n) ∧
      stagedIn t.dev h (fld (verbWord s.dev h 0) 27 26) (fld (verbWord s.dev h 0) 25 22) (fld (verbWord s.dev h 0) 21 18) =
        stagedIn s.dev h (fld (verbWord s.dev h 0) 27 26) (fld (verbWord s.dev h 0) 25 22) (fld (verbWord s.dev h 0) 21 18) ++
        stagedAt s.dev h (fld (verbWord s.dev h 0) 27 26) (4 * fld (verbWord s.dev h 0) 13 0) .put
          ((List.range n).map (fun k => w32 (leNat ((List.range 4).map (fun j => s.byteAt (a + 4 * k + j)))))) ∧
      Leaves (fun d e => { d with regs := e.regs, cells := e.cells, scripts := e.scripts }) (· = Reg.LS_POS h) s t)) ∧
  (∀ (s : State) (h : Fin 8), nextVerb s.dev h = some 2 →
    (targetBad (verbWord s.dev h 0) false = true ∨ 4096 < (s.dev.ls h).pc + 2 + fld (verbWord s.dev h 0) 17 14) →
    Gives (.lsWr h) s (VerbError h s)) ∧
  (∀ (s : State) (h : Fin 8), nextVerb s.dev h = some 3 →
    (targetBad (verbWord s.dev h 0) true = true ∨ 4093 < (s.dev.ls h).pc) → Gives (.lsMask h) s (VerbError h s)) ∧
  (∀ (s : State) (h : Fin 8), nextVerb s.dev h = some 4 →
    (targetBad (verbWord s.dev h 0) true = true ∨ 4094 < (s.dev.ls h).pc) → Gives (.lsAdd h) s (VerbError h s)) ∧
  (∀ (s : State) (h : Fin 8), nextVerb s.dev h = some 5 →
    (targetBad (verbWord s.dev h 0) false = true ∨ fld (verbWord s.dev h 1) 1 0 ≠ 0 ∨ fld (verbWord s.dev h 2) 31 17 ≠ 0 ∨ 4093 < (s.dev.ls h).pc) →
    Gives (.lsFetch h) s (VerbError h s)) ∧
  (∀ (s : State) (h : Fin 8) (n : Nat), n = fld (verbWord s.dev h 0) 17 14 + 1 → VerbAt s h 2 (1 + n) (1 + n) →
    targetBad (verbWord s.dev h 0) false = false →
    (targetRange (fld (verbWord s.dev h 0) 27 26) (4 * fld (verbWord s.dev h 0) 13 0) n = false ∨
      (fld (verbWord s.dev h 0) 27 26 = 0 ∧ (flockHead s.dev (fld (verbWord s.dev h 0) 25 22) ≠ h.val ∨ 8 ≤ fld (verbWord s.dev h 0) 21 18))) →
    Gives (.lsWr h) s (fun t => VerbDone s t h (1 + n) (1 + n) ∧ t.dev.bit (Reg.LS_FLAGS h) 1 = true ∧
      (t.dev.rd (Reg.LS_DROPS h)).toNat = min ((s.dev.rd (Reg.LS_DROPS h)).toNat + 1) 0xFFFFFFFF ∧
      Leaves (fun d e => { d with regs := e.regs, scripts := e.scripts }) (fun o => o = Reg.LS_POS h ∨ o = Reg.LS_FLAGS h ∨ o = Reg.LS_DROPS h) s t)) ∧
  (∀ (s : State) (h : Fin 8) (n a i : Nat), n = fld (verbWord s.dev h 0) 17 14 + 1 → VerbAt s h 5 3 (3 + n) →
    targetBad (verbWord s.dev h 0) false = false → fld (verbWord s.dev h 1) 1 0 = 0 → fld (verbWord s.dev h 2) 31 17 = 0 →
    i = (match (s.dev.ls h).loop with | some (_, _, k) => if bitOf (verbWord s.dev h 2) 16 = true then k else 0 | none => 0) →
    a = (verbWord s.dev h 1).toNat + fld (verbWord s.dev h 2) 15 0 * 2 ^ 32 + 4 * n * i →
    (memOk s.dev a (4 * n) = false → poolHit s.dev a (4 * n) = false →
      Gives (.lsFetch h) s (fun t => VerbDone s t h 3 (3 + n) ∧ t.dev.bit (Reg.LS_FLAGS h) 4 = true ∧
        Leaves (fun d e => { d with regs := e.regs, scripts := e.scripts }) (fun o => o = Reg.LS_POS h ∨ o = Reg.LS_FLAGS h) s t)) ∧
    (memOk s.dev a (4 * n) = true → (∃ w, a / 32 ≤ w ∧ w < a / 32 + wordSpan a (4 * n) ∧ s.mem.poison.contains w = true) →
      Gives (.lsFetch h) s (fun t => VerbDone s t h 3 (3 + n) ∧ t.dev.bit (Reg.LS_FLAGS h) 5 = true ∧ SameBytes s t))) ∧
  (∀ (s : State) (h : Fin 8) (n : Nat), n = fld (verbWord s.dev h 0) 17 14 + 1 → nextVerb s.dev h = some 2 → (s.dev.ls h).pc + 1 + n ≤ 4096 →
    targetBad (verbWord s.dev h 0) false = false → 96 < (s.dev.ls h).slots + (1 + n) →
    Gives (.lsWr h) s (fun t => t.dev.bit (Reg.LS_FLAGS h) 0 = true ∧ (t.dev.ls h).line = (s.dev.ls h).line + 1 ∧ (t.dev.ls h).pixel = 0 ∧
      (t.dev.rd (Reg.LS_OVER_LINES h)).toNat = min ((s.dev.rd (Reg.LS_OVER_LINES h)).toNat + 1) 0xFFFFFFFF ∧
      (t.dev.ls h).slots = (if lsGate s.dev h ((s.dev.ls h).line + 1) = true then 1 + n else 0)))

/-- R159, R168, R169, R172, R173, R176, R177: END ends the frame's script, and so does an uncorrectable word; WAIT moves its place forward, or
sets its flag when the place is behind; REP and NEXT loop; BANK and LS_BANK_REQ request a bank; SIGNAL waits for its place, and raises its flag
and event there; a faulty encoding or an opcode without a verb is a verb error.
Clauses that rest on a choice or reading of the model: log entry 1. -/
def Obligations.ControlVerbsPerform : Prop :=
  (∀ (s : State) (h : Fin 8), VerbAt s h 0 1 1 → fld (verbWord s.dev h 0) 27 0 = 0 →
    Gives (.lsEnd h false) s (fun t => (t.dev.ls h).ended = true ∧ t.dev.bit (Reg.LS_POS h) 31 = true ∧
      Leaves (fun d e => { d with regs := e.regs, scripts := e.scripts }) (· = Reg.LS_POS h) s t)) ∧
  (∀ (s : State) (h : Fin 8) (op : Nat), nextVerb s.dev h = some op →
    (10 ≤ op ∨ (op = 0 ∧ fld (verbWord s.dev h 0) 27 0 ≠ 0) → Gives (.lsEnd h false) s (VerbError h s)) ∧
    (op = 1 → (modeOf s.dev h).hTot ≤ fld (verbWord s.dev h 0) 13 0 → Gives (.lsWait h) s (VerbError h s)) ∧
    (op = 6 → fld (verbWord s.dev h 0) 27 12 ≠ 0 ∨ fld (verbWord s.dev h 0) 11 0 = 0 ∨ (s.dev.ls h).loop ≠ none →
      Gives (.lsRep h) s (VerbError h s)) ∧
    (op = 7 → fld (verbWord s.dev h 0) 27 0 ≠ 0 ∨ (s.dev.ls h).loop = none → Gives (.lsNext h) s (VerbError h s)) ∧
    (op = 8 → fld (verbWord s.dev h 0) 27 1 ≠ 0 → Gives (.lsBank h) s (VerbError h s)) ∧
    (op = 9 → fld (verbWord s.dev h 0) 27 2 ≠ 0 → Gives (.lsSignal h) s (VerbError h s))) ∧
  (∀ (s : State) (h : Fin 8) (op : Nat), VerbAt s h op 1 1 →
    Gives (.lsEnd h true) s (fun t => (t.dev.ls h).ended = true ∧ t.dev.bit (Reg.LS_FLAGS h) 5 = true ∧
      Leaves (fun d e => { d with regs := e.regs, scripts := e.scripts }) (fun o => o = Reg.LS_POS h ∨ o = Reg.LS_FLAGS h) s t)) ∧
  (∀ (s : State) (h : Fin 8) (n x : Nat), VerbAt s h 1 1 1 → x = fld (verbWord s.dev h 0) 13 0 → x < (modeOf s.dev h).hTot →
    n = fld (verbWord s.dev h 0) 26 14 + (if bitOf (verbWord s.dev h 0) 27 = true then (s.dev.ls h).line else 0) →
    Gives (.lsWait h) s (fun t => (t.dev.ls h).pc = (s.dev.ls h).pc + 1 ∧
      (if n < (s.dev.ls h).line ∨ (n = (s.dev.ls h).line ∧ x < (s.dev.ls h).pixel) then
        t.dev.bit (Reg.LS_FLAGS h) 3 = true ∧ (t.dev.ls h).line = (s.dev.ls h).line ∧ (t.dev.ls h).pixel = (s.dev.ls h).pixel
      else (t.dev.ls h).line = n ∧ (t.dev.ls h).pixel = x ∧ (t.dev.ls h).slots = (if n = (s.dev.ls h).line then (s.dev.ls h).slots + 1 else 0) ∧
        (t.dev.ls h).ended = (decide ((modeOf s.dev h).vAct ≤ n) || decide (4096 ≤ (s.dev.ls h).pc + 1))) ∧
      Leaves (fun d e => { d with regs := e.regs, scripts := e.scripts }) (fun o => o = Reg.LS_POS h ∨ o = Reg.LS_FLAGS h) s t)) ∧
  (∀ (s : State) (h : Fin 8), VerbAt s h 6 1 1 → fld (verbWord s.dev h 0) 27 12 = 0 → fld (verbWord s.dev h 0) 11 0 ≠ 0 → (s.dev.ls h).loop = none →
    Gives (.lsRep h) s (fun t => VerbDone s t h 1 1 ∧ (t.dev.ls h).loop = some ((s.dev.ls h).pc + 1, fld (verbWord s.dev h 0) 11 0, 0) ∧
      Leaves (fun d e => { d with regs := e.regs, scripts := e.scripts }) (· = Reg.LS_POS h) s t)) ∧
  (∀ (s : State) (h : Fin 8) (start left done' : Nat), VerbAt s h 7 1 1 → fld (verbWord s.dev h 0) 27 0 = 0 →
    (s.dev.ls h).loop = some (start, left, done') → 1 ≤ start → start ≤ (s.dev.ls h).pc →
    Gives (.lsNext h) s (fun t => (if 1 < left ∧ (s.dev.ls h).pc < 4095 then (t.dev.ls h).pc = start ∧ (t.dev.ls h).loop = some (start, left - 1, done' + 1)
      else (t.dev.ls h).pc = (s.dev.ls h).pc + 1 ∧ (t.dev.ls h).loop = none) ∧ (t.dev.ls h).ended = decide ((s.dev.ls h).pc = 4095) ∧
      Leaves (fun d e => { d with regs := e.regs, scripts := e.scripts }) (· = Reg.LS_POS h) s t)) ∧
  (∀ (s : State) (h : Fin 8), VerbAt s h 8 1 1 → fld (verbWord s.dev h 0) 27 1 = 0 →
    Gives (.lsBank h) s (fun t => VerbDone s t h 1 1 ∧ t.dev.bit (Reg.LS_BANK h) 1 = true ∧
      t.dev.fld (Reg.LS_BANK h) 2 2 = fld (verbWord s.dev h 0) 0 0 ∧ t.dev.fld (Reg.LS_BANK h) 0 0 = s.dev.fld (Reg.LS_BANK h) 0 0 ∧
      Leaves (fun d e => { d with regs := e.regs, scripts := e.scripts }) (fun o => o = Reg.LS_BANK h ∨ o = Reg.LS_POS h) s t)) ∧
  (∀ (s : State) (h : Fin 8) (v : Word), bitOf v 31 = true →
    Gives (.lsBankReq h v) s (fun t => t.dev.bit (Reg.LS_BANK h) 1 = true ∧ t.dev.fld (Reg.LS_BANK h) 2 2 = fld v 0 0 ∧
      t.dev.fld (Reg.LS_BANK h) 0 0 = s.dev.fld (Reg.LS_BANK h) 0 0 ∧ t.dev.resp = .ok 0 ∧ OnlyRegs (· = Reg.LS_BANK h) s t)) ∧
  (∀ (s : State) (h : Fin 8) (v : Word), bitOf v 31 = false → Gives (.lsBankReq h v) s (fun t => t = s.upd Dev.okay)) ∧
  (∀ (s : State) (h : Fin 8), VerbAt s h 9 1 1 → fld (verbWord s.dev h 0) 27 2 = 0 →
    Gives (.lsSignal h) s (fun t => VerbDone s t h 1 1 ∧ (t.dev.ls h).signals =
        (s.dev.ls h).signals ++ [((s.dev.ls h).frame, (s.dev.ls h).line, (s.dev.ls h).pixel, fld (verbWord s.dev h 0) 1 0)] ∧
      Leaves (fun d e => { d with regs := e.regs, scripts := e.scripts }) (· = Reg.LS_POS h) s t)) ∧
  (∀ (s : State) (h : Fin 8) (g : Nat × Nat × Nat × Nat) (d : Dev),
    (s.dev.ls h).signals.find? (fun g => g.1 < (s.dev.head h).seq || (g.1 = (s.dev.head h).seq && g.2.1 < (s.dev.head h).next)) = some g →
    d = (if g.1 = (s.dev.head h).seq then s.dev.passClk (pixClk s.dev h (g.2.1 * (modeOf s.dev h).hTot + g.2.2.1 - 16)) else s.dev) →
    Gives (.lsSignalReached h) s (fun t => t.mem = s.mem ∧ t.pending = s.pending ∧ t.dev =
      fire (0x10 + 8 * h.val + 2 + g.2.2.2) ((d.updLs h (fun e => { e with signals := e.signals.erase g })).setBit (Reg.LS_FLAGS h) (8 + g.2.2.2)))) ∧
  (∀ (s : State) (h : Fin 8), (s.dev.ls h).signals.find? (fun g => g.1 < (s.dev.head h).seq ||
      (g.1 = (s.dev.head h).seq && g.2.1 < (s.dev.head h).next)) = none → Gives (.lsSignalReached h) s (fun t => t = s))

/-! ### Composition (chapter 7) -/

/-- R181, R182, R224: the compositor of a RUNNING head that is no mirror begins to read the line that is due, and composes one pixel for each
active position; at its end the buffers of the line are free; a pixel that has not arrived in time is flagged, counted and sent as 0. A head
that has no line to begin, to end or to send stays as it is.
Clauses that rest on a choice or reading of the model: log entries 1, 15, 57, 139. -/
def Obligations.CompositorReadsEachLineOnce : Prop :=
  (∀ (s : State) (h : Fin 8) (lost : List Nat), headState s.dev h = 4 → isMirror s.dev h = false → (s.dev.head h).reading = false →
    (s.dev.head h).latched = false → (s.dev.head h).next < (modeOf s.dev h).vAct →
    Gives (.compLineStart h lost) s (fun t => (t.dev.head h).reading = true ∧ (t.dev.head h).next = (s.dev.head h).next + 1 ∧
      (t.dev.head h).late = [] ∧ lineStartClk s.dev h (s.dev.head h).next ≤ t.dev.clk ∧
      (∀ g, g ≠ h.val → t.dev.head g = s.dev.head g) ∧ SameMem s t ∧ t.pending = s.pending)) ∧
  (∀ (s : State) (h : Fin 8) (lost : List Nat), headState s.dev h ≠ 4 ∨ isMirror s.dev h = true ∨ (s.dev.head h).reading = true ∨
    (s.dev.head h).latched = true ∨ (modeOf s.dev h).vAct ≤ (s.dev.head h).next → Gives (.compLineStart h lost) s (fun t => t = s)) ∧
  (∀ (s : State) (h : Fin 8), (s.dev.head h).reading = true →
    Gives (.compLineEnd h) s (fun t => (t.dev.head h).reading = false ∧ (t.dev.head h).next = (s.dev.head h).next ∧
      (t.dev.head h).out.length = (modeOf s.dev h).hAct ∧ (∀ x ∈ (s.dev.head h).late, (t.dev.head h).out.getD x 0 = 0) ∧
      pixClk s.dev h (((s.dev.head h).next - 1) * (modeOf s.dev h).hTot + (modeOf s.dev h).hAct - 17) ≤ t.dev.clk ∧
      (∀ f < 16, ∀ p < 8, flockHead s.dev f = h.val → kindOf s.dev f p ≠ 4 → ∀ b ∈ (t.dev.cell f p).bufs,
        (s.dev.head h).seq < b.frame ∨ (b.frame = (s.dev.head h).seq ∧ (s.dev.head h).next - 1 < b.line)) ∧
      (∀ g, g ≠ h.val → (mirrorsOf s.dev h).contains g = false → t.dev.head g = s.dev.head g) ∧ SameMem s t ∧ t.pending = s.pending)) ∧
  (∀ (s : State) (h : Fin 8), (s.dev.head h).reading = false → Gives (.compLineEnd h) s (fun t => t = s)) ∧
  (∀ (s : State) (h : Fin 8) (x : Nat), headState s.dev h = 4 → (s.dev.head h).reading = true → x < (modeOf s.dev h).hAct →
    (s.dev.head h).late.contains x = false →
    Gives (.compPixelLate h x) s (fun t => (t.dev.head h).late = x :: (s.dev.head h).late ∧ t.dev.bit (Reg.COMP_STATUS h) 0 = true ∧
      (t.dev.rd (Reg.COMP_LATE h)).toNat = min ((s.dev.rd (Reg.COMP_LATE h)).toNat + 1) 0xFFFFFFFF ∧
      (∀ g, g ≠ h.val → t.dev.head g = s.dev.head g) ∧
      Leaves (fun d e => { d with regs := e.regs, heads := e.heads }) (fun o => o = Reg.COMP_STATUS h ∨ o = Reg.COMP_LATE h) s t)) ∧
  (∀ (s : State) (h : Fin 8) (x : Nat), headState s.dev h ≠ 4 ∨ (s.dev.head h).reading = false ∨ (modeOf s.dev h).hAct ≤ x ∨
    (s.dev.head h).late.contains x = true → Gives (.compPixelLate h x) s (fun t => t = s))
/-! ### Heads (chapter 8) -/

/-- R212, R213, R224: START leads a STOPPED or STANDBY head to STARTING and a mirror to its source's state; STOP and STANDBY lead a STARTING head
out at once and wait for the blanking in DARK and RUNNING; a command that the table does not allow sets CMD_REFUSED alone.
Clauses that rest on a choice or reading of the model: log entry 62. -/
def Obligations.HeadCommandsFollowTheirTable : Prop :=
  (∀ (s : State) (h : Fin 8), isMirror s.dev h = false →
    Gives (.headStart h) s (fun t =>
      (if headState s.dev h = 1 ∨ headState s.dev h = 5 then headState t.dev h = 2 ∧ (t.dev.head h).startClk = s.dev.clk ∧ (t.dev.head h).stop = 0
      else t.dev = s.dev.setBit (Reg.HEAD_FLAGS h) 7) ∧
      Leaves (fun d e => { d with regs := e.regs, heads := e.heads, tasks := e.tasks }) (fun o => InHeads o ∨ InConj o) s t)) ∧
  (∀ (s : State) (h : Fin 8), isMirror s.dev h = true → (headState s.dev h = 1 ∨ headState s.dev h = 5) →
    Gives (.headStart h) s (fun t => headState t.dev h = headState s.dev (s.dev.fld (Reg.HEAD_STATUS h) 14 12) ∧ (t.dev.head h).own = false ∧
      Leaves (fun d e => { d with regs := e.regs, heads := e.heads, tasks := e.tasks }) (fun o => InHeads o ∨ InConj o) s t)) ∧
  (∀ (s : State) (h : Fin 8), isMirror s.dev h = true → headState s.dev h ≠ 1 → headState s.dev h ≠ 5 →
    Gives (.headStart h) s (fun t => t = s.upd (fun d => d.setBit (Reg.HEAD_FLAGS h) 7))) ∧
  (∀ (s : State) (h : Fin 8) (standby : Bool),
    Gives (if standby then .headStandby h else .headStop h) s (fun t =>
      (headState s.dev h = 3 ∨ headState s.dev h = 4 → (t.dev.head h).stop = (if standby then 2 else 1) ∧ t.dev.regs = s.dev.regs) ∧
      (headState s.dev h = 2 ∨ (headState s.dev h = 1 ∧ standby = true) → headState t.dev h = (if standby then 5 else 1) ∧
        t.dev.bit (Reg.HEAD_FLAGS h) 3 = true ∧ (standby = true → (t.dev.head h).genOn = false ∧ t.dev.bit (Reg.PHY_STATUS h) 1 = false)) ∧
      (headState s.dev h = 0 ∨ headState s.dev h = 5 ∨ (headState s.dev h = 1 ∧ standby = false) →
        t.dev.rd (Reg.HEAD_FLAGS h) = s.dev.rd (Reg.HEAD_FLAGS h) ||| 0x80 ∧ headState t.dev h = headState s.dev h) ∧
      Leaves (fun d e => { d with regs := e.regs, heads := e.heads, scripts := e.scripts }) InHeads s t))

/-- R208, R209, R213, R222: a frame starts at the instant that its generator gives it: its sequence number steps, STARTING leads to DARK and DARK
to RUNNING, FRAME sets, LOCK_ERR takes the frame's error, which is 0 in command mode, and LOCKED tells whether it is at most 4 ns. A head that may
not start a frame stays as it is.
Clauses that rest on a choice or reading of the model: log entries 1, 61, 62, 64. -/
def Obligations.FramesStartAtTheirEpoch : Prop :=
  (∀ (s : State) (h : Fin 8) (d : Dev) (k fs at' : Nat), mayFrame s.dev h = true →
    d = (if predicts s.dev h = true then predict h (s.dev.beamTo h ((modeOf s.dev h).vTot - 7) 0) else s.dev) → nextFrame d h = (k, fs, at') →
    Gives (.headFrameStart h) s (fun t => (t.dev.head h).seq = (s.dev.head h).seq + 1 ∧ (t.dev.head h).next = 0 ∧ (t.dev.head h).genOn = true ∧
      (t.dev.head h).latched = false ∧ (t.dev.head h).decided = false ∧ (t.dev.head h).reading = false ∧ (t.dev.head h).predicted = false ∧
      (t.dev.head h).k = k ∧ (t.dev.head h).fs = fs ∧ (t.dev.head h).fsClk = at' ∧ t.dev.clk = max d.clk at' ∧
      headState t.dev h = frameState (headState s.dev h) ∧ t.dev.bit (Reg.HEAD_FLAGS h) 0 = true ∧
      (∀ e : Int, e = (t.dev.now : Int) - (t.dev.clk - at' : Nat) - fs →
        t.dev.rd (Reg.LOCK_ERR h) = (if isCommand s.dev h = true then 0 else iw (clampI (-(2 ^ 31 - 1)) (2 ^ 31 - 1) e)) ∧
        t.dev.bit (Reg.HEAD_STATUS h) 3 = decide (isCommand s.dev h = false ∧ -4 ≤ e ∧ e ≤ 4)) ∧
      SameMem s t ∧ t.pending = s.pending)) ∧
  (∀ (s : State) (h : Fin 8), mayFrame s.dev h = false → Gives (.headFrameStart h) s (fun t => t = s))

/-- R210, R213, R217, R219, R229, R569: the PHY comes up, and a head that must wait for the herd waits; training attempts succeed, fail and, 1 s
after a failed series, start again, while a PHY in the repair map never trains; hot-plug edges are noted, the next frame is predicted, with a
relock when its epoch lies more than a line period away, and LINE_MATCH raises its flag.
Clauses that rest on a choice or reading of the model: log entries 1, 9, 61. -/
def Obligations.HeadLinksAndPredictionsPerform : Prop :=
  (∀ (s : State) (h : Fin 8) (hpd : Bool), phyPowered s.dev h = true → s.dev.bit (Reg.PHY_STATUS h) 1 = false → (s.dev.head h).genOn = false →
    (s.dev.head h).ready = false →
    Gives (.headLinkReady h hpd) s (fun t =>
      (if herdRole s.dev = 0 ∧ herdJoined s.dev = false ∧ s.dev.clk - (s.dev.head h).startClk < 1000000000 then
        (t.dev.head h).awaitJoin = true ∧ (t.dev.head h).ready = false
      else (t.dev.head h).awaitJoin = false ∧ (t.dev.head h).ready = true ∧ (t.dev.head h).readyHt = s.dev.now) ∧
      t.dev.bit (Reg.PHY_STATUS h) 1 = ((isDsi s.dev h || hpd) && !phyBad s.dev h) ∧
      (isDsi s.dev h = false → t.dev.bit (Reg.PHY_STATUS h) 0 = hpd) ∧
      (∀ g, g ≠ h.val → t.dev.head g = s.dev.head g) ∧
      Leaves (fun d e => { d with regs := e.regs, heads := e.heads }) (· = Reg.PHY_STATUS h) s t)) ∧
  (∀ (s : State) (h : Fin 8) (hpd : Bool), phyPowered s.dev h = false ∨ s.dev.bit (Reg.PHY_STATUS h) 1 = true →
    Gives (.headLinkReady h hpd) s (fun t => t = s)) ∧
  (∀ (s : State) (h : Fin 8), isDsi s.dev h = false → phyPowered s.dev h = true → s.dev.bit (Reg.PHY_STATUS h) 0 = true →
    s.dev.bit (Reg.PHY_STATUS h) 1 = false →
    ((s.dev.head h).tries < 3 → ∀ ok : Bool, Gives (.linkTrainAttemptDone h ok) s (fun t =>
      t.dev.bit (Reg.PHY_STATUS h) 1 = (ok && !phyBad s.dev h) ∧
      (if ok = true ∧ phyBad s.dev h = false then
        t.dev.fld (Reg.PHY_STATUS h) 15 8 = 0 ∧ (t.dev.head h).trained = true ∧ (t.dev.head h).tries = 0
      else t.dev.fld (Reg.PHY_STATUS h) 15 8 = min 255 (s.dev.fld (Reg.PHY_STATUS h) 15 8 + 1) ∧
        (t.dev.head h).tries = (s.dev.head h).tries + 1 ∧ (t.dev.head h).failClk = s.dev.clk ∧
        ((s.dev.head h).tries = 2 → t.dev.bit (Reg.HEAD_FLAGS h) 5 = true)) ∧
      (∀ g, g ≠ h.val → t.dev.head g = s.dev.head g) ∧
      Leaves (fun d e => { d with regs := e.regs, heads := e.heads }) (fun o => o = Reg.PHY_STATUS h ∨ o = Reg.HEAD_FLAGS h) s t)) ∧
    (3 ≤ (s.dev.head h).tries → Gives (.trainRetry h) s (fun t => (t.dev.head h).tries = 0 ∧
      t.dev.clk = max s.dev.clk ((s.dev.head h).failClk + 1000000000) ∧ (∀ g, g ≠ h.val → t.dev.head g = s.dev.head g) ∧
      Leaves (fun d e => { d with heads := e.heads, ht := e.ht, clk := e.clk }) (fun _ => False) s t))) ∧
  (∀ (s : State) (h : Fin 8), isDsi s.dev h = true → Gives (.hpdRise h) s (fun t => t = s) ∧ Gives (.hpdLoss h) s (fun t => t = s) ∧
    (∀ lost, Gives (.hpdIrqPulse h lost) s (fun t => t = s)) ∧ ∀ ok, Gives (.linkTrainAttemptDone h ok) s (fun t => t = s)) ∧
  (∀ (s : State) (h : Fin 8), isDsi s.dev h = false →
    Gives (.hpdRise h) s (fun t => t.dev.bit (Reg.PHY_STATUS h) 0 = true ∧ (t.dev.head h).tries = 0 ∧
      Leaves (fun d e => { d with regs := e.regs, heads := e.heads }) (· = Reg.PHY_STATUS h) s t) ∧
    (s.dev.bit (Reg.PHY_STATUS h) 0 = true →
      Gives (.hpdLoss h) s (fun t => t.dev.bit (Reg.PHY_STATUS h) 0 = false ∧ t.dev.bit (Reg.PHY_STATUS h) 1 = false ∧ (t.dev.head h).trained = false ∧
        (phyPowered s.dev h = true → t.dev.bit (Reg.HEAD_FLAGS h) 4 = true) ∧
        Leaves (fun d e => { d with regs := e.regs, heads := e.heads }) (fun o => o = Reg.PHY_STATUS h ∨ o = Reg.HEAD_FLAGS h) s t) ∧
      (phyPowered s.dev h = true → ∀ lost, Gives (.hpdIrqPulse h lost) s (fun t => t.dev.bit (Reg.HEAD_FLAGS h) 11 = true ∧
        t.dev.bit (Reg.PHY_STATUS h) 1 = (s.dev.bit (Reg.PHY_STATUS h) 1 && !lost) ∧
        Leaves (fun d e => { d with regs := e.regs, heads := e.heads }) (fun o => o = Reg.PHY_STATUS h ∨ o = Reg.HEAD_FLAGS h) s t)))) ∧
  (∀ (s : State) (h : Fin 8) (d : Dev) (late : Nat), predicts s.dev h = true → phyPowered s.dev h = true →
    d = s.dev.beamTo h ((modeOf s.dev h).vTot - 7) 0 →
    late = (((d.clk : Int) + (modeOf s.dev h).fs ((s.dev.head h).k + 1) - d.now) -
      ((s.dev.head h).fsClk + (modeOf s.dev h).span ((modeOf s.dev h).hTot * (modeOf s.dev h).vTot) : Nat)).natAbs →
    Gives (.headFramePredict h) s (fun t => (t.dev.head h).predicted = true ∧ t.dev.clk = d.clk ∧
      (if (modeOf s.dev h).pn < late * (modeOf s.dev h).pd * (modeOf s.dev h).vTot then
        (t.dev.head h).relocked = true ∧ t.dev.bit (Reg.HEAD_FLAGS h) 6 = true ∧ (t.dev.head h).predFs = (modeOf s.dev h).fs (t.dev.head h).predK ∧
          (t.dev.rd (Reg.RELOCKS h)).toNat = min ((s.dev.rd (Reg.RELOCKS h)).toNat + 1) 0xFFFFFFFF
      else (t.dev.head h).relocked = false ∧ (t.dev.head h).predK = (s.dev.head h).k + 1 ∧
        (t.dev.head h).predFs = (modeOf s.dev h).fs ((s.dev.head h).k + 1)) ∧
      (∀ g, g ≠ h.val → t.dev.head g = s.dev.head g) ∧
      Leaves (fun d e => { d with regs := e.regs, heads := e.heads, ht := e.ht, clk := e.clk })
        (fun o => o = Reg.HEAD_FLAGS h ∨ o = Reg.RELOCKS h) s t)) ∧
  (∀ (s : State) (h : Fin 8), predicts s.dev h = false ∨ phyPowered s.dev h = false → Gives (.headFramePredict h) s (fun t => t = s)) ∧
  (∀ (s : State) (h : Fin 8), phyPowered s.dev h = true → (s.dev.head (beamHead s.dev h)).genOn = true →
    (if s.dev.fld (Reg.LINE_MATCH h) 12 0 < (modeOf s.dev h).vTot ∧ s.dev.fld (Reg.LINE_MATCH h) 29 16 < (modeOf s.dev h).hTot then
      Gives (.beamLineMatch h) s (fun t => t.dev.bit (Reg.HEAD_FLAGS h) 1 = true ∧
        t.dev.clk = max s.dev.clk (beamClk s.dev (beamHead s.dev h) (s.dev.fld (Reg.LINE_MATCH h) 12 0) (s.dev.fld (Reg.LINE_MATCH h) 29 16)) ∧
        Leaves (fun d e => { d with regs := e.regs, ht := e.ht, clk := e.clk, tasks := e.tasks }) (fun o => o = Reg.HEAD_FLAGS h ∨ InConj o) s t)
    else Gives (.beamLineMatch h) s (fun t => t = s)))

/-- R219, R222, R223, SIDE_CMD: a side-channel transaction starts and ends with its result, a deferred one is repeated up to 7 times, one without
a reply times out, and one that is faulty or cannot reach its sink ends at once; in DSI command mode a TE edge that counts is accepted, another is
flagged, and a missing one is replaced.
Clauses that rest on a choice or reading of the model: log entries 1, 14, 117. -/
def Obligations.SideChannelAndTearingEdges : Prop :=
  (∀ (s : State) (h : Fin 8) (v : Word), s.dev.bit (Reg.SIDE_STATUS h) 0 = false → bitOf v 31 = true →
    (isDsi s.dev h = true ∨ auxCode (fld v 3 0) = true) → sideReach s.dev h = true →
    Gives (.sideTransaction h v) s (fun t => t.dev.rd (Reg.SIDE_STATUS h) = 1 ∧ (t.dev.head h).sideReq = v &&& 0xFFFFFFF ∧
      (t.dev.head h).sideTries = 0 ∧ t.dev.resp = .ok 0 ∧ (∀ g, g ≠ h.val → t.dev.head g = s.dev.head g) ∧
      Leaves (fun d e => { d with regs := e.regs, heads := e.heads, resp := e.resp }) (· = Reg.SIDE_STATUS h) s t)) ∧
  (∀ (s : State) (h : Fin 8) (v : Word), s.dev.bit (Reg.SIDE_STATUS h) 0 = true ∨ bitOf v 31 = false →
    Gives (.sideTransaction h v) s (fun t => t = s.upd Dev.okay)) ∧
  (∀ (s : State) (h : Fin 8) (v : Word), s.dev.bit (Reg.SIDE_STATUS h) 0 = false → bitOf v 31 = true →
    ((isDsi s.dev h = false ∧ auxCode (fld v 3 0) = false) ∨ sideReach s.dev h = false) →
    Gives (.sideTransaction h v) s (fun t =>
      t.dev.rd (Reg.SIDE_STATUS h) = (if isDsi s.dev h = false ∧ auxCode (fld v 3 0) = false then 8 else 10) ∧
      t.dev.bit (Reg.HEAD_FLAGS h) 12 = true ∧ t.dev.resp = .ok 0 ∧ OnlyRegs (fun o => o = Reg.SIDE_STATUS h ∨ o = Reg.HEAD_FLAGS h) s t)) ∧
  (∀ (s : State) (h : Fin 8), s.dev.bit (Reg.SIDE_STATUS h) 0 = true →
    (isDsi s.dev h = false →
      Gives (.auxDeferRetry h) s (fun t => (if (s.dev.head h).sideTries < 7 then (t.dev.head h).sideTries = (s.dev.head h).sideTries + 1 ∧
            t.dev.rd (Reg.SIDE_STATUS h) = s.dev.rd (Reg.SIDE_STATUS h)
          else t.dev.rd (Reg.SIDE_STATUS h) = 4 ∧ t.dev.bit (Reg.HEAD_FLAGS h) 12 = true) ∧
        Leaves (fun d e => { d with regs := e.regs, heads := e.heads }) (fun o => o = Reg.SIDE_STATUS h ∨ o = Reg.HEAD_FLAGS h) s t) ∧
      Gives (.auxTimeout h) s (fun t => t.dev.rd (Reg.SIDE_STATUS h) = 6 ∧ t.dev.bit (Reg.HEAD_FLAGS h) 12 = true ∧
        OnlyRegs (fun o => o = Reg.SIDE_STATUS h ∨ o = Reg.HEAD_FLAGS h) s t)) ∧
    (∀ (result : Fin 6) (wrote : Nat) (data : List Byte), sideReads s.dev h = false →
      Gives (.sideTransactionDone h result wrote data) s (fun t => t.dev.rd (Reg.SIDE_STATUS h) = w32 (result.val * 2 + min wrote 16 * 16) ∧
        t.dev.bit (Reg.HEAD_FLAGS h) 12 = true ∧ OnlyRegs (fun o => o = Reg.SIDE_STATUS h ∨ o = Reg.HEAD_FLAGS h) s t)) ∧
    (∀ (result : Fin 6) (wrote : Nat) (data b : List Byte), sideReads s.dev h = true → b = (if result.val = 0 then data.take 16 else []) →
      Gives (.sideTransactionDone h result wrote data) s (fun t => t.dev.rd (Reg.SIDE_STATUS h) = w32 (result.val * 2 + b.length * 16) ∧
        (∀ i < b.length, t.dev.fld (Reg.SIDE_DATA h (i / 4)) (8 * (i % 4) + 7) (8 * (i % 4)) = (b.getD i 0).toNat) ∧
        t.dev.bit (Reg.HEAD_FLAGS h) 12 = true ∧
        OnlyRegs (fun o => o = Reg.SIDE_STATUS h ∨ o = Reg.HEAD_FLAGS h ∨ ∃ j < 4, o = Reg.SIDE_DATA h j) s t))) ∧
  (∀ (s : State) (h : Fin 8) (rising : Bool) (wait : Nat), isCommand s.dev h = true → rising = !s.dev.bit (Reg.TE_CTRL h) 0 →
    Gives (.teEdge h rising wait) s (fun t => t.dev.clk = s.dev.clk + wait ∧
      (headState s.dev h = 2 → (s.dev.head h).ready = true → (t.dev.head h).teAccepted = true ∧ (t.dev.head h).teHt = t.dev.now) ∧
      (headState s.dev h = 2 → (s.dev.head h).ready = false → t.dev.bit (Reg.HEAD_FLAGS h) 9 = true) ∧
      (headState s.dev h = 3 ∨ headState s.dev h = 4 → (s.dev.head h).decided = false → t.dev.bit (Reg.HEAD_FLAGS h) 9 = true) ∧
      (headState s.dev h = 3 ∨ headState s.dev h = 4 → (s.dev.head h).decided = true → (s.dev.head h).teAccepted = true →
        (t.dev.head h).teHt = t.dev.now) ∧
      (headState s.dev h = 3 ∨ headState s.dev h = 4 → (s.dev.head h).decided = true → (s.dev.head h).teAccepted = false →
        if sinceDecision (s.dev.pass wait) h 6 = true then (t.dev.head h).teAccepted = true ∧ (t.dev.head h).teHt = t.dev.now
        else t.dev.bit (Reg.HEAD_FLAGS h) 9 = true ∧ (t.dev.head h).teAccepted = false) ∧
      Leaves (fun d e => { d with regs := e.regs, heads := e.heads, ht := e.ht, clk := e.clk })
        (fun o => o = Reg.TE_PHASE h ∨ o = Reg.HEAD_FLAGS h) s t)) ∧
  (∀ (s : State) (h : Fin 8) (rising : Bool) (wait : Nat),
    isCommand s.dev h = false ∨ rising = s.dev.bit (Reg.TE_CTRL h) 0 ∨ headState s.dev h < 2 ∨ 4 < headState s.dev h →
    Gives (.teEdge h rising wait) s (fun t => t = s.upd (fun d => d.pass wait))) ∧
  (∀ (s : State) (h : Fin 8), isCommand s.dev h = false ∨ (s.dev.head h).teAccepted = true → Gives (.teMissing h) s (fun t => t = s)) ∧
  (∀ (s : State) (h : Fin 8), isCommand s.dev h = true → (s.dev.head h).teAccepted = false →
    ((headState s.dev h = 2 ∧ (s.dev.head h).ready = true) ∨ ((headState s.dev h = 3 ∨ headState s.dev h = 4) ∧ (s.dev.head h).decided = true)) →
    Gives (.teMissing h) s (fun t => (t.dev.head h).teAccepted = true ∧ t.dev.bit (Reg.HEAD_FLAGS h) 10 = true ∧
      t.dev.clk = max s.dev.clk ((s.dev.head h).sendHt + (2 * (modeOf s.dev h).pn + (modeOf s.dev h).pd - 1) / (modeOf s.dev h).pd) ∧
      Leaves (fun d e => { d with regs := e.regs, heads := e.heads, ht := e.ht, clk := e.clk }) (· = Reg.HEAD_FLAGS h) s t))

/-! ### Regimes, the array rail and the steward (chapters 1, 3, 10) -/

/-- R26, R30, R31: a move to Draught starts, or is refused while a cell has twin mode set; a write of MODE takes its cap, checkpoint interval
and scrub rate, or is refused as a whole: in Draught, in a move past its step 1, out of range, or with a cap below what some twin cell needs.
Clauses that rest on a choice or reading of the model: log entries 20, 119. -/
def Obligations.RegimeAndModeWrites : Prop :=
  (∀ (s : State) (q : Req) (v : Word), s.dev.keeper q = true → bitOf v 0 = true → s.dev.bit Reg.REGIME_STATUS 0 = false →
    s.dev.bit Reg.REGIME_STATUS 1 = false →
    Gives (.toDraught q v) s (fun t => t.dev.resp = .ok 0 ∧
      (if anyTwin s.dev = true then t.dev.rd Reg.REGIME_STATUS = s.dev.rd Reg.REGIME_STATUS ||| 4 ∧ t.dev.rd Reg.MODE = s.dev.rd Reg.MODE
      else (t.dev.bit Reg.REGIME_STATUS 1 = true ∧ t.dev.rail.frozen = (s.dev.rail.frozen || !repenBusy s.dev)) ∨
        (t.dev.bit Reg.REGIME_STATUS 0 = true ∧ t.dev.bit Reg.REGIME_STATUS 1 = false ∧ t.dev.fld Reg.MODE 4 0 = 5 ∧
          t.dev.fld Reg.MODE 15 8 = 10 ∧ t.dev.fld Reg.MODE 17 16 = 2)) ∧
      Leaves (fun d e => { d with regs := e.regs, resp := e.resp, rail := { d.rail with frozen := e.rail.frozen } })
        (fun o => o = Reg.REGIME_STATUS ∨ o = Reg.MODE) s t)) ∧
  (∀ (s : State) (q : Req) (v : Word), s.dev.keeper q = true →
    bitOf v 0 = false ∨ s.dev.bit Reg.REGIME_STATUS 0 = true ∨ s.dev.bit Reg.REGIME_STATUS 1 = true →
    Gives (.toDraught q v) s (fun t => t = s.upd Dev.okay)) ∧
  (∀ (s : State) (q : Req) (v : Word), s.dev.keeper q = true →
    Gives (.modeWrite q v) s (fun t => t.dev.resp = .ok 0 ∧
      (if s.dev.bit Reg.REGIME_STATUS 0 = false ∧ ¬ (s.dev.bit Reg.REGIME_STATUS 1 = true ∧ s.dev.rail.frozen = true) ∧
          5 ≤ fld v 4 0 ∧ fld v 4 0 ≤ 25 ∧ 5 ≤ fld v 15 8 ∧
          fld v 15 8 ≤ 25 ∧ (∀ m ∈ twinModes s.dev, doubledRate m ≤ throughput (fld v 4 0) * 1000) then
        (∀ b < 32, t.dev.bit Reg.MODE b = if b < 5 ∨ (8 ≤ b ∧ b < 18) then bitOf v b else s.dev.bit Reg.MODE b && decide (b < 8)) ∧
          OnlyRegs (· = Reg.MODE) s t
      else t.dev.rd Reg.REGIME_STATUS = s.dev.rd Reg.REGIME_STATUS ||| 8 ∧ OnlyRegs (· = Reg.REGIME_STATUS) s t))) ∧
  (∀ (s : State) (q : Req) (v : Word), s.dev.keeper q = false →
    Gives (.toDraught q v) s (fun t => t = s.upd Dev.deny) ∧ Gives (.modeWrite q v) s (fun t => t = s.upd Dev.deny))

/-- R28, R93, R94, R98, R288, R555: the steward asks for at most one step of the rail, while ARRAY_PG is high and no request is outstanding: up
after a window with a low-slack line, down above the cap or after 1 s of calm, toward the twin floor; VDone enters the level; a request that
fails is flagged and repeated 1 ms later while the cap and the floor allow its level.
Clauses that rest on a choice or reading of the model: log entries 67, 68, 138. -/
def Obligations.RailMovesOneStepAtATime : Prop :=
  (∀ (s : State) (free : Prop), free = (s.dev.rail.pg = true ∧ s.dev.rail.request = none) →
    (∀ want : Option Nat, want = (if lowerTo s.dev < railLevel s.dev then some (railLevel s.dev - 1)
        else if s.dev.rail.low = true ∧ railLevel s.dev < railCap s.dev then some (railLevel s.dev + 1) else none) →
      Gives .railReviewWindow s (fun t => t.dev.rail.low = false ∧ t.dev.clk = max s.dev.clk (s.dev.rail.windowAt + 100000) ∧
      (free → t.dev.rail.request = want ∧ (want ≠ none → t.dev.bit Reg.RAIL_STATUS 10 = true)) ∧ (¬ free → t.dev.rail.request = s.dev.rail.request) ∧
      (s.dev.rail.low = true → lowerTo s.dev < railLevel s.dev ∨ railCap s.dev ≤ railLevel s.dev →
        t.dev.bit Reg.ST_FLAGS 7 = true ∧ ∀ f < 16, t.dev.bit (Reg.FLOCK_STATUS f) 11 = true) ∧
      Leaves (fun d e => { d with regs := e.regs, rail := e.rail, ht := e.ht, clk := e.clk })
        (fun o => o = Reg.RAIL_STATUS ∨ o = Reg.ST_FLAGS ∨ ∃ f < 16, o = Reg.FLOCK_STATUS f) s t)) ∧
    Gives .railStepDown s (fun t => t.dev.clk = max s.dev.clk (s.dev.rail.calmFrom + 1000000000) ∧
      (free → railFloor s.dev < railLevel s.dev → t.dev.rail.request = some (railLevel s.dev - 1) ∧ t.dev.rail.calmFrom = t.dev.clk) ∧
      (¬ free ∨ railLevel s.dev ≤ railFloor s.dev → t.dev.rail = s.dev.rail) ∧
      Leaves (fun d e => { d with regs := e.regs, rail := e.rail, ht := e.ht, clk := e.clk }) (· = Reg.RAIL_STATUS) s t) ∧
    Gives .twinFloorStep s (fun t => t.dev.clk = max s.dev.clk (s.dev.rail.stepAt + 100000) ∧
      (free → railLevel s.dev < railFloor s.dev → t.dev.rail.request = some (railLevel s.dev + 1) ∧ t.dev.rail.stepAt = t.dev.clk) ∧
      (¬ free ∨ railFloor s.dev ≤ railLevel s.dev → t.dev.rail.request = s.dev.rail.request) ∧
      Leaves (fun d e => { d with regs := e.regs, rail := e.rail, ht := e.ht, clk := e.clk }) (· = Reg.RAIL_STATUS) s t) ∧
    (∀ l, s.dev.rail.failed = some l → Gives .avsRetry s (fun t => t.dev.clk = max s.dev.clk (s.dev.rail.failedAt + 1000000) ∧
      (if (if railLevel s.dev < l then l ≤ railCap s.dev else railFloor s.dev ≤ l) then
        (free → t.dev.rail.request = some l ∧ t.dev.bit Reg.RAIL_STATUS 10 = true) ∧ (¬ free → t.dev.rail = s.dev.rail)
      else t.dev.rail = { s.dev.rail with failed := none }) ∧
      Leaves (fun d e => { d with regs := e.regs, rail := e.rail, ht := e.ht, clk := e.clk }) (· = Reg.RAIL_STATUS) s t))) ∧
  (∀ (s : State) (l : Nat), s.dev.rail.request = some l →
    (∀ lvl : Fin 26, Gives (.avsVdone lvl) s (fun t => t.dev.rail.request = none ∧ railLevel t.dev = lvl.val ∧ t.dev.bit Reg.RAIL_STATUS 10 = false ∧
      (railLevel s.dev < lvl.val → (t.dev.rd Reg.RAIL_UPS).toNat = min ((s.dev.rd Reg.RAIL_UPS).toNat + 1) 0xFFFFFFFF) ∧
      (lvl.val < railLevel s.dev → (t.dev.rd Reg.RAIL_DOWNS).toNat = min ((s.dev.rd Reg.RAIL_DOWNS).toNat + 1) 0xFFFFFFFF ∧
        ∀ f < 16, t.dev.bit (Reg.FLOCK_STATUS f) 11 = false) ∧
      Leaves (fun d e => { d with regs := e.regs, rail := e.rail })
        (fun o => o = Reg.RAIL_STATUS ∨ o = Reg.RAIL_UPS ∨ o = Reg.RAIL_DOWNS ∨ o = Reg.REGIME_STATUS ∨ o = Reg.MODE ∨
          ∃ f < 16, o = Reg.FLOCK_STATUS f) s t)) ∧
    Gives .avsTimeout s (fun t => t.dev.rail.request = none ∧ t.dev.rail.failed = some l ∧ t.dev.rail.failedAt = s.dev.clk ∧
      t.dev.bit Reg.ST_FLAGS 8 = true ∧ t.dev.bit Reg.RAIL_STATUS 10 = false ∧
      Leaves (fun d e => { d with regs := e.regs, rail := e.rail }) (fun o => o = Reg.RAIL_STATUS ∨ o = Reg.ST_FLAGS) s t)) ∧
  (∀ s : State, s.dev.rail.request = none → Gives .avsTimeout s (fun t => t = s) ∧ ∀ lvl : Fin 26, Gives (.avsVdone lvl) s (fun t => t = s)) ∧
  (∀ s : State, s.dev.rail.failed = none → Gives .avsRetry s (fun t => t = s))

/-- R264 to R266, R602: a failed cell of a post that owes work is taken over by the flock's spare, or its post waits for one; the spare loads the
post's entry and takes the generation's stamp, and the post rejoins on it, which leaves the flock without a spare unless a cell that has passed
its self-test waits for the spare post. A failed spare is replaced, and the cell of a post that owes no work leaves its post without one.
Clauses that rest on a choice or reading of the model: log entries 60, 63, 66, 136. -/
def Obligations.SpareTakesOverAFailedCell : Prop :=
  (∀ (s : State) (f : Fin 16) (c : Fin 9) (p : Nat) (dog : Bool), postOf s.dev f c = some p → p < 8 → underTakeover s.dev f p = false →
    owesWork s.dev f p = true →
    Gives (.cellFaultDetect f c dog) s (fun t => t.dev.bit (Reg.FLOCK_STATUS f) 9 = true ∧ joined t.dev f p = false ∧
      t.dev.rd (Reg.CELL_GEN f p) = 0 ∧
      (if (s.dev.flock f).takeover = none ∧ spareCell s.dev f ≠ 15 then
        ∃ x, (t.dev.flock f).takeover = some x ∧ x.post = p ∧ x.cell = c.val ∧ x.ht = s.dev.now ∧
          x.loaded = decide (s.dev.fld (Reg.FLOCK_STATUS f) 15 12 = p)
      else (t.dev.flock f).takeover = (s.dev.flock f).takeover ∧ (t.dev.flock f).testing.contains c.val = true ∧
        ∃ x, (t.dev.flock f).waiting = (s.dev.flock f).waiting ++ [x] ∧ x.post = p ∧ x.cell = c.val) ∧
      (∀ g, g ≠ f.val → t.dev.flock g = s.dev.flock g) ∧ SameMem s t ∧ t.pending = s.pending)) ∧
  (∀ (s : State) (f : Fin 16) (c : Fin 9) (p : Nat), postOf s.dev f c = some p → p < 8 → underTakeover s.dev f p = false →
    owesWork s.dev f p = false →
    Gives (.cellFaultDetect f c true) s (fun t => t = s) ∧
    Gives (.cellFaultDetect f c false) s (fun t => postCell t.dev f p = 15 ∧ t.dev.bit (Reg.NOCELL (f / 4)) (8 * (f % 4) + p) = true ∧
      joined t.dev f p = false ∧ t.dev.rd (Reg.CELL_GEN f p) = 0 ∧ (t.dev.flock f).testing.contains c.val = true ∧
      (∀ g, g ≠ f.val → t.dev.flock g = s.dev.flock g) ∧ SameMem s t ∧ t.pending = s.pending)) ∧
  (∀ (s : State) (f : Fin 16) (c : Fin 9) (dog : Bool), postOf s.dev f c = some 8 →
    Gives (.cellFaultDetect f c dog) s (fun t => (t.dev.flock f).testing.contains c.val = true ∧
      ((s.dev.flock f).ready = [] → spareCell t.dev f = 15 ∧ t.dev.bit (Reg.FLOCK_STATUS f) 8 = true) ∧
      (∀ n l, (s.dev.flock f).ready = n :: l → n < 9 → spareCell t.dev f = n ∧ (t.dev.flock f).ready = l) ∧
      (∀ g, g ≠ f.val → t.dev.flock g = s.dev.flock g) ∧ SameMem s t ∧ t.pending = s.pending)) ∧
  (∀ (s : State) (f : Fin 16) (c : Fin 9) (dog : Bool),
    postOf s.dev f c = none ∨ (∃ p, postOf s.dev f c = some p ∧ p < 8 ∧ underTakeover s.dev f p = true) →
    Gives (.cellFaultDetect f c dog) s (fun t => t = s)) ∧
  (∀ (s : State) (f : Fin 16) (x : Takeover) (code : CopyCond), (s.dev.flock f).takeover = some x → x.loaded = false → x.post < 8 →
    Gives (.takeoverSpareLoaded f code) s (fun t => (∃ y, (t.dev.flock f).takeover = some y ∧ y.loaded = true ∧ y.post = x.post ∧ y.cell = x.cell ∧
        y.from_ = rejoinLine s.dev (flockHead s.dev f)) ∧
      t.dev.rd (Reg.CELL_GEN f 8) = s.dev.rd Reg.GLOBAL_GEN ∧
      (code = .good → Leaves (fun d e => { d with regs := e.regs, cells := e.cells, flocks := e.flocks }) (· = Reg.CELL_GEN f 8) s t) ∧
      (code = .oneSymbol → t.dev.bit Reg.MEM_FLAGS 0 = true) ∧
      (code = .bad → t.dev.bit Reg.MEM_FLAGS 1 = true ∧ t.dev.bit (Reg.FLOCK_IRQ f) 3 = true) ∧ SameMem s t ∧ t.pending = s.pending)) ∧
  (∀ (s : State) (f : Fin 16) (code : CopyCond), (∀ x, (s.dev.flock f).takeover = some x → x.loaded = true) →
    Gives (.takeoverSpareLoaded f code) s (fun t => t = s)) ∧
  (∀ (s : State) (f : Fin 16) (x : Takeover), (s.dev.flock f).takeover = some x → x.loaded = true → x.post < 8 →
    rejoinDue s.dev (flockHead s.dev f) x.from_ = true → (∀ r, (s.dev.flock f).repen = some r → r.step ≠ 0) →
    (s.dev.flock f).ready = [] ∨ (s.dev.flock f).waiting = [] →
    Gives (.takeoverRejoin f) s (fun t => postCell t.dev f x.post = spareCell s.dev f ∧ (t.dev.flock f).takeover = none ∧
      joined t.dev f x.post = (s.dev.flock f).repen.isNone ∧ t.dev.rd (Reg.CELL_GEN f x.post) = s.dev.rd (Reg.CELL_GEN f 8) ∧
      t.dev.bit (Reg.FLOCK_IRQ f) 3 = true ∧ (x.logged = false → (t.dev.flock f).testing.contains x.cell = true) ∧
      ((s.dev.flock f).ready = [] → spareCell t.dev f = 15 ∧ t.dev.bit (Reg.FLOCK_STATUS f) 8 = true) ∧
      (∀ n l, (s.dev.flock f).ready = n :: l → n < 9 → spareCell t.dev f = n ∧ t.dev.bit (Reg.FLOCK_STATUS f) 8 = false) ∧
      ((s.dev.flock f).waiting = [] → t.dev.bit (Reg.FLOCK_STATUS f) 9 = false) ∧ SameMem s t ∧ t.pending = s.pending)) ∧
  (∀ (s : State) (f : Fin 16) (x y : Takeover) (n : Nat) (l m : _), (s.dev.flock f).takeover = some x → x.loaded = true →
    rejoinDue s.dev (flockHead s.dev f) x.from_ = true → (s.dev.flock f).ready = n :: l → n < 9 → (s.dev.flock f).waiting = y :: m →
    Gives (.takeoverRejoin f) s (fun t => (∃ z, (t.dev.flock f).takeover = some z ∧ z.post = y.post ∧ z.cell = y.cell) ∧
      (t.dev.flock f).waiting = m ∧ SameMem s t ∧ t.pending = s.pending)) ∧
  (∀ (s : State) (f : Fin 16), (s.dev.flock f).repen = none →
    (∀ x, (s.dev.flock f).takeover = some x → x.loaded = false ∨ rejoinDue s.dev (flockHead s.dev f) x.from_ = false) →
    Gives (.takeoverRejoin f) s (fun t => t = s))

/-- R102, R269, R271, R272, R280, R281, R284: the shadow probe finds which cell is wrong, and a cell matches only where the flock's probe line
has the CRC of its record; a retired cell that passes its self-test becomes the spare, at once or when the spare post is next free, and one that
fails enters the repair map; the timers ask every ROVE_MIN minutes for handoffs and every TEST_MIN minutes for tests of the spares.
Clauses that rest on a choice or reading of the model: log entries 15, 63, 66. -/
def Obligations.ProbesAndCellTestsDecide : Prop :=
  (∀ (s : State) (f : Fin 16) (p : Nat) (a b : Bool), (s.dev.flock f).probing = true → s.dev.fld (Reg.FLOCK_STATUS f) 15 12 = p → p < 8 →
    Gives (.shadowProbeDone f a b) s (fun t => (t.dev.flock f).probing = false ∧
      (match a && probeGood s.dev f, b && probeGood s.dev f with
      | true, true => (t.dev.rd Reg.SHADOW_BENIGN).toNat = min ((s.dev.rd Reg.SHADOW_BENIGN).toNat + 1) 0xFFFFFFFF ∧
        Leaves (fun d e => { d with regs := e.regs, flocks := e.flocks }) (· = Reg.SHADOW_BENIGN) s t
      | false, true => postCell t.dev f p = spareCell s.dev f ∧ (t.dev.flock f).testing.contains (postCell s.dev f p) = true ∧
        t.dev.bit (Reg.FLOCK_IRQ f) 3 = true ∧ t.dev.rd (Reg.CELL_GEN f p) = s.dev.rd Reg.GLOBAL_GEN
      | true, false => postCell t.dev f p = postCell s.dev f p ∧ (t.dev.flock f).testing.contains (spareCell s.dev f) = true
      | false, false => postCell t.dev f p = postCell s.dev f p ∧ (t.dev.flock f).testing.contains (spareCell s.dev f) = true ∧
        t.dev.bit Reg.ST_FLAGS 11 = true) ∧
      ((a && b && probeGood s.dev f) = false →
        ((s.dev.flock f).ready = [] → spareCell t.dev f = 15 ∧ t.dev.bit (Reg.FLOCK_STATUS f) 8 = true) ∧
        (∀ n l, (s.dev.flock f).ready = n :: l → n < 9 → spareCell t.dev f = n)) ∧ SameMem s t ∧ t.pending = s.pending)) ∧
  (∀ (s : State) (f : Fin 16) (a b : Bool), (s.dev.flock f).probing = false → Gives (.shadowProbeDone f a b) s (fun t => t = s)) ∧
  (∀ (s : State) (f : Fin 16) (c : Fin 9), (s.dev.flock f).testing.contains c.val = true →
    (postOf s.dev f c = none → retirements s.dev f c < 3 →
      Gives (.cellSelftestDone f c true) s (fun t => (t.dev.flock f).bist.contains c.val = true ∧
        (if spareCell s.dev f = 15 then spareCell t.dev f = c.val ∧ t.dev.bit (Reg.FLOCK_STATUS f) 8 = false
        else spareCell t.dev f = spareCell s.dev f ∧ (t.dev.flock f).ready.contains c.val = true) ∧ SameMem s t ∧ t.pending = s.pending)) ∧
    (∀ pass, postOf s.dev f c = none → pass = false ∨ 3 ≤ retirements s.dev f c →
      Gives (.cellSelftestDone f c pass) s (fun t => (t.dev.flock f).mapped.contains c.val = true ∧
        t.dev.repairs.contains (1, 16 * f.val + c.val) = true ∧ spareCell t.dev f = spareCell s.dev f ∧ SameMem s t ∧ t.pending = s.pending)) ∧
    (postOf s.dev f c = some 8 →
      Gives (.cellSelftestDone f c true) s (fun t => (t.dev.flock f).bist.contains c.val = true ∧
        Leaves (fun d e => { d with flocks := e.flocks }) (fun _ => False) s t) ∧
      Gives (.cellSelftestDone f c false) s (fun t => (t.dev.flock f).mapped.contains c.val = true ∧
        t.dev.repairs.contains (1, 16 * f.val + c.val) = true ∧ ((s.dev.flock f).ready = [] → spareCell t.dev f = 15) ∧
        SameMem s t ∧ t.pending = s.pending)) ∧
    (∀ p < 8, postOf s.dev f c = some p →
      Gives (.cellSelftestDone f c true) s (fun t => t.dev.rd (Reg.CELL_GEN f p) = s.dev.rd Reg.GLOBAL_GEN ∧
        Leaves (fun d e => { d with regs := e.regs, flocks := e.flocks }) (· = Reg.CELL_GEN f p) s t) ∧
      Gives (.cellSelftestDone f c false) s (fun t => postCell t.dev f p = 15 ∧ t.dev.bit (Reg.NOCELL (f / 4)) (8 * (f % 4) + p) = true ∧
        (t.dev.flock f).testing.contains c.val = true ∧ SameMem s t ∧ t.pending = s.pending))) ∧
  (∀ (s : State) (f : Fin 16) (c : Fin 9) (pass : Bool), (s.dev.flock f).testing.contains c.val = false →
    Gives (.cellSelftestDone f c pass) s (fun t => t = s)) ∧
  (∀ s : State, s.dev.bit Reg.ROVE_CTRL 0 = true →
    Gives .roveTimer s (fun t => (∀ f < 16, flockHead s.dev f < 8 → (t.dev.flock f).rove = true) ∧ t.dev.au.rove = true ∧
      t.dev.clk = max s.dev.clk (s.dev.roveAt + s.dev.fld Reg.ROVE_CTRL 15 8 * 60000000000) ∧ t.dev.roveAt = t.dev.clk ∧
      Leaves (fun d e => { d with flocks := e.flocks, au := { d.au with rove := e.au.rove }, ht := e.ht, clk := e.clk, roveAt := e.roveAt })
        (fun _ => False) s t)) ∧
  (∀ s : State, s.dev.bit Reg.ROVE_CTRL 0 = false → Gives .roveTimer s (fun t => t = s)) ∧
  (∀ s : State, Gives .spareTestTimer s (fun t => t.dev.clk = max s.dev.clk (s.dev.testAt + s.dev.fld Reg.ROVE_CTRL 23 16 * 60000000000) ∧
    (∀ f < 16, spareCell s.dev f ≠ 15 → (s.dev.flock f).takeover = none → (t.dev.flock f).testing.contains (spareCell s.dev f) = true) ∧
    (∀ f < 16, ∀ p < 8, owesWork s.dev f p = false → postCell s.dev f p ≠ 15 → (t.dev.flock f).testing.contains (postCell s.dev f p) = true) ∧
    (∀ cls ∈ ([2, 3, 4, 5, 6, 9] : List Nat), ∀ i ∈ sparesOf s.dev cls, t.dev.testing.contains (cls, i) = true) ∧
    Leaves (fun d e => { d with regs := e.regs, flocks := e.flocks, testing := e.testing, ht := e.ht, clk := e.clk, testAt := e.testAt })
      (fun o => ∃ f < 16, ∃ p < 9, o = Reg.CELL_GEN f p) s t))

/-- R263, R282, R283: requests of self-tests queue, wait for their unit and end, a unit that fails enters the repair map, the generation steps
past 0, and a disagreement of the steward's copies is flagged.
Clauses that rest on a choice or reading of the model: log entries 15, 80, 141. -/
def Obligations.StewardRequestsPerform : Prop :=
  (∀ (s : State) (q : Req) (v : Word), s.dev.keeper q = true → bitOf v 31 = true →
    Gives (.selftestReq q v) s (fun t => t.dev.resp = .ok 0 ∧
      (if requestNames (fld v 3 0) (fld v 15 4) = true ∧ s.dev.requests.length < 16 then
        t.dev.requests = s.dev.requests ++ [(fld v 3 0, fld v 15 4, bitOf v 16)] ∧ t.dev.fld Reg.SELFTEST_STATUS 4 0 = s.dev.requests.length + 1 ∧
        (∀ p < 8, fld v 3 0 = 1 → bitOf v 16 = true → postOf s.dev (fld v 15 4 / 16) (fld v 15 4 % 16) = some p →
          (t.dev.flock (fld v 15 4 / 16)).want.contains p = true)
      else t.dev.requests = s.dev.requests ∧ t.dev.bit Reg.ST_FLAGS 6 = true) ∧
      Leaves (fun d e => { d with regs := e.regs, flocks := e.flocks, requests := e.requests, resp := e.resp })
        (fun o => o = Reg.SELFTEST_STATUS ∨ o = Reg.ST_FLAGS) s t)) ∧
  (∀ (s : State) (n : Fin 16) (cls idx : Nat) (rot : Bool) (counted bad : List Nat), s.dev.requests[n.val]? = some (cls, idx, rot) →
    requestFree s.dev cls idx = true → cls < 16 → idx < 4096 →
    (∀ pass, Gives (.selftestReqDone n pass counted bad) s (fun t => t.dev.requests = s.dev.requests.eraseIdx n ∧ t.dev.bit Reg.ST_FLAGS 4 = true ∧
      t.dev.bit Reg.SELFTEST_STATUS 5 = pass ∧ t.dev.fld Reg.SELFTEST_STATUS 19 8 = idx ∧ t.dev.fld Reg.SELFTEST_STATUS 23 20 = cls ∧
      (pass = false → t.dev.bit Reg.ST_FLAGS 5 = true ∧ t.dev.repairs.contains (cls, idx) = true) ∧ t.pending = s.pending)) ∧
    (cls ≠ 13 → Gives (.selftestReqDone n true counted bad) s (fun t =>
      Leaves (fun d e => { d with regs := e.regs, flocks := e.flocks, requests := e.requests })
        (fun o => o = Reg.SELFTEST_STATUS ∨ o = Reg.ST_FLAGS) s t))) ∧
  (∀ (s : State) (n : Fin 16) (pass : Bool) (counted bad : List Nat),
    (∀ r, s.dev.requests[n.val]? = some r → requestFree s.dev r.1 r.2.1 = false) →
    Gives (.selftestReqDone n pass counted bad) s (fun t => t = s)) ∧
  (∀ (s : State) (q : Req) (v : Word), s.dev.keeper q = true → bitOf v 0 = true →
    Gives (.genBump q v) s (fun t => t.dev.rd Reg.GLOBAL_GEN = (if s.dev.rd Reg.GLOBAL_GEN = 0xFFFFFFFF then 1 else s.dev.rd Reg.GLOBAL_GEN + 1) ∧
      t.dev.rd Reg.GLOBAL_GEN ≠ 0 ∧ t.dev.resp = .ok 0 ∧ OnlyRegs (· = Reg.GLOBAL_GEN) s t)) ∧
  (∀ (s : State) (q : Req) (v : Word),
    (s.dev.keeper q = false → Gives (.genBump q v) s (fun t => t = s.upd Dev.deny) ∧ Gives (.selftestReq q v) s (fun t => t = s.upd Dev.deny)) ∧
    (s.dev.keeper q = true → bitOf v 0 = false → Gives (.genBump q v) s (fun t => t = s.upd Dev.okay)) ∧
    (s.dev.keeper q = true → bitOf v 31 = false → Gives (.selftestReq q v) s (fun t => t = s.upd Dev.okay))) ∧
  (∀ s : State, Gives .stewardDisagree s (fun t => t.dev.rd Reg.ST_FLAGS = s.dev.rd Reg.ST_FLAGS ||| 0x400 ∧ OnlyRegs (· = Reg.ST_FLAGS) s t))

/-- R275 to R277, R279, R284, R303, R330: a checkpoint falls due one interval after the last, keeps the programmer's model and empties the logs; a
first mismatch returns the yoke to its checkpoint, a second tests its cores, a later one halts it; RESTART starts a halted yoke at ENTRY over its
code, RESUME at its checkpoint.
Clauses that rest on a choice or reading of the model: log entries 1, 37, 69, 70, 72. -/
def Obligations.YokesCheckpointRollBackAndRestart : Prop :=
  (∀ (s : State) (y : Fin 8), ckptFree y s.dev = true →
    Gives (.yokeCheckpoint y) s (fun t => (t.dev.yk y).ckpt = some (s.dev.yk y).ctx ∧ (t.dev.yk y).ctx = (s.dev.yk y).ctx ∧
      (t.dev.yk y).echo = [] ∧ (t.dev.yk y).input = [] ∧ (t.dev.yk y).undo = [] ∧ (t.dev.yk y).retired = 0 ∧
      (t.dev.yk y).tries = (s.dev.yk y).tries ∧ (t.dev.yk y).point = (s.dev.yk y).point.map (· - (s.dev.yk y).retired) ∧
      (t.dev.yk y).interval = (if moveRailDone s.dev = true then 10 else s.dev.fld Reg.MODE 15 8) ∧
      t.dev.clk = max s.dev.clk ((s.dev.yk y).ckptAt + 10000 * (s.dev.yk y).interval) ∧ (t.dev.yk y).ckptAt = t.dev.clk ∧
      t.dev.rd (Reg.CKPT_HT y) = w32 t.dev.now ∧ (∀ z, z ≠ y.val → t.dev.yk z = s.dev.yk z) ∧ SameMem s t ∧ t.pending = s.pending)) ∧
  (∀ (s : State) (y : Fin 8), ckptFree y s.dev = false → Gives (.yokeCheckpoint y) s (fun t => t = s)) ∧
  (∀ (s : State) (y : Fin 8) (back : OxCtx), (yokeRun s.dev y = 1 ∨ yokeRun s.dev y = 2 ∨ yokeRun s.dev y = 7) → soloCores s.dev y = false →
    back = (s.dev.yk y).ckpt.getD {} →
    Gives (.lockstepMismatch y) s (fun t =>
      ((s.dev.yk y).tries = 0 → (t.dev.yk y).tries = 1 ∧ (t.dev.yk y).point = some (s.dev.yk y).retired ∧
        (t.dev.yk y).ctx = { back with waiting := back.waiting && (s.dev.yk y).echo.isEmpty && (s.dev.yk y).input.isEmpty } ∧
        t.mem.tcm = (undoTcm y s).mem.tcm ∧
        (t.dev.rd (Reg.ROLLBACKS y)).toNat = min ((s.dev.rd (Reg.ROLLBACKS y)).toNat + 1) 0xFFFFFFFF) ∧
      ((s.dev.yk y).tries = 1 → yokeRun t.dev y = 3 ∧ (t.dev.yk y).tries = 2 ∧ t.dev.rd (Reg.Y_GEN y) = 0 ∧ t.mem.tcm = s.mem.tcm) ∧
      (2 ≤ (s.dev.yk y).tries → yokeRun t.dev y = 6 ∧ t.dev.bit Reg.ST_FLAGS 3 = true ∧ t.mem.tcm = s.mem.tcm) ∧
      (∀ z, z ≠ y.val → t.dev.yk z = s.dev.yk z) ∧ t.mem.bytes = s.mem.bytes ∧ t.mem.flash = s.mem.flash ∧ t.pending = s.pending)) ∧
  (∀ (s : State) (y : Fin 8), ¬ (yokeRun s.dev y = 1 ∨ yokeRun s.dev y = 2 ∨ yokeRun s.dev y = 7) ∨ soloCores s.dev y = true →
    Gives (.lockstepMismatch y) s (fun t => t = s)) ∧
  (∀ (s : State) (y : Fin 8) (back : OxCtx), yokeRun s.dev y = 3 → back = (s.dev.yk y).ckpt.getD {} →
    (∀ a b : Bool, (a || b) = true → Gives (.coreSelftestDone y a b) s (fun t =>
      (t.dev.yk y).ctx = { back with waiting := back.waiting && (s.dev.yk y).echo.isEmpty && (s.dev.yk y).input.isEmpty } ∧
      (t.dev.yk y).tries = (if a = true ∧ b = true then 3 else 1) ∧ t.dev.rd (Reg.Y_GEN y) = s.dev.rd Reg.GLOBAL_GEN ∧
      (a = false → t.dev.repairs.contains (2, s.dev.fld (Reg.YOKE_STATE y) 4 0) = true) ∧
      (b = false → t.dev.repairs.contains (2, s.dev.fld (Reg.YOKE_STATE y) 9 5) = true) ∧
      (∀ z, z ≠ y.val → t.dev.yk z = s.dev.yk z) ∧ t.mem.bytes = s.mem.bytes ∧ t.mem.flash = s.mem.flash ∧ t.pending = s.pending)) ∧
    Gives (.coreSelftestDone y false false) s (fun t => yokeRun t.dev y = 6 ∧ t.dev.unit 2 (s.dev.fld (Reg.YOKE_STATE y) 4 0) = 3 ∧
      t.dev.unit 2 (s.dev.fld (Reg.YOKE_STATE y) 9 5) = 3 ∧ SameMem s t ∧ t.pending = s.pending)) ∧
  (∀ (s : State) (y : Fin 8) (a b : Bool), yokeRun s.dev y ≠ 3 → Gives (.coreSelftestDone y a b) s (fun t => t = s)) ∧
  (∀ (s : State) (q : Req) (y : Fin 8) (b : List Byte), s.dev.keeper q = true → yokeHalted s.dev y = true → yokeRec s.dev y = some b →
    (blobBytes s.dev.ld.recs (u32At b 8) (u32At b 12)).length ≤ 2 ^ 17 →
    Gives (.yokeRestart q y) s (fun t => (t.dev.yk y).ctx = { pc := w32 (u32At b 4) } ∧ (t.dev.yk y).echo = [] ∧ (t.dev.yk y).input = [] ∧
      yokeHalted t.dev y = false ∧ t.dev.bwStack y = [] ∧ t.dev.rd (Reg.Y_GEN y) = s.dev.rd Reg.GLOBAL_GEN ∧ t.dev.resp = .ok 0 ∧
      (∀ a < 2 ^ 17, Store.get (fun _ => 0) t.mem.tcm (tcmKey y a) = (blobBytes s.dev.ld.recs (u32At b 8) (u32At b 12)).getD a 0) ∧
      (∀ k, k / 2 ^ 17 ≠ y.val → Store.get (fun _ => 0) t.mem.tcm k = Store.get (fun _ => 0) s.mem.tcm k) ∧
      t.mem.bytes = s.mem.bytes ∧ t.mem.flash = s.mem.flash ∧ t.pending = s.pending)) ∧
  (∀ (s : State) (q : Req) (y : Fin 8), s.dev.keeper q = true → yokeHalted s.dev y = true →
    Gives (.yokeResume q y) s (fun t => (t.dev.yk y).ctx = (s.dev.yk y).ckpt.getD {} ∧ (t.dev.yk y).echo = [] ∧ (t.dev.yk y).input = [] ∧
      (t.dev.yk y).replay = none ∧ yokeHalted t.dev y = false ∧ t.dev.bwStack y = [] ∧ t.dev.rd (Reg.Y_GEN y) = s.dev.rd Reg.GLOBAL_GEN ∧
      t.dev.resp = .ok 0 ∧ (∀ z, z ≠ y.val → t.dev.yk z = s.dev.yk z) ∧ t.mem.bytes = s.mem.bytes ∧ t.mem.flash = s.mem.flash ∧
      t.pending = s.pending)) ∧
  (∀ (s : State) (q : Req) (y : Fin 8), s.dev.keeper q = true → yokeHalted s.dev y = false →
    Gives (.yokeRestart q y) s (fun t => t = s.upd Dev.okay) ∧ Gives (.yokeResume q y) s (fun t => t = s.upd Dev.okay)) ∧
  (∀ (s : State) (q : Req) (y : Fin 8), s.dev.keeper q = false →
    Gives (.yokeRestart q y) s (fun t => t = s.upd Dev.deny) ∧ Gives (.yokeResume q y) s (fun t => t = s.upd Dev.deny))
/-! ### Timers (chapter 14) -/

/-- R353, R354, R358 to R360, R364, R366: one tick of a powered, running channel that is not the high channel of a pair: the count, the buffered
values, the flags, the output and RUN, and the herd-clock instant of the tick; its period match ticks the high channel of its pair.
Clauses that rest on a choice or reading of the model: log entry 82. -/
def Obligations.TimerTickFollowsItsSteps : Prop :=
  (∀ (s : State) (u : Fin 8) (c : Fin 4) (pair : Bool), tmPowered s.dev u = true → tmRun s.dev u c = true → tmChained s.dev u c = false →
    pair = (tmPeriodMatch s.dev u c && tmLow s.dev u c && tmRun s.dev u (c.val + 1)) →
    Gives (.timerTick u c) s (fun t => Ticked s.dev t.dev u c ∧ (pair = true → Ticked s.dev t.dev u (c.val + 1)) ∧
      (t.dev.tm u c).last = (s.dev.tm u c).last + tmPre s.dev u c + 1 ∧
      t.dev.clk = max s.dev.clk ((s.dev.tm u c).last + tmPre s.dev u c + 1) ∧
      (∀ v w, v < 8 → w < 4 → (v ≠ u.val ∨ (w ≠ c.val ∧ (pair = true → w ≠ c.val + 1))) → t.dev.tm v w = s.dev.tm v w) ∧
      Leaves (fun d e => { d with regs := e.regs, timers := e.timers, tasks := e.tasks, ht := e.ht, clk := e.clk })
        (fun o => TickReg u c o ∨ (pair = true ∧ TickReg u (c.val + 1) o) ∨ InConj o) s t)) ∧
  (∀ (s : State) (u : Fin 8) (c : Fin 4), tmPowered s.dev u = false ∨ tmRun s.dev u c = false ∨ tmChained s.dev u c = true →
    Gives (.timerTick u c) s (fun t => t = s))

/-- R356, R358, R361, R362, R366, R539: START, STOP, RESTART and CAPTURE, from their tasks with the task's mark or from a TM_CMD write with the requester's,
and a capture on an edge of the pin that feeds the channel; a unit that is not powered takes none of them.
Clauses that rest on a choice or reading of the model: log entry 82. -/
def Obligations.TimerCommandsPerform : Prop :=
  (∀ (s : State) (u : Fin 8) (c : Fin 4) (q : Option Req) (d : Dev) (o : Bool), tmPowered s.dev u = true → tmFrom s.dev u c 0 q d o →
    Gives (.tmStart u c q) s (fun t => tmRun t.dev u c = true ∧
      (tmRun s.dev u c = false → t.dev.bit (Reg.TM_STATUS u c) 5 = o ∧ (t.dev.tm u c).last = s.dev.clk) ∧
      (tmRun s.dev u c = true → t.dev.regs = s.dev.regs ∧ t.dev.timers = s.dev.timers) ∧ t.dev.tasks = d.tasks ∧
      Leaves (fun d e => { d with regs := e.regs, timers := e.timers, tasks := e.tasks, resp := e.resp }) (· = Reg.TM_STATUS u c) s t)) ∧
  (∀ (s : State) (u : Fin 8) (c : Fin 4) (q : Option Req) (d : Dev) (o : Bool), tmPowered s.dev u = true → tmFrom s.dev u c 1 q d o →
    Gives (.tmStop u c q) s (fun t => tmRun t.dev u c = false ∧ (t.dev.tm u c).arm = none ∧
      (t.dev.tmUnit u).gone = (if (s.dev.tmUnit u).arm.isSome = true ∧ s.dev.bit (Reg.UNIT_STAGGER u) c = true
        then insNat c (s.dev.tmUnit u).gone else (s.dev.tmUnit u).gone) ∧
      t.dev.rd (Reg.TM_STATUS u c) = s.dev.rd (Reg.TM_STATUS u c) &&& ~~~ 1 ∧ t.dev.tasks = d.tasks ∧
      Leaves (fun d e => { d with regs := e.regs, timers := e.timers, tmUnits := e.tmUnits, tasks := e.tasks, resp := e.resp })
        (· = Reg.TM_STATUS u c) s t)) ∧
  (∀ (s : State) (u : Fin 8) (c : Fin 4) (q : Option Req) (d : Dev) (o : Bool), tmPowered s.dev u = true → tmFrom s.dev u c 2 q d o →
    Gives (.tmRestart u c q) s (fun t => tmRun t.dev u c = true ∧ t.dev.bit (Reg.TM_STATUS u c) 5 = o ∧
      t.dev.bit (Reg.TM_STATUS u c) 1 = s.dev.bit (Reg.TM_CTRL u c) 23 ∧
      t.dev.rd (Reg.TM_PERIOD u c) = (s.dev.tm u c).perBuf.getD (s.dev.rd (Reg.TM_PERIOD u c)) ∧
      t.dev.rd (Reg.TM_CMP u c) = (s.dev.tm u c).cmpBuf.getD (s.dev.rd (Reg.TM_CMP u c)) ∧
      ((s.dev.tmUnit u).mask.testBit c = false → t.dev.rd (Reg.TM_CNT u c) = 0) ∧ (t.dev.tm u c).late = false ∧
      (t.dev.tm u c).perBuf = none ∧ (t.dev.tm u c).cmpBuf = none ∧ (t.dev.tm u c).last = s.dev.clk ∧ t.dev.tasks = d.tasks ∧
      Leaves (fun d e => { d with regs := e.regs, timers := e.timers, tasks := e.tasks, resp := e.resp })
        (fun o => o = Reg.TM_STATUS u c ∨ o = Reg.TM_PERIOD u c ∨ o = Reg.TM_CMP u c ∨ o = Reg.TM_CNT u c) s t)) ∧
  (∀ (s : State) (u : Fin 8) (c : Fin 4) (q : Option Req) (d : Dev) (o : Bool), tmPowered s.dev u = true → tmFrom s.dev u c 3 q d o →
    Gives (.tmCapture u c q) s (fun t => t.dev.rd (Reg.TM_CAP u c) = s.dev.rd (Reg.TM_CNT u c) ∧ t.dev.bit (Reg.TM_STATUS u c) 2 = true ∧
      t.dev.bit (Reg.TM_FLAGS u c) 2 = true ∧ (s.dev.bit (Reg.TM_STATUS u c) 2 = true → t.dev.bit (Reg.TM_FLAGS u c) 3 = true) ∧
      (tmLow s.dev u c = true → (t.dev.tm u c).capHi = s.dev.rd (Reg.TM_CNT u (c + 1))) ∧
      Leaves (fun d e => { d with regs := e.regs, timers := e.timers, tasks := e.tasks, resp := e.resp })
        (fun o => o = Reg.TM_STATUS u c ∨ o = Reg.TM_FLAGS u c ∨ o = Reg.TM_CAP u c ∨ InConj o) s t)) ∧
  (∀ (s : State) (u : Fin 8) (c : Fin 4) (rising : Bool), tmPowered s.dev u = true → pinFeeds s.dev (capPin s.dev (4 * u.val + c.val)) = true →
    s.dev.bit (Reg.TM_CTRL u c) (if rising then 24 else 25) = true →
    Gives (.tmrCapEdge u c rising) s (fun t => t.dev.rd (Reg.TM_CAP u c) = s.dev.rd (Reg.TM_CNT u c) ∧ t.dev.bit (Reg.TM_STATUS u c) 2 = true ∧
      t.dev.bit (Reg.TM_FLAGS u c) 2 = true ∧
      Leaves (fun d e => { d with regs := e.regs, timers := e.timers, tasks := e.tasks })
        (fun o => o = Reg.TM_STATUS u c ∨ o = Reg.TM_FLAGS u c ∨ o = Reg.TM_CAP u c ∨ InConj o) s t)) ∧
  (∀ (s : State) (u : Fin 8) (c : Fin 4) (rising : Bool), tmPowered s.dev u = false ∨ pinFeeds s.dev (capPin s.dev (4 * u.val + c.val)) = false ∨
    s.dev.bit (Reg.TM_CTRL u c) (if rising then 24 else 25) = false → Gives (.tmrCapEdge u c rising) s (fun t => t = s)) ∧
  (∀ (s : State) (u : Fin 8) (c : Fin 4) (k : Fin 4),
    (tmPowered s.dev u = false ∨ s.dev.tasksAt (0x200 + 4 * (4 * u.val + c.val) + k.val) = [] →
      Gives ([Instr.tmStart u c none, .tmStop u c none, .tmRestart u c none, .tmCapture u c none].getD k (.tmStart u c none)) s
        (fun t => t = s)) ∧
    (tmPowered s.dev u = false → ∀ q : Req,
      Gives ([Instr.tmStart u c (some q), .tmStop u c (some q), .tmRestart u c (some q), .tmCapture u c (some q)].getD k (.tmStart u c (some q)))
        s (fun t => t = s.upd Dev.deny)))

/-- R357, R363, R366: RESTART_AT and a timed group restart arm for UNIT_START_HT, or act at once with START_LATE when it has passed; an armed restart
is performed at its target; a group restart starts each channel of MASK at its stagger offset, or is refused;
a group stop stops them all.
Clauses that rest on a choice or reading of the model: log entry 82. -/
def Obligations.ArmedAndGroupRestartsPerform : Prop :=
  (∀ (s : State) (q : Req) (u : Fin 8) (c : Fin 4), tmPowered s.dev u = true →
    Gives (.tmRestartAt q u c) s (fun t => t.dev.resp = .ok 0 ∧
      (if s.dev.rd64 (Reg.UNIT_START_HT_LO u) (Reg.UNIT_START_HT_HI u) ≤ s.dev.now then
        tmRun t.dev u c = true ∧ t.dev.bit (Reg.TM_FLAGS u c) 5 = true ∧ (t.dev.tm u c).arm = none ∧ (t.dev.tm u c).last = s.dev.clk
      else t.dev.regs = s.dev.regs ∧
        (t.dev.tm u c).arm = some (s.dev.rd64 (Reg.UNIT_START_HT_LO u) (Reg.UNIT_START_HT_HI u), !s.dev.keeper q)) ∧
      Leaves (fun d e => { d with regs := e.regs, timers := e.timers, resp := e.resp })
        (fun o => o = Reg.TM_STATUS u c ∨ o = Reg.TM_PERIOD u c ∨ o = Reg.TM_CMP u c ∨ o = Reg.TM_CNT u c ∨ o = Reg.TM_FLAGS u c) s t)) ∧
  (∀ (s : State) (u : Fin 8) (c : Fin 4) (at_ : Nat) (o : Bool), (s.dev.tm u c).arm = some (at_, o) →
    Gives (.armedRestart u (some c.val)) s (fun t => tmRun t.dev u c = true ∧ t.dev.bit (Reg.TM_STATUS u c) 5 = o ∧ (t.dev.tm u c).arm = none ∧
      (s.dev.now ≤ at_ → at_ < 2 ^ 64 → t.dev.now = at_ ∧ (t.dev.tm u c).last = t.dev.clk) ∧
      Leaves (fun d e => { d with regs := e.regs, timers := e.timers, ht := e.ht, clk := e.clk })
        (fun o => o = Reg.TM_STATUS u c ∨ o = Reg.TM_PERIOD u c ∨ o = Reg.TM_CMP u c ∨ o = Reg.TM_CNT u c) s t)) ∧
  (∀ (s : State) (q : Req) (u : Fin 8), tmPowered s.dev u = true → groupCheck u s.dev = none →
    Gives (.groupRestart q u false) s (fun t => t.dev.resp = .ok 0 ∧
      (∀ c < 4, (s.dev.fld (Reg.UNIT_STAGGER u) 3 0).testBit c = true → (s.dev.tm u c).perBuf = none →
        tmRun t.dev u c = true ∧ (t.dev.tm u c).last = s.dev.clk ∧
        t.dev.rd (Reg.TM_CNT u c) = w32 (maskRank (s.dev.fld (Reg.UNIT_STAGGER u) 3 0) c * tmP s.dev u c /
          maskRank (s.dev.fld (Reg.UNIT_STAGGER u) 3 0) 4)) ∧
      (∀ c < 4, (s.dev.fld (Reg.UNIT_STAGGER u) 3 0).testBit c = false → t.dev.rd (Reg.TM_CNT u c) = s.dev.rd (Reg.TM_CNT u c) ∧
        tmRun t.dev u c = tmRun s.dev u c) ∧ SameMem s t ∧ t.pending = s.pending)) ∧
  (∀ (s : State) (q : Req) (u : Fin 8), tmPowered s.dev u = true → groupCheck u s.dev = none →
    s.dev.rd64 (Reg.UNIT_START_HT_LO u) (Reg.UNIT_START_HT_HI u) ≤ s.dev.now →
    Gives (.groupRestart q u true) s (fun t => t.dev.resp = .ok 0 ∧ (t.dev.tmUnit u).arm = none ∧
      (∀ c < 4, (s.dev.fld (Reg.UNIT_STAGGER u) 3 0).testBit c = true → tmRun t.dev u c = true ∧ t.dev.bit (Reg.TM_FLAGS u c) 5 = true ∧
        t.dev.bit (Reg.TM_STATUS u c) 5 = !s.dev.keeper q ∧ (t.dev.tm u c).last = s.dev.clk) ∧ SameMem s t ∧ t.pending = s.pending)) ∧
  (∀ (s : State) (q : Req) (u : Fin 8), tmPowered s.dev u = true → groupCheck u s.dev = none → s.dev.now < s.dev.rd64 (Reg.UNIT_START_HT_LO u) (Reg.UNIT_START_HT_HI u) →
    Gives (.groupRestart q u true) s (fun t => t.dev.regs = s.dev.regs ∧ t.dev.timers = s.dev.timers ∧
      (t.dev.tmUnit u).arm = some (s.dev.rd64 (Reg.UNIT_START_HT_LO u) (Reg.UNIT_START_HT_HI u), !s.dev.keeper q) ∧
      (t.dev.tmUnit u).gone = [] ∧ Leaves (fun d e => { d with tmUnits := e.tmUnits, resp := e.resp }) (fun _ => False) s t)) ∧
  (∀ (s : State) (u : Fin 8) (at_ : Nat) (o : Bool), (s.dev.tmUnit u).arm = some (at_, o) → groupCheck u s.dev = none →
    Gives (.armedRestart u none) s (fun t => (t.dev.tmUnit u).arm = none ∧ (t.dev.tmUnit u).gone = [] ∧
      (∀ c < 4, (s.dev.fld (Reg.UNIT_STAGGER u) 3 0).testBit c = true →
        (if (s.dev.tmUnit u).gone.contains c then t.dev.rd (Reg.TM_CNT u c) = s.dev.rd (Reg.TM_CNT u c) ∧ tmRun t.dev u c = tmRun s.dev u c
        else tmRun t.dev u c = true ∧ t.dev.bit (Reg.TM_STATUS u c) 5 = o)) ∧ SameMem s t ∧ t.pending = s.pending)) ∧
  (∀ (s : State) (u : Fin 8) (c : Fin 4), ((s.dev.tm u c).arm = none → Gives (.armedRestart u (some c.val)) s (fun t => t = s)) ∧
    ((s.dev.tmUnit u).arm = none → Gives (.armedRestart u none) s (fun t => t = s))) ∧
  (∀ (s : State) (q : Req) (u : Fin 8), tmPowered s.dev u = true → s.dev.fld (Reg.UNIT_STAGGER u) 3 0 ≠ 0 →
    Gives (.groupStop q u) s (fun t => (∀ c < 4, tmRun t.dev u c = (tmRun s.dev u c && !(s.dev.fld (Reg.UNIT_STAGGER u) 3 0).testBit c)) ∧
      (t.dev.tmUnit u).arm = none ∧ t.dev.resp = .ok 0 ∧
      Leaves (fun d e => { d with regs := e.regs, timers := e.timers, tmUnits := e.tmUnits, resp := e.resp })
        (fun o => ∃ c < 4, o = Reg.TM_STATUS u c) s t)) ∧
  (∀ (s : State) (q : Req) (u : Fin 8) (timed : Bool), tmPowered s.dev u = true →
    (s.dev.fld (Reg.UNIT_STAGGER u) 3 0 = 0 →
      Gives (.groupRestart q u timed) s (fun t => t = s.upd (fun d => (d.setBit (Reg.TM_FLAGS u 0) 7).okay)) ∧
      Gives (.groupStop q u) s (fun t => t = s.upd (fun d => (d.setBit (Reg.TM_FLAGS u 0) 7).okay))) ∧
    (∀ c0 c : Fin 4, (s.dev.fld (Reg.UNIT_STAGGER u) 3 0).testBit c0 = true → (∀ k < c0.val, (s.dev.fld (Reg.UNIT_STAGGER u) 3 0).testBit k = false) →
      (s.dev.fld (Reg.UNIT_STAGGER u) 3 0).testBit c = true → s.dev.bit (Reg.TM_CTRL u c) 17 = true ∨ tmPre s.dev u c ≠ tmPre s.dev u c0 →
      Gives (.groupRestart q u timed) s (fun t => t = s.upd (fun d => (d.setBit (Reg.TM_FLAGS u c0) 7).okay)))) ∧
  (∀ (s : State) (q : Req) (u : Fin 8) (c : Fin 4) (timed : Bool), tmPowered s.dev u = false →
    Gives (.tmRestartAt q u c) s (fun t => t = s.upd Dev.deny) ∧ Gives (.groupRestart q u timed) s (fun t => t = s.upd Dev.deny) ∧
    Gives (.groupStop q u) s (fun t => t = s.upd Dev.deny))

/-- R358, R359, R361, R365, R366: reads of the count and the capture latch the high halves; writes of the period, the compare value and the count are
buffered, take effect, or are refused while the channel runs; a unit that is not powered gives
an access error.
Clauses that rest on a choice or reading of the model: log entry 82. -/
def Obligations.TimerRegisterAccessesPerform : Prop :=
  (∀ (s : State) (u : Fin 8) (c : Fin 4), tmPowered s.dev u = true →
    Gives (.tmCntRead u c) s (fun t => t.dev.resp = .ok (s.dev.rd (Reg.TM_CNT u c)) ∧
      t.dev.rd (Reg.CNT_HI_SNAP u c) = (if tmLow s.dev u c then s.dev.rd (Reg.TM_CNT u (c + 1)) else 0) ∧ OnlyRegs (· = Reg.CNT_HI_SNAP u c) s t) ∧
    Gives (.tmCapRead u c) s (fun t => t.dev.resp = .ok (s.dev.rd (Reg.TM_CAP u c)) ∧ t.dev.bit (Reg.TM_STATUS u c) 2 = false ∧
      t.dev.rd (Reg.CAP_HI_SNAP u c) = (if tmLow s.dev u c then (s.dev.tm u c).capHi else 0) ∧
      OnlyRegs (fun o => o = Reg.CAP_HI_SNAP u c ∨ o = Reg.TM_STATUS u c) s t)) ∧
  (∀ (s : State) (u : Fin 8) (c : Fin 4) (v : Word), tmPowered s.dev u = true →
    Gives (.tmPeriodWrite u c v) s (fun t => t.dev.resp = .ok 0 ∧
      (if s.dev.bit (Reg.TM_CTRL u c) 16 = true then (t.dev.tm u c).perBuf = some v ∧ t.dev.regs = s.dev.regs
      else t.dev.rd (Reg.TM_PERIOD u c) = v ∧ (v ≠ 0 ∧ v.toNat ≤ (s.dev.rd (Reg.TM_CNT u c)).toNat →
        (t.dev.tm u c).late = true ∧ t.dev.bit (Reg.TM_FLAGS u c) 4 = true)) ∧
      Leaves (fun d e => { d with regs := e.regs, timers := e.timers, resp := e.resp }) (fun o => o = Reg.TM_PERIOD u c ∨ o = Reg.TM_FLAGS u c) s t) ∧
    Gives (.tmCmpWrite u c v) s (fun t => t.dev.resp = .ok 0 ∧
      (if s.dev.bit (Reg.TM_CTRL u c) 16 = true then (t.dev.tm u c).cmpBuf = some v ∧ t.dev.regs = s.dev.regs else t.dev.rd (Reg.TM_CMP u c) = v) ∧
      Leaves (fun d e => { d with regs := e.regs, timers := e.timers, resp := e.resp }) (· = Reg.TM_CMP u c) s t) ∧
    Gives (.tmCntWrite u c v) s (fun t => t.dev.resp = .ok 0 ∧
      (if tmRun s.dev u c = true then t.dev.rd (Reg.TM_CNT u c) = s.dev.rd (Reg.TM_CNT u c) ∧ t.dev.bit (Reg.TM_FLAGS u c) 7 = true
      else t.dev.rd (Reg.TM_CNT u c) = v ∧
        (t.dev.tm u c).late = decide (s.dev.rd (Reg.TM_PERIOD u c) ≠ 0 ∧ (s.dev.rd (Reg.TM_PERIOD u c)).toNat ≤ v.toNat)) ∧
      Leaves (fun d e => { d with regs := e.regs, timers := e.timers, resp := e.resp }) (fun o => o = Reg.TM_CNT u c ∨ o = Reg.TM_FLAGS u c) s t)) ∧
  (∀ (s : State) (u : Fin 8) (c : Fin 4) (v : Word), tmPowered s.dev u = false →
    Gives (.tmCntRead u c) s (fun t => t = s.upd Dev.deny) ∧ Gives (.tmCapRead u c) s (fun t => t = s.upd Dev.deny) ∧
    Gives (.tmPeriodWrite u c v) s (fun t => t = s.upd Dev.deny) ∧ Gives (.tmCmpWrite u c v) s (fun t => t = s.upd Dev.deny) ∧
    Gives (.tmCntWrite u c v) s (fun t => t = s.upd Dev.deny))

/-! ### The Packhorse (chapter 15) -/

/-- R376, R380, R381, R385: the commands of a channel, from its tasks or from CH_CMD writes that PRIV allows. START runs a free ring at RING_HEAD,
or leaves it IDLE on OWN 0; a stepped channel waits and STEP runs one descriptor; STOP, ABORT and CLEAR; a write of CQ_RD. A task waits in
TAKEOVER, a START or STEP in HALTED, a STEP outside WAIT_STEP; a command that the state does not allow has no effect.
Clauses that rest on a choice or reading of the model: log entries 63, 93. -/
def Obligations.PackhorseCommandsRunTheRing : Prop :=
  (∀ (s : State) (n : Fin 32) (q : Option Req) (d : Dev) (a : Option Arrival), phFrom s.dev n 0 q d a → phState s.dev n = 0 ∨ phState s.dev n = 3 →
    (s.dev.ph n).broken = false →
    memUp s.dev (descAddr s.dev n) 32 = true → CleanWords s (descAddr s.dev n) 32 →
    Gives (.phStart n q) s (fun t =>
      (if phStepped s.dev n = true then phState t.dev n = 2 ∧ t.dev.phs = s.dev.phs
      else phState t.dev n = (if (s.byteAt (descAddr s.dev n + 3)).getLsbD 7 = true ∨ (s.dev.ph n).desc ≠ none then 1 else 0) ∧
        t.dev.ph n = { s.dev.ph n with run := a, stepped := false } ∧ ∀ m, m ≠ n.val → t.dev.ph m = s.dev.ph m) ∧
      t.dev.tasks = d.tasks ∧
      Leaves (fun d e => { d with regs := e.regs, phs := e.phs, tasks := e.tasks, resp := e.resp }) (· = Reg.PCH_STATUS n) s t)) ∧
  (∀ (s : State) (n : Fin 32) (q : Option Req) (d : Dev) (a : Option Arrival), phFrom s.dev n 1 q d a → phState s.dev n = 2 →
    phStepped s.dev n = true → (s.dev.ph n).broken = false → memUp s.dev (descAddr s.dev n) 32 = true → CleanWords s (descAddr s.dev n) 32 →
    Gives (.phStep n q) s (fun t =>
      (if (s.byteAt (descAddr s.dev n + 3)).getLsbD 7 = true ∨ (s.dev.ph n).desc ≠ none then
        phState t.dev n = 1 ∧ t.dev.ph n = { s.dev.ph n with run := a, stepped := true }
      else phState t.dev n = 2 ∧ t.dev.bit (Reg.PCH_FLAGS n) 1 = true ∧ t.dev.phs = s.dev.phs) ∧
      t.dev.tasks = d.tasks ∧ (∀ m, m ≠ n.val → t.dev.ph m = s.dev.ph m) ∧
      Leaves (fun d e => { d with regs := e.regs, phs := e.phs, tasks := e.tasks, resp := e.resp })
        (fun o => o = Reg.PCH_STATUS n ∨ o = Reg.PCH_FLAGS n) s t)) ∧
  (∀ (s : State) (n : Fin 32) (q : Option Req) (d : Dev) (a : Option Arrival), phFrom s.dev n 2 q d a → (q = none → phState s.dev n ≠ 5) →
    Gives (.phStop n q) s (fun t =>
      phState t.dev n = (if phState s.dev n = 1 ∨ phState s.dev n = 2 ∨ phState s.dev n = 6 then 3 else phState s.dev n) ∧ t.dev.tasks = d.tasks ∧
      Leaves (fun d e => { d with regs := e.regs, tasks := e.tasks, resp := e.resp }) (· = Reg.PCH_STATUS n) s t)) ∧
  (∀ (s : State) (n : Fin 32) (q : Option Req) (d : Dev) (a : Option Arrival) (k : Fin 2), phFrom s.dev n k q d a →
    (q = none → phState s.dev n ≠ 4 ∧ phState s.dev n ≠ 5 ∧ (k = 1 → phState s.dev n = 2)) →
    (s.dev.ph n).broken = true ∨ (k = 0 ∧ phState s.dev n ≠ 0 ∧ phState s.dev n ≠ 3) ∨
      (k = 1 ∧ (phState s.dev n ≠ 2 ∨ phStepped s.dev n = false)) →
    Gives (if k = 0 then .phStart n q else .phStep n q) s
      (fun t => t = (match q with | some _ => s.upd Dev.okay | none => s.upd (fun _ => d)))) ∧
  (∀ (s : State) (n : Fin 32), (phState s.dev n = 5 → Gives (.phStop n none) s (fun t => t = s)) ∧
    (phState s.dev n = 4 ∨ phState s.dev n = 5 → Gives (.phStart n none) s (fun t => t = s)) ∧
    (phState s.dev n ≠ 2 → Gives (.phStep n none) s (fun t => t = s))) ∧
  (∀ (s : State) (q : Req) (n : Fin 32), s.dev.bit (Reg.PCH_CFG n) 3 = true → s.dev.keeper q = false →
    Gives (.phStart n (some q)) s (fun t => t = s.upd Dev.deny) ∧ Gives (.phStep n (some q)) s (fun t => t = s.upd Dev.deny) ∧
    Gives (.phStop n (some q)) s (fun t => t = s.upd Dev.deny) ∧ Gives (.phAbort q n) s (fun t => t = s.upd Dev.deny) ∧
    Gives (.phClear q n) s (fun t => t = s.upd Dev.deny)) ∧
  (∀ (s : State) (q : Req) (n : Fin 32), (s.dev.bit (Reg.PCH_CFG n) 3 = true → s.dev.keeper q = true) →
    (((phState s.dev n ≠ 1 ∧ phState s.dev n ≠ 3) ∨ ∀ x, (s.dev.ph n).desc = some x → x.ended = true) →
      Gives (.phAbort q n) s (fun t => t = s.upd Dev.okay)) ∧
    (phState s.dev n ≠ 4 ∨ phOwesRecord s.dev n = true ∨ ((s.dev.ph n).broken = true ∧ sparesOf s.dev 5 = []) →
      Gives (.phClear q n) s (fun t => t = s.upd Dev.okay)) ∧
    (∀ x, phState s.dev n = 1 ∨ phState s.dev n = 3 → (s.dev.ph n).desc = some x → x.ended = false →
      Gives (.phAbort q n) s (fun t => phState t.dev n = 1 ∧ t.dev.ph n = { s.dev.ph n with desc := some { x with status := 6, ended := true } } ∧
        t.dev.resp = .ok 0 ∧ (∀ m, m ≠ n.val → t.dev.ph m = s.dev.ph m) ∧
        Leaves (fun d e => { d with regs := e.regs, phs := e.phs, resp := e.resp }) (· = Reg.PCH_STATUS n) s t)) ∧
    (phState s.dev n = 4 → phOwesRecord s.dev n = false → (s.dev.ph n).broken = false →
      Gives (.phClear q n) s (fun t => phState t.dev n = 0 ∧ t.dev.resp = .ok 0 ∧ OnlyRegs (· = Reg.PCH_STATUS n) s t)) ∧
    (∀ i l, phState s.dev n = 4 → phOwesRecord s.dev n = false → (s.dev.ph n).broken = true → sparesOf s.dev 5 = i :: l →
      Gives (.phClear q n) s (fun t => phState t.dev n = 0 ∧ t.dev.fld (Reg.PCH_STATUS n) 13 8 = i ∧ (t.dev.ph n).broken = false ∧
        t.dev.unit 5 i = 0 ∧ t.dev.rd (Reg.PCH_GEN n) = s.dev.rd Reg.GLOBAL_GEN ∧ t.dev.resp = .ok 0 ∧ SameMem s t ∧ t.pending = s.pending))) ∧
  (∀ (s : State) (c : Fin 8) (v : Word), Gives (.cqRdWrite c v) s (fun t => t.dev.resp = .ok 0 ∧
    (if (s.dev.rd (Reg.CQ_WR c) - v).toNat ≤ 2 ^ s.dev.fld (Reg.CQ_CTRL c) 8 4 then
      t.dev.rd (Reg.CQ_RD c) = v ∧ t.dev.rd Reg.PH_FLAGS = s.dev.rd Reg.PH_FLAGS
    else t.dev.rd (Reg.CQ_RD c) = s.dev.rd (Reg.CQ_RD c) ∧ t.dev.rd Reg.PH_FLAGS = s.dev.rd Reg.PH_FLAGS ||| 1) ∧
    OnlyRegs (fun o => o = Reg.CQ_RD c ∨ o = Reg.PH_FLAGS) s t))

/-- R371, R372, R374, R377, R384, R385: a running channel takes the descriptor at RING_HEAD; on a failed physical channel the logical channel
enters TAKEOVER, or halts with a NOSPARE record owed; the lowest spare resumes it where it stood, and the failed channel starts self-test.
Clauses that rest on a choice or reading of the model: log entries 63, 91, 94. -/
def Obligations.DescriptorsAreTakenAndChannelsSpared : Prop :=
  (∀ (s : State) (n : Fin 32) (i : Instr) (w : List Word), phState s.dev n = 1 → (s.dev.ph n).desc = none →
    memUp s.dev (descAddr s.dev n) 32 = true → CleanWords s (descAddr s.dev n) 32 →
    w = listWords (Store.getList (fun _ => 0) s.mem.bytes (descAddr s.dev n) 32) →
    ((i = .phCopy n ∧ descType w = 0) ∨ (i = .phCopy2d n ∧ descType w = 1) ∨ (i = .phFill n ∧ descType w = 2) ∨
      (i = .phImm n ∧ descType w = 3) ∨ (i = .phNop n ∧ 4 ≤ descType w)) →
    Gives i s (fun t =>
      (if bitOf (descWord w 0) 31 = true then
        t.dev.ph n = { s.dev.ph n with desc := some { idx := (s.dev.rd (Reg.RING_HEAD n)).toNat, w := w, status := (descAtOnce w).getD 0, ended := (descAtOnce w).isSome } } ∧
        t.dev.rd (Reg.PROGRESS n) = 0 ∧ phState t.dev n = 1
      else t.dev.phs = s.dev.phs ∧ (if (s.dev.ph n).stepped = true then phState t.dev n = 2 ∧ t.dev.bit (Reg.PCH_FLAGS n) 1 = true
        else phState t.dev n = 0)) ∧
      (∀ m, m ≠ n.val → t.dev.ph m = s.dev.ph m) ∧
      Leaves (fun d e => { d with regs := e.regs, phs := e.phs }) (fun o => o = Reg.PROGRESS n ∨ o = Reg.PCH_STATUS n ∨ o = Reg.PCH_FLAGS n) s t)) ∧
  (∀ (s : State) (n : Fin 32) (i : Instr) (w : List Word) (ty : Nat), i ∈ [Instr.phCopy n, .phCopy2d n, .phFill n, .phImm n, .phNop n] →
    ty = [Instr.phCopy n, .phCopy2d n, .phFill n, .phImm n, .phNop n].idxOf i →
    phState s.dev n ≠ 1 ∨ (s.dev.ph n).desc ≠ none ∨ (memUp s.dev (descAddr s.dev n) 32 = true ∧ CleanWords s (descAddr s.dev n) 32 ∧
      w = listWords (Store.getList (fun _ => 0) s.mem.bytes (descAddr s.dev n) 32) ∧ bitOf (descWord w 0) 31 = true ∧ min 4 (descType w) ≠ ty) →
    Gives i s (fun t => t = s)) ∧
  (∀ (s : State) (n : Fin 32) (code : Bool) (p : Nat), (s.dev.ph n).broken = false → phState s.dev n ≠ 5 → s.dev.inDeep = false →
    s.dev.fld (Reg.PCH_STATUS n) 13 8 = p →
    ((∃ j < 36, s.dev.unit 5 j = 1) →
      Gives (.phChannelFault n code) s (fun t => phState t.dev n = 5 ∧ t.dev.rd (Reg.PCH_GEN n) = 0 ∧
        t.dev.ph n = { s.dev.ph n with was := phState s.dev n, ht := s.dev.now } ∧ (∀ m, m ≠ n.val → t.dev.ph m = s.dev.ph m) ∧
        Leaves (fun d e => { d with regs := e.regs, phs := e.phs }) (fun o => o = Reg.PCH_STATUS n ∨ o = Reg.PCH_GEN n) s t)) ∧
    ((∀ j < 36, s.dev.unit 5 j ≠ 1) →
      Gives (.phChannelFault n code) s (fun t => phState t.dev n = 4 ∧ t.dev.bit (Reg.PCH_FLAGS n) 0 = true ∧ t.dev.bit (Reg.PCH_FLAGS n) 5 = true ∧
        (t.dev.ph n).broken = true ∧ phOwesRecord t.dev n = true ∧ t.dev.rd (Reg.PCH_GEN n) = 0 ∧ t.dev.unit 5 p = 2 ∧
        t.dev.testing.contains (5, p) = true ∧ (∀ m, m ≠ n.val → t.dev.ph m = s.dev.ph m) ∧ SameMem s t ∧ t.pending = s.pending))) ∧
  (∀ (s : State) (n : Fin 32) (code : Bool), (s.dev.ph n).broken = true ∨ phState s.dev n = 5 ∨ s.dev.inDeep = true →
    Gives (.phChannelFault n code) s (fun t => t = s)) ∧
  (∀ (s : State) (n : Fin 32) (code : Bool) (p i : Nat) (l : List Nat), phState s.dev n = 5 → (s.dev.ph n).was < 8 →
    s.dev.fld (Reg.PCH_STATUS n) 13 8 = p → sparesOf s.dev 5 = i :: l → i ≠ p →
    Gives (.phSpareResume n code) s (fun t => phState t.dev n = (s.dev.ph n).was ∧ t.dev.fld (Reg.PCH_STATUS n) 13 8 = i ∧ t.dev.unit 5 i = 0 ∧
      t.dev.unit 5 p = 2 ∧ t.dev.testing.contains (5, p) = true ∧
      t.dev.rd (Reg.PCH_GEN n) = s.dev.rd Reg.GLOBAL_GEN ∧ t.dev.bit (Reg.PCH_FLAGS n) 4 = true ∧ t.dev.phs = s.dev.phs ∧
      t.dev.rd (Reg.PROGRESS n) = s.dev.rd (Reg.PROGRESS n) ∧ t.dev.rd (Reg.RING_HEAD n) = s.dev.rd (Reg.RING_HEAD n) ∧
      SameMem s t ∧ t.pending = s.pending)) ∧
  (∀ (s : State) (n : Fin 32) (code : Bool), phState s.dev n = 5 → sparesOf s.dev 5 = [] →
    Gives (.phSpareResume n code) s (fun t => phState t.dev n = 4 ∧ t.dev.bit (Reg.PCH_FLAGS n) 5 = true ∧ (t.dev.ph n).broken = true ∧
      phOwesRecord t.dev n = true ∧ (∀ m, m ≠ n.val → t.dev.ph m = s.dev.ph m) ∧ SameMem s t ∧ t.pending = s.pending)) ∧
  (∀ (s : State) (n : Fin 32) (code : Bool), phState s.dev n ≠ 5 → Gives (.phSpareResume n code) s (fun t => t = s))

/-- R370, R374, R375, R378 to R381, R385: the channel whose turn it is moves its next unit: of a FILL the pattern by address, of a COPY or COPY2D
the source's bytes, of an IMM its word, and nothing else of memory; PROGRESS and BYTES step. A completion clears OWN, writes its record where one
is owed, waits for a full queue, and steps RING_HEAD, but not after POISON of the descriptor or NOSPARE.
Clauses that rest on a choice or reading of the model: log entries 90, 91, 92, 93. -/
def Obligations.UnitsMoveBytesAndDescriptorsComplete : Prop :=
  (∀ (s : State) (n : Fin 32) (x : PhDesc) (p m dst src : Nat), phTurn s.dev = some n.val → phState s.dev n = 1 → (s.dev.ph n).desc = some x →
    x.ended = false → p = (s.dev.rd (Reg.PROGRESS n)).toNat → p < descBytes x.w → descUnit x.w p = (src, dst, m) →
    sysRegion dst m = .memory → memUp s.dev dst m = true → secureRefuses s.dev (s.dev.keeper (.channel n)) dst m = false →
    descType x.w = 2 ∨ (descType x.w < 2 ∧ sysRegion src m = .memory ∧ memUp s.dev src m = true ∧ CleanWords s src m) →
    Gives (.phUnitDone n) s (fun t =>
      (∀ i < m, t.byteAt (dst + i) = if descType x.w = 2 then (wordBytes (descWord x.w 2)).getD ((dst + i) % 4) 0 else s.byteAt (src + i)) ∧
      t.dev.rd (Reg.PROGRESS n) = w32 (p + m) ∧ t.dev.phLast = n.val ∧
      t.dev.ph n = { s.dev.ph n with
        bytes := ((s.dev.ph n).bytes + m) % 2 ^ 64
        desc := some { x with
          ended := decide (descBytes x.w ≤ p + m)
          status := if descBytes x.w ≤ p + m ∧ x.poisoned = true then 4 else 0 } } ∧
      (∀ k, k ≠ n.val → t.dev.ph k = s.dev.ph k) ∧
      Stores (fun d e => { d with regs := e.regs, phs := e.phs, cks := e.cks, phLast := e.phLast })
        (fun o => o = Reg.PROGRESS n ∨ o = Reg.ERR_INJECT_HI) dst m s t)) ∧
  (∀ (s : State) (n : Fin 32) (x : PhDesc) (a : Nat), phTurn s.dev = some n.val → phState s.dev n = 1 → (s.dev.ph n).desc = some x →
    x.ended = false → descType x.w = 3 → descBytes x.w = 4 → s.dev.rd (Reg.PROGRESS n) = 0 → a = descDst x.w →
    haltBars s.dev (.channel n) = false → sysRegion a 4 = .memory → memUp s.dev a 4 = true →
    secureRefuses s.dev (s.dev.keeper (.channel n)) a 4 = false →
    Gives (.phUnitDone n) s (fun t => (∀ i < 4, t.byteAt (a + i) = (wordBytes (descWord x.w 2)).getD i 0) ∧ t.dev.rd (Reg.PROGRESS n) = 4 ∧
      (∃ y, (t.dev.ph n).desc = some y ∧ y.ended = true ∧ y.w = x.w) ∧ (∀ k, k ≠ n.val → t.dev.ph k = s.dev.ph k) ∧
      Stores (fun d e => { d with regs := e.regs, phs := e.phs, cks := e.cks, phLast := e.phLast, resp := e.resp })
        (fun o => o = Reg.PROGRESS n ∨ o = Reg.ERR_INJECT_HI) a 4 s t)) ∧
  (∀ (s : State) (n : Fin 32), phTurn s.dev ≠ some n.val → Gives (.phUnitDone n) s (fun t => t = s)) ∧
  (∀ (s : State) (n : Fin 32) (x : PhDesc) (ring : Nat), phState s.dev n = 1 ∨ phState s.dev n = 6 → (s.dev.ph n).desc = some x → x.ended = true →
    x.status = 0 → bitOf (descWord x.w 0) 30 = false → x.w.length = 8 →
    ring = (s.dev.rd (Reg.RING_BASE_LO n)).toNat + (s.dev.rd (Reg.RING_BASE_HI n)).toNat * 2 ^ 32 + 32 * x.idx →
    memUp s.dev ring 4 = true → secureRefuses s.dev (s.dev.keeper (.channel n)) ring 4 = false →
    Gives (.phDescComplete n) s (fun t => (t.dev.ph n).desc = none ∧ t.dev.fld (Reg.PCH_STATUS n) 7 4 = 0 ∧
      (∀ i < 4, t.byteAt (ring + i) = (wordBytes (descWord x.w 0 &&& 0x7FFFFFFF)).getD i 0) ∧
      t.dev.rd (Reg.RING_HEAD n) = w32 ((x.idx + 1) % (s.dev.rd (Reg.RING_SIZE n)).toNat) ∧
      (bitOf (descWord x.w 0) 28 = true → phState t.dev n = 0) ∧
      (bitOf (descWord x.w 0) 28 = false → (s.dev.ph n).stepped = true → phState t.dev n = 2) ∧
      (∀ k, k < ring ∨ ring + 4 ≤ k → t.byteAt k = s.byteAt k) ∧ t.mem.tcm = s.mem.tcm ∧ t.mem.flash = s.mem.flash ∧
      (∀ k, k ≠ n.val → t.dev.ph k = s.dev.ph k) ∧ t.pending = s.pending)) ∧
  (∀ (s : State) (n : Fin 32) (x : PhDesc) (q a : Nat) (keeps : Prop), (phState s.dev n = 1 ∨ phState s.dev n = 6 ∨ (phState s.dev n = 4 ∧ x.status = 8)) →
    (s.dev.ph n).desc = some x → x.ended = true → x.status < 16 →
    x.status ≠ 0 ∨ bitOf (descWord x.w 0) 30 = true → fld (descWord x.w 0) 23 21 = q → s.dev.bit (Reg.CQ_CTRL q) 0 = true → cqFull s.dev q = false →
    a = (s.dev.rd (Reg.CQ_BASE_LO q)).toNat + (s.dev.rd (Reg.CQ_BASE_HI q)).toNat * 2 ^ 32 +
      16 * ((s.dev.rd (Reg.CQ_WR q)).toNat % 2 ^ s.dev.fld (Reg.CQ_CTRL q) 8 4) →
    memUp s.dev a 16 = true → secureRefuses s.dev (s.dev.keeper (.channel n)) a 16 = false → keeps = (x.status = 7 ∨ x.status = 8) →
    Gives (.phDescComplete n) s (fun t => (t.dev.ph n).desc = none ∧ t.dev.fld (Reg.PCH_STATUS n) 7 4 = x.status ∧
      t.dev.rd (Reg.CQ_WR q) = s.dev.rd (Reg.CQ_WR q) + 1 ∧ (x.status ≠ 0 → phState t.dev n = 4 ∧ t.dev.bit (Reg.PCH_FLAGS n) 0 = true) ∧
      (keeps → t.dev.rd (Reg.RING_HEAD n) = s.dev.rd (Reg.RING_HEAD n)) ∧
      (¬ keeps → t.dev.rd (Reg.RING_HEAD n) = w32 ((x.idx + 1) % (s.dev.rd (Reg.RING_SIZE n)).toNat)) ∧
      t.byteAt (a + 2) = BitVec.ofNat 8 n.val ∧ (t.byteAt (a + 3)).toNat % 16 = x.status ∧
      (∀ i < 4, t.byteAt (a + 4 + i) = (wordBytes (s.dev.rd (Reg.PROGRESS n))).getD i 0) ∧ t.pending = s.pending)) ∧
  (∀ (s : State) (n : Fin 32) (x : PhDesc) (q : Nat), (s.dev.ph n).desc = some x → x.ended = true →
    x.status ≠ 0 ∨ bitOf (descWord x.w 0) 30 = true → fld (descWord x.w 0) 23 21 = q → s.dev.bit (Reg.CQ_CTRL q) 0 = true → cqFull s.dev q = true →
    (phState s.dev n = 1 → Gives (.phDescComplete n) s (fun t => phState t.dev n = 6 ∧ t.dev.bit (Reg.PCH_FLAGS n) 2 = true ∧
      (t.dev.ph n).desc = some { x with ht := some (x.ht.getD s.dev.now) } ∧ (∀ k, k ≠ n.val → t.dev.ph k = s.dev.ph k) ∧
      Leaves (fun d e => { d with regs := e.regs, phs := e.phs }) (fun o => o = Reg.PCH_STATUS n ∨ o = Reg.PCH_FLAGS n) s t)) ∧
    (phState s.dev n ≠ 1 → Gives (.phDescComplete n) s (fun t => t = s))) ∧
  (∀ (s : State) (n : Fin 32), (phState s.dev n ≠ 1 ∧ phState s.dev n ≠ 4 ∧ phState s.dev n ≠ 6) ∨ (∀ x, (s.dev.ph n).desc = some x → x.ended = false) →
    Gives (.phDescComplete n) s (fun t => t = s))

/-! ### The Mule (chapter 16) -/

/-- R388, R395, R400 to R403: a submission reads the block at its address and queues it with the next ticket, or finds the queue full; the command
at the head of the queue starts on the lowest free lane when no running command meets its spans, and one that is refused ends at once.
Clauses that rest on a choice or reading of the model: log entries 95, 96. -/
def Obligations.MuleTakesAndStartsCommands : Prop :=
  (∀ (s : State) (q : Req) (v : Word) (a : Nat), bitOf v 31 = true → a = 0x1000000000 + 64 * fld v 17 0 → CleanWords s a 64 →
    s.dev.mule.queue.length < 64 → memUp s.dev a 64 = true →
    Gives (.muleSubmit q v) s (fun t => t.dev.rd Reg.SUBMITTED = s.dev.rd Reg.SUBMITTED + 1 ∧
      (∃ c, t.dev.mule = { s.dev.mule with queue := s.dev.mule.queue ++ [c] } ∧ c.ticket = s.dev.rd Reg.SUBMITTED + 1 ∧ c.block = a ∧
        c.keeper = s.dev.keeper q ∧ c.w.length = 16 ∧
        ∀ i < 16, c.w.getD i 0 = w32 (leNat (Store.getList (fun _ => 0) s.mem.bytes (a + 4 * i) 4))) ∧
      t.dev.resp = .ok 0 ∧ Leaves (fun d e => { d with regs := e.regs, mule := e.mule, resp := e.resp }) (· = Reg.SUBMITTED) s t)) ∧
  (∀ (s : State) (c : MuleCmd) (rest : List MuleCmd) (l : Nat) (ls : List Nat) (i : Instr), s.dev.mule.queue = c :: rest → muleFree s.dev = l :: ls →
    (∀ r ∈ s.dev.mule.run, r.lane.isSome = true ∧ r.cmd.conflicts c = false) →
    ((i = .muleCopy ∧ c.op = 1) ∨ (i = .muleFill ∧ c.op = 2) ∨ (i = .muleNop ∧ c.op = 0) ∨
      (c.op = 3 ∧ i ∈ [Instr.muleCopy, .muleFill, .muleNop])) →
    Gives i s (fun t => t.dev.mule.queue = rest ∧ t.dev.mule.ended = s.dev.mule.ended ∧ t.dev.mule.swap = s.dev.mule.swap ∧
      (∃ r, t.dev.mule.run = s.dev.mule.run ++ [r] ∧ r.lane = some l ∧ r.cmd = c ∧ r.tile = 0 ∧ r.code = muleCheck c s.dev ∧
        r.ended = (muleCheck c s.dev != 0)) ∧
      ((c.op ≠ 1 ∨ c.overlaps = false) → { t.dev with mule := s.dev.mule } = s.dev ∧ SameMem s t) ∧ SameBytes s t)) ∧
  (∀ (s : State) (q : Req) (v : Word) (a : Nat), a = 0x1000000000 + 64 * fld v 17 0 →
    (bitOf v 31 = false → Gives (.muleSubmit q v) s (fun t => t = s.upd Dev.okay)) ∧
    (bitOf v 31 = true → memUp s.dev a 64 = true → 64 ≤ s.dev.mule.queue.length →
      Gives (.muleSubmit q v) s (fun t => t.dev.bit Reg.MULE_FLAGS 0 = true ∧ t.dev.resp = .ok 0 ∧ t.dev.mule = s.dev.mule ∧
        (∀ i < 4, t.byteAt (a + 60 + i) = (wordBytes 23).getD i 0) ∧
        Stores (fun d e => { d with regs := e.regs, cks := e.cks, resp := e.resp }) (fun o => o = Reg.MULE_FLAGS ∨ o = Reg.ERR_INJECT_HI) (a + 60) 4 s t))) ∧
  (∀ (s : State) (i : Instr), i ∈ [Instr.muleCopy, .muleFill, .muleNop] →
    s.dev.mule.queue = [] ∨ muleFree s.dev = [] ∨
      (∃ c rest, s.dev.mule.queue = c :: rest ∧ ∃ r ∈ s.dev.mule.run, r.lane = none ∨ r.cmd.conflicts c = true) →
    Gives i s (fun t => t = s))

/-- R403 to R406, R408: a lane finishes a tile, within the destination's span; a completion writes the block's status word and steps COMPLETED;
an abort ends a queued command with code 8; a failed lane leaves service and the spare takes its command, or with no spare a free lane takes it next.
Clauses that rest on a choice or reading of the model: log entries 95, 96. -/
def Obligations.MuleFinishesAbortsAndSpares : Prop :=
  (∀ (s : State) (l : Fin 3) (r : MuleRun), s.dev.mule.run.find? (fun r => r.lane == some l.val) = some r → r.ended = false →
    r.tile < r.cmd.tiles.2 →
    Gives (.muleTileDone l) s (fun t => (∃ x, t.dev.mule.run.find? (fun r => r.lane == some l.val) = some x ∧ x.cmd = r.cmd ∧
        x.tile = r.tile + 1 ∧ (x.code = r.code ∨ x.code = 5)) ∧ t.dev.mule.queue = s.dev.mule.queue ∧
      (∀ k, k < r.cmd.dst.span.1 ∨ r.cmd.dst.span.1 + r.cmd.dst.span.2 ≤ k → t.byteAt k = s.byteAt k) ∧
      t.mem.tcm = s.mem.tcm ∧ t.mem.flash = s.mem.flash ∧ t.pending = s.pending)) ∧
  (∀ (s : State) (l : Fin 3),
    ((∀ r, s.dev.mule.run.find? (fun r => r.lane == some l.val) = some r → r.ended = true ∨ r.cmd.tiles.2 ≤ r.tile) →
      Gives (.muleTileDone l) s (fun t => t = s)) ∧
    ((∀ r, s.dev.mule.run.find? (fun r => r.lane == some l.val) = some r → r.ended = false ∧ r.tile < r.cmd.tiles.2) →
      Gives (.muleCmdComplete l) s (fun t => t = s))) ∧
  (∀ (s : State) (l : Fin 3) (r : MuleRun), s.dev.mule.run.find? (fun r => r.lane == some l.val) = some r →
    r.ended = true ∨ r.cmd.tiles.2 ≤ r.tile → memUp s.dev (r.cmd.block + 60) 4 = true →
    Gives (.muleCmdComplete l) s (fun t => t.dev.mule.run = s.dev.mule.run.erase r ∧ t.dev.mule.queue = s.dev.mule.queue ∧
      t.dev.mule.ended.getLast? = some (r.cmd.ticket, r.code) ∧ t.dev.rd Reg.COMPLETED = s.dev.rd Reg.COMPLETED + 1 ∧
      (∀ i < 4, t.byteAt (r.cmd.block + 60 + i) = (wordBytes (w32 (r.code + 16 + fld r.cmd.ticket 15 0 * 2 ^ 16))).getD i 0) ∧
      (r.cmd.b 17 = true → t.dev.bit (Reg.SWI_SET (r.cmd.f 0 24 18 / 32)) (r.cmd.f 0 24 18 % 32) = true) ∧
      Stores (fun d e => { d with regs := e.regs, mule := e.mule, cks := e.cks })
        (fun o => o = Reg.COMPLETED ∨ o = Reg.ERR_INJECT_HI ∨ o = Reg.SWI_SET (r.cmd.f 0 24 18 / 32)) (r.cmd.block + 60) 4 s t)) ∧
  (∀ (s : State) (q : Req) (tk : Word) (c : MuleCmd), s.dev.keeper q = true → s.dev.mule.queue.find? (fun c => c.ticket == tk) = some c →
    memUp s.dev (c.block + 60) 4 = true →
    Gives (.muleAbort q tk) s (fun t => t.dev.mule.queue = s.dev.mule.queue.erase c ∧ t.dev.mule.run = s.dev.mule.run ∧
      t.dev.mule.ended.getLast? = some (tk, 8) ∧ t.dev.rd Reg.COMPLETED = s.dev.rd Reg.COMPLETED + 1 ∧ t.dev.resp = .ok 0 ∧
      (∀ i < 4, t.byteAt (c.block + 60 + i) = (wordBytes (w32 (8 + 16 + fld tk 15 0 * 2 ^ 16))).getD i 0) ∧
      Stores (fun d e => { d with regs := e.regs, mule := e.mule, cks := e.cks, resp := e.resp })
        (fun o => o = Reg.COMPLETED ∨ o = Reg.ERR_INJECT_HI ∨ o = Reg.SWI_SET (c.f 0 24 18 / 32)) (c.block + 60) 4 s t)) ∧
  (∀ (s : State) (q : Req) (tk : Word), s.dev.keeper q = true → s.dev.mule.queue.find? (fun c => c.ticket == tk) = none →
    Gives (.muleAbort q tk) s (fun t => t.dev.mule.run = s.dev.mule.run.map (fun r => if r.cmd.ticket = tk then { r with ended := true, code := 8 } else r) ∧
      t.dev.mule.queue = s.dev.mule.queue ∧ t.dev.resp = .ok 0 ∧ Leaves (fun d e => { d with mule := e.mule, resp := e.resp }) (fun _ => False) s t)) ∧
  (∀ (s : State) (q : Req) (tk : Word), s.dev.keeper q = false → Gives (.muleAbort q tk) s (fun t => t = s.upd Dev.deny)) ∧
  (∀ (s : State) (l : Fin 3) (code : Bool), s.dev.unit 6 l = 0 → (∃ j < 3, s.dev.unit 6 j = 1) →
    Gives (.muleLaneFault l code) s (fun t => t.dev.unit 6 l = 2 ∧
      t.dev.mule.swap = s.dev.mule.swap ++ [(l.val, (if code then 1 else 2), s.dev.now)] ∧ (∀ r ∈ t.dev.mule.run, r.lane ≠ some l.val) ∧
      t.dev.mule.run.map (fun r => r.cmd) = s.dev.mule.run.map (fun r => r.cmd) ∧ t.dev.mule.queue = s.dev.mule.queue ∧
      Leaves (fun d e => { d with regs := e.regs, mule := e.mule, units := e.units })
        (fun o => o = Reg.ST_STATUS ∨ o = Reg.ST_FLAGS) s t)) ∧
  (∀ (s : State) (l : Fin 3) (code : Bool), s.dev.unit 6 l = 0 → (∀ j < 3, s.dev.unit 6 j ≠ 1) →
    Gives (.muleLaneFault l code) s (fun t => t.dev.unit 6 l = 2 ∧ t.dev.testing.contains (6, l.val) = true ∧ t.dev.bit Reg.MULE_FLAGS 3 = true ∧
      t.dev.mule.swap = s.dev.mule.swap ∧ (∀ r ∈ t.dev.mule.run, r.lane ≠ some l.val) ∧ t.dev.mule.queue = s.dev.mule.queue ∧
      SameMem s t ∧ t.pending = s.pending)) ∧
  (∀ (s : State) (l : Fin 3) (code : Bool), s.dev.unit 6 l = 1 →
    Gives (.muleLaneFault l code) s (fun t => t.dev.unit 6 l = 2 ∧ t.dev.testing.contains (6, l.val) = true ∧ t.dev.mule = s.dev.mule ∧
      SameMem s t ∧ t.pending = s.pending)) ∧
  (∀ (s : State) (l : Fin 3) (code : Bool), 2 ≤ s.dev.unit 6 l → Gives (.muleLaneFault l code) s (fun t => t = s)) ∧
  (∀ (s : State) (l det ht i : Nat) (rest : List (Nat × Nat × Nat)) (is : List Nat), s.dev.mule.swap = (l, det, ht) :: rest →
    (sparesOf s.dev 6 = i :: is →
      Gives .muleSpareRestart s (fun t => t.dev.unit 6 i = 0 ∧ t.dev.mule.swap = rest ∧ t.dev.bit Reg.MULE_FLAGS 2 = true ∧
        t.dev.rd Reg.MULE_GEN = s.dev.rd Reg.GLOBAL_GEN ∧ (l ≠ i → t.dev.testing.contains (6, l) = true) ∧
        (∀ r, s.dev.mule.run.find? (fun r => r.lane.isNone) = some r → ∀ x ∈ t.dev.mule.run, x.cmd.ticket = r.cmd.ticket → x.lane = some i) ∧
        t.dev.mule.queue = s.dev.mule.queue ∧ SameMem s t ∧ t.pending = s.pending)) ∧
    (sparesOf s.dev 6 = [] →
      Gives .muleSpareRestart s (fun t => t.dev.mule = { s.dev.mule with swap := rest } ∧ t.dev.bit Reg.MULE_FLAGS 3 = true ∧
        t.dev.testing.contains (6, l) = true ∧ SameMem s t ∧ t.pending = s.pending))) ∧
  (∀ (s : State) (l : Nat) (ls : List Nat), s.dev.mule.swap = [] →
    (muleFree s.dev = l :: ls → Gives .muleSpareRestart s (fun t =>
      (∀ r, s.dev.mule.run.find? (fun r => r.lane.isNone) = some r → ∀ x ∈ t.dev.mule.run, x.cmd.ticket = r.cmd.ticket → x.lane = some l) ∧
      (s.dev.mule.run.find? (fun r => r.lane.isNone) = none → t = s) ∧ t.dev.mule.queue = s.dev.mule.queue ∧
      Leaves (fun d e => { d with mule := e.mule }) (fun _ => False) s t)) ∧
    (muleFree s.dev = [] → Gives .muleSpareRestart s (fun t => t = s)))

/-! ### Check units (chapter 17) -/

/-- R410, R412 to R417: a byte taken joins the block, its CRC and its alive value; a byte of memory writes that a unit drops marks the block lost; a
block that ends gives its result and compares it, but a lost one is not counted; RESET discards the block; a yoke feeds a SOFT unit 4 bytes or 1.
Other units keep their blocks.
Clauses that rest on a choice or reading of the model: log entry 97. -/
def Obligations.CheckUnitsTakeBytesAndEndBlocks : Prop :=
  (∀ (s : State) (m : Fin 8) (b : Byte) (nat drop : Bool) (l : List (Byte × Bool)) (off : Nat), (s.dev.ck m).queue = (b, nat) :: l →
    drop = false ∨ s.dev.fld (Reg.CK_CTRL m) 3 1 ≠ 3 → off = s.dev.fld (Reg.CK_ALIVE m) 23 0 →
    (s.dev.fld (Reg.CK_CTRL m) 17 16 = 0 → s.dev.fld (Reg.CK_BLOCK m) 23 0 = 0 ∨ (s.dev.ck m).n + 1 < s.dev.fld (Reg.CK_BLOCK m) 23 0) →
    (s.dev.fld (Reg.CK_CTRL m) 17 16 = 1 → nat = false) → (s.dev.fld (Reg.CK_CTRL m) 17 16 = 2 → b.toNat ≠ s.dev.fld (Reg.CK_BLOCK m) 31 24) →
    ((aliveWidth s.dev m = 0 ∨ ((s.dev.ck m).n ≠ off ∧ (s.dev.ck m).n ≠ off + 1)) →
      Gives (.ckByte m drop) s (fun t => t.dev.ck m = { s.dev.ck m with
          queue := l, n := (s.dev.ck m).n + 1
          tail := ((s.dev.ck m).tail ++ [b]).drop (if (s.dev.ck m).tail.length < ckTail s.dev m then 0 else 1)
          crc := if (s.dev.ck m).tail.length < ckTail s.dev m then (s.dev.ck m).crc
            else crcByte (crcPar s.dev m) (s.dev.ck m).crc (((s.dev.ck m).tail ++ [b]).headD 0) } ∧
        (∀ k, k ≠ m.val → t.dev.ck k = s.dev.ck k) ∧ Leaves (fun d e => { d with cks := e.cks }) (fun _ => False) s t)) ∧
    (aliveWidth s.dev m = 8 → (s.dev.ck m).n = off →
      Gives (.ckByte m drop) s (fun t => (t.dev.ck m).n = (s.dev.ck m).n + 1 ∧ (t.dev.ck m).vdone = true ∧
        (if s.dev.bit (Reg.CK_ALIVE_REF m) 16 = false ∨ b.toNat = (s.dev.fld (Reg.CK_ALIVE_REF m) 15 0 + 1) % 256 then
          t.dev.rd (Reg.CK_ALIVE_REF m) = w32 (b.toNat + 0x10000) ∧ t.dev.rd (Reg.CK_FLAGS m) = s.dev.rd (Reg.CK_FLAGS m)
        else if b.toNat = s.dev.fld (Reg.CK_ALIVE_REF m) 15 0 then
          t.dev.rd (Reg.CK_ALIVE_REF m) = s.dev.rd (Reg.CK_ALIVE_REF m) ∧ t.dev.rd (Reg.CK_FLAGS m) = s.dev.rd (Reg.CK_FLAGS m) ||| 2 ∧
          (t.dev.rd (Reg.CK_REPEATS m)).toNat = min ((s.dev.rd (Reg.CK_REPEATS m)).toNat + 1) 0xFFFFFFFF
        else t.dev.rd (Reg.CK_ALIVE_REF m) = w32 (b.toNat + 0x10000) ∧ t.dev.rd (Reg.CK_FLAGS m) = s.dev.rd (Reg.CK_FLAGS m) ||| 4 ∧
          (t.dev.rd (Reg.CK_GAPS m)).toNat = min ((s.dev.rd (Reg.CK_GAPS m)).toNat + 1) 0xFFFFFFFF) ∧
        (∀ k, k ≠ m.val → t.dev.ck k = s.dev.ck k) ∧ Leaves (fun d e => { d with regs := e.regs, cks := e.cks, tasks := e.tasks })
          (fun o => o = Reg.CK_ALIVE_REF m ∨ o = Reg.CK_FLAGS m ∨ o = Reg.CK_REPEATS m ∨ o = Reg.CK_GAPS m ∨ InConj o) s t))) ∧
  (∀ (s : State) (m : Fin 8) (b : Byte) (nat : Bool) (l : List (Byte × Bool)), (s.dev.ck m).queue = (b, nat) :: l →
    s.dev.fld (Reg.CK_CTRL m) 3 1 = 3 →
    Gives (.ckByte m true) s (fun t => t.dev.rd (Reg.CK_FLAGS m) = s.dev.rd (Reg.CK_FLAGS m) ||| 0x10 ∧
      (if nat = true ∧ s.dev.fld (Reg.CK_CTRL m) 17 16 = 1 then
        (t.dev.ck m).queue = l ∧ (t.dev.ck m).n = 0 ∧ (t.dev.ck m).crc = (crcPar s.dev m).init ∧ (t.dev.ck m).lost = false
      else t.dev.ck m = { s.dev.ck m with queue := l, lost := true }) ∧
      (∀ k, k ≠ m.val → t.dev.ck k = s.dev.ck k) ∧
      Leaves (fun d e => { d with regs := e.regs, cks := e.cks }) (· = Reg.CK_FLAGS m) s t)) ∧
  (∀ (s : State) (m : Fin 8) (drop : Bool), (s.dev.ck m).queue = [] → Gives (.ckByte m drop) s (fun t => t = s)) ∧
  (∀ (s : State) (m : Fin 8) (byTask short bad : Bool) (res : Nat) (want : Option Nat), FromTask s.dev (0x290 + 2 * m) byTask →
    (s.dev.ck m).n ≠ 0 → (s.dev.ck m).lost = false → res = crcResult (crcPar s.dev m) (s.dev.ck m).crc →
    want = [some ((s.dev.rd (Reg.CK_EXPECTED m)).toNat % 2 ^ (crcPar s.dev m).width), some (leNat (s.dev.ck m).tail),
      some (leNat (s.dev.ck m).tail.reverse), none].getD (s.dev.fld (Reg.CK_CTRL m) 19 18) none →
    short = decide (ckTail s.dev m ≠ 0 ∧ (s.dev.ck m).n ≤ ckTail s.dev m) → bad = decide (short = false ∧ want ≠ none ∧ want ≠ some res) →
    Gives (.ckEnd m byTask) s (fun t => t.dev.rd (Reg.CK_RESULT m) = w32 res ∧
      (t.dev.rd (Reg.CK_BLOCKS m)).toNat = min ((s.dev.rd (Reg.CK_BLOCKS m)).toNat + 1) 0xFFFFFFFF ∧
      t.dev.rd (Reg.CK_FLAGS m) = s.dev.rd (Reg.CK_FLAGS m) ||| (if bad then 1 else 0) |||
        (if short = true ∨ (aliveWidth s.dev m ≠ 0 ∧ (s.dev.ck m).vdone = false) then 8 else 0) ∧
      (t.dev.rd (Reg.CK_MISMATCHES m)).toNat =
        (if bad then min ((s.dev.rd (Reg.CK_MISMATCHES m)).toNat + 1) 0xFFFFFFFF else (s.dev.rd (Reg.CK_MISMATCHES m)).toNat) ∧
      (t.dev.ck m).n = 0 ∧ (t.dev.ck m).crc = (crcPar s.dev m).init ∧ (t.dev.ck m).tail = [] ∧ (∀ k, k ≠ m.val → t.dev.ck k = s.dev.ck k) ∧
      Leaves (fun d e => { d with regs := e.regs, cks := e.cks, tasks := e.tasks, resp := e.resp })
        (fun o => o = Reg.CK_RESULT m ∨ o = Reg.CK_BLOCKS m ∨ o = Reg.CK_FLAGS m ∨ o = Reg.CK_MISMATCHES m ∨ InConj o) s t)) ∧
  (∀ (s : State) (m : Fin 8) (byTask : Bool), FromTask s.dev (0x290 + 2 * m) byTask → (s.dev.ck m).lost = true ∨ (s.dev.ck m).n = 0 →
    Gives (.ckEnd m byTask) s (fun t => (t.dev.ck m).n = 0 ∧ ((s.dev.ck m).lost = false → t.dev.cks = s.dev.cks) ∧
      ((s.dev.ck m).lost = true → (t.dev.ck m).lost = false ∧ (t.dev.ck m).crc = (crcPar s.dev m).init) ∧
      (∀ k, k ≠ m.val → t.dev.ck k = s.dev.ck k) ∧
      Leaves (fun d e => { d with cks := e.cks, tasks := e.tasks, resp := e.resp }) (fun _ => False) s t)) ∧
  (∀ (s : State) (m : Fin 8) (byTask : Bool), FromTask s.dev (0x291 + 2 * m) byTask →
    Gives (.ckReset m byTask) s (fun t => (t.dev.ck m).n = 0 ∧ (t.dev.ck m).crc = (crcPar s.dev m).init ∧ (t.dev.ck m).tail = [] ∧
      (t.dev.ck m).lost = false ∧ (t.dev.ck m).queue = (s.dev.ck m).queue ∧ t.dev.rd (Reg.CK_ALIVE_REF m) = 0 ∧
      (∀ k, k ≠ m.val → t.dev.ck k = s.dev.ck k) ∧
      Leaves (fun d e => { d with regs := e.regs, cks := e.cks, tasks := e.tasks, resp := e.resp }) (· = Reg.CK_ALIVE_REF m) s t)) ∧
  (∀ (s : State) (m : Fin 8), (s.dev.tasksAt (0x290 + 2 * m.val) = [] → Gives (.ckEnd m true) s (fun t => t = s)) ∧
    (s.dev.tasksAt (0x291 + 2 * m.val) = [] → Gives (.ckReset m true) s (fun t => t = s))) ∧
  (∀ (s : State) (y : Nat) (m : Fin 8) (v : Word), s.dev.bit (Reg.CK_CTRL m) 0 = true → s.dev.fld (Reg.CK_CTRL m) 3 1 = 0 →
    aliveWidth s.dev m = 0 → ckTail s.dev m = 0 → (s.dev.ck m).tail = [] → s.dev.fld (Reg.CK_CTRL m) 17 16 = 3 →
    Gives (.ckFeed (.yoke y) m v) s (fun t => t.dev.ck m = { s.dev.ck m with
        n := (s.dev.ck m).n + 4, crc := (wordBytes v).foldl (crcByte (crcPar s.dev m)) (s.dev.ck m).crc } ∧
      (∀ k, k ≠ m.val → t.dev.ck k = s.dev.ck k) ∧ t.dev.resp = .ok 0 ∧
      Leaves (fun d e => { d with cks := e.cks, resp := e.resp }) (fun _ => False) s t) ∧
    Gives (.ckFeed1 (.yoke y) m v) s (fun t => t.dev.ck m = { s.dev.ck m with
        n := (s.dev.ck m).n + 1, crc := crcByte (crcPar s.dev m) (s.dev.ck m).crc (v.extractLsb' 0 8) } ∧
      (∀ k, k ≠ m.val → t.dev.ck k = s.dev.ck k) ∧ t.dev.resp = .ok 0 ∧
      Leaves (fun d e => { d with cks := e.cks, resp := e.resp }) (fun _ => False) s t)) ∧
  (∀ (s : State) (q : Req) (m : Fin 8) (v : Word),
    (s.dev.fld (Reg.CK_CTRL m) 3 1 ≠ 0 →
      Gives (.ckFeed q m v) s (fun t => t = s.upd (fun d => (d.setBit (Reg.CK_FLAGS m) 5).okay)) ∧
      Gives (.ckFeed1 q m v) s (fun t => t = s.upd (fun d => (d.setBit (Reg.CK_FLAGS m) 5).okay))) ∧
    (s.dev.fld (Reg.CK_CTRL m) 3 1 = 0 → s.dev.bit (Reg.CK_CTRL m) 0 = false ∨ (∀ y, q ≠ .yoke y) →
      Gives (.ckFeed q m v) s (fun t => t = s.upd Dev.okay) ∧ Gives (.ckFeed1 q m v) s (fun t => t = s.upd Dev.okay)))

/-! ### The Drove link (chapter 21) -/

/-- R494, R495, R497, R499 to R504, R511 to R516: an ACTIVE receiver takes a frame in its turn. A DATA record lands in its ring, or sets
PEER_PROTO without room; credits apply; an acknowledgement frees frames and a NAK starts a replay or, after eight fruitless ones, a
retraining; a write and a read of the peer reach memory or registers or are refused; responses end what they name; a frame out of its turn
is acknowledged again or answered by a NAK, and so is a bad frame or one that breaks its type's row; no frame acts while not ACTIVE.
Clauses that rest on a choice or reading of the model: log entries 78, 105, 106, 117. -/
def Obligations.ReceivedFramesArePerformed : Prop :=
  (∀ (s : State) (f : DrvFrame) (base lg : Nat), Accepts s.dev 1 f → s.dev.bit (Reg.DRX_CFG f.stream) 29 = true →
    lg = s.dev.fld (Reg.DRX_CFG f.stream) 20 16 →
    base = (s.dev.rd (Reg.DRX_BASE_LO f.stream)).toNat + s.dev.fld (Reg.DRX_CFG f.stream) 15 0 * 2 ^ 32 →
    (s.dev.rd (Reg.DRX_WR f.stream) - s.dev.rd (Reg.DRX_RD f.stream)).toNat + (dataRecord f s.dev.ht).length ≤ 2 ^ lg → memUp s.dev base (2 ^ lg) = true →
    Gives (.droveDataRx f) s (fun t => Took s.dev t.dev ∧
      t.dev.rd (Reg.DRX_WR f.stream) = s.dev.rd (Reg.DRX_WR f.stream) + w32 (dataRecord f s.dev.ht).length ∧
      (∀ i < (dataRecord f s.dev.ht).length,
        t.byteAt (base + ((s.dev.rd (Reg.DRX_WR f.stream)).toNat + i) % 2 ^ lg) = (dataRecord f s.dev.ht).getD i 0) ∧
      Stores (fun d e => { d with regs := e.regs, drv := e.drv, cks := e.cks, tasks := e.tasks })
        (fun o => o = Reg.DRX_WR f.stream ∨ o = Reg.ERR_INJECT_HI ∨ RxReg o ∨ InConj o) base (2 ^ lg) s t)) ∧
  (∀ (s : State) (f : DrvFrame) (base lg : Nat), Accepts s.dev 1 f → lg = s.dev.fld (Reg.DRX_CFG f.stream) 20 16 →
    base = (s.dev.rd (Reg.DRX_BASE_LO f.stream)).toNat + s.dev.fld (Reg.DRX_CFG f.stream) 15 0 * 2 ^ 32 →
    (s.dev.bit (Reg.DRX_CFG f.stream) 29 = false ∨
        2 ^ lg < (s.dev.rd (Reg.DRX_WR f.stream) - s.dev.rd (Reg.DRX_RD f.stream)).toNat + (dataRecord f s.dev.ht).length →
      Gives (.droveDataRx f) s (fun t => Took s.dev t.dev ∧ t.dev.bit Reg.DRV_FLAGS 4 = true ∧
        Leaves (fun d e => { d with regs := e.regs, drv := e.drv }) (fun o => o = Reg.DRV_FLAGS ∨ RxReg o) s t)) ∧
    (s.dev.bit (Reg.DRX_CFG f.stream) 29 = true → memUp s.dev base (2 ^ lg) = false →
      (s.dev.rd (Reg.DRX_WR f.stream) - s.dev.rd (Reg.DRX_RD f.stream)).toNat + (dataRecord f s.dev.ht).length ≤ 2 ^ lg →
      Gives (.droveDataRx f) s (fun t => Took s.dev t.dev ∧ Leaves (fun d e => { d with regs := e.regs, drv := e.drv }) RxReg s t))) ∧
  (∀ (s : State) (f : DrvFrame), Accepts s.dev 2 f → f.cr = none → (∀ k < 64, (s.dev.rd (Reg.TX_CREDITS k)).toNat ≤ 65535) →
    Gives (.droveCreditRx f) s (fun t => Took s.dev t.dev ∧
      (∀ k < 64, (t.dev.rd (Reg.TX_CREDITS k)).toNat = min 65535 ((s.dev.rd (Reg.TX_CREDITS k)).toNat +
        (((List.range (f.payload.length / 4)).filter (fun i => (f.payload.getD (4 * i) 0).toNat = k)).map
          (fun i => (f.payload.getD (4 * i + 2) 0).toNat + 256 * (f.payload.getD (4 * i + 3) 0).toNat)).sum)) ∧
      Leaves (fun d e => { d with regs := e.regs, drv := e.drv }) RxReg s t)) ∧
  (∀ (s : State) (f : DrvFrame) (i : Instr) (ty : Nat), (i = .droveAckRx f ∧ ty = 3) ∨ (i = .droveIdleRx f ∧ ty = 10) → Accepts s.dev ty f →
    Gives i s (fun t => t.dev.drv.badRun = 0 ∧ t.dev.drv.next = s.dev.drv.next ∧
      (match f.ack.bind (outPlace s.dev) with
        | some n => t.dev.drv.out = s.dev.drv.out.drop (n + 1) ∧ t.dev.drv.fails = 0 ∧ t.dev.drv.timer = s.dev.clk ∧
            t.dev.rd Reg.REPLAY_USED = w32 (replayUsed (s.dev.drv.out.drop (n + 1)))
        | none => t.dev.drv.out = s.dev.drv.out ∧ t.dev.drv.fails = s.dev.drv.fails ∧ t.dev.regs = s.dev.regs) ∧
      Leaves (fun d e => { d with regs := e.regs, drv := e.drv }) (· = Reg.REPLAY_USED) s t)) ∧
  (∀ (s : State) (f : DrvFrame) (a n : Nat) (x : TxFrame) (l : List TxFrame), Accepts s.dev 4 f → f.ack = some a → outPlace s.dev a = some n →
    s.dev.drv.out.drop (n + 1) = x :: l → x.f.seq = (a + 1) % 65536 → s.dev.drv.resend = none →
    Gives (.droveNakRx f) s (fun t => t.dev.drv.out = x :: l ∧ t.dev.drv.resend = some x.f.seq ∧ t.dev.drv.fails = 1 ∧ t.dev.drv.timer = s.dev.clk ∧
      (t.dev.rd Reg.NAKS_RCVD).toNat = min ((s.dev.rd Reg.NAKS_RCVD).toNat + 1) 0xFFFFFFFF ∧
      (t.dev.rd Reg.REPLAYS).toNat = min ((s.dev.rd Reg.REPLAYS).toNat + 1) 0xFFFFFFFF ∧
      Leaves (fun d e => { d with regs := e.regs, drv := e.drv }) (fun o => o = Reg.REPLAY_USED ∨ o = Reg.NAKS_RCVD ∨ o = Reg.REPLAYS) s t)) ∧
  (∀ (s : State) (f : DrvFrame) (a : Nat), Accepts s.dev 4 f → f.ack = some a → outPlace s.dev a = none →
    (outPlace s.dev ((a + 1) % 65536) = none →
      Gives (.droveNakRx f) s (fun t => t.dev.drv = { s.dev.drv with badRun := 0 } ∧
        (t.dev.rd Reg.NAKS_RCVD).toNat = min ((s.dev.rd Reg.NAKS_RCVD).toNat + 1) 0xFFFFFFFF ∧
        Leaves (fun d e => { d with regs := e.regs, drv := e.drv }) (· = Reg.NAKS_RCVD) s t)) ∧
    (outPlace s.dev ((a + 1) % 65536) = some 0 → s.dev.drv.resend = none →
      Gives (.droveNakRx f) s (fun t => t.dev.drv.out = s.dev.drv.out ∧
        (if s.dev.drv.fails < 8 then drvState t.dev = 2 ∧ t.dev.drv.resend = some ((a + 1) % 65536) ∧ t.dev.drv.fails = s.dev.drv.fails + 1
        else drvState t.dev = 3 ∧ t.dev.bit Reg.DRV_FLAGS 2 = true ∧ t.dev.drv.start = s.dev.clk) ∧
        Leaves (fun d e => { d with regs := e.regs, drv := e.drv })
          (fun o => o = Reg.NAKS_RCVD ∨ o = Reg.REPLAYS ∨ o = Reg.DRV_STATUS ∨ o = Reg.DRV_FLAGS ∨ o = Reg.RETRAINS) s t))) ∧
  (∀ (s : State) (f : DrvFrame) (a n : Nat), Accepts s.dev 5 f → a = leNat (f.payload.take 8) → n = f.payload.length - 8 →
    (sysRegion a n = .memory → peerRefused s.dev a n = false → regionFlag s.dev 1 a n = false → secureRefuses s.dev (s.dev.keeper .peer) a n = false →
      Gives (.droveMemWrRx f) s (fun t => Took s.dev t.dev ∧ (∀ i < n, t.byteAt (a + i) = f.payload.getD (8 + i) 0) ∧
        Stores (fun d e => { d with regs := e.regs, drv := e.drv, cks := e.cks }) (fun o => o = Reg.ERR_INJECT_HI ∨ RxReg o) a n s t)) ∧
    (sysRegion a n = .register → peerRefused s.dev a n = false → n = 4 →
      Gives (.droveMemWrRx f) s (fun t => ∃ u w : State, Took s.dev u.dev ∧ Leaves (fun d e => { d with regs := e.regs, drv := e.drv }) RxReg s u ∧
        w = regWrite .peer (a - 0x2000000000) 4 (w32 (leNat (f.payload.drop 8))) u ∧
        t = if w.dev.resp = .accessError then w.upd (peerWrErr a) else w)) ∧
    (peerRefused s.dev a n = true ∨ (sysRegion a n = .memory ∧ (regionFlag s.dev 1 a n = true ∨ secureRefuses s.dev (s.dev.keeper .peer) a n = true)) →
      Gives (.droveMemWrRx f) s (fun t => Took s.dev t.dev ∧ t.dev.bit Reg.DRV_FLAGS 3 = true ∧ t.dev.rd Reg.PEER_ERR_ADDR_LO = w32 a ∧
        t.dev.drv.errAddr = a ∧ (t.dev.rd Reg.PEER_WR_ERRS).toNat = min ((s.dev.rd Reg.PEER_WR_ERRS).toNat + 1) 0xFFFFFFFF ∧
        Leaves (fun d e => { d with regs := e.regs, drv := e.drv })
          (fun o => o = Reg.DRV_FLAGS ∨ o = Reg.PEER_ERR_ADDR_LO ∨ o = Reg.PEER_WR_ERRS ∨ o = Reg.MEM_FLAGS ∨ RxReg o) s t))) ∧
  (∀ (s : State) (f : DrvFrame) (a n : Nat), Accepts s.dev 6 f → a = leNat (f.payload.take 8) → n = leNat (f.payload.drop 8) → 1 ≤ n → n ≤ 4096 →
    sysRegion a n = .memory → peerRefused s.dev a n = false → CleanWords s a n →
    Gives (.droveMemRdReqRx f) s (fun t => Took s.dev t.dev ∧ (∃ x, t.dev.drv.queue = s.dev.drv.queue ++ [x] ∧ x.who = none ∧ x.f.ty = 7 ∧ x.f.stream = 62 ∧
        x.f.tag = w32 (fld f.tag 15 0) ∧ x.f.payload = Store.getList (fun _ => 0) s.mem.bytes a n) ∧
      Leaves (fun d e => { d with regs := e.regs, drv := e.drv }) RxReg s t)) ∧
  (∀ (s : State) (f : DrvFrame) (a n : Nat), Accepts s.dev 6 f → a = leNat (f.payload.take 8) → n = leNat (f.payload.drop 8) →
    n = 0 ∨ 4096 < n ∨ peerRefused s.dev a n = true →
    Gives (.droveMemRdReqRx f) s (fun t => Took s.dev t.dev ∧ (∃ x, t.dev.drv.queue = s.dev.drv.queue ++ [x] ∧ x.who = none ∧ x.f.ty = 7 ∧ x.f.stream = 62 ∧
        x.f.tag = w32 (fld f.tag 15 0 + 2 ^ 16) ∧ x.f.payload = []) ∧
      Leaves (fun d e => { d with regs := e.regs, drv := e.drv }) (fun o => o = Reg.MEM_FLAGS ∨ RxReg o) s t)) ∧
  (∀ (s : State) (f : DrvFrame) (a : Nat), Accepts s.dev 6 f → a = leNat (f.payload.take 8) → leNat (f.payload.drop 8) = 4 →
    sysRegion a 4 = .register → peerRefused s.dev a 4 = false →
    Gives (.droveMemRdReqRx f) s (fun t => ∃ (u w : State) (st : Nat) (b : List Byte), Took s.dev u.dev ∧
      Leaves (fun d e => { d with regs := e.regs, drv := e.drv }) RxReg s u ∧ w = u.upd (regRead .peer (a - 0x2000000000) 4) ∧
      (st, b) = (match w.dev.resp with | .ok v => (0, wordBytes v) | _ => (1, [])) ∧
      t = w.upd (fun d => oweFrame f (queueFrame none { ty := 7, stream := 62, tag := w32 (fld f.tag 15 0 + st * 2 ^ 16), payload := b } d)))) ∧
  (∀ (s : State) (f : DrvFrame) (r : PeerRead) (c : Nat), Accepts s.dev 7 f → s.dev.drv.reads.find? (fun r => r.tag == fld f.tag 15 0) = some r →
    r.who = .channel c →
    Gives (.droveMemRdRspRx f) s (fun t => Took s.dev t.dev ∧ t.dev.drv.reads = s.dev.drv.reads.filter (fun x => x.tag != r.tag) ∧
      t.dev.drv.answers = s.dev.drv.answers ++ [{
        who := .channel c, addr := r.addr, len := r.len, data := f.payload
        status := if (fld f.tag 23 16 = 0 ∨ fld f.tag 23 16 = 2) ∧ f.payload.length = r.len then fld f.tag 23 16 else 1 }] ∧
      Leaves (fun d e => { d with regs := e.regs, drv := e.drv }) RxReg s t)) ∧
  (∀ (s : State) (f : DrvFrame) (r : PeerRead) (w : LdWait) (y : Fin 8), Accepts s.dev 7 f →
    s.dev.drv.reads.find? (fun r => r.tag == fld f.tag 15 0) = some r → r.who = .yoke y → (s.dev.yk y).ld = some w → w.tag = r.tag →
    w.size = 4 → fld f.tag 23 16 = 0 → f.payload.length = r.len →
    Gives (.droveMemRdRspRx f) s (fun t => Took s.dev t.dev ∧ t.dev.drv.reads = s.dev.drv.reads.filter (fun x => x.tag != r.tag) ∧
      (t.dev.yk y).ld = none ∧
      (t.dev.yk y).ctx = { (s.dev.yk y).ctx.setR w.reg (w32 (leNat f.payload)) with pc := (s.dev.yk y).ctx.pc + 4 } ∧
      (∀ z, z ≠ y.val → t.dev.yk z = s.dev.yk z) ∧ SameMem s t ∧ t.pending = s.pending)) ∧
  (∀ (s : State) (f : DrvFrame), Accepts s.dev 7 f → s.dev.drv.reads.find? (fun r => r.tag == fld f.tag 15 0) = none →
    Gives (.droveMemRdRspRx f) s (fun t => Took s.dev t.dev ∧ t.dev.bit Reg.DRV_FLAGS 5 = true ∧
      (t.dev.rd Reg.LATE_RSPS).toNat = min ((s.dev.rd Reg.LATE_RSPS).toNat + 1) 0xFFFFFFFF ∧
      Leaves (fun d e => { d with regs := e.regs, drv := e.drv }) (fun o => o = Reg.DRV_FLAGS ∨ o = Reg.LATE_RSPS ∨ RxReg o) s t)) ∧
  (∀ (s : State) (f : DrvFrame), Accepts s.dev 8 f → Gives (.droveCopReqRx f) s (fun t => Took s.dev t.dev ∧ t.dev.bit Reg.DRV_FLAGS 4 = true ∧
      Leaves (fun d e => { d with regs := e.regs, drv := e.drv }) (fun o => o = Reg.DRV_FLAGS ∨ RxReg o) s t)) ∧
  (∀ (s : State) (f : DrvFrame), Accepts s.dev 9 f →
    (∀ (r : PeerCop) (w : CopWait), s.dev.drv.cops.find? (fun r => r.tag == f.tag.toNat) = some r → (s.dev.yk r.y).wait = some w → w.tag = r.tag →
      Gives (.droveCopRspRx f) s (fun t => Took s.dev t.dev ∧ t.dev.drv.cops = s.dev.drv.cops.filter (fun c => c.tag != r.tag) ∧
        (t.dev.yk r.y).wait = none ∧
        (t.dev.yk r.y).ctx = { (if w.wide = true then
            ((s.dev.yk r.y).ctx.setR w.reg (w32 (leNat (f.payload.take 4)))).setR (w.reg + 1) (w32 (leNat ((f.payload.drop 4).take 4)))
          else (s.dev.yk r.y).ctx.setR w.reg (w32 (leNat (f.payload.take 4)))).setFlag 2 ((f.payload.getD 8 0).getLsbD 0) with
          pc := (s.dev.yk r.y).ctx.pc + 4 } ∧ (∀ z, z ≠ r.y → t.dev.yk z = s.dev.yk z) ∧ SameMem s t ∧ t.pending = s.pending)) ∧
    (∀ r : PeerCop, s.dev.drv.cops.find? (fun r => r.tag == f.tag.toNat) = some r → (∀ w : CopWait, (s.dev.yk r.y).wait = some w → w.tag ≠ r.tag) →
      Gives (.droveCopRspRx f) s (fun t => Took s.dev t.dev ∧ t.dev.drv.cops = s.dev.drv.cops.filter (fun c => c.tag != r.tag) ∧
        (∀ z, (t.dev.yk z).ctx = (s.dev.yk z).ctx ∧ (t.dev.yk z).wait = (s.dev.yk z).wait ∧ (z ≠ r.y → t.dev.yk z = s.dev.yk z)) ∧
        Leaves (fun d e => { d with regs := e.regs, drv := e.drv, yokes := e.yokes }) RxReg s t)) ∧
    (s.dev.drv.cops.find? (fun r => r.tag == f.tag.toNat) = none →
      Gives (.droveCopRspRx f) s (fun t => Took s.dev t.dev ∧ t.dev.bit Reg.DRV_FLAGS 5 = true ∧
        (t.dev.rd Reg.LATE_RSPS).toNat = min ((s.dev.rd Reg.LATE_RSPS).toNat + 1) 0xFFFFFFFF ∧
        Leaves (fun d e => { d with regs := e.regs, drv := e.drv }) (fun o => o = Reg.DRV_FLAGS ∨ o = Reg.LATE_RSPS ∨ RxReg o) s t))) ∧
  (∀ (s : State) (start : Bool) (r : Nat), r = (if start then s.dev.drv.badRun + 1 else 0) →
    (drvState s.dev = 2 → Gives (.droveBadFrame start) s (fun t => t.dev.drv.nakDue = (s.dev.drv.nakDue || !nakHeld s.dev) ∧
      t.dev.drv.nakAt = s.dev.drv.nakAt ∧ t.dev.drv.next = s.dev.drv.next ∧
      (t.dev.rd Reg.BAD_FRAMES).toNat = min ((s.dev.rd Reg.BAD_FRAMES).toNat + 1) 0xFFFFFFFF ∧
      (if 4 < r then drvState t.dev = 3 ∧ t.dev.bit Reg.DRV_FLAGS 2 = true ∧ t.dev.drv.badRun = 0 ∧ t.dev.drv.start = s.dev.clk
      else drvState t.dev = 2 ∧ t.dev.drv.badRun = r) ∧
      Leaves (fun d e => { d with regs := e.regs, drv := e.drv })
        (fun o => o = Reg.BAD_FRAMES ∨ (4 < r ∧ (o = Reg.DRV_STATUS ∨ o = Reg.DRV_FLAGS ∨ o = Reg.RETRAINS))) s t)) ∧
    (drvState s.dev ≠ 2 → Gives (.droveBadFrame start) s (fun t => t = s))) ∧
  (∀ (s : State) (f : DrvFrame) (i : Instr) (ty b : Nat), RxCommand f i ty → drvState s.dev = 2 →
    b = (s.dev.drv.next + 65536 - f.seq) % 65536 →
    (frameRow { f with ty := ty } = false ∨ frameReserved { f with ty := ty } = false →
      Gives i s (fun t => t.dev.drv = { s.dev.drv with badRun := 0, nakDue := s.dev.drv.nakDue || !nakHeld s.dev } ∧
        (t.dev.rd Reg.BAD_FRAMES).toNat = min ((s.dev.rd Reg.BAD_FRAMES).toNat + 1) 0xFFFFFFFF ∧
        Leaves (fun d e => { d with regs := e.regs, drv := e.drv }) (· = Reg.BAD_FRAMES) s t)) ∧
    (frameRow { f with ty := ty } = true → frameReserved { f with ty := ty } = true → sequenced ty = true → f.seq ≠ s.dev.drv.next → f.ack.bind (outPlace s.dev) = none →
      Gives i s (fun t => t.dev.drv = (if 1 ≤ b ∧ b ≤ 32768 then { s.dev.drv with badRun := 0, ackDue := true }
          else { s.dev.drv with badRun := 0, nakDue := s.dev.drv.nakDue || !nakHeld s.dev }) ∧
        Leaves (fun d e => { d with drv := e.drv }) (fun _ => False) s t))) ∧
  (∀ (s : State) (f : DrvFrame) (i : Instr) (ty : Nat), RxCommand f i ty → drvState s.dev ≠ 2 → Gives i s (fun t => t = s))

/-- R497, R500 to R504, R509, R516, R517, R520: nothing is sent while the link is not ACTIVE. A NAK, an ACK or an IDLE frame is sent on
request; a replay comes before any new sequenced frame; then CREDIT frames; a queued request or the next record of a transmit ring is sent
with the next sequence number when its credits are held and it fits the replay buffer, and otherwise waits; 2 µs without an
acknowledgement resend every outstanding frame or, after eight times, retrain; RX_RD and TX_WR.
Clauses that rest on a choice or reading of the model: log entries 102, 106. -/
def Obligations.FramesAreSentAgainstCredits : Prop :=
  (∀ (s : State) (sel : Fin 66), drvState s.dev ≠ 2 → Gives (.droveFrameSend sel) s (fun t => t = s)) ∧
  (∀ (s : State) (f : DrvFrame), drvState s.dev = 2 →
    f = (if s.dev.drv.nakDue = true then { ty := 4, ack := some ((s.dev.drv.next + 65535) % 65536) }
      else if s.dev.drv.ackDue = true then { ty := 3, ack := some ((s.dev.drv.next + 65535) % 65536) } else { ty := 10 }) →
    Gives (.droveFrameSend 65) s (fun t => t.dev.drv.wire = some f ∧ t.dev.drv.ackDue = false ∧ t.dev.drv.nakDue = false ∧
      t.dev.drv.nakAt = (if s.dev.drv.nakDue = true then some s.dev.clk else s.dev.drv.nakAt) ∧ t.dev.drv.lsLeft = 0 ∧
      t.dev.drv.blocks = s.dev.drv.blocks + s.dev.drv.lsLeft + 3 ∧ t.dev.drv.out = s.dev.drv.out ∧
      (NoSwapWithin s.dev (s.dev.drv.lsLeft + 3) →
        (t.dev.rd Reg.NAKS_SENT).toNat =
          (if s.dev.drv.nakDue = true then min ((s.dev.rd Reg.NAKS_SENT).toNat + 1) 0xFFFFFFFF else (s.dev.rd Reg.NAKS_SENT).toNat) ∧
        Leaves (fun d e => { d with regs := e.regs, drv := e.drv }) (· = Reg.NAKS_SENT) s t))) ∧
  (∀ (s : State) (sel : Fin 65) (q n : Nat) (x : TxFrame), drvState s.dev = 2 → s.dev.drv.resend = some q → outPlace s.dev q = some n →
    s.dev.drv.out[n]? = some x →
    Gives (.droveFrameSend (sel.castLE (by decide))) s (fun t => t.dev.drv.wire = some x.f ∧ t.dev.drv.out = s.dev.drv.out ∧
      t.dev.drv.txSeq = s.dev.drv.txSeq ∧ t.dev.drv.queue = s.dev.drv.queue ∧
      t.dev.drv.resend = (s.dev.drv.out[n + 1]?).map (fun y => y.f.seq) ∧
      (NoSwapWithin s.dev (s.dev.drv.lsLeft + frameSize x.f / 8) → Leaves (fun d e => { d with drv := e.drv }) (fun _ => False) s t))) ∧
  (∀ (s : State) (sel : Fin 66) (x : TxFrame), drvState s.dev = 2 → s.dev.drv.resend = none → s.dev.drv.queue.find? (fun t => t.f.ty == 2) = none →
    sel.val < 64 → pickQueued sel [] s.dev.drv.queue = some x →
    (frameCost x.f ≤ (s.dev.rd (Reg.TX_CREDITS sel)).toNat → replayUsed s.dev.drv.out + frameSize x.f ≤ 262144 → s.dev.drv.out.length < 32768 →
      Gives (.droveFrameSend sel) s (fun t => ∃ g, t.dev.drv.out = s.dev.drv.out ++ [{ x with f := g }] ∧ g.seq = s.dev.drv.txSeq ∧ g.ty = x.f.ty ∧
        g.stream = x.f.stream ∧ g.tag = x.f.tag ∧ g.payload = x.f.payload ∧ t.dev.drv.wire = some g ∧ t.dev.drv.txSeq = (s.dev.drv.txSeq + 1) % 65536 ∧
        (s.dev.drv.ackDue = true → g.ack = some ((s.dev.drv.next + 65535) % 65536)) ∧ t.dev.drv.ackDue = false ∧
        (∀ (e : Nat × Nat) (l : Store Nat), s.dev.drv.owed = e :: l → g.cr = some (e.1, min e.2 65535)) ∧
        t.dev.drv.queue = s.dev.drv.queue.erase x ∧
        (NoSwapWithin s.dev (s.dev.drv.lsLeft + frameSize x.f / 8) →
          (t.dev.rd (Reg.TX_CREDITS sel)).toNat = (s.dev.rd (Reg.TX_CREDITS sel)).toNat - frameCost x.f ∧
          t.dev.rd Reg.REPLAY_USED = w32 (replayUsed t.dev.drv.out) ∧
          Leaves (fun d e => { d with regs := e.regs, drv := e.drv }) (fun o => o = Reg.REPLAY_USED ∨ o = Reg.TX_CREDITS sel) s t))) ∧
    ((s.dev.rd (Reg.TX_CREDITS sel)).toNat < frameCost x.f ∨ 262144 < replayUsed s.dev.drv.out + frameSize x.f ∨ 32768 ≤ s.dev.drv.out.length →
      Gives (.droveFrameSend sel) s (fun t => t = s))) ∧
  (∀ (s : State) (sel : Fin 65) (x : TxFrame), drvState s.dev = 2 → s.dev.drv.resend = none → s.dev.drv.queue.find? (fun t => t.f.ty == 2) = some x →
    replayUsed s.dev.drv.out + frameSize x.f ≤ 262144 → s.dev.drv.out.length < 32768 →
    Gives (.droveFrameSend (sel.castLE (by decide))) s (fun t =>
      if sel = 64 then (∃ g, t.dev.drv.wire = some g ∧ g.ty = 2 ∧ g.seq = s.dev.drv.txSeq ∧ g.payload = x.f.payload) ∧
        t.dev.drv.txSeq = (s.dev.drv.txSeq + 1) % 65536 ∧ t.dev.drv.queue = s.dev.drv.queue.erase x ∧ SameMem s t ∧ t.pending = s.pending
      else t = s)) ∧
  (∀ s : State, drvState s.dev = 2 → s.dev.drv.resend = none → s.dev.drv.queue.find? (fun t => t.f.ty == 2) = none →
    (s.dev.drv.owed = [] → Gives (.droveFrameSend 64) s (fun t => t = s)) ∧
    (s.dev.drv.owed ≠ [] → replayUsed s.dev.drv.out + 280 ≤ 262144 → s.dev.drv.out.length < 32768 →
      Gives (.droveFrameSend 64) s (fun t => ∃ g, t.dev.drv.wire = some g ∧ g.ty = 2 ∧ g.seq = s.dev.drv.txSeq ∧
        g.payload = (s.dev.drv.owed.take 64).flatMap (fun e => natBytes 1 e.1 ++ [0] ++ natBytes 2 (min e.2 65535)) ∧
        t.dev.drv.txSeq = (s.dev.drv.txSeq + 1) % 65536 ∧ t.dev.drv.queue = s.dev.drv.queue ∧ SameMem s t ∧ t.pending = s.pending))) ∧
  (∀ (s : State) (sel : Fin 60) (base lg rd n : Nat), drvState s.dev = 2 → s.dev.drv.resend = none → s.dev.drv.queue = [] →
    base = ringBase s.dev (Reg.DTX_BASE_LO sel) (Reg.DTX_CFG sel) → lg = s.dev.fld (Reg.DTX_CFG sel) 20 16 → 12 ≤ lg → base % 256 = 0 →
    rd = (s.dev.rd (Reg.DTX_RD sel)).toNat → rd % 256 = 0 →
    n = (s.byteAt (base + rd % 2 ^ lg)).toNat + 256 * (s.byteAt (base + rd % 2 ^ lg + 1)).toNat →
    s.dev.bit (Reg.DTX_CFG sel) 29 = true → s.dev.drv.stopped.contains sel.val = false → s.dev.rd (Reg.DTX_WR sel) ≠ s.dev.rd (Reg.DTX_RD sel) →
    memUp s.dev base (2 ^ lg) = true → CleanWords s base (2 ^ lg) →
    (n = 0 ∨ 4096 < n → Gives (.droveFrameSend (sel.castLE (by decide))) s (fun t => t.dev.drv = { s.dev.drv with stopped := t.dev.drv.stopped } ∧
      sel.val ∈ t.dev.drv.stopped ∧ t.dev.bit Reg.DRV_FLAGS 6 = true ∧
      Leaves (fun d e => { d with regs := e.regs, drv := e.drv }) (· = Reg.DRV_FLAGS) s t)) ∧
    (1 ≤ n → n ≤ 4096 → (16 + n + 255) / 256 ≤ (s.dev.rd (Reg.TX_CREDITS sel)).toNat → replayUsed s.dev.drv.out + (20 + n + 7) / 8 * 8 ≤ 262144 →
      s.dev.drv.out.length < 32768 →
      Gives (.droveFrameSend (sel.castLE (by decide))) s (fun t => ∃ g, t.dev.drv.wire = some g ∧ g.ty = 1 ∧ g.stream = sel.val ∧
        g.seq = s.dev.drv.txSeq ∧ g.eom = (s.byteAt (base + rd % 2 ^ lg + 2)).getLsbD 0 ∧ g.payload.length = n ∧
        (∀ i < n, g.payload.getD i 0 = s.byteAt (base + (rd + 16 + i) % 2 ^ lg)) ∧
        t.dev.rd (Reg.DTX_RD sel) = s.dev.rd (Reg.DTX_RD sel) + w32 ((16 + n + 255) / 256 * 256) ∧
        t.dev.drv.txSeq = (s.dev.drv.txSeq + 1) % 65536 ∧ SameMem s t ∧ t.pending = s.pending)) ∧
    (1 ≤ n → n ≤ 4096 → (s.dev.rd (Reg.TX_CREDITS sel)).toNat < (16 + n + 255) / 256 →
      Gives (.droveFrameSend (sel.castLE (by decide))) s (fun t => t = s))) ∧
  (∀ (s : State) (x : TxFrame) (l : List TxFrame), drvState s.dev = 2 → s.dev.drv.out = x :: l → s.dev.drv.resend = none →
    Gives .droveReplayTimeout s (fun t => s.dev.drv.timer + 2000 ≤ t.dev.clk ∧ t.dev.drv.out = x :: l ∧
      (if s.dev.drv.fails < 8 then t.dev.drv.resend = some x.f.seq ∧ t.dev.drv.fails = s.dev.drv.fails + 1 ∧ t.dev.drv.timer = t.dev.clk ∧
        (t.dev.rd Reg.REPLAYS).toNat = min ((s.dev.rd Reg.REPLAYS).toNat + 1) 0xFFFFFFFF
      else drvState t.dev = 3 ∧ t.dev.bit Reg.DRV_FLAGS 2 = true ∧ t.dev.drv.start = t.dev.clk ∧
        (t.dev.rd Reg.RETRAINS).toNat = min ((s.dev.rd Reg.RETRAINS).toNat + 1) 0xFFFFFFFF) ∧
      Leaves (fun d e => { d with regs := e.regs, drv := e.drv, ht := e.ht, clk := e.clk })
        (fun o => if s.dev.drv.fails < 8 then o = Reg.REPLAYS else o = Reg.DRV_STATUS ∨ o = Reg.DRV_FLAGS ∨ o = Reg.RETRAINS) s t)) ∧
  (∀ (s : State) (x : TxFrame) (l : List TxFrame), drvState s.dev = 2 → s.dev.drv.out = x :: l → s.dev.drv.resend = some x.f.seq →
    Gives .droveReplayTimeout s (fun t => s.dev.drv.timer + 2000 ≤ t.dev.clk ∧
      Leaves (fun d e => { d with ht := e.ht, clk := e.clk }) (fun _ => False) s t)) ∧
  (∀ s : State, drvState s.dev ≠ 2 ∨ s.dev.drv.out = [] → Gives .droveReplayTimeout s (fun t => t = s)) ∧
  (∀ (s : State) (n : Fin 60) (v : Word),
    Gives (.droveRxRdWrite n v) s (fun t => t.dev.resp = .ok 0 ∧
      (if v.toNat % 256 = 0 ∧ (s.dev.rd (Reg.DRX_WR n) - v).toNat ≤ 2 ^ s.dev.fld (Reg.DRX_CFG n) 20 16 then t.dev.rd (Reg.DRX_RD n) = v ∧
        ((v - s.dev.rd (Reg.DRX_RD n)).toNat ≤ (s.dev.rd (Reg.DRX_WR n) - s.dev.rd (Reg.DRX_RD n)).toNat →
          Store.get (fun _ => 0) t.dev.drv.owed n = Store.get (fun _ => 0) s.dev.drv.owed n + (v - s.dev.rd (Reg.DRX_RD n)).toNat / 256)
      else t.dev.bit Reg.DRV_FLAGS 7 = true ∧ t.dev.rd (Reg.DRX_RD n) = s.dev.rd (Reg.DRX_RD n)) ∧
      Leaves (fun d e => { d with regs := e.regs, drv := { d.drv with owed := e.drv.owed }, resp := e.resp })
        (fun o => o = Reg.DRX_RD n ∨ o = Reg.DRV_FLAGS) s t) ∧
    Gives (.droveTxWrWrite n v) s (fun t => t.dev.resp = .ok 0 ∧
      (if v.toNat % 256 = 0 ∧ (v - s.dev.rd (Reg.DTX_RD n)).toNat ≤ 2 ^ s.dev.fld (Reg.DTX_CFG n) 20 16 then t.dev.rd (Reg.DTX_WR n) = v
      else t.dev.bit Reg.DRV_FLAGS 7 = true ∧ t.dev.rd (Reg.DTX_WR n) = s.dev.rd (Reg.DTX_WR n)) ∧
      OnlyRegs (fun o => o = Reg.DTX_WR n ∨ o = Reg.DRV_FLAGS) s t))

/-- R487, R491, R505 to R510, R513, R318: training starts, ends in a new or a continued session once eight lanes are aligned, or times out;
RETRAIN and RESET_SESSION, by a keeper; a failed lane's logical lane moves to the spare at a marker, without a spare the session ends, and
the lane's test decides; a read of the peer or a request to customer logic times out. In every other state each of these leaves the link
as it is.
Clauses that rest on a choice or reading of the model: log entries 78, 106, 107, 112. -/
def Obligations.SessionsAndLanesFollowTheirRules : Prop :=
  (∀ s : State, Gives .droveTrainingStart s (fun t =>
    if s.dev.bit Reg.DRV_CTRL 0 = true ∧ drvState s.dev = 0 ∧ s.dev.drv.dead = false ∧ s.dev.pwr ≠ 5 then
      drvState t.dev = 1 ∧ t.dev.drv = { s.dev.drv with start := s.dev.clk, ts := (List.range 9).map (fun l => ts1Block l 0) } ∧
      Leaves (fun d e => { d with regs := e.regs, drv := e.drv }) (· = Reg.DRV_STATUS) s t
    else t = s)) ∧
  (∀ (s : State) (role : Fin 3) (caps : Fin 32) (peer ses : Word) (n : Nat) (k : Bool) (marks : List RxMark), drvState s.dev = 1 ∨ drvState s.dev = 3 →
    rxAligned marks = true → (∀ v p, s.dev.drv.session = some (v, p) → ¬ (p = ses ∧ k = true ∧ (outPlace s.dev n ≠ none ∨ n = s.dev.drv.txSeq))) →
    (8 ≤ (goodLanes s.dev 0).length →
      Gives (.droveTrainingDone role caps peer n ses k marks) s (fun t => drvState t.dev = 2 ∧ t.dev.bit Reg.DRV_STATUS 2 = true ∧
        t.dev.fld Reg.DRV_STATUS 4 3 = role ∧ t.dev.fld Reg.DRV_STATUS 8 5 = caps.val % 16 ∧ t.dev.fld Reg.DRV_STATUS 9 9 = caps.val / 16 ∧
        t.dev.rd Reg.PEER_ID = peer ∧ t.dev.bit Reg.DRV_FLAGS 0 = true ∧ (s.dev.drv.session ≠ none → t.dev.bit Reg.DRV_FLAGS 1 = true) ∧
        (∃ v, t.dev.drv.session = some (v, ses) ∧ v ≠ 0 ∧ v ≠ s.dev.drv.lastSession ∧ t.dev.drv.lastSession = v) ∧ t.dev.drv.next = 0 ∧
        t.dev.drv.txSeq = 0 ∧ t.dev.drv.swap = [] ∧ (s.dev.drv.session ≠ none → t.dev.drv.out = []) ∧
        (∃ x, t.dev.drv.queue = [x] ∧ x.f.ty = 2 ∧ x.f.payload.length = 256) ∧
        (∀ j < 8, t.dev.fld Reg.LANE_MAP_TX (4 * j + 3) (4 * j) = (goodLanes s.dev 0).getD j 0) ∧
        spareLane t.dev 0 = (goodLanes s.dev 0).getD 8 15 ∧
        (∀ j < 8, ∃ m ∈ marks, markOk m = true ∧ markLog m = j ∧ t.dev.fld Reg.LANE_MAP_RX (4 * j + 3) (4 * j) = m.lane) ∧
        (spareLane t.dev 1 ≠ 15 → ∃ m ∈ marks, markOk m = true ∧ markLog m = 15 ∧ spareLane t.dev 1 = m.lane) ∧
        t.dev.rd Reg.DRV_GEN = s.dev.rd Reg.GLOBAL_GEN ∧ SameMem s t ∧ t.pending = s.pending)) ∧
    ((goodLanes s.dev 0).length < 8 → Gives (.droveTrainingDone role caps peer n ses k marks) s (fun t => t = s))) ∧
  (∀ (s : State) (role : Fin 3) (caps : Fin 32) (peer v p : Word) (n m : Nat) (marks : List RxMark), drvState s.dev = 1 ∨ drvState s.dev = 3 →
    rxAligned marks = true → s.dev.drv.session = some (v, p) → outPlace s.dev n = some m ∨ (outPlace s.dev n = none ∧ n = s.dev.drv.txSeq ∧ m = s.dev.drv.out.length) →
    Gives (.droveTrainingDone role caps peer n p true marks) s (fun t => drvState t.dev = 2 ∧ t.dev.bit Reg.DRV_STATUS 2 = false ∧
      t.dev.fld Reg.DRV_STATUS 4 3 = role ∧ t.dev.rd Reg.PEER_ID = peer ∧
      t.dev.drv.session = some (v, p) ∧ t.dev.drv.next = s.dev.drv.next ∧ t.dev.drv.txSeq = s.dev.drv.txSeq ∧ t.dev.drv.queue = s.dev.drv.queue ∧
      t.dev.drv.out = s.dev.drv.out.drop m ∧ t.dev.drv.resend = ((s.dev.drv.out.drop m).head?).map (fun x => x.f.seq) ∧
      t.dev.bit Reg.DRV_FLAGS 0 = true ∧
      (∀ j < 8, ∃ e ∈ marks, markOk e = true ∧ markLog e = j ∧ t.dev.fld Reg.LANE_MAP_RX (4 * j + 3) (4 * j) = e.lane) ∧
      (∀ c i, c ≠ 9 → i < 1024 → t.dev.unit c i = s.dev.unit c i) ∧
      Leaves (fun d e => { d with regs := e.regs, drv := e.drv, tasks := e.tasks, units := e.units })
        (fun o => o = Reg.DRV_STATUS ∨ o = Reg.PEER_ID ∨ o = Reg.DRV_FLAGS ∨ o = Reg.LANE_MAP_RX ∨ o = Reg.REPLAY_USED ∨ o = Reg.REPLAYS ∨
          o = Reg.ST_STATUS ∨ o = Reg.ST_FLAGS ∨ InConj o) s t)) ∧
  (∀ (s : State) (role : Fin 3) (caps : Fin 32) (peer ses : Word) (n : Nat) (k : Bool) (marks : List RxMark),
    (drvState s.dev ≠ 1 ∧ drvState s.dev ≠ 3) ∨ rxAligned marks = false →
    Gives (.droveTrainingDone role caps peer n ses k marks) s (fun t => t = s)) ∧
  (∀ s : State, drvState s.dev = 1 ∨ drvState s.dev = 3 →
    Gives .droveTrainingTimeout s (fun t => s.dev.drv.start + 10000000 ≤ t.dev.clk ∧ t.dev.drv.session = none ∧ t.dev.drv.out = [] ∧ t.dev.drv.queue = [] ∧
      drvState t.dev = (if s.dev.bit Reg.DRV_CTRL 0 = true ∧ s.dev.drv.dead = false ∧ s.dev.pwr ≠ 5 then 1 else 0) ∧
      (∀ k < 64, t.dev.rd (Reg.TX_CREDITS k) = 0) ∧ SameMem s t ∧ t.pending = s.pending)) ∧
  (∀ s : State, drvState s.dev ≠ 1 → drvState s.dev ≠ 3 → Gives .droveTrainingTimeout s (fun t => t = s)) ∧
  (∀ (s : State) (q : Req), s.dev.keeper q = false → Gives (.droveRetrain q) s (fun t => t = s.upd Dev.deny) ∧
    Gives (.droveResetSession q) s (fun t => t = s.upd Dev.deny)) ∧
  (∀ (s : State) (q : Req), s.dev.keeper q = true →
    (drvState s.dev ≠ 2 → Gives (.droveRetrain q) s (OnlyRegs (· = Reg.DRV_CTRL) s)) ∧
    (drvState s.dev < 2 → Gives (.droveResetSession q) s (OnlyRegs (· = Reg.DRV_CTRL) s))) ∧
  (∀ (s : State) (q : Req), s.dev.keeper q = true → drvState s.dev = 2 →
    Gives (.droveRetrain q) s (fun t => drvState t.dev = 3 ∧ t.dev.bit Reg.DRV_FLAGS 2 = true ∧
      (t.dev.rd Reg.RETRAINS).toNat = min ((s.dev.rd Reg.RETRAINS).toNat + 1) 0xFFFFFFFF ∧ t.dev.drv = { s.dev.drv with start := s.dev.clk, badRun := 0, ts := (List.range 9).map (fun l => ts1Block l 0) } ∧ t.dev.resp = .ok 0 ∧
      Leaves (fun d e => { d with regs := e.regs, drv := e.drv, resp := e.resp })
        (fun o => o = Reg.DRV_CTRL ∨ o = Reg.DRV_STATUS ∨ o = Reg.DRV_FLAGS ∨ o = Reg.RETRAINS) s t)) ∧
  (∀ (s : State) (q : Req), s.dev.keeper q = true → drvState s.dev = 2 ∨ drvState s.dev = 3 →
    Gives (.droveResetSession q) s (fun t => drvState t.dev = 0 ∧ t.dev.drv.session = none ∧ t.dev.drv.out = [] ∧ t.dev.drv.queue = [] ∧
      (s.dev.drv.session ≠ none → t.dev.bit Reg.DRV_FLAGS 1 = true) ∧ (∀ k < 64, t.dev.rd (Reg.TX_CREDITS k) = 0) ∧ t.dev.resp = .ok 0 ∧
      SameMem s t ∧ t.pending = s.pending)) ∧
  (∀ (s : State) (rx dog : Bool) (l : Fin 9) (dir det k : Nat), dir = (if rx then 1 else 0) → det = (if dog then 2 else 5) →
    laneCarries s.dev dir l = some k →
    (s.dev.unit 9 (16 * dir + l) = 0 → s.dev.drv.swap.any (fun e => e.1 == dir && e.2.1 % 16 == l.val) = false → spareLane s.dev dir ≠ 15 →
      Gives (.droveLaneFault rx l dog) s (fun t => t.dev.drv = { s.dev.drv with
          swap := s.dev.drv.swap ++ [(dir, l.val + 16 * det, s.dev.clk)]
          lsOut := if rx = true ∧ dog = false then some k else s.dev.drv.lsOut
          lsLeft := if rx = true ∧ dog = false then 4 else s.dev.drv.lsLeft } ∧
        Leaves (fun d e => { d with drv := e.drv }) (fun _ => False) s t)) ∧
    (s.dev.unit 9 (16 * dir + l) = 0 → s.dev.drv.swap.any (fun e => e.1 == dir && e.2.1 % 16 == l.val) = false → spareLane s.dev dir = 15 →
      Gives (.droveLaneFault rx l dog) s (fun t => drvState t.dev = 0 ∧ t.dev.drv.session = none ∧ t.dev.drv.dead = true ∧
        t.dev.bit Reg.DRV_FLAGS 9 = true ∧ (s.dev.drv.session ≠ none → t.dev.bit Reg.DRV_FLAGS 1 = true) ∧ t.dev.unit 9 (16 * dir + l) = 2 ∧
        t.dev.testing.contains (9, 16 * dir + l.val) = true ∧ SameMem s t ∧ t.pending = s.pending)) ∧
    (s.dev.unit 9 (16 * dir + l) ≠ 0 ∨ s.dev.drv.swap.any (fun e => e.1 == dir && e.2.1 % 16 == l.val) = true →
      Gives (.droveLaneFault rx l dog) s (fun t => t = s))) ∧
  (∀ (s : State) (rx dog : Bool) (l : Fin 9) (dir : Nat), dir = (if rx then 1 else 0) → laneCarries s.dev dir l = none →
    (spareLane s.dev dir = l → Gives (.droveLaneFault rx l dog) s (fun t => spareLane t.dev dir = 15 ∧ t.dev.unit 9 (16 * dir + l) = 2 ∧
      t.dev.testing.contains (9, 16 * dir + l.val) = true ∧ t.dev.drv = s.dev.drv ∧ SameMem s t ∧ t.pending = s.pending)) ∧
    (spareLane s.dev dir ≠ l → Gives (.droveLaneFault rx l dog) s (fun t => t = s))) ∧
  (∀ (s : State) (k : Fin 8) (l : Nat), s.dev.fld Reg.LANE_MAP_TX (4 * k + 3) (4 * k) = l →
    (drvState s.dev = 2 ∨ drvState s.dev = 3 → s.dev.unit 9 l = 0 → s.dev.drv.swap.any (fun e => e.1 == 0 && e.2.1 % 16 == l) = false → spareLane s.dev 0 ≠ 15 →
      Gives (.droveLsRx k) s (fun t => t.dev.drv = { s.dev.drv with swap := s.dev.drv.swap ++ [(0, l + 80, s.dev.clk)] } ∧
        Leaves (fun d e => { d with drv := e.drv }) (fun _ => False) s t)) ∧
    (drvState s.dev = 2 ∨ drvState s.dev = 3 → s.dev.unit 9 l = 0 → s.dev.drv.swap.any (fun e => e.1 == 0 && e.2.1 % 16 == l) = false → spareLane s.dev 0 = 15 →
      Gives (.droveLsRx k) s (fun t => drvState t.dev = 0 ∧ t.dev.drv.session = none ∧ t.dev.drv.dead = true ∧ t.dev.bit Reg.DRV_FLAGS 9 = true ∧
        t.dev.unit 9 l = 2 ∧ SameMem s t ∧ t.pending = s.pending)) ∧
    (drvState s.dev < 2 ∨ s.dev.unit 9 l ≠ 0 ∨ s.dev.drv.swap.any (fun e => e.1 == 0 && e.2.1 % 16 == l) = true →
      Gives (.droveLsRx k) s (fun t => t = s))) ∧
  (∀ (s : State) (m : RxMark) (k l sp c det : Nat), drvState s.dev = 2 ∨ drvState s.dev = 3 →
    s.dev.drv.swap.find? (fun e => e.1 == 0) = some (0, l + 16 * det, c) → l < 16 → laneCarries s.dev 0 l = some k → sp = spareLane s.dev 0 →
    sp ≠ 15 → sp ≠ l →
    Gives (.droveLaneSwap false m) s (fun t => c + 2000 ≤ t.dev.clk ∧ t.dev.drv.blocks % (8 * 16384) = 0 ∧ s.dev.drv.blocks < t.dev.drv.blocks ∧
      t.dev.fld Reg.LANE_MAP_TX (4 * k + 3) (4 * k) = sp ∧ spareLane t.dev 0 = 15 ∧ t.dev.unit 9 l = 2 ∧ t.dev.unit 9 sp = 0 ∧
      t.dev.testing.contains (9, l) = true ∧ t.dev.drv.swap = s.dev.drv.swap.filter (fun e => !(e.1 == 0 && e.2.1 % 16 == l)) ∧
      t.dev.bit Reg.DRV_FLAGS 8 = true ∧ (t.dev.rd Reg.LANE_SWAPS).toNat = min ((s.dev.rd Reg.LANE_SWAPS).toNat + 1) 0xFFFFFFFF ∧
      t.dev.drv.session = s.dev.drv.session ∧ t.dev.drv.out = s.dev.drv.out ∧ SameMem s t ∧ t.pending = s.pending)) ∧
  (∀ (s : State) (m : RxMark) (l c : Nat), drvState s.dev = 2 ∨ drvState s.dev = 3 → s.dev.drv.swap.find? (fun e => e.1 == 0) = some (0, l, c) →
    laneCarries s.dev 0 (l % 16) = none ∨ spareLane s.dev 0 = 15 →
    Gives (.droveLaneSwap false m) s (fun t => t.dev.drv.swap = s.dev.drv.swap ∧ t.dev.drv.session = s.dev.drv.session ∧
      Leaves (fun d e => { d with drv := e.drv, ht := e.ht, clk := e.clk }) (fun _ => False) s t)) ∧
  (∀ (s : State) (m : RxMark), s.dev.drv.swap.find? (fun e => e.1 == 0) = none ∨ drvState s.dev < 2 →
    Gives (.droveLaneSwap false m) s (fun t => t = s)) ∧
  (∀ (s : State) (m : RxMark) (l : Nat), l = s.dev.fld Reg.LANE_MAP_RX (4 * markLog m + 3) (4 * markLog m) →
    ((drvState s.dev = 2 ∨ drvState s.dev = 3) → markOk m = true → markLog m < 8 → l ≠ m.lane → laneCarries s.dev 1 m.lane = none →
      Gives (.droveLaneSwap true m) s (fun t => t.dev.fld Reg.LANE_MAP_RX (4 * markLog m + 3) (4 * markLog m) = m.lane ∧
        spareLane t.dev 1 = (if spareLane s.dev 1 = m.lane then 15 else spareLane s.dev 1) ∧ t.dev.unit 9 (16 + l) = 2 ∧ t.dev.unit 9 (16 + m.lane) = 0 ∧
        t.dev.testing.contains (9, 16 + l) = true ∧ t.dev.drv.swap = s.dev.drv.swap.filter (fun e => !(e.1 == 1 && e.2.1 % 16 == l)) ∧
        t.dev.drv.lsOut = none ∧
        t.dev.bit Reg.DRV_FLAGS 8 = true ∧ (t.dev.rd Reg.LANE_SWAPS).toNat = min ((s.dev.rd Reg.LANE_SWAPS).toNat + 1) 0xFFFFFFFF ∧
        SameMem s t ∧ t.pending = s.pending)) ∧
    (drvState s.dev < 2 ∨ markOk m = false ∨ 8 ≤ markLog m ∨ l = m.lane ∨ laneCarries s.dev 1 m.lane ≠ none →
      Gives (.droveLaneSwap true m) s (fun t => t = s))) ∧
  (∀ (s : State) (rx pass : Bool) (l : Fin 9) (dir : Nat), dir = (if rx then 1 else 0) →
    (s.dev.testing.contains (9, 16 * dir + l.val) = true →
      Gives (.droveLaneTestDone rx l true) s (fun t => t.dev.testing = s.dev.testing.erase (9, 16 * dir + l.val) ∧
        (if s.dev.unit 9 (16 * dir + l) = 2 then t.dev.unit 9 (16 * dir + l) = 1 ∧ t.dev.drv = { s.dev.drv with dead := false } ∧
          spareLane t.dev dir = (if spareLane s.dev dir = 15 then l.val else spareLane s.dev dir)
        else t.dev.drv = s.dev.drv ∧ t.dev.units = s.dev.units ∧ t.dev.regs = s.dev.regs) ∧ SameMem s t ∧ t.pending = s.pending) ∧
      Gives (.droveLaneTestDone rx l false) s (fun t => t.dev.unit 9 (16 * dir + l) = 3 ∧ t.dev.repairs.contains (9, 16 * dir + l.val) = true ∧
        spareLane t.dev dir = (if spareLane s.dev dir = l then 15 else spareLane s.dev dir) ∧ t.dev.drv = s.dev.drv ∧
        t.dev.testing = s.dev.testing.erase (9, 16 * dir + l.val) ∧ SameMem s t ∧ t.pending = s.pending)) ∧
    (s.dev.testing.contains (9, 16 * dir + l.val) = false → Gives (.droveLaneTestDone rx l pass) s (fun t => t = s))) ∧
  (∀ (s : State) (tag c : Nat) (r : PeerRead), s.dev.drv.reads.find? (fun r => r.tag == tag) = some r → r.who = .channel c →
    Gives (.peerReadTimeout tag) s (fun t => t.dev.drv.reads = s.dev.drv.reads.filter (fun x => x.tag != r.tag) ∧
      t.dev.drv.answers = s.dev.drv.answers ++ [{ who := .channel c, addr := r.addr, len := r.len, status := 3, data := [] }] ∧
      r.at_ + 20000 ≤ t.dev.clk ∧ Leaves (fun d e => { d with drv := e.drv, ht := e.ht, clk := e.clk }) (fun _ => False) s t)) ∧
  (∀ (s : State) (tag : Nat) (r : PeerRead), s.dev.drv.reads.find? (fun r => r.tag == tag) = some r → r.who = .jtag →
    Gives (.peerReadTimeout tag) s (fun t => t.dev.drv.reads = s.dev.drv.reads.filter (fun x => x.tag != r.tag) ∧
      t.dev.jtag = { s.dev.jtag with status := 1, data := 0 } ∧
      r.at_ + 20000 ≤ t.dev.clk ∧ Leaves (fun d e => { d with drv := e.drv, jtag := e.jtag, ht := e.ht, clk := e.clk }) (fun _ => False) s t)) ∧
  (∀ (s : State) (tag : Nat), s.dev.drv.reads.find? (fun r => r.tag == tag) = none → Gives (.peerReadTimeout tag) s (fun t => t = s)) ∧
  (∀ (s : State) (y : Fin 8) (r : PeerCop), s.dev.drv.cops.find? (fun r => r.y == y.val) = some r →
    (∀ w : CopWait, (s.dev.yk y).wait = some w → w.tag = r.tag →
      Gives (.copTimeout y) s (fun t => (t.dev.yk y).wait = none ∧ r.at_ + 20000 ≤ t.dev.clk ∧
        t.dev.drv.cops = s.dev.drv.cops.filter (fun c => c.tag != r.tag) ∧
        (if (s.dev.yk y).ctx.exl = false then
          (t.dev.yk y).ctx.ecause = 8 ∧ (t.dev.yk y).ctx.einfo = w32 r.c ∧
          (t.dev.yk y).ctx.epc = (s.dev.yk y).ctx.pc ∧ (t.dev.yk y).ctx.pc = (s.dev.yk y).ctx.vbase ∧ (t.dev.yk y).ctx.exl = true
        else (t.dev.yk y).ctx.dtpc = (s.dev.yk y).ctx.pc ∧ (t.dev.yk y).ctx.pc = (s.dev.yk y).ctx.vbase + 0x40 ∧
          t.dev.bit (Reg.Y_STATUS y) 4 = true) ∧
        (t.dev.yk y).ctx.g = (s.dev.yk y).ctx.g ∧
        (t.dev.rd (Reg.Y_TRAPS y)).toNat = min ((s.dev.rd (Reg.Y_TRAPS y)).toNat + 1) 0xFFFFFFFF ∧
        (t.dev.rd (Reg.Y_COP_TIMEOUTS y)).toNat = min ((s.dev.rd (Reg.Y_COP_TIMEOUTS y)).toNat + 1) 0xFFFFFFFF ∧ SameMem s t ∧ t.pending = s.pending)) ∧
    ((∀ w : CopWait, (s.dev.yk y).wait = some w → w.tag ≠ r.tag) →
      Gives (.copTimeout y) s (fun t => r.at_ + 20000 ≤ t.dev.clk ∧ t.dev.drv = { s.dev.drv with cops := s.dev.drv.cops.filter (fun c => c.tag != r.tag) } ∧
        (t.dev.rd (Reg.Y_COP_TIMEOUTS y)).toNat = min ((s.dev.rd (Reg.Y_COP_TIMEOUTS y)).toNat + 1) 0xFFFFFFFF ∧
        (∀ z, (t.dev.yk z).ctx = (s.dev.yk z).ctx ∧ (t.dev.yk z).wait = (s.dev.yk z).wait) ∧
        Leaves (fun d e => { d with regs := e.regs, drv := e.drv, yokes := e.yokes, ht := e.ht, clk := e.clk }) (· = Reg.Y_COP_TIMEOUTS y) s t))) ∧
  (∀ (s : State) (y : Fin 8), s.dev.drv.cops.find? (fun r => r.y == y.val) = none → Gives (.copTimeout y) s (fun t => t = s))
/-! ### Audio (chapter 18) -/

/-- R422, R428, R434, R435, R447, R448: voice commands, TRIG tasks and scene fires wait for a block; a scene's entries load whole; a Tandem job
starts when none runs, and its end is counted; a meter's read restarts its PEAK; a missed sample is counted once. A task that has not
arrived, a second load, a second job and an end that is not due change nothing else.
Clauses that rest on a choice or reading of the model: log entries 98, 99, 101. -/
def Obligations.AudioRequestsWaitForTheirBlock : Prop :=
  (∀ (s : State) (v : Fin 512) (i : Instr) (c : Nat), (i = .voiceStart v ∧ c = 1) ∨ (i = .voiceKeyOff v ∧ c = 2) ∨ (i = .voiceStop v ∧ c = 3) →
    Gives i s (fun t => t.dev.au = { s.dev.au with staged := if v.val < voiceCount s.dev then s.dev.au.staged ++ [.voice v c] else s.dev.au.staged } ∧
      t.dev.resp = .ok 0 ∧ Leaves (fun d e => { d with au := e.au, resp := e.resp }) (fun _ => False) s t)) ∧
  (∀ (s : State) (k : Fin 8) (a : Arrival) (l : List Arrival), s.dev.tasksAt (0x2A0 + k) = a :: l →
    Gives (.voiceTrig k) s (fun t => t.dev.au = { s.dev.au with staged := s.dev.au.staged ++ [.trig k] } ∧
      t.dev.tasks = (s.dev.setTasks (0x2A0 + k) l).tasks ∧ Leaves (fun d e => { d with au := e.au, tasks := e.tasks }) (fun _ => False) s t)) ∧
  (∀ (s : State) (a : Arrival) (l : List Arrival), s.dev.tasksAt 0x2A9 = a :: l →
    Gives .xscene s (fun t => t.dev.au = { s.dev.au with
        staged := s.dev.au.staged ++ [.scene (Store.get (fun _ => []) s.dev.au.scenes (s.dev.fld Reg.XS_TASK_SEL 3 0)) (some a)] } ∧
      t.dev.tasks = (s.dev.setTasks 0x2A9 l).tasks ∧ Leaves (fun d e => { d with au := e.au, tasks := e.tasks }) (fun _ => False) s t)) ∧
  (∀ (s : State) (sc : Fin 16), Gives (.xsFire sc) s (fun t =>
      t.dev.au = { s.dev.au with staged := s.dev.au.staged ++ [.scene (Store.get (fun _ => []) s.dev.au.scenes sc) none] } ∧ t.dev.resp = .ok 0 ∧
      Leaves (fun d e => { d with au := e.au, resp := e.resp }) (fun _ => False) s t) ∧
    (s.dev.bit Reg.XS_STATE 16 = false → Gives (.xsLoad sc) s (fun t => t.dev.bit Reg.XS_STATE 16 = true ∧
      t.dev.au = { s.dev.au with load := some (sc.val, (s.dev.rd Reg.XS_LOAD_LO).toNat + s.dev.fld Reg.XS_LOAD_HI 15 0 * 2 ^ 32,
        s.dev.fld Reg.XS_LOAD_HI 26 16) } ∧ t.dev.resp = .ok 0 ∧
      Leaves (fun d e => { d with regs := e.regs, au := e.au, resp := e.resp }) (· = Reg.XS_STATE) s t))) ∧
  (∀ (s : State) (k : Fin 8) (sc : Fin 16) (v : Word), (s.dev.tasksAt (0x2A0 + k) = [] → Gives (.voiceTrig k) s (fun t => t = s)) ∧
    (s.dev.tasksAt 0x2A9 = [] → Gives .xscene s (fun t => t = s)) ∧
    (s.dev.tasksAt 0x2A8 = [] ∨ s.dev.au.job ≠ none → Gives .tandemRun s (fun t => t = s)) ∧
    (s.dev.bit Reg.XS_STATE 16 = true → Gives (.xsLoad sc) s (fun t => t = s.upd Dev.okay)) ∧
    (bitOf v 31 = false ∨ bitOf v 0 = false → Gives (.tdRunJob v) s (fun t => t = s.upd Dev.okay)) ∧
    (bitOf v 31 = true → bitOf v 0 = true → s.dev.au.job ≠ none →
      Gives (.tdRunJob v) s (fun t => t = s.upd (fun d => (d.setBit Reg.AU_FLAGS 11).okay))) ∧
    (s.dev.au.load = none → Gives .xsLoadDone s (fun t => t = s)) ∧
    ((∀ j, s.dev.au.job = some j → j.ended = false) → Gives .tandemJobDone s (fun t => t = s))) ∧
  (∀ (s : State) (sc a n : Nat), s.dev.au.load = some (sc, a, n) → memOk s.dev a (4 * n) = false →
    Gives .xsLoadDone s (fun t => t.dev.bit Reg.XS_STATE 16 = false ∧ t.dev.au = { s.dev.au with load := none } ∧ t.dev.bit Reg.AU_FLAGS 5 = true ∧
      Leaves (fun d e => { d with regs := e.regs, au := e.au }) (fun o => o = Reg.XS_STATE ∨ o = Reg.AU_FLAGS ∨ o = Reg.MEM_FLAGS) s t)) ∧
  (∀ (s : State) (sc a n : Nat), s.dev.au.load = some (sc, a, n) → sc < 16 → memOk s.dev a (4 * n) = true → CleanWords s a (4 * n) →
    Gives .xsLoadDone s (fun t => t.dev.bit Reg.XS_STATE 16 = false ∧ t.dev.bit Reg.XS_STATE sc = true ∧ t.dev.au.load = none ∧
      Store.get (fun _ => []) t.dev.au.scenes sc = listWords (Store.getList (fun _ => 0) s.mem.bytes a (4 * n)) ∧
      (∀ k, k ≠ sc → Store.get (fun _ => []) t.dev.au.scenes k = Store.get (fun _ => []) s.dev.au.scenes k) ∧
      Leaves (fun d e => { d with regs := e.regs, au := { d.au with load := e.au.load, scenes := e.au.scenes } }) (· = Reg.XS_STATE) s t)) ∧
  (∀ (s : State) (v : Word) (i : Instr) (c : Option Arrival) (d : Dev), s.dev.au.job = none →
    (i = .tdRunJob v ∧ bitOf v 31 = true ∧ bitOf v 0 = true ∧ c = none ∧ d = s.dev) ∨
      (∃ a l, i = .tandemRun ∧ s.dev.tasksAt 0x2A8 = a :: l ∧ c = some a ∧ d = s.dev.setTasks 0x2A8 l) →
    Gives i s (fun t => (∃ j, t.dev.au = { s.dev.au with job := some j, tdq := s.dev.au.tdq ++ [none] } ∧ j.i = 0 ∧ j.ended = false ∧ j.cause = c ∧
        j.n = (s.dev.rd Reg.TD_JOB_N).toNat ∧ j.inAt = s.dev.rd64 Reg.TD_JOB_IN_LO Reg.TD_JOB_IN_HI ∧
        j.outAt = s.dev.rd64 Reg.TD_JOB_OUT_LO Reg.TD_JOB_OUT_HI) ∧ t.dev.tasks = d.tasks ∧
      Leaves (fun d e => { d with au := e.au, tasks := e.tasks, resp := e.resp }) (fun _ => False) s t)) ∧
  (∀ (s : State) (j : TdJob), s.dev.au.job = some j → j.ended = true →
    Gives .tandemJobDone s (fun t => t.dev.au = { s.dev.au with job := none } ∧
      (t.dev.rd Reg.TD_JOBS).toNat = min ((s.dev.rd Reg.TD_JOBS).toNat + 1) 0xFFFFFFFF ∧ t.dev.bit Reg.AU_FLAGS 10 = true ∧
      Leaves (fun d e => { d with regs := e.regs, au := e.au, tasks := e.tasks }) (fun o => o = Reg.TD_JOBS ∨ o = Reg.AU_FLAGS ∨ InConj o) s t)) ∧
  (∀ (s : State) (m : Fin 256), Gives (.meterRead m) s (fun t => t.dev.resp = .ok (meterWord s.dev m) ∧
    t.dev.meter m = { s.dev.meter m with peak := 0 } ∧ (∀ k, k ≠ m.val → t.dev.meter k = s.dev.meter k) ∧
    Leaves (fun d e => { d with au := { d.au with meters := e.au.meters }, resp := e.resp }) (fun _ => False) s t)) ∧
  (∀ (s : State) (v : Fin 512), (s.dev.voice v).stage ≠ 0 → s.dev.au.missed.contains v.val = false →
    Gives (.voiceDeadlineMiss v) s (fun t => t.dev.au = { s.dev.au with missed := insNat v s.dev.au.missed } ∧ t.dev.bit Reg.AU_FLAGS 2 = true ∧
      (t.dev.rd Reg.V_MISS).toNat = min ((s.dev.rd Reg.V_MISS).toNat + 1) 0xFFFFFFFF ∧
      Leaves (fun d e => { d with regs := e.regs, au := e.au }) (fun o => o = Reg.V_MISS ∨ o = Reg.AU_FLAGS) s t)) ∧
  (∀ (s : State) (v : Fin 512), (s.dev.voice v).stage = 0 ∨ s.dev.au.missed.contains v.val = true → Gives (.voiceDeadlineMiss v) s (fun t => t = s))

/-- R22, R423, R431, R438, R442, R445 to R447, R557: a sample instant brings time to it; audio starts and ends at a block boundary, and without
gains it gives silence; a slave port assigns its frame to a sample, and drops or repeats one when FSYNC has drifted by half a sample
period; a failed slice stops until the spare serves it, or is retired at once when there is none; a Tandem vector's results are stored for
every lent row, or reach the yoke that asked.
Clauses that rest on a choice or reading of the model: log entries 10, 11, 102, 103, 104, 129. -/
def Obligations.AudioSamplesPortsAndSlicesPerform : Prop :=
  (∀ (s : State) (tdm : List (List Word)) (pdm : List Word) (sh : Option (Bool × Bool)) (k : Nat) (up : Bool), k = nextSample s.dev →
    up = (s.dev.bit Reg.IMAGE_STATUS 0 && s.dev.pwr == 0) →
    (k % 32 ≠ 0 ∨ up = false → s.dev.au.runs = false → Gives (.audioSample tdm pdm sh) s (fun t => t.dev.au = { s.dev.au with last := some k } ∧
      (s.dev.now ≤ sampleAt (auFast s.dev) k → sampleAt (auFast s.dev) k < 2 ^ 64 → t.dev.now = sampleAt (auFast s.dev) k) ∧
      Leaves (fun d e => { d with au := e.au, ht := e.ht, clk := e.clk }) (fun _ => False) s t)) ∧
    (k % 32 = 0 → up = true → Gives (.audioSample tdm pdm sh) s (fun t => t.dev.au.runs = true ∧ t.dev.au.last = some k ∧ t.dev.au.staged = [] ∧
      t.mem.flash = s.mem.flash ∧ t.pending = s.pending)) ∧
    (k % 32 = 0 → up = false → s.dev.au.runs = true → Gives (.audioSample tdm pdm sh) s (fun t => t.dev.au.runs = false ∧ t.dev.au.last = some k ∧
      (∀ o, outAt t.dev o = 0) ∧ SameMem s t ∧ t.pending = s.pending)) ∧
    (k % 32 ≠ 0 → s.dev.au.runs = true → s.dev.au.now = [] → s.dev.au.nodes = [] → (∀ r < 64, s.dev.bit (Reg.STREAM_CFG (16 + r)) 31 = false) →
      Gives (.audioSample tdm pdm sh) s (fun t => t.dev.au.last = some k ∧ t.dev.au.runs = true ∧ (∀ o, outAt t.dev o = 0) ∧ SameBytes s t))) ∧
  (∀ (s : State) (p : Fin 8) (slots : List Word) (wait now : Nat) (x : TdmSt) (half off drift : Int), s.dev.fld (Reg.TDM_CFG p) 1 0 = 1 →
    pinFeeds s.dev (tdmPin s.dev p 0) = true → pinFeeds s.dev (tdmPin s.dev p 1) = true →
    x = Store.get (fun _ => {}) s.dev.au.tdm p → now = (s.dev.now + wait) % 2 ^ 64 → half = (if auFast s.dev then 31250 else 62500) →
    off = (now : Int) - sampleAt (auFast s.dev) x.next → drift = off - x.offset →
    (x.locked = false → Gives (.tdmSlaveFrame p slots wait) s (fun t => t.dev.bit (Reg.TDM_STATUS p) 0 = true ∧
      (∃ k, (Store.get (fun _ => {}) t.dev.au.tdm p : TdmSt) =
        { locked := true, next := k + 1, offset := (now : Int) - sampleAt (auFast s.dev) k, frames := [(k, slots)] }) ∧
      (∀ j, j ≠ p.val → (Store.get (fun _ => {}) t.dev.au.tdm j : TdmSt) = Store.get (fun _ => {}) s.dev.au.tdm j) ∧
      Leaves (fun d e => { d with regs := e.regs, au := { d.au with tdm := e.au.tdm }, ht := e.ht, clk := e.clk }) (· = Reg.TDM_STATUS p) s t)) ∧
    (x.locked = true → -half ≤ drift * 6 → drift * 6 ≤ half →
      Gives (.tdmSlaveFrame p slots wait) s (fun t =>
        (Store.get (fun _ => {}) t.dev.au.tdm p : TdmSt) = { x with next := x.next + 1, frames := x.frames ++ [(x.next, slots)] } ∧
        Leaves (fun d e => { d with au := { d.au with tdm := e.au.tdm }, ht := e.ht, clk := e.clk }) (fun _ => False) s t)) ∧
    (x.locked = true → half < drift * 6 ∨ drift * 6 < -half →
      Gives (.tdmSlaveFrame p slots wait) s (fun t => t.dev.bit (Reg.TDM_STATUS p) 1 = true ∧ t.dev.bit Reg.AU_FLAGS 6 = true ∧
        (if half < drift * 6 then (Store.get (fun _ => {}) t.dev.au.tdm p : TdmSt).next = x.next + 2 ∧
            (∃ l, (Store.get (fun _ => {}) t.dev.au.tdm p : TdmSt).frames = x.frames ++ [(x.next, l), (x.next + 1, slots)] ∧
              ∀ e, x.frames.getLast? = some e → l = e.2)
        else (Store.get (fun _ => {}) t.dev.au.tdm p : TdmSt).next = x.next ∧ (Store.get (fun _ => {}) t.dev.au.tdm p : TdmSt).frames = x.frames) ∧
        Leaves (fun d e => { d with regs := e.regs, au := { d.au with tdm := e.au.tdm }, ht := e.ht, clk := e.clk, tasks := e.tasks })
          (fun o => o = Reg.TDM_STATUS p ∨ o = Reg.AU_FLAGS ∨ InConj o) s t))) ∧
  (∀ (s : State) (p : Fin 8) (slots : List Word) (wait : Nat),
    s.dev.fld (Reg.TDM_CFG p) 1 0 ≠ 1 ∨ pinFeeds s.dev (tdmPin s.dev p 0) = false ∨ pinFeeds s.dev (tdmPin s.dev p 1) = false →
    Gives (.tdmSlaveFrame p slots wait) s (fun t => t = s.upd (fun d => d.pass wait))) ∧
  (∀ (s : State) (xp code : Bool) (l : Fin 16) (cls key p : Nat), cls = (if xp then 4 else 3) → key = 32 * cls + l.val → (xp = true ∨ l.val < 8) →
    p = sliceOf s.dev cls l → p < 1024 → s.dev.unit cls p ≠ 1 →
    (s.dev.au.down.contains key = false → sparesOf s.dev cls ≠ [] →
      Gives (.audioSliceFault xp l code) s (fun t => t.dev.au = { s.dev.au with
          down := insNat key s.dev.au.down, faults := s.dev.au.faults ++ [(key, if code then 1 else 2, s.dev.now)] } ∧
        Leaves (fun d e => { d with au := e.au }) (fun _ => False) s t)) ∧
    (s.dev.au.down.contains key = false → sparesOf s.dev cls = [] →
      Gives (.audioSliceFault xp l code) s (fun t => t.dev.au.down = insNat key s.dev.au.down ∧ t.dev.unit cls p = 2 ∧
        t.dev.testing.contains (cls, p) = true ∧ SameMem s t ∧ t.pending = s.pending)) ∧
    (∀ i is det ht, s.dev.au.down.contains key = true → sparesOf s.dev cls = i :: is →
      s.dev.au.faults.find? (fun e => e.1 == key) = some (key, det, ht) →
      Gives (.audioSliceTakeover xp l) s (fun t => t.dev.au = { s.dev.au with
          down := s.dev.au.down.erase key, slices := t.dev.au.slices, faults := s.dev.au.faults.filter (fun e => e.1 != key) } ∧
        sliceOf t.dev cls l = i ∧ t.dev.unit cls i = 0 ∧ t.dev.unit cls p = 2 ∧ t.dev.testing.contains (cls, p) = true ∧
        t.dev.bit Reg.AU_FLAGS 12 = true ∧ t.dev.rd Reg.AU_GEN = s.dev.rd Reg.GLOBAL_GEN ∧ SameMem s t ∧ t.pending = s.pending)) ∧
    (s.dev.au.down.contains key = true → Gives (.audioSliceFault xp l code) s (fun t => t = s)) ∧
    (s.dev.au.down.contains key = false → Gives (.audioSliceTakeover xp l) s (fun t => t = s))) ∧
  (∀ (s : State) (code : Bool) (l : Fin 16), 8 ≤ l.val → Gives (.audioSliceFault false l code) s (fun t => t = s)) ∧
  (∀ (s : State) (j : TdJob) (l : List (Option Nat)) (v : List Word) (rows : List Nat) (a : Nat), s.dev.au.tdq = none :: l → s.dev.au.job = some j →
    rows = lentRows s.dev → (∀ o ∈ rows, s.dev.au.down.contains (128 + o / 8) = false) → memOk s.dev (j.inAt + 256 * j.i) 256 = true →
    CleanWords s (j.inAt + 256 * j.i) 256 → v = listWords (Store.getList (fun _ => 0) s.mem.bytes (j.inAt + 256 * j.i) 256) →
    a = j.outAt + 4 * rows.length * j.i → memOk s.dev a (4 * rows.length) = true →
    Gives .tandemVectorDone s (fun t =>
      (∀ r < rows.length, ∀ b < 4, t.byteAt (a + 4 * r + b) =
        (wordBytes (iw (tdY (s.dev.fld Reg.TD_SHIFT 4 0) (tdAcc s.dev v (rows.getD r 0))))).getD b 0) ∧
      (if j.i + 1 = j.n then t.dev.au = { s.dev.au with job := some { j with ended := true }, tdq := l }
      else t.dev.au = { s.dev.au with job := some { j with i := j.i + 1 }, tdq := l ++ [none] }) ∧
      Stores (fun d e => { d with regs := e.regs, au := e.au, cks := e.cks }) (· = Reg.ERR_INJECT_HI) a (4 * rows.length) s t)) ∧
  (∀ (s : State) (j : TdJob) (l : List (Option Nat)), s.dev.au.tdq = none :: l → s.dev.au.job = some j →
    (∀ o ∈ lentRows s.dev, s.dev.au.down.contains (128 + o / 8) = false) → memOk s.dev (j.inAt + 256 * j.i) 256 = false →
    Gives .tandemVectorDone s (fun t => t.dev.au = { s.dev.au with job := some { j with ended := true }, tdq := l } ∧ t.dev.bit Reg.AU_FLAGS 11 = true ∧
      Leaves (fun d e => { d with regs := e.regs, au := e.au }) (fun o => o = Reg.AU_FLAGS ∨ o = Reg.MEM_FLAGS) s t)) ∧
  (∀ (s : State) (y rd : Nat) (l : List (Option Nat)) (x : List Word), s.dev.au.tdq = some y :: l →
    (∀ o ∈ lentRows s.dev, s.dev.au.down.contains (128 + o / 8) = false) → x = (List.range 64).map (fun k => s.dev.rd (Reg.TD_IN k)) →
    (s.dev.yk y).tdWait = some rd →
    Gives .tandemVectorDone s (fun t => t.dev.au.tdq = l ∧
      (∀ o ∈ lentRows s.dev, t.dev.rd (Reg.TD_OUT o) = iw (tdY (s.dev.fld Reg.TD_SHIFT 4 0) (tdAcc s.dev x o)) ∧
        Store.get (fun _ => 0) t.dev.au.acc o = tdAcc s.dev x o) ∧
      (t.dev.yk y).tdWait = none ∧ (t.dev.yk y).ctx = { ((s.dev.yk y).ctx.setR rd (w32 (lentRows s.dev).length)).setFlag 2 false with
        pc := (s.dev.yk y).ctx.pc + 4 } ∧ SameMem s t ∧ t.pending = s.pending)) ∧
  (∀ s : State, (∃ o ∈ lentRows s.dev, s.dev.au.down.contains (128 + o / 8) = true) ∨ s.dev.au.tdq = [] →
    Gives .tandemVectorDone s (fun t => t = s))
/-! ### General-purpose pins (chapter 23) -/

/-- R536, R541, R544 to R549, R562: an accepted edge, which wakes the device from deep standby on a wake pin; writes and tasks of a latch, a
write of PIN_CFG with its hold and the end of its gap, the three steps of a lock, and a change of a bank's rail. A refused write changes
its flag alone, one without Keeper privilege is denied, and an edge of a bank that detects none changes nothing.
Clauses that rest on a choice or reading of the model: log entry 111. -/
def Obligations.PinsFollowTheirRegisters : Prop :=
  (∀ (s : State) (q : Fin 128) (b : Nat) (up : Bool), b = q.val / 32 → railUp s.dev b = true → up = !pinBit s.dev Reg.GPIO_IN q →
    (s.dev.inDeep = false ∨ (b = 0 ∧ (s.dev.bit (Reg.PIN_CFG q) 13 = false ∨ pinBit s.dev (if up then Reg.GPIO_RISE_EN else Reg.GPIO_FALL_EN) q = false)) →
      Gives (.gpioEdge q) s (fun t => pinBit t.dev Reg.GPIO_IN q = up ∧
      t.dev.rd (Reg.GPIO_RISE b) = (if up then s.dev.rd (Reg.GPIO_RISE b) ||| w32 (2 ^ (q.val % 32)) else s.dev.rd (Reg.GPIO_RISE b)) ∧
      t.dev.rd (Reg.GPIO_FALL b) = (if up then s.dev.rd (Reg.GPIO_FALL b) else s.dev.rd (Reg.GPIO_FALL b) ||| w32 (2 ^ (q.val % 32))) ∧
      (∀ i < 32, i ≠ q.val % 32 → t.dev.bit (Reg.GPIO_IN b) i = s.dev.bit (Reg.GPIO_IN b) i) ∧
      RegsAndEvents (fun o => o = Reg.GPIO_IN b ∨ o = Reg.GPIO_RISE b ∨ o = Reg.GPIO_FALL b) s t)) ∧
    (s.dev.inDeep = true → b = 0 → s.dev.bit (Reg.PIN_CFG q) 13 = true → pinBit s.dev (if up then Reg.GPIO_RISE_EN else Reg.GPIO_FALL_EN) q = true →
      Gives (.gpioEdge q) s (fun t => t.dev.pwr = 6 ∧ t.dev.bit Reg.PWR_STATUS 9 = true ∧ t.dev.bit Reg.GPIO_FLAGS 3 = true ∧
        t.dev.rd Reg.WAKE_PIN = w32 q ∧ pinBit t.dev Reg.GPIO_IN q = up ∧ t.dev.pw = { s.dev.pw with since := s.dev.clk } ∧
        Leaves (fun d e => { d with regs := e.regs, tasks := e.tasks, pw := e.pw }) (fun o => o = Reg.GPIO_IN b ∨ o = Reg.GPIO_RISE b ∨
          o = Reg.GPIO_FALL b ∨ o = Reg.PWR_STATUS ∨ o = Reg.GPIO_FLAGS ∨ o = Reg.WAKE_PIN ∨ InConj o) s t))) ∧
  (∀ (s : State) (q : Fin 128), railUp s.dev (q.val / 32) = false ∨ (s.dev.inDeep = true ∧ 32 ≤ q.val) → Gives (.gpioEdge q) s (fun t => t = s)) ∧
  (∀ (s : State) (b : Fin 4) (v : Word),
    Gives (.gpioOutWrite b v) s (fun t => t.dev.rd (Reg.GPIO_OUT b) = v ∧ t.dev.resp = .ok 0 ∧ OnlyRegs (· = Reg.GPIO_OUT b) s t) ∧
    Gives (.gpioOutMwLo b v) s (fun t => (∀ i < 32, t.dev.bit (Reg.GPIO_OUT b) i =
      if i < 16 ∧ bitOf v (16 + i) = true then bitOf v i else s.dev.bit (Reg.GPIO_OUT b) i) ∧ t.dev.resp = .ok 0 ∧ OnlyRegs (· = Reg.GPIO_OUT b) s t) ∧
    Gives (.gpioOutMwHi b v) s (fun t => (∀ i < 32, t.dev.bit (Reg.GPIO_OUT b) i =
      if 16 ≤ i ∧ bitOf v i = true then bitOf v (i - 16) else s.dev.bit (Reg.GPIO_OUT b) i) ∧ t.dev.resp = .ok 0 ∧ OnlyRegs (· = Reg.GPIO_OUT b) s t)) ∧
  (∀ (s : State) (q : Fin 128) (k : Nat) (i : Instr) (new : Bool) (a : Arrival) (l : List Arrival),
    (i = .gpioSet q ∧ k = 0 ∧ new = true) ∨ (i = .gpioClear q ∧ k = 1 ∧ new = false) ∨
      (i = .gpioToggle q ∧ k = 2 ∧ new = !pinBit s.dev Reg.GPIO_OUT q) → s.dev.tasksAt (0x400 + 4 * q + k) = a :: l →
    Gives i s (fun t => pinBit t.dev Reg.GPIO_OUT q = new ∧
      (∀ j < 32, j ≠ q.val % 32 → t.dev.bit (Reg.GPIO_OUT (q.val / 32)) j = s.dev.bit (Reg.GPIO_OUT (q.val / 32)) j) ∧
      t.dev.tasks = (s.dev.setTasks (0x400 + 4 * q + k) l).tasks ∧
      Leaves (fun d e => { d with regs := e.regs, tasks := e.tasks, gpio := { d.gpio with tasks := e.gpio.tasks } }) (· = Reg.GPIO_OUT (q.val / 32)) s t)) ∧
  (∀ (s : State) (q : Fin 128), (s.dev.tasksAt (0x400 + 4 * q.val) = [] → Gives (.gpioSet q) s (fun t => t = s)) ∧
    (s.dev.tasksAt (0x401 + 4 * q.val) = [] → Gives (.gpioClear q) s (fun t => t = s)) ∧
    (s.dev.tasksAt (0x402 + 4 * q.val) = [] → Gives (.gpioToggle q) s (fun t => t = s))) ∧
  (∀ (s : State) (r : Req) (q : Fin 128) (b : Fin 4) (v : Word), s.dev.keeper r = false →
    Gives (.pinCfgWrite r q v) s (fun t => t = s.upd Dev.deny) ∧ Gives (.gpioLockKey r b v) s (fun t => t = s.upd Dev.deny) ∧
    Gives (.gpioLockMask r b v) s (fun t => t = s.upd Dev.deny)) ∧
  (∀ (s : State) (r : Req) (q : Fin 128) (v : Word), s.dev.keeper r = true →
    Gives (.pinCfgWrite r q v) s (fun t => t.dev.resp = .ok 0 ∧
      (if pinBit s.dev Reg.GPIO_LOCKED q = true then t.dev.rd Reg.GPIO_FLAGS = s.dev.rd Reg.GPIO_FLAGS ||| 1 ∧ OnlyRegs (· = Reg.GPIO_FLAGS) s t
      else if pinCfgRefuses q v = true then t.dev.rd Reg.GPIO_FLAGS = s.dev.rd Reg.GPIO_FLAGS ||| 4 ∧ OnlyRegs (· = Reg.GPIO_FLAGS) s t
      else t.dev.rd (Reg.PIN_CFG q) = v &&& 0x3FFF ∧
        (fld v 2 0 ≠ pinFunc s.dev q →
          Store.get (fun _ => none) t.dev.gpio.holds q = some { til := s.dev.clk + 16, level := pinLevel s.dev q }) ∧
        (fld v 2 0 = pinFunc s.dev q → t.dev.gpio = s.dev.gpio) ∧
        (∀ k, k ≠ q.val → Store.get (fun _ => none) t.dev.gpio.holds k = Store.get (fun _ => none) s.dev.gpio.holds k) ∧
        Leaves (fun d e => { d with regs := e.regs, resp := e.resp, gpio := { d.gpio with holds := e.gpio.holds } }) (· = Reg.PIN_CFG q) s t))) ∧
  (∀ (s : State) (q : Fin 128) (h : PinHold), Store.get (fun _ => none) s.dev.gpio.holds q = some h → h.past = false →
    Gives (.funcGapEnd q) s (fun t => h.til ≤ t.dev.clk ∧
      Store.get (fun _ => none) t.dev.gpio.holds q = (if pinOutput s.dev q = .absent ∧ h.input = false then some { h with past := true } else none) ∧
      Leaves (fun d e => { d with ht := e.ht, clk := e.clk, gpio := { d.gpio with holds := e.gpio.holds } }) (fun _ => False) s t)) ∧
  (∀ (s : State) (q : Fin 128), (∀ h, Store.get (fun _ => none) s.dev.gpio.holds q = some h → h.past = true) → Gives (.funcGapEnd q) s (fun t => t = s)) ∧
  (∀ (s : State) (r : Req) (b : Fin 4) (v : Word), s.dev.keeper r = true →
    Gives (.gpioLockKey r b v) s (fun t => t.dev.resp = .ok 0 ∧
      (if lockStep s.dev b = 0 ∧ v = 0xA5A5 then lockStep t.dev b = 1 ∧ t.dev.bit (Reg.BANK_STATUS b) 2 = true ∧
        t.dev.rd (Reg.GPIO_LOCKED b) = s.dev.rd (Reg.GPIO_LOCKED b)
      else if lockStep s.dev b = 2 ∧ v = 0x5A5A then lockStep t.dev b = 0 ∧ t.dev.bit (Reg.BANK_STATUS b) 2 = false ∧
        t.dev.rd (Reg.GPIO_LOCKED b) = s.dev.rd (Reg.GPIO_LOCKED b) ||| Store.get (fun _ => 0) s.dev.gpio.mask b
      else lockStep t.dev b = 0 ∧ t.dev.bit Reg.GPIO_FLAGS 1 = true ∧ t.dev.bit (Reg.BANK_STATUS b) 2 = false ∧
        t.dev.rd (Reg.GPIO_LOCKED b) = s.dev.rd (Reg.GPIO_LOCKED b)) ∧
      Leaves (fun d e => { d with regs := e.regs, resp := e.resp, gpio := { d.gpio with step := e.gpio.step } })
        (fun o => o = Reg.BANK_STATUS b ∨ o = Reg.GPIO_LOCKED b ∨ o = Reg.GPIO_FLAGS) s t) ∧
    Gives (.gpioLockMask r b v) s (fun t => t.dev.resp = .ok 0 ∧
      (if lockStep s.dev b = 1 then lockStep t.dev b = 2 ∧ Store.get (fun _ => 0) t.dev.gpio.mask b = v
      else lockStep t.dev b = 0 ∧ t.dev.bit Reg.GPIO_FLAGS 1 = true ∧ t.dev.gpio.mask = s.dev.gpio.mask) ∧
      Leaves (fun d e => { d with regs := e.regs, resp := e.resp, gpio := { d.gpio with step := e.gpio.step, mask := e.gpio.mask } })
        (fun o => o = Reg.BANK_STATUS b ∨ o = Reg.GPIO_FLAGS) s t)) ∧
  (∀ (s : State) (b : Fin 4) (present v33 : Bool), Gives (.bankRailChange b present v33) s (fun t => railUp t.dev b = present ∧
    t.dev.bit (Reg.BANK_STATUS b) 1 = (present && v33) ∧ t.dev.rd (Reg.GPIO_IN b) = (if present then s.dev.rd (Reg.GPIO_IN b) else 0) ∧
    OnlyRegs (fun o => o = Reg.BANK_STATUS b ∨ o = Reg.GPIO_IN b) s t))

/-! ### The network port (chapter 22) -/

/-- R521 to R528, R530, R531, R534, R535: a good frame that the filters accept fills the descriptor at HEAD of its ring, or is counted as dropped;
other frames are counted; a kicked ring sends the frame of its descriptor with padding and FCS, or stops; measurements, pins, the link and
a statistic's read. Commands that find the port down or nothing to do change nothing else.
Clauses that rest on a choice or reading of the model: log entries 108, 109, 110, 137. -/
def Obligations.NetworkPortPerforms : Prop :=
  (∀ (s : State) (f data : List Byte) (wait r rule a buf : Nat), s.dev.bit Reg.NET_CTRL 0 = true → s.dev.bit Reg.NET_STATUS 0 = true →
    64 ≤ f.length → f.length ≤ s.dev.fld Reg.NET_CTRL 24 11 →
    (fcsOf (f.take (f.length - 4)) ≠ leNat (f.drop (f.length - 4)) →
      Gives (.netRxFrame f wait) s (fun t =>
        Store.get (fun _ => 0) t.dev.net.stats 4 = (Store.get (fun _ => 0) s.dev.net.stats 4 + 1) % 2 ^ 64 ∧
        Leaves (fun d e => { d with net := { d.net with stats := e.net.stats }, ht := e.ht, clk := e.clk }) (fun _ => False) s t)) ∧
    (fcsOf (f.take (f.length - 4)) = leNat (f.drop (f.length - 4)) → ¬ (fb2 f 12 = 0x8808 ∧ fb2 f 14 = 1) → addrAccepts s.dev f = true → vlanAccepts s.dev f = true →
      steer s.dev f = (rule, r) → s.dev.bit (Reg.RX_CFG r) 31 = true →
      a = (s.dev.rd (Reg.RX_BASE_LO r)).toNat + s.dev.fld (Reg.RX_CFG r) 15 0 * 2 ^ 32 + 32 * (s.dev.rd (Reg.RX_HEAD r)).toNat →
      memOk s.dev a 32 = true → CleanWords s a 32 → (s.byteAt (a + 3)).getLsbD 7 = true →
      buf = leNat (Store.getList (fun _ => 0) s.mem.bytes (a + 8) 6) →
      data = (if isTagged f = true ∧ s.dev.bit Reg.NET_CTRL 8 = true then (f.take 12) ++ (f.take (f.length - 4)).drop 16 else f.take (f.length - 4)) →
      data.length ≤ s.dev.fld (Reg.RX_BUF r) 14 0 → memOk s.dev buf data.length = true →
      Gives (.netRxFrame f wait) s (fun t =>
        t.dev.rd (Reg.RX_HEAD r) = w32 (((s.dev.rd (Reg.RX_HEAD r)).toNat + 1) % max 1 (s.dev.fld (Reg.RX_CFG r) 28 16)) ∧
        t.dev.bit Reg.NET_FLAGS r = true ∧
        (∀ i < 4, t.byteAt (a + i) = (wordBytes (w32 (rule * 2 ^ 20 + data.length))).getD i 0) ∧
        (∀ i < data.length, buf + i < a ∨ a + 24 ≤ buf + i → t.byteAt (buf + i) = data.getD i 0) ∧
        (∀ k, (k < a ∨ a + 24 ≤ k) → (k < buf ∨ buf + data.length ≤ k) → t.byteAt k = s.byteAt k) ∧
        t.mem.tcm = s.mem.tcm ∧ t.mem.flash = s.mem.flash ∧ t.pending = s.pending))) ∧
  (∀ (s : State) (f : List Byte) (wait n : Nat), n = f.length →
    (s.dev.bit Reg.NET_CTRL 0 = false ∨ s.dev.bit Reg.NET_STATUS 0 = false → Gives (.netRxFrame f wait) s (fun t => t = s.upd (fun d => d.pass wait))) ∧
    (s.dev.bit Reg.NET_CTRL 0 = true → s.dev.bit Reg.NET_STATUS 0 = true → n < 64 ∨ s.dev.fld Reg.NET_CTRL 24 11 < n →
      Gives (.netRxFrame f wait) s (fun t =>
        Store.get (fun _ => 0) t.dev.net.stats 5 = (Store.get (fun _ => 0) s.dev.net.stats 5 + 1) % 2 ^ 64 ∧
        Leaves (fun d e => { d with net := { d.net with stats := e.net.stats }, ht := e.ht, clk := e.clk }) (fun _ => False) s t)) ∧
    (∀ k, s.dev.bit Reg.NET_CTRL 0 = true → s.dev.bit Reg.NET_STATUS 0 = true → 64 ≤ n → n ≤ s.dev.fld Reg.NET_CTRL 24 11 →
      fcsOf (f.take (n - 4)) = leNat (f.drop (n - 4)) →
      (fb2 f 12 = 0x8808 ∧ fb2 f 14 = 1 ∧ k = 9) ∨ (fb2 f 12 ≠ 0x8808 ∧ addrAccepts s.dev f = false ∧ k = 6) ∨
        (fb2 f 12 ≠ 0x8808 ∧ addrAccepts s.dev f = true ∧ vlanAccepts s.dev f = false ∧ k = 7) →
      Gives (.netRxFrame f wait) s (fun t =>
        Store.get (fun _ => 0) t.dev.net.stats k = (Store.get (fun _ => 0) s.dev.net.stats k + 1) % 2 ^ 64 ∧
        Store.get (fun _ => 0) t.dev.net.stats 0 = (Store.get (fun _ => 0) s.dev.net.stats 0 + n) % 2 ^ 64 ∧
        Store.get (fun _ => 0) t.dev.net.stats 1 = (Store.get (fun _ => 0) s.dev.net.stats 1 + 1) % 2 ^ 64 ∧
        Leaves (fun d e => { d with net := { d.net with stats := e.net.stats }, ht := e.ht, clk := e.clk }) (fun _ => False) s t)) ∧
    (∀ r, s.dev.bit Reg.NET_CTRL 0 = true → s.dev.bit Reg.NET_STATUS 0 = true → 64 ≤ n → n ≤ s.dev.fld Reg.NET_CTRL 24 11 →
      fcsOf (f.take (n - 4)) = leNat (f.drop (n - 4)) → fb2 f 12 ≠ 0x8808 → addrAccepts s.dev f = true → vlanAccepts s.dev f = true →
      r = (steer s.dev f).2 → s.dev.bit (Reg.RX_CFG r) 31 = false →
      Gives (.netRxFrame f wait) s (fun t => t.dev.bit Reg.NET_FLAGS 11 = true ∧
        Store.get (fun _ => 0) t.dev.net.stats 8 = (Store.get (fun _ => 0) s.dev.net.stats 8 + 1) % 2 ^ 64 ∧
        Leaves (fun d e => { d with regs := e.regs, net := { d.net with stats := e.net.stats }, ht := e.ht, clk := e.clk }) (· = Reg.NET_FLAGS) s t))) ∧
  (∀ (s : State) (r : Fin 4) (v : Word), bitOf v 31 = false ∨ s.dev.bit (Reg.TX_CFG r) 31 = false →
    Gives (.netTxKick r v) s (fun t => t = s.upd Dev.okay)) ∧
  (∀ (s : State) (wait : Nat), s.dev.bit Reg.NET_CTRL 0 = false ∨ s.dev.bit Reg.NET_STATUS 0 = false ∨ s.dev.net.run = [] →
    Gives (.netTxComplete wait) s (fun t => t = s)) ∧
  (∀ (s : State) (k wait : Nat), s.dev.bit Reg.NET_CTRL 0 = true → s.dev.bit Reg.NET_STATUS 0 = true → s.dev.net.run = [k] →
    s.dev.bit (Reg.TX_CFG k) 31 = false →
    Gives (.netTxComplete wait) s (fun t => t.dev.net = { s.dev.net with run := [] } ∧
      Leaves (fun d e => { d with net := e.net, ht := e.ht, clk := e.clk }) (fun _ => False) s t)) ∧
  (∀ (s : State) (r : Fin 4) (v : Word), bitOf v 31 = true → s.dev.bit (Reg.TX_CFG r) 31 = true →
    Gives (.netTxKick r v) s (fun t => t.dev.net = { s.dev.net with run := insNat r s.dev.net.run } ∧ t.dev.resp = .ok 0 ∧
      Leaves (fun d e => { d with net := e.net, resp := e.resp }) (fun _ => False) s t)) ∧
  (∀ (s : State) (l : List Nat) (k wait a n buf : Nat) (w0 : Word) (f : List Byte), s.dev.bit Reg.NET_CTRL 0 = true → s.dev.bit Reg.NET_STATUS 0 = true →
    s.dev.net.run = l ++ [k] → s.dev.bit (Reg.TX_CFG k) 31 = true →
    a = (s.dev.rd (Reg.TX_BASE_LO k)).toNat + s.dev.fld (Reg.TX_CFG k) 15 0 * 2 ^ 32 + 32 * (s.dev.rd (Reg.TX_HEAD k)).toNat →
    memOk s.dev a 32 = true → CleanWords s a 32 → w0 = w32 (leNat (Store.getList (fun _ => 0) s.mem.bytes a 4)) → bitOf w0 31 = true →
    bitOf w0 28 = false → bitOf w0 29 = false → n = fld w0 13 0 → 14 ≤ n → n + 4 ≤ s.dev.fld Reg.NET_CTRL 24 11 →
    buf = leNat (Store.getList (fun _ => 0) s.mem.bytes (a + 8) 6) → memOk s.dev buf n = true → CleanWords s buf n →
    f = Store.getList (fun _ => 0) s.mem.bytes buf n ++ List.replicate (60 - n) 0 →
    Gives (.netTxComplete wait) s (fun t => t.dev.net.wire = f ++ natBytes 4 (fcsOf f) ∧ t.dev.net.run = s.dev.net.run ∧
      t.dev.rd (Reg.TX_HEAD k) = w32 (((s.dev.rd (Reg.TX_HEAD k)).toNat + 1) % max 1 (s.dev.fld (Reg.TX_CFG k) 28 16)) ∧
      t.dev.bit Reg.NET_FLAGS (4 + k) = decide (4 + k < 32) ∧ (t.byteAt (a + 3)).getLsbD 7 = false ∧
      Stores (fun d e => { d with regs := e.regs, net := e.net, free := e.free, cks := e.cks, tasks := e.tasks, ht := e.ht, clk := e.clk })
        (fun o => o = Reg.TX_HEAD k ∨ o = Reg.NET_FLAGS ∨ o = Reg.ERR_INJECT_HI ∨ InConj o) a 24 s t)) ∧
  (∀ (s : State) (q : Req) (v : Word) (mht : Nat), s.dev.keeper q = true → s.dev.fld Reg.HERD_STATUS 7 6 = 2 → s.dev.bit Reg.PTP_CTRL 0 = true →
    mht = s.dev.rd64 Reg.PTP_MEAS_HT_LO Reg.PTP_MEAS_HT_HI → s.dev.herd.stepHt ≤ mht → (∀ h, s.dev.net.ptp.lastHt = some h → h < mht) →
    v.toInt.natAbs ≤ 1000 →
    Gives (.ptpMeasSubmit q v) s (fun t => t.dev.net.ptp.lastHt = some mht ∧ t.dev.net.ptp.first = false ∧ t.dev.net.ptp.lastClk = s.dev.clk ∧
      (if s.dev.net.ptp.first = true then t.dev.net.ptp.pend = some (-v.toInt) ∧ t.dev.rd Reg.PTP_FREQ = s.dev.rd Reg.PTP_FREQ
      else t.dev.net.ptp.slew = -v.toInt ∧ t.dev.net.ptp.pend = s.dev.net.ptp.pend) ∧ t.dev.resp = .ok 0 ∧
      Leaves (fun d e => { d with regs := e.regs, net := e.net, herd := { d.herd with epoch := e.herd.epoch }, resp := e.resp })
        (fun o => o = Reg.PTP_STATUS ∨ o = Reg.HERD_STATUS ∨ o = Reg.NET_FLAGS ∨ o = Reg.PTP_FREQ) s t)) ∧
  (∀ (s : State) (q : Req) (v : Word) (mht c : Nat), s.dev.keeper q = true → s.dev.fld Reg.HERD_STATUS 7 6 = 2 → s.dev.bit Reg.PTP_CTRL 0 = true →
    mht = s.dev.rd64 Reg.PTP_MEAS_HT_LO Reg.PTP_MEAS_HT_HI → s.dev.herd.stepHt ≤ mht → (∀ h, s.dev.net.ptp.lastHt = some h → h < mht) →
    1000 < v.toInt.natAbs → s.dev.net.ptp.first = false → s.dev.net.ptp.big = some c → c + 1000000000 ≤ s.dev.clk →
    Gives (.ptpMeasSubmit q v) s (fun t => t.dev.net.ptp.pend = some (-v.toInt) ∧ t.dev.bit Reg.PTP_STATUS 0 = false ∧ t.dev.bit Reg.HERD_FLAGS 16 = true ∧
      t.dev.net.ptp.first = s.dev.bit Reg.PTP_STATUS 0 ∧ t.dev.rd Reg.PTP_FREQ = s.dev.rd Reg.PTP_FREQ ∧ t.dev.resp = .ok 0 ∧
      Leaves (fun d e => { d with regs := e.regs, net := e.net, resp := e.resp })
        (fun o => o = Reg.PTP_STATUS ∨ o = Reg.HERD_STATUS ∨ o = Reg.NET_FLAGS ∨ o = Reg.HERD_FLAGS) s t)) ∧
  (∀ (s : State) (q : Req) (v : Word) (mht : Nat), mht = s.dev.rd64 Reg.PTP_MEAS_HT_LO Reg.PTP_MEAS_HT_HI →
    (s.dev.keeper q = false → Gives (.ptpMeasSubmit q v) s (fun t => t = s.upd Dev.deny)) ∧
    (s.dev.keeper q = true → s.dev.fld Reg.HERD_STATUS 7 6 ≠ 2 ∨ s.dev.bit Reg.PTP_CTRL 0 = false →
      Gives (.ptpMeasSubmit q v) s (fun t => t = s.upd (fun d => (d.setBit Reg.NET_FLAGS 13).okay))) ∧
    (s.dev.keeper q = true → s.dev.fld Reg.HERD_STATUS 7 6 = 2 → s.dev.bit Reg.PTP_CTRL 0 = true →
      mht < s.dev.herd.stepHt ∨ (∃ h, s.dev.net.ptp.lastHt = some h ∧ mht ≤ h) →
      Gives (.ptpMeasSubmit q v) s (fun t => t = s.upd (fun d => (d.setBit Reg.NET_FLAGS 15).okay)))) ∧
  (∀ s : State, s.dev.bit Reg.PTP_STATUS 0 = false ∨ s.dev.fld Reg.HERD_STATUS 7 6 ≠ 2 → Gives .ptpLockTimeout s (fun t => t = s)) ∧
  (∀ s : State, s.dev.bit Reg.PTP_STATUS 0 = true → s.dev.fld Reg.HERD_STATUS 7 6 = 2 →
    Gives .ptpLockTimeout s (fun t => t.dev.bit Reg.PTP_STATUS 0 = false ∧ t.dev.bit Reg.HERD_FLAGS 16 = true ∧
      s.dev.net.ptp.lastClk + 4000000000 ≤ t.dev.clk ∧ t.dev.rd Reg.PTP_FREQ = s.dev.rd Reg.PTP_FREQ ∧
      Leaves (fun d e => { d with regs := e.regs, net := { d.net with ptp := e.net.ptp }, ht := e.ht, clk := e.clk })
        (fun o => o = Reg.PTP_STATUS ∨ o = Reg.HERD_STATUS ∨ o = Reg.NET_FLAGS ∨ o = Reg.HERD_FLAGS) s t)) ∧
  (∀ (s : State) (los absent down : Bool), down = (los && s.dev.bit Reg.NET_STATUS 0) →
    Gives (.sfpPinChange los absent) s (fun t => t.dev.bit Reg.NET_STATUS 1 = los ∧ t.dev.bit Reg.NET_STATUS 2 = absent ∧
      t.dev.bit Reg.NET_STATUS 0 = (s.dev.bit Reg.NET_STATUS 0 && !los) ∧
      t.dev.rd Reg.NET_FLAGS = s.dev.rd Reg.NET_FLAGS ||| (if s.dev.bit Reg.NET_STATUS 2 = absent then 0 else 0x400) ||| (if down then 0x200 else 0) ∧
      (if down then Store.get (fun _ => 0) t.dev.net.stats 18 = (Store.get (fun _ => 0) s.dev.net.stats 18 + 1) % 2 ^ 64 else t.dev.net = s.dev.net) ∧
      Leaves (fun d e => { d with regs := e.regs, net := { d.net with stats := e.net.stats }, tasks := e.tasks })
        (fun o => o = Reg.NET_STATUS ∨ o = Reg.NET_FLAGS ∨ (down = true ∧ InConj o)) s t)) ∧
  (∀ (s : State) (up an on : Bool), on = (up && s.dev.bit Reg.NET_CTRL 0 && !s.dev.bit Reg.NET_STATUS 1) → s.dev.bit Reg.NET_STATUS 0 = !on →
    Gives (.netLinkChange up an) s (fun t => t.dev.bit Reg.NET_STATUS 0 = on ∧ t.dev.bit Reg.NET_FLAGS (if on then 8 else 9) = true ∧
      Leaves (fun d e => { d with regs := e.regs, net := { d.net with stats := e.net.stats }, tasks := e.tasks })
        (fun o => o = Reg.NET_STATUS ∨ o = Reg.NET_FLAGS ∨ InConj o) s t)) ∧
  (∀ (s : State) (up an : Bool), s.dev.bit Reg.NET_STATUS 0 = (up && s.dev.bit Reg.NET_CTRL 0 && !s.dev.bit Reg.NET_STATUS 1) →
    Gives (.netLinkChange up an) s (fun t => t.dev.bit Reg.NET_STATUS 3 = (s.dev.bit Reg.NET_CTRL 1 && (an || s.dev.bit Reg.NET_STATUS 0)) ∧
      OnlyRegs (· = Reg.NET_STATUS) s t)) ∧
  (∀ (s : State) (k : Fin 32) (n : Nat), n = (if k.val < 20 then Store.get (fun _ => 0) s.dev.net.stats k else 0) →
    Gives (.statLoRead k) s (fun t => t.dev.resp = .ok (w32 n) ∧ t.dev.rd (Reg.STAT_HI k) = w32 (n / 2 ^ 32) ∧ OnlyRegs (· = Reg.STAT_HI k) s t))

/-! ### The herd (chapters 8 and 9) -/

/-- R233 to R241, R244, R246: the master's frame carries its herd time at a multiple of 1000 ns, after a step of HT_SET that waits for it; a member
takes time from a good frame of its source ring, by a step where one is due, and forwards it; a foreign, rebuilt or returned frame; a bad
frame is counted; loss at the expected arrival, return, the join evaluation, SPAN, HERD_PPS and HT_SET. Commands that the rings, the ROLE
or the state do not allow change nothing else.
Clauses that rest on a choice or reading of the model: log entries 86, 87. -/
def Obligations.HerdFramesKeepTime : Prop :=
  (∀ s : State, isMaster s.dev = true → herdSet s.dev = true → s.dev.herd.htSet = false → s.dev.net.ptp.pend = none → hasRing s.dev false = true →
    s.dev.now + 2000 < 2 ^ 64 →
    Gives .herdFrameSend s (fun t => t.dev.now % 1000 = 0 ∧ s.dev.now ≤ t.dev.now ∧ t.dev.now < s.dev.now + 2000 ∧ t.dev.now = nextSend s.dev ∧
      t.dev.herd.lastSend = some t.dev.now ∧ (hparse (t.dev.ring false).out).ht = t.dev.now ∧
      (hparse (t.dev.ring false).out).id = (s.dev.rd Reg.HERD_ID).toNat ∧ (hparse (t.dev.ring false).out).master = devIndex s.dev ∧
      (hparse (t.dev.ring false).out).hops = 0 ∧ herdJoined t.dev = true ∧ SameMem s t ∧ t.pending = s.pending)) ∧
  (∀ (s : State) (b : Bool) (f : List Byte) (wait sub res : Nat) (h : HFrame), hasRing s.dev b = true →
    (hgood false f = true → h = hparse f → h.id = (s.dev.rd Reg.HERD_ID).toNat → h.ltype = 0 → h.hops < 255 → isMaster s.dev = false →
      sourceB s.dev = b → h.flags.testBit 3 = false → h.flags.testBit 2 = false → s.dev.herd.stepDue = false →
      Gives (.herdFrameReceive b false f wait sub res) s (fun t => t.dev.now = (s.dev.now + wait) % 2 ^ 64 ∧
        t.dev.rd Reg.TIME_ERR = timeErr ((16 * ((s.dev.now + wait) % 2 ^ 64) + sub : Nat) - (16 * h.ht + h.corr + linkDelay s.dev b : Nat)) ∧
        t.dev.rd Reg.SPAN = w32 (h.span * 10) ∧ t.dev.herd.epoch = h.epoch ∧ t.dev.fld Reg.HERD_STATUS 31 24 = h.master ∧ (t.dev.ring b).last = f ∧ ringOk t.dev b = true ∧
        (hparse (t.dev.ring b).out).hops = h.hops + 1 ∧ (hparse (t.dev.ring b).out).ht = h.ht ∧
        (hparse (t.dev.ring b).out).corr = (h.corr + linkDelay s.dev b + res) % 2 ^ 32 ∧ SameMem s t ∧ t.pending = s.pending)) ∧
    (hgood false f = true → h = hparse f → h.id = (s.dev.rd Reg.HERD_ID).toNat → h.hops < 255 → isMaster s.dev = false →
      sourceB s.dev = b → h.ltype = 0 → h.flags.testBit 3 = false → h.flags.testBit 2 = true ∨ s.dev.herd.stepDue = true →
      (16 * h.ht + h.corr + linkDelay s.dev b) / 16 ≠ (s.dev.now + wait) % 2 ^ 64 →
      Gives (.herdFrameReceive b false f wait sub res) s (fun t => t.dev.now = (16 * h.ht + h.corr + linkDelay s.dev b) / 16 % 2 ^ 64 ∧
        t.dev.bit Reg.HERD_FLAGS 15 = true ∧ t.dev.herd.stepDue = false ∧ SameMem s t ∧ t.pending = s.pending)) ∧
    (hgood false f = true → h = hparse f → h.id = (s.dev.rd Reg.HERD_ID).toNat → h.hops < 255 → isMaster s.dev = false → h.flags.testBit 3 = true →
      Gives (.herdFrameReceive b false f wait sub res) s (fun t => t.dev.now = (s.dev.now + wait) % 2 ^ 64 ∧
        t.dev.rd Reg.TIME_ERR = s.dev.rd Reg.TIME_ERR ∧ t.dev.rd Reg.SPAN = s.dev.rd Reg.SPAN ∧
        (hparse (t.dev.ring b).out).hops = h.hops + 1 ∧ (hparse (t.dev.ring b).out).flags = h.flags ∧ SameMem s t ∧ t.pending = s.pending)) ∧
    (hgood false f = true → h = hparse f → h.id ≠ (s.dev.rd Reg.HERD_ID).toNat → isMaster s.dev = false →
      Gives (.herdFrameReceive b false f wait sub res) s (fun t => t.dev.now = (s.dev.now + wait) % 2 ^ 64 ∧ t.dev.bit Reg.HERD_FLAGS 12 = true ∧
        t.dev.rd Reg.TIME_ERR = s.dev.rd Reg.TIME_ERR ∧ t.dev.fld Reg.HERD_STATUS 31 24 = s.dev.fld Reg.HERD_STATUS 31 24 ∧
        (t.dev.ring b).last = (s.dev.ring b).last ∧
        (if h.hops = 255 then (t.dev.ring b).out = (s.dev.ring b).out
        else (hparse (t.dev.ring b).out).hops = h.hops + 1 ∧ (hparse (t.dev.ring b).out).id = h.id ∧ (hparse (t.dev.ring b).out).cues = h.cues ∧
          (hparse (t.dev.ring b).out).res1 = h.res1 ∧ (hparse (t.dev.ring b).out).res2 = h.res2) ∧ SameMem s t ∧ t.pending = s.pending)) ∧
    (∀ x l, hgood false f = true → h = hparse f → h.id = (s.dev.rd Reg.HERD_ID).toNat → isMaster s.dev = true →
      (h.master ≠ devIndex s.dev → Gives (.herdFrameReceive b false f wait sub res) s (fun t => t.dev.bit Reg.HERD_FLAGS 13 = true ∧
        (t.dev.ring b).ret = (s.dev.ring b).ret ∧ (t.dev.ring b).carry = (s.dev.ring b).carry ∧ (t.dev.ring b).out = (s.dev.ring b).out ∧
        SameMem s t ∧ t.pending = s.pending)) ∧
      (h.master = devIndex s.dev → (s.dev.ring b).sends = (h.ht, x) :: l →
        Gives (.herdFrameReceive b false f wait sub res) s (fun t => (t.dev.ring b).ret = some ((16 * (s.dev.clk + wait) + sub - x + 15) / 16) ∧
          (t.dev.ring b).sends = l ∧ (t.dev.ring b).out = (s.dev.ring b).out ∧ SameMem s t ∧ t.pending = s.pending))) ∧
    (∀ code, hgood code f = false →
      Gives (.herdFrameReceive b code f wait sub res) s (fun t => t.dev.bit Reg.HERD_FLAGS 11 = true ∧
        (t.dev.rd (if b then Reg.RING_CRC_B else Reg.RING_CRC_A)).toNat =
          min ((s.dev.rd (if b then Reg.RING_CRC_B else Reg.RING_CRC_A)).toNat + 1) 0xFFFFFFFF ∧
        t.dev.rd Reg.TIME_ERR = s.dev.rd Reg.TIME_ERR ∧ SameMem s t ∧ t.pending = s.pending))) ∧
  (∀ (s : State) (b code : Bool) (f : List Byte) (wait sub res : Nat), herdSet s.dev = true → hasRing s.dev b = false →
    Gives (.herdFrameReceive b code f wait sub res) s (fun t => t = s.upd (fun d => d.pass wait))) ∧
  (∀ s : State, isMaster s.dev = false ∨ herdSet s.dev = false → Gives .herdFrameSend s (fun t => t = s)) ∧
  (∀ (s : State) (n : Nat), herdRole s.dev = 1 → herdSet s.dev = true → s.dev.herd.htSet = true → hasRing s.dev false = true →
    n = s.dev.rd64 Reg.HT_SET_LO Reg.HT_SET_HI / 1000 * 1000 →
    Gives .herdFrameSend s (fun t => t.dev.now = n ∧ t.dev.herd.htSet = false ∧ t.dev.herd.stepHt = n ∧ t.dev.bit Reg.HERD_FLAGS 15 = true ∧
      t.dev.herd.lastSend = some n ∧ (hparse (t.dev.ring false).out).ht = n ∧ (hparse (t.dev.ring false).out).flags.testBit 2 = true ∧
      SameMem s t ∧ t.pending = s.pending)) ∧
  (∀ (s : State) (b : Bool) (wait : Nat), ringOk s.dev b = false →
    Gives (.ringInputLost b wait) s (Leaves (fun d e => { d with ht := e.ht, clk := e.clk }) (fun _ => False) s)) ∧
  (∀ (s : State) (b : Bool) (wait : Nat), ringOk s.dev b = true →
    Gives (.ringInputLost b wait) s (fun t => s.dev.clk + wait ≤ t.dev.clk ∧ expected b s.dev + 3200 ≤ 16 * t.dev.clk ∧ ringOk t.dev b = false ∧ t.dev.bit Reg.HERD_FLAGS (if b then 9 else 8) = true ∧
      (isMaster s.dev = false → sourceB s.dev = b →
        if ringOk s.dev (!b) = true then sourceB t.dev = !b ∧ t.dev.bit Reg.HERD_FLAGS 10 = true ∧
          (t.dev.rd Reg.REVERSALS).toNat = min ((s.dev.rd Reg.REVERSALS).toNat + 1) 0xFFFFFFFF
        else t.dev.herd.lockAt = none ∧ t.dev.bit Reg.HERD_STATUS 1 = true ∧ herdJoined t.dev = false ∧ t.dev.bit Reg.HERD_FLAGS 14 = true) ∧
      SameMem s t ∧ t.pending = s.pending)) ∧
  (∀ s : State, sourceB s.dev = true → ringOk s.dev false = true → isMaster s.dev = false →
    Gives .ringAReturn s (fun t => sourceB t.dev = false ∧ s.dev.herd.a.goodSince + 10000000 ≤ t.dev.clk ∧
      Leaves (fun d e => { d with regs := e.regs, ht := e.ht, clk := e.clk }) (· = Reg.HERD_STATUS) s t)) ∧
  (∀ (s : State) (c : Nat), s.dev.herd.lockAt = some c → s.dev.herd.evaled = false → isMaster s.dev = false →
    Gives .herdJoinEval s (fun t => t.dev.herd.evaled = true ∧ c + 1000000 ≤ t.dev.clk ∧
      t.dev.herd.stepDue = decide (16000 < (s.dev.rd Reg.TIME_ERR).toInt.natAbs) ∧
      ((s.dev.rd Reg.TIME_ERR).toInt.natAbs ≤ 64 → herdJoined t.dev = true) ∧
      (64 < (s.dev.rd Reg.TIME_ERR).toInt.natAbs → t.dev.regs = s.dev.regs ∧ t.dev.heads = s.dev.heads) ∧
      Leaves (fun d e => { d with regs := e.regs, herd := e.herd, heads := e.heads, ht := e.ht, clk := e.clk }) (· = Reg.HERD_STATUS) s t)) ∧
  (∀ s : State, (sourceB s.dev = false ∨ ringOk s.dev false = false ∨ isMaster s.dev = true → Gives .ringAReturn s (fun t => t = s)) ∧
    (s.dev.herd.lockAt = none ∨ s.dev.herd.evaled = true ∨ isMaster s.dev = true → Gives .herdJoinEval s (fun t => t = s)) ∧
    (isMaster s.dev = false → Gives .spanMeasure s (fun t => t = s)) ∧
    (s.dev.bit Reg.TIME_CTRL 0 = false ∨ s.dev.herd.pps = true → Gives .ppsOutRise s (fun t => t = s)) ∧
    (s.dev.herd.pps = false → Gives .ppsOutFall s (fun t => t = s))) ∧
  (∀ (s : State) (b : Bool), isMaster s.dev = true → hasRing s.dev b = true → ringOk s.dev b = false ∨ (s.dev.ring b).ret = none →
    Gives .spanMeasure s (fun t => t.dev.herd = { s.dev.herd with spanClk := t.dev.clk } ∧ s.dev.herd.spanClk + 1000000 ≤ t.dev.clk ∧
      Leaves (fun d e => { d with herd := e.herd, ht := e.ht, clk := e.clk }) (fun _ => False) s t)) ∧
  (∀ (s : State) (q : Req) (v : Word), (s.dev.keeper q = false → Gives (.htSet q v) s (fun t => t = s.upd Dev.deny)) ∧
    (s.dev.keeper q = true → bitOf v 31 = false ∨ herdRole s.dev ≠ 1 → Gives (.htSet q v) s (fun t => t = s.upd Dev.okay))) ∧
  (∀ (s : State) (x y : Nat), isMaster s.dev = true → hasRing s.dev false = true → hasRing s.dev true = true → ringOk s.dev false = true →
    ringOk s.dev true = true → s.dev.herd.a.ret = some x → s.dev.herd.b.ret = some y →
    Gives .spanMeasure s (fun t => t.dev.rd Reg.SPAN = w32 ((max x y + 1009) / 10 * 10 % 2 ^ 20) ∧ s.dev.herd.spanClk + 1000000 ≤ t.dev.clk ∧
      t.dev.herd = { s.dev.herd with spanClk := t.dev.clk } ∧
      Leaves (fun d e => { d with regs := e.regs, herd := e.herd, ht := e.ht, clk := e.clk }) (· = Reg.SPAN) s t)) ∧
  (∀ s : State, s.dev.bit Reg.TIME_CTRL 0 = true → s.dev.herd.pps = false → s.dev.now + 2000000000 < 2 ^ 64 →
    Gives .ppsOutRise s (fun t => t.dev.herd = { s.dev.herd with pps := true, ppsAt := some t.dev.now, ppsClk := t.dev.clk } ∧
      t.dev.now % 1000000000 = 0 ∧ s.dev.now ≤ t.dev.now ∧ s.dev.herd.ppsAt ≠ some t.dev.now ∧
      Leaves (fun d e => { d with herd := e.herd, ht := e.ht, clk := e.clk }) (fun _ => False) s t)) ∧
  (∀ s : State, s.dev.herd.pps = true → Gives .ppsOutFall s (fun t => t.dev.herd = { s.dev.herd with pps := false } ∧
      s.dev.herd.ppsClk + 100000 ≤ t.dev.clk ∧ Leaves (fun d e => { d with herd := e.herd, ht := e.ht, clk := e.clk }) (fun _ => False) s t)) ∧
  (∀ (s : State) (wait : Nat), Gives (.ppsInEdge wait) s (fun t => t.dev.now = (s.dev.now + wait) % 2 ^ 64 ∧ t.dev.herd = { s.dev.herd with ppsIn := t.dev.now } ∧
      t.dev.rd Reg.PPS_IN_LO = w32 t.dev.now ∧ t.dev.bit Reg.HERD_FLAGS 17 = true ∧
      Leaves (fun d e => { d with regs := e.regs, herd := e.herd, tasks := e.tasks, ht := e.ht, clk := e.clk })
        (fun o => o = Reg.PPS_IN_LO ∨ o = Reg.HERD_FLAGS ∨ InConj o) s t)) ∧
  (∀ (s : State) (q : Req) (v : Word), s.dev.keeper q = true → bitOf v 31 = true → herdRole s.dev = 1 →
    Gives (.htSet q v) s (fun t => t.dev.herd = { s.dev.herd with htSet := true } ∧ t.dev.resp = .ok 0 ∧
      Leaves (fun d e => { d with herd := e.herd, resp := e.resp }) (fun _ => False) s t))

/-- R245, R248 to R256: a cue that its lead, its owner and the queue allow arms its slot or returns it to idle, and rides the ring; the armed slot
of least L fires at L; a census in time joins the queue, latches the counters at T into a free bank, which fills and is released. A
refused request tells its reason, a census that cannot be taken is skipped with its cause, and without one nothing happens.
Clauses that rest on a choice or reading of the model: log entries 84, 85, 88. -/
def Obligations.CuesFireAndCensusesLatch : Prop :=
  (∀ (s : State) (sl : Fin 256) (arg : BitVec 16) (bcast cancel ride : Bool) (i : Instr) (seq : Nat),
    i = (if cancel then .cueCancel sl arg bcast else .cueArm sl arg bcast) → ride = (bcast && !ringless s.dev) →
    seq = (s.dev.fld (Reg.CUE_STATE sl) 15 8 + 1) % 256 → s.dev.now + (s.dev.rd Reg.CUE_LEAD_MIN).toNat ≤ cueStaged s.dev →
    s.dev.fld (Reg.CUE_CFG sl) 7 0 = devIndex s.dev → (ride = true → s.dev.herd.queue.length < 16 ∧ herdJoined s.dev = true) →
    Gives i s (fun t => cueArmed t.dev sl = !cancel ∧ t.dev.fld (Reg.CUE_STATE sl) 15 8 = seq ∧ t.dev.rd Reg.CUE_RESULT = w32 (1 + seq * 16) ∧
      (cancel = false → cueL t.dev sl = cueStaged s.dev ∧ t.dev.fld (Reg.CUE_STATE sl) 31 16 = arg.toNat) ∧
      (ride = false → t.dev.herd = s.dev.herd) ∧
      (ride = true → ∃ e, t.dev.herd.queue = s.dev.herd.queue ++ [e] ∧ e.cue = true ∧
        e.bytes = cueEntry sl cancel (devIndex s.dev) seq arg.toNat (cueStaged s.dev)) ∧ t.dev.resp = .ok 0 ∧
      Leaves (fun d e => { d with regs := e.regs, herd := { d.herd with queue := e.herd.queue }, heads := e.heads, resp := e.resp })
        (fun o => o = Reg.CUE_STATE sl ∨ o = Reg.CUE_SL_LO sl ∨ o = Reg.CUE_SL_HI sl ∨ o = Reg.CUE_RESULT) s t)) ∧
  (∀ (s : State) (sl : Fin 256) (arg : BitVec 16) (bcast cancel ride : Bool) (i : Instr) (r : Nat),
    i = (if cancel then .cueCancel sl arg bcast else .cueArm sl arg bcast) → ride = (bcast && !ringless s.dev) →
    r = (if cueStaged s.dev < s.dev.now + (s.dev.rd Reg.CUE_LEAD_MIN).toNat then 1
      else if s.dev.fld (Reg.CUE_CFG sl) 7 0 ≠ devIndex s.dev then 2
      else if ride = true ∧ 16 ≤ s.dev.herd.queue.length then 3 else if ride = true ∧ herdJoined s.dev = false then 4 else 0) → r ≠ 0 →
    Gives i s (fun t => t.dev.fld Reg.CUE_RESULT 3 0 = 2 * r ∧ t.dev.bit Reg.HERD_FLAGS 1 = true ∧ t.dev.resp = .ok 0 ∧
      OnlyRegs (fun o => o = Reg.CUE_RESULT ∨ o = Reg.HERD_FLAGS) s t)) ∧
  (∀ (s : State) (sl : Nat), nextCue s.dev = some sl →
    Gives .cueFire s (fun t => cueArmed s.dev sl = true ∧ (∀ k < 256, cueArmed s.dev k = true → cueL s.dev sl ≤ cueL s.dev k) ∧
      cueArmed t.dev sl = false ∧ t.dev.now = max s.dev.now (cueL s.dev sl) ∧ t.dev.rd64 (Reg.CUE_FIRED_LO sl) (Reg.CUE_FIRED_HI sl) = t.dev.now ∧
      t.dev.bit (Reg.CUE_STATE sl) 1 = false ∧
      (s.dev.bit (Reg.CUE_CFG sl) 18 = true → s.dev.inDeep = false → t.dev.bit Reg.HERD_FLAGS 0 = true) ∧
      (∀ k < 256, k ≠ sl → cueArmed t.dev k = cueArmed s.dev k) ∧ SameMem s t ∧ t.pending = s.pending)) ∧
  (∀ s : State, (nextCue s.dev = none → Gives .cueFire s (fun t => t = s)) ∧ (s.dev.herd.cens = [] → Gives .censusLatch s (fun t => t = s)) ∧
    (s.dev.herd.fill = none → Gives .censusBankFilled s (fun t => t = s))) ∧
  (∀ (s : State) (v : Word), (bitOf v 31 = false → Gives (.censusRequest v) s (fun t => t = s.upd Dev.okay)) ∧
    (bitOf v 31 = true → cenStaged s.dev < s.dev.now + 20000 + (s.dev.rd Reg.SPAN).toNat →
      Gives (.censusRequest v) s (fun t => t.dev.fld Reg.CEN_STATUS 10 8 = 4 ∧ t.dev.resp = .ok 0 ∧ OnlyRegs (· = Reg.CEN_STATUS) s t)) ∧
    (bitOf v 31 = true → s.dev.now + 20000 + (s.dev.rd Reg.SPAN).toNat ≤ cenStaged s.dev → bitOf v 24 = false ∨ ringless s.dev = true →
      fld v 23 16 &&& s.dev.fld Reg.CEN_GROUPS 7 0 ≠ 0 → (∀ x ∈ s.dev.herd.cens, x.t ≠ cenStaged s.dev) → 4 ≤ s.dev.herd.cens.length →
      Gives (.censusRequest v) s (fun t => t.dev.fld Reg.CEN_STATUS 10 8 = 3 ∧ t.dev.bit Reg.HERD_FLAGS 7 = true ∧
        (t.dev.rd Reg.CEN_SKIPS).toNat = min ((s.dev.rd Reg.CEN_SKIPS).toNat + 1) 0xFFFFFFFF ∧ t.dev.resp = .ok 0 ∧
        OnlyRegs (fun o => o = Reg.CEN_STATUS ∨ o = Reg.HERD_FLAGS ∨ o = Reg.CEN_SKIPS) s t)) ∧
    (bitOf v 31 = true → s.dev.now + 20000 + (s.dev.rd Reg.SPAN).toNat ≤ cenStaged s.dev → fld v 23 16 &&& s.dev.fld Reg.CEN_GROUPS 7 0 = 0 →
      Gives (.censusRequest v) s (fun t => t.dev.herd.cens = s.dev.herd.cens ∧
        (t.dev.herd.queue = s.dev.herd.queue ∨ ∃ e, t.dev.herd.queue = s.dev.herd.queue ++ [e] ∧ e.cue = false) ∧
        (bitOf v 24 = true → ringless s.dev = false → fld v 23 16 ≠ 0 → s.dev.herd.queue.length < 16 → t.dev.herd.queue ≠ s.dev.herd.queue) ∧
        t.dev.resp = .ok 0 ∧ Leaves (fun d e => { d with herd := { d.herd with queue := e.herd.queue }, resp := e.resp }) (fun _ => False) s t)) ∧
    (∀ x, bitOf v 31 = true → s.dev.now + 20000 + (s.dev.rd Reg.SPAN).toNat ≤ cenStaged s.dev → fld v 23 16 &&& s.dev.fld Reg.CEN_GROUPS 7 0 ≠ 0 →
      s.dev.herd.cens = [x] → x.t = cenStaged s.dev →
      Gives (.censusRequest v) s (fun t => t.dev.herd.cens =
          [{ (if devIndex s.dev < x.origin then { t := x.t, id := fld v 15 0, origin := devIndex s.dev } else x) with merged := true }] ∧
        Leaves (fun d e => { d with regs := e.regs, herd := { d.herd with queue := e.herd.queue, cens := e.herd.cens }, resp := e.resp })
          (· = Reg.CEN_STATUS) s t))) ∧
  (∀ (s : State) (v : Word), bitOf v 31 = true → s.dev.now + 20000 + (s.dev.rd Reg.SPAN).toNat ≤ cenStaged s.dev →
    fld v 23 16 &&& s.dev.fld Reg.CEN_GROUPS 7 0 ≠ 0 → (∀ x ∈ s.dev.herd.cens, x.t ≠ cenStaged s.dev) → s.dev.herd.cens.length < 4 →
    Gives (.censusRequest v) s (fun t =>
      t.dev.herd.cens = cenInsert { t := cenStaged s.dev, id := fld v 15 0, origin := devIndex s.dev } s.dev.herd.cens ∧
      t.dev.fld Reg.CEN_STATUS 5 3 = s.dev.herd.cens.length + 1 ∧ t.dev.resp = .ok 0 ∧
      (bitOf v 24 = true → ringless s.dev = false → s.dev.herd.queue.length < 16 →
        ∃ e, t.dev.herd.queue = s.dev.herd.queue ++ [e] ∧ e.cue = false) ∧
      Leaves (fun d e => { d with regs := e.regs, herd := { d.herd with queue := e.herd.queue, cens := e.herd.cens }, resp := e.resp })
        (· = Reg.CEN_STATUS) s t)) ∧
  (∀ (s : State) (c : Census) (l : List Census), s.dev.herd.cens = c :: l → s.dev.bit Reg.CEN_STATUS (1 - s.dev.fld Reg.CEN_STATUS 2 2) = false →
    s.dev.herd.fill = none → s.dev.now ≤ c.t → c.t < 2 ^ 64 →
    Gives .censusLatch s (fun t => t.dev.now = c.t ∧ t.dev.herd = { s.dev.herd with
        cens := l, fill := some (1 - s.dev.fld Reg.CEN_STATUS 2 2, bankWords s.dev c) } ∧
      t.dev.fld Reg.CEN_STATUS 5 3 = l.length % 8 ∧ (∀ m < 256, (t.dev.meter m).peak = 0) ∧
      Leaves (fun d e => { d with regs := e.regs, herd := e.herd, au := { d.au with meters := e.au.meters }, ht := e.ht, clk := e.clk })
        (· = Reg.CEN_STATUS) s t)) ∧
  (∀ (s : State) (c : Census) (l : List Census), s.dev.herd.cens = c :: l →
    s.dev.bit Reg.CEN_STATUS (1 - s.dev.fld Reg.CEN_STATUS 2 2) = true ∨ s.dev.herd.fill ≠ none →
    Gives .censusLatch s (fun t => t.dev.herd = { s.dev.herd with cens := l } ∧ t.dev.fld Reg.CEN_STATUS 10 8 = 1 ∧ t.dev.bit Reg.HERD_FLAGS 7 = true ∧
      (t.dev.rd Reg.CEN_SKIPS).toNat = min ((s.dev.rd Reg.CEN_SKIPS).toNat + 1) 0xFFFFFFFF ∧
      Leaves (fun d e => { d with regs := e.regs, herd := e.herd, ht := e.ht, clk := e.clk })
        (fun o => o = Reg.CEN_STATUS ∨ o = Reg.HERD_FLAGS ∨ o = Reg.CEN_SKIPS) s t)) ∧
  (∀ (s : State) (b : Nat) (w : Store Word), s.dev.herd.fill = some (b, w) → b < 2 →
    Gives .censusBankFilled s (fun t => (∀ k < 0x1000, t.dev.rd (0x68000 + b * 0x4000 + 4 * k) = Store.get (fun _ => 0) w (4 * k)) ∧
      t.dev.bit Reg.CEN_STATUS b = true ∧ t.dev.fld Reg.CEN_STATUS 2 2 = b ∧ t.dev.bit Reg.HERD_FLAGS 6 = true ∧
      t.dev.herd = { s.dev.herd with fill := none } ∧ SameMem s t ∧ t.pending = s.pending)) ∧
  (∀ (s : State) (v : Word), Gives (.cenRelease v) s (fun t => t.dev.rd Reg.CEN_STATUS = s.dev.rd Reg.CEN_STATUS &&& ~~~ (v &&& 3) ∧
    t.dev.resp = .ok 0 ∧ OnlyRegs (· = Reg.CEN_STATUS) s t))

/-! ### Images and re-pens (chapters 2 and 3) -/

/-- R62 to R65, R67, R78, R98: the loader chooses its slot; an image whose header passes is read into the staging area; one that a rule
refuses gives its code and the load restarts or halts, and an exit from deep standby becomes a full boot; an accepted image is applied, and
LOADED sets once the rail has reached the twin floor. A staged image is checked, its slot is erased and written; the keep-backed registers of
the page take their writes, stop at the rate of R479, or refuse their values. Steps that do not fall due change nothing, and a requester
without Keeper privilege is denied.
Clauses that rest on a choice or reading of the model: log entries 15, 21, 23, 24, 25, 26, 27, 28, 39, 40, 54, 121. -/
def Obligations.ImagesLoadAndProgram : Prop :=
  (∀ (s : State) (bad : Bool), s.dev.pw.boot = 5 → s.dev.ld.phase = 0 → s.dev.bit Reg.IMAGE_STATUS 5 = false → s.dev.pw.kind ≠ 3 →
    Gives (.loadStart bad) s (fun t => t.dev.ld = { s.dev.ld with phase := 1, slot := bootSlot bad s.dev, recs := [] } ∧
      t.dev.pw = { s.dev.pw with boot := 6 } ∧ t.dev.bit Reg.IMAGE_STATUS 1 = (bootSlot bad s.dev == 2 && (bad || slotSel s.dev != 2)) ∧
      failCount t.dev = (if bootSlot bad s.dev = 2 then failCount s.dev else failCount s.dev + 1) ∧
      Leaves (fun d e => { d with regs := e.regs, ld := e.ld, pw := e.pw, keep := { d.keep with wear := e.keep.wear } })
        (fun o => o = Reg.IMAGE_STATUS ∨ o = Reg.SLOT_CTRL ∨ LogReg o) s t)) ∧
  (∀ (s : State) (bad : Bool), s.dev.pw.boot = 5 → s.dev.ld.phase = 0 → s.dev.bit Reg.IMAGE_STATUS 5 = false → s.dev.pw.kind = 3 →
    Gives (.loadStart bad) s (fun t => t.dev.ld = { s.dev.ld with phase := 1, slot := s.dev.pw.slot, recs := [] } ∧
      t.dev.pw = { s.dev.pw with boot := 6 } ∧
      Leaves (fun d e => { d with regs := e.regs, ld := e.ld, pw := e.pw }) (· = Reg.IMAGE_STATUS) s t)) ∧
  (∀ (s : State) (bad : Bool), s.dev.pw.boot ≠ 5 ∨ s.dev.ld.phase ≠ 0 ∨ s.dev.bit Reg.IMAGE_STATUS 5 = true →
    Gives (.loadStart bad) s (fun t => t = s)) ∧
  (∀ (s : State) (bad : Bool) (len : Nat), s.dev.ld.phase = 1 → len = u32At (slotBytes s s.dev.ld.slot 0 64) 8 →
    (∀ recs, checkImage s.dev none (slotBytes s s.dev.ld.slot) = (none, recs) → (s.dev.pw.kind = 3 → w32 (serialOf recs) = s.dev.pw.serial) →
      Gives (.loadCheckDone bad) s (fun t => t.dev.ld = { s.dev.ld with phase := 2, recs := recs } ∧
        (∀ k < len, t.byteAt (stagingArea + k) = (slotBytes s s.dev.ld.slot 0 len).getD k 0) ∧
        Stores (fun d e => { d with regs := e.regs, ld := e.ld, cks := e.cks }) (· = Reg.ERR_INJECT_HI) stagingArea len s t)) ∧
    (∀ r recs, checkImage s.dev none (slotBytes s s.dev.ld.slot) = (r, recs) → s.dev.pw.kind = 3 →
      r ≠ none ∨ w32 (serialOf recs) ≠ s.dev.pw.serial →
      Gives (.loadCheckDone bad) s (fun t => t.dev.pw = { s.dev.pw with kind := 0, deep := [] } ∧
        t.dev.ld = { s.dev.ld with slot := bootSlot bad s.dev, recs := [] } ∧
        failCount t.dev = (if bootSlot bad s.dev = 2 then failCount s.dev else failCount s.dev + 1) ∧
        t.dev.bit Reg.IMAGE_STATUS 1 = (bootSlot bad s.dev == 2 && (bad || slotSel s.dev != 2)))) ∧
    (∀ code n recs, checkImage s.dev none (slotBytes s s.dev.ld.slot) = (some (code, n), recs) → s.dev.pw.kind ≠ 3 →
      Gives (.loadCheckDone bad) s (fun t => ((headerCheck s.dev none (slotBytes s s.dev.ld.slot 0 64)).isSome = true → SameMem s t) ∧
        t.dev.fld Reg.IMAGE_STATUS 15 8 = code % 256 ∧ t.dev.fld Reg.IMAGE_STATUS 31 16 = n % 65536 ∧
        (if s.dev.ld.slot = 2 then t.dev.ld = { s.dev.ld with phase := 0 } ∧ t.dev.bit Reg.IMAGE_STATUS 5 = true
        else t.dev.ld = { s.dev.ld with slot := bootSlot bad s.dev, recs := [] } ∧
          failCount t.dev = (if bootSlot bad s.dev = 2 then failCount s.dev else failCount s.dev + 1)) ∧
        Stores (fun d e => { d with regs := e.regs, ld := e.ld, cks := e.cks, keep := { d.keep with wear := e.keep.wear } })
          (fun o => o = Reg.IMAGE_STATUS ∨ o = Reg.SLOT_CTRL ∨ o = Reg.ERR_INJECT_HI ∨ LogReg o) stagingArea len s t))) ∧
  (∀ (s : State) (bad : Bool), s.dev.ld.phase ≠ 1 → Gives (.loadCheckDone bad) s (fun t => t = s)) ∧
  (∀ s : State, s.dev.ld.phase ≠ 2 ∧ s.dev.ld.phase ≠ 4 ∨ s.dev.pw.kind = 3 ∨
    s.dev.ld.phase = 4 ∧ railLevel s.dev < railFloor s.dev → Gives .loadDone s (fun t => t = s)) ∧
  (∀ s : State, s.dev.ld.phase = 2 ∨ s.dev.ld.phase = 4 → s.dev.pw.kind ≠ 3 →
    Gives .loadDone s (fun t => (s.dev.ld.phase = 2 → t.dev.ld.journal = none) ∧
      (if railLevel (applyOnce s).dev < railFloor (applyOnce s).dev then t.dev.ld.phase = 4 ∧
        (s.dev.ld.phase = 2 → t.dev.ld.serial = w32 (serialOf t.dev.ld.recs))
      else t.dev.bit Reg.IMAGE_STATUS 0 = true ∧ t.dev.fld Reg.IMAGE_STATUS 3 2 = t.dev.ld.slot % 4 ∧ t.dev.ld.phase = 3 ∧
        t.dev.rd Reg.IMAGE_SERIAL = w32 (serialOf t.dev.ld.recs) ∧ t.dev.rd Reg.GLOBAL_GEN = 1 ∧ t.dev.pw.boot = 7 ∧
        t.dev.pw.wdt = some t.dev.clk) ∧ t.pending = s.pending)) ∧
  (∀ (s : State) (q : Req), s.dev.keeper q = true → s.dev.bit Reg.STAGE_STATUS 0 = false →
    Gives (.verify q) s (fun t => t.dev.ld.stage = some { cmd := 1, code := (stageCheck s).1.1, record := (stageCheck s).1.2, data := [] } ∧
      t.dev.bit Reg.STAGE_STATUS 0 = true ∧ t.dev.resp = .ok 0 ∧ SameBytes s t) ∧
    ∀ (c : Nat) (i : Instr), (c, i) ∈ [(2, .programA q), (3, .programB q), (4, .programGolden q)] →
      (c = 4 → s.dev.bit Reg.SLOT_CTRL 4 = true → Gives i s (fun t => t.dev.ld.stage = some { cmd := 4, code := 0x21, record := 0, data := [] } ∧
        t.dev.bit Reg.STAGE_STATUS 0 = true ∧ t.dev.resp = .ok 0 ∧ SameMem s t ∧ t.pending = s.pending)) ∧
      ((c = 4 → s.dev.bit Reg.SLOT_CTRL 4 = false) → (stageCheck s).1.1 ≠ 0 →
        Gives i s (fun t => t.dev.ld.stage = some { cmd := c, code := (stageCheck s).1.1, record := (stageCheck s).1.2, data := [] } ∧
          t.dev.bit Reg.STAGE_STATUS 0 = true ∧ t.dev.resp = .ok 0 ∧ SameBytes s t)) ∧
      ((c = 4 → s.dev.bit Reg.SLOT_CTRL 4 = false) → (stageCheck s).1.1 = 0 →
      Gives i s (fun t => t.dev.ld.stage = some { cmd := c, code := 0, record := (stageCheck s).1.2, data := (stageCheck s).2.1 } ∧
        t.dev.bit Reg.STAGE_STATUS 0 = true ∧ t.dev.resp = .ok 0 ∧ t.mem.bytes = s.mem.bytes ∧ t.mem.tcm = s.mem.tcm ∧ t.pending = s.pending ∧
        ∀ a, Store.get (fun _ => 0xFF) t.mem.flash a =
          if slotBase (c - 2) ≤ a ∧ a < slotBase (c - 2) + 0x1000000 then 0xFF else Store.get (fun _ => 0xFF) s.mem.flash a))) ∧
  (∀ (s : State) (q : Req) (i : Instr), i ∈ [.verify q, .programA q, .programB q, .programGolden q] → s.dev.keeper q = true →
    s.dev.bit Reg.STAGE_STATUS 0 = true → Gives i s (fun t => t = s.upd Dev.okay)) ∧
  (∀ (s : State) (bad : Bool), s.dev.ld.stage = none → Gives (.stageCmdDone bad) s (fun t => t = s)) ∧
  (∀ (s : State) (bad : Bool) (c : StageCmd), s.dev.ld.stage = some c →
    Gives (.stageCmdDone bad) s (fun t => t.dev.ld = { s.dev.ld with stage := none } ∧ t.dev.bit Reg.STAGE_STATUS 0 = false ∧
      (if c.cmd ≠ 1 ∧ c.code = 0 then
        (∀ k < c.data.length, Store.get (fun _ => 0xFF) t.mem.flash (slotBase (progSlot c.cmd) + k) = c.data.getD k 0) ∧
        (∀ a, a < slotBase (progSlot c.cmd) ∨ slotBase (progSlot c.cmd) + c.data.length ≤ a →
          Store.get (fun _ => 0xFF) t.mem.flash a = Store.get (fun _ => 0xFF) s.mem.flash a) ∧
        t.dev.fld Reg.STAGE_STATUS 15 8 = (if bad then 0x20 else 0) ∧ t.dev.bit Reg.STAGE_STATUS (if bad then 2 else 1) = true
      else t.mem.flash = s.mem.flash ∧ t.dev.fld Reg.STAGE_STATUS 15 8 = c.code % 256 ∧
        t.dev.bit Reg.STAGE_STATUS (if c.code = 0 then 1 else 2) = true) ∧
      t.dev.fld Reg.STAGE_STATUS 31 16 = c.record % 65536 ∧ t.mem.bytes = s.mem.bytes ∧ t.mem.tcm = s.mem.tcm ∧ t.pending = s.pending ∧
      ∀ o, o ≠ Reg.STAGE_STATUS → t.dev.rd o = s.dev.rd o)) ∧
  (∀ (s : State) (q : Req) (v : Word), s.dev.keeper q = true →
    (bitOf v 0 = true → Gives (.bootOk q v) s (fun t => t.dev.pw = { s.dev.pw with wdt := none } ∧ t.dev.resp = .ok 0 ∧
      failCount t.dev = (if s.dev.bit Reg.IMAGE_STATUS 1 = true then failCount s.dev else 0) ∧
      Leaves (fun d e => { d with regs := e.regs, pw := e.pw, keep := { d.keep with wear := e.keep.wear }, resp := e.resp })
        (fun o => o = Reg.SLOT_CTRL ∨ LogReg o) s t)) ∧
    (fld v 1 0 ≠ 3 → (s.dev.bit Reg.SLOT_CTRL 4 = true → bitOf v 4 = true) → (∀ k < 2, rateOf s.dev (keyOfReg Reg.SLOT_CTRL + k) < 16) →
      Gives (.slotCtrlWrite q v) s (fun t => slotSel t.dev = fld v 1 0 ∧ t.dev.bit Reg.SLOT_CTRL 4 = bitOf v 4 ∧ failCount t.dev = 0 ∧
        t.dev.resp = .ok 0 ∧
        Leaves (fun d e => { d with
            regs := e.regs, resp := e.resp,
            keep := { d.keep with wear := e.keep.wear, rate := e.keep.rate, rateSec := e.keep.rateSec, commits := e.keep.commits } })
          (fun o => o = Reg.SLOT_CTRL ∨ LogReg o) s t)) ∧
    (∀ (i : Instr) (o : Nat) (w : Word),
      (i = .minSerialWrite q v ∧ o = Reg.MIN_SERIAL ∧ w = v ∧ s.dev.rd Reg.MIN_SERIAL ≤ v ∧ v ≤ s.dev.rd Reg.IMAGE_SERIAL ∨
        i = .keyRevokeWrite q v ∧ o = Reg.KEY_REVOKE ∧ w = s.dev.rd Reg.KEY_REVOKE ||| (v &&& 0xF) ∧
          ∃ k < 4, provisioned s.dev k = true ∧ bitOf w k = false) →
      (rateOf s.dev (keyOfReg o) < 16 → Gives i s (fun t => t.dev.rd o = w ∧ t.dev.resp = .ok 0 ∧
        Leaves (fun d e => { d with
            regs := e.regs, resp := e.resp,
            keep := { d.keep with wear := e.keep.wear, rate := e.keep.rate, rateSec := e.keep.rateSec, commits := e.keep.commits } })
          (fun x => x = o ∨ LogReg x) s t)) ∧
      (16 ≤ rateOf s.dev (keyOfReg o) → s.dev.rd o ≠ w → Gives i s (fun t => t.dev.rd o = s.dev.rd o ∧ t.dev.bit Reg.KEEP_FLAGS 1 = true ∧
        t.dev.rd Reg.RATE_ADDR = keepAddrWord (keyOfReg o) ∧ t.dev.resp = .ok 0 ∧
        OnlyRegs (fun x => x = Reg.KEEP_FLAGS ∨ x = Reg.RATE_ADDR) s t))) ∧
    (∀ i : Instr, (i = .bootOk q v ∧ bitOf v 0 = false ∨
        i = .slotCtrlWrite q v ∧ (fld v 1 0 = 3 ∨ s.dev.bit Reg.SLOT_CTRL 4 = true ∧ bitOf v 4 = false) ∨
        i = .minSerialWrite q v ∧ (v < s.dev.rd Reg.MIN_SERIAL ∨ s.dev.rd Reg.IMAGE_SERIAL < v) ∨
        i = .keyRevokeWrite q v ∧ (∀ k < 4, provisioned s.dev k = true → bitOf (s.dev.rd Reg.KEY_REVOKE ||| (v &&& 0xF)) k = true) ∨
        ∃ k j, i = .keyHashWrite q k j v ∧ provisioned s.dev k = true) →
      Gives i s (fun t => t = s.upd Dev.okay))) ∧
  (∀ (s : State) (q : Req) (k : Fin 4) (j : Fin 12) (v : Word), s.dev.keeper q = true → provisioned s.dev k = false →
    Gives (.keyHashWrite q k j v) s (fun t => t.dev.resp = .ok 0 ∧
      (if j.val < 11 then Store.get (fun _ => 0) t.dev.keep.keyHeld (16 * k + j) = v ∧ t.dev.regs = s.dev.regs
      else t.dev.rd (Reg.KEY_HASH k 11) = v ∧ ∀ n < 11, t.dev.rd (Reg.KEY_HASH k n) = Store.get (fun _ => 0) s.dev.keep.keyHeld (16 * k + n)) ∧
      Leaves (fun d e => { d with regs := e.regs, keep := { d.keep with wear := e.keep.wear, keyHeld := e.keep.keyHeld }, resp := e.resp })
        (fun o => (∃ n < 12, o = Reg.KEY_HASH k n) ∨ LogReg o) s t)) ∧
  (∀ (s : State) (q : Req) (k : Fin 4) (j : Fin 12) (v : Word), s.dev.keeper q = false →
    ∀ i ∈ [Instr.verify q, .programA q, .programB q, .programGolden q, .bootOk q v, .slotCtrlWrite q v, .minSerialWrite q v, .keyRevokeWrite q v,
      .keyHashWrite q k j v], Gives i s (fun t => t = s.upd Dev.deny))

/-- R71 to R76, R99, R101, R602: a re-pen request that R72 accepts sets BUSY and the journal, one during a takeover waits, any other is refused
with its cause; the flock goes blank at the next line start and its staged writes are discarded; its config store takes the layout; its cells
load their entries and take the stamp, and a post without a cell takes the spare; a cell that misses the probe leaves for the spare, or stays
transparent; and the slots return no sooner than 3 line periods later. A step that does not fall due changes nothing.
Clauses that rest on a choice or reading of the model: log entries 15, 30, 32, 57, 128. -/
def Obligations.RepensGoStepByStep : Prop :=
  (∀ (s : State) (q : Req) (v : Word) (f : Nat), s.dev.keeper q = true → bitOf v 31 = true → repenFlock v s.dev = some f →
    f < 16 → repenBusy s.dev = false → (s.dev.flock f).repen = none → (s.dev.flock f).takeover = none →
    Gives (.repenRequest q v) s (fun t => t.dev.resp = .ok 0 ∧ t.dev.fld Reg.REPEN_STATUS 31 16 = fld v 15 0 ∧
      t.dev.fld Reg.REPEN_STATUS 7 4 = f % 16 ∧
      (if repenCause f (fld v 15 0) s.dev = 0 then t.dev.bit Reg.REPEN_STATUS 0 = true ∧ t.dev.bit (Reg.FLOCK_STATUS f) 10 = true ∧
        t.dev.ld.journal = some (f, fld v 15 0) ∧
        t.dev.fld (Reg.FLOCK_STATUS f) 15 12 = 15 ∧ (t.dev.flock f).probing = false ∧ (t.dev.flock f).handoff = none ∧
        (t.dev.flock f).repen =
          some { step := 1, variant := fld v 15 0, align := bitOf v 24, since := s.dev.clk, seq := (s.dev.head (flockHead s.dev f)).seq }
      else t.dev.bit Reg.REPEN_STATUS 2 = true ∧ t.dev.fld Reg.REPEN_STATUS 15 8 = repenCause f (fld v 15 0) s.dev ∧
        (t.dev.flock f).repen = none ∧ t.dev.ld = s.dev.ld) ∧ SameMem s t ∧ t.pending = s.pending)) ∧
  (∀ (s : State) (q : Req) (v : Word), (s.dev.keeper q = false → Gives (.repenRequest q v) s (fun t => t = s.upd Dev.deny)) ∧
    (s.dev.keeper q = true → bitOf v 31 = false → Gives (.repenRequest q v) s (fun t => t = s.upd Dev.okay)) ∧
    (∀ c, s.dev.keeper q = true → bitOf v 31 = true →
      (repenFlock v s.dev = none ∧ c = (if repenBusy s.dev then 1 else 2) ∨
        (∃ f < 16, repenFlock v s.dev = some f ∧ (repenBusy s.dev = true ∨ (s.dev.flock f).repen ≠ none)) ∧ c = 1) →
      Gives (.repenRequest q v) s (fun t => t.dev.resp = .ok 0 ∧ t.dev.bit Reg.REPEN_STATUS 2 = true ∧ t.dev.fld Reg.REPEN_STATUS 15 8 = c ∧
        t.dev.fld Reg.REPEN_STATUS 31 16 = fld v 15 0 ∧ OnlyRegs (· = Reg.REPEN_STATUS) s t)) ∧
    (∀ f < 16, s.dev.keeper q = true → bitOf v 31 = true → repenFlock v s.dev = some f → repenBusy s.dev = false →
      (s.dev.flock f).repen = none → (s.dev.flock f).takeover ≠ none →
      Gives (.repenRequest q v) s (fun t => t.dev.resp = .ok 0 ∧ t.dev.flock f = { s.dev.flock f with
          repen := some { step := 0, variant := fld v 15 0, align := bitOf v 24, since := s.dev.clk } } ∧
        (∀ g, g ≠ f → t.dev.flock g = s.dev.flock g) ∧ t.dev.fld Reg.REPEN_STATUS 31 16 = fld v 15 0 ∧ t.dev.fld Reg.REPEN_STATUS 7 4 = f ∧
        Leaves (fun d e => { d with regs := e.regs, flocks := e.flocks, resp := e.resp }) (· = Reg.REPEN_STATUS) s t))) ∧
  (∀ s : State, (∀ f r, repenAt s.dev 1 = some (f, r) → frameCame s.dev f r = false) → Gives .repenBlank s (fun t => t = s)) ∧
  (∀ s : State, repenAt s.dev 2 = none → Gives .repenStoreRewritten s (fun t => t = s)) ∧
  (∀ (s : State) (lost : List Nat), repenAt s.dev 3 = none → Gives (.repenCellsLoaded lost) s (fun t => t = s)) ∧
  (∀ (s : State) (bad : List Nat) (spareOk : Bool), repenAt s.dev 4 = none → Gives (.repenProbeDone bad spareOk) s (fun t => t = s)) ∧
  (∀ s : State, (∀ f r, repenAt s.dev 5 = some (f, r) →
      frameCame s.dev f r = false ∨ railLevel s.dev < railFloor s.dev ∨ (s.dev.flock f).takeover ≠ none) →
    Gives .repenRejoin s (fun t => t = s)) ∧
  (∀ (s : State) (f : Nat) (r : Repen), repenAt s.dev 1 = some (f, r) → frameCame s.dev f r = true →
    Gives .repenBlank s (fun t => (t.dev.flock f).repen.map (·.step) = some 2 ∧
      (∀ p < 8, (t.dev.cell f p).staged = [] ∧ (t.dev.cell f p).bufs = [] ∧ t.dev.rd (Reg.CELL_GEN f p) = 0 ∧
        t.dev.bit (Reg.CELL_STATUS f p) 13 = false) ∧ (r.align = true → t.dev.clk = s.dev.clk) ∧
      (∀ h m, r.align = false → headScans s.dev f = true → h = flockHead s.dev f → m = modeOf s.dev h → (s.dev.head h).relocked = false →
        pixelsRun s.dev h + 16 < (m.vTot - 2) * m.hTot → s.dev.clk < t.dev.clk ∧ (∃ n, t.dev.clk = lineStartClk s.dev h n) ∧
        ∀ n < m.vTot, s.dev.clk < lineStartClk s.dev h n → t.dev.clk ≤ lineStartClk s.dev h n) ∧
      Leaves (fun d e => { d with regs := e.regs, flocks := e.flocks, cells := e.cells, ht := e.ht, clk := e.clk })
        (fun o => o = Reg.LS_DROPS (flockHead s.dev f) ∨ ∃ p < 8, o = Reg.CELL_GEN f p ∨ o = Reg.CELL_STATUS f p) s t)) ∧
  (∀ (s : State) (f : Nat) (r : Repen), repenAt s.dev 2 = some (f, r) →
    Gives .repenStoreRewritten s (fun t => (t.dev.flock f).repen = some { r with step := 3 } ∧
      (t.dev.flock f).seed = w32 (u32At (layoutFlock s.dev.ld.recs f r.variant) 4) ∧
      (t.dev.flock f).crc = w32 (u32At (layoutFlock s.dev.ld.recs f r.variant) 8) ∧
      (t.dev.flock f).len = u16At (layoutFlock s.dev.ld.recs f r.variant) 0xC ∧
      (∀ p < 8, kindOf t.dev f p = ((flockKinds (layoutFlock s.dev.ld.recs f r.variant)).getD p (0, 0)).1 % 8) ∧
      (∀ g, g ≠ f → t.dev.flock g = s.dev.flock g) ∧ SameMem s t ∧ t.pending = s.pending)) ∧
  (∀ (s : State) (f : Nat) (r : Repen) (lost : List Nat), repenAt s.dev 3 = some (f, r) →
    Gives (.repenCellsLoaded lost) s (fun t => (t.dev.flock f).repen = some { r with step := 4 } ∧
      (∀ p < 8, postCell t.dev f p ≠ 15 → t.dev.rd (Reg.CELL_GEN f p) = s.dev.rd Reg.GLOBAL_GEN) ∧
      (∀ p < 8, p ∈ lost → t.dev.bit (Reg.FLOCK_IRQ f) 3 = true ∧ t.dev.bit Reg.MEM_FLAGS 1 = true) ∧
      (∀ p < 8, lost = [] → kindOf s.dev f p ≠ 0 → postCell s.dev f p = 15 → (∀ q < p, kindOf s.dev f q = 0 ∨ postCell s.dev f q ≠ 15) →
        spareCell s.dev f ≠ 15 → (s.dev.flock f).takeover = none → underTakeover s.dev f p = false →
        postCell t.dev f p = spareCell s.dev f ∧ t.dev.bit (Reg.NOCELL (f / 4)) (8 * (f % 4) + p) = false ∧
        t.dev.bit (Reg.FLOCK_IRQ f) 3 = true ∧ ((s.dev.flock f).ready = [] → spareCell t.dev f = 15)) ∧
      (lost = [] → (∀ p < 8, kindOf s.dev f p = 0 ∨ postCell s.dev f p ≠ 15) →
        Leaves (fun d e => { d with regs := e.regs, flocks := e.flocks })
          (fun o => ∃ p < 8, postCell s.dev f p ≠ 15 ∧ o = Reg.CELL_GEN f p) s t) ∧ SameMem s t ∧ t.pending = s.pending)) ∧
  (∀ (s : State) (f : Nat) (r : Repen) (bad : List Nat) (spareOk : Bool), repenAt s.dev 4 = some (f, r) →
    Gives (.repenProbeDone bad spareOk) s (fun t => (t.dev.flock f).repen.map (·.step) = some 5 ∧
      (bad = [] → probeGood s.dev f = true →
        Leaves (fun d e => { d with flocks := e.flocks, cells := e.cells }) (fun _ => False) s t) ∧
      (∀ p < 8, bad = [p] → probeGood s.dev f = true → spareOk = true → kindOf s.dev f p ≠ 0 → postCell s.dev f p ≠ 15 →
        underTakeover s.dev f p = false → spareCell s.dev f ≠ 15 →
        postCell t.dev f p = spareCell s.dev f ∧ spareCell t.dev f = 15 ∧ postCell s.dev f p ∈ (t.dev.flock f).testing ∧
        t.dev.bit (Reg.FLOCK_IRQ f) 3 = true) ∧
      (∀ p < 8, probeGood s.dev f = false ∨ p ∈ bad → kindOf s.dev f p ≠ 0 → postCell s.dev f p ≠ 15 →
        underTakeover s.dev f p = false → spareCell s.dev f = 15 →
        t.dev.rd (Reg.CELL_GEN f p) = 0 ∧ t.dev.bit (Reg.CELL_STATUS f p) 13 = false ∧ t.dev.bit Reg.REPEN_STATUS 3 = true ∧
        t.dev.bit (Reg.FLOCK_STATUS f) 9 = true ∧ postCell s.dev f p ∈ (t.dev.flock f).testing) ∧
      SameMem s t ∧ t.pending = s.pending)) ∧
  (∀ (s : State) (f : Nat) (r : Repen), repenAt s.dev 5 = some (f, r) → frameCame s.dev f r = true → railFloor s.dev ≤ railLevel s.dev →
    (s.dev.flock f).takeover = none →
    Gives .repenRejoin s (fun t => (t.dev.flock f).repen = none ∧ t.dev.bit (Reg.FLOCK_STATUS f) 10 = false ∧ t.dev.ld.journal = none ∧
      t.dev.bit Reg.REPEN_STATUS 0 = false ∧ t.dev.bit Reg.REPEN_STATUS 1 = true ∧ t.dev.rd (Reg.PEN_VARIANT f) = w32 r.variant ∧
      (∀ p < 8, kindOf s.dev f p ≠ 0 → postCell s.dev f p ≠ 15 → underTakeover s.dev f p = false →
        t.dev.rd (Reg.CELL_GEN f p) = s.dev.rd Reg.GLOBAL_GEN ∧ t.dev.bit (Reg.CELL_STATUS f p) 13 = true) ∧
      (r.align = false → headScans s.dev f = true → ∀ m, m = modeOf s.dev (flockHead s.dev f) →
        3 * m.pn ≤ (t.dev.clk + 1 - r.since) * (m.pd * m.vTot)) ∧
      (flockHead s.dev f < 8 → ∀ n < 32, ∀ e,
        e = (replaceSlots f (layoutSlots s.dev.ld.recs f r.variant) (slotsNow s.dev (flockHead s.dev f))).getD n (255, 0, 0, false) →
        e.1 < 256 → e.2.1 < 8 → e.2.2.1 < 2 → slotNow t.dev (flockHead s.dev f) n = e) ∧ SameMem s t ∧ t.pending = s.pending))
/-! ### Power states, resets and boot (chapter 24) -/

/-- R556 to R563, R98, R338, R468: PWR_CMD acts or is refused with its cause; the steps of standby and deep standby, their returns, which wait
for the rail to reach the twin floor, and their time-outs. A step that does not fall due changes nothing.
Clauses that rest on a choice or reading of the model: log entries 18, 39, 46, 48, 111. -/
def Obligations.PowerStatesFollowTheirSteps : Prop :=
  (∀ (s : State) (q : Req), pwrMay q s.dev = true →
    (s.dev.pwr = 2 → Gives (.pwrRun q) s (fun t => t.dev.pwr = 3 ∧ t.dev.pw = { s.dev.pw with since := s.dev.clk } ∧ t.dev.resp = .ok 0 ∧
      Leaves (fun d e => { d with regs := e.regs, pw := e.pw, resp := e.resp }) (· = Reg.PWR_STATUS) s t)) ∧
    (s.dev.pwr = 0 → Gives (.pwrRun q) s (fun t => t.dev = s.dev.okay ∧ SameMem s t ∧ t.pending = s.pending)) ∧
    (s.dev.pwr = 0 → pwrBusy s.dev = 0 → ∀ i ∈ [Instr.pwrStandby q, .pwrDeep q],
      Gives i s (fun t => t.dev.pwr = (if i = .pwrDeep q then 4 else 1) ∧ t.dev.resp = .ok 0 ∧
        (∀ h < 8, (headState s.dev h = 1 ∨ headState s.dev h = 2 → headState t.dev h = 5) ∧
          (headState s.dev h = 3 ∨ headState s.dev h = 4 → headState t.dev h = 5 ∨ (t.dev.head h).stop = 2)) ∧
        (i = .pwrDeep q → drvState t.dev = 0 ∧ t.dev.drv.session = none) ∧ SameMem s t ∧ t.pending = s.pending)) ∧
    (∀ (i : Instr) (c : Nat), (i ∈ [Instr.pwrStandby q, .pwrDeep q] ∧ c = (if s.dev.pwr = 0 then pwrBusy s.dev else 3) ∧ c ≠ 0 ∨
        i = .pwrRun q ∧ c = 3 ∧ s.dev.pwr ≠ 0 ∧ s.dev.pwr ≠ 2) →
      Gives i s (fun t => t.dev.fld Reg.PWR_STATUS 7 4 = c ∧ t.dev.bit Reg.PWR_FLAGS 0 = true ∧ t.dev.pwr = s.dev.pwr ∧ t.dev.resp = .ok 0 ∧
        OnlyRegs (fun o => o = Reg.PWR_STATUS ∨ o = Reg.PWR_FLAGS) s t))) ∧
  (∀ (s : State) (q : Req), pwrMay q s.dev = false → ∀ i ∈ [Instr.pwrRun q, .pwrStandby q, .pwrDeep q],
    Gives i s (fun t => t.dev = s.dev.deny ∧ SameMem s t ∧ t.pending = s.pending)) ∧
  (∀ (s : State) (noRes : List Nat), s.dev.pwr = 1 → headsDown s.dev = true → s.dev.au.runs = false →
    Gives (.standbyEntryDone noRes) s (fun t => t.dev.pwr = 2 ∧ t.dev.rail.pg = false ∧ t.dev.bit Reg.RAIL_STATUS 10 = false ∧ t.dev.keep.wearSaved = s.dev.keep.wear ∧
      (∀ f < 16, ∀ p < 9, t.dev.rd (Reg.CELL_GEN f p) = 0 ∧ t.dev.bit (Reg.CELL_STATUS f p) 13 = false) ∧
      (s.dev.bit Reg.MEM_CFG 16 = true → t.dev.mc.ppr = [] ∧
        t.dev.mc.pprDone = s.dev.mc.pprDone ++ s.dev.mc.ppr.filter (fun p => !noRes.contains p)) ∧ SameMem s t ∧ t.pending = s.pending)) ∧
  (∀ s : State, s.dev.pwr = 3 → s.dev.rail.pg = false →
    Gives .arrayPgRise s (fun t => t.dev.rail.pg = true ∧ (s.dev.rail.request = none → t.dev.rail.request = some 5) ∧
      Leaves (fun d e => { d with regs := e.regs, rail := e.rail }) (· = Reg.RAIL_STATUS) s t) ∧
    Gives .arrayPgTimeout s (fun t => t.dev.pwr = 2 ∧ t.dev.bit Reg.PWR_FLAGS 1 = true ∧ s.dev.pw.since + 50000000 ≤ t.dev.clk ∧
      Leaves (fun d e => { d with regs := e.regs, ht := e.ht, clk := e.clk }) (fun o => o = Reg.PWR_STATUS ∨ o = Reg.PWR_FLAGS) s t)) ∧
  (∀ s : State, s.dev.pwr = 3 → s.dev.rail.pg = true → s.dev.rail.request = none → max 5 (railFloor s.dev) ≤ railLevel s.dev →
    Gives .standbyExitDone s (fun t => t.dev.pwr = 0 ∧ t.dev.rd Reg.AU_GEN = s.dev.rd Reg.GLOBAL_GEN ∧
      t.dev.rd Reg.MULE_GEN = s.dev.rd Reg.GLOBAL_GEN ∧ t.dev.rd Reg.DRV_GEN = s.dev.rd Reg.GLOBAL_GEN ∧
      (∀ n < 32, t.dev.rd (Reg.PCH_GEN n) = s.dev.rd Reg.GLOBAL_GEN) ∧
      (∀ f < 16, ∀ p < 8, postCell s.dev f p ≠ 15 → underTakeover s.dev f p = false → repenBlank s.dev f = false →
        (s.dev.flock f).testing.contains (postCell s.dev f p) = false →
        t.dev.rd (Reg.CELL_GEN f p) = s.dev.rd Reg.GLOBAL_GEN ∧ t.dev.bit (Reg.CELL_STATUS f p) 13 = true) ∧ SameBytes s t)) ∧
  (∀ s : State, (s.dev.pwr ≠ 1 ∨ headsDown s.dev = false ∨ s.dev.au.runs = true →
      ∀ noRes, Gives (.standbyEntryDone noRes) s (fun t => t = s)) ∧
    (s.dev.pwr ≠ 3 ∨ s.dev.rail.pg = true → ∀ i ∈ [Instr.arrayPgRise, .arrayPgTimeout], Gives i s (fun t => t = s)) ∧
    (s.dev.pwr ≠ 3 ∨ s.dev.rail.pg = false ∨ s.dev.rail.request ≠ none ∨ railLevel s.dev < max 5 (railFloor s.dev) →
      Gives .standbyExitDone s (fun t => t = s)) ∧
    (∀ y : Fin 8, s.dev.pwr ≠ 4 ∨ yokeRun s.dev y ∉ [1, 4, 7] ∨ (s.dev.yk y).replay ≠ none ∨ (s.dev.yk y).wait ≠ none ∨ (s.dev.yk y).ld ≠ none ∨
      (s.dev.yk y).tdWait ≠ none → Gives (.deepCheckpoint y) s (fun t => t = s)) ∧
    (s.dev.pwr ≠ 4 ∨ headsDown s.dev = false ∨ s.dev.au.runs = true ∨ (∃ y < 8, yokeRun s.dev y ∈ [1, 2, 3, 4, 7]) →
      Gives .deepEntryDone s (fun t => t = s)) ∧
    (s.dev.pwr ≠ 6 ∨ s.dev.pw.boot ≠ 7 → ∀ i ∈ [Instr.swPgRise, .swPgTimeout], Gives i s (fun t => t = s)) ∧
    (s.dev.tasksAt 0x40 = [] → Gives .wakeTask s (fun t => t = s)) ∧
    (∀ a l, s.dev.tasksAt 0x40 = a :: l → s.dev.inDeep = false → Gives .wakeTask s (fun t => t = s.upd (fun d => d.setTasks 0x40 l))) ∧
    (s.dev.ld.phase ≠ 2 ∧ s.dev.ld.phase ≠ 4 ∨ s.dev.pw.kind ≠ 3 → Gives .deepExitDone s (fun t => t = s))) ∧
  (∀ (s : State) (y : Fin 8), s.dev.pwr = 4 → (yokeRun s.dev y = 1 ∨ yokeRun s.dev y = 4 ∨ yokeRun s.dev y = 7) → (s.dev.yk y).replay = none →
    (s.dev.yk y).wait = none → (s.dev.yk y).ld = none → (s.dev.yk y).tdWait = none →
    Gives (.deepCheckpoint y) s (fun t => t.dev.pw = { s.dev.pw with deep := s.dev.pw.deep ++ [(y.val, (s.dev.yk y).ctx, yokeWins s.dev y)] } ∧
      yokeRun t.dev y = 0 ∧ Leaves (fun d e => { d with regs := e.regs, pw := e.pw }) (· = Reg.YOKE_STATE y) s t)) ∧
  (∀ s : State, s.dev.pwr = 4 → headsDown s.dev = true → s.dev.au.runs = false →
    (∀ y < 8, yokeRun s.dev y ∉ [1, 2, 3, 4, 7]) →
    Gives .deepEntryDone s (fun t => t.dev.pwr = 5 ∧ t.mem = { s.mem with bytes := [], poison := [], err := [] } ∧
      t.dev.keep.wearSaved = s.dev.keep.wear ∧ t.dev.keep.win = s.dev.keep.win ∧ t.dev.pw.slot = s.dev.fld Reg.IMAGE_STATUS 3 2 ∧
      t.dev.pw.serial = s.dev.rd Reg.IMAGE_SERIAL ∧ t.dev.heads = [] ∧ t.dev.drv = {} ∧ t.dev.mule = {} ∧ t.dev.rail.pg = false ∧
      (s.dev.repairs = [] → ∀ u, 1 ≤ u → u < 8 → ∀ c < 4, t.dev.bit (Reg.TM_FLAGS u c) 6 = true) ∧ t.pending = s.pending)) ∧
  (∀ (s : State) (a : Arrival) (l : List Arrival), s.dev.tasksAt 0x40 = a :: l → s.dev.inDeep = true →
    Gives .wakeTask s (fun t => t.dev.pwr = 6 ∧ t.dev.bit Reg.PWR_STATUS 8 = true ∧ t.dev.bit Reg.PWR_STATUS 9 = false ∧
      t.dev.tasksAt 0x40 = l ∧ t.dev.pw = { s.dev.pw with since := s.dev.clk } ∧
      Leaves (fun d e => { d with regs := e.regs, tasks := e.tasks, pw := e.pw }) (· = Reg.PWR_STATUS) s t)) ∧
  (∀ s : State, s.dev.pwr = 6 → s.dev.pw.boot = 7 →
    Gives .swPgRise s (fun t => t.dev.pw = { s.dev.pw with boot := 3, kind := 3 } ∧ t.dev.rail.pg = true ∧
      (s.dev.rail.request = none → t.dev.rail.request = some 5) ∧
      Leaves (fun d e => { d with regs := e.regs, pw := e.pw, rail := e.rail }) (· = Reg.RAIL_STATUS) s t) ∧
    Gives .swPgTimeout s (fun t => t.dev.pwr = 5 ∧ t.dev.bit Reg.PWR_FLAGS 1 = true ∧ s.dev.pw.since + 50000000 ≤ t.dev.clk ∧
      Leaves (fun d e => { d with regs := e.regs, ht := e.ht, clk := e.clk }) (fun o => o = Reg.PWR_STATUS ∨ o = Reg.PWR_FLAGS) s t)) ∧
  (∀ s : State, s.dev.ld.phase = 2 ∨ s.dev.ld.phase = 4 → s.dev.pw.kind = 3 →
    Gives .deepExitDone s (fun t => (if railLevel (applyOnce s).dev < railFloor (applyOnce s).dev then t.dev.ld.phase = 4 ∧
        (s.dev.ld.phase = 4 → t = s)
      else t.dev.pwr = 0 ∧ t.dev.pw.kind = 0 ∧ t.dev.pw.deep = [] ∧ t.dev.pw.boot = 7 ∧ t.dev.ld.phase = 3 ∧ t.dev.bit Reg.PWR_FLAGS 2 = true ∧
        ∀ e ∈ (applyOnce s).dev.pw.deep, yokeOn (applyOnce s).dev e.1 = true →
          ((applyOnce s).dev.pw.deep.filter (fun x => x.1 == e.1)).length = 1 → e.1 < 8 → (t.dev.yk e.1).ctx = e.2.1) ∧
      t.pending = s.pending))

/-- R564 to R569, R281, R580: a reset sets its bit of RESET_CAUSE, and every register that R566 does not keep takes its Reset column value; a
software or watchdog reset keeps herd time, the herd and the locked pins; the steps of the boot; the wait of a head; self-tests of spared units;
THERMTRIPn. A short RESETn pulse, one during a power-on reset, a SW_RESET of another value and a step that does not fall due change nothing.
Clauses that rest on a choice or reading of the model: log entries 34, 45, 46, 47, 49, 96, 115. -/
def Obligations.ResetsAndBootPerform : Prop :=
  (∀ (s : State) (i : Instr) (b : Nat),
    (i = .powerOnReset ∧ b = 0 ∨ i = .aonMonitorTrip ∧ b = 1 ∨ (∃ n ≥ 100, i = .pinReset n ∧ b = 2 ∧ porHeld s.dev = false)) →
    Gives i s (fun t => t.dev.rd Reg.RESET_CAUSE = (if b = 2 then 4 ||| s.dev.rd Reg.RESET_CAUSE else w32 (2 ^ b)) ∧ t.dev.pw.boot = 0 ∧
      t.dev.pw.line = true ∧ t.dev.pw.wdt = none ∧ t.dev.keep.win = s.dev.keep.win ∧ t.dev.keep.meters = s.dev.keep.meters ∧
      t.dev.keep.wear = (if b = 2 then s.dev.keep.wear else s.dev.keep.wearSaved) ∧ t.dev.ht = s.dev.ht ∧ t.dev.clk = s.dev.clk ∧
      t.dev.repairs = s.dev.repairs ∧ t.dev.heads = [] ∧ t.dev.tasks = [] ∧ t.dev.scripts = [] ∧
      (s.dev.repairs = [] → ∀ o, regKept o = false → regPin o = false → o ≠ Reg.RESET_CAUSE → t.dev.rd o = resetWord o) ∧
      (∀ o, regKept o = true → s.dev.repairs = [] → o ≠ Reg.RESET_CAUSE → t.dev.rd o = s.dev.rd o) ∧ SameMem s t ∧ t.pending = s.pending)) ∧
  (∀ (s : State) (n : Nat), n < 100 ∨ porHeld s.dev = true → Gives (.pinReset n) s (fun t => t = s)) ∧
  (∀ (s : State) (q : Req) (v : Word), (s.dev.keeper q = false → Gives (.swReset q v) s (fun t => t = s.upd Dev.deny)) ∧
    (s.dev.keeper q = true → fld v 15 0 ≠ 0x5E7A ∨ s.dev.pw.boot = 0 → Gives (.swReset q v) s (fun t => t = s.upd Dev.okay))) ∧
  (∀ s : State, s.dev.pw.wdt = none ∨ s.dev.fld Reg.BOOT_WDT 11 0 = 0 → Gives .watchdogReset s (fun t => t = s)) ∧
  (∀ (s : State) (i : Instr) (b : Nat),
    ((∃ q v, i = .swReset q v ∧ b = 3 ∧ s.dev.keeper q = true ∧ fld v 15 0 = 0x5E7A ∧ s.dev.pw.boot ≠ 0) ∨
      (∃ c, i = .watchdogReset ∧ b = 4 ∧ s.dev.pw.wdt = some c ∧ s.dev.fld Reg.BOOT_WDT 11 0 ≠ 0)) →
    Gives i s (fun t => (∀ c, b = 4 → s.dev.pw.wdt = some c → c + s.dev.fld Reg.BOOT_WDT 11 0 * 1000000000 ≤ t.dev.clk) ∧
      t.dev.rd Reg.RESET_CAUSE = w32 (2 ^ b) ||| s.dev.rd Reg.RESET_CAUSE ∧ t.dev.pw.boot = 2 ∧ t.dev.pw.wdt = none ∧
      (b = 3 → t.dev.ht = s.dev.ht ∧ t.dev.clk = s.dev.clk) ∧ herdJoined t.dev = herdJoined s.dev ∧
      t.dev.rd Reg.HERD_ID = s.dev.rd Reg.HERD_ID ∧
      (∀ k < 4, t.dev.rd (Reg.GPIO_LOCKED k) = s.dev.rd (Reg.GPIO_LOCKED k) ∧
        t.dev.rd (Reg.GPIO_OUT k) = s.dev.rd (Reg.GPIO_OUT k) &&& s.dev.rd (Reg.GPIO_LOCKED k) ∧
        ∀ n < 32, bitOf (s.dev.rd (Reg.GPIO_LOCKED k)) n = true → t.dev.rd (Reg.PIN_CFG (32 * k + n)) = s.dev.rd (Reg.PIN_CFG (32 * k + n))) ∧
      t.dev.keep.win = s.dev.keep.win ∧ t.dev.heads = [] ∧ t.dev.tasks = [] ∧ SameMem s t ∧ t.pending = s.pending)) ∧
  (∀ s : State, (s.dev.pw.boot = 0 → s.dev.jtag.hold = false → Gives .resetRelease s (fun t => t.mem = s.mem ∧ t.pending = s.pending ∧
      t.dev = { s.dev with pw := { s.dev.pw with line := false, boot := 1 } })) ∧
    (s.dev.pw.boot ≠ 0 ∨ s.dev.jtag.hold = true → Gives .resetRelease s (fun t => t = s.upd (fun d => { d with pw := { d.pw with line := false } }))) ∧
    (s.dev.pw.boot ≠ 1 → Gives .herdClockLock s (fun t => t = s)) ∧
    (s.dev.pw.boot ≠ 3 ∨ s.dev.rail.request ≠ none ∨ railLevel s.dev ≠ 5 → Gives .hbmTrainDone s (fun t => t = s)) ∧
    (s.dev.pw.boot ≠ 4 → Gives .bootZeroFillDone s (fun t => t = s)) ∧
    (s.dev.pw.boot = 1 → Gives .herdClockLock s (fun t => t.mem = s.mem ∧ t.pending = s.pending ∧
      t.dev = { s.dev with ht := 0, pw := { s.dev.pw with boot := 2 } })) ∧
    (s.dev.pw.boot = 3 → s.dev.rail.request = none → railLevel s.dev = 5 → Gives .hbmTrainDone s (fun t => t.mem = s.mem ∧
      t.pending = s.pending ∧ t.dev = { s.dev with pw := { s.dev.pw with boot := 4 } })) ∧
    (s.dev.pw.boot = 4 → Gives .bootZeroFillDone s (fun t => t.dev = { s.dev with pw := { s.dev.pw with boot := 5 } } ∧ t.pending = s.pending ∧
      t.mem.tcm = s.mem.tcm ∧ t.mem.flash = s.mem.flash ∧
      ∀ a, t.byteAt a = if s.dev.pw.kind = 0 ∨ s.dev.pw.kind = 3 ∨ 0x1000800000 ≤ a ∧ a < 0x1001000000 then 0 else s.byteAt a)) ∧
    Gives .thermtrip s (fun t => thermTripLow t.dev = true ∧ t.dev = { s.dev with pw := { s.dev.pw with trip := true } } ∧ t.mem = s.mem ∧
      t.pending = s.pending) ∧
    Gives .thermtripClear s (fun t => thermTripLow t.dev = false ∧ t.dev = { s.dev with pw := { s.dev.pw with trip := false } } ∧ t.mem = s.mem ∧
      t.pending = s.pending)) ∧
  (∀ (s : State) (h : Fin 8), (s.dev.head h).awaitJoin = true →
    Gives (.headJoinWaitTimeout h) s (fun t => (t.dev.head h).awaitJoin = false ∧ (t.dev.head h).ready = true ∧
      (s.dev.head h).startClk + 1000000000 ≤ t.dev.clk ∧
      Leaves (fun d e => { d with heads := e.heads, ht := e.ht, clk := e.clk }) (fun _ => False) s t)) ∧
  (∀ (s : State) (h : Fin 8), (s.dev.head h).awaitJoin = false → Gives (.headJoinWaitTimeout h) s (fun t => t = s)) ∧
  (∀ (s : State) (cls idx : Nat) (pass : Bool), cls < 2 ∨ 6 < cls ∨ s.dev.testing.contains (cls, idx) = false ∧ (cls = 6 → muleLanes s.dev ≠ []) →
    Gives (.unitSelftestDone cls idx pass) s (fun t => t = s)) ∧
  (∀ (s : State) (cls idx : Nat) (pass : Bool), 2 ≤ cls → cls ≤ 6 → idx < 64 → (cls, idx) ∈ s.dev.testing →
    Gives (.unitSelftestDone cls idx pass) s (fun t =>
      (pass = true → s.dev.unit cls idx = 2 → (cls = 6 → muleLanes s.dev ≠ []) → t.dev.unit cls idx = 1) ∧
      (pass = true → cls = 6 → idx < 3 → s.dev.unit 6 idx = 2 → muleLanes t.dev ≠ []) ∧
      (pass = false → t.dev.unit cls idx = 3 ∧ (cls, idx) ∈ t.dev.repairs) ∧ SameMem s t ∧ t.pending = s.pending))
/-! ### The TAP (chapter 24) -/

/-- R570 to R572: each instruction is selected with what its register captures; EXTEST, CLAMP and HIGHZ hold the device in pin reset until
Test-Logic-Reset; a challenge answered once unlocks debug; DBG_ACCESS makes one access as a Keeper, or none, and one outside the map fails;
an entry of the repair map and a meter take what the tool gives, and an absent entry or an invalid digit changes neither.
Clauses that rest on a choice or reading of the model: log entries 41, 42, 43, 44, 46. -/
def Obligations.DebugPortPerforms : Prop :=
  (∀ s : State, Gives .tapReset s (fun t => t.dev.jtag = { s.dev.jtag with ir := 1, dr := 0x18220A5F, hold := false } ∧
      t.dev.pw.boot = (if s.dev.jtag.hold = true ∧ s.dev.pw.boot = 0 ∧ s.dev.pw.line = false then 1 else s.dev.pw.boot) ∧
      Leaves (fun d e => { d with jtag := e.jtag, pw := { d.pw with boot := e.pw.boot } }) (fun _ => False) s t) ∧
    Gives .idcode s (fun t => t = { s with dev := { s.dev with jtag := { s.dev.jtag with ir := 1, dr := 0x18220A5F } } }) ∧
    ∀ (op : Nat) (i : Instr), (op, i) ∈ [(0, Instr.extest), (3, .clamp), (4, .highz)] →
      Gives i s (fun t => t.dev.jtag.ir = op ∧ t.dev.jtag.hold = true ∧ t.dev.pw.line = s.dev.pw.line ∧ SameMem s t ∧ t.pending = s.pending ∧
        (if s.dev.jtag.hold = true ∨ porHeld s.dev = true then t.dev.regs = s.dev.regs ∧ t.dev.pw = s.dev.pw
        else t.dev.pw.boot = 0 ∧ t.dev.rd Reg.RESET_CAUSE = 4 ||| s.dev.rd Reg.RESET_CAUSE ∧ t.dev.keep.win = s.dev.keep.win ∧
          t.dev.heads = []))) ∧
  (∀ (s : State) (pins data : List Byte), Gives (.samplePreload pins data) s (fun t =>
      t = { s with dev := { s.dev with jtag := { s.dev.jtag with ir := 2, dr := 0, sample := pins, preload := data } } })) ∧
  (∀ (s : State) (op : BitVec 8), Gives (.bypass op) s (fun t => t.dev.jtag = { s.dev.jtag with
        ir := if op.toNat ∈ [0, 1, 2, 3, 4, 0x10, 0x11, 0x12, 0x13, 0x14] then 0xFF else op.toNat, dr := 0 } ∧
      Leaves (fun d e => { d with jtag := e.jtag }) (fun _ => False) s t)) ∧
  (∀ (s : State) (op : Nat) (i : Instr), (op = 0x10 ∧ i = .dbgChal ∨ (∃ v, op = 0x11 ∧ i = .dbgUnlock v) ∨ (∃ v, op = 0x12 ∧ i = .dbgAccess v) ∨
      (∃ v, op = 0x13 ∧ i = .dbgMapClear v) ∨ ∃ v, op = 0x14 ∧ i = .dbgMeterSet v) → dbgActs s.dev op = false →
    Gives i s (fun t => t = { s with dev := { s.dev with jtag := { s.dev.jtag with ir := op, dr := 0 } } })) ∧
  (∀ s : State, dbgActs s.dev 0x10 = true →
    Gives .dbgChal s (fun t => t.dev.jtag.ir = 0x10 ∧ t.dev.jtag.chal = some t.dev.jtag.dr ∧ t.dev.jtag.dr < 2 ^ 384 ∧
      t.dev.free = s.dev.free + 12 ∧ Leaves (fun d e => { d with jtag := e.jtag, free := e.free }) (fun _ => False) s t)) ∧
  (∀ (s : State) (v : BitVec 1552) (c : Nat), dbgActs s.dev 0x11 = true → s.dev.jtag.block ≤ s.dev.clk → s.dev.jtag.chal = some c →
    Gives (.dbgUnlock v) s (fun t => t.dev.jtag.chal = none ∧
      (if unlockOk s.dev c v.toNat = true then t.dev.bit Reg.DBG_STATUS 0 = true ∧ t.dev.jtag.block = s.dev.jtag.block
      else t.dev.bit Reg.DBG_STATUS 2 = true ∧ t.dev.bit Reg.DBG_STATUS 0 = s.dev.bit Reg.DBG_STATUS 0 ∧
        t.dev.jtag.block = s.dev.clk + 1000000000) ∧
      Leaves (fun d e => { d with regs := e.regs, jtag := e.jtag }) (· = Reg.DBG_STATUS) s t)) ∧
  (∀ (s : State) (v : BitVec 1552), dbgActs s.dev 0x11 = true → s.dev.jtag.block ≤ s.dev.clk → s.dev.jtag.chal = none →
    Gives (.dbgUnlock v) s (fun t => t.dev.bit Reg.DBG_STATUS 2 = true ∧ t.dev.bit Reg.DBG_STATUS 0 = s.dev.bit Reg.DBG_STATUS 0 ∧
      t.dev.jtag = { s.dev.jtag with ir := 0x11, dr := 0, block := s.dev.clk + 1000000000 } ∧
      Leaves (fun d e => { d with regs := e.regs, jtag := e.jtag }) (· = Reg.DBG_STATUS) s t)) ∧
  (∀ (s : State) (v : BitVec 84) (a : Nat), dbgActs s.dev 0x12 = true → a = v.toNat / 4 % 2 ^ 48 →
    (v.toNat % 4 = 0 ∨ v.toNat % 4 = 3 ∨ peerReading .jtag s.dev = true →
      Gives (.dbgAccess v) s (fun t => t.dev.jtag = { s.dev.jtag with ir := 0x12, dr := t.dev.jtag.dr } ∧
        t.dev.jtag.dr / 2 ^ 50 % 2 ^ 32 = s.dev.jtag.data.toNat ∧ t.dev.jtag.dr / 2 ^ 82 = s.dev.jtag.status ∧
        Leaves (fun d e => { d with jtag := e.jtag, free := e.free }) (fun _ => False) s t)) ∧
    (v.toNat % 4 = 1 ∨ v.toNat % 4 = 2 → peerReading .jtag s.dev = false → sysRegion a 4 = .none →
      Gives (.dbgAccess v) s (fun t => t.dev.jtag.status = 1 ∧ t.dev.jtag.data = 0 ∧ SameMem s t ∧ t.pending = s.pending ∧
        t.dev.regs = s.dev.regs))) ∧
  (∀ (s : State) (v : BitVec 1552), dbgActs s.dev 0x11 = true → s.dev.clk < s.dev.jtag.block →
    Gives (.dbgUnlock v) s (fun t => t = { s with dev := { s.dev with jtag := { s.dev.jtag with ir := 0x11, dr := 0 } } })) ∧
  (∀ (s : State) (v : BitVec 84) (a : Nat), dbgActs s.dev 0x12 = true → peerReading .jtag s.dev = false → a = v.toNat / 4 % 2 ^ 48 →
    memUp s.dev a 4 = true →
    (v.toNat % 4 = 1 → CleanWords s a 4 →
      Gives (.dbgAccess v) s (fun t => t.dev.jtag.status = 0 ∧ t.dev.jtag.data = w32 (leNat ((List.range 4).map (fun k => s.byteAt (a + k)))) ∧
        t.dev.jtag.dr / 2 ^ 50 % 2 ^ 32 = s.dev.jtag.data.toNat ∧ t.dev.jtag.dr / 2 ^ 82 = s.dev.jtag.status ∧ SameBytes s t)) ∧
    (v.toNat % 4 = 2 →
      Gives (.dbgAccess v) s (fun t => t.dev.jtag.status = 0 ∧ (∀ k < 4, t.byteAt (a + k) = BitVec.ofNat 8 (v.toNat / 2 ^ (50 + 8 * k))) ∧
        (∀ k, k < a ∨ a + 4 ≤ k → t.byteAt k = s.byteAt k) ∧ t.dev.jtag.dr / 2 ^ 50 % 2 ^ 32 = s.dev.jtag.data.toNat ∧
        t.mem.tcm = s.mem.tcm ∧ t.mem.flash = s.mem.flash ∧ t.pending = s.pending))) ∧
  (∀ (s : State) (v : BitVec 40) (e : Nat × Nat), dbgActs s.dev 0x13 = true → e = (v.toNat % 2 ^ 8, v.toNat / 2 ^ 8) → e ∈ s.dev.repairs →
    Gives (.dbgMapClear v) s (fun t => t.dev.repairs = s.dev.repairs.erase e ∧ t.dev.jtag = { s.dev.jtag with ir := 0x13, dr := 0 } ∧
      SameMem s t ∧ t.pending = s.pending ∧ ∀ o, ¬ LogReg o → t.dev.rd o = s.dev.rd o)) ∧
  (∀ (s : State) (v : BitVec 40), dbgActs s.dev 0x13 = true → (v.toNat % 2 ^ 8, v.toNat / 2 ^ 8) ∉ s.dev.repairs →
    Gives (.dbgMapClear v) s (fun t => t = { s with dev := { s.dev with jtag := { s.dev.jtag with ir := 0x13, dr := 0 } } })) ∧
  (∀ (s : State) (v : BitVec 69), dbgActs s.dev 0x14 = true → bcdValid 16 (v.toNat / 2 ^ 5) = false →
    Gives (.dbgMeterSet v) s (fun t => t = { s with dev := { s.dev with jtag := { s.dev.jtag with ir := 0x14, dr := 0 } } })) ∧
  (∀ (s : State) (v : BitVec 69), dbgActs s.dev 0x14 = true → bcdValid 16 (v.toNat / 2 ^ 5) = true →
    Gives (.dbgMeterSet v) s (fun t => (meterOf t.dev (v.toNat % 32)).toNat = v.toNat / 2 ^ 5 ∧
      (∀ k, k ≠ v.toNat % 32 → meterOf t.dev k = meterOf s.dev k) ∧ t.dev.jtag = { s.dev.jtag with ir := 0x14, dr := 0 } ∧
      SameMem s t ∧ t.pending = s.pending ∧ ∀ o, ¬ LogReg o → t.dev.rd o = s.dev.rd o))
/-! ### The Ox (chapter 11) -/

/-- R304 to R307: each instruction of the binary arithmetic writes its result, sets the flags of its row and no other, and goes to the next
instruction; a field that it does not use and that is not 0 traps ILLEGAL.
Clauses that rest on a choice or reading of the model: log entry 71. -/
def Obligations.ArithmeticFollowsItsRows : Prop :=
  ∀ (s : State) (y : Fin 8) (rd ra rb : Fin 32) (imm : BitVec 16) (c : OxCtx) (a b u v : Word) (n m : Nat), c = ctxOf s y → a = c.r ra → b = c.r rb →
    u = imm.signExtend 32 → v = imm.zeroExtend 32 → n = b.toNat % 32 → m = imm.toNat →
  (∀ (i : Instr) (w r : Word) (fl : List (Nat × Bool)), (i, w, r, fl) ∈
    [(Instr.add y rd ra rb, encR 0 rd ra rb 0x00, a + b,
        znOf (a + b) ++ [(2, decide (2 ^ 32 ≤ a.toNat + b.toNat)), (3, decide (a.toInt + b.toInt ≠ (a + b).toInt))]),
      (.sub y rd ra rb, encR 0 rd ra rb 0x02, a - b,
        znOf (a - b) ++ [(2, decide (b.toNat ≤ a.toNat)), (3, decide (a.toInt - b.toInt ≠ (a - b).toInt))]),
      (.and y rd ra rb, encR 0 rd ra rb 0x04, a &&& b, znOf (a &&& b)),
      (.or y rd ra rb, encR 0 rd ra rb 0x05, a ||| b, znOf (a ||| b)),
      (.xor y rd ra rb, encR 0 rd ra rb 0x06, a ^^^ b, znOf (a ^^^ b)),
      (.andn y rd ra rb, encR 0 rd ra rb 0x07, a &&& ~~~b, znOf (a &&& ~~~b)),
      (.shl y rd ra rb, encR 0 rd ra rb 0x08, a <<< n, znOf (a <<< n) ++ if n = 0 then [] else [(2, bitOf a (32 - n))]),
      (.shr y rd ra rb, encR 0 rd ra rb 0x09, a >>> n, znOf (a >>> n) ++ if n = 0 then [] else [(2, bitOf a (n - 1))]),
      (.sar y rd ra rb, encR 0 rd ra rb 0x0A, a.sshiftRight n, znOf (a.sshiftRight n) ++ if n = 0 then [] else [(2, bitOf a (n - 1))]),
      (.ror y rd ra rb, encR 0 rd ra rb 0x0B, a >>> n ||| a <<< (32 - n),
        znOf (a >>> n ||| a <<< (32 - n)) ++ if n = 0 then [] else [(2, bitOf a (n - 1))]),
      (.mul y rd ra rb, encR 0 rd ra rb 0x0C, a * b, znOf (a * b)),
      (.mulhu y rd ra rb, encR 0 rd ra rb 0x0D, w32 (a.toNat * b.toNat / 2 ^ 32), znOf (w32 (a.toNat * b.toNat / 2 ^ 32))),
      (.mulhs y rd ra rb, encR 0 rd ra rb 0x0E, BitVec.ofInt 32 (a.toInt * b.toInt / 2 ^ 32), znOf (BitVec.ofInt 32 (a.toInt * b.toInt / 2 ^ 32))),
      (.sexb y rd ra 0, encR 0 rd ra 0 0x15, (a.extractLsb' 0 8).signExtend 32, znOf ((a.extractLsb' 0 8).signExtend 32)),
      (.sexh y rd ra 0, encR 0 rd ra 0 0x16, (a.extractLsb' 0 16).signExtend 32, znOf ((a.extractLsb' 0 16).signExtend 32)),
      (.addi y rd ra imm, encI 0x04 rd ra imm, a + u,
        znOf (a + u) ++ [(2, decide (2 ^ 32 ≤ a.toNat + u.toNat)), (3, decide (a.toInt + u.toInt ≠ (a + u).toInt))]),
      (.andi y rd ra imm, encI 0x05 rd ra imm, a &&& v, znOf (a &&& v)),
      (.ori y rd ra imm, encI 0x06 rd ra imm, a ||| v, znOf (a ||| v)),
      (.xori y rd ra imm, encI 0x07 rd ra imm, a ^^^ v, znOf (a ^^^ v)),
      (.lui y rd 0 imm, encI 0x0C rd 0 imm, v <<< 16, []),
      (.movi y rd 0 imm, encI 0x0D rd 0 imm, u, [])] →
    OxAt s y w → Gives i s (Retires y { (setFlags fl c).setR rd r with pc := c.pc + 4 } s)) ∧
  (∀ (i : Instr) (w : Word) (x : Word) (k : Nat), k = (if c.flag 2 = true then 1 else 0) → (i, w, x) ∈
    [(Instr.adc y rd ra rb, encR 0 rd ra rb 0x01, a + b + BitVec.ofNat 32 k), (.sbc y rd ra rb, encR 0 rd ra rb 0x03, a - b - BitVec.ofNat 32 (1 - k))] →
    OxAt s y w → Gives i s (Retires y { (setFlags (znOf x ++
      [(2, if i = .adc y rd ra rb then decide (2 ^ 32 ≤ a.toNat + b.toNat + k) else decide (b.toNat + (1 - k) ≤ a.toNat)),
       (3, if i = .adc y rd ra rb then decide (a.toInt + b.toInt + k ≠ x.toInt) else decide (a.toInt - b.toInt - (1 - k : Nat) ≠ x.toInt))]) c).setR rd x
        with pc := c.pc + 4 } s)) ∧
  (∀ (i : Instr) (w r : Word) (o : Bool), (i, w, r, o) ∈
    [(Instr.divu y rd ra rb, encR 0 rd ra rb 0x0F, (if b = 0 then 0xFFFFFFFF else w32 (a.toNat / b.toNat)), false),
      (.divs y rd ra rb, encR 0 rd ra rb 0x10, (if b = 0 then 0xFFFFFFFF else BitVec.ofInt 32 (a.toInt.tdiv b.toInt)), true),
      (.remu y rd ra rb, encR 0 rd ra rb 0x11, (if b = 0 then a else w32 (a.toNat % b.toNat)), false),
      (.rems y rd ra rb, encR 0 rd ra rb 0x12, (if b = 0 then a else BitVec.ofInt 32 (a.toInt.tmod b.toInt)), true)] →
    OxAt s y w → Gives i s (Retires y { (setFlags (znOf r ++
      [(3, decide (b = 0 ∨ o = true ∧ a = 0x80000000 ∧ b = 0xFFFFFFFF))]) c).setR rd r with pc := c.pc + 4 } s)) ∧
  (∀ (i : Instr) (w : Word) (fl : List (Nat × Bool)), (i, w, fl) ∈
    [(Instr.cmp y 0 ra rb, encR 0 0 ra rb 0x13,
        znOf (a - b) ++ [(2, decide (b.toNat ≤ a.toNat)), (3, decide (a.toInt - b.toInt ≠ (a - b).toInt))]),
      (.tst y 0 ra rb, encR 0 0 ra rb 0x14, znOf (a &&& b)),
      (.cmpi y 0 ra imm, encI 0x0B 0 ra imm,
        znOf (a - u) ++ [(2, decide (u.toNat ≤ a.toNat)), (3, decide (a.toInt - u.toInt ≠ (a - u).toInt))])] →
    OxAt s y w → Gives i s (Retires y { setFlags fl c with pc := c.pc + 4 } s)) ∧
  (OxAt s y (encR 0 rd ra 0 0x17) → Gives (.clz y rd ra 0) s (fun t => ∃ z ≤ 32, (∀ k < z, bitOf a (31 - k) = false) ∧
    (z < 32 → bitOf a (31 - z) = true) ∧ Retires y { (c.setFlag 0 (z == 0)).setR rd (w32 z) with pc := c.pc + 4 } s t)) ∧
  (m < 32 → ∀ (i : Instr) (w r : Word) (k : Nat), (i, w, r, k) ∈
    [(Instr.shli y rd ra imm, encI 0x08 rd ra imm, a <<< m, 32 - m), (.shri y rd ra imm, encI 0x09 rd ra imm, a >>> m, m - 1),
      (.sari y rd ra imm, encI 0x0A rd ra imm, a.sshiftRight m, m - 1)] →
    OxAt s y w → Gives i s (Retires y { (setFlags (znOf r ++ if m = 0 then [] else [(2, bitOf a k)]) c).setR rd r with pc := c.pc + 4 } s)) ∧
  (∀ (i : Instr) (w : Word) (legal : Prop), (i, w, legal) ∈
    [(Instr.cmp y rd ra rb, encR 0 rd ra rb 0x13, rd = 0), (.tst y rd ra rb, encR 0 rd ra rb 0x14, rd = 0),
      (.sexb y rd ra rb, encR 0 rd ra rb 0x15, rb = 0), (.sexh y rd ra rb, encR 0 rd ra rb 0x16, rb = 0),
      (.clz y rd ra rb, encR 0 rd ra rb 0x17, rb = 0), (.shli y rd ra imm, encI 0x08 rd ra imm, m < 32),
      (.shri y rd ra imm, encI 0x09 rd ra imm, m < 32), (.sari y rd ra imm, encI 0x0A rd ra imm, m < 32),
      (.cmpi y rd ra imm, encI 0x0B rd ra imm, rd = 0), (.lui y rd ra imm, encI 0x0C rd ra imm, ra = 0),
      (.movi y rd ra imm, encI 0x0D rd ra imm, ra = 0)] →
    ¬ legal → OxAt s y w → Gives i s (Traps y 1 w s))

/-- R309 to R311: the decimal instructions work digit by digit, an invalid digit at its nibble value; on valid digits a sum and a difference
are those of the numbers, in ten's complement; DADJ corrects digit by digit, and for the binary sum of valid digits gives their decimal sum. -/
def Obligations.DecimalFollowsItsRows : Prop :=
  (∀ (s : State) (y : Fin 8) (rd ra rb : Fin 32) (c : OxCtx) (a b : Word) (k n : Nat) (bad : Bool), c = ctxOf s y → a = c.r ra → b = c.r rb →
    n = b.toNat % 16 → bad = (!bcdValid 8 a.toNat || !bcdValid 8 b.toNat) → k = (if c.flag 4 = true then 1 else 0) →
  (∀ (i : Instr) (w : Word) (x : Nat × Nat), (i, w, x) ∈
    [(Instr.dadd y rd ra rb, encR 1 rd ra rb 0x00, bcdAdd 8 a.toNat b.toNat 0), (.daddc y rd ra rb, encR 1 rd ra rb 0x20, bcdAdd 8 a.toNat b.toNat k),
      (.dsub y rd ra rb, encR 1 rd ra rb 0x01, bcdSub 8 a.toNat b.toNat 0), (.dsubc y rd ra rb, encR 1 rd ra rb 0x21, bcdSub 8 a.toNat b.toNat k)] →
    OxAt s y w → Gives i s (Retires y { (setFlags (decOf (w32 x.1) (x.2 == 1) ++ dvOf bad) c).setR rd (w32 x.1) with pc := c.pc + 4 } s)) ∧
  (OxAt s y (encR 1 0 ra rb 0x02) → Gives (.dcmp y 0 ra rb) s (Retires y { setFlags (decOf (w32 (bcdSub 8 a.toNat b.toNat 0).1)
    ((bcdSub 8 a.toNat b.toNat 0).2 == 1) ++ dvOf bad) c with pc := c.pc + 4 } s)) ∧
  (OxAt s y (encR 1 0 ra rb 0x22) → Gives (.dcmpc y 0 ra rb) s (Retires y { (setFlags (decOf (w32 (bcdSub 8 a.toNat b.toNat k).1)
    ((bcdSub 8 a.toNat b.toNat k).2 == 1) ++ dvOf bad) c).setFlag 0 (c.flag 0 && w32 (bcdSub 8 a.toNat b.toNat k).1 == 0)
      with pc := c.pc + 4 } s)) ∧
  (OxAt s y (encR 1 rd ra rb 0x03) → ∀ (r : Word) (q : Nat × Nat), q = adjDigits a (a ^^^ b) (c.flag 2) 8 0 0 → r = w32 q.1 →
    Gives (.dadj y rd ra rb) s (Retires y { (setFlags (decOf r (c.flag 2 || q.2 != 0)) c).setR rd r with pc := c.pc + 4 } s)) ∧
  (∀ (i : Instr) (w r : Word) (dc dv : Bool), (i, w, r, dc, dv) ∈
    [(Instr.dshl y rd ra rb, encR 1 rd ra rb 0x04, a <<< (4 * n), decide (a >>> (4 * (8 - n)) ≠ 0), !bcdValid 8 a.toNat),
      (.dshr y rd ra rb, encR 1 rd ra rb 0x05, a >>> (4 * n), decide (a.toNat % 16 ^ n ≠ 0), !bcdValid 8 a.toNat),
      (.b2d y rd ra 0, encR 1 rd ra 0 0x06, w32 (natToBcd 8 a.toNat), decide (100000000 ≤ a.toNat), false)] →
    OxAt s y w → Gives i s (Retires y { (setFlags (decOf r dc ++ dvOf dv) c).setR rd r with pc := c.pc + 4 } s)) ∧
  (OxAt s y (encR 1 rd ra 0 0x07) → ∀ r : Word, r = w32 (((List.range 8).map (fun j => a.toNat / 16 ^ j % 16 * 10 ^ j)).sum) →
    Gives (.d2b y rd ra 0) s (Retires y { (setFlags ([(0, r == 0), (1, bitOf r 31), (4, false)] ++ dvOf (!bcdValid 8 a.toNat)) c).setR rd r
      with pc := c.pc + 4 } s)) ∧
  (∀ (i : Instr) (w : Word) (legal : Prop), (i, w, legal) ∈
    [(Instr.dcmp y rd ra rb, encR 1 rd ra rb 0x02, rd = 0), (.dcmpc y rd ra rb, encR 1 rd ra rb 0x22, rd = 0),
      (.b2d y rd ra rb, encR 1 rd ra rb 0x06, rb = 0), (.d2b y rd ra rb, encR 1 rd ra rb 0x07, rb = 0)] →
    ¬ legal → OxAt s y w → Gives i s (Traps y 1 w s))) ∧
  (∀ (a b k : Nat), bcdValid 8 a = true → bcdValid 8 b = true → k ≤ 1 → a < 2 ^ 32 → b < 2 ^ 32 →
    bcdToNat 8 (bcdAdd 8 a b k).1 + 10 ^ 8 * (bcdAdd 8 a b k).2 = bcdToNat 8 a + bcdToNat 8 b + k ∧
    bcdToNat 8 (bcdSub 8 a b k).1 + bcdToNat 8 b + k = bcdToNat 8 a + 10 ^ 8 * (bcdSub 8 a b k).2 ∧
    bcdValid 8 (bcdAdd 8 a b k).1 = true ∧ bcdValid 8 (bcdSub 8 a b k).1 = true) ∧
  (∀ (p q : Word) (cy : Bool), bcdValid 8 p.toNat = true → bcdValid 8 q.toNat = true → cy = decide (2 ^ 32 ≤ p.toNat + q.toNat) →
    (adjDigits (p + q) (p + q ^^^ (p ^^^ q)) cy 8 0 0).1 = (bcdAdd 8 p.toNat q.toNat 0).1 ∧
    (cy || (adjDigits (p + q) (p + q ^^^ (p ^^^ q)) cy 8 0 0).2 != 0) = ((bcdAdd 8 p.toNat q.toNat 0).2 == 1)) ∧
  ∀ (a b k : Nat), (∀ n < 8, (bcdAdd 8 a b k).1 / 16 ^ n % 16 =
      (let c := (bcdAdd n a b k).2; let s := a / 16 ^ n % 16 + b / 16 ^ n % 16 + c; if 10 ≤ s then (s - 10) % 16 else s)) ∧
    (∀ n < 8, (bcdSub 8 a b k).1 / 16 ^ n % 16 =
      (let c := (bcdSub n a b k).2; let x := a / 16 ^ n % 16; let y := b / 16 ^ n % 16 + c; if x < y then (x + 26 - y) % 16 else x - y))
/-- R293, R295, R299 to R305, R307, R312: branches, calls, the return stack, special registers, ERET, WAIT, TRAP, the entry of an interrupt and
the end of standby; what traps ILLEGAL, FETCH, RS_OVERFLOW and RS_UNDERFLOW. A yoke that is not at a boundary, or has an interrupt to take
first, or has another word at its PC, executes nothing; a replay takes an interrupt at its logged count.
Clauses that rest on a choice or reading of the model: log entries 70, 71, 73, 77. -/
def Obligations.FlowAndSystemPerform : Prop :=
  (∀ (s : State) (y : Fin 8) (rd ra rb : Fin 32) (cond : Fin 16) (off : BitVec 22) (c : OxCtx) (a br : Word) (holds : Bool), c = ctxOf s y →
    a = c.r ra → br = c.pc + off.signExtend 32 * 4 →
    holds = [true, c.flag 0, !c.flag 0, c.flag 2, !c.flag 2, c.flag 1, !c.flag 1, c.flag 3, !c.flag 3, c.flag 2 && !c.flag 0, !c.flag 2 || c.flag 0,
      c.flag 1 == c.flag 3, c.flag 1 != c.flag 3, !c.flag 0 && c.flag 1 == c.flag 3, c.flag 0 || c.flag 1 != c.flag 3, c.flag 4].getD cond false →
  (∀ (i : Instr) (w : Word) (x : OxCtx), (i, w, x) ∈
    [(Instr.nop y 0 0 0, encR 2 0 0 0 0, { c with pc := c.pc + 4 }), (.jr y 0 ra 0, encR 2 0 ra 0 2, { c with pc := a }),
      (.eret y 0 0 0, encR 2 0 0 0 8, { c with pc := c.epc, flags := c.estat &&& 0x3F, ie := bitOf c.estat 8, exl := false }),
      (.b y cond off, encB 0x20 cond off, { c with pc := if holds = true then br else c.pc + 4 })] →
    OxAt s y w → Gives i s (Retires y x s)) ∧
  (∀ (i : Instr) (w v : Word) (pc : Word), (i, w, v, pc) ∈
    [(Instr.callr y 0 ra 0, encR 2 0 ra 0 3, c.pc + 4, a), (.rspush y 0 ra 0, encR 2 0 ra 0 4, a, c.pc + 4)] ∨
      (holds = true ∧ (i, w, v, pc) = (Instr.call y cond off, encB 0x21 cond off, c.pc + 4, br)) →
    OxAt s y w → Gives i s (fun t => if c.depth < 16 ∨ c.trapMode = false then Retires y { pushCtx c v with pc := pc } s t else Traps y 9 0 s t)) ∧
  (holds = false → OxAt s y (encB 0x21 cond off) → Gives (.call y cond off) s (Retires y { c with pc := c.pc + 4 } s)) ∧
  (∀ v : Word, v = Store.get (fun _ => 0) c.rs ((c.ptr + 15) % 16) →
    (OxAt s y (encR 2 0 0 0 1) → Gives (.ret y 0 0 0) s (fun t => if 0 < c.depth ∨ c.trapMode = false then Retires y { popCtx c with pc := v } s t
      else Traps y 10 0 s t)) ∧
    (OxAt s y (encR 2 rd 0 0 5) → Gives (.rspop y rd 0 0) s (fun t => if 0 < c.depth ∨ c.trapMode = false then
        Retires y { (popCtx c).setR rd v with pc := c.pc + 4 } s t else Traps y 10 0 s t))) ∧
  (OxAt s y (encR 2 rd 0 rb 6) → Gives (.mfs y rd 0 rb) s (fun t => if rb.val < 10 then Retires y { c.setR rd
      ([c.flags, w32 (c.ie.toNat + 2 * c.exl.toNat + 4 * (s.dev.bit (Reg.Y_STATUS y) 0).toNat), c.epc, c.estat, c.ecause, c.einfo, c.vbase,
        w32 (c.depth + 2 ^ 8 * c.trapMode.toNat + 2 ^ 9 * c.rsu.toNat), c.dtpc, w32 y].getD rb 0) with pc := c.pc + 4 } s t
    else Traps y 1 (encR 2 rd 0 rb 6) s t)) ∧
  (OxAt s y (encR 2 rd ra 0 7) → Gives (.mts y rd ra 0) s (fun t => if rd.val < 10 then Retires y
      { [{ c with flags := a &&& 0x3F }, { c with ie := bitOf a 0, exl := bitOf a 1 }, { c with epc := a }, { c with estat := a &&& 0x13F },
        { c with ecause := a &&& 0x1F }, { c with einfo := a }, { c with vbase := a &&& 0x1FF00 },
        { c with trapMode := bitOf a 8, rsu := c.rsu && !bitOf a 9 }, c, c].getD rd c with pc := c.pc + 4 } s t
    else Traps y 1 (encR 2 rd ra 0 7) s t)) ∧
  (OxAt s y (encR 2 0 0 0 9) → Gives (.wait y 0 0 0) s (fun t => ctxOf t y = { c with pc := c.pc + 4, waiting := true } ∧ yokeRun t.dev y = 7 ∧
      t.dev.bit (Reg.Y_STATUS y) 1 = true ∧ YokeFrame y s t)) ∧
  (∀ (i : Instr) (w : Word) (legal : Prop), (i, w, legal) ∈
    [(Instr.nop y rd ra rb, encR 2 rd ra rb 0, rd = 0 ∧ ra = 0 ∧ rb = 0), (.ret y rd ra rb, encR 2 rd ra rb 1, rd = 0 ∧ ra = 0 ∧ rb = 0),
      (.jr y rd ra rb, encR 2 rd ra rb 2, rd = 0 ∧ rb = 0), (.callr y rd ra rb, encR 2 rd ra rb 3, rd = 0 ∧ rb = 0),
      (.rspush y rd ra rb, encR 2 rd ra rb 4, rd = 0 ∧ rb = 0), (.rspop y rd ra rb, encR 2 rd ra rb 5, ra = 0 ∧ rb = 0),
      (.mfs y rd ra rb, encR 2 rd ra rb 6, ra = 0), (.mts y rd ra rb, encR 2 rd ra rb 7, rb = 0),
      (.eret y rd ra rb, encR 2 rd ra rb 8, rd = 0 ∧ ra = 0 ∧ rb = 0), (.wait y rd ra rb, encR 2 rd ra rb 9, rd = 0 ∧ ra = 0 ∧ rb = 0)] →
    ¬ legal → OxAt s y w → Gives i s (Traps y 1 w s)) ∧
  (∀ i ∈ [Instr.add y rd ra rb, .dadd y rd ra rb, .nop y rd ra rb, .ldw y rd ra 0, .stw y rd ra 0, .b y cond off],
    oxReady s.dev y = true → (0x20000 ≤ c.pc.toNat ∨ c.pc.toNat % 4 ≠ 0) → Gives i s (Traps y 3 c.pc s))) ∧
  (∀ (s : State) (y : Fin 8) (w : Word), OxAt s y w →
    (fld w 31 26 = 3 → fld w 25 16 = 0 → Gives (.trap y w) s (Traps y 11 (w32 (fld w 15 0)) s)) ∧
    (fld w 31 26 = 3 → fld w 25 16 ≠ 0 → Gives (.trap y w) s (Traps y 1 w s)) ∧
    (fld w 31 26 < 0x38 → oxDefined w = false → Gives (.trap y w) s (Traps y 1 w s))) ∧
  (∀ (s : State) (y : Fin 8) (rd ra rb : Fin 32) (imm : BitVec 16) (cond : Fin 16) (off : BitVec 22) (i : Instr) (w : Word), (i, w) ∈
      [(Instr.add y rd ra rb, encR 0 rd ra rb 0x00), (.movi y rd ra imm, encI 0x0D rd ra imm), (.dadd y rd ra rb, encR 1 rd ra rb 0x00),
        (.eret y rd ra rb, encR 2 rd ra rb 8), (.wait y rd ra rb, encR 2 rd ra rb 9), (.trap y w, w), (.ldw y rd ra imm, encI 0x10 rd ra imm),
        (.stw y rd ra imm, encI 0x18 rd ra imm), (.cas y rd ra rb, encR 0x1C rd ra rb 2), (.call y cond off, encB 0x21 cond off),
        (.htrd y rd ra rb true, encC 3 rd ra rb true 0)] →
    oxReady s.dev y = false ∨ (∃ x, oxFetch s y = some x ∧ x ≠ w) → Gives i s (fun t => t = s)) ∧
  (∀ (s : State) (y : Fin 8), (ctxOf s y).ie = true → (ctxOf s y).exl = false → (s.dev.yk y).replay = none → reqLine s.dev y = true →
    oxReady s.dev y = false) ∧
  (∀ (s : State) (y : Fin 8),
    (yokeRuns s.dev y = false ∨ (s.dev.yk y).wait ≠ none ∨ (s.dev.yk y).ld ≠ none ∨ (s.dev.yk y).tdWait ≠ none ∨
      (s.dev.yk y).replay = none ∧ (reqLine s.dev y = false ∨ (ctxOf s y).ie = false ∨ (ctxOf s y).exl = true) →
      Gives (.interruptEntry y) s (fun t => t = s)) ∧
    (yokeRun s.dev y ≠ 7 ∨ (s.dev.yk y).replay = none ∧ reqLine s.dev y = false → Gives (.waitWake y) s (fun t => t = s)) ∧
    (∀ e i n, yokeRuns s.dev y = true → (s.dev.yk y).wait = none → (s.dev.yk y).ld = none → (s.dev.yk y).tdWait = none →
      (s.dev.yk y).replay = some (e, i) → (s.dev.yk y).input[i]? = some (.irq n) → n ≤ (s.dev.yk y).retired →
      Gives (.interruptEntry y) s (fun t => ctxOf t y = irqCtx (ctxOf s y) ∧
        ((t.dev.yk y).replay = some (e, i + 1) ∨ (t.dev.yk y).replay = none) ∧ YokeFrame y s t))) ∧
  (∀ (s : State) (y : Fin 8), (s.dev.yk y).replay = none → reqLine s.dev y = true →
    (yokeRuns s.dev y = true → (s.dev.yk y).wait = none → (s.dev.yk y).ld = none → (s.dev.yk y).tdWait = none → (ctxOf s y).ie = true →
      (ctxOf s y).exl = false → Gives (.interruptEntry y) s (fun t => ctxOf t y = irqCtx (ctxOf s y) ∧ t.dev.fld (Reg.Y_STATUS y) 9 5 = 16 ∧
        YokeFrame y s t)) ∧
    (yokeRun s.dev y = 7 → Gives (.waitWake y) s (fun t => ctxOf t y = (if (ctxOf s y).ie = true ∧ (ctxOf s y).exl = false then irqCtx (ctxOf s y)
        else { ctxOf s y with waiting := false }) ∧ yokeRun t.dev y = liveState s.dev y ∧ YokeFrame y s t)))

/-- R297, R298, R305, R308, R313 to R318, R407, R417, R446: a load, a store or an atomic of tightly coupled RAM or of a mapped memory window
moves exactly its bytes; misaligned and unmapped accesses trap; a coprocessor answers in rd and C, or the yoke waits for it; a replay takes the
logged outcome of a request that it has logged. A refused request answers FAIL.
Clauses that rest on a choice or reading of the model: log entries 72, 74, 75, 76, 78, 79, 97. -/
def Obligations.MemoryAndCoprocessorsPerform : Prop :=
  (∀ (s : State) (y : Fin 8) (rd ra : Fin 32) (imm : BitVec 16) (c : OxCtx) (addr : Word), c = ctxOf s y → addr = c.r ra + imm.signExtend 32 →
  (∀ (i : Instr) (major size : Nat) (sx : Bool), (i, major, size, sx) ∈
    [(Instr.ldw y rd ra imm, 0x10, 4, false), (.ldh y rd ra imm, 0x11, 2, true), (.ldhu y rd ra imm, 0x12, 2, false), (.ldb y rd ra imm, 0x13, 1, true),
      (.ldbu y rd ra imm, 0x14, 1, false)] → OxAt s y (encI major rd ra imm) →
    (addr.toNat % size ≠ 0 → Gives i s (Traps y 4 addr s)) ∧
    (addr.toNat % size = 0 → ∀ (bs : List Byte) (v : Word),
        v = (if sx = true then (BitVec.ofNat (8 * size) (leNat bs)).signExtend 32 else w32 (leNat bs)) →
      (addr.toNat < 0x20000 → bs = tcmRead s y addr.toNat size → Gives i s (Retires y { c.setR rd v with pc := c.pc + 4 } s)) ∧
      (0x20000 ≤ addr.toNat → (s.dev.yk y).replay = none →
        (yokeSys s.dev y addr = none → Gives i s (Traps y 5 addr s)) ∧
        ∀ a, yokeSys s.dev y addr = some a → haltBars s.dev (.yoke y) = false → memUp s.dev a size = true → CleanWords s a size →
          bs = (List.range size).map (fun k => s.byteAt (a + k)) →
          Gives i s (fun t => ctxOf t y = { c.setR rd v with pc := c.pc + 4 } ∧ (∀ z, z ≠ y.val → t.dev.yk z = s.dev.yk z) ∧ SameBytes s t)))) ∧
  (∀ (i : Instr) (major size : Nat), (i, major, size) ∈ [(Instr.stw y rd ra imm, 0x18, 4), (.sth y rd ra imm, 0x19, 2), (.stb y rd ra imm, 0x1A, 1)] →
    OxAt s y (encI major rd ra imm) →
    (addr.toNat % size ≠ 0 → Gives i s (Traps y 4 addr s)) ∧
    (addr.toNat % size = 0 →
      (addr.toNat < 0x20000 → Gives i s (fun t => ctxOf t y = { c with pc := c.pc + 4 } ∧ (∀ z, z ≠ y.val → t.dev.yk z = s.dev.yk z) ∧
        (∀ k < size, Store.get (fun _ => 0) t.mem.tcm (tcmKey y addr.toNat + k) = (wordBytes (c.r rd)).getD k 0) ∧
        (∀ k, k < tcmKey y addr.toNat ∨ tcmKey y addr.toNat + size ≤ k → Store.get (fun _ => 0) t.mem.tcm k = Store.get (fun _ => 0) s.mem.tcm k) ∧
        t.mem.bytes = s.mem.bytes ∧ t.mem.flash = s.mem.flash ∧ t.pending = s.pending)) ∧
      (0x20000 ≤ addr.toNat → (s.dev.yk y).replay = none →
        (yokeSys s.dev y addr = none → Gives i s (Traps y 5 addr s)) ∧
        ∀ a, yokeSys s.dev y addr = some a → haltBars s.dev (.yoke y) = false → memUp s.dev a size = true → secureRefuses s.dev (s.dev.keeper (.yoke y)) a size = false →
          Gives i s (fun t => ctxOf t y = { c with pc := c.pc + 4 } ∧ (∀ z, z ≠ y.val → t.dev.yk z = s.dev.yk z) ∧
            (∀ k < size, t.byteAt (a + k) = (wordBytes (c.r rd)).getD k 0) ∧
            (∀ k, k < a ∨ a + size ≤ k → t.byteAt k = s.byteAt k) ∧ t.mem.tcm = s.mem.tcm ∧ t.mem.flash = s.mem.flash ∧ t.pending = s.pending))))) ∧
  (∀ (s : State) (y : Fin 8) (rd ra rb : Fin 32) (c : OxCtx) (addr old : Word), c = ctxOf s y → addr = c.r ra →
    ∀ (i : Instr) (f : Nat) (new : Option Word) (z : OxCtx), (i, f, new, z) ∈
      [(Instr.swap y rd ra rb, 0, some (c.r rb), c), (.fadd y rd ra rb, 1, some (old + c.r rb), c),
        (.cas y rd ra rb, 2, (if old = c.r rd then some (c.r rb) else none), c.setFlag 0 (old == c.r rd))] →
    OxAt s y (encR 0x1C rd ra rb f) →
    (addr.toNat % 4 ≠ 0 → Gives i s (Traps y 4 addr s)) ∧
    (addr.toNat % 4 = 0 → addr.toNat < 0x20000 → old = tcmWord s y addr.toNat →
      Gives i s (fun t => ctxOf t y = { z.setR rd old with pc := c.pc + 4 } ∧ tcmWord t y addr.toNat = new.getD old ∧
        (∀ k, k < tcmKey y addr.toNat ∨ tcmKey y addr.toNat + 4 ≤ k → Store.get (fun _ => 0) t.mem.tcm k = Store.get (fun _ => 0) s.mem.tcm k) ∧
        t.mem.bytes = s.mem.bytes ∧ t.mem.flash = s.mem.flash ∧ t.pending = s.pending)) ∧
    (addr.toNat % 4 = 0 → 0x20000 ≤ addr.toNat → (s.dev.yk y).replay = none → (∀ a, yokeSys s.dev y addr = some a → sysRegion a 4 ≠ .memory) →
      Gives i s (Traps y 5 addr s)) ∧
    (∀ a, addr.toNat % 4 = 0 → 0x20000 ≤ addr.toNat → (s.dev.yk y).replay = none → yokeSys s.dev y addr = some a → memUp s.dev a 4 = true →
      secureRefuses s.dev (s.dev.keeper (.yoke y)) a 4 = false → CleanWords s a 4 →
      old = w32 (leNat ((List.range 4).map (fun k => s.byteAt (a + k)))) →
      Gives i s (fun t => ctxOf t y = { z.setR rd old with pc := c.pc + 4 } ∧ (∀ k < 4, t.byteAt (a + k) = (wordBytes (new.getD old)).getD k 0) ∧
        (∀ k, k < a ∨ a + 4 ≤ k → t.byteAt k = s.byteAt k) ∧ t.mem.tcm = s.mem.tcm ∧ t.mem.flash = s.mem.flash ∧ t.pending = s.pending))) ∧
  (∀ (s : State) (y : Fin 8) (rd ra rb : Fin 32) (wide : Bool) (k : Fin 4) (op : Fin 1024) (w : Word), w = encC (4 + k) rd ra rb wide op →
    OxAt s y w → (wide = true ∧ rd = 31 → Gives (.copCustomer y rd ra rb wide k op) s (Traps y 1 w s)) ∧
    (¬ (wide = true ∧ rd = 31) → (s.dev.yk y).replay = none → copAllowed s.dev y (4 + k) = false → Gives (.copCustomer y rd ra rb wide k op) s (Traps y 2 (w32 (4 + k)) s)) ∧
    (¬ (wide = true ∧ rd = 31) → (s.dev.yk y).replay = none → copAllowed s.dev y (4 + k) = true → copAbsent s.dev (4 + k) = true →
      Gives (.copCustomer y rd ra rb wide k op) s (Traps y 7 (w32 (4 + k)) s)) ∧
    (∀ x w0 w1 f, ¬ (wide = true ∧ rd = 31) → nextEcho (s.dev.yk y) = some x → x.same (copEcho s y (4 + k) op ra rb wide) = true →
      nextInput (s.dev.yk y) = some (.cop w0 w1 f) →
      Gives (.copCustomer y rd ra rb wide k op) s (Retires y (copCtx (ctxOf s y) rd wide w0 w1 f) s)) ∧
    (¬ (wide = true ∧ rd = 31) → CopAt s y (4 + k) w → Gives (.copCustomer y rd ra rb wide k op) s (fun t => ctxOf t y = ctxOf s y ∧
      (t.dev.yk y).wait = some { c := 4 + k, wide := wide, reg := rd, tag := s.dev.drv.copTag.toNat } ∧ t.dev.drv.copTag = s.dev.drv.copTag + 1 ∧
      (∃ q, t.dev.drv.queue = s.dev.drv.queue ++ [q] ∧ q.f.ty = 8 ∧ q.f.tag = s.dev.drv.copTag) ∧
      Leaves (fun d e => { d with yokes := e.yokes, drv := e.drv }) (fun _ => False) s t))) ∧
  (∀ (s : State) (y : Fin 8) (rd ra rb : Fin 32) (c : OxCtx) (x v z : Word) (m : Fin 8), c = ctxOf s y → x = c.r ra → v = c.r rb →
    z = (if rb = 31 then 0 else c.r (rb + 1)) →
  (rd ≠ 31 → CopAt s y 3 (encC 3 rd 0 0 true 0) → Gives (.htrd y rd 0 0 true) s (fun t =>
    Answered y (copCtx c rd true (w32 s.dev.now) (w32 (s.dev.now / 2 ^ 32)) false) s t ∧ YokeFrame y s t)) ∧
  (CopAt s y 0 (encC 0 rd ra 0 false 1) → Gives (.mulePoll y rd ra 0 false) s (fun t =>
    Answered y (copCtx c rd false (mulePoll x s.dev) 0 false) s t ∧ YokeFrame y s t)) ∧
  (∀ a, a = x.toNat + v.toNat % 2 ^ 16 * 2 ^ 32 → a % 64 = 0 → memUp s.dev a 64 = true → CleanWords s a 64 → CopAt s y 0 (encC 0 rd ra rb false 0) →
    Gives (.muleSubmitCop y rd ra rb false) s (fun t => if s.dev.mule.queue.length < 64 then
      Answered y (copCtx c rd false (s.dev.rd Reg.SUBMITTED + 1) 0 false) s t ∧ t.dev.rd Reg.SUBMITTED = s.dev.rd Reg.SUBMITTED + 1 ∧
        ∃ q, t.dev.mule = { s.dev.mule with queue := s.dev.mule.queue ++ [q] } ∧ q.ticket = s.dev.rd Reg.SUBMITTED + 1 ∧ q.block = a
      else Answered y (copCtx c rd false 7 0 true) s t ∧ t.dev.mule = s.dev.mule)) ∧
  (∀ n, n = x.toNat % 128 → CopAt s y 1 (encC 1 rd ra rb false 0) → Gives (.tdSetx y rd ra rb false) s (fun t =>
    Answered y (copCtx c rd false 0 0 (decide (124 < n))) s t ∧ (n ≤ 124 → ∀ k < 4,
      t.dev.fld (Reg.TD_IN ((n + k) / 2)) (16 * ((n + k) % 2) + 15) (16 * ((n + k) % 2)) = [fld v 15 0, fld v 31 16, fld z 15 0, fld z 31 16].getD k 0))) ∧
  (CopAt s y 1 (encC 1 rd 0 0 false 1) → Gives (.tdRun y rd 0 0 false) s (fun t => ctxOf t y = c ∧ (t.dev.yk y).tdWait = some rd.val ∧
    t.dev.au.tdq = s.dev.au.tdq ++ [some y.val] ∧
    Leaves (fun d e => { d with yokes := e.yokes, au := { d.au with tdq := e.au.tdq } }) (fun _ => False) s t)) ∧
  (∀ wide : Bool, (wide = true → rd ≠ 31) → CopAt s y 1 (encC 1 rd ra 0 wide 2) → Gives (.tdGety y rd ra 0 wide) s (fun t =>
    if isLent s.dev (x.toNat % 128) = true then Answered y (copCtx c rd wide
        (if wide = true then BitVec.ofInt 32 (Store.get (fun _ => 0) s.dev.au.acc (x.toNat % 128)) else s.dev.rd (Reg.TD_OUT (x.toNat % 128)))
        (BitVec.ofInt 32 (Store.get (fun _ => 0) s.dev.au.acc (x.toNat % 128) / 2 ^ 32)) false) s t
    else ∃ a b, Answered y (copCtx c rd wide a b true) s t)) ∧
  (∀ n, n = v.toNat % 8 → 1 ≤ n → n ≤ 4 → s.dev.bit (Reg.CK_CTRL m) 0 = true → s.dev.fld (Reg.CK_CTRL m) 3 1 = 0 → aliveWidth s.dev m = 0 →
    ckTail s.dev m = 0 → (s.dev.ck m).tail = [] → s.dev.fld (Reg.CK_CTRL m) 17 16 = 3 → CopAt s y 2 (encC 2 rd ra rb false m) →
    ∀ r, r = ((wordBytes x).take n).foldl (crcByte (crcPar s.dev m)) (s.dev.ck m).crc →
    Gives (.ckCopFeed y rd ra rb false m) s (fun t => t.dev.ck m = { s.dev.ck m with n := (s.dev.ck m).n + n, crc := r } ∧
      Answered y (copCtx c rd false (w32 (crcResult (crcPar s.dev m) r)) 0 false) s t)) ∧
  (CopAt s y 2 (encC 2 rd ra rb false m) → s.dev.fld (Reg.CK_CTRL m) 3 1 ≠ 0 ∨ s.dev.bit (Reg.CK_CTRL m) 0 = false ∨ v.toNat % 8 = 0 ∨ 4 < v.toNat % 8 →
    Gives (.ckCopFeed y rd ra rb false m) s (fun t => Answered y (copCtx c rd false (w32 (ckSoFar s.dev m)) 0 true) s t ∧
      t.dev.ck m = s.dev.ck m ∧ (s.dev.fld (Reg.CK_CTRL m) 3 1 ≠ 0 → t.dev.bit (Reg.CK_FLAGS m) 5 = true))) ∧
  ((s.dev.ck m).n = 0 → CopAt s y 2 (encC 2 rd 0 0 false (8 + m)) → Gives (.ckCopEnd y rd 0 0 false m) s (fun t =>
    Answered y (copCtx c rd false (s.dev.rd (Reg.CK_RESULT m)) 0 true) s t ∧ YokeFrame y s t)) ∧
  ((s.dev.ck m).n ≠ 0 → (s.dev.ck m).lost = false → aliveWidth s.dev m = 0 → s.dev.fld (Reg.CK_CTRL m) 19 18 = 0 →
    CopAt s y 2 (encC 2 rd 0 0 false (8 + m)) → ∀ r, r = crcResult (crcPar s.dev m) (s.dev.ck m).crc →
    Gives (.ckCopEnd y rd 0 0 false m) s (fun t => t.dev.rd (Reg.CK_RESULT m) = w32 r ∧ (t.dev.ck m).n = 0 ∧
      Answered y (copCtx c rd false (w32 r) 0 (decide ((s.dev.rd (Reg.CK_EXPECTED m)).toNat % 2 ^ (crcPar s.dev m).width ≠ r))) s t)) ∧
  (CopAt s y 2 (encC 2 rd 0 0 false (16 + m)) → Gives (.ckCopReset y rd 0 0 false m) s (fun t => (t.dev.ck m).n = 0 ∧ (t.dev.ck m).tail = [] ∧
    (t.dev.ck m).crc = (crcPar s.dev m).init ∧ ∃ a, Answered y (copCtx c rd false a 0 false) s t)) ∧
  (∀ sl l seq : Nat, sl = x.toNat % 256 → l = v.toNat * 2 ^ 32 + z.toNat → seq = (s.dev.fld (Reg.CUE_STATE sl) 15 8 + 1) % 256 → bitOf x 24 = false →
    s.dev.now + (s.dev.rd Reg.CUE_LEAD_MIN).toNat ≤ l → s.dev.fld (Reg.CUE_CFG sl) 7 0 = devIndex s.dev → CopAt s y 3 (encC 3 rd ra rb false 1) →
    Gives (.copCue y rd ra rb false) s (fun t => cueArmed t.dev sl = !bitOf x 25 ∧ (bitOf x 25 = false → cueL t.dev sl = l) ∧
      t.dev.rd Reg.CUE_RESULT = s.dev.rd Reg.CUE_RESULT ∧ Answered y (copCtx c rd false (w32 (1 + seq * 16)) 0 false) s t)) ∧
  (∀ l : Nat, l = v.toNat * 2 ^ 32 + z.toNat → l < s.dev.now + (s.dev.rd Reg.CUE_LEAD_MIN).toNat → CopAt s y 3 (encC 3 rd ra rb false 1) →
    Gives (.copCue y rd ra rb false) s (fun t => (∃ a, bitOf a 0 = false ∧ fld a 3 1 = 1 ∧ Answered y (copCtx c rd false a 0 true) s t) ∧
      t.dev.rd Reg.CUE_RESULT = s.dev.rd Reg.CUE_RESULT ∧ t.dev.bit Reg.HERD_FLAGS 1 = true)) ∧
  (∀ l : Nat, l = v.toNat * 2 ^ 32 + z.toNat → CopAt s y 3 (encC 3 rd ra rb false 2) → Gives (.copCensus y rd ra rb false) s (fun t =>
    if s.dev.now + 20000 + (s.dev.rd Reg.SPAN).toNat ≤ l then Answered y (copCtx c rd false 1 0 false) s t ∧
      (fld x 23 16 &&& s.dev.fld Reg.CEN_GROUPS 7 0 ≠ 0 → (∀ e ∈ s.dev.herd.cens, e.t ≠ l) → s.dev.herd.cens.length < 4 →
        t.dev.herd.cens = cenInsert { t := l, id := fld x 15 0, origin := devIndex s.dev } s.dev.herd.cens)
    else Answered y (copCtx c rd false 0 0 true) s t ∧ t.dev.fld Reg.CEN_STATUS 10 8 = 4)))
/-! ### The whole device -/

/-- The device as a block: the command at the front of the queue runs with the queue's rest. With no command waiting, one period of the
herd clock passes and nothing else happens (R230; the idle period is the model's choice, log entry 4). No word spells a command. -/
def Obligations.StepRunsTheFrontCommand : Prop :=
  (∀ (s : State) (c : Instr) (rest : List Instr), s.pending = c :: rest → step s = exec c { s with pending := rest }) ∧
  (∀ s : State, s.pending = [] → ∃ t, step s = .next t ∧ t.dev.clk = s.dev.clk + 1 ∧
    Leaves (fun d e => { d with ht := e.ht, clk := e.clk }) (fun _ => False) s t) ∧
  ∀ (s : State) (n w : Nat), decodeTableWord n w = none ∧ s.withFetchWord n w = s

/-- R14, R566: the state after a power-on reset. Registers with a Reset column value have it; no image is loaded, no yoke or head runs, no
task waits and the device is in no herd. What memory reads as before it is written is the model's choice (log entries 2 and 3), and so are
the places of the boot steps in PwrSt.
Clauses that rest on a choice or reading of the model: log entries 2, 3, 113. -/
def Obligations.ResetLeavesTheResetColumn : Prop :=
  State.reset.Ok ∧ State.reset.pending = [] ∧ (∀ o, State.reset.dev.rd o = resetWord o) ∧
  (∀ e ∈ [(Reg.RESET_CAUSE, 1), (Reg.BOOT_WDT, 10), (Reg.OPEN_FROM, 0xE0), (Reg.CUE_LEAD_MIN, 300000), (Reg.ST_IRQ_EN, 0xFFF), (Reg.PEN_VARIANT 15, 0xFFFF),
    (Reg.ROVE_CTRL, 0x0A3C01), (Reg.YOKE_STATE 7, 494), (Reg.GLOBAL_GEN, 0), (Reg.PWR_FLAGS, 0), (Reg.SLOT_CTRL, 0)],
    State.reset.dev.rd e.1 = w32 e.2) ∧
  State.reset.dev.pwr = 0 ∧ State.reset.dev.bit Reg.IMAGE_STATUS 0 = false ∧ (∀ y < 8, yokeRuns State.reset.dev y = false) ∧
  (∀ h < 8, headState State.reset.dev h = 0) ∧ (∀ n, State.reset.dev.tasksAt n = []) ∧ herdJoined State.reset.dev = false ∧
  pwrStatus State.reset.dev = 0 ∧ (∀ h < 8, phyLatency State.reset.dev h = 0) ∧ (∀ k, keepWord State.reset.dev k = 0) ∧ ∀ a, State.reset.byteAt a = 0

/-- From every state whose memories are in canonical form, a step answers a next state whose memories are, and takes one command off the
queue: no command of the table stops the device. -/
def Obligations.EveryStepKeepsMemoryCanonical : Prop :=
  ∀ s : State, s.Ok → ∃ t, step s = .next t ∧ t.Ok ∧ t.pending = s.pending.tail
end

