-- ==== Sys2Proof/Laws/Store.lean ====
section
/-! SUPPORT. The laws of sparse stores: a read after a write, and the canonical form, which every operation keeps. -/
namespace Sys2Proof.Machine

variable {α : Type}

@[simp] theorem Store.get_nil (d : Nat → α) (k : Nat) : Store.get d [] k = d k := rfl

/-- An entry put for a key is what the key reads as, and every other key reads as before. -/
theorem Store.get_put (d : Nat → α) (m : Store α) (k : Nat) (v : α) (j : Nat) :
    Store.get d (Store.put m k v) j = if j = k then v else Store.get d m j := by
  induction m with
  | nil => by_cases h : k = j <;> simp [Store.put, Store.get, h, eq_comm]
  | cons e m ih =>
    obtain ⟨a, w⟩ := e
    simp only [Store.put]
    by_cases h1 : a = k
    · subst h1
      by_cases h : j = a
      · simp [Store.get, h]
      · have h' : ¬ a = j := fun x => h x.symm
        simp [Store.get, h, h']
    · by_cases h2 : k < a
      · by_cases h : j = k
        · simp [Store.get, h1, h2, h]
        · have h' : ¬ k = j := fun x => h x.symm
          simp [Store.get, h1, h2, h, h']
      · simp only [h1, h2, if_false, Store.get, ih]
        by_cases h3 : a = j
        · have : j ≠ k := fun x => h1 (h3.trans x)
          simp [h3, this]
        · simp [h3]

/-- Removing the entries of a key leaves it unlisted, and every other key as it was. -/
theorem Store.get_drop (d : Nat → α) (m : Store α) (k j : Nat) :
    Store.get d (m.filter (fun e => e.1 != k)) j = if j = k then d k else Store.get d m j := by
  induction m with
  | nil => by_cases h : j = k <;> simp [Store.get, h]
  | cons e m ih =>
    obtain ⟨a, w⟩ := e
    by_cases h1 : a = k
    · subst h1
      simp only [List.filter, bne_self_eq_false, ih, Store.get]
      by_cases h : j = a
      · simp [h]
      · have h' : ¬ a = j := fun x => h x.symm
        simp [h, h']
    · have h2 : (a != k) = true := by simp [h1]
      simp only [List.filter, h2, Store.get, ih]
      by_cases h3 : a = j
      · have : j ≠ k := fun x => h1 (h3.trans x)
        simp [h3, this]
      · simp [h3]

/-- A read after a write: the key written reads as the value, every other key as before. -/
theorem Store.get_set [DecidableEq α] (d : Nat → α) (m : Store α) (k : Nat) (v : α) (j : Nat) :
    Store.get d (Store.set d m k v) j = if j = k then v else Store.get d m j := by
  unfold Store.set
  by_cases h : v = d k
  · simp [h, Store.get_drop]
  · simp [h, Store.get_put]

@[simp] theorem Store.get_set_same [DecidableEq α] (d : Nat → α) (m : Store α) (k : Nat) (v : α) :
    Store.get d (Store.set d m k v) k = v := by simp [Store.get_set]

theorem Store.get_set_ne [DecidableEq α] (d : Nat → α) (m : Store α) {k j : Nat} (v : α) (h : j ≠ k) :
    Store.get d (Store.set d m k v) j = Store.get d m j := by simp [Store.get_set, h]

/-! ### The canonical form -/

theorem Store.wfFrom_mono [DecidableEq α] (d : Nat → α) (m : Store α) {lo lo' : Nat} (h : lo ≤ lo')
    (w : Store.wfFrom d lo' m = true) : Store.wfFrom d lo m = true := by
  cases m with
  | nil => rfl
  | cons e m =>
    obtain ⟨a, v⟩ := e
    simp only [Store.wfFrom, Bool.and_eq_true, decide_eq_true_eq] at w ⊢
    exact ⟨⟨by omega, w.1.2⟩, w.2⟩

theorem Store.wfFrom_filter [DecidableEq α] (d : Nat → α) (p : Nat × α → Bool) (m : Store α) (lo : Nat)
    (w : Store.wfFrom d lo m = true) : Store.wfFrom d lo (m.filter p) = true := by
  induction m generalizing lo with
  | nil => rfl
  | cons e m ih =>
    obtain ⟨a, v⟩ := e
    simp only [Store.wfFrom, Bool.and_eq_true, decide_eq_true_eq] at w
    have hm := ih (a + 1) w.2
    by_cases h : p (a, v) = true
    · simp only [List.filter, h, Store.wfFrom, Bool.and_eq_true, decide_eq_true_eq]
      exact ⟨w.1, hm⟩
    · have h' : p (a, v) = false := by simpa using h
      simp only [List.filter, h']
      exact Store.wfFrom_mono d _ (by omega) hm

theorem Store.wfFrom_put [DecidableEq α] (d : Nat → α) (m : Store α) (k : Nat) (v : α) (lo : Nat) (hk : lo ≤ k) (hv : v ≠ d k)
    (w : Store.wfFrom d lo m = true) : Store.wfFrom d lo (Store.put m k v) = true := by
  induction m generalizing lo with
  | nil => simp [Store.put, Store.wfFrom, hk, hv]
  | cons e m ih =>
    obtain ⟨a, x⟩ := e
    simp only [Store.wfFrom, Bool.and_eq_true, decide_eq_true_eq] at w
    simp only [Store.put]
    by_cases h1 : a = k
    · subst h1
      simp only [if_true, Store.wfFrom, Bool.and_eq_true, decide_eq_true_eq]
      exact ⟨⟨hk, hv⟩, w.2⟩
    · by_cases h2 : k < a
      · simp only [h1, h2, if_true, if_false, Store.wfFrom, Bool.and_eq_true, decide_eq_true_eq]
        exact ⟨⟨hk, hv⟩, ⟨by omega, w.1.2⟩, w.2⟩
      · simp only [h1, h2, if_false, Store.wfFrom, Bool.and_eq_true, decide_eq_true_eq]
        exact ⟨w.1, ih (a + 1) (by omega) w.2⟩

/-- A write keeps the canonical form. -/
theorem Store.wf_set [DecidableEq α] (d : Nat → α) (m : Store α) (k : Nat) (v : α) (w : Store.wf d m = true) :
    Store.wf d (Store.set d m k v) = true := by
  unfold Store.set
  by_cases h : v = d k
  · simp only [h, if_true]
    exact Store.wfFrom_filter d _ m 0 w
  · simp only [h, if_false]
    exact Store.wfFrom_put d m k v 0 (Nat.zero_le k) h w

/-- Writes of consecutive keys keep the canonical form. -/
theorem Store.wf_setList [DecidableEq α] (d : Nat → α) (l : List α) (m : Store α) (k : Nat) (w : Store.wf d m = true) :
    Store.wf d (Store.setList d m k l) = true := by
  induction l generalizing m k with
  | nil => exact w
  | cons v l ih => exact ih _ _ (Store.wf_set d m k v w)

/-- Dropping entries keeps the canonical form. -/
theorem Store.wf_keep [DecidableEq α] (d : Nat → α) (p : Nat → Bool) (m : Store α) (w : Store.wf d m = true) :
    Store.wf d (Store.keep p m) = true := Store.wfFrom_filter d _ m 0 w

@[simp] theorem Store.wf_nil [DecidableEq α] (d : Nat → α) : Store.wf d ([] : Store α) = true := rfl

/-! ### Runs of keys -/

/-- A read after a write of consecutive keys. -/
theorem Store.get_setList [DecidableEq α] (d : Nat → α) (l : List α) (m : Store α) (k j : Nat) :
    Store.get d (Store.setList d m k l) j = if h : k ≤ j ∧ j - k < l.length then l[j - k]'h.2 else Store.get d m j := by
  induction l generalizing m k with
  | nil => simp [Store.setList]
  | cons v l ih =>
    rw [Store.setList, ih]
    by_cases h1 : k + 1 ≤ j ∧ j - (k + 1) < l.length
    · have h2 : k ≤ j ∧ j - k < (v :: l).length := by simp only [List.length_cons]; omega
      rw [dif_pos h1, dif_pos h2]
      have : j - k = (j - (k + 1)) + 1 := by omega
      simp only [this, List.getElem_cons_succ]
    · rw [dif_neg h1, Store.get_set]
      by_cases h3 : j = k
      · subst h3
        rw [if_pos rfl, dif_pos (by simp)]
        simp
      · rw [if_neg h3, dif_neg]
        simp only [List.length_cons]
        omega

/-- Keys outside the run are as they were. -/
theorem Store.get_setList_out [DecidableEq α] (d : Nat → α) (l : List α) (m : Store α) {k j : Nat} (h : j < k ∨ k + l.length ≤ j) :
    Store.get d (Store.setList d m k l) j = Store.get d m j := by
  rw [Store.get_setList, dif_neg]
  omega

@[simp] theorem Store.getList_length (d : Nat → α) (m : Store α) (k n : Nat) : (Store.getList d m k n).length = n := by
  induction n generalizing k with
  | zero => rfl
  | succ n ih => simp [Store.getList, ih]

/-- A read of what a list of values stored gives the values. -/
theorem Store.getList_setList [DecidableEq α] (d : Nat → α) (m : Store α) (k : Nat) (l : List α) (n : Nat) (h : n ≤ l.length) :
    Store.getList d (Store.setList d m k l) k n = l.take n := by
  have gen : ∀ (n i : Nat), i + n ≤ l.length → Store.getList d (Store.setList d m k l) (k + i) n = (l.drop i).take n := by
    intro n
    induction n with
    | zero => intro i _; simp [Store.getList]
    | succ n ih =>
      intro i hi
      have e : l.drop i = l[i]'(by omega) :: l.drop (i + 1) := List.drop_eq_getElem_cons (by omega)
      rw [Store.getList, Store.get_setList, dif_pos ⟨by omega, by omega⟩, e, List.take_succ_cons, Nat.add_assoc, ih (i + 1) (by omega)]
      simp
  simpa using gen n 0 (by omega)

end Sys2Proof.Machine
end

