-- ==== Sys2Proof/Laws/State.lean ====
section
/-! SUPPORT. The laws of the state: what each update changes and what it leaves, field by field, and reads of registers after writes. -/
namespace Sys2Proof.Machine

/-! ### Dev.wr -/

@[simp] theorem Dev.wr_ht (d : Dev) (o : Nat) (v : Word) : (d.wr o v).ht = d.ht := rfl
@[simp] theorem Dev.wr_clk (d : Dev) (o : Nat) (v : Word) : (d.wr o v).clk = d.clk := rfl
@[simp] theorem Dev.wr_free (d : Dev) (o : Nat) (v : Word) : (d.wr o v).free = d.free := rfl
@[simp] theorem Dev.wr_resp (d : Dev) (o : Nat) (v : Word) : (d.wr o v).resp = d.resp := rfl
@[simp] theorem Dev.wr_tasks (d : Dev) (o : Nat) (v : Word) : (d.wr o v).tasks = d.tasks := rfl
@[simp] theorem Dev.wr_srcs (d : Dev) (o : Nat) (v : Word) : (d.wr o v).srcs = d.srcs := rfl
@[simp] theorem Dev.wr_bwStacks (d : Dev) (o : Nat) (v : Word) : (d.wr o v).bwStacks = d.bwStacks := rfl
@[simp] theorem Dev.wr_coals (d : Dev) (o : Nat) (v : Word) : (d.wr o v).coals = d.coals := rfl
@[simp] theorem Dev.wr_keep (d : Dev) (o : Nat) (v : Word) : (d.wr o v).keep = d.keep := rfl
@[simp] theorem Dev.wr_mc (d : Dev) (o : Nat) (v : Word) : (d.wr o v).mc = d.mc := rfl
@[simp] theorem Dev.wr_cells (d : Dev) (o : Nat) (v : Word) : (d.wr o v).cells = d.cells := rfl
@[simp] theorem Dev.wr_flocks (d : Dev) (o : Nat) (v : Word) : (d.wr o v).flocks = d.flocks := rfl
@[simp] theorem Dev.wr_heads (d : Dev) (o : Nat) (v : Word) : (d.wr o v).heads = d.heads := rfl
@[simp] theorem Dev.wr_scripts (d : Dev) (o : Nat) (v : Word) : (d.wr o v).scripts = d.scripts := rfl
@[simp] theorem Dev.wr_rail (d : Dev) (o : Nat) (v : Word) : (d.wr o v).rail = d.rail := rfl
@[simp] theorem Dev.wr_roveAt (d : Dev) (o : Nat) (v : Word) : (d.wr o v).roveAt = d.roveAt := rfl
@[simp] theorem Dev.wr_testAt (d : Dev) (o : Nat) (v : Word) : (d.wr o v).testAt = d.testAt := rfl
@[simp] theorem Dev.wr_ld (d : Dev) (o : Nat) (v : Word) : (d.wr o v).ld = d.ld := rfl
@[simp] theorem Dev.wr_yokes (d : Dev) (o : Nat) (v : Word) : (d.wr o v).yokes = d.yokes := rfl
@[simp] theorem Dev.wr_units (d : Dev) (o : Nat) (v : Word) : (d.wr o v).units = d.units := rfl
@[simp] theorem Dev.wr_testing (d : Dev) (o : Nat) (v : Word) : (d.wr o v).testing = d.testing := rfl
@[simp] theorem Dev.wr_requests (d : Dev) (o : Nat) (v : Word) : (d.wr o v).requests = d.requests := rfl
@[simp] theorem Dev.wr_repairs (d : Dev) (o : Nat) (v : Word) : (d.wr o v).repairs = d.repairs := rfl
@[simp] theorem Dev.wr_timers (d : Dev) (o : Nat) (v : Word) : (d.wr o v).timers = d.timers := rfl
@[simp] theorem Dev.wr_tmUnits (d : Dev) (o : Nat) (v : Word) : (d.wr o v).tmUnits = d.tmUnits := rfl
@[simp] theorem Dev.wr_drv (d : Dev) (o : Nat) (v : Word) : (d.wr o v).drv = d.drv := rfl
@[simp] theorem Dev.wr_phs (d : Dev) (o : Nat) (v : Word) : (d.wr o v).phs = d.phs := rfl
@[simp] theorem Dev.wr_phLast (d : Dev) (o : Nat) (v : Word) : (d.wr o v).phLast = d.phLast := rfl
@[simp] theorem Dev.wr_cks (d : Dev) (o : Nat) (v : Word) : (d.wr o v).cks = d.cks := rfl
@[simp] theorem Dev.wr_au (d : Dev) (o : Nat) (v : Word) : (d.wr o v).au = d.au := rfl
@[simp] theorem Dev.wr_mule (d : Dev) (o : Nat) (v : Word) : (d.wr o v).mule = d.mule := rfl
@[simp] theorem Dev.wr_gpio (d : Dev) (o : Nat) (v : Word) : (d.wr o v).gpio = d.gpio := rfl
@[simp] theorem Dev.wr_net (d : Dev) (o : Nat) (v : Word) : (d.wr o v).net = d.net := rfl
@[simp] theorem Dev.wr_herd (d : Dev) (o : Nat) (v : Word) : (d.wr o v).herd = d.herd := rfl
@[simp] theorem Dev.wr_pw (d : Dev) (o : Nat) (v : Word) : (d.wr o v).pw = d.pw := rfl
@[simp] theorem Dev.wr_jtag (d : Dev) (o : Nat) (v : Word) : (d.wr o v).jtag = d.jtag := rfl
@[simp] theorem Dev.wr_logSecond (d : Dev) (o : Nat) (v : Word) : (d.wr o v).logSecond = d.logSecond := rfl
@[simp] theorem Dev.wr_logKeys (d : Dev) (o : Nat) (v : Word) : (d.wr o v).logKeys = d.logKeys := rfl

/-! ### Dev.setFld -/

@[simp] theorem Dev.setFld_ht (d : Dev) (o hi lo v : Nat) : (d.setFld o hi lo v).ht = d.ht := rfl
@[simp] theorem Dev.setFld_clk (d : Dev) (o hi lo v : Nat) : (d.setFld o hi lo v).clk = d.clk := rfl
@[simp] theorem Dev.setFld_free (d : Dev) (o hi lo v : Nat) : (d.setFld o hi lo v).free = d.free := rfl
@[simp] theorem Dev.setFld_resp (d : Dev) (o hi lo v : Nat) : (d.setFld o hi lo v).resp = d.resp := rfl
@[simp] theorem Dev.setFld_tasks (d : Dev) (o hi lo v : Nat) : (d.setFld o hi lo v).tasks = d.tasks := rfl
@[simp] theorem Dev.setFld_srcs (d : Dev) (o hi lo v : Nat) : (d.setFld o hi lo v).srcs = d.srcs := rfl
@[simp] theorem Dev.setFld_bwStacks (d : Dev) (o hi lo v : Nat) : (d.setFld o hi lo v).bwStacks = d.bwStacks := rfl
@[simp] theorem Dev.setFld_coals (d : Dev) (o hi lo v : Nat) : (d.setFld o hi lo v).coals = d.coals := rfl
@[simp] theorem Dev.setFld_keep (d : Dev) (o hi lo v : Nat) : (d.setFld o hi lo v).keep = d.keep := rfl
@[simp] theorem Dev.setFld_mc (d : Dev) (o hi lo v : Nat) : (d.setFld o hi lo v).mc = d.mc := rfl
@[simp] theorem Dev.setFld_cells (d : Dev) (o hi lo v : Nat) : (d.setFld o hi lo v).cells = d.cells := rfl
@[simp] theorem Dev.setFld_flocks (d : Dev) (o hi lo v : Nat) : (d.setFld o hi lo v).flocks = d.flocks := rfl
@[simp] theorem Dev.setFld_heads (d : Dev) (o hi lo v : Nat) : (d.setFld o hi lo v).heads = d.heads := rfl
@[simp] theorem Dev.setFld_scripts (d : Dev) (o hi lo v : Nat) : (d.setFld o hi lo v).scripts = d.scripts := rfl
@[simp] theorem Dev.setFld_rail (d : Dev) (o hi lo v : Nat) : (d.setFld o hi lo v).rail = d.rail := rfl
@[simp] theorem Dev.setFld_roveAt (d : Dev) (o hi lo v : Nat) : (d.setFld o hi lo v).roveAt = d.roveAt := rfl
@[simp] theorem Dev.setFld_testAt (d : Dev) (o hi lo v : Nat) : (d.setFld o hi lo v).testAt = d.testAt := rfl
@[simp] theorem Dev.setFld_ld (d : Dev) (o hi lo v : Nat) : (d.setFld o hi lo v).ld = d.ld := rfl
@[simp] theorem Dev.setFld_yokes (d : Dev) (o hi lo v : Nat) : (d.setFld o hi lo v).yokes = d.yokes := rfl
@[simp] theorem Dev.setFld_units (d : Dev) (o hi lo v : Nat) : (d.setFld o hi lo v).units = d.units := rfl
@[simp] theorem Dev.setFld_testing (d : Dev) (o hi lo v : Nat) : (d.setFld o hi lo v).testing = d.testing := rfl
@[simp] theorem Dev.setFld_requests (d : Dev) (o hi lo v : Nat) : (d.setFld o hi lo v).requests = d.requests := rfl
@[simp] theorem Dev.setFld_repairs (d : Dev) (o hi lo v : Nat) : (d.setFld o hi lo v).repairs = d.repairs := rfl
@[simp] theorem Dev.setFld_timers (d : Dev) (o hi lo v : Nat) : (d.setFld o hi lo v).timers = d.timers := rfl
@[simp] theorem Dev.setFld_tmUnits (d : Dev) (o hi lo v : Nat) : (d.setFld o hi lo v).tmUnits = d.tmUnits := rfl
@[simp] theorem Dev.setFld_drv (d : Dev) (o hi lo v : Nat) : (d.setFld o hi lo v).drv = d.drv := rfl
@[simp] theorem Dev.setFld_phs (d : Dev) (o hi lo v : Nat) : (d.setFld o hi lo v).phs = d.phs := rfl
@[simp] theorem Dev.setFld_phLast (d : Dev) (o hi lo v : Nat) : (d.setFld o hi lo v).phLast = d.phLast := rfl
@[simp] theorem Dev.setFld_cks (d : Dev) (o hi lo v : Nat) : (d.setFld o hi lo v).cks = d.cks := rfl
@[simp] theorem Dev.setFld_au (d : Dev) (o hi lo v : Nat) : (d.setFld o hi lo v).au = d.au := rfl
@[simp] theorem Dev.setFld_mule (d : Dev) (o hi lo v : Nat) : (d.setFld o hi lo v).mule = d.mule := rfl
@[simp] theorem Dev.setFld_gpio (d : Dev) (o hi lo v : Nat) : (d.setFld o hi lo v).gpio = d.gpio := rfl
@[simp] theorem Dev.setFld_net (d : Dev) (o hi lo v : Nat) : (d.setFld o hi lo v).net = d.net := rfl
@[simp] theorem Dev.setFld_herd (d : Dev) (o hi lo v : Nat) : (d.setFld o hi lo v).herd = d.herd := rfl
@[simp] theorem Dev.setFld_pw (d : Dev) (o hi lo v : Nat) : (d.setFld o hi lo v).pw = d.pw := rfl
@[simp] theorem Dev.setFld_jtag (d : Dev) (o hi lo v : Nat) : (d.setFld o hi lo v).jtag = d.jtag := rfl
@[simp] theorem Dev.setFld_logSecond (d : Dev) (o hi lo v : Nat) : (d.setFld o hi lo v).logSecond = d.logSecond := rfl
@[simp] theorem Dev.setFld_logKeys (d : Dev) (o hi lo v : Nat) : (d.setFld o hi lo v).logKeys = d.logKeys := rfl

/-! ### Dev.setBit -/

@[simp] theorem Dev.setBit_ht (d : Dev) (o n : Nat) : (d.setBit o n).ht = d.ht := rfl
@[simp] theorem Dev.setBit_clk (d : Dev) (o n : Nat) : (d.setBit o n).clk = d.clk := rfl
@[simp] theorem Dev.setBit_free (d : Dev) (o n : Nat) : (d.setBit o n).free = d.free := rfl
@[simp] theorem Dev.setBit_resp (d : Dev) (o n : Nat) : (d.setBit o n).resp = d.resp := rfl
@[simp] theorem Dev.setBit_tasks (d : Dev) (o n : Nat) : (d.setBit o n).tasks = d.tasks := rfl
@[simp] theorem Dev.setBit_srcs (d : Dev) (o n : Nat) : (d.setBit o n).srcs = d.srcs := rfl
@[simp] theorem Dev.setBit_bwStacks (d : Dev) (o n : Nat) : (d.setBit o n).bwStacks = d.bwStacks := rfl
@[simp] theorem Dev.setBit_coals (d : Dev) (o n : Nat) : (d.setBit o n).coals = d.coals := rfl
@[simp] theorem Dev.setBit_keep (d : Dev) (o n : Nat) : (d.setBit o n).keep = d.keep := rfl
@[simp] theorem Dev.setBit_mc (d : Dev) (o n : Nat) : (d.setBit o n).mc = d.mc := rfl
@[simp] theorem Dev.setBit_cells (d : Dev) (o n : Nat) : (d.setBit o n).cells = d.cells := rfl
@[simp] theorem Dev.setBit_flocks (d : Dev) (o n : Nat) : (d.setBit o n).flocks = d.flocks := rfl
@[simp] theorem Dev.setBit_heads (d : Dev) (o n : Nat) : (d.setBit o n).heads = d.heads := rfl
@[simp] theorem Dev.setBit_scripts (d : Dev) (o n : Nat) : (d.setBit o n).scripts = d.scripts := rfl
@[simp] theorem Dev.setBit_rail (d : Dev) (o n : Nat) : (d.setBit o n).rail = d.rail := rfl
@[simp] theorem Dev.setBit_roveAt (d : Dev) (o n : Nat) : (d.setBit o n).roveAt = d.roveAt := rfl
@[simp] theorem Dev.setBit_testAt (d : Dev) (o n : Nat) : (d.setBit o n).testAt = d.testAt := rfl
@[simp] theorem Dev.setBit_ld (d : Dev) (o n : Nat) : (d.setBit o n).ld = d.ld := rfl
@[simp] theorem Dev.setBit_yokes (d : Dev) (o n : Nat) : (d.setBit o n).yokes = d.yokes := rfl
@[simp] theorem Dev.setBit_units (d : Dev) (o n : Nat) : (d.setBit o n).units = d.units := rfl
@[simp] theorem Dev.setBit_testing (d : Dev) (o n : Nat) : (d.setBit o n).testing = d.testing := rfl
@[simp] theorem Dev.setBit_requests (d : Dev) (o n : Nat) : (d.setBit o n).requests = d.requests := rfl
@[simp] theorem Dev.setBit_repairs (d : Dev) (o n : Nat) : (d.setBit o n).repairs = d.repairs := rfl
@[simp] theorem Dev.setBit_timers (d : Dev) (o n : Nat) : (d.setBit o n).timers = d.timers := rfl
@[simp] theorem Dev.setBit_tmUnits (d : Dev) (o n : Nat) : (d.setBit o n).tmUnits = d.tmUnits := rfl
@[simp] theorem Dev.setBit_drv (d : Dev) (o n : Nat) : (d.setBit o n).drv = d.drv := rfl
@[simp] theorem Dev.setBit_phs (d : Dev) (o n : Nat) : (d.setBit o n).phs = d.phs := rfl
@[simp] theorem Dev.setBit_phLast (d : Dev) (o n : Nat) : (d.setBit o n).phLast = d.phLast := rfl
@[simp] theorem Dev.setBit_cks (d : Dev) (o n : Nat) : (d.setBit o n).cks = d.cks := rfl
@[simp] theorem Dev.setBit_au (d : Dev) (o n : Nat) : (d.setBit o n).au = d.au := rfl
@[simp] theorem Dev.setBit_mule (d : Dev) (o n : Nat) : (d.setBit o n).mule = d.mule := rfl
@[simp] theorem Dev.setBit_gpio (d : Dev) (o n : Nat) : (d.setBit o n).gpio = d.gpio := rfl
@[simp] theorem Dev.setBit_net (d : Dev) (o n : Nat) : (d.setBit o n).net = d.net := rfl
@[simp] theorem Dev.setBit_herd (d : Dev) (o n : Nat) : (d.setBit o n).herd = d.herd := rfl
@[simp] theorem Dev.setBit_pw (d : Dev) (o n : Nat) : (d.setBit o n).pw = d.pw := rfl
@[simp] theorem Dev.setBit_jtag (d : Dev) (o n : Nat) : (d.setBit o n).jtag = d.jtag := rfl
@[simp] theorem Dev.setBit_logSecond (d : Dev) (o n : Nat) : (d.setBit o n).logSecond = d.logSecond := rfl
@[simp] theorem Dev.setBit_logKeys (d : Dev) (o n : Nat) : (d.setBit o n).logKeys = d.logKeys := rfl

/-! ### Dev.clrBit -/

@[simp] theorem Dev.clrBit_ht (d : Dev) (o n : Nat) : (d.clrBit o n).ht = d.ht := rfl
@[simp] theorem Dev.clrBit_clk (d : Dev) (o n : Nat) : (d.clrBit o n).clk = d.clk := rfl
@[simp] theorem Dev.clrBit_free (d : Dev) (o n : Nat) : (d.clrBit o n).free = d.free := rfl
@[simp] theorem Dev.clrBit_resp (d : Dev) (o n : Nat) : (d.clrBit o n).resp = d.resp := rfl
@[simp] theorem Dev.clrBit_tasks (d : Dev) (o n : Nat) : (d.clrBit o n).tasks = d.tasks := rfl
@[simp] theorem Dev.clrBit_srcs (d : Dev) (o n : Nat) : (d.clrBit o n).srcs = d.srcs := rfl
@[simp] theorem Dev.clrBit_bwStacks (d : Dev) (o n : Nat) : (d.clrBit o n).bwStacks = d.bwStacks := rfl
@[simp] theorem Dev.clrBit_coals (d : Dev) (o n : Nat) : (d.clrBit o n).coals = d.coals := rfl
@[simp] theorem Dev.clrBit_keep (d : Dev) (o n : Nat) : (d.clrBit o n).keep = d.keep := rfl
@[simp] theorem Dev.clrBit_mc (d : Dev) (o n : Nat) : (d.clrBit o n).mc = d.mc := rfl
@[simp] theorem Dev.clrBit_cells (d : Dev) (o n : Nat) : (d.clrBit o n).cells = d.cells := rfl
@[simp] theorem Dev.clrBit_flocks (d : Dev) (o n : Nat) : (d.clrBit o n).flocks = d.flocks := rfl
@[simp] theorem Dev.clrBit_heads (d : Dev) (o n : Nat) : (d.clrBit o n).heads = d.heads := rfl
@[simp] theorem Dev.clrBit_scripts (d : Dev) (o n : Nat) : (d.clrBit o n).scripts = d.scripts := rfl
@[simp] theorem Dev.clrBit_rail (d : Dev) (o n : Nat) : (d.clrBit o n).rail = d.rail := rfl
@[simp] theorem Dev.clrBit_roveAt (d : Dev) (o n : Nat) : (d.clrBit o n).roveAt = d.roveAt := rfl
@[simp] theorem Dev.clrBit_testAt (d : Dev) (o n : Nat) : (d.clrBit o n).testAt = d.testAt := rfl
@[simp] theorem Dev.clrBit_ld (d : Dev) (o n : Nat) : (d.clrBit o n).ld = d.ld := rfl
@[simp] theorem Dev.clrBit_yokes (d : Dev) (o n : Nat) : (d.clrBit o n).yokes = d.yokes := rfl
@[simp] theorem Dev.clrBit_units (d : Dev) (o n : Nat) : (d.clrBit o n).units = d.units := rfl
@[simp] theorem Dev.clrBit_testing (d : Dev) (o n : Nat) : (d.clrBit o n).testing = d.testing := rfl
@[simp] theorem Dev.clrBit_requests (d : Dev) (o n : Nat) : (d.clrBit o n).requests = d.requests := rfl
@[simp] theorem Dev.clrBit_repairs (d : Dev) (o n : Nat) : (d.clrBit o n).repairs = d.repairs := rfl
@[simp] theorem Dev.clrBit_timers (d : Dev) (o n : Nat) : (d.clrBit o n).timers = d.timers := rfl
@[simp] theorem Dev.clrBit_tmUnits (d : Dev) (o n : Nat) : (d.clrBit o n).tmUnits = d.tmUnits := rfl
@[simp] theorem Dev.clrBit_drv (d : Dev) (o n : Nat) : (d.clrBit o n).drv = d.drv := rfl
@[simp] theorem Dev.clrBit_phs (d : Dev) (o n : Nat) : (d.clrBit o n).phs = d.phs := rfl
@[simp] theorem Dev.clrBit_phLast (d : Dev) (o n : Nat) : (d.clrBit o n).phLast = d.phLast := rfl
@[simp] theorem Dev.clrBit_cks (d : Dev) (o n : Nat) : (d.clrBit o n).cks = d.cks := rfl
@[simp] theorem Dev.clrBit_au (d : Dev) (o n : Nat) : (d.clrBit o n).au = d.au := rfl
@[simp] theorem Dev.clrBit_mule (d : Dev) (o n : Nat) : (d.clrBit o n).mule = d.mule := rfl
@[simp] theorem Dev.clrBit_gpio (d : Dev) (o n : Nat) : (d.clrBit o n).gpio = d.gpio := rfl
@[simp] theorem Dev.clrBit_net (d : Dev) (o n : Nat) : (d.clrBit o n).net = d.net := rfl
@[simp] theorem Dev.clrBit_herd (d : Dev) (o n : Nat) : (d.clrBit o n).herd = d.herd := rfl
@[simp] theorem Dev.clrBit_pw (d : Dev) (o n : Nat) : (d.clrBit o n).pw = d.pw := rfl
@[simp] theorem Dev.clrBit_jtag (d : Dev) (o n : Nat) : (d.clrBit o n).jtag = d.jtag := rfl
@[simp] theorem Dev.clrBit_logSecond (d : Dev) (o n : Nat) : (d.clrBit o n).logSecond = d.logSecond := rfl
@[simp] theorem Dev.clrBit_logKeys (d : Dev) (o n : Nat) : (d.clrBit o n).logKeys = d.logKeys := rfl

/-! ### Dev.putBit -/

@[simp] theorem Dev.putBit_ht (d : Dev) (o n : Nat) (b : Bool) : (d.putBit o n b).ht = d.ht := by cases b <;> rfl
@[simp] theorem Dev.putBit_clk (d : Dev) (o n : Nat) (b : Bool) : (d.putBit o n b).clk = d.clk := by cases b <;> rfl
@[simp] theorem Dev.putBit_free (d : Dev) (o n : Nat) (b : Bool) : (d.putBit o n b).free = d.free := by cases b <;> rfl
@[simp] theorem Dev.putBit_resp (d : Dev) (o n : Nat) (b : Bool) : (d.putBit o n b).resp = d.resp := by cases b <;> rfl
@[simp] theorem Dev.putBit_tasks (d : Dev) (o n : Nat) (b : Bool) : (d.putBit o n b).tasks = d.tasks := by cases b <;> rfl
@[simp] theorem Dev.putBit_srcs (d : Dev) (o n : Nat) (b : Bool) : (d.putBit o n b).srcs = d.srcs := by cases b <;> rfl
@[simp] theorem Dev.putBit_bwStacks (d : Dev) (o n : Nat) (b : Bool) : (d.putBit o n b).bwStacks = d.bwStacks := by cases b <;> rfl
@[simp] theorem Dev.putBit_coals (d : Dev) (o n : Nat) (b : Bool) : (d.putBit o n b).coals = d.coals := by cases b <;> rfl
@[simp] theorem Dev.putBit_keep (d : Dev) (o n : Nat) (b : Bool) : (d.putBit o n b).keep = d.keep := by cases b <;> rfl
@[simp] theorem Dev.putBit_mc (d : Dev) (o n : Nat) (b : Bool) : (d.putBit o n b).mc = d.mc := by cases b <;> rfl
@[simp] theorem Dev.putBit_cells (d : Dev) (o n : Nat) (b : Bool) : (d.putBit o n b).cells = d.cells := by cases b <;> rfl
@[simp] theorem Dev.putBit_flocks (d : Dev) (o n : Nat) (b : Bool) : (d.putBit o n b).flocks = d.flocks := by cases b <;> rfl
@[simp] theorem Dev.putBit_heads (d : Dev) (o n : Nat) (b : Bool) : (d.putBit o n b).heads = d.heads := by cases b <;> rfl
@[simp] theorem Dev.putBit_scripts (d : Dev) (o n : Nat) (b : Bool) : (d.putBit o n b).scripts = d.scripts := by cases b <;> rfl
@[simp] theorem Dev.putBit_rail (d : Dev) (o n : Nat) (b : Bool) : (d.putBit o n b).rail = d.rail := by cases b <;> rfl
@[simp] theorem Dev.putBit_roveAt (d : Dev) (o n : Nat) (b : Bool) : (d.putBit o n b).roveAt = d.roveAt := by cases b <;> rfl
@[simp] theorem Dev.putBit_testAt (d : Dev) (o n : Nat) (b : Bool) : (d.putBit o n b).testAt = d.testAt := by cases b <;> rfl
@[simp] theorem Dev.putBit_ld (d : Dev) (o n : Nat) (b : Bool) : (d.putBit o n b).ld = d.ld := by cases b <;> rfl
@[simp] theorem Dev.putBit_yokes (d : Dev) (o n : Nat) (b : Bool) : (d.putBit o n b).yokes = d.yokes := by cases b <;> rfl
@[simp] theorem Dev.putBit_units (d : Dev) (o n : Nat) (b : Bool) : (d.putBit o n b).units = d.units := by cases b <;> rfl
@[simp] theorem Dev.putBit_testing (d : Dev) (o n : Nat) (b : Bool) : (d.putBit o n b).testing = d.testing := by cases b <;> rfl
@[simp] theorem Dev.putBit_requests (d : Dev) (o n : Nat) (b : Bool) : (d.putBit o n b).requests = d.requests := by cases b <;> rfl
@[simp] theorem Dev.putBit_repairs (d : Dev) (o n : Nat) (b : Bool) : (d.putBit o n b).repairs = d.repairs := by cases b <;> rfl
@[simp] theorem Dev.putBit_timers (d : Dev) (o n : Nat) (b : Bool) : (d.putBit o n b).timers = d.timers := by cases b <;> rfl
@[simp] theorem Dev.putBit_tmUnits (d : Dev) (o n : Nat) (b : Bool) : (d.putBit o n b).tmUnits = d.tmUnits := by cases b <;> rfl
@[simp] theorem Dev.putBit_drv (d : Dev) (o n : Nat) (b : Bool) : (d.putBit o n b).drv = d.drv := by cases b <;> rfl
@[simp] theorem Dev.putBit_phs (d : Dev) (o n : Nat) (b : Bool) : (d.putBit o n b).phs = d.phs := by cases b <;> rfl
@[simp] theorem Dev.putBit_phLast (d : Dev) (o n : Nat) (b : Bool) : (d.putBit o n b).phLast = d.phLast := by cases b <;> rfl
@[simp] theorem Dev.putBit_cks (d : Dev) (o n : Nat) (b : Bool) : (d.putBit o n b).cks = d.cks := by cases b <;> rfl
@[simp] theorem Dev.putBit_au (d : Dev) (o n : Nat) (b : Bool) : (d.putBit o n b).au = d.au := by cases b <;> rfl
@[simp] theorem Dev.putBit_mule (d : Dev) (o n : Nat) (b : Bool) : (d.putBit o n b).mule = d.mule := by cases b <;> rfl
@[simp] theorem Dev.putBit_gpio (d : Dev) (o n : Nat) (b : Bool) : (d.putBit o n b).gpio = d.gpio := by cases b <;> rfl
@[simp] theorem Dev.putBit_net (d : Dev) (o n : Nat) (b : Bool) : (d.putBit o n b).net = d.net := by cases b <;> rfl
@[simp] theorem Dev.putBit_herd (d : Dev) (o n : Nat) (b : Bool) : (d.putBit o n b).herd = d.herd := by cases b <;> rfl
@[simp] theorem Dev.putBit_pw (d : Dev) (o n : Nat) (b : Bool) : (d.putBit o n b).pw = d.pw := by cases b <;> rfl
@[simp] theorem Dev.putBit_jtag (d : Dev) (o n : Nat) (b : Bool) : (d.putBit o n b).jtag = d.jtag := by cases b <;> rfl
@[simp] theorem Dev.putBit_logSecond (d : Dev) (o n : Nat) (b : Bool) : (d.putBit o n b).logSecond = d.logSecond := by cases b <;> rfl
@[simp] theorem Dev.putBit_logKeys (d : Dev) (o n : Nat) (b : Bool) : (d.putBit o n b).logKeys = d.logKeys := by cases b <;> rfl

/-! ### Dev.answer -/

@[simp] theorem Dev.answer_regs (d : Dev) (r : Resp) : (d.answer r).regs = d.regs := rfl
@[simp] theorem Dev.answer_ht (d : Dev) (r : Resp) : (d.answer r).ht = d.ht := rfl
@[simp] theorem Dev.answer_clk (d : Dev) (r : Resp) : (d.answer r).clk = d.clk := rfl
@[simp] theorem Dev.answer_free (d : Dev) (r : Resp) : (d.answer r).free = d.free := rfl
@[simp] theorem Dev.answer_tasks (d : Dev) (r : Resp) : (d.answer r).tasks = d.tasks := rfl
@[simp] theorem Dev.answer_srcs (d : Dev) (r : Resp) : (d.answer r).srcs = d.srcs := rfl
@[simp] theorem Dev.answer_bwStacks (d : Dev) (r : Resp) : (d.answer r).bwStacks = d.bwStacks := rfl
@[simp] theorem Dev.answer_coals (d : Dev) (r : Resp) : (d.answer r).coals = d.coals := rfl
@[simp] theorem Dev.answer_keep (d : Dev) (r : Resp) : (d.answer r).keep = d.keep := rfl
@[simp] theorem Dev.answer_mc (d : Dev) (r : Resp) : (d.answer r).mc = d.mc := rfl
@[simp] theorem Dev.answer_cells (d : Dev) (r : Resp) : (d.answer r).cells = d.cells := rfl
@[simp] theorem Dev.answer_flocks (d : Dev) (r : Resp) : (d.answer r).flocks = d.flocks := rfl
@[simp] theorem Dev.answer_heads (d : Dev) (r : Resp) : (d.answer r).heads = d.heads := rfl
@[simp] theorem Dev.answer_scripts (d : Dev) (r : Resp) : (d.answer r).scripts = d.scripts := rfl
@[simp] theorem Dev.answer_rail (d : Dev) (r : Resp) : (d.answer r).rail = d.rail := rfl
@[simp] theorem Dev.answer_roveAt (d : Dev) (r : Resp) : (d.answer r).roveAt = d.roveAt := rfl
@[simp] theorem Dev.answer_testAt (d : Dev) (r : Resp) : (d.answer r).testAt = d.testAt := rfl
@[simp] theorem Dev.answer_ld (d : Dev) (r : Resp) : (d.answer r).ld = d.ld := rfl
@[simp] theorem Dev.answer_yokes (d : Dev) (r : Resp) : (d.answer r).yokes = d.yokes := rfl
@[simp] theorem Dev.answer_units (d : Dev) (r : Resp) : (d.answer r).units = d.units := rfl
@[simp] theorem Dev.answer_testing (d : Dev) (r : Resp) : (d.answer r).testing = d.testing := rfl
@[simp] theorem Dev.answer_requests (d : Dev) (r : Resp) : (d.answer r).requests = d.requests := rfl
@[simp] theorem Dev.answer_repairs (d : Dev) (r : Resp) : (d.answer r).repairs = d.repairs := rfl
@[simp] theorem Dev.answer_timers (d : Dev) (r : Resp) : (d.answer r).timers = d.timers := rfl
@[simp] theorem Dev.answer_tmUnits (d : Dev) (r : Resp) : (d.answer r).tmUnits = d.tmUnits := rfl
@[simp] theorem Dev.answer_drv (d : Dev) (r : Resp) : (d.answer r).drv = d.drv := rfl
@[simp] theorem Dev.answer_phs (d : Dev) (r : Resp) : (d.answer r).phs = d.phs := rfl
@[simp] theorem Dev.answer_phLast (d : Dev) (r : Resp) : (d.answer r).phLast = d.phLast := rfl
@[simp] theorem Dev.answer_cks (d : Dev) (r : Resp) : (d.answer r).cks = d.cks := rfl
@[simp] theorem Dev.answer_au (d : Dev) (r : Resp) : (d.answer r).au = d.au := rfl
@[simp] theorem Dev.answer_mule (d : Dev) (r : Resp) : (d.answer r).mule = d.mule := rfl
@[simp] theorem Dev.answer_gpio (d : Dev) (r : Resp) : (d.answer r).gpio = d.gpio := rfl
@[simp] theorem Dev.answer_net (d : Dev) (r : Resp) : (d.answer r).net = d.net := rfl
@[simp] theorem Dev.answer_herd (d : Dev) (r : Resp) : (d.answer r).herd = d.herd := rfl
@[simp] theorem Dev.answer_pw (d : Dev) (r : Resp) : (d.answer r).pw = d.pw := rfl
@[simp] theorem Dev.answer_jtag (d : Dev) (r : Resp) : (d.answer r).jtag = d.jtag := rfl
@[simp] theorem Dev.answer_logSecond (d : Dev) (r : Resp) : (d.answer r).logSecond = d.logSecond := rfl
@[simp] theorem Dev.answer_logKeys (d : Dev) (r : Resp) : (d.answer r).logKeys = d.logKeys := rfl

/-! ### Dev.okay -/

@[simp] theorem Dev.okay_regs (d : Dev) : (d.okay).regs = d.regs := rfl
@[simp] theorem Dev.okay_ht (d : Dev) : (d.okay).ht = d.ht := rfl
@[simp] theorem Dev.okay_clk (d : Dev) : (d.okay).clk = d.clk := rfl
@[simp] theorem Dev.okay_free (d : Dev) : (d.okay).free = d.free := rfl
@[simp] theorem Dev.okay_tasks (d : Dev) : (d.okay).tasks = d.tasks := rfl
@[simp] theorem Dev.okay_srcs (d : Dev) : (d.okay).srcs = d.srcs := rfl
@[simp] theorem Dev.okay_bwStacks (d : Dev) : (d.okay).bwStacks = d.bwStacks := rfl
@[simp] theorem Dev.okay_coals (d : Dev) : (d.okay).coals = d.coals := rfl
@[simp] theorem Dev.okay_keep (d : Dev) : (d.okay).keep = d.keep := rfl
@[simp] theorem Dev.okay_mc (d : Dev) : (d.okay).mc = d.mc := rfl
@[simp] theorem Dev.okay_cells (d : Dev) : (d.okay).cells = d.cells := rfl
@[simp] theorem Dev.okay_flocks (d : Dev) : (d.okay).flocks = d.flocks := rfl
@[simp] theorem Dev.okay_heads (d : Dev) : (d.okay).heads = d.heads := rfl
@[simp] theorem Dev.okay_scripts (d : Dev) : (d.okay).scripts = d.scripts := rfl
@[simp] theorem Dev.okay_rail (d : Dev) : (d.okay).rail = d.rail := rfl
@[simp] theorem Dev.okay_roveAt (d : Dev) : (d.okay).roveAt = d.roveAt := rfl
@[simp] theorem Dev.okay_testAt (d : Dev) : (d.okay).testAt = d.testAt := rfl
@[simp] theorem Dev.okay_ld (d : Dev) : (d.okay).ld = d.ld := rfl
@[simp] theorem Dev.okay_yokes (d : Dev) : (d.okay).yokes = d.yokes := rfl
@[simp] theorem Dev.okay_units (d : Dev) : (d.okay).units = d.units := rfl
@[simp] theorem Dev.okay_testing (d : Dev) : (d.okay).testing = d.testing := rfl
@[simp] theorem Dev.okay_requests (d : Dev) : (d.okay).requests = d.requests := rfl
@[simp] theorem Dev.okay_repairs (d : Dev) : (d.okay).repairs = d.repairs := rfl
@[simp] theorem Dev.okay_timers (d : Dev) : (d.okay).timers = d.timers := rfl
@[simp] theorem Dev.okay_tmUnits (d : Dev) : (d.okay).tmUnits = d.tmUnits := rfl
@[simp] theorem Dev.okay_drv (d : Dev) : (d.okay).drv = d.drv := rfl
@[simp] theorem Dev.okay_phs (d : Dev) : (d.okay).phs = d.phs := rfl
@[simp] theorem Dev.okay_phLast (d : Dev) : (d.okay).phLast = d.phLast := rfl
@[simp] theorem Dev.okay_cks (d : Dev) : (d.okay).cks = d.cks := rfl
@[simp] theorem Dev.okay_au (d : Dev) : (d.okay).au = d.au := rfl
@[simp] theorem Dev.okay_mule (d : Dev) : (d.okay).mule = d.mule := rfl
@[simp] theorem Dev.okay_gpio (d : Dev) : (d.okay).gpio = d.gpio := rfl
@[simp] theorem Dev.okay_net (d : Dev) : (d.okay).net = d.net := rfl
@[simp] theorem Dev.okay_herd (d : Dev) : (d.okay).herd = d.herd := rfl
@[simp] theorem Dev.okay_pw (d : Dev) : (d.okay).pw = d.pw := rfl
@[simp] theorem Dev.okay_jtag (d : Dev) : (d.okay).jtag = d.jtag := rfl
@[simp] theorem Dev.okay_logSecond (d : Dev) : (d.okay).logSecond = d.logSecond := rfl
@[simp] theorem Dev.okay_logKeys (d : Dev) : (d.okay).logKeys = d.logKeys := rfl

/-! ### Dev.deny -/

@[simp] theorem Dev.deny_regs (d : Dev) : (d.deny).regs = d.regs := rfl
@[simp] theorem Dev.deny_ht (d : Dev) : (d.deny).ht = d.ht := rfl
@[simp] theorem Dev.deny_clk (d : Dev) : (d.deny).clk = d.clk := rfl
@[simp] theorem Dev.deny_free (d : Dev) : (d.deny).free = d.free := rfl
@[simp] theorem Dev.deny_tasks (d : Dev) : (d.deny).tasks = d.tasks := rfl
@[simp] theorem Dev.deny_srcs (d : Dev) : (d.deny).srcs = d.srcs := rfl
@[simp] theorem Dev.deny_bwStacks (d : Dev) : (d.deny).bwStacks = d.bwStacks := rfl
@[simp] theorem Dev.deny_coals (d : Dev) : (d.deny).coals = d.coals := rfl
@[simp] theorem Dev.deny_keep (d : Dev) : (d.deny).keep = d.keep := rfl
@[simp] theorem Dev.deny_mc (d : Dev) : (d.deny).mc = d.mc := rfl
@[simp] theorem Dev.deny_cells (d : Dev) : (d.deny).cells = d.cells := rfl
@[simp] theorem Dev.deny_flocks (d : Dev) : (d.deny).flocks = d.flocks := rfl
@[simp] theorem Dev.deny_heads (d : Dev) : (d.deny).heads = d.heads := rfl
@[simp] theorem Dev.deny_scripts (d : Dev) : (d.deny).scripts = d.scripts := rfl
@[simp] theorem Dev.deny_rail (d : Dev) : (d.deny).rail = d.rail := rfl
@[simp] theorem Dev.deny_roveAt (d : Dev) : (d.deny).roveAt = d.roveAt := rfl
@[simp] theorem Dev.deny_testAt (d : Dev) : (d.deny).testAt = d.testAt := rfl
@[simp] theorem Dev.deny_ld (d : Dev) : (d.deny).ld = d.ld := rfl
@[simp] theorem Dev.deny_yokes (d : Dev) : (d.deny).yokes = d.yokes := rfl
@[simp] theorem Dev.deny_units (d : Dev) : (d.deny).units = d.units := rfl
@[simp] theorem Dev.deny_testing (d : Dev) : (d.deny).testing = d.testing := rfl
@[simp] theorem Dev.deny_requests (d : Dev) : (d.deny).requests = d.requests := rfl
@[simp] theorem Dev.deny_repairs (d : Dev) : (d.deny).repairs = d.repairs := rfl
@[simp] theorem Dev.deny_timers (d : Dev) : (d.deny).timers = d.timers := rfl
@[simp] theorem Dev.deny_tmUnits (d : Dev) : (d.deny).tmUnits = d.tmUnits := rfl
@[simp] theorem Dev.deny_drv (d : Dev) : (d.deny).drv = d.drv := rfl
@[simp] theorem Dev.deny_phs (d : Dev) : (d.deny).phs = d.phs := rfl
@[simp] theorem Dev.deny_phLast (d : Dev) : (d.deny).phLast = d.phLast := rfl
@[simp] theorem Dev.deny_cks (d : Dev) : (d.deny).cks = d.cks := rfl
@[simp] theorem Dev.deny_au (d : Dev) : (d.deny).au = d.au := rfl
@[simp] theorem Dev.deny_mule (d : Dev) : (d.deny).mule = d.mule := rfl
@[simp] theorem Dev.deny_gpio (d : Dev) : (d.deny).gpio = d.gpio := rfl
@[simp] theorem Dev.deny_net (d : Dev) : (d.deny).net = d.net := rfl
@[simp] theorem Dev.deny_herd (d : Dev) : (d.deny).herd = d.herd := rfl
@[simp] theorem Dev.deny_pw (d : Dev) : (d.deny).pw = d.pw := rfl
@[simp] theorem Dev.deny_jtag (d : Dev) : (d.deny).jtag = d.jtag := rfl
@[simp] theorem Dev.deny_logSecond (d : Dev) : (d.deny).logSecond = d.logSecond := rfl
@[simp] theorem Dev.deny_logKeys (d : Dev) : (d.deny).logKeys = d.logKeys := rfl

/-! ### Dev.pass -/

@[simp] theorem Dev.pass_regs (d : Dev) (n : Nat) : (d.pass n).regs = d.regs := rfl
@[simp] theorem Dev.pass_free (d : Dev) (n : Nat) : (d.pass n).free = d.free := rfl
@[simp] theorem Dev.pass_resp (d : Dev) (n : Nat) : (d.pass n).resp = d.resp := rfl
@[simp] theorem Dev.pass_tasks (d : Dev) (n : Nat) : (d.pass n).tasks = d.tasks := rfl
@[simp] theorem Dev.pass_srcs (d : Dev) (n : Nat) : (d.pass n).srcs = d.srcs := rfl
@[simp] theorem Dev.pass_bwStacks (d : Dev) (n : Nat) : (d.pass n).bwStacks = d.bwStacks := rfl
@[simp] theorem Dev.pass_coals (d : Dev) (n : Nat) : (d.pass n).coals = d.coals := rfl
@[simp] theorem Dev.pass_keep (d : Dev) (n : Nat) : (d.pass n).keep = d.keep := rfl
@[simp] theorem Dev.pass_mc (d : Dev) (n : Nat) : (d.pass n).mc = d.mc := rfl
@[simp] theorem Dev.pass_cells (d : Dev) (n : Nat) : (d.pass n).cells = d.cells := rfl
@[simp] theorem Dev.pass_flocks (d : Dev) (n : Nat) : (d.pass n).flocks = d.flocks := rfl
@[simp] theorem Dev.pass_heads (d : Dev) (n : Nat) : (d.pass n).heads = d.heads := rfl
@[simp] theorem Dev.pass_scripts (d : Dev) (n : Nat) : (d.pass n).scripts = d.scripts := rfl
@[simp] theorem Dev.pass_rail (d : Dev) (n : Nat) : (d.pass n).rail = d.rail := rfl
@[simp] theorem Dev.pass_roveAt (d : Dev) (n : Nat) : (d.pass n).roveAt = d.roveAt := rfl
@[simp] theorem Dev.pass_testAt (d : Dev) (n : Nat) : (d.pass n).testAt = d.testAt := rfl
@[simp] theorem Dev.pass_ld (d : Dev) (n : Nat) : (d.pass n).ld = d.ld := rfl
@[simp] theorem Dev.pass_yokes (d : Dev) (n : Nat) : (d.pass n).yokes = d.yokes := rfl
@[simp] theorem Dev.pass_units (d : Dev) (n : Nat) : (d.pass n).units = d.units := rfl
@[simp] theorem Dev.pass_testing (d : Dev) (n : Nat) : (d.pass n).testing = d.testing := rfl
@[simp] theorem Dev.pass_requests (d : Dev) (n : Nat) : (d.pass n).requests = d.requests := rfl
@[simp] theorem Dev.pass_repairs (d : Dev) (n : Nat) : (d.pass n).repairs = d.repairs := rfl
@[simp] theorem Dev.pass_timers (d : Dev) (n : Nat) : (d.pass n).timers = d.timers := rfl
@[simp] theorem Dev.pass_tmUnits (d : Dev) (n : Nat) : (d.pass n).tmUnits = d.tmUnits := rfl
@[simp] theorem Dev.pass_drv (d : Dev) (n : Nat) : (d.pass n).drv = d.drv := rfl
@[simp] theorem Dev.pass_phs (d : Dev) (n : Nat) : (d.pass n).phs = d.phs := rfl
@[simp] theorem Dev.pass_phLast (d : Dev) (n : Nat) : (d.pass n).phLast = d.phLast := rfl
@[simp] theorem Dev.pass_cks (d : Dev) (n : Nat) : (d.pass n).cks = d.cks := rfl
@[simp] theorem Dev.pass_au (d : Dev) (n : Nat) : (d.pass n).au = d.au := rfl
@[simp] theorem Dev.pass_mule (d : Dev) (n : Nat) : (d.pass n).mule = d.mule := rfl
@[simp] theorem Dev.pass_gpio (d : Dev) (n : Nat) : (d.pass n).gpio = d.gpio := rfl
@[simp] theorem Dev.pass_net (d : Dev) (n : Nat) : (d.pass n).net = d.net := rfl
@[simp] theorem Dev.pass_herd (d : Dev) (n : Nat) : (d.pass n).herd = d.herd := rfl
@[simp] theorem Dev.pass_pw (d : Dev) (n : Nat) : (d.pass n).pw = d.pw := rfl
@[simp] theorem Dev.pass_jtag (d : Dev) (n : Nat) : (d.pass n).jtag = d.jtag := rfl
@[simp] theorem Dev.pass_logSecond (d : Dev) (n : Nat) : (d.pass n).logSecond = d.logSecond := rfl
@[simp] theorem Dev.pass_logKeys (d : Dev) (n : Nat) : (d.pass n).logKeys = d.logKeys := rfl

/-! ### Updates of one collection -/

@[simp] theorem Dev.updYk_regs (d : Dev) (y : Nat) (f : YokeSt → YokeSt) : (d.updYk y f).regs = d.regs := rfl
@[simp] theorem Dev.updYk_ht (d : Dev) (y : Nat) (f : YokeSt → YokeSt) : (d.updYk y f).ht = d.ht := rfl
@[simp] theorem Dev.updYk_clk (d : Dev) (y : Nat) (f : YokeSt → YokeSt) : (d.updYk y f).clk = d.clk := rfl
@[simp] theorem Dev.updYk_free (d : Dev) (y : Nat) (f : YokeSt → YokeSt) : (d.updYk y f).free = d.free := rfl
@[simp] theorem Dev.updYk_resp (d : Dev) (y : Nat) (f : YokeSt → YokeSt) : (d.updYk y f).resp = d.resp := rfl
@[simp] theorem Dev.updYk_keep (d : Dev) (y : Nat) (f : YokeSt → YokeSt) : (d.updYk y f).keep = d.keep := rfl
@[simp] theorem Dev.updYk_pw (d : Dev) (y : Nat) (f : YokeSt → YokeSt) : (d.updYk y f).pw = d.pw := rfl
@[simp] theorem Dev.updYk_ld (d : Dev) (y : Nat) (f : YokeSt → YokeSt) : (d.updYk y f).ld = d.ld := rfl
@[simp] theorem Dev.updYk_jtag (d : Dev) (y : Nat) (f : YokeSt → YokeSt) : (d.updYk y f).jtag = d.jtag := rfl
@[simp] theorem Dev.updYk_rd (d : Dev) (y : Nat) (f : YokeSt → YokeSt) (o : Nat) : (d.updYk y f).rd o = d.rd o := rfl
@[simp] theorem Dev.updHead_regs (d : Dev) (h : Nat) (f : HeadSt → HeadSt) : (d.updHead h f).regs = d.regs := rfl
@[simp] theorem Dev.updHead_ht (d : Dev) (h : Nat) (f : HeadSt → HeadSt) : (d.updHead h f).ht = d.ht := rfl
@[simp] theorem Dev.updHead_clk (d : Dev) (h : Nat) (f : HeadSt → HeadSt) : (d.updHead h f).clk = d.clk := rfl
@[simp] theorem Dev.updHead_free (d : Dev) (h : Nat) (f : HeadSt → HeadSt) : (d.updHead h f).free = d.free := rfl
@[simp] theorem Dev.updHead_resp (d : Dev) (h : Nat) (f : HeadSt → HeadSt) : (d.updHead h f).resp = d.resp := rfl
@[simp] theorem Dev.updHead_keep (d : Dev) (h : Nat) (f : HeadSt → HeadSt) : (d.updHead h f).keep = d.keep := rfl
@[simp] theorem Dev.updHead_pw (d : Dev) (h : Nat) (f : HeadSt → HeadSt) : (d.updHead h f).pw = d.pw := rfl
@[simp] theorem Dev.updHead_yokes (d : Dev) (h : Nat) (f : HeadSt → HeadSt) : (d.updHead h f).yokes = d.yokes := rfl
@[simp] theorem Dev.updHead_ld (d : Dev) (h : Nat) (f : HeadSt → HeadSt) : (d.updHead h f).ld = d.ld := rfl
@[simp] theorem Dev.updHead_jtag (d : Dev) (h : Nat) (f : HeadSt → HeadSt) : (d.updHead h f).jtag = d.jtag := rfl
@[simp] theorem Dev.updHead_rd (d : Dev) (h : Nat) (f : HeadSt → HeadSt) (o : Nat) : (d.updHead h f).rd o = d.rd o := rfl
@[simp] theorem Dev.updFlock_regs (d : Dev) (h : Nat) (f : FlockSt → FlockSt) : (d.updFlock h f).regs = d.regs := rfl
@[simp] theorem Dev.updFlock_ht (d : Dev) (h : Nat) (f : FlockSt → FlockSt) : (d.updFlock h f).ht = d.ht := rfl
@[simp] theorem Dev.updFlock_clk (d : Dev) (h : Nat) (f : FlockSt → FlockSt) : (d.updFlock h f).clk = d.clk := rfl
@[simp] theorem Dev.updFlock_free (d : Dev) (h : Nat) (f : FlockSt → FlockSt) : (d.updFlock h f).free = d.free := rfl
@[simp] theorem Dev.updFlock_resp (d : Dev) (h : Nat) (f : FlockSt → FlockSt) : (d.updFlock h f).resp = d.resp := rfl
@[simp] theorem Dev.updFlock_keep (d : Dev) (h : Nat) (f : FlockSt → FlockSt) : (d.updFlock h f).keep = d.keep := rfl
@[simp] theorem Dev.updFlock_pw (d : Dev) (h : Nat) (f : FlockSt → FlockSt) : (d.updFlock h f).pw = d.pw := rfl
@[simp] theorem Dev.updFlock_yokes (d : Dev) (h : Nat) (f : FlockSt → FlockSt) : (d.updFlock h f).yokes = d.yokes := rfl
@[simp] theorem Dev.updFlock_ld (d : Dev) (h : Nat) (f : FlockSt → FlockSt) : (d.updFlock h f).ld = d.ld := rfl
@[simp] theorem Dev.updFlock_jtag (d : Dev) (h : Nat) (f : FlockSt → FlockSt) : (d.updFlock h f).jtag = d.jtag := rfl
@[simp] theorem Dev.updFlock_rd (d : Dev) (h : Nat) (f : FlockSt → FlockSt) (o : Nat) : (d.updFlock h f).rd o = d.rd o := rfl
@[simp] theorem Dev.ldUpd_regs (d : Dev) (f : Loader → Loader) : (d.ldUpd f).regs = d.regs := rfl
@[simp] theorem Dev.ldUpd_ht (d : Dev) (f : Loader → Loader) : (d.ldUpd f).ht = d.ht := rfl
@[simp] theorem Dev.ldUpd_clk (d : Dev) (f : Loader → Loader) : (d.ldUpd f).clk = d.clk := rfl
@[simp] theorem Dev.ldUpd_free (d : Dev) (f : Loader → Loader) : (d.ldUpd f).free = d.free := rfl
@[simp] theorem Dev.ldUpd_resp (d : Dev) (f : Loader → Loader) : (d.ldUpd f).resp = d.resp := rfl
@[simp] theorem Dev.ldUpd_keep (d : Dev) (f : Loader → Loader) : (d.ldUpd f).keep = d.keep := rfl
@[simp] theorem Dev.ldUpd_pw (d : Dev) (f : Loader → Loader) : (d.ldUpd f).pw = d.pw := rfl
@[simp] theorem Dev.ldUpd_yokes (d : Dev) (f : Loader → Loader) : (d.ldUpd f).yokes = d.yokes := rfl
@[simp] theorem Dev.ldUpd_jtag (d : Dev) (f : Loader → Loader) : (d.ldUpd f).jtag = d.jtag := rfl
@[simp] theorem Dev.ldUpd_rd (d : Dev) (f : Loader → Loader) (o : Nat) : (d.ldUpd f).rd o = d.rd o := rfl
@[simp] theorem Dev.pwUpd_regs (d : Dev) (f : PwrSt → PwrSt) : (d.pwUpd f).regs = d.regs := rfl
@[simp] theorem Dev.pwUpd_ht (d : Dev) (f : PwrSt → PwrSt) : (d.pwUpd f).ht = d.ht := rfl
@[simp] theorem Dev.pwUpd_clk (d : Dev) (f : PwrSt → PwrSt) : (d.pwUpd f).clk = d.clk := rfl
@[simp] theorem Dev.pwUpd_free (d : Dev) (f : PwrSt → PwrSt) : (d.pwUpd f).free = d.free := rfl
@[simp] theorem Dev.pwUpd_resp (d : Dev) (f : PwrSt → PwrSt) : (d.pwUpd f).resp = d.resp := rfl
@[simp] theorem Dev.pwUpd_keep (d : Dev) (f : PwrSt → PwrSt) : (d.pwUpd f).keep = d.keep := rfl
@[simp] theorem Dev.pwUpd_yokes (d : Dev) (f : PwrSt → PwrSt) : (d.pwUpd f).yokes = d.yokes := rfl
@[simp] theorem Dev.pwUpd_ld (d : Dev) (f : PwrSt → PwrSt) : (d.pwUpd f).ld = d.ld := rfl
@[simp] theorem Dev.pwUpd_jtag (d : Dev) (f : PwrSt → PwrSt) : (d.pwUpd f).jtag = d.jtag := rfl
@[simp] theorem Dev.pwUpd_rd (d : Dev) (f : PwrSt → PwrSt) (o : Nat) : (d.pwUpd f).rd o = d.rd o := rfl
@[simp] theorem Dev.drvUpd_regs (d : Dev) (f : DrvSt → DrvSt) : (d.drvUpd f).regs = d.regs := rfl
@[simp] theorem Dev.drvUpd_ht (d : Dev) (f : DrvSt → DrvSt) : (d.drvUpd f).ht = d.ht := rfl
@[simp] theorem Dev.drvUpd_clk (d : Dev) (f : DrvSt → DrvSt) : (d.drvUpd f).clk = d.clk := rfl
@[simp] theorem Dev.drvUpd_free (d : Dev) (f : DrvSt → DrvSt) : (d.drvUpd f).free = d.free := rfl
@[simp] theorem Dev.drvUpd_resp (d : Dev) (f : DrvSt → DrvSt) : (d.drvUpd f).resp = d.resp := rfl
@[simp] theorem Dev.drvUpd_keep (d : Dev) (f : DrvSt → DrvSt) : (d.drvUpd f).keep = d.keep := rfl
@[simp] theorem Dev.drvUpd_pw (d : Dev) (f : DrvSt → DrvSt) : (d.drvUpd f).pw = d.pw := rfl
@[simp] theorem Dev.drvUpd_yokes (d : Dev) (f : DrvSt → DrvSt) : (d.drvUpd f).yokes = d.yokes := rfl
@[simp] theorem Dev.drvUpd_ld (d : Dev) (f : DrvSt → DrvSt) : (d.drvUpd f).ld = d.ld := rfl
@[simp] theorem Dev.drvUpd_jtag (d : Dev) (f : DrvSt → DrvSt) : (d.drvUpd f).jtag = d.jtag := rfl
@[simp] theorem Dev.drvUpd_rd (d : Dev) (f : DrvSt → DrvSt) (o : Nat) : (d.drvUpd f).rd o = d.rd o := rfl
@[simp] theorem Dev.mcUpd_regs (d : Dev) (f : MemCtl → MemCtl) : (d.mcUpd f).regs = d.regs := rfl
@[simp] theorem Dev.mcUpd_ht (d : Dev) (f : MemCtl → MemCtl) : (d.mcUpd f).ht = d.ht := rfl
@[simp] theorem Dev.mcUpd_clk (d : Dev) (f : MemCtl → MemCtl) : (d.mcUpd f).clk = d.clk := rfl
@[simp] theorem Dev.mcUpd_free (d : Dev) (f : MemCtl → MemCtl) : (d.mcUpd f).free = d.free := rfl
@[simp] theorem Dev.mcUpd_resp (d : Dev) (f : MemCtl → MemCtl) : (d.mcUpd f).resp = d.resp := rfl
@[simp] theorem Dev.mcUpd_keep (d : Dev) (f : MemCtl → MemCtl) : (d.mcUpd f).keep = d.keep := rfl
@[simp] theorem Dev.mcUpd_pw (d : Dev) (f : MemCtl → MemCtl) : (d.mcUpd f).pw = d.pw := rfl
@[simp] theorem Dev.mcUpd_yokes (d : Dev) (f : MemCtl → MemCtl) : (d.mcUpd f).yokes = d.yokes := rfl
@[simp] theorem Dev.mcUpd_ld (d : Dev) (f : MemCtl → MemCtl) : (d.mcUpd f).ld = d.ld := rfl
@[simp] theorem Dev.mcUpd_jtag (d : Dev) (f : MemCtl → MemCtl) : (d.mcUpd f).jtag = d.jtag := rfl
@[simp] theorem Dev.mcUpd_rd (d : Dev) (f : MemCtl → MemCtl) (o : Nat) : (d.mcUpd f).rd o = d.rd o := rfl
@[simp] theorem Dev.kp_regs (d : Dev) (f : Keep → Keep) : (d.kp f).regs = d.regs := rfl
@[simp] theorem Dev.kp_ht (d : Dev) (f : Keep → Keep) : (d.kp f).ht = d.ht := rfl
@[simp] theorem Dev.kp_clk (d : Dev) (f : Keep → Keep) : (d.kp f).clk = d.clk := rfl
@[simp] theorem Dev.kp_free (d : Dev) (f : Keep → Keep) : (d.kp f).free = d.free := rfl
@[simp] theorem Dev.kp_resp (d : Dev) (f : Keep → Keep) : (d.kp f).resp = d.resp := rfl
@[simp] theorem Dev.kp_pw (d : Dev) (f : Keep → Keep) : (d.kp f).pw = d.pw := rfl
@[simp] theorem Dev.kp_yokes (d : Dev) (f : Keep → Keep) : (d.kp f).yokes = d.yokes := rfl
@[simp] theorem Dev.kp_ld (d : Dev) (f : Keep → Keep) : (d.kp f).ld = d.ld := rfl
@[simp] theorem Dev.kp_jtag (d : Dev) (f : Keep → Keep) : (d.kp f).jtag = d.jtag := rfl
@[simp] theorem Dev.kp_rd (d : Dev) (f : Keep → Keep) (o : Nat) : (d.kp f).rd o = d.rd o := rfl
@[simp] theorem Dev.updPh_regs (d : Dev) (n : Nat) (f : PhSt → PhSt) : (d.updPh n f).regs = d.regs := rfl
@[simp] theorem Dev.updPh_ht (d : Dev) (n : Nat) (f : PhSt → PhSt) : (d.updPh n f).ht = d.ht := rfl
@[simp] theorem Dev.updPh_clk (d : Dev) (n : Nat) (f : PhSt → PhSt) : (d.updPh n f).clk = d.clk := rfl
@[simp] theorem Dev.updPh_free (d : Dev) (n : Nat) (f : PhSt → PhSt) : (d.updPh n f).free = d.free := rfl
@[simp] theorem Dev.updPh_resp (d : Dev) (n : Nat) (f : PhSt → PhSt) : (d.updPh n f).resp = d.resp := rfl
@[simp] theorem Dev.updPh_keep (d : Dev) (n : Nat) (f : PhSt → PhSt) : (d.updPh n f).keep = d.keep := rfl
@[simp] theorem Dev.updPh_pw (d : Dev) (n : Nat) (f : PhSt → PhSt) : (d.updPh n f).pw = d.pw := rfl
@[simp] theorem Dev.updPh_yokes (d : Dev) (n : Nat) (f : PhSt → PhSt) : (d.updPh n f).yokes = d.yokes := rfl
@[simp] theorem Dev.updPh_ld (d : Dev) (n : Nat) (f : PhSt → PhSt) : (d.updPh n f).ld = d.ld := rfl
@[simp] theorem Dev.updPh_jtag (d : Dev) (n : Nat) (f : PhSt → PhSt) : (d.updPh n f).jtag = d.jtag := rfl
@[simp] theorem Dev.updPh_rd (d : Dev) (n : Nat) (f : PhSt → PhSt) (o : Nat) : (d.updPh n f).rd o = d.rd o := rfl
@[simp] theorem Dev.updTm_regs (d : Dev) (u c : Nat) (f : TmSt → TmSt) : (d.updTm u c f).regs = d.regs := rfl
@[simp] theorem Dev.updTm_ht (d : Dev) (u c : Nat) (f : TmSt → TmSt) : (d.updTm u c f).ht = d.ht := rfl
@[simp] theorem Dev.updTm_clk (d : Dev) (u c : Nat) (f : TmSt → TmSt) : (d.updTm u c f).clk = d.clk := rfl
@[simp] theorem Dev.updTm_free (d : Dev) (u c : Nat) (f : TmSt → TmSt) : (d.updTm u c f).free = d.free := rfl
@[simp] theorem Dev.updTm_resp (d : Dev) (u c : Nat) (f : TmSt → TmSt) : (d.updTm u c f).resp = d.resp := rfl
@[simp] theorem Dev.updTm_keep (d : Dev) (u c : Nat) (f : TmSt → TmSt) : (d.updTm u c f).keep = d.keep := rfl
@[simp] theorem Dev.updTm_pw (d : Dev) (u c : Nat) (f : TmSt → TmSt) : (d.updTm u c f).pw = d.pw := rfl
@[simp] theorem Dev.updTm_yokes (d : Dev) (u c : Nat) (f : TmSt → TmSt) : (d.updTm u c f).yokes = d.yokes := rfl
@[simp] theorem Dev.updTm_ld (d : Dev) (u c : Nat) (f : TmSt → TmSt) : (d.updTm u c f).ld = d.ld := rfl
@[simp] theorem Dev.updTm_jtag (d : Dev) (u c : Nat) (f : TmSt → TmSt) : (d.updTm u c f).jtag = d.jtag := rfl
@[simp] theorem Dev.updTm_rd (d : Dev) (u c : Nat) (f : TmSt → TmSt) (o : Nat) : (d.updTm u c f).rd o = d.rd o := rfl
@[simp] theorem Dev.hdUpd_regs (d : Dev) (f : HerdSt → HerdSt) : (d.hdUpd f).regs = d.regs := rfl
@[simp] theorem Dev.hdUpd_ht (d : Dev) (f : HerdSt → HerdSt) : (d.hdUpd f).ht = d.ht := rfl
@[simp] theorem Dev.hdUpd_clk (d : Dev) (f : HerdSt → HerdSt) : (d.hdUpd f).clk = d.clk := rfl
@[simp] theorem Dev.hdUpd_free (d : Dev) (f : HerdSt → HerdSt) : (d.hdUpd f).free = d.free := rfl
@[simp] theorem Dev.hdUpd_resp (d : Dev) (f : HerdSt → HerdSt) : (d.hdUpd f).resp = d.resp := rfl
@[simp] theorem Dev.hdUpd_keep (d : Dev) (f : HerdSt → HerdSt) : (d.hdUpd f).keep = d.keep := rfl
@[simp] theorem Dev.hdUpd_pw (d : Dev) (f : HerdSt → HerdSt) : (d.hdUpd f).pw = d.pw := rfl
@[simp] theorem Dev.hdUpd_yokes (d : Dev) (f : HerdSt → HerdSt) : (d.hdUpd f).yokes = d.yokes := rfl
@[simp] theorem Dev.hdUpd_ld (d : Dev) (f : HerdSt → HerdSt) : (d.hdUpd f).ld = d.ld := rfl
@[simp] theorem Dev.hdUpd_jtag (d : Dev) (f : HerdSt → HerdSt) : (d.hdUpd f).jtag = d.jtag := rfl
@[simp] theorem Dev.hdUpd_rd (d : Dev) (f : HerdSt → HerdSt) (o : Nat) : (d.hdUpd f).rd o = d.rd o := rfl
@[simp] theorem Dev.auUpd_regs (d : Dev) (f : AudioSt → AudioSt) : (d.auUpd f).regs = d.regs := rfl
@[simp] theorem Dev.auUpd_ht (d : Dev) (f : AudioSt → AudioSt) : (d.auUpd f).ht = d.ht := rfl
@[simp] theorem Dev.auUpd_clk (d : Dev) (f : AudioSt → AudioSt) : (d.auUpd f).clk = d.clk := rfl
@[simp] theorem Dev.auUpd_free (d : Dev) (f : AudioSt → AudioSt) : (d.auUpd f).free = d.free := rfl
@[simp] theorem Dev.auUpd_resp (d : Dev) (f : AudioSt → AudioSt) : (d.auUpd f).resp = d.resp := rfl
@[simp] theorem Dev.auUpd_keep (d : Dev) (f : AudioSt → AudioSt) : (d.auUpd f).keep = d.keep := rfl
@[simp] theorem Dev.auUpd_pw (d : Dev) (f : AudioSt → AudioSt) : (d.auUpd f).pw = d.pw := rfl
@[simp] theorem Dev.auUpd_yokes (d : Dev) (f : AudioSt → AudioSt) : (d.auUpd f).yokes = d.yokes := rfl
@[simp] theorem Dev.auUpd_ld (d : Dev) (f : AudioSt → AudioSt) : (d.auUpd f).ld = d.ld := rfl
@[simp] theorem Dev.auUpd_jtag (d : Dev) (f : AudioSt → AudioSt) : (d.auUpd f).jtag = d.jtag := rfl
@[simp] theorem Dev.auUpd_rd (d : Dev) (f : AudioSt → AudioSt) (o : Nat) : (d.auUpd f).rd o = d.rd o := rfl
@[simp] theorem Dev.updRail_regs (d : Dev) (f : Rail → Rail) : (d.updRail f).regs = d.regs := rfl
@[simp] theorem Dev.updRail_ht (d : Dev) (f : Rail → Rail) : (d.updRail f).ht = d.ht := rfl
@[simp] theorem Dev.updRail_clk (d : Dev) (f : Rail → Rail) : (d.updRail f).clk = d.clk := rfl
@[simp] theorem Dev.updRail_free (d : Dev) (f : Rail → Rail) : (d.updRail f).free = d.free := rfl
@[simp] theorem Dev.updRail_resp (d : Dev) (f : Rail → Rail) : (d.updRail f).resp = d.resp := rfl
@[simp] theorem Dev.updRail_keep (d : Dev) (f : Rail → Rail) : (d.updRail f).keep = d.keep := rfl
@[simp] theorem Dev.updRail_pw (d : Dev) (f : Rail → Rail) : (d.updRail f).pw = d.pw := rfl
@[simp] theorem Dev.updRail_yokes (d : Dev) (f : Rail → Rail) : (d.updRail f).yokes = d.yokes := rfl
@[simp] theorem Dev.updRail_ld (d : Dev) (f : Rail → Rail) : (d.updRail f).ld = d.ld := rfl
@[simp] theorem Dev.updRail_jtag (d : Dev) (f : Rail → Rail) : (d.updRail f).jtag = d.jtag := rfl
@[simp] theorem Dev.updRail_rd (d : Dev) (f : Rail → Rail) (o : Nat) : (d.updRail f).rd o = d.rd o := rfl
@[simp] theorem Dev.muleUpd_regs (d : Dev) (f : MuleSt → MuleSt) : (d.muleUpd f).regs = d.regs := rfl
@[simp] theorem Dev.muleUpd_ht (d : Dev) (f : MuleSt → MuleSt) : (d.muleUpd f).ht = d.ht := rfl
@[simp] theorem Dev.muleUpd_clk (d : Dev) (f : MuleSt → MuleSt) : (d.muleUpd f).clk = d.clk := rfl
@[simp] theorem Dev.muleUpd_free (d : Dev) (f : MuleSt → MuleSt) : (d.muleUpd f).free = d.free := rfl
@[simp] theorem Dev.muleUpd_resp (d : Dev) (f : MuleSt → MuleSt) : (d.muleUpd f).resp = d.resp := rfl
@[simp] theorem Dev.muleUpd_keep (d : Dev) (f : MuleSt → MuleSt) : (d.muleUpd f).keep = d.keep := rfl
@[simp] theorem Dev.muleUpd_pw (d : Dev) (f : MuleSt → MuleSt) : (d.muleUpd f).pw = d.pw := rfl
@[simp] theorem Dev.muleUpd_yokes (d : Dev) (f : MuleSt → MuleSt) : (d.muleUpd f).yokes = d.yokes := rfl
@[simp] theorem Dev.muleUpd_ld (d : Dev) (f : MuleSt → MuleSt) : (d.muleUpd f).ld = d.ld := rfl
@[simp] theorem Dev.muleUpd_jtag (d : Dev) (f : MuleSt → MuleSt) : (d.muleUpd f).jtag = d.jtag := rfl
@[simp] theorem Dev.muleUpd_rd (d : Dev) (f : MuleSt → MuleSt) (o : Nat) : (d.muleUpd f).rd o = d.rd o := rfl
@[simp] theorem Dev.gpUpd_regs (d : Dev) (f : GpioSt → GpioSt) : (d.gpUpd f).regs = d.regs := rfl
@[simp] theorem Dev.gpUpd_ht (d : Dev) (f : GpioSt → GpioSt) : (d.gpUpd f).ht = d.ht := rfl
@[simp] theorem Dev.gpUpd_clk (d : Dev) (f : GpioSt → GpioSt) : (d.gpUpd f).clk = d.clk := rfl
@[simp] theorem Dev.gpUpd_free (d : Dev) (f : GpioSt → GpioSt) : (d.gpUpd f).free = d.free := rfl
@[simp] theorem Dev.gpUpd_resp (d : Dev) (f : GpioSt → GpioSt) : (d.gpUpd f).resp = d.resp := rfl
@[simp] theorem Dev.gpUpd_keep (d : Dev) (f : GpioSt → GpioSt) : (d.gpUpd f).keep = d.keep := rfl
@[simp] theorem Dev.gpUpd_pw (d : Dev) (f : GpioSt → GpioSt) : (d.gpUpd f).pw = d.pw := rfl
@[simp] theorem Dev.gpUpd_yokes (d : Dev) (f : GpioSt → GpioSt) : (d.gpUpd f).yokes = d.yokes := rfl
@[simp] theorem Dev.gpUpd_ld (d : Dev) (f : GpioSt → GpioSt) : (d.gpUpd f).ld = d.ld := rfl
@[simp] theorem Dev.gpUpd_jtag (d : Dev) (f : GpioSt → GpioSt) : (d.gpUpd f).jtag = d.jtag := rfl
@[simp] theorem Dev.gpUpd_rd (d : Dev) (f : GpioSt → GpioSt) (o : Nat) : (d.gpUpd f).rd o = d.rd o := rfl
@[simp] theorem Dev.jtUpd_regs (d : Dev) (f : JtagSt → JtagSt) : (d.jtUpd f).regs = d.regs := rfl
@[simp] theorem Dev.jtUpd_ht (d : Dev) (f : JtagSt → JtagSt) : (d.jtUpd f).ht = d.ht := rfl
@[simp] theorem Dev.jtUpd_clk (d : Dev) (f : JtagSt → JtagSt) : (d.jtUpd f).clk = d.clk := rfl
@[simp] theorem Dev.jtUpd_free (d : Dev) (f : JtagSt → JtagSt) : (d.jtUpd f).free = d.free := rfl
@[simp] theorem Dev.jtUpd_resp (d : Dev) (f : JtagSt → JtagSt) : (d.jtUpd f).resp = d.resp := rfl
@[simp] theorem Dev.jtUpd_keep (d : Dev) (f : JtagSt → JtagSt) : (d.jtUpd f).keep = d.keep := rfl
@[simp] theorem Dev.jtUpd_pw (d : Dev) (f : JtagSt → JtagSt) : (d.jtUpd f).pw = d.pw := rfl
@[simp] theorem Dev.jtUpd_yokes (d : Dev) (f : JtagSt → JtagSt) : (d.jtUpd f).yokes = d.yokes := rfl
@[simp] theorem Dev.jtUpd_ld (d : Dev) (f : JtagSt → JtagSt) : (d.jtUpd f).ld = d.ld := rfl
@[simp] theorem Dev.jtUpd_rd (d : Dev) (f : JtagSt → JtagSt) (o : Nat) : (d.jtUpd f).rd o = d.rd o := rfl
@[simp] theorem Dev.updCk_regs (d : Dev) (m : Nat) (f : CkSt → CkSt) : (d.updCk m f).regs = d.regs := rfl
@[simp] theorem Dev.updCk_ht (d : Dev) (m : Nat) (f : CkSt → CkSt) : (d.updCk m f).ht = d.ht := rfl
@[simp] theorem Dev.updCk_clk (d : Dev) (m : Nat) (f : CkSt → CkSt) : (d.updCk m f).clk = d.clk := rfl
@[simp] theorem Dev.updCk_free (d : Dev) (m : Nat) (f : CkSt → CkSt) : (d.updCk m f).free = d.free := rfl
@[simp] theorem Dev.updCk_resp (d : Dev) (m : Nat) (f : CkSt → CkSt) : (d.updCk m f).resp = d.resp := rfl
@[simp] theorem Dev.updCk_keep (d : Dev) (m : Nat) (f : CkSt → CkSt) : (d.updCk m f).keep = d.keep := rfl
@[simp] theorem Dev.updCk_pw (d : Dev) (m : Nat) (f : CkSt → CkSt) : (d.updCk m f).pw = d.pw := rfl
@[simp] theorem Dev.updCk_yokes (d : Dev) (m : Nat) (f : CkSt → CkSt) : (d.updCk m f).yokes = d.yokes := rfl
@[simp] theorem Dev.updCk_ld (d : Dev) (m : Nat) (f : CkSt → CkSt) : (d.updCk m f).ld = d.ld := rfl
@[simp] theorem Dev.updCk_jtag (d : Dev) (m : Nat) (f : CkSt → CkSt) : (d.updCk m f).jtag = d.jtag := rfl
@[simp] theorem Dev.updCk_rd (d : Dev) (m : Nat) (f : CkSt → CkSt) (o : Nat) : (d.updCk m f).rd o = d.rd o := rfl
@[simp] theorem Dev.updCell_regs (d : Dev) (c p : Nat) (f : CellSt → CellSt) : (d.updCell c p f).regs = d.regs := rfl
@[simp] theorem Dev.updCell_ht (d : Dev) (c p : Nat) (f : CellSt → CellSt) : (d.updCell c p f).ht = d.ht := rfl
@[simp] theorem Dev.updCell_clk (d : Dev) (c p : Nat) (f : CellSt → CellSt) : (d.updCell c p f).clk = d.clk := rfl
@[simp] theorem Dev.updCell_free (d : Dev) (c p : Nat) (f : CellSt → CellSt) : (d.updCell c p f).free = d.free := rfl
@[simp] theorem Dev.updCell_resp (d : Dev) (c p : Nat) (f : CellSt → CellSt) : (d.updCell c p f).resp = d.resp := rfl
@[simp] theorem Dev.updCell_keep (d : Dev) (c p : Nat) (f : CellSt → CellSt) : (d.updCell c p f).keep = d.keep := rfl
@[simp] theorem Dev.updCell_pw (d : Dev) (c p : Nat) (f : CellSt → CellSt) : (d.updCell c p f).pw = d.pw := rfl
@[simp] theorem Dev.updCell_yokes (d : Dev) (c p : Nat) (f : CellSt → CellSt) : (d.updCell c p f).yokes = d.yokes := rfl
@[simp] theorem Dev.updCell_ld (d : Dev) (c p : Nat) (f : CellSt → CellSt) : (d.updCell c p f).ld = d.ld := rfl
@[simp] theorem Dev.updCell_jtag (d : Dev) (c p : Nat) (f : CellSt → CellSt) : (d.updCell c p f).jtag = d.jtag := rfl
@[simp] theorem Dev.updCell_rd (d : Dev) (c p : Nat) (f : CellSt → CellSt) (o : Nat) : (d.updCell c p f).rd o = d.rd o := rfl
@[simp] theorem Dev.updLs_regs (d : Dev) (h : Nat) (f : LsSt → LsSt) : (d.updLs h f).regs = d.regs := rfl
@[simp] theorem Dev.updLs_ht (d : Dev) (h : Nat) (f : LsSt → LsSt) : (d.updLs h f).ht = d.ht := rfl
@[simp] theorem Dev.updLs_clk (d : Dev) (h : Nat) (f : LsSt → LsSt) : (d.updLs h f).clk = d.clk := rfl
@[simp] theorem Dev.updLs_free (d : Dev) (h : Nat) (f : LsSt → LsSt) : (d.updLs h f).free = d.free := rfl
@[simp] theorem Dev.updLs_resp (d : Dev) (h : Nat) (f : LsSt → LsSt) : (d.updLs h f).resp = d.resp := rfl
@[simp] theorem Dev.updLs_keep (d : Dev) (h : Nat) (f : LsSt → LsSt) : (d.updLs h f).keep = d.keep := rfl
@[simp] theorem Dev.updLs_pw (d : Dev) (h : Nat) (f : LsSt → LsSt) : (d.updLs h f).pw = d.pw := rfl
@[simp] theorem Dev.updLs_yokes (d : Dev) (h : Nat) (f : LsSt → LsSt) : (d.updLs h f).yokes = d.yokes := rfl
@[simp] theorem Dev.updLs_ld (d : Dev) (h : Nat) (f : LsSt → LsSt) : (d.updLs h f).ld = d.ld := rfl
@[simp] theorem Dev.updLs_jtag (d : Dev) (h : Nat) (f : LsSt → LsSt) : (d.updLs h f).jtag = d.jtag := rfl
@[simp] theorem Dev.updLs_rd (d : Dev) (h : Nat) (f : LsSt → LsSt) (o : Nat) : (d.updLs h f).rd o = d.rd o := rfl
@[simp] theorem Dev.setTasks_regs (d : Dev) (t : Nat) (l : List Arrival) : (d.setTasks t l).regs = d.regs := rfl
@[simp] theorem Dev.setTasks_ht (d : Dev) (t : Nat) (l : List Arrival) : (d.setTasks t l).ht = d.ht := rfl
@[simp] theorem Dev.setTasks_clk (d : Dev) (t : Nat) (l : List Arrival) : (d.setTasks t l).clk = d.clk := rfl
@[simp] theorem Dev.setTasks_free (d : Dev) (t : Nat) (l : List Arrival) : (d.setTasks t l).free = d.free := rfl
@[simp] theorem Dev.setTasks_resp (d : Dev) (t : Nat) (l : List Arrival) : (d.setTasks t l).resp = d.resp := rfl
@[simp] theorem Dev.setTasks_keep (d : Dev) (t : Nat) (l : List Arrival) : (d.setTasks t l).keep = d.keep := rfl
@[simp] theorem Dev.setTasks_pw (d : Dev) (t : Nat) (l : List Arrival) : (d.setTasks t l).pw = d.pw := rfl
@[simp] theorem Dev.setTasks_yokes (d : Dev) (t : Nat) (l : List Arrival) : (d.setTasks t l).yokes = d.yokes := rfl
@[simp] theorem Dev.setTasks_ld (d : Dev) (t : Nat) (l : List Arrival) : (d.setTasks t l).ld = d.ld := rfl
@[simp] theorem Dev.setTasks_jtag (d : Dev) (t : Nat) (l : List Arrival) : (d.setTasks t l).jtag = d.jtag := rfl
@[simp] theorem Dev.setTasks_rd (d : Dev) (t : Nat) (l : List Arrival) (o : Nat) : (d.setTasks t l).rd o = d.rd o := rfl
@[simp] theorem Dev.setSrc_regs (d : Dev) (n : Nat) (x : Src) : (d.setSrc n x).regs = d.regs := rfl
@[simp] theorem Dev.setSrc_ht (d : Dev) (n : Nat) (x : Src) : (d.setSrc n x).ht = d.ht := rfl
@[simp] theorem Dev.setSrc_clk (d : Dev) (n : Nat) (x : Src) : (d.setSrc n x).clk = d.clk := rfl
@[simp] theorem Dev.setSrc_free (d : Dev) (n : Nat) (x : Src) : (d.setSrc n x).free = d.free := rfl
@[simp] theorem Dev.setSrc_resp (d : Dev) (n : Nat) (x : Src) : (d.setSrc n x).resp = d.resp := rfl
@[simp] theorem Dev.setSrc_keep (d : Dev) (n : Nat) (x : Src) : (d.setSrc n x).keep = d.keep := rfl
@[simp] theorem Dev.setSrc_pw (d : Dev) (n : Nat) (x : Src) : (d.setSrc n x).pw = d.pw := rfl
@[simp] theorem Dev.setSrc_yokes (d : Dev) (n : Nat) (x : Src) : (d.setSrc n x).yokes = d.yokes := rfl
@[simp] theorem Dev.setSrc_ld (d : Dev) (n : Nat) (x : Src) : (d.setSrc n x).ld = d.ld := rfl
@[simp] theorem Dev.setSrc_jtag (d : Dev) (n : Nat) (x : Src) : (d.setSrc n x).jtag = d.jtag := rfl
@[simp] theorem Dev.setSrc_rd (d : Dev) (n : Nat) (x : Src) (o : Nat) : (d.setSrc n x).rd o = d.rd o := rfl

/-! ### State.upd -/

@[simp] theorem State.upd_dev (s : State) (f : Dev → Dev) : (s.upd f).dev = f s.dev := rfl
@[simp] theorem State.upd_mem (s : State) (f : Dev → Dev) : (s.upd f).mem = s.mem := rfl
@[simp] theorem State.upd_pending (s : State) (f : Dev → Dev) : (s.upd f).pending = s.pending := rfl
theorem State.next_eq (s : State) (f : Dev → Dev) : s.next f = .next (s.upd f) := rfl

/-! ### Registers -/

/-- A read of a register after a write of one. -/
theorem Dev.rd_wr (d : Dev) (o : Nat) (v : Word) (o' : Nat) : (d.wr o v).rd o' = if o' = o then v else d.rd o' :=
  Store.get_set resetWord d.regs o v o'
@[simp] theorem Dev.rd_wr_same (d : Dev) (o : Nat) (v : Word) : (d.wr o v).rd o = v := by simp [Dev.rd_wr]
theorem Dev.rd_wr_ne (d : Dev) {o o' : Nat} (v : Word) (h : o' ≠ o) : (d.wr o v).rd o' = d.rd o' := by simp [Dev.rd_wr, h]
@[simp] theorem Dev.rd_answer (d : Dev) (r : Resp) (o : Nat) : (d.answer r).rd o = d.rd o := rfl
@[simp] theorem Dev.rd_okay (d : Dev) (o : Nat) : d.okay.rd o = d.rd o := rfl
@[simp] theorem Dev.rd_deny (d : Dev) (o : Nat) : d.deny.rd o = d.rd o := rfl
@[simp] theorem Dev.rd_pass (d : Dev) (n o : Nat) : (d.pass n).rd o = d.rd o := rfl

/-- The fields of a register other than the one written are as they were. -/
theorem Dev.rd_setFld_ne (d : Dev) {o o' : Nat} (hi lo v : Nat) (h : o' ≠ o) : (d.setFld o hi lo v).rd o' = d.rd o' :=
  Dev.rd_wr_ne d _ h
theorem Dev.rd_setBit_ne (d : Dev) {o o' : Nat} (n : Nat) (h : o' ≠ o) : (d.setBit o n).rd o' = d.rd o' := Dev.rd_wr_ne d _ h
theorem Dev.rd_clrBit_ne (d : Dev) {o o' : Nat} (n : Nat) (h : o' ≠ o) : (d.clrBit o n).rd o' = d.rd o' := Dev.rd_wr_ne d _ h
theorem Dev.rd_putBit_ne (d : Dev) {o o' : Nat} (n : Nat) (b : Bool) (h : o' ≠ o) : (d.putBit o n b).rd o' = d.rd o' := by
  cases b <;> exact Dev.rd_wr_ne d _ h

/-- One bit of a power of two. -/
theorem w32_two_pow_bit (n m : Nat) (h : n < 32) : (w32 (2 ^ n)).getLsbD m = decide (m = n) := by
  simp only [w32, BitVec.getLsbD_ofNat, Nat.testBit_two_pow]
  by_cases hm : m = n
  · subst hm; simp [h]
  · have : ¬ n = m := fun x => hm x.symm
    simp [hm, this]

/-- A bit after it is set. -/
theorem Dev.bit_setBit (d : Dev) (o n m : Nat) (h : n < 32) : (d.setBit o n).bit o m = (d.bit o m || decide (m = n)) := by
  simp only [Dev.bit, Dev.setBit, Dev.rd_wr_same, bitOf, BitVec.getLsbD_or, w32_two_pow_bit n m h]
/-- A bit after it is cleared. -/
theorem Dev.bit_clrBit (d : Dev) (o n m : Nat) (h : n < 32) (hm : m < 32) : (d.clrBit o n).bit o m = (d.bit o m && !decide (m = n)) := by
  simp only [Dev.bit, Dev.clrBit, Dev.rd_wr_same, bitOf, BitVec.getLsbD_and, BitVec.getLsbD_not, w32_two_pow_bit n m h, hm, decide_true, Bool.true_and]
theorem Dev.bit_setBit_ne (d : Dev) {o o' : Nat} (n m : Nat) (h : o' ≠ o) : (d.setBit o n).bit o' m = d.bit o' m := by
  simp only [Dev.bit, Dev.rd_setBit_ne d n h]
theorem Dev.bit_clrBit_ne (d : Dev) {o o' : Nat} (n m : Nat) (h : o' ≠ o) : (d.clrBit o n).bit o' m = d.bit o' m := by
  simp only [Dev.bit, Dev.rd_clrBit_ne d n h]
theorem Dev.bit_wr_ne (d : Dev) {o o' : Nat} (v : Word) (m : Nat) (h : o' ≠ o) : (d.wr o v).bit o' m = d.bit o' m := by
  simp only [Dev.bit, Dev.rd_wr_ne d v h]

/-! ### Yokes -/

@[simp] theorem Dev.yk_wr (d : Dev) (o : Nat) (v : Word) (y : Nat) : (d.wr o v).yk y = d.yk y := rfl
@[simp] theorem Dev.yk_setFld (d : Dev) (o hi lo v y : Nat) : (d.setFld o hi lo v).yk y = d.yk y := rfl
@[simp] theorem Dev.yk_setBit (d : Dev) (o n y : Nat) : (d.setBit o n).yk y = d.yk y := rfl
@[simp] theorem Dev.yk_clrBit (d : Dev) (o n y : Nat) : (d.clrBit o n).yk y = d.yk y := rfl
@[simp] theorem Dev.yk_putBit (d : Dev) (o n : Nat) (b : Bool) (y : Nat) : (d.putBit o n b).yk y = d.yk y := by cases b <;> rfl
/-- A yoke after an update of one. -/
theorem Dev.yk_updYk (d : Dev) (y : Nat) (f : YokeSt → YokeSt) (z : Nat) : (d.updYk y f).yk z = if z = y then f (d.yk y) else d.yk z :=
  Store.get_set _ d.yokes y _ z
@[simp] theorem Dev.yk_updYk_same (d : Dev) (y : Nat) (f : YokeSt → YokeSt) : (d.updYk y f).yk y = f (d.yk y) := by simp [Dev.yk_updYk]

end Sys2Proof.Machine
end

