-- ==== Sys2Proof/Laws/Mem.lean ====
section
/-! SUPPORT. The memory operations keep the canonical form of the bulk memories and the queue of commands, and what they leave. -/
namespace Sys2Proof.Machine

theorem Mem.wf_iff (m : Mem) : m.wf = true ↔ Store.wf (fun _ => (0 : Byte)) m.bytes = true ∧ Store.wf (fun _ => (0 : Byte)) m.tcm = true ∧
    Store.wf (fun _ => (0xFF : Byte)) m.flash = true ∧ Store.wf (fun _ => (0 : Nat)) m.err = true := by
  simp [Mem.wf, Bool.and_eq_true, and_assoc]

/-- A change of the die alone keeps the memories. -/
theorem ok_upd {s : State} (f : Dev → Dev) (h : s.Ok) : (s.upd f).Ok := h

/-- What a transformation of the state must keep: the canonical form and the queue. -/
def Keeps (f : State → State) : Prop := ∀ s, (s.Ok → (f s).Ok) ∧ (f s).pending = s.pending

theorem keeps_upd (f : Dev → Dev) : Keeps (fun s => s.upd f) := fun _ => ⟨fun h => h, rfl⟩
theorem keeps_id : Keeps id := fun _ => ⟨fun h => h, rfl⟩
theorem keeps_comp {f g : State → State} (hf : Keeps f) (hg : Keeps g) : Keeps (fun s => f (g s)) := fun s =>
  ⟨fun h => (hf (g s)).1 ((hg s).1 h), (hf (g s)).2.trans (hg s).2⟩

/-- A repeated transformation keeps what each keeps. -/
theorem keeps_forN (n : Nat) (f : Nat → State → State) (h : ∀ i, Keeps (f i)) : Keeps (fun s => forN n s f) := by
  intro s
  unfold forN
  generalize List.range n = l
  induction l generalizing s with
  | nil => exact ⟨fun h => h, rfl⟩
  | cons i l ih =>
    have a := h i s
    have b := ih (f i s)
    exact ⟨fun w => b.1 (a.1 w), b.2.trans a.2⟩

/-- A fold keeps what each of its steps keeps. -/
theorem keeps_foldl {β : Type} (l : List β) (f : State → β → State) (h : ∀ b, Keeps (fun s => f s b)) : Keeps (fun s => l.foldl f s) := by
  intro s
  induction l generalizing s with
  | nil => exact ⟨fun h => h, rfl⟩
  | cons b l ih =>
    have a := h b s
    have c := ih (f s b)
    exact ⟨fun w => c.1 (a.1 w), c.2.trans a.2⟩

theorem keeps_touchWord (cls w : Nat) : Keeps (fun s => (touchWord cls w s).2) := by
  intro s
  unfold touchWord
  dsimp only
  split
  · exact ⟨fun h => h, rfl⟩
  · split
    · exact ⟨fun h => h, rfl⟩
    · refine ⟨fun h => ?_, rfl⟩
      have h := (Mem.wf_iff _).1 h
      exact (Mem.wf_iff _).2 ⟨h.1, h.2.1, h.2.2.1, Store.wf_set (fun _ => 0) s.mem.err w 0 h.2.2.2⟩
    · refine ⟨fun h => ?_, rfl⟩
      have h := (Mem.wf_iff _).1 h
      exact (Mem.wf_iff _).2 ⟨h.1, h.2.1, h.2.2.1, Store.wf_set (fun _ => 0) s.mem.err w 0 h.2.2.2⟩

theorem keeps_touchWords (cls n w : Nat) : Keeps (fun s => (touchWords cls n w s).2) := by
  induction n generalizing w with
  | zero => exact keeps_id
  | succ n ih =>
    intro s
    have a := keeps_touchWord cls w s
    have b := ih (w + 1) (touchWord cls w s).2
    exact ⟨fun h => b.1 (a.1 h), b.2.trans a.2⟩

/-- A read of memory keeps the canonical form. -/
theorem keeps_memRead (cls a n : Nat) : Keeps (fun s => (memRead cls a n s).2.2) := keeps_touchWords cls (wordSpan a n) (a / 32)

theorem keeps_fullWord (w : Nat) : Keeps (fullWord w) := by
  intro s
  unfold fullWord
  constructor
  · intro h
    have h := (Mem.wf_iff _).1 h
    have e1 := Store.wf_set (fun _ => 0) s.mem.err w 0 h.2.2.2
    have e2 := Store.wf_set (fun _ => 0) _ w (s.dev.fld Reg.ERR_INJECT_HI 17 16) e1
    dsimp only
    split
    · exact (Mem.wf_iff _).2 ⟨h.1, h.2.1, h.2.2.1, e2⟩
    · exact (Mem.wf_iff _).2 ⟨h.1, h.2.1, h.2.2.1, e1⟩
  · dsimp only
    split <;> rfl

/-- A write of memory keeps the canonical form. -/
theorem keeps_memWrite (a : Nat) (b : List Byte) : Keeps (memWrite a b) := by
  intro s
  unfold memWrite fullWords
  have k := keeps_forN ((a + b.length) / 32 - (a + 31) / 32) (fun i s => fullWord ((a + 31) / 32 + i) s) (fun i => keeps_fullWord _)
    { s with mem := { s.mem with bytes := Store.setList (fun _ => 0) s.mem.bytes a b }, dev := snoopMem a b s.dev }
  refine ⟨fun h => k.1 ?_, k.2⟩
  have h := (Mem.wf_iff _).1 h
  exact (Mem.wf_iff _).2 ⟨Store.wf_setList _ _ _ _ h.1, h.2.1, h.2.2.1, h.2.2.2⟩

theorem keeps_markPoison (a n : Nat) : Keeps (markPoison a n) := fun _ =>
  ⟨fun h => (Mem.wf_iff _).2 ((Mem.wf_iff _).1 h), rfl⟩
theorem keeps_memWritePoison (a : Nat) (b : List Byte) : Keeps (memWritePoison a b) := fun s =>
  have k := keeps_memWrite a b s
  ⟨fun h => (keeps_markPoison a b.length _).1 (k.1 h), k.2⟩

/-- A write of tightly coupled RAM keeps the canonical form. -/
theorem keeps_tcmPut (y a : Nat) (b : List Byte) : Keeps (tcmPut y a b) := fun _ => ⟨fun h => by
  have h := (Mem.wf_iff _).1 h
  exact (Mem.wf_iff _).2 ⟨h.1, Store.wf_setList _ _ _ _ h.2.1, h.2.2.1, h.2.2.2⟩, rfl⟩
theorem keeps_tcmClear (y : Nat) : Keeps (tcmClear y) := fun _ => ⟨fun h => by
  have h := (Mem.wf_iff _).1 h
  exact (Mem.wf_iff _).2 ⟨h.1, Store.wf_keep (fun _ => 0) (fun k => k / 2 ^ 17 != y) _ h.2.1, h.2.2.1, h.2.2.2⟩, rfl⟩
/-- Erasing a flash slot keeps the canonical form. -/
theorem keeps_eraseSlot (k : Nat) : Keeps (eraseSlot k) := fun _ => ⟨fun h => by
  have h := (Mem.wf_iff _).1 h
  exact (Mem.wf_iff _).2 ⟨h.1, h.2.1, Store.wf_keep (fun _ => 0xFF) (fun a => !(slotBase k ≤ a && a < slotBase k + 0x1000000)) _ h.2.2.1, h.2.2.2⟩, rfl⟩
theorem keeps_placeError (w : Nat) (c : CopyCond) : Keeps (placeError w c) := by
  intro s
  unfold placeError
  have e (v : Nat) : s.Ok → Store.wf (fun _ => (0 : Nat)) (Store.set (fun _ => 0) s.mem.err w v) = true := fun h =>
    Store.wf_set (fun _ => 0) s.mem.err w v ((Mem.wf_iff _).1 h).2.2.2
  cases c <;> dsimp only
  · exact ⟨fun h => h, rfl⟩
  · split
    · exact ⟨fun h => h, rfl⟩
    · exact ⟨fun h => (Mem.wf_iff _).2 ⟨((Mem.wf_iff _).1 h).1, ((Mem.wf_iff _).1 h).2.1, ((Mem.wf_iff _).1 h).2.2.1, e _ h⟩, rfl⟩
  · exact ⟨fun h => (Mem.wf_iff _).2 ⟨((Mem.wf_iff _).1 h).1, ((Mem.wf_iff _).1 h).2.1, ((Mem.wf_iff _).1 h).2.2.1, e 2 h⟩, rfl⟩
/-- The fill of the boot keeps the canonical form. -/
theorem bootFill_wf (all : Bool) (m : Mem) (h : m.wf = true) : (bootFill all m).wf = true := by
  have h := (Mem.wf_iff _).1 h
  have b := Store.wf_keep (fun _ => (0 : Byte)) (fun a => !all && (a < 0x1000800000 || 0x1001000000 ≤ a)) m.bytes h.1
  have e := Store.wf_keep (fun _ => 0) (fun w => !all && (w * 32 < 0x1000800000 || 0x1001000000 ≤ w * 32)) m.err h.2.2.2
  exact (Mem.wf_iff _).2 ⟨b, h.2.1, h.2.2.1, e⟩

/-! ### What a write of memory leaves (R459) -/

/-- The bytes of memory after a word is written in full are as they were. -/
theorem fullWord_bytes (w : Nat) (s : State) : (fullWord w s).mem.bytes = s.mem.bytes := by
  unfold fullWord
  dsimp only
  split <;> rfl
theorem fullWords_bytes (a n : Nat) (s : State) : (fullWords a n s).mem.bytes = s.mem.bytes := by
  unfold fullWords forN
  dsimp only
  generalize List.range _ = l
  induction l generalizing s with
  | nil => rfl
  | cons i l ih => exact (ih _).trans (fullWord_bytes _ s)
/-- A byte of memory after a write: the byte written, or the byte that was there. -/
theorem memWrite_byte (a : Nat) (b : List Byte) (s : State) (x : Nat) :
    Store.get (fun _ => 0) (memWrite a b s).mem.bytes x =
      if h : a ≤ x ∧ x - a < b.length then b[x - a]'h.2 else Store.get (fun _ => 0) s.mem.bytes x := by
  unfold memWrite
  rw [fullWords_bytes]
  exact Store.get_setList _ b s.mem.bytes a x
/-- A byte of tightly coupled RAM after a write. -/
theorem tcmPut_byte (y a : Nat) (b : List Byte) (s : State) (x : Nat) :
    Store.get (fun _ => 0) (tcmPut y a b s).mem.tcm x =
      if h : tcmKey y a ≤ x ∧ x - tcmKey y a < b.length then b[x - tcmKey y a]'h.2 else Store.get (fun _ => 0) s.mem.tcm x :=
  Store.get_setList _ b s.mem.tcm (tcmKey y a) x

end Sys2Proof.Machine
end

