-- ==== Sys2Proof/Laws/Conj.lean ====
section
/-! SUPPORT. What the firing of an event can do to the die (R340 to R347): only task inputs and registers of the CONJ page change. -/
namespace Sys2Proof.Machine

theorem FiringOnly.refl (d : Dev) : FiringOnly d d := ⟨rfl, fun _ _ => rfl⟩

theorem FiringOnly.trans {a b c : Dev} (h : FiringOnly a b) (k : FiringOnly b c) : FiringOnly a c := by
  refine ⟨?_, fun o ho => (k.2 o ho).trans (h.2 o ho)⟩
  have h1 := h.1
  have k1 := k.1
  rw [← h1, ← k1]

/-- A write of a register of the page. -/
theorem FiringOnly.wr {d e : Dev} (h : FiringOnly d e) (o : Nat) (v : Word) (ho : InConj o) : FiringOnly d (e.wr o v) := by
  refine h.trans ⟨rfl, fun x hx => ?_⟩
  rw [Dev.rd_wr]
  split
  · rename_i hxo; exact absurd (hxo ▸ ho) hx
  · rfl

theorem FiringOnly.setBit {d e : Dev} (h : FiringOnly d e) (o n : Nat) (ho : InConj o) : FiringOnly d (e.setBit o n) := h.wr _ _ ho
theorem FiringOnly.setTasks {d e : Dev} (h : FiringOnly d e) (t : Nat) (l : List Arrival) : FiringOnly d (e.setTasks t l) :=
  h.trans ⟨rfl, fun _ _ => rfl⟩
theorem FiringOnly.bump {d e : Dev} (h : FiringOnly d e) (o : Nat) (ho : InConj o) : FiringOnly d (e.bump o) := by
  unfold Dev.bump
  split
  · exact h
  · exact h.wr _ _ ho

theorem firingOnly_forN (n : Nat) (f : Nat → Dev → Dev) (h : ∀ i < n, ∀ d, FiringOnly d (f i d)) (d : Dev) : FiringOnly d (forN n d f) := by
  unfold forN
  have hl : ∀ i ∈ List.range n, ∀ d, FiringOnly d (f i d) := fun i hi => h i (List.mem_range.1 hi)
  revert hl
  generalize List.range n = l
  intro hl
  induction l generalizing d with
  | nil => exact .refl d
  | cons i l ih => exact (hl i (by simp) d).trans (ih (f i d) (fun j hj => hl j (by simp [hj])))

/-- A task input whose unit can be busy has a number below 0x400. -/
theorem lt_of_not_ready {t : Nat} (h : taskReady t = false) : t < 0x400 := by
  by_contra hc
  have : taskReady t = true := by simp [taskReady]; omega
  simp [this] at h

theorem firingOnly_arrive (t : Nat) (a : Arrival) (d : Dev) : FiringOnly d (arrive t a d) := by
  unfold arrive
  dsimp only
  split
  · exact (FiringOnly.refl d).setBit _ _ ⟨by decide, by decide⟩
  · split
    · exact (FiringOnly.refl d).setTasks _ _
    · rename_i hr
      have hlt := lt_of_not_ready (Bool.not_eq_true _ ▸ hr)
      have hin : InConj (Reg.TASK_STATE t) := by unfold InConj Reg.TASK_STATE; omega
      split
      · exact ((((FiringOnly.refl d).setTasks _ _).setBit _ _ hin).setBit _ _ ⟨by decide, by decide⟩).bump _ ⟨by decide, by decide⟩
      · split
        · exact (((FiringOnly.refl d).setBit _ _ hin).setBit _ _ ⟨by decide, by decide⟩).bump _ ⟨by decide, by decide⟩
        · exact (FiringOnly.refl d).setTasks _ _

theorem firingOnly_fireChannel (e hop : Nat) (isOpen : Bool) (n : Nat) (hn : n < 128) (d : Dev) : FiringOnly d (fireChannel e hop isOpen n d) := by
  unfold fireChannel
  split
  · split
    · exact ((FiringOnly.refl d).setBit _ _ (by unfold InConj Reg.CH_STATUS; omega)).setBit _ _ ⟨by decide, by decide⟩
    · exact ((FiringOnly.refl d).bump _ (by unfold InConj Reg.CH_COUNT; omega)).trans (firingOnly_arrive _ _ _)
  · exact .refl d

/-- Firing an event changes task inputs and the CONJ page alone. -/
theorem firingOnly_fireMarked (e hop : Nat) (isOpen : Bool) (d : Dev) : FiringOnly d (fireMarked e hop isOpen d) :=
  firingOnly_forN 128 _ (fun n hn d => firingOnly_fireChannel e hop isOpen n hn d) d
theorem firingOnly_fire (e : Nat) (d : Dev) : FiringOnly d (fire e d) := firingOnly_fireMarked e 0 false d

theorem firingOnly_fireFrom (a : Arrival) (e : Nat) (d : Dev) : FiringOnly d (fireFrom a e d) := by
  have ha : a.chan % 128 < 128 := Nat.mod_lt _ (by decide)
  unfold fireFrom
  split
  · exact ((((FiringOnly.refl d).setBit _ _ (by unfold InConj Reg.CH_STATUS; omega)).setBit _ _ ⟨by decide, by decide⟩).bump _
      ⟨by decide, by decide⟩).wr _ _ ⟨by decide, by decide⟩
  · exact firingOnly_fireMarked _ _ _ d
theorem firingOnly_fireCause (c : Option Arrival) (e : Nat) (d : Dev) : FiringOnly d (fireCause c e d) := by
  cases c with
  | none => exact firingOnly_fire e d
  | some a => exact firingOnly_fireFrom a e d

end Sys2Proof.Machine
end

