-- ==== Sys2Proof/Laws/Bellwether.lean ====
section
/-! SUPPORT. What an offer, a re-offer and a rearm of the Bellwether can do (R324 to R332). -/
namespace Sys2Proof.Machine

/-! ### Loops -/

/-- What holds before a loop and is kept by each of its steps holds after it. -/
theorem forN_ind {σ : Type} (P : σ → Prop) (n : Nat) (f : Nat → σ → σ) (d : σ) (h0 : P d) (hs : ∀ i < n, ∀ e, P e → P (f i e)) : P (forN n d f) := by
  unfold forN
  have hl : ∀ i ∈ List.range n, ∀ e, P e → P (f i e) := fun i hi => hs i (List.mem_range.1 hi)
  revert hl
  generalize List.range n = l
  intro hl
  induction l generalizing d with
  | nil => exact h0
  | cons i l ih => exact ih _ (hl i (by simp) d h0) (fun j hj => hl j (by simp [hj]))

/-- A fold keeps what each of its steps keeps. -/
theorem foldl_ind {σ β : Type} (P : σ → Prop) (l : List β) (f : σ → β → σ) (d : σ) (h0 : P d) (hs : ∀ e b, P e → P (f e b)) : P (l.foldl f d) := by
  induction l generalizing d with
  | nil => exact h0
  | cons b l ih => exact ih _ (hs d b h0)

/-! ### Accessors -/

@[simp] theorem Dev.src_setSrc (d : Dev) (n : Nat) (x : Src) (m : Nat) : (d.setSrc n x).src m = if m = n then x else d.src m := by
  simp [Dev.src, Dev.setSrc, Store.get_set]
@[simp] theorem Dev.src_setBwStack (d : Dev) (n : Nat) (x : List (Nat × Nat)) (m : Nat) : (d.setBwStack n x).src m = d.src m := rfl
@[simp] theorem Dev.src_setCoal (d : Dev) (n : Nat) (x : Coal) (m : Nat) : (d.setCoal n x).src m = d.src m := rfl
@[simp] theorem Dev.src_wr (d : Dev) (o : Nat) (v : Word) (m : Nat) : (d.wr o v).src m = d.src m := rfl
@[simp] theorem Dev.bwStack_setBwStack (d : Dev) (n : Nat) (x : List (Nat × Nat)) (m : Nat) :
    (d.setBwStack n x).bwStack m = if m = n then x else d.bwStack m := by
  simp [Dev.bwStack, Dev.setBwStack, Store.get_set]
@[simp] theorem Dev.bwStack_setSrc (d : Dev) (n : Nat) (x : Src) (m : Nat) : (d.setSrc n x).bwStack m = d.bwStack m := rfl
@[simp] theorem Dev.coal_setCoal (d : Dev) (n : Nat) (x : Coal) (m : Nat) : (d.setCoal n x).coal m = if m = n then x else d.coal m := by
  simp [Dev.coal, Dev.setCoal, Store.get_set]
@[simp] theorem Dev.coal_setSrc (d : Dev) (n : Nat) (x : Src) (m : Nat) : (d.setSrc n x).coal m = d.coal m := rfl

/-! ### Offers -/

/-- What an offer can do: sources alone change, none becomes claimed or loses a claim, no LAST changes, and a claimed source stays whole. -/
def OffersOnly (d e : Dev) : Prop :=
  e = { d with srcs := e.srcs } ∧ (∀ m, isClaimed e m = isClaimed d m) ∧ (∀ m, (e.src m).last = (d.src m).last) ∧
  ∀ m y, (d.src m).st = .claimed y → e.src m = d.src m

theorem OffersOnly.refl (d : Dev) : OffersOnly d d := ⟨rfl, fun _ => rfl, fun _ => rfl, fun _ _ _ => rfl⟩
theorem OffersOnly.trans {a b c : Dev} (h : OffersOnly a b) (k : OffersOnly b c) : OffersOnly a c := by
  refine ⟨?_, fun m => (k.2.1 m).trans (h.2.1 m), fun m => (k.2.2.1 m).trans (h.2.2.1 m), fun m y hy => ?_⟩
  · have e := k.1
    rw [h.1] at e
    exact e
  · have e := h.2.2.2 m y hy
    rw [k.2.2.2 m y (by rw [e]; exact hy), e]

theorem offer_other (n : Nat) (d : Dev) (m : Nat) (h : m ≠ n) : (offer n d).src m = d.src m := by
  unfold offer
  split
  · rfl
  · split
    · split <;> simp [h]
    · simp [h]

theorem offer_last (n : Nat) (d : Dev) : ((offer n d).src n).last = (d.src n).last := by
  unfold offer
  split
  · rfl
  · split
    · split <;> simp
    · simp

theorem offer_claimed (n : Nat) (d : Dev) : isClaimed (offer n d) n = isClaimed d n := by
  unfold offer
  split
  · rfl
  · rename_i hc
    rw [Bool.not_eq_true] at hc
    rw [hc]
    split
    · split <;> simp [isClaimed]
    · simp [isClaimed]

theorem offersOnly_offer (n : Nat) (d : Dev) : OffersOnly d (offer n d) := by
  refine ⟨?_, fun m => ?_, fun m => ?_, fun m y hy => ?_⟩
  · unfold offer Dev.setSrc
    split
    · rfl
    · split
      · split <;> rfl
      · rfl
  · by_cases h : m = n
    · rw [h]; exact offer_claimed n d
    · unfold isClaimed; rw [offer_other n d m h]
  · by_cases h : m = n
    · rw [h]; exact offer_last n d
    · rw [offer_other n d m h]
  · by_cases h : m = n
    · subst h
      unfold offer
      rw [if_pos (by simp [isClaimed, hy])]
    · exact offer_other n d m h

theorem offersOnly_reoffer (old d : Dev) : OffersOnly d (reoffer old d) := by
  unfold reoffer
  refine foldl_ind (OffersOnly d) _ _ d (.refl d) (fun e b h => h.trans ?_)
  unfold reofferOne
  split
  · split
    · exact offersOnly_offer _ _
    · exact .refl _
  · split
    · exact offersOnly_offer _ _
    · exact .refl _
  · exact .refl _

theorem OffersOnly.rd {d e : Dev} (h : OffersOnly d e) (o : Nat) : e.rd o = d.rd o := by rw [h.1]; rfl
theorem OffersOnly.bwStack {d e : Dev} (h : OffersOnly d e) (y : Nat) : e.bwStack y = d.bwStack y := by rw [h.1]; rfl
theorem OffersOnly.coal {d e : Dev} (h : OffersOnly d e) (k : Nat) : e.coal k = d.coal k := by rw [h.1]; rfl

/-! ### The choice of a yoke (R324) -/

/-- The place of yoke y in the order LAST + 1, LAST + 2, … modulo 8. -/
def turnOf (last y : Nat) : Nat := (y + 7 - last % 8) % 8

end Sys2Proof.Machine
end

