-- ==== Sys2Proof/Laws/Ox.lean ====
section
/-! SUPPORT. What the shared operations of the Ox cores can do to the programmer's models: registers, retirement, traps, and the run of one
instruction. -/
namespace Sys2Proof.Machine

/-! ### General registers (R292) -/

/-- A register after a write of one: g0 reads 0 and discards writes. -/
theorem OxCtx.r_setR (c : OxCtx) (i : Nat) (v : Word) (j : Nat) :
    (c.setR i v).r j = if j = i ∧ j ≠ 0 then v else c.r j := by
  unfold OxCtx.r OxCtx.setR
  by_cases hi : i = 0
  · subst hi
    by_cases hj : j = 0 <;> simp [hj]
  · by_cases hj : j = 0
    · simp [hj]
    · simp only [hi, hj, if_false, Store.get_set]
      by_cases e : j = i <;> simp [e, hi]
@[simp] theorem OxCtx.r_zero (c : OxCtx) : c.r 0 = 0 := rfl
@[simp] theorem OxCtx.r_setFlag (c : OxCtx) (n : Nat) (b : Bool) (i : Nat) : (c.setFlag n b).r i = c.r i := rfl

/-! ### Flags -/

theorem putFld_flag (w : Word) (n m : Nat) (b : Bool) (hn : n < 32) (hm : m < 32) :
    bitOf (putFld w n n (if b then 1 else 0)) m = if m = n then b else bitOf w m := by
  have e1 : maskOf n n = w32 (2 ^ n) := by
    unfold maskOf
    rw [show n + 1 - n = 1 by omega]
    norm_num
  unfold bitOf putFld
  rw [e1, show n + 1 - n = 1 by omega, BitVec.getLsbD_or, BitVec.getLsbD_and, BitVec.getLsbD_not, w32_two_pow_bit n m hn]
  cases b
  · have e2 : w32 ((if false = true then 1 else 0) % 2 ^ 1 * 2 ^ n) = 0#32 := by simp [w32]
    rw [e2]
    by_cases h : m = n <;> simp [h, hm]
  · have e2 : w32 ((if true = true then 1 else 0) % 2 ^ 1 * 2 ^ n) = w32 (2 ^ n) := by norm_num
    rw [e2, w32_two_pow_bit n m hn]
    by_cases h : m = n <;> simp [h, hm]

/-- A flag after one is given a value. -/
theorem OxCtx.flag_setFlag (c : OxCtx) (n m : Nat) (b : Bool) (hn : n < 32) (hm : m < 32) :
    (c.setFlag n b).flag m = if m = n then b else c.flag m := putFld_flag c.flags n m b hn hm

/-! ### Yokes (R275, R300) -/

@[simp] theorem yk_syncYoke (y : Nat) (d : Dev) (z : Nat) : (syncYoke y d).yk z = d.yk z := by simp [syncYoke]
@[simp] theorem yk_setRun (y st : Nat) (d : Dev) (z : Nat) : (setRun y st d).yk z = d.yk z := rfl
/-- A yoke after its programmer's model is replaced. -/
theorem yk_setCtx (y : Nat) (c : OxCtx) (d : Dev) (z : Nat) :
    (setCtx y c d).yk z = if z = y then { d.yk y with ctx := c } else d.yk z := by simp [setCtx, Dev.yk_updYk]

theorem yk_forN_clr (n : Nat) (o : Nat → Nat) (b : Nat) (d : Dev) (z : Nat) : (forN n d (fun f d => d.clrBit (o f) b)).yk z = d.yk z := by
  unfold forN
  generalize List.range n = l
  induction l generalizing d with
  | nil => rfl
  | cons i l ih => exact (ih _).trans rfl

@[simp] theorem yk_moveCheck (d : Dev) (z : Nat) : (moveCheck d).yk z = d.yk z := by
  unfold moveCheck
  split <;> rfl
@[simp] theorem yk_setUnit (cls idx v : Nat) (d : Dev) (z : Nat) : (setUnit cls idx v d).yk z = d.yk z := by
  unfold setUnit
  dsimp only
  split <;> rfl
@[simp] theorem yk_swapCore (y c n : Nat) (d : Dev) (z : Nat) : (swapCore y c n d).yk z = d.yk z := by
  unfold swapCore
  split <;> rfl
@[simp] theorem yk_endTest (cls idx : Nat) (d : Dev) (z : Nat) : (endTest cls idx d).yk z = d.yk z := rfl
theorem yk_takeSpare (cls n : Nat) (d e : Dev) (h : takeSpare cls d = some (n, e)) (z : Nat) : e.yk z = d.yk z := by
  unfold takeSpare at h
  split at h
  · cases h
  · cases h; simp
@[simp] theorem yk_plannedSwap (y : Nat) (d : Dev) (z : Nat) : (plannedSwap y d).yk z = d.yk z := by
  unfold plannedSwap
  split
  · split
    · rfl
    · split
      · rename_i h
        simp [yk_takeSpare _ _ _ _ h]
      · rfl
  · rfl

/-- A checkpoint leaves every programmer's model as it is. -/
@[simp] theorem ctx_checkpoint (y : Nat) (d : Dev) (z : Nat) : ((checkpoint y d).yk z).ctx = (d.yk z).ctx := by
  unfold checkpoint
  dsimp only
  split
  · simp only [yk_moveCheck, yk_plannedSwap, Dev.yk_wr, Dev.yk_updYk]
    split
    · rename_i h; rw [h]
    · rfl
  · rfl
@[simp] theorem ctx_checkpointFull (y : Nat) (d : Dev) (z : Nat) : ((checkpointFull y d).yk z).ctx = (d.yk z).ctx := by
  unfold checkpointFull
  dsimp only
  split
  · exact ctx_checkpoint y d z
  · rfl
@[simp] theorem ctx_replayEnd (y : Nat) (d : Dev) (z : Nat) : ((replayEnd y d).yk z).ctx = (d.yk z).ctx := by
  unfold replayEnd
  dsimp only
  split
  · split
    · simp only [yk_setRun, Dev.yk_updYk]
      split
      · rename_i h; rw [h]
      · rfl
    · rfl
  · rfl

/-- An instruction that retires gives its yoke the model that it computes, and leaves every other yoke's model. -/
theorem ctx_yokeRetire (y : Nat) (c : OxCtx) (d : Dev) (z : Nat) :
    ((yokeRetire y c d).yk z).ctx = if z = y then c else (d.yk z).ctx := by
  unfold yokeRetire
  simp only [ctx_checkpointFull, ctx_replayEnd, Dev.yk_updYk, Dev.yk_wr, yk_setCtx]
  split
  · simp
  · rfl

theorem yk_bump (d : Dev) (o z : Nat) : (d.bump o).yk z = d.yk z := by
  unfold Dev.bump
  split <;> rfl

/-- A trap (R300): with EXL 0 the entry saves PC and the status, and with EXL 1 it is a double trap. -/
theorem ctx_yokeTrapAs (live : Bool) (y cause : Nat) (info : Word) (d : Dev) (z : Nat) :
    ((yokeTrapAs live y cause info d).yk z).ctx =
      if z = y then
        (if (d.yk y).ctx.exl then { (d.yk y).ctx with dtpc := (d.yk y).ctx.pc, pc := (d.yk y).ctx.vbase + 0x40 }
        else { (d.yk y).ctx with
          epc := (d.yk y).ctx.pc
          estat := putFld ((d.yk y).ctx.flags &&& 0x3F) 8 8 (if (d.yk y).ctx.ie then 1 else 0)
          ecause := w32 cause, einfo := info, ie := false, exl := true, pc := (d.yk y).ctx.vbase })
      else (d.yk z).ctx := by
  unfold yokeTrapAs
  dsimp only
  rw [ctx_replayEnd]
  by_cases hx : (d.yk y).ctx.exl = true
  · simp only [hx, if_true]
    split <;> split <;> (try simp only [Dev.yk_setBit, yk_setCtx, yk_bump]) <;> split <;> simp_all
  · simp only [hx, if_false, Bool.false_eq_true]
    split <;> (try simp only [Dev.yk_setFld, yk_setCtx]) <;> split <;> (try split) <;> simp_all [yk_bump]

theorem ctx_yokeTrap (y cause : Nat) (info : Word) (d : Dev) (z : Nat) :
    ((yokeTrap y cause info d).yk z).ctx =
      if z = y then
        (if (d.yk y).ctx.exl then { (d.yk y).ctx with dtpc := (d.yk y).ctx.pc, pc := (d.yk y).ctx.vbase + 0x40 }
        else { (d.yk y).ctx with
          epc := (d.yk y).ctx.pc
          estat := putFld ((d.yk y).ctx.flags &&& 0x3F) 8 8 (if (d.yk y).ctx.ie then 1 else 0)
          ecause := w32 cause, einfo := info, ie := false, exl := true, pc := (d.yk y).ctx.vbase })
      else (d.yk z).ctx := ctx_yokeTrapAs _ y cause info d z

/-! ### One instruction -/

/-- A yoke at an instruction boundary executes the word at its PC. -/
theorem oxRun_at {s : State} {y : Nat} {w : Word} (h : OxAt s y w) (f : State → State) : oxRun y w f s = f s := by
  unfold oxRun
  simp [h.1, h.2]

/-- A legal instruction that changes only the programmer's model. -/
theorem oxPure_at {s : State} {y : Nat} {w : Word} (h : OxAt s y w) (g : OxCtx → OxCtx) :
    oxPure y w true g s = s.upd (fun d => yokeRetire y { g (d.yk y).ctx with pc := (d.yk y).ctx.pc + 4 } d) := by
  unfold oxPure
  rw [oxRun_at h]
  simp only [if_true]

/-- The programmer's models after a legal instruction that changes only its own yoke's. -/
theorem oxPure_ctx {s : State} {y : Nat} {w : Word} (h : OxAt s y w) (g : OxCtx → OxCtx) (z : Nat) :
    ctxOf (oxPure y w true g s) z = if z = y then { g (ctxOf s y) with pc := (ctxOf s y).pc + 4 } else ctxOf s z := by
  rw [oxPure_at h]
  unfold ctxOf
  rw [State.upd_dev, ctx_yokeRetire]

/-! ### What retirement and a trap leave (R275, R282, R300) -/

/-- The die changes only in what the retirement of an instruction of yoke y may change. -/
def OwnYoke (y : Nat) (d e : Dev) : Prop :=
  (∀ z, z ≠ y → e.yk z = d.yk z) ∧
  { e with
    regs := d.regs, yokes := d.yokes, units := d.units, testing := d.testing, rail := { e.rail with frozen := d.rail.frozen } } = d ∧
  ∀ o, ¬ YokeReg y o → e.rd o = d.rd o

theorem OwnYoke.rfl (y : Nat) (d : Dev) : OwnYoke y d d := ⟨fun _ _ => Eq.refl _, Eq.refl _, fun _ _ => Eq.refl _⟩
theorem OwnYoke.trans {y : Nat} {d e f : Dev} (h : OwnYoke y d e) (k : OwnYoke y e f) : OwnYoke y d f := by
  refine ⟨fun z hz => (k.1 z hz).trans (h.1 z hz), ?_, fun o ho => (k.2.2 o ho).trans (h.2.2 o ho)⟩
  have h1 := h.2.1
  rw [← k.2.1] at h1
  exact h1
theorem ownYoke_wr (y o : Nat) (v : Word) (d : Dev) (h : YokeReg y o) : OwnYoke y d (d.wr o v) :=
  ⟨fun _ _ => Eq.refl _, Eq.refl _, fun x hx => by
    rw [Dev.rd_wr, if_neg (by rintro rfl; exact hx h)]⟩
theorem ownYoke_setBit (y o n : Nat) (d : Dev) (h : YokeReg y o) : OwnYoke y d (d.setBit o n) := ownYoke_wr y o _ d h
theorem ownYoke_setFld (y o hi lo v : Nat) (d : Dev) (h : YokeReg y o) : OwnYoke y d (d.setFld o hi lo v) := ownYoke_wr y o _ d h
theorem ownYoke_putBit (y o n : Nat) (b : Bool) (d : Dev) (h : YokeReg y o) : OwnYoke y d (d.putBit o n b) := by
  unfold Dev.putBit
  split
  · exact ownYoke_setBit y o n d h
  · exact ownYoke_wr y o _ d h
theorem ownYoke_updYk (y : Nat) (f : YokeSt → YokeSt) (d : Dev) : OwnYoke y d (d.updYk y f) :=
  ⟨fun z hz => by rw [Dev.yk_updYk, if_neg hz], Eq.refl _, fun _ _ => Eq.refl _⟩
theorem ownYoke_units (y : Nat) (d : Dev) (u : Store Nat) : OwnYoke y d { d with units := u } :=
  ⟨fun _ _ => Eq.refl _, Eq.refl _, fun _ _ => Eq.refl _⟩
theorem ownYoke_frozen (y : Nat) (b : Bool) (d : Dev) : OwnYoke y d (d.updRail (fun r => { r with frozen := b })) :=
  ⟨fun _ _ => Eq.refl _, Eq.refl _, fun _ _ => Eq.refl _⟩
theorem ownYoke_bump (y o : Nat) (d : Dev) (h : YokeReg y o) : OwnYoke y d (d.bump o) := by
  unfold Dev.bump
  split
  · exact OwnYoke.rfl y d
  · exact ownYoke_wr y o _ d h

theorem yokeReg_status (y : Nat) : YokeReg y (Reg.Y_STATUS y) := .inl rfl
theorem yokeReg_state (y : Nat) : YokeReg y (Reg.YOKE_STATE y) := .inr (.inr (.inl rfl))
theorem yokeReg_pc (y : Nat) : YokeReg y (Reg.Y_PC y) := .inr (.inl rfl)
theorem yokeReg_ckpt (y : Nat) : YokeReg y (Reg.CKPT_HT y) := .inr (.inr (.inr (.inl rfl)))
theorem yokeReg_traps (y : Nat) : YokeReg y (Reg.Y_TRAPS y) := .inr (.inr (.inr (.inr (.inl rfl))))
theorem yokeReg_regime (y : Nat) : YokeReg y Reg.REGIME_STATUS := .inr (.inr (.inr (.inr (.inr (.inl rfl)))))
theorem yokeReg_mode (y : Nat) : YokeReg y Reg.MODE := .inr (.inr (.inr (.inr (.inr (.inr (.inl rfl))))))
theorem yokeReg_stStatus (y : Nat) : YokeReg y Reg.ST_STATUS := .inr (.inr (.inr (.inr (.inr (.inr (.inr (.inl rfl)))))))
theorem yokeReg_stFlags (y : Nat) : YokeReg y Reg.ST_FLAGS := .inr (.inr (.inr (.inr (.inr (.inr (.inr (.inr rfl)))))))

theorem ownYoke_syncYoke (y : Nat) (d : Dev) : OwnYoke y d (syncYoke y d) :=
  ((ownYoke_putBit y _ _ _ d (yokeReg_status y)).trans (ownYoke_putBit y _ _ _ _ (yokeReg_status y))).trans
    (ownYoke_putBit y _ _ _ _ (yokeReg_status y))
theorem ownYoke_setCtx (y : Nat) (c : OxCtx) (d : Dev) : OwnYoke y d (setCtx y c d) :=
  (ownYoke_updYk y _ d).trans (ownYoke_syncYoke y _)
theorem ownYoke_setRun (y st : Nat) (d : Dev) : OwnYoke y d (setRun y st d) := ownYoke_setFld y _ _ _ _ d (yokeReg_state y)
theorem ownYoke_replayEnd (y : Nat) (d : Dev) : OwnYoke y d (replayEnd y d) := by
  unfold replayEnd
  dsimp only
  split
  · split
    · exact (ownYoke_updYk y _ d).trans (ownYoke_setRun y _ _)
    · exact OwnYoke.rfl y d
  · exact OwnYoke.rfl y d
theorem ownYoke_moveCheck (y : Nat) (d : Dev) : OwnYoke y d (moveCheck d) := by
  unfold moveCheck
  split
  · exact (((((ownYoke_setBit y _ _ d (yokeReg_regime y)).trans (ownYoke_wr y _ _ _ (yokeReg_regime y))).trans
      (ownYoke_frozen y false _)).trans (ownYoke_setFld y _ _ _ _ _ (yokeReg_mode y))).trans
      (ownYoke_setFld y _ _ _ _ _ (yokeReg_mode y))).trans (ownYoke_setFld y _ _ _ _ _ (yokeReg_mode y))
  · exact OwnYoke.rfl y d
theorem ownYoke_setUnit (y cls idx v : Nat) (d : Dev) : OwnYoke y d (setUnit cls idx v d) := by
  have h : OwnYoke y d (syncSpares { d with units := Store.set unitInit d.units (unitKey cls idx) v }) :=
    (ownYoke_units y d _).trans (ownYoke_wr y _ _ _ (yokeReg_stStatus y))
  unfold setUnit
  dsimp only
  split
  · exact h.trans (ownYoke_setBit y _ _ _ (yokeReg_stFlags y))
  · exact h
theorem ownYoke_takeSpare {y cls n : Nat} {d e : Dev} (h : takeSpare cls d = some (n, e)) : OwnYoke y d e := by
  unfold takeSpare at h
  split at h
  · cases h
  · cases h
    exact (ownYoke_setUnit y _ _ _ d).trans ⟨fun _ _ => Eq.refl _, Eq.refl _, fun _ _ => Eq.refl _⟩
theorem ownYoke_swapCore (y c n : Nat) (d : Dev) : OwnYoke y d (swapCore y c n d) := by
  unfold swapCore
  split <;> exact ownYoke_setFld y _ _ _ _ d (yokeReg_state y)
theorem ownYoke_plannedSwap (y : Nat) (d : Dev) : OwnYoke y d (plannedSwap y d) := by
  unfold plannedSwap
  split
  · split
    · exact OwnYoke.rfl y d
    · split
      · rename_i h
        exact ((ownYoke_takeSpare h).trans (ownYoke_swapCore y _ _ _)).trans (ownYoke_setUnit y _ _ _ _)
      · exact OwnYoke.rfl y d
  · exact OwnYoke.rfl y d
theorem ownYoke_checkpoint (y : Nat) (d : Dev) : OwnYoke y d (checkpoint y d) := by
  unfold checkpoint
  dsimp only
  split
  · exact (((ownYoke_updYk y _ d).trans (ownYoke_wr y _ _ _ (yokeReg_ckpt y))).trans (ownYoke_plannedSwap y _)).trans
      (ownYoke_moveCheck y _)
  · exact OwnYoke.rfl y d
theorem ownYoke_checkpointFull (y : Nat) (d : Dev) : OwnYoke y d (checkpointFull y d) := by
  unfold checkpointFull
  dsimp only
  split
  · exact ownYoke_checkpoint y d
  · exact OwnYoke.rfl y d
/-- What the retirement of an instruction changes beside the programmer's model. -/
theorem ownYoke_yokeRetire (y : Nat) (c : OxCtx) (d : Dev) : OwnYoke y d (yokeRetire y c d) := by
  unfold yokeRetire
  refine OwnYoke.trans ?_ (ownYoke_checkpointFull y _)
  refine OwnYoke.trans ?_ (ownYoke_replayEnd y _)
  refine OwnYoke.trans ?_ (ownYoke_updYk y _ _)
  exact (ownYoke_setCtx y c d).trans (ownYoke_wr y _ _ _ (yokeReg_pc y))
/-- What a trap changes beside the programmer's model. -/
theorem ownYoke_yokeTrapAs (live : Bool) (y cause : Nat) (info : Word) (d : Dev) : OwnYoke y d (yokeTrapAs live y cause info d) := by
  have h0 : OwnYoke y d (if live then d.bump (Reg.Y_TRAPS y) else d) := by
    split
    · exact ownYoke_bump y _ d (yokeReg_traps y)
    · exact OwnYoke.rfl y d
  unfold yokeTrapAs
  refine OwnYoke.trans ?_ (ownYoke_replayEnd y _)
  dsimp only
  generalize (if live = true then d.bump (Reg.Y_TRAPS y) else d) = e at h0 ⊢
  split
  · split
    · exact (h0.trans (ownYoke_setCtx y _ _)).trans (ownYoke_setBit y _ _ _ (yokeReg_status y))
    · exact h0.trans (ownYoke_setCtx y _ _)
  · exact (h0.trans (ownYoke_setCtx y _ _)).trans (ownYoke_setFld y _ _ _ _ _ (yokeReg_status y))
theorem ownYoke_yokeTrap (y cause : Nat) (info : Word) (d : Dev) : OwnYoke y d (yokeTrap y cause info d) :=
  ownYoke_yokeTrapAs _ y cause info d

theorem yokeFrame_upd {y : Nat} {s : State} {f : Dev → Dev} (h : OwnYoke y s.dev (f s.dev)) : YokeFrame y s (s.upd f) :=
  ⟨h.1, Eq.refl _, Eq.refl _, h.2.1, h.2.2⟩

end Sys2Proof.Machine
end

