-- ==== Sys2Proof/Tests/Slice0.lean ====
section
/-! SUPPORT. Tests of the model on small states: words and tables of the spec, terms that the well-formedness checks refuse, and, for each
obligation with hypotheses, a state and operands that meet them. -/
open Sys2Proof Sys2Proof.Machine
namespace Sys2Proof.Tests
set_option Elab.async false

/-- The reset state with the die changed. -/
def on (f : Dev → Dev) : State := State.reset.upd f
/-- Write registers. -/
def Dev.puts (d : Dev) (l : List (Nat × Word)) : Dev := l.foldl (fun d e => d.wr e.1 e.2) d
/-- The reset state with registers written. -/
def onRegs (l : List (Nat × Word)) : State := on (fun d => Dev.puts d l)

/-! ### Interrupts and events -/

/-- Software source 384 asserted at PRIO 5, for yokes 0 and 3. -/
def swi : State := onRegs [(Reg.SWI_SET 0, 1), (Reg.SRC_CFG 384, 0x905), (Reg.YOKE_STATE 0, 0x400), (Reg.YOKE_STATE 3, 0x400)]
/-- The last source asserted, at PRIO 1, for no yoke. -/
def swiLast : State := onRegs [(Reg.SWI_SET 3, 0x80000000), (Reg.SRC_CFG 511, 1)]
theorem wit_RaisedSourceGoesToLowestPriorityYoke :
    (srcLevel swi.dev 384 = true ∧ heldBy swi.dev 384 = none ∧ (swi.dev.src 384).st = .idle ∧ srcPending swi.dev 384 = true ∧
      chooseYoke swi.dev 384 = some 0) ∧
    (srcLevel swiLast.dev 511 = true ∧ heldBy swiLast.dev 511 = none ∧ (swiLast.dev.src 511).st = .idle ∧ srcPending swiLast.dev 511 = true ∧
      chooseYoke swiLast.dev 511 = none) := by decide +kernel

/-- Source 384 offered to yoke 0. -/
def offered : State := swi.upd (fun d => d.setSrc 384 { st := .offered 0 })
/-- A full stack. -/
def fullStack : State := on (fun d => d.setBwStack 7 (List.replicate 8 (1, 1)))
theorem wit_ClaimTakesHighestOfferedSource :
    ((offered.dev.bwStack 0).length < 8 ∧ (offered.dev.src 384).st = .offered (0 : Fin 8).val) ∧
    ((offered.dev.bwStack 7).length < 8 ∧ bestOffered offered.dev 7 = 0) ∧
    8 ≤ (fullStack.dev.bwStack 7).length ∧ Req.jtag ≠ .yoke (0 : Fin 8) := by decide +kernel

/-- Source 384 claimed by yoke 0, its level gone. -/
def claimed : State := on (fun d => (d.setSrc 384 { st := .claimed 0, last := 0 }).setBwStack 0 [(384, 5)])
/-- Set 31 of source 400 counting for 1 µs. -/
def setTiming : State := (onRegs [(Reg.COAL_CFG 31, 0x10390), (Reg.COAL_TIME 31, 1)]).upd
  (fun d => { d.setCoal 31 { count := 1, timing := true } with clk := 1000 })
theorem wit_SourceTurnsAndSetsEnd :
    (fld (384 : Word) 8 0 ≠ 0 ∧ claimed.dev.bwStack 0 = [(fld (384 : Word) 8 0, 5)] ∧ heldBy claimed.dev (fld (384 : Word) 8 0) = none) ∧
    (srcLevel (on (fun d => d.setSrc 511 { st := .parked })).dev 511 = false ∧ heldBy (on (fun d => d.setSrc 511 { st := .parked })).dev 511 = none ∧
      ((on (fun d => d.setSrc 511 { st := .parked })).dev.src 511).st ≠ .idle ∧ isClaimed (on (fun d => d.setSrc 511 { st := .parked })).dev 511 = false) ∧
    (coalEn setTiming.dev 31 = true ∧ (setTiming.dev.coal 31).timing = true ∧ (setTiming.dev.coal 31).fired = false ∧
      (setTiming.dev.rd (Reg.COAL_TIME 31)).toNat * 1000 ≤ setTiming.dev.clk - (setTiming.dev.coal 31).firstClk) := by decide +kernel
/-- Source 400, asserted, is the REP of set 31 with COUNT_TH 1. -/
def setHolds : State := onRegs [(Reg.SWI_SET 0, 0x10000), (Reg.SRC_CFG 400, 0x3F0105), (Reg.COAL_CFG 31, 0x10390)]
theorem wit_SourceTurns_others :
    (srcLevel setHolds.dev 400 = true ∧ heldBy setHolds.dev 400 = some 31 ∧ (setHolds.dev.src 400).seen = false) ∧
    Req.jtag ≠ .yoke (0 : Fin 8) ∧ fld (0 : Word) 8 0 = 0 ∧ State.reset.dev.bwStack 3 = [] ∧
    srcLevel State.reset.dev 400 = false := by decide +kernel

theorem wit_BellwetherWritesPerform :
    State.reset.dev.keeper .loader = true ∧ State.reset.dev.keeper (.yoke 0) = false ∧ leavesSet State.reset.dev 511 0 = false ∧
    State.reset.dev.keeper .peer = false ∧ leavesSet (onRegs [(Reg.SRC_CFG 400, 0x3F0000), (Reg.COAL_CFG 31, 0x10390)]).dev 400 0 = true := by decide +kernel

/-- Channels 0 and 127 join software event 15 to CLAUSE_ON 3. -/
def joined : State := onRegs [(Reg.CH_CFG 0, 0x13000F), (Reg.CH_CTRL 0, 0x801), (Reg.CH_CFG 127, 0x13000F), (Reg.CH_CTRL 127, 0x803)]
theorem wit_FiringArrivesOncePerActiveChannel :
    taskReady 0x13 = true ∧ joined.dev.inDeep = false ∧ chActive joined.dev 0 = true ∧ chActive joined.dev 127 = true ∧
    chEvent joined.dev 127 = 15 ∧ chTask joined.dev 127 = 0x13 := by decide +kernel
theorem wit_FiringArrives_others :
    (taskReady 0x100 = false ∧ inCollapse joined.dev 0x100 = false ∧ (joined.dev.tasksAt 0x100).length ≤ 3) ∧
    (onRegs [(Reg.PWR_STATUS, 5)]).dev.inDeep = true ∧ taskPowered 0x100 = false := by decide +kernel

theorem wit_ClauseChangesReachTheirChannels :
    (on (fun d => d.setTasks 0x1F [⟨0, true, 127⟩])).dev.tasksAt ((if true then 0x10 else 0x20) + (15 : Fin 16).val) = [⟨0, true, 127⟩] ∧
    (on (fun d => d.setTasks 0x20 [⟨3, false, 0⟩])).dev.tasksAt ((if false then 0x10 else 0x20) + (0 : Fin 16).val) = [⟨3, false, 0⟩] ∧
    State.reset.dev.keeper .jtag = true := by decide +kernel

theorem wit_FabricTasksAndWritesPerform :
    (on (fun d => d.setTasks 0x3F [⟨0, true, 127⟩])).dev.tasksAt (0x30 + (15 : Fin 16).val) = [⟨0, true, 127⟩] ∧
    (State.reset.dev.keeper .loader = true ∧ eventAssigned (fld (0x13000F : Word) 15 0) = true ∧ taskAssigned (fld (0x13000F : Word) 31 16) = true ∧
      State.reset.dev.bit (Reg.CH_CTRL 127) 3 = false ∧ bitOf (0x803 : Word) 3 = false) ∧
    (State.reset.dev.bit (Reg.CH_CTRL 0) 1 = false ∧ State.reset.dev.fld (Reg.CH_CTRL 0) 10 8 = (0 : Fin 8).val) ∧
    (State.reset.dev.keeper (.yoke 7) = false ∧ (onRegs [(Reg.CH_CTRL 5, 0x702)]).dev.bit (Reg.CH_CTRL 5) 1 = true) ∧
    (pageOf 0x50002 ≠ none ∧ 0x50002 % 4 ≠ 0 ∧ pageOf 0x0FFFFFFC = none ∧
      haltBars State.reset.dev .peer = false ∧ haltBars (onRegs [(Reg.IMAGE_STATUS, 0x20)]).dev .peer = true ∧
      haltBars (onRegs [(Reg.IMAGE_STATUS, 0x20)]).dev .jtag = false) := by decide +kernel
/-! ### The keep store and the memories -/

/-- A record of one word that a commit is taking to the last word below 0xE000. -/
def committing : State := on (fun d => d.kp (fun k => { k with recOp := some { word := 0x37FF, data := [7], at' := 0, committed := false } }))
theorem wit_KeepWindowWritesStoreOneWord :
    (0xDFFC % 4 = 0 ∧ 0xDFFC < 0xE000 ∧ State.reset.dev.keeper (.yoke 0) = false ∧ State.reset.dev.fld Reg.OPEN_FROM 7 0 * 256 ≤ 0xDFFC ∧
      recHeld State.reset.dev (0xDFFC / 4) = none) ∨
    (0 % 4 = 0 ∧ 0 < 0xE000 ∧ State.reset.dev.keeper .loader = true ∧ recHeld State.reset.dev 0 = none) := by decide +kernel
theorem wit_KeepWindowWrites_held : recHeld committing.dev 0x37FF = some 7 ∧ committing.dev.keeper .loader = true := by decide +kernel
theorem wit_KeepWindowWrites_refused :
    State.reset.dev.keeper (.yoke 0) = false ∧ 0xDFFC < State.reset.dev.fld Reg.OPEN_FROM 7 0 * 256 ∧ 0xE000 ≤ 0xE000 := by decide +kernel

/-- Word 0x3FFF poisoned. -/
def keepPoisoned : State := on (fun d => d.kp (fun k => { k with poison := [0x3FFF] }))
theorem wit_KeepReadsReturnAGoodCopy :
    (0xFFFC % 4 = 0 ∧ 0xFFFC < 0x10000 ∧ recHeld committing.dev (0xFFFC / 4) = none ∧ committing.dev.keep.poison.contains (0xFFFC / 4) = false) ∧
    (recHeld keepPoisoned.dev (0xFFFC / 4) = none ∧ keepPoisoned.dev.keep.poison.contains (0xFFFC / 4) = true) := by decide +kernel

theorem wit_KeepUpkeep_others : State.reset.dev.keep.failing.contains 0 = false ∧ State.reset.dev.keep.oneCopy.contains 512 = false ∧
    State.reset.dev.second < 18000000000 ∧ State.reset.dev.keep.rateSec ≤ State.reset.dev.second := by decide +kernel
theorem wit_KeepUpkeepPerforms :
    (on (fun d => d.kp (fun k => { k with failing := [511], spareB := 0 }))).dev.keep.failing.contains (255 * 2 + (if true then 1 else 0)) = true ∧
    (on (fun d => d.kp (fun k => { k with failing := [0] }))).dev.keep.failing.contains (0 * 2 + (if false then 1 else 0)) = true := by decide +kernel

/-- A record of 64 words up to the last word below 0xE000. -/
def recReady : State := onRegs [(Reg.REC_CTRL, 0x40DF00), (Reg.REC_DATA 0, 5), (Reg.REC_DATA 63, 9)]
theorem wit_RecordCommitIsWhole :
    (bitOf (0x80000000 : Word) 31 = true ∧ recReady.dev.keep.recOp = none ∧ 1 ≤ recReady.dev.fld Reg.REC_CTRL 22 16 ∧
      recReady.dev.fld Reg.REC_CTRL 22 16 ≤ 64 ∧ recReady.dev.fld Reg.REC_CTRL 15 2 + recReady.dev.fld Reg.REC_CTRL 22 16 ≤ 0x3800 ∧
      (∀ i < 64, rateOf recReady.dev (recReady.dev.fld Reg.REC_CTRL 15 2 + i) < 16) ∧ commitsOf recReady.dev < 64 ∧
      recReady.dev.keeper .jtag = true) ∧
    (committing.dev.keep.recOp = some { word := 0x37FF, data := [7], at' := 0, committed := false } ∧ committing.dev.keep.held = []) := by decide +kernel

theorem wit_RecordCommit_refused : recReason .jtag committing.dev = 1 ∧ recReason .jtag (onRegs [(Reg.REC_CTRL, 0)]).dev = 2 ∧ bitOf (0 : Word) 31 = false := by
  decide +kernel

/-- Meter 31 at its last value. -/
def meterFull : State := on (fun d => d.kp (fun k => { k with meters := [(31, 0x9999999999999999)] }))
/-- The boot with the herd clock locked. -/
def boot2 : State := on (fun d => { d with pw := { d.pw with boot := 2 } })
theorem wit_MetersAddInDecimal :
    (meterFull.dev.keeper .loader = true ∧ bcdValid 16 (meterOf meterFull.dev 31).toNat = true ∧
      bcdValid 16 ((1 : Word).toNat + (meterFull.dev.rd (Reg.ADD_HI 31)).toNat * 2 ^ 32) = true ∧ rateOf meterFull.dev (keyOfMeter 31) < 16) ∧
    (boot2.dev.pw.boot = 2 ∧ boot2.dev.bit Reg.KEEP_STATUS 0 = false ∧ boot2.dev.keep.recOp = none) := by decide +kernel
/-- Meter 0 added to sixteen times in this second. -/
def meterBusy : State := on (fun d => d.kp (fun k => { k with rate := [(keyOfMeter 0, 16)] }))
/-- The boot with a record past its commit point. -/
def bootRec : State := boot2.upd (fun d => d.kp (fun k => { k with recOp := some { word := 0, data := [7], at' := 0, committed := true } }))
theorem wit_MetersAdd_others :
    (State.reset.dev.keeper .peer = false ∧ State.reset.dev.bit Reg.METER_OPEN 31 = false) ∧ bcdValid 16 ((0xA : Word).toNat) = false ∧
    (16 ≤ rateOf meterBusy.dev (keyOfMeter 0) ∧ bcdValid 16 1 = true ∧ bcdToNat 16 (meterOf meterBusy.dev 0).toNat + bcdToNat 16 1 < 10 ^ 16) ∧
    (bootRec.dev.pw.boot = 2 ∧ bootRec.dev.keep.recOp ≠ none ∧ bootRec.dev.keep.held = []) := by decide +kernel

/-- A retirement of the last page into the first page of the pool, and a failing row. -/
def memWork : State := on (fun d => (d.mcUpd (fun m => { m with retiring := [⟨0xBFBFFF, 0xBFBFFF, 0xBFC000⟩], rowBad := [16383] })))
/-- HBM3 in service. -/
def hbmOn : State := on (fun d => { d with pw := { d.pw with boot := 7 } })
theorem wit_MemoryUpkeepPerforms :
    memWork.dev.mc.retiring.find? (fun r => r.page == 0xBFBFFF) = some ⟨0xBFBFFF, 0xBFBFFF, 0xBFC000⟩ ∧
    memWork.dev.mc.rowBad.contains 16383 = true ∧ hbmOn.dev.hbmUp = true ∧ Store.get (fun _ => 0) hbmOn.dev.mc.calAt (63 : Fin 64) = 0 ∧
    (memWork.dev.mc.retiring.find? (fun r => r.page == 0)).isNone = true ∧ memWork.dev.mc.rowBad.contains 0 = false ∧
    (onRegs [(Reg.PWR_STATUS, 2)]).dev.hbmUp = false := by decide +kernel

/-! ### Cells, line scripts and composition -/

/-- Head 7 in a state, in mode 0. -/
def headIn (st : Nat) (f : HeadSt → HeadSt) : State := (onRegs [(Reg.HEAD_STATUS 7, w32 st)]).upd (fun d => d.updHead 7 f)
/-- Post 7 of flock 15 of a kind, joined on cell 7, for head 7, RUNNING, in the frame 1. -/
def running (kind : Nat) (f : HeadSt → HeadSt) : State :=
  (headIn 4 (fun x => f { x with seq := 1 })).upd (fun d => Dev.puts d
    [(Reg.FLOCK_STATUS 15, 0xF007), (Reg.POST_MAP 15, 0x76543210), (Reg.CELL_STATUS 15 7, w32 (0x2000 + kind))])
/-- The same with its layer 0 at the frame's first line. -/
def ready : State := (running 2 id).upd (fun d => d.updLayer 15 7 0 (fun y => { y with frame := 1 }))
/-- The same with a line of layer 0 under construction. -/
def building : State := (running 2 id).upd (fun d => d.updCell 15 7 (fun c =>
  { c with bufs := [{ layer := 0, frame := 1, line := 0, px := [5] }] }))
/-- A line of the present frame under construction; the frame started at 1 ms, and the time is its line 700. -/
def buildingNow (clk : Nat) : State := building.upd (fun d => { d.updHead 7 (fun x => { x with genOn := true, fsClk := 1000000 }) with clk := clk })
/-- A VIDEO post with a slot whose source row 0 is due. -/
def videoDue : State := (running 4 id).upd (fun d => (Dev.puts d [(Reg.SLOT_SRC 7 31, 0x07FF), (Reg.VS_DST_SIZE 7 0, 0x80008)]).updCell 15 7 (fun c =>
  { c with vid := { c.vid with w := 8, h := 8 } }))
theorem wit_CellLinesStartCompleteAndMiss :
    mayStart ready.dev 15 7 0 = some (1, 0) ∧ mayStart State.reset.dev 15 7 1 = none ∧
    ((building.dev.cell 15 7).bufs.find? (fun b => !b.done) = some { layer := 0, frame := 1, line := 0, px := [5] } ∧
      frameClk building.dev 7 1 = some 0) ∧
    (frameClk (buildingNow 0).dev 7 1 = some 1000000 ∧
      0 ≤ (modeOf (buildingNow 0).dev 7).slack 1000000 (readAt (buildingNow 0).dev 15 7 0) (max 0 ((modeOf (buildingNow 0).dev 7).deadline 1000000 0 - 5000))) ∧
    (modeOf (buildingNow 2000000).dev 7).slack 1000000 (readAt (buildingNow 2000000).dev 15 7 0) 2000000000 < 0 ∧
    ((activeLayers building.dev 15 7).contains 0 = true ∧ owesLines building.dev 15 7 = true ∧ kindOf building.dev 15 7 ≠ 4 ∧
      dueLine building.dev (flockHead building.dev 15) = (1, 0) ∧ lineOwed building.dev 15 7 0 (1, 0) = true) ∧
    (kindOf videoDue.dev 15 7 = 4 ∧ owesLines videoDue.dev 15 7 = true ∧ rowsOwed videoDue.dev 15 7 (1, 0) ≠ []) := by decide +kernel

/-- A collision that waits for the last place of a ring of two records, at the end of the shared SRAM. -/
def colliding : State := (onRegs [(Reg.COLL_SIZE 15 7 1, 1), (Reg.COLL_WR 15 7 1, 0xFFFFFFFF), (Reg.COLL_RD 15 7 1, 0xFFFFFFFE),
  (Reg.COLL_BASE_LO 15 7 1, 0x00FFFFE0), (Reg.COLL_BASE_HI 15 7 1, 0x10)]).upd (fun d => d.updLayer 15 7 1 (fun y => { y with
    collQ := [{ sprA := 1, sprB := 2, clsA := 3, clsB := 4, line := 5, pixel := 6, frame := 1, frameHt := some 7 }] }))
/-- The same with the ring full. -/
def collFull : State := colliding.upd (fun d => d.wr (Reg.COLL_RD 15 7 1) 0xFFFFFFFD)
theorem wit_CellRequests_others :
    headState (headIn 5 id).dev 7 = 5 ∧ (headState (headIn 3 id).dev 7 = 3 ∧ ((headIn 3 id).dev.head 7).latched = false) ∧
    (((running 2 id).upd (fun d => d.updFlock 15 (fun x => { x with repen := some { step := 1, variant := 0, align := false } }))).dev.flock 15).repen ≠ none ∧
    2 ^ collFull.dev.fld (Reg.COLL_SIZE 15 7 1) 4 0 ≤ (collFull.dev.rd (Reg.COLL_WR 15 7 1) - collFull.dev.rd (Reg.COLL_RD 15 7 1)).toNat ∧
    ((State.reset.dev.cell 0 0).layer 0).collQ = [] := by decide +kernel
theorem wit_CellRequestsStatisticsAndCollisions :
    (headState (running 1 (fun x => { x with next := 720 })).dev 7 = 4 ∧ ((running 1 (fun x => { x with next := 720 })).dev.head 7).latched = false ∧
      ((running 1 (fun x => { x with next := 720 })).dev.head 7).reading = false ∧ (modeOf (running 1 (fun x => { x with next := 720 })).dev 7).vAct ≤ 720) ∧
    (((running 1 id).dev.flock 15).repen = none ∧ kindOf (running 1 id).dev 15 7 = 1 ∧ kindOf (running 2 id).dev 15 7 = 2 ∧
      kindOf (running 3 id).dev 15 7 = 3 ∧ twinOf (running 11 id).dev 15 7 = true ∧ kindOf (running 11 id).dev 15 7 = 3) ∧
    (((colliding.dev.cell 15 7).layer 1).collQ ≠ [] ∧
      (colliding.dev.rd (Reg.COLL_WR 15 7 1) - colliding.dev.rd (Reg.COLL_RD 15 7 1)).toNat < 2 ^ colliding.dev.fld (Reg.COLL_SIZE 15 7 1) 4 0 ∧
      memOk colliding.dev (base48 colliding.dev (Reg.COLL_BASE_LO 15 7 1) (Reg.COLL_BASE_HI 15 7 1) +
        16 * ((colliding.dev.rd (Reg.COLL_WR 15 7 1)).toNat % 2 ^ colliding.dev.fld (Reg.COLL_SIZE 15 7 1) 4 0)) 16 = true) := by decide +kernel

/-- Head 7 with a predicted frame, at its decision point. -/
def deciding : State := (headIn 3 (fun x => { x with latched := true, predicted := true, predFs := 1000000000 })).upd
  (fun d => Dev.puts d [(Reg.LS_CTRL 7, 1), (Reg.LS_BANK 7, 7)])
theorem wit_DecisionPointChoosesBankAndStartsScript :
    headState deciding.dev 7 = 3 ∧ (deciding.dev.head 7).latched = true ∧ (deciding.dev.head 7).decided = false ∧
    deciding.dev.bit (Reg.HEAD_STATUS 7) 11 = false := by decide +kernel

/-- The script of head 7 stands at word `pc` of bank A, which holds the words `ws` from there. -/
def scriptAt (pc : Nat) (ws : List Word) : State := (running 2 id).upd (fun d =>
  (Dev.puts d (ws.zipIdx.map (fun p => (Reg.LS_BANK_A 7 (pc + p.2), p.1)))).updLs 7 (fun e =>
    { e with active := true, ended := false, frame := 1, pc := pc, line := 1, pixel := 5 }))
theorem wit_WritingVerbsStageTheirWrites :
    (VerbAt (scriptAt 4094 [0x23DC0040, 9]) 7 2 2 2 ∧ fld (verbWord (scriptAt 4094 [0x23DC0040, 9]).dev 7 0) 17 14 + 1 = 1 ∧
      targetBad 0x23DC0040 false = false ∧ TargetOk (scriptAt 4094 [0x23DC0040, 9]).dev 7 0x23DC0040 1) ∧
    (VerbAt (scriptAt 4093 [0x34000001, 0xFF, 9]) 7 3 3 3 ∧ targetBad 0x34000001 true = false ∧
      TargetOk (scriptAt 4093 [0x34000001, 0xFF, 9]).dev 7 0x34000001 1) ∧
    (VerbAt (scriptAt 0 [0x48003FFF, 9]) 7 4 2 2 ∧ targetBad 0x48003FFF true = false ∧ TargetOk (scriptAt 0 [0x48003FFF, 9]).dev 7 0x48003FFF 1) ∧
    (VerbAt (scriptAt 0 [0x53DDC040, 0xFFFFE0, 0x10010]) 7 5 3 11 ∧ fld (verbWord (scriptAt 0 [0x53DDC040, 0xFFFFE0, 0x10010]).dev 7 0) 17 14 + 1 = 8 ∧
      targetBad 0x53DDC040 false = false ∧ fld (0xFFFFE0 : Word) 1 0 = 0 ∧ fld (0x10010 : Word) 31 17 = 0 ∧
      TargetOk (scriptAt 0 [0x53DDC040, 0xFFFFE0, 0x10010]).dev 7 0x53DDC040 8 ∧ memOk State.reset.dev 0x1000FFFFE0 32 = true) := by
  unfold VerbAt TargetOk; decide +kernel

/-- A script in its loop. -/
def looping (start left : Nat) : State := (scriptAt 4095 [0x70000000]).upd (fun d => d.updLs 7 (fun e => { e with loop := some (start, left, 0) }))
/-- A signal that the compositor has passed. -/
def signalled : State := (running 2 (fun x => { x with next := 5 })).upd (fun d => d.updLs 7 (fun e => { e with signals := [(1, 4, 0, 3)] }))
/-- The script's line holds 96 slots already. -/
def lineSpent : State := (scriptAt 0 [0x23DC0040, 9]).upd (fun d => d.updLs 7 (fun e => { e with slots := 96 }))
theorem wit_WritingVerbs_others :
    (nextVerb (scriptAt 0 [0x2C000000]).dev 7 = some 2 ∧ targetBad 0x2C000000 false = true) ∧ nextVerb (scriptAt 4094 [0x30000000]).dev 7 = some 3 ∧
    nextVerb (scriptAt 4095 [0x40000000]).dev 7 = some 4 ∧ (nextVerb (scriptAt 0 [0x50000000, 1]).dev 7 = some 5 ∧ fld (1 : Word) 1 0 ≠ 0) ∧
    (VerbAt (scriptAt 0 [0x20000040, 9]) 7 2 2 2 ∧ targetBad 0x20000040 false = false ∧ flockHead (scriptAt 0 []).dev 0 ≠ 7) ∧
    memOk State.reset.dev 0x2000000000 4 = false ∧ poolHit State.reset.dev 0x2000000000 4 = false ∧
    (nextVerb lineSpent.dev 7 = some 2 ∧ 96 < (lineSpent.dev.ls 7).slots + 2) ∧ nextVerb (scriptAt 0 [0xF0000000]).dev 7 = some 15 ∧
    nextVerb (scriptAt 0 [0x60000000]).dev 7 = some 6 ∧ nextVerb (scriptAt 0 [0x80000002]).dev 7 = some 8 := by
  unfold VerbAt; decide +kernel
theorem wit_ControlVerbsPerform :
    (VerbAt (scriptAt 4095 [0]) 7 0 1 1 ∧ nextVerb (scriptAt 4095 [0]).dev 7 = some 0) ∧
    (VerbAt (scriptAt 0 [0x10004000]) 7 1 1 1 ∧ fld (0x10004000 : Word) 13 0 < (modeOf (scriptAt 0 [0x10004000]).dev 7).hTot) ∧
    (VerbAt (scriptAt 0 [0x60000FFF]) 7 6 1 1 ∧ ((scriptAt 0 [0x60000FFF]).dev.ls 7).loop = none) ∧
    (VerbAt (looping 1 2) 7 7 1 1 ∧ ((looping 1 2).dev.ls 7).loop = some (1, 2, 0) ∧ 1 ≤ ((looping 1 2).dev.ls 7).pc) ∧
    VerbAt (scriptAt 0 [0x80000001]) 7 8 1 1 ∧ bitOf (0x80000001 : Word) 31 = true ∧ VerbAt (scriptAt 0 [0x90000003]) 7 9 1 1 ∧
    ((signalled.dev.ls 7).signals = [(1, 4, 0, 3)] ∧ (signalled.dev.head 7).seq = 1 ∧ 4 < (signalled.dev.head 7).next) := by
  unfold VerbAt; decide +kernel

theorem wit_CompositorReadsEachLineOnce :
    (headState (running 2 (fun x => { x with next := 719 })).dev 7 = 4 ∧ ((running 2 (fun x => { x with next := 719 })).dev.head 7).reading = false ∧
      ((running 2 (fun x => { x with next := 719 })).dev.head 7).latched = false ∧ 719 < (modeOf (running 2 (fun x => { x with next := 719 })).dev 7).vAct) ∧
    ((running 2 (fun x => { x with reading := true, next := 720 })).dev.head 7).reading = true ∧ isMirror (running 2 id).dev 7 = false ∧
    ((running 2 id).dev.head 7).late.contains 1279 = false ∧ 1279 < (modeOf (running 2 id).dev 7).hAct ∧ headState State.reset.dev 7 ≠ 4 := by
  decide +kernel

/-! ### Heads -/

theorem wit_HeadCommandsFollowTheirTable :
    (isMirror (headIn 5 id).dev 7 = false ∧ headState (headIn 5 id).dev 7 = 5 ∧ isMirror (headIn 1 id).dev 7 = false ∧ headState (headIn 1 id).dev 7 = 1) ∧
    (isMirror (headIn 0x0805 id).dev 7 = true ∧ headState (headIn 0x0805 id).dev 7 = 5) ∧
    (isMirror (headIn 0x0804 id).dev 7 = true ∧ headState (headIn 0x0804 id).dev 7 = 4) ∧
    (headState (headIn 4 id).dev 7 = 4 ∧ headState (headIn 2 id).dev 7 = 2 ∧ headState State.reset.dev 7 = 0) := by decide +kernel

/-- Head 7 STARTING with its PHY up. -/
def starting : State := headIn 2 (fun x => { x with ready := true, readyHt := 5 })
theorem wit_FramesStartAtTheirEpoch :
    (mayFrame starting.dev 7 = true ∧ isCommand starting.dev 7 = false ∧ predicts starting.dev 7 = false ∧
      nextFrame starting.dev 7 = (1, (modeOf starting.dev 7).fs 1, (modeOf starting.dev 7).fs 1)) ∧
    mayFrame State.reset.dev 7 = false := by decide +kernel

/-- Head 7 with HPD high, its link down after n failed attempts. -/
def training (n : Nat) : State := (headIn 2 (fun x => { x with tries := n })).upd (fun d => d.wr (Reg.PHY_STATUS 7) 1)
/-- Head 7 waits one second for the herd. -/
def secondPassed : State := (headIn 2 id).upd (fun d => { d with clk := 1000000000 })
/-- A generator that runs. -/
def generating : State := (headIn 3 (fun x => { x with genOn := true })).upd (fun d => d.wr (Reg.LINE_MATCH 7) 0x067102ED)
/-- Head 7 waits for a joined herd; its PHY is in the repair map. -/
def badPhy : State := (headIn 2 id).upd (fun d => { d with repairs := [(14, 7)] })
theorem wit_HeadLinks_others :
    (herdRole (headIn 2 id).dev = 0 ∧ herdJoined (headIn 2 id).dev = false ∧ phyPowered (headIn 2 id).dev 7 = true ∧
      (headIn 2 id).dev.clk - ((headIn 2 id).dev.head 7).startClk < 1000000000) ∧
    (phyBad badPhy.dev 7 = true ∧ phyPowered badPhy.dev 7 = true) ∧ phyPowered State.reset.dev 7 = false ∧
    isDsi (headIn 0x602 id).dev 7 = true ∧ predicts State.reset.dev 7 = false ∧
    (predicts generating.dev 7 = true ∧ phyPowered generating.dev 7 = true) ∧
    ((generating.upd (fun d => d.wr (Reg.LINE_MATCH 7) 0x1FFF)).dev.fld (Reg.LINE_MATCH 7) 12 0 = 0x1FFF ∧
      ¬ 0x1FFF < (modeOf generating.dev 7).vTot) := by decide +kernel
theorem wit_HeadLinksAndPredictionsPerform :
    (phyPowered secondPassed.dev 7 = true ∧ secondPassed.dev.bit (Reg.PHY_STATUS 7) 1 = false ∧ (secondPassed.dev.head 7).genOn = false ∧
      (secondPassed.dev.head 7).ready = false ∧ 1000000000 ≤ secondPassed.dev.clk - (secondPassed.dev.head 7).startClk) ∧
    (isDsi (training 2).dev 7 = false ∧ phyPowered (training 2).dev 7 = true ∧ (training 2).dev.bit (Reg.PHY_STATUS 7) 0 = true ∧
      (training 2).dev.bit (Reg.PHY_STATUS 7) 1 = false ∧ ((training 2).dev.head 7).tries = 2 ∧ ((training 3).dev.head 7).tries = 3) ∧
    ((generating.dev.head 7).genOn = true ∧ isCommand generating.dev 7 = false ∧ isMirror generating.dev 7 = false ∧
      phyPowered generating.dev 7 = true ∧ (generating.dev.head 7).predicted = false ∧
      generating.dev.fld (Reg.LINE_MATCH 7) 12 0 < (modeOf generating.dev 7).vTot ∧
      generating.dev.fld (Reg.LINE_MATCH 7) 29 16 < (modeOf generating.dev 7).hTot) := by decide +kernel

/-- A transaction of head 7 in progress with a request word. -/
def sideBusy (q : Word) (n : Nat) : State := (training 0).upd (fun d => (d.wr (Reg.SIDE_STATUS 7) 1).updHead 7 (fun x => { x with sideReq := q, sideTries := n }))
/-- Head 7 in DSI command mode. -/
def commandIn (st : Nat) (f : HeadSt → HeadSt) : State := headIn (0x600 + st) f
theorem wit_SideChannelAndTearingEdges :
    ((training 0).dev.bit (Reg.SIDE_STATUS 7) 0 = false ∧ bitOf (0x80000009 : Word) 31 = true ∧ auxCode (fld (0x80000009 : Word) 3 0) = true ∧
      sideReach (training 0).dev 7 = true) ∧
    ((sideBusy 8 7).dev.bit (Reg.SIDE_STATUS 7) 0 = true ∧ isDsi (sideBusy 8 7).dev 7 = false ∧ sideReads (sideBusy 8 7).dev 7 = false ∧
      (sideBusy 9 6).dev.bit (Reg.SIDE_STATUS 7) 0 = true ∧ sideReads (sideBusy 9 6).dev 7 = true) ∧
    (isCommand (commandIn 2 id).dev 7 = true ∧ true = !(commandIn 2 id).dev.bit (Reg.TE_CTRL 7) 0 ∧ headState (commandIn 2 id).dev 7 = 2 ∧
      ((commandIn 2 id).dev.head 7).ready = false ∧ headState (commandIn 4 id).dev 7 = 4 ∧ ((commandIn 4 id).dev.head 7).decided = false ∧
      ((commandIn 2 (fun x => { x with ready := true })).dev.head 7).ready = true ∧
      ((commandIn 2 (fun x => { x with ready := true })).dev.head 7).teAccepted = false ∧
      ((commandIn 4 (fun x => { x with decided := true, teAccepted := true })).dev.head 7).teAccepted = true ∧
      ((commandIn 4 (fun x => { x with decided := true, teAccepted := true })).dev.head 7).decided = true) := by decide +kernel
theorem wit_SideChannel_others :
    (auxCode (fld (0x80000003 : Word) 3 0) = false ∧ isDsi (training 0).dev 7 = false ∧ (training 0).dev.bit (Reg.SIDE_STATUS 7) 0 = false) ∧
    (sideReach State.reset.dev 7 = false ∧ State.reset.dev.bit (Reg.SIDE_STATUS 7) 0 = false) ∧ bitOf (9 : Word) 31 = false ∧
    (sinceDecision ((commandIn 4 (fun x => { x with decided := true })).dev.pass 0) 7 6 = false ∧
      sinceDecision ((commandIn 4 (fun x => { x with decided := true })).dev.pass 100000000) 7 6 = true) ∧
    isCommand (headIn 4 id).dev 7 = false ∧ headState (commandIn 5 id).dev 7 = 5 := by decide +kernel

/-! ### Regimes, the rail, the steward and yokes -/

/-- A twin cell on head 7 in mode 5. -/
def twin : State := onRegs [(Reg.FLOCK_STATUS 15, 7), (Reg.CELL_STATUS 15 7, 0x200A), (Reg.HEAD_STATUS 7, 0x54)]
/-- The same in mode 10. -/
def twin10 : State := twin.upd (fun d => d.wr (Reg.HEAD_STATUS 7) 0xA4)
theorem wit_RegimeAndModeWrites :
    (State.reset.dev.keeper .jtag = true ∧ State.reset.dev.keeper (.yoke 0) = false ∧ bitOf (1 : Word) 0 = true ∧
      State.reset.dev.keeper .peer = false ∧
      State.reset.dev.bit Reg.REGIME_STATUS 0 = false ∧ State.reset.dev.bit Reg.REGIME_STATUS 1 = false ∧ anyTwin twin.dev = true) ∧
    (5 ≤ fld (0x31919 : Word) 4 0 ∧ fld (0x31919 : Word) 4 0 ≤ 25 ∧ fld (0x31919 : Word) 15 8 ≤ 25 ∧
      (∀ m ∈ twinModes twin.dev, doubledRate m ≤ throughput (fld (0x31919 : Word) 4 0) * 1000) ∧
      (onRegs [(Reg.REGIME_STATUS, 1)]).dev.bit Reg.REGIME_STATUS 0 = true ∧ (onRegs [(Reg.REGIME_STATUS, 2)]).dev.bit Reg.REGIME_STATUS 1 = true ∧
      ¬ ∀ m ∈ twinModes twin10.dev, doubledRate m ≤ throughput (fld (0x31919 : Word) 4 0) * 1000) := by decide +kernel

/-- The rail at a level with a cap, after a window with a low-slack line. -/
def railAt (lvl cap : Nat) (f : Rail → Rail) : State :=
  (onRegs [(Reg.RAIL_STATUS, w32 lvl), (Reg.MODE, w32 (cap + 0x1900))]).upd (fun d => d.updRail (fun r => f { r with low := true }))
theorem wit_RailMovesOneStepAtATime :
    ((railAt 25 25 id).dev.rail.pg = true ∧ (railAt 25 25 id).dev.rail.request = none ∧ (railAt 25 25 id).dev.bit Reg.REGIME_STATUS 1 = false ∧
      (railAt 25 25 id).dev.rail.low = true ∧ (railAt 25 25 id).dev.fld Reg.MODE 4 0 ≤ railLevel (railAt 25 25 id).dev) ∧
    ((railAt 5 6 (fun r => { r with failed := some 6 })).dev.rail.failed = some 6 ∧ railLevel (railAt 5 6 id).dev < 6 ∧
      6 ≤ railCap (railAt 5 6 id).dev ∧ ¬ 6 ≤ railCap (railAt 5 5 id).dev) ∧
    (lowerTo (railAt 25 20 id).dev < railLevel (railAt 25 20 id).dev ∧ railFloor (railAt 1 5 id).dev < railLevel (railAt 1 5 id).dev ∧
      railLevel (twin10.upd (fun d => d.wr Reg.RAIL_STATUS 1)).dev < railFloor twin10.dev) ∧
    (State.reset.dev.rail.request = none ∧ State.reset.dev.rail.failed = none) ∧
    (railAt 24 25 (fun r => { r with request := some 25 })).dev.rail.request = some 25 := by decide +kernel

/-- Flock 15 with its spare in cell 8, and the state beyond its registers. -/
def flockWith (g : FlockSt → FlockSt) : State :=
  (running 2 id).upd (fun d => (d.wr (Reg.FLOCK_STATUS 15) 0xF087).updFlock 15 g)
theorem wit_SpareTakesOverAFailedCell :
    (postOf (flockWith id).dev 15 7 = some 7 ∧ underTakeover (flockWith id).dev 15 7 = false ∧ owesWork (flockWith id).dev 15 7 = true ∧
      ((flockWith id).dev.flock 15).takeover = none ∧ spareCell (flockWith id).dev 15 ≠ 15) ∧
    (((flockWith (fun x => { x with takeover := some { post := 0, cell := 0, ht := 0 } })).dev.flock 15).takeover =
      some { post := 0, cell := 0, ht := 0 }) ∧
    (((flockWith (fun x => { x with takeover := some { post := 7, cell := 7, ht := 0, loaded := true } })).dev.flock 15).takeover =
        some { post := 7, cell := 7, ht := 0, loaded := true } ∧
      rejoinDue (flockWith id).dev (flockHead (flockWith id).dev 15) (0, 0) = true) := by decide +kernel

/-- Post 0 of flock 15 is of kind off and holds cell 0. -/
def postOff : State := (flockWith id).upd (fun d => d.setFld (Reg.CELL_STATUS 15 0) 3 0 0)
theorem wit_SpareTakesOver_others :
    (postOf postOff.dev 15 0 = some 0 ∧ underTakeover postOff.dev 15 0 = false ∧ owesWork postOff.dev 15 0 = false) ∧
    (postOf (flockWith id).dev 15 8 = some 8 ∧ ((flockWith id).dev.flock 15).ready = [] ∧
      ((flockWith (fun x => { x with ready := [3] })).dev.flock 15).ready = [3]) ∧
    (postOf (onRegs [(Reg.FLOCK_STATUS 15, 0xF0F0)]).dev 15 8 = none ∧ (State.reset.dev.flock 15).takeover = none ∧ (State.reset.dev.flock 15).repen = none) ∧
    underTakeover (flockWith (fun x => { x with takeover := some { post := 7, cell := 7, ht := 0 } })).dev 15 7 = true ∧
    ((flockWith (fun x => { x with waiting := [{ post := 1, cell := 1, ht := 0 }] })).dev.flock 15).waiting = [{ post := 1, cell := 1, ht := 0 }] := by
  decide +kernel

/-- Flock 15 probes post 0. -/
def probing : State := (flockWith (fun x => { x with probing := true })).upd (fun d => d.wr (Reg.FLOCK_STATUS 15) 0x0087)
/-- Cell 8 of flock 15 in self-test, with no spare. -/
def testing8 : State := (flockWith (fun x => { x with testing := [8] })).upd (fun d => d.wr (Reg.FLOCK_STATUS 15) 0xF1F7)
theorem wit_ProbesAndCellTestsDecide :
    ((probing.dev.flock 15).probing = true ∧ probing.dev.fld (Reg.FLOCK_STATUS 15) 15 12 = 0) ∧
    ((testing8.dev.flock 15).testing.contains 8 = true ∧ postOf testing8.dev 15 8 = none ∧ spareCell testing8.dev 15 = 15 ∧
      retirements testing8.dev 15 8 < 3) ∧
    (postOf (flockWith (fun x => { x with testing := [8, 7] })).dev 15 8 = some 8 ∧ postOf (flockWith id).dev 15 7 = some 7 ∧
      ((flockWith (fun x => { x with testing := [8, 7] })).dev.flock 15).testing.contains 7 = true) ∧
    3 ≤ retirements (flockWith (fun x => { x with retiredAt := [(8, 0), (8, 0), (8, 0)] })).dev 15 8 ∧
    ((State.reset.dev.flock 15).probing = false ∧ (State.reset.dev.flock 15).testing.contains 8 = false ∧ (onRegs [(Reg.ROVE_CTRL, 0)]).dev.bit Reg.ROVE_CTRL 0 = false) ∧
    ((onRegs [(Reg.ROVE_CTRL, 1)]).dev.bit Reg.ROVE_CTRL 0 = true) := by decide +kernel

/-- 15 requests wait. -/
def requests15 : State := on (fun d => { d with requests := List.replicate 15 (14, 7, false) })
theorem wit_StewardRequestsPerform :
    (requests15.dev.keeper .loader = true ∧ bitOf (0x80000011 : Word) 31 = true ∧ requestNames (fld (0x80000081 : Word) 3 0) (fld (0x80000081 : Word) 15 4) = true ∧
      requestNames 0 0 = false ∧ requests15.dev.requests.length < 16) ∧
    (requests15.dev.requests[(14 : Fin 16).val]? = some (14, 7, false) ∧ requestFree requests15.dev 14 7 = true) ∧
    (bitOf (1 : Word) 0 = true ∧ bitOf (2 : Word) 0 = false ∧ bitOf (2 : Word) 31 = false ∧ State.reset.dev.requests[(0 : Fin 16).val]? = none) ∧
    (requestFree (on (fun d => { d with requests := [(13, 1, false)] })).dev 13 1 = false ∧ State.reset.dev.keeper (.yoke 0) = false) := by
  decide +kernel

/-- Yoke 7 in a state on cores 14 and 15, with an image that holds its code, and its own state. -/
def yokeIn (st : Nat) (g : YokeSt → YokeSt) : State :=
  (onRegs [(Reg.YOKE_STATE 7, w32 (14 + 15 * 32 + st * 1024))]).upd (fun d => { d.updYk 7 g with
    ld := { d.ld with recs := [{ ty := 6, flags := 1, off := 0x100, body := [7, 0] ++ List.replicate 2 0 ++ natBytes 4 0x10 ++ natBytes 4 0x200 ++ natBytes 4 8 },
      { ty := 0xD, flags := 0, off := 0x200, body := [1, 2, 3, 4, 5, 6, 7, 8] }] } })
theorem wit_YokesCheckpointRollBackAndRestart :
    (yokeRun (yokeIn 1 id).dev 7 = 1 ∧ ckptFree 7 (yokeIn 1 id).dev = true ∧ soloCores (yokeIn 1 id).dev 7 = false) ∧
    (ckptFree 7 (yokeIn 3 id).dev = false ∧ soloCores (onRegs [(Reg.YOKE_STATE 7, 0x1000)]).dev 7 = true ∧ yokeHalted (yokeIn 3 id).dev 7 = false ∧
      (yokeIn 3 id).dev.keeper (.yoke 7) = false) ∧
    yokeRun (yokeIn 3 id).dev 7 = 3 ∧
    ((yokeIn 5 id).dev.keeper .jtag = true ∧ yokeHalted (yokeIn 5 id).dev 7 = true ∧
      (match yokeRec (yokeIn 5 id).dev 7 with
        | some b => decide ((blobBytes (yokeIn 5 id).dev.ld.recs (u32At b 8) (u32At b 12)).length = 8)
        | none => false) = true) := by decide +kernel

/-! ### Timers -/

/-- Channel 3 of unit 7 runs, with registers and the state beyond them. -/
def ticking (l : List (Nat × Word)) (f : TmSt → TmSt) : State :=
  (onRegs ((Reg.TM_STATUS 7 3, 1) :: l)).upd (fun d => d.updTm 7 3 f)
/-- At its last count, with new values buffered and one shot. -/
def lastTick : State := ticking [(Reg.TM_CNT 7 3, 9), (Reg.TM_PERIOD 7 3, 10), (Reg.TM_CTRL 7 3, 0x1C0000)]
  (fun t => { t with perBuf := some 20, cmpBuf := some 0 })
/-- Channels 2 and 3 of unit 7 as a pair, both running, the low one at its last count. -/
def pair : State := ticking [(Reg.TM_STATUS 7 2, 1), (Reg.TM_PERIOD 7 2, 1), (Reg.TM_CTRL 7 3, 0x20000)] id
/-- Deep standby, with a capture input of channel 3 of unit 7 selected and its task waiting. -/
def deepTimers : State := (onRegs [(Reg.PWR_STATUS, 5), (Reg.TM_STATUS 7 3, 1)]).upd (fun d => d.setTasks 0x27C [⟨0, true, 127⟩])
theorem wit_TimerTickFollowsItsSteps :
    (tmPowered lastTick.dev 7 = true ∧ tmRun lastTick.dev 7 3 = true ∧ tmChained lastTick.dev 7 3 = false ∧ tmPeriodMatch lastTick.dev 7 3 = true) ∧
    (tmPeriodMatch (ticking [(Reg.TM_PERIOD 7 3, 5)] (fun t => { t with late := true })).dev 7 3 = true ∧
      tmPeriodMatch (ticking [(Reg.TM_PERIOD 7 3, 5)] id).dev 7 3 = false) ∧
    (tmPowered pair.dev 7 = true ∧ tmRun pair.dev 7 2 = true ∧ tmChained pair.dev 7 2 = false ∧ tmChained pair.dev 7 3 = true ∧
      (tmPeriodMatch pair.dev 7 2 && tmLow pair.dev 7 2 && tmRun pair.dev 7 3) = true) ∧
    (tmPowered deepTimers.dev 7 = false ∧ tmRun State.reset.dev 7 3 = false) := by decide +kernel

/-- A task waits at input k of channel 3 of unit 7. -/
def tmTask (k : Nat) : State := on (fun d => d.setTasks (0x27C + k) [⟨0, true, 127⟩])
/-- A pin feeds TMR_CAP of channel 3 of unit 7, whose rising edges capture. -/
def capEdge : State := onRegs [(Reg.TM_CTRL 7 3, 0x1000000), (Reg.PIN_CFG 31, 4), (Reg.BANK_STATUS 0, 1)]
theorem wit_TimerCommandsPerform :
    tmFrom (tmTask 0).dev 7 3 0 none ((tmTask 0).dev.setTasks 0x27C []) true ∧ tmFrom (tmTask 1).dev 7 3 1 none ((tmTask 1).dev.setTasks 0x27D []) true ∧
    tmFrom (tmTask 2).dev 7 3 2 none ((tmTask 2).dev.setTasks 0x27E []) true ∧ tmFrom (tmTask 3).dev 7 3 3 none ((tmTask 3).dev.setTasks 0x27F []) true ∧
    tmFrom State.reset.dev 0 0 0 (some .jtag) State.reset.dev false ∧
    (capEdge.dev.bit (Reg.TM_CTRL 7 3) 24 = true ∧ pinFeeds capEdge.dev (capPin capEdge.dev 31) = true ∧ tmPowered capEdge.dev 7 = true ∧
      pinFeeds State.reset.dev (capPin State.reset.dev 31) = false ∧ tmPowered deepTimers.dev 7 = false) :=
  ⟨⟨⟨0, true, 127⟩, [], by decide +kernel, rfl, rfl⟩, ⟨⟨0, true, 127⟩, [], by decide +kernel, rfl, rfl⟩, ⟨⟨0, true, 127⟩, [], by decide +kernel, rfl, rfl⟩, ⟨⟨0, true, 127⟩, [], by decide +kernel, rfl, rfl⟩,
    ⟨rfl, rfl⟩, by decide +kernel⟩

/-- Unit 7 with channels 1 and 3 in its mask, and its armed group restart. -/
def group (f : TmUnit → TmUnit) : State := (onRegs [(Reg.UNIT_STAGGER 7, 10), (Reg.UNIT_START_HT_LO 7, 5), (Reg.TM_PERIOD 7 3, 100)]).upd
  (fun d => d.updTmUnit 7 f)
/-- The group at its target, and with unlike prescales. -/
def groupNow : State := (group id).upd (fun d => { d with ht := 5 })
def groupUneven : State := (group id).upd (fun d => d.wr (Reg.TM_CTRL 7 3) 1)
theorem wit_ArmedAndGroupRestartsPerform :
    ((ticking [] (fun t => { t with arm := some (2 ^ 64 - 1, true) })).dev.tm 7 3).arm = some (2 ^ 64 - 1, true) ∧
    (groupCheck 7 (group id).dev = none ∧ (group id).dev.now < (group id).dev.rd64 (Reg.UNIT_START_HT_LO 7) (Reg.UNIT_START_HT_HI 7) ∧
      (group id).dev.fld (Reg.UNIT_STAGGER 7) 3 0 ≠ 0 ∧ tmPowered (group id).dev 7 = true) ∧
    ((groupNow.dev.rd64 (Reg.UNIT_START_HT_LO 7) (Reg.UNIT_START_HT_HI 7) ≤ groupNow.dev.now) ∧ groupCheck 7 groupNow.dev = none) ∧
    ((State.reset.dev.tm 7 3).arm = none ∧ (State.reset.dev.tmUnit 7).arm = none ∧ State.reset.dev.fld (Reg.UNIT_STAGGER 7) 3 0 = 0) ∧
    ((groupUneven.dev.fld (Reg.UNIT_STAGGER 7) 3 0).testBit 1 = true ∧ (groupUneven.dev.fld (Reg.UNIT_STAGGER 7) 3 0).testBit 0 = false ∧
      (groupUneven.dev.fld (Reg.UNIT_STAGGER 7) 3 0).testBit 3 = true ∧ tmPre groupUneven.dev 7 3 ≠ tmPre groupUneven.dev 7 1) ∧
    (((group (fun g => { g with arm := some (5, true), gone := [1] })).dev.tmUnit 7).arm = some (5, true) ∧
      groupCheck 7 (group (fun g => { g with arm := some (5, true), gone := [1] })).dev = none) := by decide +kernel

/-! ### The Packhorse, the Mule and the check units -/

theorem clean_of (s : State) (a n : Nat) (hp : s.mem.poison = []) (he : s.mem.err = []) : CleanWords s a n := by
  intro w _ _; rw [hp, he]; exact ⟨rfl, rfl⟩

/-- A state with words of memory stored. -/
def stored (l : List (Nat × Word)) (s : State) : State :=
  l.foldl (fun s e => { s with mem := { s.mem with bytes := Store.setList (fun _ => 0) s.mem.bytes e.1 (wordBytes e.2) } }) s

/-- Channel 31 with its ring in the shared SRAM, in state `st`, with one descriptor word there. -/
def channel (st : Nat) (l : List (Nat × Word)) (w0 : Word) (f : PhSt → PhSt) : State :=
  stored [(0x1000000000, w0)] ((onRegs ([(Reg.RING_BASE_HI 31, 0x10), (Reg.RING_SIZE 31, 4), (Reg.PCH_STATUS 31, w32 (st + 31 * 2 ^ 8))] ++ l)).upd
    (fun d => d.updPh 31 f))
/-- A task of channel 31. -/
def phTask (k : Nat) (s : State) : State := s.upd (fun d => d.setTasks (0x17C + k) [⟨0, true, 127⟩])
theorem wit_PackhorseCommandsRunTheRing :
    (phFrom (phTask 0 (channel 0 [] 0x80000000 id)).dev 31 0 none ((phTask 0 (channel 0 [] 0x80000000 id)).dev.setTasks 0x17C []) (some ⟨0, true, 127⟩) ∧
      phFrom (channel 3 [] 0 id).dev 31 0 (some .jtag) (channel 3 [] 0 id).dev none ∧ phState (channel 0 [] 0 id).dev 31 = 0 ∧
      phState (channel 3 [] 0 id).dev 31 = 3 ∧ memUp (channel 0 [] 0 id).dev (descAddr (channel 0 [] 0 id).dev 31) 32 = true) ∧
    (phFrom (phTask 1 (channel 2 [] 0 id)).dev 31 1 none ((phTask 1 (channel 2 [] 0 id)).dev.setTasks 0x17D []) (some ⟨0, true, 127⟩) ∧
      phState (phTask 1 (channel 2 [] 0 id)).dev 31 = 2 ∧ phStepped (channel 2 [(Reg.PCH_CFG 31, 1)] 0 id).dev 31 = true) ∧
    phFrom (phTask 2 (channel 1 [] 0 id)).dev 31 2 none ((phTask 2 (channel 1 [] 0 id)).dev.setTasks 0x17E []) (some ⟨0, true, 127⟩) ∧
    ((channel 1 [] 0 id).dev.bit (Reg.PCH_CFG 31) 3 = false ∧ phState (channel 4 [] 0 id).dev 31 = 4 ∧
      sparesOf (channel 4 [] 0 (fun p => { p with broken := true })).dev 5 ≠ []) :=
  ⟨⟨⟨⟨0, true, 127⟩, [], by decide +kernel, rfl, rfl⟩, ⟨fun _ => rfl, rfl, rfl⟩, by decide +kernel⟩,
    ⟨⟨⟨0, true, 127⟩, [], by decide +kernel, rfl, rfl⟩, by decide +kernel⟩, ⟨⟨0, true, 127⟩, [], by decide +kernel, rfl, rfl⟩, by decide +kernel⟩
/-- Channel 31 has no working physical channel, and a record owed. -/
def spent : State := channel 4 [] 0 (fun p => { p with broken := true, desc := some { idx := 0, w := [0x800000], status := 8, ended := true } })
theorem wit_PackhorseCommands_others :
    (((channel 0 [] 0 id).dev.ph 31).broken = false ∧ phFrom (channel 1 [] 0 id).dev 31 0 (some .jtag) (channel 1 [] 0 id).dev none ∧
      phFrom (channel 1 [] 0 id).dev 31 1 (some .jtag) (channel 1 [] 0 id).dev none ∧ phState (channel 1 [] 0 id).dev 31 = 1 ∧
      phFrom (phTask 0 (channel 0 [] 0 (fun p => { p with broken := true }))).dev 31 0 none
        ((phTask 0 (channel 0 [] 0 (fun p => { p with broken := true }))).dev.setTasks 0x17C []) (some ⟨0, true, 127⟩)) ∧
    (phState (channel 5 [] 0 id).dev 31 = 5 ∧ phOwesRecord spent.dev 31 = true ∧ phState spent.dev 31 = 4 ∧
      phOwesRecord (channel 4 [] 0 (fun p => { p with broken := true })).dev 31 = false) ∧
    ((channel 0 [(Reg.PCH_CFG 31, 8)] 0 id).dev.bit (Reg.PCH_CFG 31) 3 = true ∧ (channel 0 [(Reg.PCH_CFG 31, 8)] 0 id).dev.keeper (.yoke 0) = false) :=
  ⟨⟨by decide +kernel, ⟨fun _ => rfl, rfl, rfl⟩, ⟨fun _ => rfl, rfl, rfl⟩, by decide +kernel, ⟨⟨0, true, 127⟩, [], by decide +kernel, rfl, rfl⟩⟩,
    by decide +kernel, by decide +kernel⟩
theorem wit_clean_channel (st : Nat) (l : List (Nat × Word)) (w : Word) (f : PhSt → PhSt) (a n : Nat) : CleanWords (channel st l w f) a n :=
  clean_of _ _ _ rfl rfl

/-- A FILL of 8 bytes at the start of HBM3 with a pattern, with more of the state. -/
def filling (x : PhDesc) : State := channel 1 [] 0x82000000 (fun p => { p with desc := some x })
/-- Its descriptor. -/
def fillDesc : PhDesc := { idx := 3, w := [0x92200000, 8, 0x01020304, 0, 0, 0, 0, 0] }
theorem wit_DescriptorsAreTakenAndChannelsSpared :
    (phState (channel 1 [] 0x82000000 id).dev 31 = 1 ∧ ((channel 1 [] 0x82000000 id).dev.ph 31).desc = none ∧
      descType (listWords (Store.getList (fun _ => 0) (channel 1 [] 0x82000000 id).mem.bytes (descAddr (channel 1 [] 0x82000000 id).dev 31) 32)) = 2 ∧
      descType (listWords (Store.getList (fun _ => 0) (channel 1 [] 0x80000000 id).mem.bytes (descAddr (channel 1 [] 0x80000000 id).dev 31) 32)) = 0 ∧
      descType (listWords (Store.getList (fun _ => 0) (channel 1 [] 0x81000000 id).mem.bytes (descAddr (channel 1 [] 0x81000000 id).dev 31) 32)) = 1 ∧
      descType (listWords (Store.getList (fun _ => 0) (channel 1 [] 0x83000000 id).mem.bytes (descAddr (channel 1 [] 0x83000000 id).dev 31) 32)) = 3 ∧
      4 ≤ descType (listWords (Store.getList (fun _ => 0) (channel 1 [] 0x8F000000 id).mem.bytes (descAddr (channel 1 [] 0x8F000000 id).dev 31) 32))) ∧
    (((channel 1 [] 0 id).dev.ph 31).broken = false ∧ (channel 1 [] 0 id).dev.inDeep = false ∧ (channel 1 [] 0 id).dev.fld (Reg.PCH_STATUS 31) 13 8 = 31 ∧
      (channel 1 [] 0 id).dev.unit 5 35 = 1 ∧
      (∀ j < 36, ((channel 1 [] 0 id).upd (fun d => (List.range 36).foldl (fun d j => setUnit 5 j 2 d) d)).dev.unit 5 j ≠ 1)) ∧
    (phState (channel 5 [] 0 id).dev 31 = 5 ∧ ((channel 5 [] 0 id).dev.ph 31).was < 8 ∧ (channel 5 [] 0 id).dev.fld (Reg.PCH_STATUS 31) 13 8 = 31 ∧
      sparesOf (channel 5 [] 0 id).dev 5 = [32, 33, 34, 35] ∧
      sparesOf ((channel 5 [] 0 id).upd (fun d => (List.range 36).foldl (fun d j => setUnit 5 j 2 d) d)).dev 5 = []) ∧
    (bitOf (descWord (listWords (Store.getList (fun _ => 0) (channel 1 [] 0x82000000 id).mem.bytes
        (descAddr (channel 1 [] 0x82000000 id).dev 31) 32)) 0) 31 = true ∧ [Instr.phCopy 31, .phCopy2d 31].idxOf (Instr.phCopy2d 31) = 1) := by
  decide +kernel

/-- A COPY upward of 300 bytes, a COPY2D and an IMM. -/
def copyDesc : PhDesc := { idx := 3, w := [0x80000000, 300, 0, 0xA, 0x200, 0xA, 0, 0] }
def copy2dDesc : PhDesc := { idx := 3, w := [0x81000000, 0x00020010, 0, 0xA, 0x200, 0xA, 32, 64] }
def immDesc : PhDesc := { idx := 3, w := [0x83000000, 4, 0x01020304, 0, 0x200, 0xA, 0, 0] }
/-- A completion queue of 16 records in the shared SRAM that channel 31 fills. -/
def queueOn (st wr : Nat) (x : PhDesc) : State :=
  channel st [(Reg.CQ_CTRL 1, 0x41), (Reg.CQ_BASE_HI 1, 0x10), (Reg.CQ_WR 1, w32 wr)] 0 (fun p => { p with desc := some x })
theorem wit_UnitsMoveBytesAndDescriptorsComplete :
    (phTurn (filling fillDesc).dev = some 31 ∧ ((filling fillDesc).dev.ph 31).desc = some fillDesc ∧ 0 < descBytes fillDesc.w ∧
      descUnit fillDesc.w 0 = (0x01020304, 0, 8) ∧ sysRegion 0 8 = .memory ∧ phTurn State.reset.dev = none) ∧
    (phTurn (filling copyDesc).dev = some 31 ∧ descUnit copyDesc.w 0 = (0xA0000002C, 0xA0000022C, 256) ∧ sysRegion 0xA0000022C 256 = .memory ∧
      memUp (filling copyDesc).dev 0xA0000022C 256 = true ∧ memUp (filling copyDesc).dev 0xA0000002C 256 = true ∧
      secureRefuses (filling copyDesc).dev ((filling copyDesc).dev.keeper (.channel 31)) 0xA0000022C 256 = false) ∧
    (descUnit copy2dDesc.w 16 = (0xA00000020, 0xA00000240, 16) ∧ 16 < descBytes copy2dDesc.w ∧
      descType immDesc.w = 3 ∧ descBytes immDesc.w = 4 ∧ descDst immDesc.w = 0xA00000200 ∧ haltBars (filling immDesc).dev (.channel 31) = false ∧
      sysRegion 0xA00000200 4 = .memory ∧ memUp (filling immDesc).dev 0xA00000200 4 = true) ∧
    (bitOf (descWord fillDesc.w 0) 30 = false ∧ fillDesc.w.length = 8 ∧
      memUp (filling { fillDesc with ended := true }).dev (0x1000000000 + 32 * 3) 4 = true ∧
      secureRefuses (filling { fillDesc with ended := true }).dev false (0x1000000000 + 32 * 3) 4 = false) ∧
    ((queueOn 1 0 fillDesc).dev.bit (Reg.CQ_CTRL 1) 0 = true ∧ fld (descWord fillDesc.w 0) 23 21 = 1 ∧
      cqFull (queueOn 1 0 fillDesc).dev 1 = false ∧ cqFull (queueOn 1 16 fillDesc).dev 1 = true ∧ phState (queueOn 6 16 fillDesc).dev 31 = 6 ∧
      phState (queueOn 4 0 { fillDesc with status := 8, ended := true }).dev 31 = 4 ∧
      memUp (queueOn 1 0 fillDesc).dev 0x1000000000 16 = true) := by decide +kernel

/-- A FILL of one 32-bit pixel at an address of the shared SRAM. -/
def muleFill : MuleCmd := { ticket := 1, w := [0x00020C02, 0x50, 0, 0x00100000, 0, 0, 16, 0, 0x00010001, 0, 0x55, 0, 0, 0, 0, 0], block := 0x1000FFFFC0, keeper := true }
/-- A COPY within one surface that overlaps. -/
def muleCopy : MuleCmd := { ticket := 2, w := [0x00000C01, 0x55, 0, 0x00100010, 0, 16, 16, 0, 0x00010002, 1, 0, 0, 0, 0, 0, 0], block := 0x1000000040, keeper := false }
/-- The Mule with commands. -/
def muleOn (f : MuleSt → MuleSt) : State := on (fun d => d.muleUpd f)
theorem wit_MuleTakesAndStartsCommands :
    (bitOf 0x8003FFFF 31 = true ∧ State.reset.dev.mule.queue.length < 64) ∧
    ((muleOn (fun m => { m with queue := [muleFill, muleCopy] })).dev.mule.queue = [muleFill, muleCopy] ∧
      muleFree (muleOn (fun m => { m with run := [{ lane := some 0, cmd := muleFill }], queue := [{ muleCopy with w := muleCopy.w.set 4 4096 }] })).dev = [1] ∧
      muleFill.conflicts { muleCopy with w := (muleCopy.w.set 4 4096).set 2 4096 } = false ∧ muleFill.op = 2 ∧ muleCopy.op = 1 ∧ muleCopy.overlaps = true ∧
      ({ muleCopy with w := muleCopy.w.set 0 0 } : MuleCmd).op = 0 ∧ ({ muleCopy with w := muleCopy.w.set 0 3 } : MuleCmd).op = 3) ∧
    (memUp State.reset.dev 0x1000FFFFC0 64 = true ∧ State.reset.dev.mule.queue = [] ∧
      64 ≤ (muleOn (fun m => { m with queue := List.replicate 64 muleFill })).dev.mule.queue.length ∧
      muleFill.conflicts { muleFill with ticket := 2 } = true) := by decide +kernel

/-- Lane 1 runs a command. -/
def lane (r : MuleRun) : State := muleOn (fun m => { m with run := [r] })
/-- The Mule without its spare lane. -/
def noLaneSpare : State := on (setUnit 6 2 2)
theorem wit_MuleFinishesAbortsAndSpares :
    ((lane { lane := some 1, cmd := muleFill }).dev.mule.run.find? (fun r => r.lane == some 1) = some { lane := some 1, cmd := muleFill } ∧
      0 < muleFill.tiles.2 ∧ memUp State.reset.dev (muleFill.block + 60) 4 = true ∧ muleFill.b 17 = true) ∧
    (State.reset.dev.keeper .jtag = true ∧
      (muleOn (fun m => { m with queue := [muleFill, muleCopy] })).dev.mule.queue.find? (fun c => c.ticket == 2) = some muleCopy ∧
      (lane { lane := some 1, cmd := muleFill }).dev.mule.queue.find? (fun c => c.ticket == 1) = none) ∧
    ((lane { lane := some 1, cmd := muleFill }).dev.unit 6 1 = 0 ∧ (lane { lane := some 1, cmd := muleFill }).dev.unit 6 2 = 1) ∧
    ((muleOn (fun m => { m with run := [{ lane := none, cmd := muleFill }], swap := [(1, 2, 5)] })).dev.mule.swap = [(1, 2, 5)] ∧
      sparesOf (muleOn (fun m => { m with run := [{ lane := none, cmd := muleFill }], swap := [(1, 2, 5)] })).dev 6 = [2]) ∧
    (State.reset.dev.keeper (.yoke 0) = false ∧ (lane { lane := some 1, cmd := muleFill, ended := true }).dev.mule.queue = [] ∧
      (∀ j < 3, noLaneSpare.dev.unit 6 j ≠ 1) ∧ noLaneSpare.dev.unit 6 0 = 0 ∧ sparesOf noLaneSpare.dev 6 = [] ∧ muleFree State.reset.dev = [0, 1] ∧
      State.reset.dev.mule.swap = [] ∧ noLaneSpare.dev.unit 6 2 = 2) := by decide +kernel

/-- Check unit 7 enabled with no end of its own, with a byte that waits, and more of its state. -/
def checking (v : Word) (f : CkSt → CkSt) : State := (onRegs [(Reg.CK_CTRL 7, v), (Reg.CK_POLY 7, 1)]).upd (fun d => d.updCk 7 f)
/-- The same with the alive value at offset 0 of 8 bits and the reference 7. -/
def alive : State := (checking 0x230001 (fun c => { c with queue := [(8, true)] })).upd (fun d => d.wr (Reg.CK_ALIVE_REF 7) 0x10007)
theorem wit_CheckUnitsTakeBytesAndEndBlocks :
    (((checking 0x30001 (fun c => { c with queue := [(0x31, true)] })).dev.ck 7).queue = [(0x31, true)] ∧
      aliveWidth (checking 0x30001 (fun c => { c with queue := [(0x31, true)] })).dev 7 = 0 ∧ ckTail (checking 0x30001 id).dev 7 = 0 ∧
      ckTail (checking 0x70001 id).dev 7 = 4 ∧ (checking 0x30007 id).dev.fld (Reg.CK_CTRL 7) 3 1 = 3 ∧
      ((checking 0x30001 id).dev.ck 7).tail = [] ∧ (checking 0x30001 id).dev.fld (Reg.CK_CTRL 7) 17 16 = 3) ∧
    (aliveWidth alive.dev 7 = 8 ∧ (alive.dev.ck 7).n = alive.dev.fld (Reg.CK_ALIVE 7) 23 0 ∧ (8 : Byte).toNat = (alive.dev.fld (Reg.CK_ALIVE_REF 7) 15 0 + 1) % 256) ∧
    (((checking 0x30001 (fun c => { c with n := 1, crc := 5 })).dev.ck 7).n ≠ 0 ∧
      ((checking 0x30001 (fun c => { c with n := 1, crc := 5 })).dev.ck 7).lost = false ∧ (checking 0x30001 id).dev.fld (Reg.CK_CTRL 7) 19 18 = 0 ∧
      ((checking 0x30001 (fun c => { c with lost := true })).dev.ck 7).lost = true ∧
      ((checking 0x30001 id).upd (fun d => d.setTasks 0x29E [⟨0, true, 127⟩])).dev.tasksAt 0x29E ≠ [] ∧
      ((checking 0x30001 id).upd (fun d => d.setTasks 0x29F [⟨0, true, 127⟩])).dev.tasksAt 0x29F ≠ [] ∧ State.reset.dev.tasksAt 0x29F = []) ∧
    ((checking 0x30001 id).dev.bit (Reg.CK_CTRL 7) 0 = true ∧ (checking 0x30001 id).dev.fld (Reg.CK_CTRL 7) 3 1 = 0 ∧ ∀ y, Req.jtag ≠ .yoke y) := by
  refine ⟨by decide +kernel, by decide +kernel, by decide +kernel, by decide +kernel, by decide +kernel, ?_⟩
  intro y; nofun
/-! ### The Drove link -/

/-- The link in state `st`, with registers and more of its state. -/
def link (st : Nat) (l : List (Nat × Word)) (f : DrvSt → DrvSt) : State :=
  (onRegs ((Reg.DRV_STATUS, w32 (st + 0x880000)) :: l)).upd (fun d => d.drvUpd f)
/-- A DATA frame of stream 59 in its turn, with credits and an acknowledgement. -/
def dataFrame : DrvFrame := { stream := 59, eom := true, cr := some (63, 5), ack := some 4, payload := [1, 2] }
/-- A receive ring of 4 KB that has wrapped almost. -/
def linkRing : State := link 2 [(Reg.DRX_CFG 59, 0xA00C0010), (Reg.DRX_WR 59, 0xF80), (Reg.DRX_RD 59, 0xF80)]
  (fun x => { x with out := [{ f := { ty := 1, seq := 4 } }, { f := { ty := 1, seq := 5 } }] })
/-- A write and reads of 8 bytes of the shared SRAM. -/
def memFrame (st : Nat) (a : Nat) (l : List Byte) : DrvFrame := { stream := st, payload := natBytes 8 a ++ l }
/-- Peer access on, and a region that neither the peer nor an unprivileged requester may write. -/
def peerLink (l : List (Nat × Word)) : State := link 2 ((Reg.DRV_CTRL, 7) :: l) id
/-- Markers that align eight lanes, each carrying the logical lane of its number; lane 8 carries none. -/
def marks : List RxMark := (List.range 9).map (fun l => { lane := l, word := marker (if l = 8 then 15 else l) l 0, skew := (l : Int) * 2000 })
/-- A marker of logical lane 7 on physical lane 8. -/
def movedMark : RxMark := { lane := 8, word := marker 7 8 3 }
/-- Yoke 3 waits for customer logic. -/
def copWaits : State := (link 2 [] (fun x => { x with cops := [{ tag := 9, y := 3, c := 4, at_ := 0 }] })).upd
  (fun d => d.updYk 3 (fun k => { k with wait := some { c := 4, wide := true, reg := 5, tag := 9 } }))
/-- Yoke 3 waits for a load from the peer. -/
def loadWaits : State := (link 2 [] (fun x => { x with reads := [{ tag := 7, who := .yoke 3, addr := 0, len := 4, at_ := 0 }] })).upd
  (fun d => d.updYk 3 (fun k => { k with ld := some { reg := 4, size := 4, signed := false, addr := 0, tag := 7 } }))
theorem wit_ReceivedFramesArePerformed :
    (Accepts linkRing.dev 1 dataFrame ∧ linkRing.dev.bit (Reg.DRX_CFG 59) 29 = true ∧
      (linkRing.dev.rd (Reg.DRX_WR 59) - linkRing.dev.rd (Reg.DRX_RD 59)).toNat + (dataRecord dataFrame linkRing.dev.ht).length ≤ 2 ^ 12 ∧
      memUp linkRing.dev 0x1000000000 (2 ^ 12) = true) ∧
    (Accepts linkRing.dev 2 { payload := [63, 0, 1, 0, 63, 0, 0xFF, 0xFF] } ∧ ∀ k < 64, (linkRing.dev.rd (Reg.TX_CREDITS k)).toNat ≤ 65535) ∧
    (Accepts linkRing.dev 3 { ack := some 4 } ∧ Accepts linkRing.dev 10 {} ∧ Accepts linkRing.dev 4 { ack := some 4 } ∧ outPlace linkRing.dev 4 = some 0) ∧
    (Accepts (peerLink []).dev 5 (memFrame 60 0x1000000000 [7]) ∧ peerRefused (peerLink []).dev 0x1000000000 1 = false ∧
      regionFlag (peerLink []).dev 1 0x1000000000 1 = false ∧ secureRefuses (peerLink []).dev ((peerLink []).dev.keeper .peer) 0x1000000000 1 = false ∧
      peerRefused linkRing.dev 0x1000000000 1 = true) ∧
    (Accepts (peerLink []).dev 6 (memFrame 61 0x1000000000 [0, 0x10, 0, 0]) ∧ peerRefused (peerLink []).dev 0x1000000000 4096 = false) ∧
    (Accepts (link 2 [] (fun x => { x with reads := [{ tag := 7, who := .channel 31, addr := 0, len := 2, at_ := 0 }] })).dev 7
        { stream := 62, tag := 7, payload := [1, 2] } ∧ fld (7 : Word) 23 16 = 0) ∧
    (Accepts linkRing.dev 8 { stream := 63, payload := List.replicate 16 0 } ∧ Accepts copWaits.dev 9 { stream := 63, tag := 9, payload := List.replicate 12 0 } ∧
      copWaits.dev.drv.cops.find? (fun r => r.tag == (9 : Word).toNat) = some { tag := 9, y := 3, c := 4, at_ := 0 } ∧
      (copWaits.dev.yk 3).wait = some { c := 4, wide := true, reg := 5, tag := 9 }) ∧
    (drvState linkRing.dev = 2 ∧ drvState (link 1 [] id).dev ≠ 2 ∧ nakHeld (link 2 [] (fun x => { x with nakAt := some 0 })).dev = true) := by
  refine ⟨?_, ?_, ?_, ?_, ?_, ?_, ?_, ?_⟩ <;> first | decide +kernel | (unfold Accepts; decide +kernel)
theorem wit_clean_link (st : Nat) (l : List (Nat × Word)) (f : DrvSt → DrvSt) (a n : Nat) : CleanWords (link st l f) a n := clean_of _ _ _ rfl rfl

theorem wit_ReceivedFramesArePerformed_others :
    (Accepts (link 2 [] id).dev 1 dataFrame ∧ (link 2 [] id).dev.bit (Reg.DRX_CFG 59) 29 = false ∧
      2 ^ 12 < (0x1000 : Nat) - 0x80 + (dataRecord dataFrame 0).length ∧
      memUp (link 2 [(Reg.DRX_CFG 59, 0xA00C000C)] id).dev 0xC00000000 (2 ^ 12) = false) ∧
    (Accepts linkRing.dev 4 { ack := some 9 } ∧ outPlace linkRing.dev 9 = none ∧ outPlace linkRing.dev ((9 + 1) % 65536) = none ∧
      Accepts linkRing.dev 4 { ack := some 3 } ∧ outPlace linkRing.dev 3 = none ∧ outPlace linkRing.dev ((3 + 1) % 65536) = some 0) ∧
    (sysRegion 0x2000000000 4 = .register ∧ peerRefused (peerLink []).dev 0x2000000000 4 = false ∧
      Accepts (peerLink []).dev 5 (memFrame 60 0x2000000000 [1, 2, 3, 4]) ∧ Accepts (peerLink []).dev 6 (memFrame 61 0x2000000000 [4, 0, 0, 0])) ∧
    (Accepts (peerLink []).dev 6 (memFrame 61 0x1000000000 [0, 0, 0, 0]) ∧ Accepts (peerLink []).dev 6 (memFrame 61 0x1000000000 [1, 0x10, 0, 0])) ∧
    (Accepts linkRing.dev 7 { stream := 62 } ∧ linkRing.dev.drv.reads.find? (fun r => r.tag == fld (0 : Word) 15 0) = none) ∧
    ((loadWaits.dev.yk 3).ld = some { reg := 4, size := 4, signed := false, addr := 0, tag := 7 } ∧
      loadWaits.dev.drv.reads.find? (fun r => r.tag == fld (7 : Word) 15 0) = some { tag := 7, who := .yoke 3, addr := 0, len := 4, at_ := 0 } ∧
      Accepts loadWaits.dev 7 { stream := 62, tag := 7, payload := [1, 2, 3, 4] }) ∧
    (frameRow { stream := 60, ty := 1, payload := [1] } = false ∧ frameReserved { ty := 8, payload := List.replicate 16 0xFF } = false ∧
      sequenced 9 = true ∧ ({ seq := 65535 : DrvFrame }).seq ≠ linkRing.dev.drv.next) := by
  refine ⟨?_, ?_, ?_, ?_, ?_, ?_, ?_⟩ <;> first | decide +kernel | (unfold Accepts; decide +kernel)

/-- A frame of the peer stream 61 that waits. -/
def readFrame : TxFrame := { f := { ty := 6, stream := 61, payload := List.replicate 12 0 }, who := some .jtag }
/-- A CREDIT frame that waits. -/
def creditFrame : TxFrame := { f := { ty := 2, payload := [3, 0, 1, 0] } }
/-- A transmit ring of 4 KB whose next record, of 241 bytes, wraps. -/
def txRing : State := { link 2 [(Reg.DTX_CFG 59, 0x200C0010), (Reg.DTX_WR 59, 0x1100), (Reg.DTX_RD 59, 0xF00), (Reg.TX_CREDITS 59, 2)] id with
  mem := { State.reset.mem with bytes := [(0x1000000000, 7), (0x1000000F00, 241), (0x1000000F02, 1), (0x1000000FFF, 9)] } }
theorem wit_FramesAreSentAgainstCredits :
    drvState (link 2 [] id).dev = 2 ∧
    (pickQueued 61 [] [readFrame] = some readFrame ∧ (link 2 [(Reg.TX_CREDITS 61, 1)] (fun x => { x with queue := [readFrame] })).dev.drv.resend = none ∧
      [readFrame].find? (fun t => t.f.ty == 2) = none ∧ frameCost readFrame.f ≤ 1 ∧ replayUsed [] + frameSize readFrame.f ≤ 262144) ∧
    NoSwapWithin (link 2 [] id).dev 3 ∧
    outPlace (link 2 [] (fun x => { x with out := [readFrame] })).dev 0 = some 0 ∧
    ((link 2 [] id).dev.rd (Reg.TX_CREDITS 61)).toNat < frameCost readFrame.f ∧
    ([creditFrame].find? (fun t => t.f.ty == 2) = some creditFrame ∧ replayUsed [] + frameSize creditFrame.f ≤ 262144) ∧
    ((link 2 [] (fun x => { x with owed := [(3, 70000)] })).dev.drv.owed ≠ []) ∧
    (ringBase txRing.dev (Reg.DTX_BASE_LO 59) (Reg.DTX_CFG 59) = 0x1000000000 ∧ txRing.dev.fld (Reg.DTX_CFG 59) 20 16 = 12 ∧
      txRing.byteAt 0x1000000F00 = 241 ∧ txRing.byteAt (0x1000000F00 + 1) = 0 ∧ txRing.dev.bit (Reg.DTX_CFG 59) 29 = true ∧
      txRing.dev.rd (Reg.DTX_WR 59) ≠ txRing.dev.rd (Reg.DTX_RD 59) ∧ memUp txRing.dev 0x1000000000 (2 ^ 12) = true ∧
      (16 + 241 + 255) / 256 ≤ (txRing.dev.rd (Reg.TX_CREDITS 59)).toNat) ∧
    (link 2 [] (fun x => { x with out := [readFrame], fails := 7 })).dev.drv.fails < 8 ∧
    ((linkRing.dev.rd (Reg.DRX_WR 59) - 0).toNat ≤ 2 ^ linkRing.dev.fld (Reg.DRX_CFG 59) 20 16 ∧
      ¬ (linkRing.dev.rd (Reg.DRX_WR 59) - 0x1000).toNat ≤ 2 ^ linkRing.dev.fld (Reg.DRX_CFG 59) 20 16) := by
  refine ⟨?_, ?_, ?_, ?_, ?_, ?_, ?_, ?_, ?_, ?_⟩ <;> first | decide +kernel | exact .inl (by decide +kernel)
theorem wit_clean_txRing : CleanWords txRing 0x1000000000 (2 ^ 12) := clean_of _ _ _ rfl rfl

theorem wit_SessionsAndLanesFollowTheirRules :
    ((link 0 [(Reg.DRV_CTRL, 1)] id).dev.bit Reg.DRV_CTRL 0 = true ∧ drvState (link 0 [(Reg.DRV_CTRL, 1)] id).dev = 0 ∧
      (link 0 [(Reg.DRV_CTRL, 1)] id).dev.drv.dead = false ∧ (link 0 [(Reg.DRV_CTRL, 1)] id).dev.pwr ≠ 5) ∧
    (drvState (link 1 [] id).dev = 1 ∧ drvState (link 3 [] id).dev = 3 ∧ (link 1 [] id).dev.drv.session = none ∧
      8 ≤ (goodLanes (link 1 [] id).dev 0).length ∧ 8 ≤ (goodLanes (link 1 [] id).dev 1).length) ∧
    ((link 3 [] (fun x => { x with session := some (1, 2) })).dev.drv.session = some (1, 2) ∧ (link 3 [] id).dev.drv.out = []) ∧
    (link 2 [] id).dev.keeper .jtag = true ∧
    (laneCarries (link 2 [(Reg.LANE_MAP_RX, 0x76543210)] id).dev 1 7 = some 7 ∧ (link 2 [] id).dev.unit 9 (16 + 7) = 0 ∧
      spareLane (link 2 [] id).dev 0 = 8 ∧ spareLane (link 2 [] id).dev 1 = 8 ∧ (link 2 [(Reg.LANE_MAP_TX, 0x76543210)] id).dev.fld Reg.LANE_MAP_TX 31 28 = 7 ∧
      (link 2 [] id).dev.unit 9 7 = 0) ∧
    (rxAligned marks = true ∧ rxAligned (marks.drop 1) = false ∧ rxAligned (marks.set 0 { lane := 0, word := marker 0 0 0, skew := -5000 }) = false) ∧
    ((link 2 [] (fun x => { x with swap := [(0, 7 + 80, 5)] })).dev.drv.swap.find? (fun e => e.1 == 0) = some (0, 7 + 16 * 5, 5) ∧
      laneCarries (link 2 [(Reg.LANE_MAP_TX, 0x76543210)] id).dev 0 7 = some 7 ∧ laneCarries (link 2 [(Reg.LANE_MAP_TX, 0x86543210)] id).dev 0 7 = none) ∧
    (markOk movedMark = true ∧ markLog movedMark = 7 ∧ laneCarries (link 2 [(Reg.LANE_MAP_RX, 0x76543210)] id).dev 1 8 = none ∧
      (link 2 [(Reg.LANE_MAP_RX, 0x76543210)] id).dev.fld Reg.LANE_MAP_RX 31 28 = 7 ∧ markOk { movedMark with word := 0 } = false ∧
      markLog (marks.getD 8 {}) = 15) ∧
    (spareLane ((link 2 [] id).upd (fun d => setSpareLane 1 15 d)).dev 1 = 15 ∧
      (8 ≤ (goodLanes (link 1 [] id).dev 0).length ∧ (goodLanes ((link 1 [] id).upd (fun d => retireUnit 9 8 (retireUnit 9 7 d))).dev 0).length < 8)) ∧
    (((link 2 [] id).upd (fun d => retireUnit 9 (16 + 8) d)).dev.testing.contains (9, 24) = true ∧
      ((link 2 [] id).upd (fun d => retireUnit 9 (16 + 8) d)).dev.unit 9 24 = 2) ∧
    (link 2 [] (fun x => { x with reads := [{ tag := 7, who := .channel 31, addr := 0, len := 2, at_ := 5 }] })).dev.drv.reads.find? (fun r => r.tag == 7) =
      some { tag := 7, who := .channel 31, addr := 0, len := 2, at_ := 5 } ∧
    (copWaits.dev.drv.cops.find? (fun r => r.y == 3) = some { tag := 9, y := 3, c := 4, at_ := 0 } ∧ (copWaits.dev.yk 3).ctx.exl = false) := by decide +kernel

/-! ### Audio -/

/-- Audio with registers and more of its state. -/
def audio (l : List (Nat × Word)) (f : AudioSt → AudioSt) : State := (onRegs l).upd (fun d => d.auUpd f)
/-- A task waits at input i. -/
def task (i : Nat) (s : State) : State := s.upd (fun d => d.setTasks i [⟨0, true, 127⟩])
/-- A Tandem job of two vectors in the shared SRAM. -/
def job (n : Nat) (e : Bool) : TdJob := { inAt := 0x1000000000, outAt := 0x1000000400, n := n, ended := e }
theorem wit_AudioRequestsWaitForTheirBlock :
    (task 0x2A7 State.reset).dev.tasksAt (0x2A0 + 7) = [⟨0, true, 127⟩] ∧ (task 0x2A9 State.reset).dev.tasksAt 0x2A9 = [⟨0, true, 127⟩] ∧
    State.reset.dev.bit Reg.XS_STATE 16 = false ∧
    (memOk (audio [] (fun u => { u with load := some (15, 0x1000000000, 1024) })).dev 0x1000000000 4096 = true) ∧
    (State.reset.dev.au.job = none ∧ bitOf 0x80000001 31 = true ∧ bitOf 0x80000001 0 = true ∧
      (task 0x2A8 State.reset).dev.tasksAt 0x2A8 = [⟨0, true, 127⟩]) ∧
    ((audio [] (fun u => { u with job := some (job 1 true) })).dev.au.job = some (job 1 true) ∧ (job 1 true).ended = true) ∧
    (((audio [] (fun u => { u with voices := [(511, { stage := 5 })] })).dev.voice 511).stage ≠ 0 ∧
      (audio [] (fun u => { u with voices := [(511, { stage := 5 })] })).dev.au.missed.contains 511 = false) := by decide +kernel
theorem wit_clean_audio (l : List (Nat × Word)) (f : AudioSt → AudioSt) (a n : Nat) : CleanWords (audio l f) a n := clean_of _ _ _ rfl rfl

theorem wit_AudioRequestsWaitForTheirBlock_others :
    State.reset.dev.tasksAt (0x2A0 + 7) = [] ∧ State.reset.dev.tasksAt 0x2A9 = [] ∧ State.reset.dev.tasksAt 0x2A8 = [] ∧
    (onRegs [(Reg.XS_STATE, 0x10000)]).dev.bit Reg.XS_STATE 16 = true ∧ bitOf 1 31 = false ∧ State.reset.dev.au.load = none ∧
    memOk (audio [] (fun u => { u with load := some (15, 0xC00000000, 1) })).dev 0xC00000000 4 = false ∧
    (job 1 false).ended = false ∧ (State.reset.dev.voice 511).stage = 0 := by decide +kernel

/-- Port 7 is an enabled slave, whose clock and frame sync reach pins of bank C. -/
def slave (f : AudioSt → AudioSt) : State := audio [(Reg.TDM_CFG 7, 1), (Reg.PIN_CFG 92, 5), (Reg.PIN_CFG 93, 5), (Reg.BANK_STATUS 2, 1)] f
/-- Row 15 is lent, and a job waits. -/
def lent (n : Nat) : State := audio [(Reg.AU_STATUS, 0x20000), (Reg.GAIN 127 0, 0x7FFF), (Reg.TD_SHIFT, 1)]
  (fun u => { u with tdq := [none], job := some (job n false) })
/-- Crosspoint slice 15 has failed. -/
def failed : State := audio [] (fun u => { u with down := [32 * 4 + 15], faults := [(32 * 4 + 15, 2, 0)] })
/-- Yoke 3 waits for RUN of coprocessor 1. -/
def runs : State := ((lent 2).upd (fun d => d.auUpd (fun u => { u with tdq := [some 3] }))).upd
  (fun d => d.updYk 3 (fun k => { k with tdWait := some 9 }))
theorem wit_AudioSamplesPortsAndSlicesPerform :
    (nextSample (audio [] (fun u => { u with last := some 4 })).dev = 5 ∧ (audio [] (fun u => { u with last := some 4 })).dev.au.runs = false ∧
      (audio [] (fun u => { u with last := some 4 })).dev.now ≤ sampleAt (auFast State.reset.dev) 5 ∧ sampleAt (auFast State.reset.dev) 5 < 2 ^ 64 ∧
      (audio [] (fun u => { u with last := some 4, runs := true })).dev.au.runs = true ∧
      (∀ r < 64, (audio [] (fun u => { u with last := some 4, runs := true })).dev.bit (Reg.STREAM_CFG (16 + r)) 31 = false)) ∧
    (nextSample (audio [] (fun u => { u with last := some 31 })).dev % 32 = 0 ∧ ((onRegs [(Reg.IMAGE_STATUS, 1)]).dev.bit Reg.IMAGE_STATUS 0 &&
      (onRegs [(Reg.IMAGE_STATUS, 1)]).dev.pwr == 0) = true ∧ (State.reset.dev.bit Reg.IMAGE_STATUS 0 && State.reset.dev.pwr == 0) = false) ∧
    ((slave id).dev.fld (Reg.TDM_CFG 7) 1 0 = 1 ∧ (Store.get (fun _ => {}) (slave id).dev.au.tdm 7 : TdmSt).locked = false ∧
      (Store.get (fun _ => {}) (slave (fun u => { u with tdm := [(7, { locked := true, next := 1, offset := -20833 - 10416 })] })).dev.au.tdm 7 : TdmSt).locked = true ∧
      pinFeeds (slave id).dev (tdmPin (slave id).dev 7 0) = true ∧ pinFeeds (slave id).dev (tdmPin (slave id).dev 7 1) = true ∧
      pinFeeds State.reset.dev (tdmPin State.reset.dev 7 0) = false) ∧
    ((audio [] id).dev.au.down.contains (32 * 4 + 15) = false ∧ failed.dev.au.down.contains (32 * 4 + 15) = true ∧ sliceOf failed.dev 4 15 = 15 ∧
      failed.dev.unit 4 15 ≠ 1 ∧ sparesOf failed.dev 4 = [16] ∧ failed.dev.au.faults.find? (fun e => e.1 == 32 * 4 + 15) = some (32 * 4 + 15, 2, 0) ∧
      sparesOf (failed.upd (fun d => retireUnit 4 16 d)).dev 4 = []) ∧
    (memOk (lent 2).dev (0xC00000000 + 256 * 0) 256 = false ∧ (runs.dev.yk 3).tdWait = some 9 ∧ runs.dev.au.tdq = some 3 :: [] ∧
      (∀ o ∈ lentRows runs.dev, runs.dev.au.down.contains (128 + o / 8) = false) ∧
      (∃ o ∈ lentRows runs.dev, (runs.upd (fun d => d.auUpd (fun u => { u with down := [143] }))).dev.au.down.contains (128 + o / 8) = true)) ∧
    (lentRows (lent 2).dev = [120, 121, 122, 123, 124, 125, 126, 127] ∧ memOk (lent 2).dev (0x1000000000 + 256 * 0) 256 = true ∧
      memOk (lent 2).dev (0x1000000400 + 4 * 8 * 0) 32 = true ∧ (∀ o ∈ lentRows (lent 2).dev, (lent 2).dev.au.down.contains (128 + o / 8) = false)) := by
  decide +kernel

/-! ### Pins and the network port -/

/-- Registers written with bank rails present. -/
def pins (l : List (Nat × Word)) : State := onRegs ([(Reg.BANK_STATUS 0, 1), (Reg.BANK_STATUS 3, 1)] ++ l)
/-- In deep standby, with pin 0 a wake pin on a rising edge. -/
def deepPins : State := pins [(Reg.PWR_STATUS, 5), (Reg.PIN_CFG 0, 0x2000), (Reg.GPIO_RISE_EN 0, 1)]
/-- Pin 127 holds its level after a change of function. -/
def holding (l : List (Nat × Word)) : State := (pins l).upd (fun d => d.gpUpd (fun g => { g with holds := [(127, some { til := 16, level := true })] }))
/-- The lock sequence of bank 3 at a step. -/
def locking (n : Nat) : State := (pins []).upd (fun d => d.gpUpd (fun g => { g with step := [(3, n)], mask := [(3, 0x80000001)] }))
theorem wit_PinsFollowTheirRegisters :
    (railUp (pins []).dev 3 = true ∧ (pins []).dev.inDeep = false ∧ deepPins.dev.inDeep = true ∧ deepPins.dev.bit (Reg.PIN_CFG 0) 13 = true ∧
      pinBit deepPins.dev Reg.GPIO_RISE_EN 0 = true) ∧
    (task (0x400 + 4 * 127 + 2) (pins [])).dev.tasksAt (0x400 + 4 * 127 + 2) = [⟨0, true, 127⟩] ∧
    ((pins []).dev.keeper .jtag = true ∧ pinBit (pins [(Reg.GPIO_LOCKED 3, 0x80000000)]).dev Reg.GPIO_LOCKED 127 = true ∧
      pinCfgRefuses 127 1 = true ∧ pinCfgRefuses 127 3 = false ∧ pinFunc (pins []).dev 127 = 0) ∧
    (Store.get (fun _ => none) (holding []).dev.gpio.holds 127 = some { til := 16, level := true }) ∧
    (lockStep (locking 0).dev 3 = 0 ∧ lockStep (locking 1).dev 3 = 1 ∧ lockStep (locking 2).dev 3 = 2) := by decide +kernel

theorem wit_PinsFollowTheirRegisters_others :
    railUp (pins []).dev 1 = false ∧ (pins []).dev.tasksAt (0x400 + 4 * 127) = [] ∧ (pins []).dev.tasksAt (0x401 + 4 * 127) = [] ∧
    (pins []).dev.tasksAt (0x402 + 4 * 127) = [] ∧ (pins []).dev.keeper .peer = false ∧
    (Store.get (fun _ => none) (pins []).dev.gpio.holds 127 : Option PinHold) = none ∧
    ((deepPins.upd (fun d => d.wr (Reg.PIN_CFG 0) 0)).dev.bit (Reg.PIN_CFG 0) 13 = false) := by
  decide +kernel

/-- The port up, with its registers. -/
def net (l : List (Nat × Word)) : State := onRegs ([(Reg.NET_CTRL, 0x2F7009), (Reg.NET_STATUS, 1)] ++ l)
/-- A frame of 64 bytes with its FCS. -/
def frame64 : List Byte :=
  (List.replicate 12 0xFF ++ [8, 0] ++ List.replicate 46 0) ++ natBytes 4 (fcsOf (List.replicate 12 0xFF ++ [8, 0] ++ List.replicate 46 0))
/-- Ring 0 receives into, and ring 3 sends from, the shared SRAM. -/
def rings : State := stored [(0x1000000000, 0x80000000), (0x100000000C, 0x10), (0x1000000008, 0x100), (0x1000000020, 0x8000000E), (0x100000002C, 0x10), (0x1000000028, 0x200)]
  ((net [(Reg.RX_CFG 0, 0x80040010), (Reg.RX_BUF 0, 0x7FC0), (Reg.TX_CFG 3, 0x80040010), (Reg.TX_HEAD 3, 1)]).upd
    (fun d => d.netUpd (fun n => { n with run := [0, 3] })))
/-- The servo of a ROLE 2 master. -/
def servo (first : Bool) : State := (onRegs [(Reg.HERD_STATUS, 0x80), (Reg.PTP_CTRL, 1), (Reg.PTP_MEAS_HT_LO, 5), (Reg.PTP_STATUS, 1)]).upd
  (fun d => d.ptpUpd (fun p => { p with first := first, lastHt := some 4 }))
theorem wit_NetworkPortPerforms :
    (rings.dev.bit Reg.NET_CTRL 0 = true ∧ rings.dev.bit Reg.NET_STATUS 0 = true ∧ frame64.length = 64 ∧ frame64.length ≤ rings.dev.fld Reg.NET_CTRL 24 11 ∧
      fcsOf (frame64.take 60) = leNat (frame64.drop 60) ∧ fcsOf ((frame64.set 0 0).take 60) ≠ leNat ((frame64.set 0 0).drop 60) ∧
      fb2 frame64 12 ≠ 0x8808 ∧ addrAccepts rings.dev frame64 = true ∧ vlanAccepts rings.dev frame64 = true ∧ steer rings.dev frame64 = (15, 0) ∧
      rings.dev.bit (Reg.RX_CFG 0) 31 = true ∧ memOk rings.dev 0x1000000000 32 = true ∧ (rings.byteAt (0x1000000000 + 3)).getLsbD 7 = true ∧
      leNat (Store.getList (fun _ => 0) rings.mem.bytes (0x1000000000 + 8) 6) = 0x1000000100 ∧ 60 ≤ rings.dev.fld (Reg.RX_BUF 0) 14 0 ∧
      memOk rings.dev 0x1000000100 60 = true) ∧
    (bitOf 0x80000000 31 = true ∧ rings.dev.bit (Reg.TX_CFG 3) 31 = true) ∧
    (rings.dev.net.run = [0] ++ [3] ∧ memOk rings.dev 0x1000000020 32 = true ∧
      w32 (leNat (Store.getList (fun _ => 0) rings.mem.bytes 0x1000000020 4)) = 0x8000000E ∧ bitOf 0x8000000E 28 = false ∧ bitOf 0x8000000E 29 = false ∧
      14 + 4 ≤ rings.dev.fld Reg.NET_CTRL 24 11 ∧ memOk rings.dev 0x1000000200 14 = true) ∧
    ((servo true).dev.keeper .jtag = true ∧ (servo true).dev.fld Reg.HERD_STATUS 7 6 = 2 ∧ (servo false).dev.bit Reg.PTP_CTRL 0 = true ∧
      (servo true).dev.herd.stepHt ≤ 5 ∧ (servo true).dev.rd64 Reg.PTP_MEAS_HT_LO Reg.PTP_MEAS_HT_HI = 5 ∧ (servo true).dev.net.ptp.lastHt = some 4 ∧
      (1000 : Word).toInt.natAbs ≤ 1000 ∧ (servo true).dev.bit Reg.PTP_STATUS 0 = true) ∧
    ((net []).dev.bit Reg.NET_STATUS 0 = true ∧ (net [(Reg.NET_STATUS, 0)]).dev.bit Reg.NET_STATUS 0 = false) := by decide +kernel
theorem wit_clean_rings (a n : Nat) : CleanWords rings a n := clean_of _ _ _ rfl rfl

/-- A pause frame. -/
def pauseFrame : List Byte :=
  (List.replicate 12 0xFF ++ [0x88, 8, 0, 1] ++ List.replicate 44 0) ++ natBytes 4 (fcsOf (List.replicate 12 0xFF ++ [0x88, 8, 0, 1] ++ List.replicate 44 0))
/-- The servo has seen offsets above 1 µs for a second. -/
def servoFar : State := (servo false).upd (fun d => { d.ptpUpd (fun p => { p with big := some 0 }) with clk := 1000000000 })
theorem wit_NetworkPortPerforms_others :
    (State.reset.dev.bit Reg.NET_CTRL 0 = false ∧ [0].length < 64 ∧ pauseFrame.length = 64 ∧
      fcsOf (pauseFrame.take 60) = leNat (pauseFrame.drop 60) ∧ fb2 pauseFrame 12 = 0x8808 ∧ fb2 pauseFrame 14 = 1) ∧
    (addrAccepts (onRegs [(Reg.NET_CTRL, 0x2F7001)]).dev frame64 = false ∧
      (rings.upd (fun d => d.wr (Reg.RX_CFG 0) 0)).dev.bit (Reg.RX_CFG 0) 31 = false) ∧
    (bitOf 0 31 = false ∧ State.reset.dev.net.run = [] ∧
      ((net []).upd (fun d => d.netUpd (fun n => { n with run := [3] }))).dev.net.run = [3] ∧ (net []).dev.bit (Reg.TX_CFG 3) 31 = false) ∧
    (1000 < (1001 : Word).toInt.natAbs ∧ servoFar.dev.net.ptp.first = false ∧ servoFar.dev.net.ptp.big = some 0 ∧
      0 + 1000000000 ≤ servoFar.dev.clk ∧ servoFar.dev.net.ptp.lastHt = some 4 ∧ servoFar.dev.keeper .jtag = true) ∧
    ((servo true).dev.keeper .peer = false ∧ (net []).dev.fld Reg.HERD_STATUS 7 6 ≠ 2 ∧
      (servo true).dev.rd64 Reg.PTP_MEAS_HT_LO Reg.PTP_MEAS_HT_HI = 5 ∧ (servo true).dev.net.ptp.lastHt = some 4 ∧
      (net []).dev.bit Reg.PTP_STATUS 0 = false) ∧
    ((net []).dev.bit Reg.NET_STATUS 0 = (true && (net []).dev.bit Reg.NET_CTRL 0 && !(net []).dev.bit Reg.NET_STATUS 1)) := by decide +kernel
/-! ### The herd -/

/-- The herd with registers and more of its state. -/
def herd (l : List (Nat × Word)) (f : HerdSt → HerdSt) : State := (onRegs l).upd (fun d => d.hdUpd f)
/-- A ROLE 1 master with both rings good. -/
def master (f : HerdSt → HerdSt) : State := herd [(Reg.HERD_STATUS, 0x5034C), (Reg.IMAGE_STATUS, 1), (Reg.HERD_ID, 7)] f
/-- A member at index 6 whose source is ring A, both rings good. -/
def member (f : HerdSt → HerdSt) : State := herd [(Reg.HERD_STATUS, 0x6030C), (Reg.IMAGE_STATUS, 1), (Reg.HERD_ID, 7)] f
/-- A frame of the herd at 1000 ns. -/
def herdFrame : List Byte := hbuild { master := 5, hops := 254, id := 7, ht := 1000, corr := 16, span := 100, epoch := 9 }
theorem le_natBytes4 (c : Nat) (h : c < 2 ^ 32) : leNat (natBytes 4 c) = c := by
  simp only [natBytes, leNat, BitVec.toNat_ofNat]; omega
theorem good_of_body (b : List Byte) (hb : b.length = 119) (h0 : b.getD 0 0 = 1) : hgood false (b ++ natBytes 4 (crc32c b)) = true := by
  have hc : crc32c b < 2 ^ 32 := Nat.xor_lt_two_pow (BitVec.isLt _) (by decide)
  have hl : (natBytes 4 (crc32c b)).length = 4 := rfl
  have ht : (b ++ natBytes 4 (crc32c b)).take 119 = b := List.take_left' hb
  have hd : (b ++ natBytes 4 (crc32c b)).drop 119 = natBytes 4 (crc32c b) := List.drop_left' hb
  have h1 : (b ++ natBytes 4 (crc32c b)).getD 0 0 = 1 := by
    rw [← h0]; cases b with
    | nil => cases hb
    | cons x l => rfl
  simp only [hgood, hbytes, List.length_append, hb, hl, ht, hd, h1, List.take_of_length_le (Nat.le_of_eq hl), le_natBytes4 _ hc]
  simp
theorem herdFrame_good : hgood false herdFrame = true := good_of_body _ (by decide) (by decide)
/-- A frame with other flags or another id, of master m. -/
def frameWith (m flags id : Nat) : List Byte := hbuild { master := m, hops := 254, id := id, ht := 1000, corr := 16, flags := flags }
theorem frameWith_good : hgood false (frameWith 5 4 7) = true ∧ hgood false (frameWith 5 8 7) = true ∧ hgood false (frameWith 5 0 8) = true ∧
    hgood false (frameWith 5 0 7) = true ∧ hgood false (frameWith 6 0 7) = true :=
  ⟨good_of_body _ (by decide) (by decide), good_of_body _ (by decide) (by decide), good_of_body _ (by decide) (by decide),
   good_of_body _ (by decide) (by decide), good_of_body _ (by decide) (by decide)⟩
theorem wit_HerdFramesKeepTime :
    (isMaster (master id).dev = true ∧ herdSet (master id).dev = true ∧ (master id).dev.herd.htSet = false ∧ (master id).dev.net.ptp.pend = none ∧
      hasRing (master id).dev false = true ∧ (master id).dev.now + 2000 < 2 ^ 64) ∧
    (hasRing (member id).dev true = true ∧ (hparse herdFrame).id = ((member id).dev.rd Reg.HERD_ID).toNat ∧
      (hparse herdFrame).ltype = 0 ∧ (hparse herdFrame).hops < 255 ∧ isMaster (member id).dev = false ∧ sourceB (member id).dev = false ∧
      (hparse herdFrame).flags.testBit 3 = false ∧ (hparse herdFrame).flags.testBit 2 = false ∧ (member id).dev.herd.stepDue = false ∧
      hgood true [] = false) ∧
    (ringOk (member id).dev false = true ∧ ringOk (member id).dev (!false) = true ∧
      ringOk (herd [(Reg.HERD_STATUS, 0x60304)] id).dev true = false ∧ sourceB (herd [(Reg.HERD_STATUS, 0x6031C)] id).dev = true) ∧
    ((member (fun h => { h with lockAt := some 3 })).dev.herd.lockAt = some 3 ∧ (member (fun h => { h with lockAt := some 3 })).dev.herd.evaled = false) ∧
    ((master (fun h => { h with a := { ret := some 5 }, b := { ret := some 7 } })).dev.herd.a.ret = some 5 ∧ ringOk (master id).dev true = true) ∧
    ((herd [(Reg.TIME_CTRL, 1)] id).dev.bit Reg.TIME_CTRL 0 = true ∧ (herd [(Reg.TIME_CTRL, 1)] id).dev.herd.pps = false ∧
      (herd [(Reg.TIME_CTRL, 1)] id).dev.now + 2000000000 < 2 ^ 64 ∧ (herd [] (fun h => { h with pps := true })).dev.herd.pps = true) ∧
    ((master id).dev.keeper .jtag = true ∧ herdRole (master id).dev = 1) := by decide +kernel

theorem wit_HerdFramesKeepTime_others :
    ((hparse (frameWith 5 4 7)).flags.testBit 2 = true ∧ (hparse (frameWith 5 4 7)).flags.testBit 3 = false ∧
      (16 * (hparse (frameWith 5 4 7)).ht + (hparse (frameWith 5 4 7)).corr + linkDelay (member id).dev false) / 16 ≠ 5) ∧
    ((hparse (frameWith 5 8 7)).flags.testBit 3 = true ∧ (hparse (frameWith 5 0 8)).id ≠ ((member id).dev.rd Reg.HERD_ID).toNat) ∧
    (devIndex (master id).dev = 5 ∧ (hparse (frameWith 5 0 7)).master = 5 ∧ (hparse (frameWith 6 0 7)).master ≠ 5 ∧
      ((master (fun h => { h with a := { sends := [(1000, 16000)] } })).dev.ring false).sends = ((hparse (frameWith 5 0 7)).ht, 16000) :: []) ∧
    (herdSet (herd [(Reg.IMAGE_STATUS, 1)] id).dev = true ∧ hasRing (herd [(Reg.IMAGE_STATUS, 1)] id).dev false = false ∧
      isMaster (member id).dev = false) ∧
    (herdRole (master (fun h => { h with htSet := true })).dev = 1 ∧ (master (fun h => { h with htSet := true })).dev.herd.htSet = true) ∧
    (ringOk (herd [] id).dev true = false ∧ sourceB (member id).dev = false ∧ (member id).dev.herd.lockAt = none ∧
      (herd [] id).dev.bit Reg.TIME_CTRL 0 = false ∧ (herd [] id).dev.herd.pps = false ∧ ((master id).dev.ring false).ret = none) ∧
    ((master id).dev.keeper .peer = false ∧ herdRole (member id).dev ≠ 1) := by decide +kernel
/-- L and T staged late enough, with slot 255 owned by the device. -/
def staged (l : List (Nat × Word)) (f : HerdSt → HerdSt) : State :=
  herd ([(Reg.CUE_L_HI, 1), (Reg.CEN_T_HI, 1), (Reg.CUE_CFG 255, 0xF0FF06), (Reg.CEN_GROUPS, 0x80), (Reg.HERD_STATUS, 0x6030D)] ++ l) f
/-- Slots 254 and 255 are armed. -/
def armed : State := staged [(Reg.CUE_STATE 255, 0x30001), (Reg.CUE_SL_HI 255, 1), (Reg.CUE_ACT 255, 0x4000001), (Reg.CUE_STATE 254, 1), (Reg.CUE_SL_HI 254, 2)] id
theorem wit_CuesFireAndCensusesLatch :
    ((staged [] id).dev.now + ((staged [] id).dev.rd Reg.CUE_LEAD_MIN).toNat ≤ cueStaged (staged [] id).dev ∧
      (staged [] id).dev.fld (Reg.CUE_CFG 255) 7 0 = devIndex (staged [] id).dev ∧ ringless (staged [] id).dev = false ∧
      (staged [] id).dev.herd.queue.length < 16 ∧ herdJoined (staged [] id).dev = true) ∧
    cueStaged (onRegs [(Reg.CUE_LEAD_MIN, 1)]).dev < (onRegs [(Reg.CUE_LEAD_MIN, 1)]).dev.now + ((onRegs [(Reg.CUE_LEAD_MIN, 1)]).dev.rd Reg.CUE_LEAD_MIN).toNat ∧
    (nextCue armed.dev = some 255 ∧ armed.dev.now ≤ cueL armed.dev 255) ∧
    (bitOf 0x81800000 31 = true ∧ (staged [] id).dev.now + 20000 + ((staged [] id).dev.rd Reg.SPAN).toNat ≤ cenStaged (staged [] id).dev ∧
      fld 0x81800000 23 16 &&& (staged [] id).dev.fld Reg.CEN_GROUPS 7 0 ≠ 0 ∧ (staged [] id).dev.herd.cens = [] ∧ bitOf 0x81800000 24 = true) ∧
    ((staged [] (fun h => { h with cens := [{ t := 5, id := 1, origin := 2 }] })).dev.herd.cens = [{ t := 5, id := 1, origin := 2 }] ∧
      (staged [] id).dev.bit Reg.CEN_STATUS (1 - (staged [] id).dev.fld Reg.CEN_STATUS 2 2) = false ∧ (staged [] id).dev.herd.fill = none ∧
      (staged [] id).dev.now ≤ 5) ∧
    (staged [] (fun h => { h with fill := some (1, [(0, 5), (0x3FFC, 7)]) })).dev.herd.fill = some (1, [(0, 5), (0x3FFC, 7)]) := by decide +kernel

theorem wit_CuesFireAndCensusesLatch_others :
    ((staged [(Reg.CUE_CFG 255, 0)] id).dev.fld (Reg.CUE_CFG 255) 7 0 ≠ devIndex (staged [] id).dev ∧
      16 ≤ (staged [] (fun h => { h with queue := List.replicate 16 ⟨true, [], 0, 0⟩ })).dev.herd.queue.length ∧
      herdJoined (staged [(Reg.HERD_STATUS, 0x6030C)] id).dev = false) ∧
    (nextCue (staged [] id).dev = none ∧ (staged [] id).dev.herd.fill = none ∧ bitOf 0 31 = false ∧
      cenStaged State.reset.dev < State.reset.dev.now + 20000 + (State.reset.dev.rd Reg.SPAN).toNat) ∧
    (4 ≤ [(⟨1, 1, 1, false⟩ : Census), ⟨2, 1, 1, false⟩, ⟨3, 1, 1, false⟩, ⟨4, 1, 1, false⟩].length ∧ bitOf 0x80800000 24 = false ∧
      fld 0x81010000 23 16 &&& (staged [] id).dev.fld Reg.CEN_GROUPS 7 0 = 0 ∧
      (staged [] (fun h => { h with cens := [⟨0x100000000, 1, 9, false⟩] })).dev.herd.cens = [⟨cenStaged (staged [] id).dev, 1, 9, false⟩]) ∧
    ((staged [(Reg.CEN_STATUS, 2)] id).dev.bit Reg.CEN_STATUS (1 - (staged [(Reg.CEN_STATUS, 2)] id).dev.fld Reg.CEN_STATUS 2 2) = true) := by
  decide +kernel
/-! ### Images and re-pens -/

/-- An integer as n bytes, the highest first. -/
def beBytes : Nat → Nat → List Byte
  | 0, _ => []
  | n + 1, v => beBytes n (v / 256) ++ [BitVec.ofNat 8 v]
/-- A record with its header (R40). -/
def imageRec (ty : Nat) (b : List Byte) : List Byte := natBytes 2 ty ++ [0, 0] ++ natBytes 4 b.length ++ b
/-- An image made by hand after R38 to R60, with SERIAL 7 and signed with a key of the tests: 16 idle flocks, and yoke 0 with one word of code. -/
@[irreducible] def image : List Byte :=
  [0x4B, 0x54, 0x48, 0x4E, 1, 0, 64, 0] ++ natBytes 4 0x50C ++ [21, 0, 0, 0, 7, 0, 0, 0, 1, 0, 0, 0] ++ List.replicate 8 0 ++
  [0x6D, 0x6F, 0x64, 0x65, 0x6C] ++ List.replicate 27 0 ++ imageRec 1 [0, 25, 0, 0, 20, 0, 0, 0] ++
  (List.range 16).flatMap (fun f => imageRec 3 (natBytes 1 f ++ [0xFF, 0, 0] ++ List.replicate 8 0 ++ [0, 1] ++ List.replicate 34 0)) ++
  imageRec 6 ([0, 3, 0, 0, 0, 0, 0, 0] ++ natBytes 4 0x438 ++ [4, 0, 0, 0] ++ List.replicate 56 0) ++ imageRec 7 [0, 1, 3, 0, 0, 0, 0, 0] ++
  imageRec 0xD [0, 0, 0, 0] ++ imageRec 0xFFFF ([0, 0, 0, 0, 4] ++
    beBytes 48 0xe11a13c176223af905d2dd9a433a4df6606738ad6e20ec1b5d8e2169dedeb319fc247e9e317cfeb959088ecea8b38861 ++
    beBytes 48 0xb59c61ff3854831fb19d48927a72f167b58c97a2eed93ad266f4f7887ce6bd56240a9e2ac0a764b1845ea9628f7e39ad ++ [0, 0, 0] ++
    beBytes 48 0x4e47a237cc608f03d38bf953c2c25c8cb99de4bbada9288a6b43656520b2559143f1fd344dde210802bbc630315996be ++
    beBytes 48 0xe05f975695fb93db112785f362e35a34a423cde4596cfd2cf435702ff505c517f3e92e23844ea1a99aeea810e3b75676)


theorem checkImage_of_bytes (d : Dev) (img : List Byte) (g : Nat → Nat → List Byte) (h : g 0 64 = img.take 64)
    (hn : g 0 (u32At (img.take 64) 8) = img.take (u32At (img.take 64) 8)) :
    checkImage d none g = checkImage d none (fun o n => (img.drop o).take n) := by
  simp only [checkImage, h, hn, List.drop_zero]
theorem checkImage_staged (d : Dev) (g : Nat → Nat → List Byte) (n : Nat) (h : u32At (g 0 64) 8 = n) :
    checkImage d (some n) g = checkImage d none g := by
  simp [checkImage, headerCheck, h]

/-- The test image in the golden slot, and at the start of the shared SRAM, where the staging registers name it; SLOT_CTRL selects golden. -/
def imaged : State :=
  let s := onRegs [(Reg.STAGE_ADDR_HI, 0x10), (Reg.STAGE_LEN, 0x50C), (Reg.SLOT_CTRL, 2)]
  { s with mem := { s.mem with flash := Store.setList (fun _ => 0xFF) s.mem.flash 0 image, bytes := Store.setList (fun _ => 0) s.mem.bytes 0x1000000000 image } }
/-- The loader checks the golden slot. -/
def loading (s : State) : State := s.upd (fun d => d.ldUpd (fun l => { l with phase := 1, slot := 2 }))
theorem image_facts : image.length = 0x50C ∧ u32At (image.take 64) 8 = 0x50C := by decide +kernel
theorem image_accepted : (checkImage imaged.dev none (fun o n => (image.drop o).take n)).1 = none := by decide +kernel
theorem golden_accepted : (checkImage (loading imaged).dev none (slotBytes (loading imaged) 2)).1 = none := by
  have e : ∀ n, n ≤ 0x50C → slotBytes (loading imaged) 2 0 n = image.take n :=
    fun n hn => Store.getList_setList _ _ _ _ _ (by rw [image_facts.1]; exact hn)
  rw [checkImage_of_bytes _ image _ (e 64 (by decide)) (by rw [image_facts.2]; exact e _ (by decide))]
  exact image_accepted
theorem stage_accepted : (stageCheck imaged).1.1 = 0 := by
  have t : ∀ n w, touchWords 1 n w imaged = (false, imaged) := by
    intro n
    induction n with
    | zero => intro w; rfl
    | succ n ih => intro w; rw [touchWords, show touchWord 1 w imaged = (false, imaged) from rfl]; simp [ih]
  have b : Store.getList (fun _ => 0) imaged.mem.bytes 0x1000000000 0x50C = image := by
    rw [show imaged.mem.bytes = Store.setList (fun _ => 0) State.reset.mem.bytes 0x1000000000 image from rfl,
      Store.getList_setList _ _ _ _ _ (by rw [image_facts.1]), ← image_facts.1, List.take_length]
  have a : stageAddr imaged.dev = 0x1000000000 := by decide +kernel
  have n : (imaged.dev.rd Reg.STAGE_LEN).toNat = 0x50C := by decide +kernel
  have c : (checkImage imaged.dev (some 0x50C) (fun o k => (image.drop o).take k)).1 = none := by
    rw [checkImage_staged _ _ _ (by exact image_facts.2)]; exact image_accepted
  have m : memOk imaged.dev 0x1000000000 0x50C = true := by decide +kernel
  have x : max 0x50C 64 = 0x50C := rfl
  unfold stageCheck
  simp only [a, n, x, m, memRead, t, b, c]
  simp

/-- The golden slot holds nothing. -/
def empty : State := loading State.reset
theorem empty_refused : (checkImage empty.dev none (slotBytes empty 2)).1 = some (1, 0) := by decide +kernel
/-- The test image in the golden slot of a device without an image as the last step of its load. -/
def applying : State := on (fun d => d.ldUpd (fun l => { l with phase := 2, slot := 2 }))
/-- Slot 3 provisioned, unrevoked; slot 0 is not. -/
def keyed : State := onRegs [(Reg.KEY_HASH 3 11, 1), (Reg.MIN_SERIAL, 5), (Reg.IMAGE_SERIAL, 7)]
theorem wit_ImagesLoadAndProgram :
    ((on (fun d => { d with pw := { d.pw with boot := 5 } })).dev.pw.boot = 5 ∧ (on (fun d => { d with pw := { d.pw with boot := 5 } })).dev.ld.phase = 0 ∧
      (on (fun d => { d with pw := { d.pw with boot := 5 } })).dev.bit Reg.IMAGE_STATUS 5 = false ∧
      (on (fun d => { d with pw := { d.pw with boot := 5 } })).dev.pw.kind ≠ 3) ∧
    ((loading imaged).dev.ld.phase = 1 ∧ (loading imaged).dev.ld.slot = 2 ∧ (loading imaged).dev.pw.kind ≠ 3 ∧
      ∃ recs, checkImage (loading imaged).dev none (slotBytes (loading imaged) 2) = (none, recs)) ∧
    (empty.dev.ld.phase = 1 ∧ empty.dev.ld.slot = 2 ∧ empty.dev.pw.kind ≠ 3 ∧
      ∃ recs, checkImage empty.dev none (slotBytes empty 2) = (some (1, 0), recs)) ∧
    (applying.dev.ld.phase = 2 ∧ applying.dev.pw.kind ≠ 3) ∧
    (imaged.dev.keeper (.yoke 0) = true ∨ imaged.dev.keeper .loader = true) ∧
    (imaged.dev.bit Reg.STAGE_STATUS 0 = false ∧ imaged.dev.bit Reg.SLOT_CTRL 4 = false ∧ (stageCheck imaged).1.1 = 0) ∧
    ((∃ c, (on (fun d => d.ldUpd (fun l => { l with stage := some ⟨4, 0, 0, [1]⟩ }))).dev.ld.stage = some c ∧ c.cmd ≠ 1 ∧ c.code = 0) ∧
      ∃ c, (on (fun d => d.ldUpd (fun l => { l with stage := some ⟨1, 5, 0, []⟩ }))).dev.ld.stage = some c ∧ c.code ≠ 0) ∧
    (keyed.dev.keeper .loader = true ∧ bitOf (1 : Word) 0 = true ∧ rateOf keyed.dev (keyOfReg Reg.SLOT_CTRL) < 16 ∧ fld (0x12 : Word) 1 0 ≠ 3 ∧
      rateOf keyed.dev (keyOfReg Reg.MIN_SERIAL) < 16 ∧ keyed.dev.rd Reg.MIN_SERIAL ≤ 7 ∧ (7 : Word) ≤ keyed.dev.rd Reg.IMAGE_SERIAL ∧
      rateOf keyed.dev (keyOfReg Reg.KEY_REVOKE) < 16 ∧ provisioned keyed.dev 3 = true ∧
      bitOf (keyed.dev.rd Reg.KEY_REVOKE ||| (7 &&& 0xF)) 3 = false ∧ provisioned keyed.dev 0 = false) := by
  refine ⟨by decide +kernel, ⟨rfl, rfl, by decide +kernel, _, Prod.ext golden_accepted rfl⟩, ⟨rfl, rfl, by decide +kernel, _, Prod.ext empty_refused rfl⟩,
    by decide +kernel, .inr rfl, ⟨by decide +kernel, by decide +kernel, stage_accepted⟩,
    ⟨⟨_, rfl, by decide⟩, ⟨_, rfl, by decide⟩⟩, by decide +kernel⟩

/-- An image with a twin TILE4 cell in flock 0 of a head in mode 9 is applied, and the rail stands at 0.60 V. -/
def twinWaits : State :=
  on (fun d => (Dev.puts d [(Reg.HEAD_STATUS 0, 0x90), (Reg.RAIL_STATUS, 0), (Reg.FLOCK_STATUS 0, 0x80), (Reg.CELL_STATUS 0 0, 9)]).ldUpd
    (fun l => { l with phase := 4, slot := 2 }))
/-- A deep standby exit checks an empty slot, and one with an image that is accepted. -/
def deepLoad (s : State) : State := s.upd (fun d => { d with pw := { d.pw with kind := 3 } })
/-- MIN_SERIAL and KEY_REVOKE have been written 16 times in this second. -/
def rated : State := keyed.upd (fun d => d.kp (fun k => { k with rate := [(keyOfReg Reg.MIN_SERIAL, 16), (keyOfReg Reg.KEY_REVOKE, 16)] }))
theorem wit_ImagesLoadAndProgram_others :
    ((deepLoad (on (fun d => { d with pw := { d.pw with boot := 5 } }))).dev.pw.kind = 3 ∧ State.reset.dev.pw.boot ≠ 5) ∧
    ((deepLoad empty).dev.pw.kind = 3 ∧ empty.dev.pw.kind ≠ 3 ∧ (headerCheck empty.dev none (slotBytes empty 2 0 64)).isSome = true) ∧
    (twinWaits.dev.ld.phase = 4 ∧ railLevel twinWaits.dev < railFloor twinWaits.dev) ∧
    ((on (fun d => d.ldUpd (fun l => { l with phase := 4 }))).dev.pw.kind ≠ 3 ∧
      railFloor (applyOnce (on (fun d => d.ldUpd (fun l => { l with phase := 4 })))).dev ≤
        railLevel (applyOnce (on (fun d => d.ldUpd (fun l => { l with phase := 4 })))).dev) ∧
    ((on (fun d => d.setBit Reg.SLOT_CTRL 4)).dev.bit Reg.SLOT_CTRL 4 = true ∧ (stageCheck State.reset).1.1 ≠ 0 ∧
      State.reset.dev.bit Reg.SLOT_CTRL 4 = false ∧ State.reset.dev.ld.stage = none) ∧
    ((∀ k < 2, rateOf keyed.dev (keyOfReg Reg.SLOT_CTRL + k) < 16) ∧ 16 ≤ rateOf rated.dev (keyOfReg Reg.MIN_SERIAL) ∧
      rated.dev.rd Reg.MIN_SERIAL ≠ 7 ∧ 16 ≤ rateOf rated.dev (keyOfReg Reg.KEY_REVOKE) ∧ rated.dev.rd Reg.KEY_REVOKE ≠ 7) ∧
    (fld (3 : Word) 1 0 = 3 ∧ (4 : Word) < keyed.dev.rd Reg.MIN_SERIAL ∧ keyed.dev.rd Reg.IMAGE_SERIAL < 8 ∧
      (∀ k < 4, provisioned keyed.dev k = true → bitOf (keyed.dev.rd Reg.KEY_REVOKE ||| (8 &&& 0xF)) k = true) ∧ provisioned keyed.dev 3 = true) ∧
    State.reset.dev.keeper .peer = false := by
  decide +kernel

/-- Flock 15 idle, with an image loaded and an idle base layout. -/
def loadedIdle : State := (onRegs [(Reg.FLOCK_STATUS 15, 0xF08F)]).upd (fun d => d.ldUpd (fun l => { l with phase := 3 }))
/-- Flock 15 in a re-pen at a step, with FRAME cells at posts 0 and 7 and a probe line whose CRC is right or not. -/
def repenning (n : Nat) (good : Bool := true) : State :=
  (onRegs [(Reg.CELL_STATUS 15 0, 3), (Reg.CELL_STATUS 15 7, 0x773), (Reg.REPEN_STATUS, 1)]).upd
    (fun d => d.updFlock 15 (fun x => { x with
      repen := some { step := n, variant := 0xFFFF, align := false }, seed := 5, len := 1
      crc := if good then probeCrc 5 1 else ~~~ probeCrc 5 1 }))
/-- Post 0 has no cell, and flock 15 serves head 0, which scans. -/
def cellless : State := (repenning 3).upd (fun d => d.setFld (Reg.POST_MAP 15) 3 0 15)
def scanning (n : Nat) : State :=
  (repenning n).upd (fun d => { (d.setFld (Reg.FLOCK_STATUS 15) 3 0 0) with heads := Store.set (fun _ => {}) d.heads 0 { d.head 0 with genOn := true } })
/-- Flock 15 without a spare. -/
def spareless (good : Bool) : State := (repenning 4 good).upd (fun d => d.setFld (Reg.FLOCK_STATUS 15) 7 4 15)
/-- Flock 15 in a takeover. -/
def inTakeover (s : State) : State := s.upd (fun d => d.updFlock 15 (fun x => { x with takeover := some { post := 0, cell := 0, ht := 0, detect := 1 } }))
theorem wit_RepensGoStepByStep :
    (loadedIdle.dev.keeper .loader = true ∧ bitOf (0x800FFFFF : Word) 31 = true ∧ repenFlock 0x800FFFFF loadedIdle.dev = some 15 ∧
      repenBusy loadedIdle.dev = false ∧ (loadedIdle.dev.flock 15).repen = none ∧ (loadedIdle.dev.flock 15).takeover = none ∧
      repenCause 15 0xFFFF loadedIdle.dev = 0 ∧ repenCause 15 0xFFFF State.reset.dev = 2) ∧
    (∃ r, repenAt (repenning 1).dev 1 = some (15, r) ∧ frameCame (repenning 1).dev 15 r = true) ∧
    (∃ r, repenAt (repenning 2).dev 2 = some (15, r)) ∧
    (∃ r, repenAt (repenning 3).dev 3 = some (15, r) ∧ postCell (repenning 3).dev 15 7 ≠ 15 ∧
      ∀ p < 8, kindOf (repenning 3).dev 15 p = 0 ∨ postCell (repenning 3).dev 15 p ≠ 15) ∧
    (∃ r, repenAt (repenning 4).dev 4 = some (15, r) ∧ kindOf (repenning 4).dev 15 7 ≠ 0 ∧ postCell (repenning 4).dev 15 7 ≠ 15 ∧
      underTakeover (repenning 4).dev 15 7 = false ∧ spareCell (repenning 4).dev 15 ≠ 15 ∧ probeGood (repenning 4).dev 15 = true) ∧
    (∃ r, repenAt (repenning 5).dev 5 = some (15, r) ∧ frameCame (repenning 5).dev 15 r = true) ∧
    railFloor (repenning 5).dev ≤ railLevel (repenning 5).dev ∧ ((repenning 5).dev.flock 15).takeover = none := by
  exact ⟨by decide +kernel, ⟨_, rfl, by decide +kernel⟩, ⟨_, rfl⟩, ⟨_, rfl, by decide +kernel⟩, ⟨_, rfl, by decide +kernel⟩,
    ⟨_, rfl, by decide +kernel⟩, by decide +kernel⟩
theorem wit_RepensGoStepByStep_others :
    ((loadedIdle.dev.keeper .peer = false ∧ bitOf (0xFFFFF : Word) 31 = false ∧ repenFlock 0x80000001 loadedIdle.dev = none ∧
      repenFlock 0x800FFFFF (repenning 0).dev = some 15 ∧ repenBusy (repenning 0).dev = true) ∧
      (repenFlock 0x800FFFFF (inTakeover loadedIdle).dev = some 15 ∧ repenBusy (inTakeover loadedIdle).dev = false ∧
        ((inTakeover loadedIdle).dev.flock 15).repen = none ∧ ((inTakeover loadedIdle).dev.flock 15).takeover ≠ none)) ∧
    ((∀ n, n = 1 ∨ n = 2 ∨ n = 3 ∨ n = 4 ∨ n = 5 → repenAt State.reset.dev n = none) ∧
      ((inTakeover (repenning 5)).dev.flock 15).takeover ≠ none ∧ ((repenAt (inTakeover (repenning 5)).dev 5).map (·.1)) = some 15) ∧
    (headScans (scanning 1).dev 15 = true ∧ flockHead (scanning 1).dev 15 = 0 ∧ ((scanning 1).dev.head 0).relocked = false ∧
      pixelsRun (scanning 1).dev 0 + 16 < ((modeOf (scanning 1).dev 0).vTot - 2) * (modeOf (scanning 1).dev 0).hTot ∧
      headScans (scanning 5).dev 15 = true) ∧
    (kindOf cellless.dev 15 0 ≠ 0 ∧ postCell cellless.dev 15 0 = 15 ∧ spareCell cellless.dev 15 ≠ 15 ∧ (cellless.dev.flock 15).takeover = none ∧
      underTakeover cellless.dev 15 0 = false ∧ (cellless.dev.flock 15).ready = []) ∧
    (probeGood (spareless false).dev 15 = false ∧ spareCell (spareless false).dev 15 = 15 ∧ postCell (spareless false).dev 15 7 ≠ 15 ∧
      spareCell (spareless true).dev 15 = 15 ∧ underTakeover (spareless true).dev 15 7 = false) := by
  refine ⟨by decide +kernel, ⟨?_, by decide +kernel⟩, by decide +kernel, by decide +kernel, by decide +kernel⟩
  rintro n (rfl | rfl | rfl | rfl | rfl) <;> decide +kernel
/-! ### Power states, resets and boot -/

/-- A power state, with more of the device changed. -/
def powered (st : Word) (f : Dev → Dev) : State := (onRegs [(Reg.PWR_STATUS, st)]).upd f
/-- Every head in STANDBY and every yoke dead. -/
def quiet (d : Dev) : Dev := (List.range 8).foldl (fun d h => (d.wr (Reg.HEAD_STATUS h) 5).wr (Reg.YOKE_STATE h) 0x1800) d
theorem wit_PowerStatesFollowTheirSteps :
    (pwrMay .jtag (powered 2 id).dev = true ∧ (powered 2 id).dev.pwr = 2 ∧ pwrMay .loader State.reset.dev = true ∧ State.reset.dev.pwr = 0 ∧
      pwrBusy State.reset.dev = 0 ∧ pwrBusy (onRegs [(Reg.REPEN_STATUS, 1)]).dev = 1 ∧ pwrBusy (onRegs [(Reg.PCH_STATUS 31, 1)]).dev = 2 ∧
      (powered 4 id).dev.pwr = 4 ∧ pwrMay .loader (powered 4 id).dev = true ∧ pwrMay .loader (powered 2 id).dev = false) ∧
    ((powered 1 quiet).dev.pwr = 1 ∧ headsDown (powered 1 quiet).dev = true ∧ (powered 1 quiet).dev.au.runs = false) ∧
    ((powered 3 (fun d => d.updRail (fun r => { r with pg := false }))).dev.pwr = 3 ∧
      (powered 3 (fun d => d.updRail (fun r => { r with pg := false }))).dev.rail.pg = false) ∧
    ((powered 3 (fun d => (d.updRail (fun r => { r with pg := true, request := none })).wr Reg.RAIL_STATUS 5)).dev.pwr = 3 ∧
      (powered 3 (fun d => (d.updRail (fun r => { r with pg := true, request := none })).wr Reg.RAIL_STATUS 5)).dev.rail.pg = true ∧
      (powered 3 (fun d => (d.updRail (fun r => { r with pg := true, request := none })).wr Reg.RAIL_STATUS 5)).dev.rail.request = none ∧
      max 5 (railFloor (powered 3 (fun d => (d.updRail (fun r => { r with pg := true, request := none })).wr Reg.RAIL_STATUS 5)).dev) ≤
        railLevel (powered 3 (fun d => (d.updRail (fun r => { r with pg := true, request := none })).wr Reg.RAIL_STATUS 5)).dev) ∧
    ((powered 4 (fun d => d.wr (Reg.YOKE_STATE 7) 0x1C00)).dev.pwr = 4 ∧ yokeRun (powered 4 (fun d => d.wr (Reg.YOKE_STATE 7) 0x1C00)).dev 7 = 7 ∧
      ((powered 4 id).dev.yk 7).replay = none ∧ ((powered 4 id).dev.yk 7).wait = none ∧ ((powered 4 id).dev.yk 7).ld = none ∧
      ((powered 4 id).dev.yk 7).tdWait = none) ∧
    ((powered 4 quiet).dev.pwr = 4 ∧ headsDown (powered 4 quiet).dev = true ∧ (powered 4 quiet).dev.au.runs = false ∧
      (∀ y < 8, yokeRun (powered 4 quiet).dev y ∉ [1, 2, 3, 4, 7]) ∧ (powered 4 quiet).dev.repairs = []) ∧
    ((powered 5 (fun d => d.setTasks 0x40 [⟨0, false, 3⟩])).dev.tasksAt 0x40 = [⟨0, false, 3⟩] ∧ (powered 5 id).dev.inDeep = true) ∧
    ((powered 6 (fun d => d.pwUpd (fun p => { p with boot := 7 }))).dev.pwr = 6 ∧ (powered 6 (fun d => d.pwUpd (fun p => { p with boot := 7 }))).dev.pw.boot = 7) ∧
    ((powered 6 (fun d => (d.pwUpd (fun p => { p with kind := 3 })).ldUpd (fun l => { l with phase := 2 }))).dev.ld.phase = 2 ∧
      (powered 6 (fun d => (d.pwUpd (fun p => { p with kind := 3 })).ldUpd (fun l => { l with phase := 2 }))).dev.pw.kind = 3) := by decide +kernel

/-- The exit from deep standby waits for the rail to reach the floor of a twin cell. -/
def exiting (n : Nat) : State := twinWaits.upd (fun d => (d.wr Reg.PWR_STATUS 6).pwUpd (fun p => { p with kind := n }))
/-- A cell of post 7 that nothing keeps from joining. -/
def joinable : Dev := (powered 3 id).dev
theorem wit_PowerStatesFollowTheirSteps_others :
    (pwrMay .peer State.reset.dev = false ∧ (powered 1 quiet).dev.pwr ≠ 3 ∧ (powered 1 quiet).dev.pwr ≠ 4 ∧ State.reset.dev.pwr ≠ 1 ∧
      State.reset.dev.pwr ≠ 6 ∧ State.reset.dev.tasksAt 0x40 = []) ∧
    (postCell joinable 15 7 ≠ 15 ∧ underTakeover joinable 15 7 = false ∧ repenBlank joinable 15 = false ∧
      (joinable.flock 15).testing.contains (postCell joinable 15 7) = false) ∧
    ((on (fun d => d.setTasks 0x40 [⟨0, false, 3⟩])).dev.tasksAt 0x40 = [⟨0, false, 3⟩] ∧
      (on (fun d => d.setTasks 0x40 [⟨0, false, 3⟩])).dev.inDeep = false) ∧
    ((exiting 3).dev.ld.phase = 4 ∧ (exiting 3).dev.pw.kind = 3 ∧ railLevel (exiting 3).dev < railFloor (exiting 3).dev ∧
      State.reset.dev.ld.phase ≠ 2 ∧ State.reset.dev.ld.phase ≠ 4) := by decide +kernel

/-- The boot at a step. -/
def booting (n : Nat) : State := on (fun d => d.pwUpd (fun p => { p with boot := n }))
/-- The boot waits for the array rail at 650 mV. -/
def railed : State := (onRegs [(Reg.RAIL_STATUS, 5)]).upd (fun d => (d.pwUpd (fun p => { p with boot := 3 })).updRail (fun r => { r with request := none }))
theorem wit_ResetsAndBootPerform :
    (porHeld (booting 7).dev = false ∧ (booting 7).dev.repairs = [] ∧ regKept Reg.GLOBAL_GEN = false ∧ regPin Reg.GLOBAL_GEN = false ∧
      regKept Reg.BOOT_WDT = true) ∧
    ((booting 7).dev.keeper .loader = true ∧ fld (0xFFFF5E7A : Word) 15 0 = 0x5E7A ∧ (booting 7).dev.pw.boot ≠ 0) ∧
    ((on (fun d => (d.pwUpd (fun p => { p with wdt := some 5 })).wr Reg.BOOT_WDT 10)).dev.pw.wdt = some 5 ∧
      (on (fun d => (d.pwUpd (fun p => { p with wdt := some 5 })).wr Reg.BOOT_WDT 10)).dev.fld Reg.BOOT_WDT 11 0 ≠ 0) ∧
    ((booting 0).dev.pw.boot = 0 ∧ (booting 0).dev.jtag.hold = false ∧ (booting 1).dev.pw.boot = 1 ∧ railed.dev.pw.boot = 3 ∧
      railed.dev.rail.request = none ∧ railLevel railed.dev = 5 ∧ (booting 4).dev.pw.boot = 4) ∧
    ((on (fun d => d.updHead 7 (fun x => { x with awaitJoin := true }))).dev.head 7).awaitJoin = true ∧
    ((6, 2) ∈ (on (fun d => { d with testing := [(2, 31), (6, 2)] })).dev.testing ∧
      (on (fun d => setUnit 6 2 2 { d with testing := [(2, 31), (6, 2)] })).dev.unit 6 2 = 2 ∧
      muleLanes (on (fun d => setUnit 6 2 2 { d with testing := [(2, 31), (6, 2)] })).dev ≠ [] ∧
      muleLanes (on (fun d => setUnit 6 0 3 (setUnit 6 1 3 (setUnit 6 2 2 d)))).dev = []) := by decide +kernel
theorem wit_ResetsAndBootPerform_others :
    (porHeld (booting 0).dev = true ∧ State.reset.dev.keeper .peer = false ∧ (booting 0).dev.pw.boot = 0 ∧ fld (0x5E7B : Word) 15 0 ≠ 0x5E7A ∧
      State.reset.dev.pw.wdt = none) ∧
    ((booting 1).dev.pw.boot ≠ 0 ∧ (booting 4).dev.pw.boot ≠ 1 ∧ (booting 4).dev.pw.boot ≠ 3 ∧ (booting 3).dev.pw.boot ≠ 4 ∧
      ((booting 0).dev.head 7).awaitJoin = false ∧ (booting 0).dev.testing.contains (2, 31) = false ∧ muleLanes (booting 0).dev ≠ []) := by
  decide +kernel
/-! ### The TAP -/

/-- JTAG with debug unlocked, and with more of the TAP changed. -/
def debugging (f : JtagSt → JtagSt) : State := (onRegs [(Reg.DBG_STATUS, 1)]).upd (fun d => { d with jtag := f d.jtag })
/-- Debug sealed. -/
def sealed : State := onRegs [(Reg.DBG_LOCK, 2)]
theorem wit_DebugPortPerforms :
    (dbgActs sealed.dev 0x10 = false ∧ dbgActs sealed.dev 0x14 = false ∧ dbgActs State.reset.dev 0x13 = false) ∧
    dbgActs State.reset.dev 0x10 = true ∧
    (dbgActs (debugging (fun j => { j with chal := some 5 })).dev 0x11 = true ∧
      (debugging (fun j => { j with chal := some 5 })).dev.jtag.block ≤ (debugging (fun j => { j with chal := some 5 })).dev.clk ∧
      (debugging (fun j => { j with chal := some 5 })).dev.jtag.chal = some 5) ∧
    (debugging (fun j => { j with block := 10 })).dev.clk < (debugging (fun j => { j with block := 10 })).dev.jtag.block ∧
    (dbgActs (debugging id).dev 0x12 = true ∧ peerReading .jtag (debugging id).dev = false ∧
      (((0x123456789 * 2 ^ 48 + 0x1000FFFFFC) * 4 + 1 : BitVec 84)).toNat / 4 % 2 ^ 48 = 0x1000FFFFFC ∧
      (((0x123456789 * 2 ^ 48 + 0x1000FFFFFC) * 4 + 1 : BitVec 84)).toNat % 4 = 1 ∧
      (((0x123456789 * 2 ^ 48 + 0x1000FFFFFC) * 4 + 2 : BitVec 84)).toNat % 4 = 2 ∧ memUp (debugging id).dev 0x1000FFFFFC 4 = true) ∧
    (dbgActs (debugging id).dev 0x13 = true ∧ (1, 0xFFFFFFFF) = ((0xFFFFFFFF01 : BitVec 40).toNat % 2 ^ 8, (0xFFFFFFFF01 : BitVec 40).toNat / 2 ^ 8) ∧
      (1, 0xFFFFFFFF) ∈ ((debugging id).upd (fun d => { d with repairs := [(2, 31), (1, 0xFFFFFFFF)] })).dev.repairs) ∧
    (dbgActs (debugging id).dev 0x14 = true ∧ bcdValid 16 ((0x9999999999999999 * 32 + 31 : BitVec 69).toNat / 2 ^ 5) = true) := by decide +kernel
theorem wit_clean_debugging (f : JtagSt → JtagSt) (a n : Nat) : CleanWords (debugging f) a n := clean_of _ _ _ rfl rfl
theorem wit_DebugPortPerforms_others :
    (dbgActs (debugging id).dev 0x11 = true ∧ (debugging id).dev.jtag.block ≤ (debugging id).dev.clk ∧ (debugging id).dev.jtag.chal = none) ∧
    ((7 : BitVec 84).toNat % 4 = 3 ∧ (0 : BitVec 84).toNat % 4 = 0 ∧ peerReading .jtag ((debugging id).upd (fun d => d.drvUpd (fun x => { x with
      reads := [{ who := .jtag, tag := 0, len := 4, addr := 0, at_ := 0 }] }))).dev = true) ∧
    (((0x1001000000 * 4 + 1 : BitVec 84)).toNat / 4 % 2 ^ 48 = 0x1001000000 ∧ sysRegion 0x1001000000 4 = .none ∧ sysRegion 0xFFFFFFFFFFFC 4 = .none) ∧
    ((5 % 2 ^ 8, 5 / 2 ^ 8) ∉ (debugging id).dev.repairs ∧ bcdValid 16 ((0xA000000000000000 * 32 : BitVec 69).toNat / 2 ^ 5) = false) := by decide +kernel
/-! ### The Ox -/

theorem leNat_wordBytes (w : Word) : w32 (leNat (wordBytes w)) = w := by
  apply BitVec.eq_of_toNat_eq
  have e (i : Nat) : (w.extractLsb' i 8).toNat = w.toNat / 2 ^ i % 2 ^ 8 := by
    simp [BitVec.extractLsb'_toNat, Nat.shiftRight_eq_div_pow]
  have h := w.isLt
  simp only [w32, wordBytes, leNat, e, BitVec.toNat_ofNat]
  omega
/-- Yoke y runs at the last word of its tightly coupled RAM, which is w; its model and the device are otherwise as given. -/
def atWord (y : Nat) (w : Word) (f : OxCtx → OxCtx) (g : Dev → Dev) : State :=
  tcmPut y 0x1FFFC (wordBytes w)
    (State.reset.upd (fun d => (g (d.wr (Reg.YOKE_STATE y) 0x400)).updYk y (fun k => { k with ctx := { f k.ctx with pc := 0x1FFFC } })))
theorem oxAt_of (y : Nat) (w : Word) (f : OxCtx → OxCtx) (g : Dev → Dev) (h : oxReady (atWord y w f g).dev y = true) :
    OxAt (atWord y w f g) y w := by
  refine ⟨h, ?_⟩
  have p : (ctxOf (atWord y w f g) y).pc = 0x1FFFC := by
    show (((g (State.reset.dev.wr (Reg.YOKE_STATE y) 0x400)).updYk y _).yk y).ctx.pc = _
    rw [Dev.yk_updYk, if_pos rfl]
  have e : tcmWord (atWord y w f g) y 0x1FFFC = w := by
    unfold tcmWord tcmRead
    rw [show (atWord y w f g).mem.tcm = Store.setList (fun _ => 0) State.reset.mem.tcm (tcmKey y 0x1FFFC) (wordBytes w) from rfl,
      Store.getList_setList _ _ _ _ _ (Nat.le_of_eq (rfl : 4 = (wordBytes w).length))]
    exact leNat_wordBytes w
  unfold oxFetch
  simp only [p]
  simpa using e
theorem ready_of (y : Nat) (w : Word) (f : OxCtx → OxCtx) (g : Dev → Dev) (h : oxReady (atWord y 0 f g).dev y = true) :
    oxReady (atWord y w f g).dev y = true := h
/-- Register g3 and g31 hold values, and every flag is set. -/
def loaded (a b : Word) (c : OxCtx) : OxCtx := { ((c.setR 3 a).setR 31 b) with flags := 0x3F }
theorem wit_ArithmeticFollowsItsRows :
    (∀ w, OxAt (atWord 7 w (loaded 0x80000000 0xFFFFFFFF) id) (7 : Fin 8).val w) ∧ (∀ w, OxAt (atWord 0 w (loaded 0 0) id) (0 : Fin 8).val w) ∧
    (31 : BitVec 16).toNat < 32 ∧ ¬ (0xFFFF : BitVec 16).toNat < 32 ∧ ¬ (31 : Fin 32) = 0 :=
  ⟨fun w => oxAt_of 7 w _ _ (ready_of 7 w _ id (by decide +kernel)), fun w => oxAt_of 0 w _ _ (ready_of 0 w _ id (by decide +kernel)), by decide⟩
theorem wit_DecimalFollowsItsRows :
    (∀ w, OxAt (atWord 7 w (loaded 0xABCDEF99 0x0000000F) id) (7 : Fin 8).val w) ∧
    bcdValid 8 0x99999999 = true ∧ (0x99999999 : Nat) < 2 ^ 32 ∧ bcdValid 8 (0x99999999 : Word).toNat = true ∧
    true = decide (2 ^ 32 ≤ (0x99999999 : Word).toNat + (0x99999999 : Word).toNat) :=
  ⟨fun w => oxAt_of 7 w _ _ (ready_of 7 w _ id (by decide +kernel)), by decide +kernel⟩

/-- A yoke that traps on the limits of its return stack, at depth n. -/
def stacked (n : Nat) (c : OxCtx) : OxCtx := { loaded 8 4 c with depth := n, trapMode := true }
/-- Yoke 7 with source 384 offered to it, in a state. -/
def called (st : Word) (f : OxCtx → OxCtx) : State :=
  (onRegs [(Reg.YOKE_STATE 7, st), (Reg.SRC_CFG 384, 0x905)]).upd
    (fun d => (d.setSrc 384 { st := .offered 7 }).updYk 7 (fun k => { k with ctx := f k.ctx }))
theorem wit_FlowAndSystemPerform :
    (∀ w, OxAt (atWord 7 w (stacked 16) id) (7 : Fin 8).val w) ∧ (∀ w, OxAt (atWord 7 w (stacked 0) id) (7 : Fin 8).val w) ∧
    ¬ (31 : Fin 32) = 0 ∧ (oxReady (on (fun d => (d.wr (Reg.YOKE_STATE 7) 0x400).updYk 7 (fun k => { k with ctx := { k.ctx with pc := 0x20000 } }))).dev 7 = true ∧
      0x20000 ≤ (ctxOf (on (fun d => (d.wr (Reg.YOKE_STATE 7) 0x400).updYk 7 (fun k => { k with ctx := { k.ctx with pc := 0x20000 } }))) 7).pc.toNat) ∧
    (fld (0x0C00FFFF : Word) 31 26 = 3 ∧ fld (0x0C00FFFF : Word) 25 16 = 0 ∧ fld (0x0E00FFFF : Word) 25 16 ≠ 0 ∧
      fld (0x00000018 : Word) 31 26 < 0x38 ∧ oxDefined 0x00000018 = false) ∧
    (((called 0x400 (fun c => { c with ie := true })).dev.yk 7).replay = none ∧ reqLine (called 0x400 (fun c => { c with ie := true })).dev 7 = true ∧
      yokeRuns (called 0x400 (fun c => { c with ie := true })).dev 7 = true ∧ ((called 0x400 (fun c => { c with ie := true })).dev.yk 7).wait = none ∧
      ((called 0x400 (fun c => { c with ie := true })).dev.yk 7).ld = none ∧ ((called 0x400 (fun c => { c with ie := true })).dev.yk 7).tdWait = none ∧
      (ctxOf (called 0x400 (fun c => { c with ie := true })) 7).ie = true ∧ (ctxOf (called 0x400 (fun c => { c with ie := true })) 7).exl = false) ∧
    (yokeRun (called 0x1C00 id).dev 7 = 7 ∧ reqLine (called 0x1C00 id).dev 7 = true ∧ ((called 0x1C00 id).dev.yk 7).replay = none) :=
  ⟨fun w => oxAt_of 7 w _ _ (ready_of 7 w _ id (by decide +kernel)), fun w => oxAt_of 7 w _ _ (ready_of 7 w _ id (by decide +kernel)),
    by decide, by decide +kernel, by decide +kernel, by decide +kernel, by decide +kernel⟩

/-- Yoke 7 replays, with an input log. -/
def replaying (l : List YIn) (e : List Echo) (d : Dev) : Dev :=
  d.updYk 7 (fun k => { k with replay := some (0, 0), input := l, echo := e })
theorem wit_FlowAndSystem_others :
    (oxReady State.reset.dev 7 = false ∧ oxReady (atWord 7 0 id id).dev 7 = true ∧ oxFetch (atWord 7 5 id id) 7 = some 5 ∧ (5 : Word) ≠ encR 0 1 2 3 0) ∧
    (yokeRuns State.reset.dev 7 = false ∧ yokeRun State.reset.dev 7 ≠ 7 ∧ (State.reset.dev.yk 7).replay = none ∧ reqLine State.reset.dev 7 = false) ∧
    (let s := atWord 7 0 id (replaying [.irq 0] []);
      yokeRuns s.dev 7 = true ∧ (s.dev.yk 7).wait = none ∧ (s.dev.yk 7).ld = none ∧ (s.dev.yk 7).tdWait = none ∧ (s.dev.yk 7).replay = some (0, 0) ∧
      (s.dev.yk 7).input[0]? = some (.irq 0) ∧ 0 ≤ (s.dev.yk 7).retired) := by
  refine ⟨⟨by decide +kernel, by decide +kernel, ?_, by decide +kernel⟩, by decide +kernel, by decide +kernel⟩
  exact (oxAt_of 7 5 id id (by decide +kernel)).2

/-- A Keeper yoke with a window on the shared SRAM, and registers of the coprocessors set. -/
def keeperDev (l : List (Nat × Word)) (d : Dev) : Dev := Dev.puts d ([(Reg.Y_STATUS 7, 1), (Reg.Y_WIN 7 0, 0x80000100)] ++ l)
/-- Yoke 7 at the word w, with g3 and g31 loaded. -/
def cop (a b w : Word) (l : List (Nat × Word)) : State := atWord 7 w (loaded a b) (keeperDev l)
/-- Unit 7 checks what software feeds it, within a block. -/
def feeding : List (Nat × Word) := [(Reg.CK_CTRL 7, 0x30001)]
theorem copAt_of (c : Nat) (f : OxCtx → OxCtx) (g : Dev → Dev)
    (h : oxReady (atWord 7 0 f g).dev 7 = true ∧ ((atWord 7 0 f g).dev.yk 7).replay = none ∧ copAllowed (atWord 7 0 f g).dev 7 c = true ∧
      copAbsent (atWord 7 0 f g).dev c = false) (w : Word) : CopAt (atWord 7 w f g) 7 c w :=
  ⟨oxAt_of 7 w _ _ (ready_of 7 w _ _ h.1), h.2⟩
theorem clean_cop (a b w : Word) (l : List (Nat × Word)) (x n : Nat) : CleanWords (cop a b w l) x n := clean_of _ _ _ rfl rfl
theorem wit_MemoryAndCoprocessorsPerform :
    (∀ w, OxAt (cop 0x1FFFC 0 w []) (7 : Fin 8).val w) ∧ (∀ w, OxAt (cop 0x1FFFFFFC 0 w []) (7 : Fin 8).val w) ∧
    (((cop 0x1FFFFFFC 0 0 []).dev.yk 7).replay = none ∧ yokeSys (cop 0x1FFFFFFC 0 0 []).dev 7 0x20000000 = none ∧
      yokeSys (cop 0x1FFFFFFC 0 0 []).dev 7 0x10FFFFFC = some 0x1000FFFFFC ∧ memUp (cop 0x1FFFFFFC 0 0 []).dev 0x1000FFFFFC 4 = true ∧
      secureRefuses (cop 0x1FFFFFFC 0 0 []).dev ((cop 0x1FFFFFFC 0 0 []).dev.keeper (.yoke 7)) 0x1000FFFFFC 4 = false ∧
      (0x1FFFD : Word).toNat % 4 ≠ 0 ∧ (0x1FFFC : Word).toNat < 0x20000) ∧
    (copAllowed (atWord 7 0 id id).dev 7 7 = false ∧ copAbsent (cop 0 0 0 []).dev 7 = true) ∧
    (∀ w, CopAt (cop 0 0 w [(Reg.DRV_STATUS, 0x102)]) 7 7 w) ∧ (∀ w, CopAt (cop 0 0 w []) 7 3 w) ∧ (∀ w, CopAt (cop 0xC0 0x10 w []) 7 0 w) ∧
    ((0xC0 : Word).toNat + (0x10 : Word).toNat % 2 ^ 16 * 2 ^ 32 = 0x10000000C0 ∧ 0x10000000C0 % 64 = 0 ∧ memUp (cop 0xC0 0x10 0 []).dev 0x10000000C0 64 = true ∧
      (cop 0xC0 0x10 0 []).dev.mule.queue.length < 64) ∧
    (∀ w, CopAt (cop 124 0 w [(Reg.AU_STATUS, 0x20000)]) 7 1 w) ∧ isLent (cop 124 0 0 [(Reg.AU_STATUS, 0x20000)]).dev 124 = true ∧
      isLent (cop 3 0 0 [(Reg.AU_STATUS, 0x20000)]).dev 3 = false ∧
    (∀ w, CopAt (cop 0 4 w feeding) 7 2 w) ∧
    ((cop 0 4 0 feeding).dev.bit (Reg.CK_CTRL 7) 0 = true ∧ (cop 0 4 0 feeding).dev.fld (Reg.CK_CTRL 7) 3 1 = 0 ∧ aliveWidth (cop 0 4 0 feeding).dev 7 = 0 ∧
      ckTail (cop 0 4 0 feeding).dev 7 = 0 ∧ ((cop 0 4 0 feeding).dev.ck 7).tail = [] ∧ (cop 0 4 0 feeding).dev.fld (Reg.CK_CTRL 7) 17 16 = 3 ∧
      (cop 0 4 0 feeding).dev.fld (Reg.CK_CTRL 7) 19 18 = 0) ∧
    ((∀ w, CopAt (atWord 7 w (loaded 0 4) (fun d => (keeperDev feeding d).updCk 7 (fun c => { c with n := 1 }))) 7 2 w) ∧
      ((atWord 7 0 (loaded 0 4) (fun d => (keeperDev feeding d).updCk 7 (fun c => { c with n := 1 }))).dev.ck 7).n ≠ 0 ∧
      ((atWord 7 0 (loaded 0 4) (fun d => (keeperDev feeding d).updCk 7 (fun c => { c with n := 1 }))).dev.ck 7).lost = false) ∧
    ((cop 0 4 0 []).dev.now + ((cop 0 4 0 []).dev.rd Reg.CUE_LEAD_MIN).toNat ≤ 4 * 2 ^ 32 ∧
      (cop 0 4 0 []).dev.fld (Reg.CUE_CFG 255) 7 0 = devIndex (cop 0 4 0 []).dev ∧ bitOf (0x020000FF : Word) 24 = false ∧
      (cop 0 4 0 []).dev.now + 20000 + ((cop 0 4 0 []).dev.rd Reg.SPAN).toNat ≤ 4 * 2 ^ 32 ∧
      fld (0x00FF0000 : Word) 23 16 &&& (cop 0 4 0 [(Reg.CEN_GROUPS, 0x80)]).dev.fld Reg.CEN_GROUPS 7 0 ≠ 0 ∧
      (cop 0 4 0 []).dev.herd.cens = []) := by
  refine ⟨fun w => oxAt_of 7 w _ _ (ready_of 7 w _ _ (by decide +kernel)), fun w => oxAt_of 7 w _ _ (ready_of 7 w _ _ (by decide +kernel)),
    by decide +kernel, by decide +kernel, copAt_of 7 _ _ (by decide +kernel), copAt_of 3 _ _ (by decide +kernel),
    copAt_of 0 _ _ (by decide +kernel), by decide +kernel, copAt_of 1 _ _ (by decide +kernel), by decide +kernel, by decide +kernel,
    copAt_of 2 _ _ (by decide +kernel), by decide +kernel, ⟨copAt_of 2 _ _ (by decide +kernel), by decide +kernel⟩, by decide +kernel⟩
/-- Yoke 7 replays a request to coprocessor 7 with g3 and g31 at 1 and 2, whose answer its log holds, while the link is down. -/
def replayed (w : Word) : State :=
  atWord 7 w (loaded 1 2) (replaying [.cop 8 9 true] [{ kind := 2, addr := 7 * 2048, size := 0, data := [1, 2, 0] }])
theorem wit_MemoryAndCoprocessors_others :
    haltBars (cop 0x1FFFFFFC 0 0 []).dev (.yoke 7) = false ∧ (∀ w, OxAt (cop 0xFFFFFFFC 0 w []) (7 : Fin 8).val w) ∧
    (yokeSys (cop 0 0 0 []).dev 7 0xFFFFFFFC = some 0x200FFFFFFC ∧ sysRegion 0x200FFFFFFC 4 ≠ .memory) ∧
    ((∀ w, OxAt (replayed w) (7 : Fin 8).val w) ∧ (∃ x, nextEcho ((replayed 0).dev.yk 7) = some x ∧ x.same (copEcho (replayed 0) 7 7 0 3 31 false) = true) ∧
      nextInput ((replayed 0).dev.yk 7) = some (.cop 8 9 true) ∧ copAbsent (replayed 0).dev 7 = true ∧ copAllowed (replayed 0).dev 7 7 = false) ∧
    ((cop 0 4 0 []).dev.bit (Reg.CK_CTRL 7) 0 = false ∧ (cop 0 4 0 [(Reg.CK_CTRL 7, 2)]).dev.fld (Reg.CK_CTRL 7) 3 1 ≠ 0 ∧ (5 : Word).toNat % 8 = 5 ∧
      ((cop 0 4 0 feeding).dev.ck 7).n = 0) ∧
    (2 < (cop 0 0 0 []).dev.now + ((cop 0 0 0 []).dev.rd Reg.CUE_LEAD_MIN).toNat) := by
  exact ⟨by decide +kernel, fun w => oxAt_of 7 w _ _ (ready_of 7 w _ _ (by decide +kernel)), by decide +kernel,
    ⟨fun w => oxAt_of 7 w _ _ (ready_of 7 w _ _ (by decide +kernel)), ⟨_, rfl, by decide +kernel⟩, by decide +kernel⟩, by decide +kernel, by decide +kernel⟩

/-! ### The whole device -/

theorem wit_StepRunsTheFrontCommand : ∃ s : State, s.pending = [.thermtrip, .loadDone] := ⟨{ State.reset with pending := [.thermtrip, .loadDone] }, rfl⟩
theorem wit_ResetLeavesTheResetColumn : (Reg.YOKE_STATE 7, 494) ∈ [(Reg.YOKE_STATE 7, 494)] := by simp
theorem wit_EveryStepKeepsMemoryCanonical : State.Ok { tcmPut 7 0x1FFFC [1, 2, 0] State.reset with pending := [.thermtrip] } := by
  unfold State.Ok; decide +kernel

/-! ### Words and tables of the spec -/

/-- The encodings of the coin-in example (chapter 11), the DAPD words apart, and of HTRD (R317). -/
theorem test_worked_encodings :
    encR 1 4 4 6 0x00 = 0x04843000 ∧ encR 1 5 5 7 0x20 = 0x04A53820 ∧ encR 0 8 4 6 0x00 = 0x01043000 ∧ encR 0 9 4 6 0x06 = 0x01243006 ∧
    encR 1 10 8 9 0x03 = 0x05484803 ∧ encC 3 2 0 0 true 0 = 0xEC400400 := by decide +kernel

/-- Yoke 0 with the registers of the coin-in example, at the word w. -/
def coins (w : Word) (dc : Bool) (l : List (Nat × Word)) : State :=
  atWord 0 w (fun c => (l.foldl (fun c p => c.setR p.1 p.2) c).setFlag 4 dc) id
/-- What register i and the flags Z, N, C, DC and DV of yoke 0 hold after a command. -/
def after (i : Instr) (n : Nat) (s : State) : Option (Word × List Bool) :=
  match exec i s with
  | .next t => some ((ctxOf t 0).r n, [0, 1, 2, 4, 5].map (ctxOf t 0).flag)
  | _ => none
theorem test_dadd_coins : after (.dadd 0 4 4 6) 4 (coins 0x04843000 false [(4, 0x99500740), (6, 0x00709385)]) =
    some (0x00210125, [false, false, false, true, false]) := by decide +kernel
theorem test_daddc_coins : after (.daddc 0 5 5 7) 5 (coins 0x04A53820 true [(5, 0x12), (7, 3)]) =
    some (0x16, [false, false, false, false, false]) := by decide +kernel
theorem test_add_coins : after (.add 0 8 4 6) 8 (coins 0x01043000 false [(4, 0x99500740), (6, 0x00709385)]) =
    some (0x99C09AC5, [false, true, false, false, false]) := by decide +kernel
theorem test_xor_coins : after (.xor 0 9 4 6) 9 (coins 0x01243006 false [(4, 0x99500740), (6, 0x00709385)]) =
    some (0x992094C5, [false, true, false, false, false]) := by decide +kernel
theorem test_dadj_coins : after (.dadj 0 10 8 9) 10 (coins 0x05484803 false [(8, 0x99C09AC5), (9, 0x992094C5)]) =
    some (0x00210125, [false, false, false, true, false]) := by decide +kernel
/-- A digit above 9 is used at its value and sets DV (R311). -/
theorem test_dadd_invalid_digit : after (.dadd 0 4 4 6) 4 (coins 0x04843000 false [(4, 0xA), (6, 1)]) =
    some (0x11, [false, false, false, false, true]) := by decide +kernel

/-- The check values of R410, over the bytes "123456789". -/
theorem test_crc_check_values : ∀ e ∈ [(1, 0xCBF43926), (2, 0xE3069283), (3, 0x29B1)],
    (let p := crcPar (onRegs [(Reg.CK_POLY 3, w32 (0xE000 + e.1))]).dev 3
     crcResult p (([0x31, 0x32, 0x33, 0x34, 0x35, 0x36, 0x37, 0x38, 0x39] : List Byte).foldl (crcByte p) p.init)) = e.2 := by decide +kernel

/-! ### Well-formed commands -/

/-- A frame whose fields fit. -/
def okFrame : DrvFrame := { ty := 0x10, stream := 63, seq := 65535, tag := 0, eom := false, cr := some (63, 65535), ack := some 65535, payload := List.replicate 4096 0 }
theorem test_wf_accepts :
    (Req.yoke 7).wf = true ∧ (Req.channel 31).wf = true ∧ (Req.script 7).wf = true ∧ okFrame.wf = true ∧ (Instr.regWrite .jtag 0xFFFFFFF 8 0).wf = true ∧
    (Instr.droveDataRx okFrame).wf = true ∧ (Instr.repenProbeDone [0, 7] true).wf = true ∧ Instr.thermtrip.wf = true := by decide +kernel
theorem test_wf_refuses_requesters_and_frames :
    (Req.yoke 8).wf = false ∧ (Req.channel 32).wf = false ∧ (Req.script 8).wf = false ∧ { okFrame with ty := 256 }.wf = false ∧
    { okFrame with stream := 64 }.wf = false ∧ { okFrame with seq := 65536 }.wf = false ∧ { okFrame with cr := some (64, 0) }.wf = false ∧
    { okFrame with cr := some (0, 65536) }.wf = false ∧ { okFrame with ack := some 65536 }.wf = false ∧
    { okFrame with payload := List.replicate 4097 0 }.wf = false := by decide +kernel
theorem test_wf_refuses_commands :
    (Instr.regWrite (.yoke 8) 0 4 0).wf = false ∧ (Instr.regWrite .jtag 0x10000000 4 0).wf = false ∧ (Instr.regWrite .jtag 0 3 0).wf = false ∧
    (Instr.swReset (.yoke 8) 0).wf = false ∧ (Instr.phStart 0 (some (.channel 32))).wf = false ∧
    (Instr.keepWrite (.yoke 8) 0 4 0 false false).wf = false ∧ (Instr.keepWrite .jtag 0x10000 4 0 false false).wf = false ∧
    (Instr.keepWrite .jtag 0 0 0 false false).wf = false ∧ (Instr.keepRead 0x10000 4 .good .good).wf = false ∧ (Instr.keepRead 0 5 .good .good).wf = false ∧
    (Instr.pageRemap 0xC00000).wf = false ∧ (Instr.sramRowSpare 16384 true).wf = false ∧ (Instr.armedRestart 0 (some 4)).wf = false ∧
    (Instr.compPixelLate 0 7680).wf = false ∧ (Instr.droveIdleRx { okFrame with stream := 64 }).wf = false ∧
    (Instr.peerReadTimeout 65536).wf = false ∧ (Instr.repenProbeDone [8] true).wf = false ∧ (Instr.repenCellsLoaded [8]).wf = false ∧ (Instr.unitSelftestDone 1 0 true).wf = false ∧
    (Instr.unitSelftestDone 7 0 true).wf = false := by decide +kernel
theorem test_wf_refuses_lengths :
    (Instr.sideTransactionDone 0 0 17 []).wf = false ∧ (Instr.sideTransactionDone 0 0 0 (List.replicate 17 0)).wf = false ∧
    (Instr.droveTrainingDone 0 0 0 65536 0 true []).wf = false ∧ (Instr.droveTrainingDone 0 0 0 0 0 true [{ lane := 9 }]).wf = false ∧
    (Instr.droveLaneSwap true { lane := 9 }).wf = false ∧ (Instr.audioSample (List.replicate 9 []) [] none).wf = false ∧
    (Instr.audioSample [List.replicate 33 0] [] none).wf = false ∧ (Instr.audioSample [] (List.replicate 17 0) none).wf = false ∧
    (Instr.tdmSlaveFrame 0 (List.replicate 33 0) 0).wf = false ∧ (Instr.herdFrameReceive true true (List.replicate 122 0) 0 0 0).wf = false ∧
    (Instr.herdFrameReceive true true (List.replicate 123 0) 0 16 0).wf = false := by decide +kernel

end Sys2Proof.Tests
end

/-! PROOFS. The obligations of chapter 0: what the reset state holds (O59), and the tasks and writes of the event fabric (O7). -/
namespace Sys2Proof.Machine

/-! ### A command that changes the die -/

/-- A command gives what holds of the state with the die that its operation answers. -/
theorem gives_of_upd {i : Instr} {s : State} {f : Dev → Dev} {d : Dev} {P : State → Prop} (he : exec i s = .next (s.upd f)) (hf : f s.dev = d)
    (hP : P { s with dev := d }) : Gives i s P :=
  ⟨s.upd f, he, by rwa [State.upd, hf]⟩

/-- An answer to the requester changes no register. -/
theorem onlyRegs_answer (s : State) (r : Resp) : OnlyRegs (fun _ => False) s { s with dev := s.dev.answer r } :=
  ⟨rfl, rfl, rfl, fun _ _ => rfl⟩

/-- A write of one register, with an answer to the requester, changes that register alone. -/
theorem onlyRegs_wr_answer (s : State) (o : Nat) (v : Word) (r : Resp) : OnlyRegs (· = o) s { s with dev := (s.dev.wr o v).answer r } :=
  ⟨rfl, rfl, rfl, fun _ h => Dev.rd_wr_ne s.dev v h⟩

/-- The pending executions of the task inputs after those of one are replaced. -/
theorem Dev.tasksAt_setTasks (d : Dev) (t : Nat) (l : List Arrival) (k : Nat) :
    (d.setTasks t l).tasksAt k = if k = t then l else d.tasksAt k :=
  Store.get_set (fun _ => []) d.tasks t l k

/-! ### Bits of masks, and the access types (R12) -/

/-- The mask of the n lowest bits. -/
theorem bitOf_lowMask {n : Nat} (hn : n ≤ 32) (b : Nat) : bitOf (w32 (2 ^ n - 1)) b = decide (b < n) := by
  rw [bitOf, w32, BitVec.getLsbD_ofNat, Nat.testBit_two_pow_sub_one]
  by_cases h : b < n
  · simp [h, show b < 32 by omega]
  · simp [h]

/-- R12, bit by bit: RW, RWL and RWK bits take the value written, W1C bits written 1 clear, W1S bits written 1 set. -/
theorem RegRow.bitOf_merge (r : RegRow) (old v : Word) {b : Nat} (hb : b < 32) :
    bitOf (r.merge old v) b =
      (((if bitOf (r.rw ||| r.rwl ||| r.rwk) b then bitOf v b else bitOf old b) && !(bitOf v b && bitOf r.w1c b)) ||
        (bitOf v b && bitOf r.w1s b)) := by
  simp only [RegRow.merge, bitOf, BitVec.getLsbD_or, BitVec.getLsbD_and, BitVec.getLsbD_not, hb, decide_true, Bool.true_and]
  cases r.rw.getLsbD b || r.rwl.getLsbD b || r.rwk.getLsbD b <;> simp

theorem mergeAt_of_findRow {p : Page} {o i j : Nat} {r : RegRow} (h : findRow p.rows o = some (r, i, j)) (off : Nat) (v : Word) (d : Dev) :
    mergeAt p off o v d = (d.wr off (r.merge (d.rd off) v)).okay := by
  simp [mergeAt, h]

/-! ### Writes of register space (R6, R8, R63) -/

/-- An access in HALT other than by JTAG, one of another width or alignment, and one outside the pages is denied. -/
theorem regWrite_denied {s : State} {q : Req} {off width : Nat} (v : Word)
    (h : width ≠ 4 ∨ off % 4 ≠ 0 ∨ pageOf off = none ∨ haltBars s.dev q = true) : regWrite q off width v s = s.upd Dev.deny := by
  cases hh : haltBars s.dev q
  case true => simp [regWrite, hh]
  case false =>
    have hp : regPage s.dev off width = none := by
      obtain h | h | h | h := h
      · simp [regPage, h]
      · simp [regPage, h]
      · simp [regPage, h]
      · simp [h] at hh
    simp [regWrite, hh, hp]

/-- An aligned word access to a page of VDD_AON reaches it in every power state (R552, R556). -/
theorem regPage_of_aon (d : Dev) {off : Nat} (ha : off % 4 = 0) (h : regAon off = true) : regPage d off 4 = pageOf off := by
  simp [regPage, ha, h]

theorem regWrite_of_regPage {s : State} {q : Req} {off width o : Nat} {p : Page} (v : Word) (hh : haltBars s.dev q = false)
    (hp : regPage s.dev off width = some (p, o)) : regWrite q off width v s = pageWrite q p off o v s := by
  simp [regWrite, hh, hp]

/-! ### The CONJ page (R343, R352) -/

/-- A register of the CONJ page below the channels that has no row of its own is written by its access types. -/
theorem conjWrite_plain {o : Nat} (ho : o < 0x1000) (h10 : o ≠ 0x010) (h14 : o ≠ 0x014) (h20 : o ≠ 0x020) (q : Req) (v : Word) (d : Dev) :
    conjWrite q o v d = mergeAt .conj (0x50000 + o) o v d := by
  have hch : ¬ 0x1000 ≤ o := by omega
  have htk : ¬ 0x4000 ≤ o := by omega
  -- The `match` on the offset falls through to its last case by h10, h14 and h20.
  simp [conjWrite, hch, htk]

theorem pageWrite_conj {o : Nat} (h0 : o ≠ 0) (q : Req) (off : Nat) (v : Word) (s : State) :
    pageWrite q .conj off o v s = s.upd (conjWrite q o v) := by
  unfold pageWrite
  exact if_neg (by simp [h0])

/-- Who may write a channel (R343): a Keeper requester, and of a channel that is not SECURE the yoke that owns it. -/
theorem chMayWrite_iff (q : Req) (n : Nat) (d : Dev) :
    chMayWrite q n d = true ↔
      d.keeper q = true ∨ (d.bit (Reg.CH_CTRL n) 1 = false ∧ ∃ y, q = .yoke y ∧ d.fld (Reg.CH_CTRL n) 10 8 = y) := by
  cases q with
  | yoke y => simp only [chMayWrite, Bool.or_eq_true, Bool.and_eq_true, Bool.not_eq_true', beq_iff_eq, Req.yoke.injEq, exists_eq_left']
  | _ => simp [chMayWrite]

theorem chCfgWrite_performed {q : Req} {n : Nat} {v : Word} {d : Dev} (hq : chMayWrite q n d = true) (he : eventAssigned (fld v 15 0) = true)
    (ht : taskAssigned (fld v 31 16) = true) (hm : d.bit (Reg.CH_CTRL n) 3 = true → taskIsTimer (fld v 31 16) = true) :
    chCfgWrite q n v d = (d.wr (Reg.CH_CFG n) v).okay := by
  cases h3 : d.bit (Reg.CH_CTRL n) 3
  case false => simp [chCfgWrite, hq, he, ht, h3]
  case true => simp [chCfgWrite, hq, he, ht, hm h3]

/-- The word that a write of CH_CTRL stores: [10:0] as written, CLAUSE_ON as it was (R341). -/
def chCtrlWord (old v : Word) : Word := (v &&& 0x7FF) ||| (old &&& 0x800)

theorem bitOf_chCtrlWord (old v : Word) (b : Nat) :
    bitOf (chCtrlWord old v) b = ((bitOf v b && decide (b < 11)) || (bitOf old b && decide (b = 11))) := by
  have hlow : (0x7FF : Word).getLsbD b = decide (b < 11) := bitOf_lowMask (n := 11) (by omega) b
  have htop : (0x800 : Word).getLsbD b = decide (b = 11) := w32_two_pow_bit 11 b (by omega)
  simp only [chCtrlWord, bitOf, BitVec.getLsbD_or, BitVec.getLsbD_and, hlow, htop]

theorem chCtrlWrite_performed {q : Req} {n : Nat} {v : Word} {d : Dev} (hq : chMayWrite q n d = true)
    (hm : bitOf v 3 = true → taskIsTimer (chTask d n) = true) :
    chCtrlWrite q n v d = (d.wr (Reg.CH_CTRL n) (chCtrlWord (d.rd (Reg.CH_CTRL n)) v)).okay := by
  cases h3 : bitOf v 3
  case false => simp [chCtrlWrite, hq, h3, chCtrlWord]
  case true => simp [chCtrlWrite, hq, hm h3, chCtrlWord]

/-- A write by a requester that may not write the channel sets OWNER_VIOLATION and is denied. -/
theorem chWrite_refused {q : Req} {n : Nat} {d : Dev} (hq : chMayWrite q n d = false) (ctrl : Bool) (v : Word) :
    (if ctrl then chCtrlWrite q n v else chCfgWrite q n v) d = (d.setBit Reg.CONJ_FLAGS 3).deny := by
  cases ctrl <;> simp [chCtrlWrite, chCfgWrite, hq]

/-! ### The commands of the fabric -/

theorem exec_irqTask (j : Fin 16) (s : State) : exec (.irqTask j) s = .next (s.upd (irqTask j)) := rfl
theorem exec_chWrite (q : Req) (n : Fin 128) (ctrl : Bool) (v : Word) (s : State) :
    exec (.chWrite q n ctrl v) s = .next (s.upd (if ctrl then chCtrlWrite q n v else chCfgWrite q n v)) := rfl
theorem exec_regWrite (q : Req) (off width : Nat) (v : Word) (s : State) : exec (.regWrite q off width v) s = .next (regWrite q off width v s) := rfl

/-- A pending IRQ j leaves its input and sets bit j of IRQ_LATCH (R351). -/
theorem irqTask_of_pending {j : Nat} {d : Dev} {a : Arrival} {l : List Arrival} (h : d.tasksAt (0x30 + j) = a :: l) :
    irqTask j d = (d.setTasks (0x30 + j) l).setBit Reg.IRQ_LATCH j := by
  simp [irqTask, takeTask, h]

/-- A write of a plain register of the CONJ page: its row merges the word, and no other register changes. -/
theorem gives_conjPlain {s : State} {q : Req} {o i j : Nat} {r : RegRow} (v : Word) (hh : haltBars s.dev q = false)
    (hrow : findRow Page.conj.rows o = some (r, i, j)) (hp : pageOf (0x50000 + o) = some (.conj, o)) (ha : o % 4 = 0)
    (ho : 0 < o ∧ o < 0x1000) (h10 : o ≠ 0x010) (h14 : o ≠ 0x014) (h20 : o ≠ 0x020) :
    Gives (.regWrite q (0x50000 + o) 4 v) s (fun t =>
      t.dev.rd (0x50000 + o) = r.merge (s.dev.rd (0x50000 + o)) v ∧ t.dev.resp = .ok 0 ∧ OnlyRegs (· = 0x50000 + o) s t) := by
  obtain ⟨hpos, hlt⟩ := ho
  have haon : regAon (0x50000 + o) = true := by simp [regAon, hp]
  have hpage : regPage s.dev (0x50000 + o) 4 = some (.conj, o) := (regPage_of_aon s.dev (by omega) haon).trans hp
  have hw : exec (.regWrite q (0x50000 + o) 4 v) s = .next (s.upd (conjWrite q o v)) := by
    rw [exec_regWrite, regWrite_of_regPage v hh hpage, pageWrite_conj (by omega)]
  exact gives_of_upd hw ((conjWrite_plain hlt h10 h14 h20 ..).trans (mergeAt_of_findRow hrow ..))
    ⟨Dev.rd_wr_same .., rfl, onlyRegs_wr_answer ..⟩

/-! ### What each command of O7 gives -/

/-- An IRQ task executes its oldest arrival (R351). -/
theorem gives_irqTask {s : State} {j : Fin 16} {a : Arrival} {l : List Arrival} (h : s.dev.tasksAt (0x30 + j.val) = a :: l) :
    Gives (.irqTask j) s (fun t => t.dev.rd Reg.IRQ_LATCH = s.dev.rd Reg.IRQ_LATCH ||| w32 (2 ^ j.val) ∧ t.dev.tasksAt (0x30 + j.val) = l ∧
      (∀ k, k ≠ 0x30 + j.val → t.dev.tasksAt k = s.dev.tasksAt k) ∧
      Leaves (fun d e => { d with regs := e.regs, tasks := e.tasks }) (· = Reg.IRQ_LATCH) s t) := by
  have htasks (k : Nat) : (s.dev.setTasks (0x30 + j.val) l).tasksAt k = if k = 0x30 + j.val then l else s.dev.tasksAt k :=
    Dev.tasksAt_setTasks ..
  exact gives_of_upd (exec_irqTask j s) (irqTask_of_pending h) ⟨Dev.rd_wr_same .., (htasks _).trans (if_pos rfl),
    fun k hk => (htasks k).trans (if_neg hk), rfl, rfl, rfl, fun o ho => Dev.rd_setBit_ne _ _ ho⟩

/-- A channel write by a requester that R343 allows, whose event and task are assigned, stores the word. -/
theorem gives_chWrite_cfg {s : State} {q : Req} {n : Fin 128} {v : Word} (hq : chMayWrite q n s.dev = true)
    (hv : eventAssigned (fld v 15 0) = true ∧ taskAssigned (fld v 31 16) = true ∧
      (s.dev.bit (Reg.CH_CTRL n) 3 = true → taskIsTimer (fld v 31 16) = true)) :
    Gives (.chWrite q n false v) s (fun t => t.dev.rd (Reg.CH_CFG n) = v ∧ t.dev.resp = .ok 0 ∧ OnlyRegs (· = Reg.CH_CFG n) s t) := by
  obtain ⟨hevent, htask, htimer⟩ := hv
  exact gives_of_upd (exec_chWrite q n false v s) (chCfgWrite_performed hq hevent htask htimer) ⟨Dev.rd_wr_same .., rfl, onlyRegs_wr_answer ..⟩

/-- A write of CH_CTRL that R343 and R352 allow stores [10:0] and leaves CLAUSE_ON as it was. -/
theorem gives_chWrite_ctrl {s : State} {q : Req} {n : Fin 128} {v : Word} (hq : chMayWrite q n s.dev = true)
    (hm : bitOf v 3 = true → taskIsTimer (chTask s.dev n) = true) :
    Gives (.chWrite q n true v) s (fun t => (∀ b < 11, t.dev.bit (Reg.CH_CTRL n) b = bitOf v b) ∧
      t.dev.bit (Reg.CH_CTRL n) 11 = s.dev.bit (Reg.CH_CTRL n) 11 ∧ t.dev.resp = .ok 0 ∧ OnlyRegs (· = Reg.CH_CTRL n) s t) := by
  have hbit (b : Nat) : ((s.dev.wr (Reg.CH_CTRL n) (chCtrlWord (s.dev.rd (Reg.CH_CTRL n)) v)).answer (.ok 0)).bit (Reg.CH_CTRL n) b =
      ((bitOf v b && decide (b < 11)) || (s.dev.bit (Reg.CH_CTRL n) b && decide (b = 11))) := by
    rw [Dev.bit, Dev.rd_answer, Dev.rd_wr_same, bitOf_chCtrlWord, Dev.bit]
  refine gives_of_upd (exec_chWrite q n true v s) (chCtrlWrite_performed hq hm)
    ⟨fun b hb => (hbit b).trans ?_, (hbit 11).trans ?_, rfl, onlyRegs_wr_answer ..⟩
  · simp [hb, show b ≠ 11 by omega]
  · simp

/-- A write by another requester is denied and sets OWNER_VIOLATION (R343). -/
theorem gives_chWrite_refused {s : State} {q : Req} {n : Fin 128} (hq : chMayWrite q n s.dev = false) (ctrl : Bool) (v : Word) :
    Gives (.chWrite q n ctrl v) s (fun t => t.dev.rd Reg.CONJ_FLAGS = s.dev.rd Reg.CONJ_FLAGS ||| 8 ∧ t.dev.resp = .accessError ∧
      OnlyRegs (· = Reg.CONJ_FLAGS) s t) :=
  gives_of_upd (exec_chWrite q n ctrl v s) (chWrite_refused hq ctrl v) ⟨Dev.rd_wr_same .., rfl, onlyRegs_wr_answer ..⟩

/-- The flags of the fabric are W1C (R12, R352). -/
theorem gives_regWrite_conjFlags {s : State} {q : Req} (v : Word) {b : Nat} (hb : b < 32) (hh : haltBars s.dev q = false) :
    Gives (.regWrite q Reg.CONJ_FLAGS 4 v) s (fun t =>
      t.dev.bit Reg.CONJ_FLAGS b = (s.dev.bit Reg.CONJ_FLAGS b && !(bitOf v b && decide (b < 7))) ∧ t.dev.resp = .ok 0 ∧
      OnlyRegs (· = Reg.CONJ_FLAGS) s t) := by
  obtain ⟨t, ht, hrd, hresp, honly⟩ := gives_conjPlain (o := 4) (r := { base := 0x4, w1c := 0x7F }) (i := 0) (j := 0) v hh (by decide) (by decide)
    (by decide) (by decide) (by decide) (by decide) (by decide)
  refine ⟨t, ht, ?_, hresp, honly⟩
  have hmask : bitOf (0x7F : Word) b = decide (b < 7) := bitOf_lowMask (n := 7) (by omega) b
  rw [Dev.bit, Reg.CONJ_FLAGS, hrd, RegRow.bitOf_merge _ _ _ hb, hmask]
  simp [bitOf, Dev.bit]

/-- The interrupt enables of the fabric are RW (R12, R352). -/
theorem gives_regWrite_conjIrqEn {s : State} {q : Req} (v : Word) {b : Nat} (hb : b < 32) (hh : haltBars s.dev q = false) :
    Gives (.regWrite q Reg.CONJ_IRQ_EN 4 v) s (fun t =>
      t.dev.bit Reg.CONJ_IRQ_EN b = (if b < 7 then bitOf v b else s.dev.bit Reg.CONJ_IRQ_EN b) ∧ t.dev.resp = .ok 0 ∧
      OnlyRegs (· = Reg.CONJ_IRQ_EN) s t) := by
  obtain ⟨t, ht, hrd, hresp, honly⟩ := gives_conjPlain (o := 8) (r := { base := 0x8, rw := 0x7F, reset := 0x7B }) (i := 0) (j := 0) v hh (by decide)
    (by decide) (by decide) (by decide) (by decide) (by decide) (by decide)
  refine ⟨t, ht, ?_, hresp, honly⟩
  have hmask : bitOf ((0x7F : Word) ||| 0 ||| 0) b = decide (b < 7) := bitOf_lowMask (n := 7) (by omega) b
  rw [Dev.bit, Reg.CONJ_IRQ_EN, hrd, RegRow.bitOf_merge _ _ _ hb, hmask]
  simp [bitOf, Dev.bit]

/-- Settles O7: each clause is what the operation of the fabric does on the case it names. -/
theorem fabricTasksAndWritesPerform : Obligations.FabricTasksAndWritesPerform := by
  unfold Obligations.FabricTasksAndWritesPerform
  refine ⟨?irq, ?performed, ?refused, ?plain, ?denied⟩
  case irq => exact fun s j a l h => gives_irqTask h
  case performed =>
    intro s q n v hq
    have hmay : chMayWrite q n s.dev = true := (chMayWrite_iff q n s.dev).2 hq
    exact ⟨gives_chWrite_cfg hmay, gives_chWrite_ctrl hmay⟩
  case refused =>
    intro s q n ctrl v hk hown
    have hmay : chMayWrite q n s.dev = false := by
      rw [Bool.eq_false_iff, Ne, chMayWrite_iff]
      rintro (h | ⟨hsec, y, rfl, hy⟩)
      · simp [hk] at h
      · obtain h | h := hown
        · simp [hsec] at h
        · exact h y rfl hy
    exact gives_chWrite_refused hmay ctrl v
  case plain => exact fun s q v b hb hh => ⟨gives_regWrite_conjFlags v hb hh, gives_regWrite_conjIrqEn v hb hh⟩
  case denied =>
    exact fun s q off width v h =>
      ⟨_, (exec_regWrite ..).trans (congrArg _ (regWrite_denied v h)), rfl, onlyRegs_answer s .accessError⟩

/-! ### The reset state -/

/-- A register that nothing has written since reset reads the word of its Reset column. -/
theorem rd_reset (o : Nat) : State.reset.dev.rd o = resetWord o := rfl

/-- No yoke runs after reset: STATE of YOKE_STATE is 0 (R14). -/
theorem yokeRuns_reset : ∀ y < 8, yokeRuns State.reset.dev y = false := by decide

theorem headState_reset : ∀ h < 8, headState State.reset.dev h = 0 := by decide

/-- The PHY of a head that is OFF has no latency to report. -/
theorem phyLatency_reset (h : Nat) (hh : h < 8) : phyLatency State.reset.dev h = 0 := by
  simp [phyLatency, headState_reset h hh]

/-- A device without an image is not IDLE (R14, R556). -/
theorem pwrStatus_reset : pwrStatus State.reset.dev = 0 := by
  have hidle : idleNow State.reset.dev = false := by simp [idleNow, show State.reset.dev.bit Reg.IMAGE_STATUS 0 = false by decide]
  simp only [pwrStatus, hidle]
  decide

/-- Settles O59: the reset state has empty stores, so each reads its unlisted value, and the words named are those of their tables. -/
theorem resetLeavesTheResetColumn : Obligations.ResetLeavesTheResetColumn := by
  unfold Obligations.ResetLeavesTheResetColumn
  refine ⟨rfl, rfl, rd_reset, ?words, by decide, by decide, yokeRuns_reset, headState_reset, fun _ => rfl, by decide, pwrStatus_reset,
    phyLatency_reset, fun _ => rfl, fun _ => rfl⟩
  case words => decide

end Sys2Proof.Machine

/-! PROOFS. Fields of a word and changes of registers alone, and the moves to Draught and writes of MODE (O24). -/
namespace Sys2Proof.Machine

/-! ### Fields of a word (R5) -/

/-- Field [hi:lo] of a word, bit by bit. -/
theorem testBit_fld (w : Word) (hi lo i : Nat) : (fld w hi lo).testBit i = (decide (i < hi + 1 - lo) && bitOf w (lo + i)) := by
  rw [fld, Nat.testBit_mod_two_pow, Nat.testBit_shiftRight, bitOf, BitVec.getLsbD]

/-- The mask of a field. -/
theorem bitOf_maskOf {hi : Nat} (hhi : hi < 32) (lo b : Nat) : bitOf (maskOf hi lo) b = decide (lo ≤ b ∧ b ≤ hi) := by
  rw [bitOf, maskOf, w32, BitVec.getLsbD_ofNat, Nat.testBit_mul_two_pow, Nat.testBit_two_pow_sub_one, Bool.eq_iff_iff]
  simp only [Bool.and_eq_true, decide_eq_true_eq]
  omega

/-- A word after one of its fields is set: the field takes the number, every other bit stays. -/
theorem bitOf_putFld {hi : Nat} (hhi : hi < 32) (w : Word) (lo v : Nat) {b : Nat} (hb : b < 32) :
    bitOf (putFld w hi lo v) b = if lo ≤ b ∧ b ≤ hi then v.testBit (b - lo) else bitOf w b := by
  have hmask : (maskOf hi lo).getLsbD b = decide (lo ≤ b ∧ b ≤ hi) := bitOf_maskOf hhi lo b
  have hval : (w32 (v % 2 ^ (hi + 1 - lo) * 2 ^ lo)).getLsbD b = (decide (lo ≤ b ∧ b ≤ hi) && v.testBit (b - lo)) := by
    have hin : decide (lo ≤ b ∧ b ≤ hi) = decide (lo ≤ b ∧ b - lo < hi + 1 - lo) := decide_eq_decide.2 (by omega)
    rw [w32, BitVec.getLsbD_ofNat, Nat.testBit_mul_two_pow, Nat.testBit_mod_two_pow, hin]
    simp [hb, Bool.and_assoc]
  rw [putFld, bitOf, BitVec.getLsbD_or, BitVec.getLsbD_and, BitVec.getLsbD_not, hmask, hval]
  by_cases h : lo ≤ b ∧ b ≤ hi <;> simp [h, hb, bitOf]

/-- A field reads as the number it was set to. -/
theorem fld_putFld_same {hi : Nat} (hhi : hi < 32) (w : Word) {lo v : Nat} (hv : v < 2 ^ (hi + 1 - lo)) : fld (putFld w hi lo v) hi lo = v := by
  refine Nat.eq_of_testBit_eq fun i => ?_
  rw [testBit_fld]
  by_cases hi' : i < hi + 1 - lo
  · simp [hi', bitOf_putFld hhi w lo v (show lo + i < 32 by omega), show lo + i ≤ hi by omega]
  · have hbig : v < 2 ^ i := hv.trans_le (Nat.pow_le_pow_right (by omega) (by omega))
    simp [hi', Nat.testBit_eq_false_of_lt hbig]

/-- A field stays when one that shares no bit with it is set. -/
theorem fld_putFld_disjoint {hi hi' : Nat} (hhi : hi < 32) (hhi' : hi' < 32) (w : Word) {lo lo' : Nat} (v : Nat) (h : hi < lo' ∨ hi' < lo) :
    fld (putFld w hi lo v) hi' lo' = fld w hi' lo' := by
  refine Nat.eq_of_testBit_eq fun i => ?_
  rw [testBit_fld, testBit_fld]
  by_cases hi'' : i < hi' + 1 - lo'
  · rw [bitOf_putFld hhi w lo v (by omega), if_neg (by omega)]
  · simp [hi'']

theorem Dev.fld_setFld_same (d : Dev) (o : Nat) {hi lo v : Nat} (hhi : hi < 32) (hv : v < 2 ^ (hi + 1 - lo)) :
    (d.setFld o hi lo v).fld o hi lo = v := by
  rw [Dev.fld, Dev.setFld, Dev.rd_wr_same, fld_putFld_same hhi _ hv]

theorem Dev.fld_setFld_disjoint (d : Dev) (o : Nat) {hi lo hi' lo' : Nat} (v : Nat) (hhi : hi < 32) (hhi' : hi' < 32) (h : hi < lo' ∨ hi' < lo) :
    (d.setFld o hi lo v).fld o hi' lo' = d.fld o hi' lo' := by
  rw [Dev.fld, Dev.setFld, Dev.rd_wr_same, fld_putFld_disjoint hhi hhi' _ v h, Dev.fld]

/-- A bit outside a field stays when the field is set. -/
theorem Dev.bit_setFld_outside (d : Dev) (o v : Nat) {hi lo b : Nat} (hhi : hi < 32) (hb : b < 32) (h : b < lo ∨ hi < b) :
    (d.setFld o hi lo v).bit o b = d.bit o b := by
  rw [Dev.bit, Dev.setFld, Dev.rd_wr_same, bitOf_putFld hhi _ _ _ hb, if_neg (by omega), Dev.bit]

/-! ### The die with nothing but registers changed -/

/-- Only registers of a set change. -/
def RegsOnly (p : Nat → Prop) (d e : Dev) : Prop := { e with regs := d.regs } = d ∧ ∀ o, ¬ p o → e.rd o = d.rd o

theorem RegsOnly.refl (p : Nat → Prop) (d : Dev) : RegsOnly p d d := ⟨rfl, fun _ _ => rfl⟩

theorem RegsOnly.trans {p : Nat → Prop} {a b c : Dev} (h : RegsOnly p a b) (k : RegsOnly p b c) : RegsOnly p a c :=
  ⟨(congrArg (fun x : Dev => { x with regs := a.regs }) k.1).trans h.1, fun o ho => (k.2 o ho).trans (h.2 o ho)⟩

theorem RegsOnly.mono {p q : Nat → Prop} {d e : Dev} (h : RegsOnly p d e) (hpq : ∀ o, p o → q o) : RegsOnly q d e :=
  ⟨h.1, fun o ho => h.2 o fun hp => ho (hpq o hp)⟩

theorem RegsOnly.rail {p : Nat → Prop} {d e : Dev} (h : RegsOnly p d e) : e.rail = d.rail := (congrArg Dev.rail h.1 :)

theorem regsOnly_wr {p : Nat → Prop} {o : Nat} (ho : p o) (v : Word) (d : Dev) : RegsOnly p d (d.wr o v) :=
  ⟨rfl, fun _ hx => Dev.rd_wr_ne d v fun h => hx (h ▸ ho)⟩

theorem regsOnly_bump {p : Nat → Prop} {o : Nat} (ho : p o) (d : Dev) : RegsOnly p d (d.bump o) := by
  unfold Dev.bump
  split
  · exact .refl p d
  · exact regsOnly_wr ho _ d

theorem regsOnly_forN {p : Nat → Prop} (n : Nat) (f : Nat → Dev → Dev) (h : ∀ i < n, ∀ d, RegsOnly p d (f i d)) (d : Dev) :
    RegsOnly p d (forN n d f) :=
  forN_ind (RegsOnly p d) n f d (.refl p d) fun i hi e he => he.trans (h i hi e)

/-- A count after a step: it holds at 0xFFFF_FFFF. -/
theorem Dev.toNat_rd_bump (d : Dev) (o : Nat) : ((d.bump o).rd o).toNat = min ((d.rd o).toNat + 1) 0xFFFFFFFF := by
  have hlt : (d.rd o).toNat < 2 ^ 32 := (d.rd o).isLt
  unfold Dev.bump
  split
  next h => simp [h]
  next h =>
    have hne : (d.rd o).toNat ≠ 0xFFFFFFFF := fun e => h (BitVec.eq_of_toNat_eq e)
    rw [Dev.rd_wr_same, BitVec.toNat_add_of_lt (by simp; omega)]
    simp
    omega

theorem forN_succ {σ : Type} (n : Nat) (s : σ) (f : Nat → σ → σ) : forN (n + 1) s f = f n (forN n s f) := by
  simp [forN, List.range_succ]

/-- The registers after a word of each of n units is changed: those n words, and no other. -/
theorem rd_forN_wr {o : Nat → Nat} (ho : Function.Injective o) (g : Word → Word) (n : Nat) (d : Dev) (x : Nat) :
    (forN n d (fun i d => d.wr (o i) (g (d.rd (o i))))).rd x = if ∃ i < n, o i = x then g (d.rd x) else d.rd x := by
  induction n with
  | zero => simp [forN]
  | succ n ih =>
    rw [forN_succ, Dev.rd_wr]
    by_cases hx : x = o n
    · subst hx
      have hold : (forN n d (fun i d => d.wr (o i) (g (d.rd (o i))))).rd (o n) = d.rd (o n) := by
        refine ih.trans (if_neg ?_)
        rintro ⟨i, hi, he⟩
        exact hi.ne (ho he)
      rw [if_pos rfl, if_pos ⟨n, n.lt_succ_self, rfl⟩, hold]
    · have hsame : (∃ i < n + 1, o i = x) ↔ ∃ i < n, o i = x := by
        refine ⟨fun ⟨i, hi, he⟩ => ⟨i, ?_, he⟩, fun ⟨i, hi, he⟩ => ⟨i, by omega, he⟩⟩
        have hne : i ≠ n := fun h => hx (h ▸ he.symm)
        omega
      rw [if_neg hx, ih, if_congr hsame rfl rfl]

/-- An answer to the requester changes no bit and no field. -/
@[simp] theorem Dev.bit_okay (d : Dev) (o n : Nat) : d.okay.bit o n = d.bit o n := rfl
@[simp] theorem Dev.fld_okay (d : Dev) (o hi lo : Nat) : d.okay.fld o hi lo = d.fld o hi lo := rfl

/-! ### The move to Draught (R26) -/

/-- Only REGIME_STATUS, MODE and the mark of a move's step 2 change. -/
def MoveOnly (d e : Dev) : Prop :=
  { e with regs := d.regs, rail := { e.rail with frozen := d.rail.frozen } } = d ∧
    ∀ o, ¬ (o = Reg.REGIME_STATUS ∨ o = Reg.MODE) → e.rd o = d.rd o

theorem MoveOnly.refl (d : Dev) : MoveOnly d d := ⟨rfl, fun _ _ => rfl⟩

theorem MoveOnly.trans {a b c : Dev} (h : MoveOnly a b) (k : MoveOnly b c) : MoveOnly a c :=
  ⟨(congrArg (fun x : Dev => { x with regs := a.regs, rail := { x.rail with frozen := a.rail.frozen } }) k.1).trans h.1,
    fun o ho => (k.2 o ho).trans (h.2 o ho)⟩

theorem moveOnly_wr {o : Nat} (ho : o = Reg.REGIME_STATUS ∨ o = Reg.MODE) (v : Word) (d : Dev) : MoveOnly d (d.wr o v) :=
  ⟨rfl, fun _ hx => Dev.rd_wr_ne d v fun h => hx (h ▸ ho)⟩

theorem moveOnly_frozen (b : Bool) (d : Dev) : MoveOnly d (d.updRail (fun r => { r with frozen := b })) := ⟨rfl, fun _ _ => rfl⟩

/-- A step of a move, with an answer to the requester, as a command leaves the rest. -/
theorem MoveOnly.leaves_okay {s : State} {e : Dev} (h : MoveOnly s.dev e) :
    Leaves (fun d e => { d with regs := e.regs, resp := e.resp, rail := { d.rail with frozen := e.rail.frozen } })
      (fun o => o = Reg.REGIME_STATUS ∨ o = Reg.MODE) s { s with dev := e.okay } :=
  ⟨rfl, rfl, (congrArg (fun x : Dev => { x with resp := s.dev.resp }) h.1 :), h.2⟩

/-- Step 6 of a move: REGIME reads Draught, MOVING clears, and the mode fields read their Draught values. -/
def moveEnd (d : Dev) : Dev :=
  let d := ((d.setBit Reg.REGIME_STATUS 0).clrBit Reg.REGIME_STATUS 1).updRail (fun r => { r with frozen := false })
  ((d.setFld Reg.MODE 4 0 5).setFld Reg.MODE 15 8 10).setFld Reg.MODE 17 16 2

/-- A move ends where its steps are done, and goes on where they are not. -/
theorem moveCheck_cases (d : Dev) : moveCheck d = d ∨ moveCheck d = moveEnd d := by
  unfold moveCheck
  split
  · exact .inr rfl
  · exact .inl rfl

theorem moveOnly_moveEnd (d : Dev) : MoveOnly d (moveEnd d) :=
  ((((((moveOnly_wr (.inl rfl) _ d).trans (moveOnly_wr (.inl rfl) _ _)).trans (moveOnly_frozen _ _)).trans
    (moveOnly_wr (.inr rfl) _ _)).trans (moveOnly_wr (.inr rfl) _ _)).trans (moveOnly_wr (.inr rfl) _ _))

theorem moveOnly_moveCheck (d : Dev) : MoveOnly d (moveCheck d) := by
  obtain h | h := moveCheck_cases d
  · rw [h]; exact .refl d
  · rw [h]; exact moveOnly_moveEnd d

theorem moveOnly_moveFreeze (d : Dev) : MoveOnly d (moveFreeze d) := by
  unfold moveFreeze
  split
  · exact moveOnly_frozen _ d
  · exact .refl d

/-- What the end of a move shows (R26, R31). -/
theorem moveEnd_shows (d : Dev) : (moveEnd d).bit Reg.REGIME_STATUS 0 = true ∧ (moveEnd d).bit Reg.REGIME_STATUS 1 = false ∧
    (moveEnd d).fld Reg.MODE 4 0 = 5 ∧ (moveEnd d).fld Reg.MODE 15 8 = 10 ∧ (moveEnd d).fld Reg.MODE 17 16 = 2 := by
  have hregime (d : Dev) (n : Nat) : (moveEnd d).bit Reg.REGIME_STATUS n =
      ((d.setBit Reg.REGIME_STATUS 0).clrBit Reg.REGIME_STATUS 1).bit Reg.REGIME_STATUS n := by
    have hne : Reg.REGIME_STATUS ≠ Reg.MODE := by decide
    simp only [moveEnd, Dev.bit, Dev.rd_setFld_ne _ _ _ _ hne, Dev.updRail_rd]
  refine ⟨?regime, ?moving, ?cap, ?interval, ?rate⟩
  case regime => rw [hregime, Dev.bit_clrBit _ _ _ _ (by omega) (by omega), Dev.bit_setBit _ _ _ _ (by omega)]; simp
  case moving => rw [hregime, Dev.bit_clrBit _ _ _ _ (by omega) (by omega)]; simp
  case cap =>
    rw [moveEnd, Dev.fld_setFld_disjoint _ _ _ (by omega) (by omega) (by omega), Dev.fld_setFld_disjoint _ _ _ (by omega) (by omega) (by omega),
      Dev.fld_setFld_same _ _ (by omega) (by omega)]
  case interval =>
    rw [moveEnd, Dev.fld_setFld_disjoint _ _ _ (by omega) (by omega) (by omega), Dev.fld_setFld_same _ _ (by omega) (by omega)]
  case rate => exact Dev.fld_setFld_same _ _ (by omega) (by omega)

/-- Step 2 of a move is reached at once where no re-pen runs (R26). -/
theorem moveFreeze_frozen {d : Dev} (h : d.bit Reg.REGIME_STATUS 1 = true) : (moveFreeze d).rail.frozen = (d.rail.frozen || !repenBusy d) := by
  unfold moveFreeze
  cases repenBusy d <;> simp [h, Dev.updRail]

theorem moveFreeze_rd (d : Dev) (o : Nat) : (moveFreeze d).rd o = d.rd o := by
  unfold moveFreeze
  split <;> rfl

/-! ### The commands of O24 -/

theorem exec_toDraught (q : Req) (v : Word) (s : State) : exec (.toDraught q v) s = .next (s.upd (toDraught q v)) := rfl
theorem exec_modeWrite (q : Req) (v : Word) (s : State) : exec (.modeWrite q v) s = .next (s.upd (modeWrite q v)) := rfl

theorem toDraught_denied {q : Req} {d : Dev} (v : Word) (hq : d.keeper q = false) : toDraught q v d = d.deny := by
  simp [toDraught, hq]
theorem modeWrite_denied {q : Req} {d : Dev} (v : Word) (hq : d.keeper q = false) : modeWrite q v d = d.deny := by
  simp [modeWrite, hq]

/-- A TO_DRAUGHT write of 0, in Draught or in a move does nothing (R26). -/
theorem toDraught_idle {q : Req} {v : Word} {d : Dev} (hq : d.keeper q = true)
    (h : bitOf v 0 = false ∨ d.bit Reg.REGIME_STATUS 0 = true ∨ d.bit Reg.REGIME_STATUS 1 = true) : toDraught q v d = d.okay := by
  have hidle : (!bitOf v 0 || d.bit Reg.REGIME_STATUS 0 || d.bit Reg.REGIME_STATUS 1) = true := by
    simpa [or_assoc] using h
  rw [toDraught, if_neg (by simp [hq]), if_pos hidle]

/-- A TO_DRAUGHT write that asks for a move: refused while a cell has twin mode set, else the move starts (R26, R30). -/
theorem toDraught_asks {q : Req} {v : Word} {d : Dev} (hq : d.keeper q = true) (hv : bitOf v 0 = true)
    (h0 : d.bit Reg.REGIME_STATUS 0 = false) (h1 : d.bit Reg.REGIME_STATUS 1 = false) :
    toDraught q v d = if anyTwin d then (d.setBit Reg.REGIME_STATUS 2).okay else (moveCheck (moveFreeze (d.setBit Reg.REGIME_STATUS 1))).okay := by
  simp [toDraught, hq, hv, h0, h1]

/-- A write of MODE takes the bits of its three fields (R31). -/
theorem bitOf_modeWord (old v : Word) {b : Nat} (hb : b < 32) :
    bitOf ((old &&& 0xE0) ||| (v &&& 0x3FF1F)) b = if b < 5 ∨ (8 ≤ b ∧ b < 18) then bitOf v b else bitOf old b && decide (b < 8) := by
  have hkept : ∀ b < 32, (0xE0 : Word).getLsbD b = decide (5 ≤ b ∧ b < 8) := by decide
  have htaken : ∀ b < 32, (0x3FF1F : Word).getLsbD b = decide (b < 5 ∨ (8 ≤ b ∧ b < 18)) := by decide
  rw [bitOf, BitVec.getLsbD_or, BitVec.getLsbD_and, BitVec.getLsbD_and, hkept b hb, htaken b hb]
  by_cases h : b < 5 ∨ (8 ≤ b ∧ b < 18)
  · simp [h, show ¬ (5 ≤ b ∧ b < 8) by omega, bitOf]
  · simp [h, show 5 ≤ b by omega, bitOf]

/-- What a write of MODE needs (R28, R30, R31). -/
theorem modeRefused_eq_false_iff (v : Word) (d : Dev) : modeRefused v d = false ↔
    d.bit Reg.REGIME_STATUS 0 = false ∧ ¬ (d.bit Reg.REGIME_STATUS 1 = true ∧ d.rail.frozen = true) ∧ 5 ≤ fld v 4 0 ∧ fld v 4 0 ≤ 25 ∧
      5 ≤ fld v 15 8 ∧ fld v 15 8 ≤ 25 ∧ ∀ m ∈ twinModes d, doubledRate m ≤ throughput (fld v 4 0) * 1000 := by
  simp [modeRefused, moveFree, twinFits, and_assoc]

theorem gives_toDraught {s : State} {q : Req} {v : Word} (hq : s.dev.keeper q = true) (hv : bitOf v 0 = true)
    (h0 : s.dev.bit Reg.REGIME_STATUS 0 = false) (h1 : s.dev.bit Reg.REGIME_STATUS 1 = false) :
    Gives (.toDraught q v) s (fun t => t.dev.resp = .ok 0 ∧
      (if anyTwin s.dev = true then t.dev.rd Reg.REGIME_STATUS = s.dev.rd Reg.REGIME_STATUS ||| 4 ∧ t.dev.rd Reg.MODE = s.dev.rd Reg.MODE
      else (t.dev.bit Reg.REGIME_STATUS 1 = true ∧ t.dev.rail.frozen = (s.dev.rail.frozen || !repenBusy s.dev)) ∨
        (t.dev.bit Reg.REGIME_STATUS 0 = true ∧ t.dev.bit Reg.REGIME_STATUS 1 = false ∧ t.dev.fld Reg.MODE 4 0 = 5 ∧
          t.dev.fld Reg.MODE 15 8 = 10 ∧ t.dev.fld Reg.MODE 17 16 = 2)) ∧
      Leaves (fun d e => { d with regs := e.regs, resp := e.resp, rail := { d.rail with frozen := e.rail.frozen } })
        (fun o => o = Reg.REGIME_STATUS ∨ o = Reg.MODE) s t) := by
  have hform := toDraught_asks hq hv h0 h1
  by_cases htwin : anyTwin s.dev = true
  · rw [if_pos htwin] at hform
    refine gives_of_upd (exec_toDraught q v s) hform ⟨rfl, ?_, rfl, rfl, rfl, fun o ho => Dev.rd_setBit_ne _ _ fun h => ho (.inl h)⟩
    rw [if_pos htwin]
    exact ⟨Dev.rd_wr_same .., Dev.rd_setBit_ne _ _ (by decide)⟩
  · rw [if_neg htwin] at hform
    have hbit : (s.dev.setBit Reg.REGIME_STATUS 1).bit Reg.REGIME_STATUS 1 = true := by
      rw [Dev.bit_setBit _ _ _ _ (by omega)]
      simp
    have hbusy : repenBusy (s.dev.setBit Reg.REGIME_STATUS 1) = repenBusy s.dev := Dev.bit_setBit_ne _ _ _ (by decide)
    have honly : MoveOnly s.dev (moveCheck (moveFreeze (s.dev.setBit Reg.REGIME_STATUS 1))) :=
      ((moveOnly_wr (.inl rfl) _ _).trans (moveOnly_moveFreeze _)).trans (moveOnly_moveCheck _)
    refine gives_of_upd (exec_toDraught q v s) hform ⟨rfl, ?_, honly.leaves_okay⟩
    rw [if_neg htwin]
    simp only [Dev.bit_okay, Dev.fld_okay, Dev.okay_rail]
    obtain hgo | hend := moveCheck_cases (moveFreeze (s.dev.setBit Reg.REGIME_STATUS 1))
    · rw [hgo]
      refine .inl ⟨(congrArg (bitOf · 1) (moveFreeze_rd _ _)).trans hbit, ?_⟩
      exact (moveFreeze_frozen hbit).trans (by rw [hbusy]; rfl)
    · rw [hend]
      exact .inr (moveEnd_shows _)

theorem gives_modeWrite {s : State} {q : Req} {v : Word} (hq : s.dev.keeper q = true) :
    Gives (.modeWrite q v) s (fun t => t.dev.resp = .ok 0 ∧
      (if s.dev.bit Reg.REGIME_STATUS 0 = false ∧ ¬ (s.dev.bit Reg.REGIME_STATUS 1 = true ∧ s.dev.rail.frozen = true) ∧
          5 ≤ fld v 4 0 ∧ fld v 4 0 ≤ 25 ∧ 5 ≤ fld v 15 8 ∧
          fld v 15 8 ≤ 25 ∧ (∀ m ∈ twinModes s.dev, doubledRate m ≤ throughput (fld v 4 0) * 1000) then
        (∀ b < 32, t.dev.bit Reg.MODE b = if b < 5 ∨ (8 ≤ b ∧ b < 18) then bitOf v b else s.dev.bit Reg.MODE b && decide (b < 8)) ∧
          OnlyRegs (· = Reg.MODE) s t
      else t.dev.rd Reg.REGIME_STATUS = s.dev.rd Reg.REGIME_STATUS ||| 8 ∧ OnlyRegs (· = Reg.REGIME_STATUS) s t)) := by
  cases href : modeRefused v s.dev
  case false =>
    have hform : modeWrite q v s.dev = (s.dev.wr Reg.MODE ((s.dev.rd Reg.MODE &&& 0xE0) ||| (v &&& 0x3FF1F))).okay := by
      simp [modeWrite, hq, href]
    refine gives_of_upd (exec_modeWrite q v s) hform ⟨rfl, ?_⟩
    rw [if_pos ((modeRefused_eq_false_iff v s.dev).1 href)]
    refine ⟨fun b hb => ?_, onlyRegs_wr_answer ..⟩
    rw [Dev.bit, Dev.rd_okay, Dev.rd_wr_same, bitOf_modeWord _ _ hb, Dev.bit]
  case true =>
    have hform : modeWrite q v s.dev = (s.dev.setBit Reg.REGIME_STATUS 3).okay := by simp [modeWrite, hq, href]
    refine gives_of_upd (exec_modeWrite q v s) hform ⟨rfl, ?_⟩
    rw [if_neg fun h => by simp [(modeRefused_eq_false_iff v s.dev).2 h] at href]
    exact ⟨Dev.rd_wr_same .., onlyRegs_wr_answer ..⟩

/-- Settles O24: a move starts, is refused or does nothing by `toDraught_asks` and `toDraught_idle`, and MODE takes its bits or nothing. -/
theorem regimeAndModeWrites : Obligations.RegimeAndModeWrites := by
  unfold Obligations.RegimeAndModeWrites
  refine ⟨fun s q v hq hv h0 h1 => gives_toDraught hq hv h0 h1, ?idle, fun s q v hq => gives_modeWrite hq, ?denied⟩
  case idle => exact fun s q v hq h => gives_of_upd (exec_toDraught q v s) (toDraught_idle hq h) rfl
  case denied =>
    exact fun s q v hq => ⟨gives_of_upd (exec_toDraught q v s) (toDraught_denied v hq) rfl,
      gives_of_upd (exec_modeWrite q v s) (modeWrite_denied v hq) rfl⟩

end Sys2Proof.Machine

/-! PROOFS. The steps of the array rail (O25). -/
namespace Sys2Proof.Machine

/-! ### The die with nothing but the rail control and registers changed -/

/-- Only registers of a set and the rail control change. -/
def RailOnly (p : Nat → Prop) (d e : Dev) : Prop := { e with regs := d.regs, rail := d.rail } = d ∧ ∀ o, ¬ p o → e.rd o = d.rd o

theorem RailOnly.refl (p : Nat → Prop) (d : Dev) : RailOnly p d d := ⟨rfl, fun _ _ => rfl⟩

theorem RailOnly.trans {p : Nat → Prop} {a b c : Dev} (h : RailOnly p a b) (k : RailOnly p b c) : RailOnly p a c :=
  ⟨(congrArg (fun x : Dev => { x with regs := a.regs, rail := a.rail }) k.1).trans h.1, fun o ho => (k.2 o ho).trans (h.2 o ho)⟩

theorem RailOnly.mono {p q : Nat → Prop} {d e : Dev} (h : RailOnly p d e) (hpq : ∀ o, p o → q o) : RailOnly q d e :=
  ⟨h.1, fun o ho => h.2 o fun hp => ho (hpq o hp)⟩

theorem RailOnly.clk {p : Nat → Prop} {d e : Dev} (h : RailOnly p d e) : e.clk = d.clk := (congrArg Dev.clk h.1 :)

theorem railOnly_updRail (p : Nat → Prop) (f : Rail → Rail) (d : Dev) : RailOnly p d (d.updRail f) := ⟨rfl, fun _ _ => rfl⟩

theorem RegsOnly.railOnly {p : Nat → Prop} {d e : Dev} (h : RegsOnly p d e) : RailOnly p d e :=
  ⟨(congrArg (fun x : Dev => { x with rail := d.rail }) h.1 :), h.2⟩

theorem MoveOnly.railOnly {p : Nat → Prop} {d e : Dev} (h : MoveOnly d e) (hp : p Reg.REGIME_STATUS ∧ p Reg.MODE) : RailOnly p d e := by
  refine ⟨(congrArg (fun x : Dev => { x with rail := d.rail }) h.1 :), fun o ho => h.2 o ?_⟩
  rintro (rfl | rfl)
  · exact ho hp.1
  · exact ho hp.2

/-- A change of the rail control and of registers, as a command leaves the rest. -/
theorem RailOnly.leaves {p : Nat → Prop} {s : State} {e : Dev} (h : RailOnly p s.dev e) :
    Leaves (fun d e => { d with regs := e.regs, rail := e.rail }) p s { s with dev := e } := ⟨rfl, rfl, h.1, h.2⟩

/-! ### Time up to an instant -/

/-- The instant c of the herd clock has been reached, and nothing else has changed. -/
def Passed (d : Dev) (c : Nat) (e : Dev) : Prop := { e with ht := d.ht, clk := d.clk } = d ∧ e.clk = max d.clk c

theorem passed_passClk (d : Dev) (c : Nat) : Passed d c (d.passClk c) := by
  unfold Dev.passClk
  split
  · refine ⟨rfl, ?_⟩
    simp only [Dev.pass]
    omega
  · exact ⟨rfl, by omega⟩

theorem Passed.regs {d e : Dev} {c : Nat} (h : Passed d c e) : e.regs = d.regs := (congrArg Dev.regs h.1 :)
theorem Passed.rail {d e : Dev} {c : Nat} (h : Passed d c e) : e.rail = d.rail := (congrArg Dev.rail h.1 :)

/-- A change of the rail control and of registers after time has passed, as a command leaves the rest. -/
theorem RailOnly.leaves_of_passed {p : Nat → Prop} {s : State} {c : Nat} {e e' : Dev} (h : RailOnly p e e') (hpassed : Passed s.dev c e) :
    Leaves (fun d e => { d with regs := e.regs, rail := e.rail, ht := e.ht, clk := e.clk }) p s { s with dev := e' } := by
  refine ⟨rfl, rfl, ?_, fun o ho => (h.2 o ho).trans (by rw [Dev.rd, hpassed.regs, Dev.rd])⟩
  have hrest := congrArg (fun x : Dev => { x with regs := s.dev.regs, rail := s.dev.rail, ht := s.dev.ht, clk := s.dev.clk }) h.1
  exact hrest.trans (congrArg (fun x : Dev => { x with regs := s.dev.regs, rail := s.dev.rail }) hpassed.1)

/-! ### Levels and limits of the rail depend on registers alone (R26, R28, R94, R98) -/

theorem railLevel_congr {d e : Dev} (h : e.regs = d.regs) : railLevel e = railLevel d := by
  rw [show railLevel e = railLevel { d with regs := e.regs } from rfl, h]
theorem railCap_congr {d e : Dev} (h : e.regs = d.regs) : railCap e = railCap d := by
  rw [show railCap e = railCap { d with regs := e.regs } from rfl, h]
theorem railFloor_congr {d e : Dev} (h : e.regs = d.regs) : railFloor e = railFloor d := by
  rw [show railFloor e = railFloor { d with regs := e.regs } from rfl, h]
theorem mayAsk_congr {d e : Dev} (h : e.regs = d.regs) (l : Nat) : mayAsk e l = mayAsk d l := by
  rw [mayAsk, mayAsk, railLevel_congr h, railCap_congr h, railFloor_congr h]
theorem lowerTo_congr {d e : Dev} (h : e.regs = d.regs) (hf : e.rail.frozen = d.rail.frozen) : lowerTo e = lowerTo d := by
  rw [show lowerTo e = lowerTo { d with regs := e.regs, rail := { d.rail with frozen := e.rail.frozen } } from rfl, h, hf]

/-! ### Requests (R555, R288) -/

/-- The steward may make a request: ARRAY_PG is high and none is outstanding. -/
def railFree (d : Dev) : Prop := d.rail.pg = true ∧ d.rail.request = none

theorem railFree_congr {d e : Dev} (h : e.rail = d.rail) : railFree e ↔ railFree d := by rw [railFree, h, railFree]

/-- The steward asks for a level, or for none. -/
def railAsk (want : Option Nat) (d : Dev) : Dev := match want with | some l => railRequest l d | none => d

/-- What a request of a level makes of the die. -/
def railAsked (l : Nat) (d : Dev) : Dev :=
  (d.updRail (fun r => { r with request := some l, requestAt := d.clk, failed := none })).setBit Reg.RAIL_STATUS 10

theorem railRequest_of_free {d : Dev} (l : Nat) (h : railFree d) : railRequest l d = railAsked l d := by
  obtain ⟨hpg, hreq⟩ := h
  simp [railRequest, railAsked, hpg, hreq]

theorem railRequest_of_not_free {d : Dev} (l : Nat) (h : ¬ railFree d) : railRequest l d = d := by
  simp only [railRequest, railFree] at h ⊢
  exact if_neg (by simpa using h)

theorem railOnly_railAsked {p : Nat → Prop} (hp : p Reg.RAIL_STATUS) (l : Nat) (d : Dev) : RailOnly p d (railAsked l d) :=
  (railOnly_updRail p _ d).trans (regsOnly_wr hp _ _).railOnly

theorem railOnly_railRequest {p : Nat → Prop} (hp : p Reg.RAIL_STATUS) (l : Nat) (d : Dev) : RailOnly p d (railRequest l d) := by
  by_cases h : railFree d
  · rw [railRequest_of_free l h]; exact railOnly_railAsked hp l d
  · rw [railRequest_of_not_free l h]; exact .refl p d

theorem railOnly_railAsk {p : Nat → Prop} (hp : p Reg.RAIL_STATUS) (want : Option Nat) (d : Dev) : RailOnly p d (railAsk want d) := by
  cases want with
  | none => exact .refl p d
  | some l => exact railOnly_railRequest hp l d

/-- REQUESTED shows a request. -/
theorem railAsked_bit (l : Nat) (d : Dev) : (railAsked l d).bit Reg.RAIL_STATUS 10 = true := by
  rw [railAsked, Dev.bit_setBit _ _ _ _ (by omega)]
  simp

/-- A free steward asks for what it wants. -/
theorem railAsk_of_free {d : Dev} (want : Option Nat) (h : railFree d) :
    (railAsk want d).rail.request = want ∧ (want ≠ none → (railAsk want d).bit Reg.RAIL_STATUS 10 = true) := by
  cases want with
  | none => exact ⟨h.2, fun hne => absurd rfl hne⟩
  | some l =>
    rw [railAsk, railRequest_of_free l h]
    exact ⟨rfl, fun _ => railAsked_bit l d⟩

theorem railAsk_of_not_free {d : Dev} (want : Option Nat) (h : ¬ railFree d) : railAsk want d = d := by
  cases want with
  | none => rfl
  | some l => exact railRequest_of_not_free l h

theorem railAsk_low (want : Option Nat) (d : Dev) : (railAsk want d).rail.low = d.rail.low := by
  by_cases h : railFree d
  · cases want with
    | none => rfl
    | some l => rw [railAsk, railRequest_of_free l h]; rfl
  · rw [railAsk_of_not_free want h]

/-! ### RAIL_CAPPED (R93) -/

theorem flockStatus_injective : Function.Injective Reg.FLOCK_STATUS := fun a b h => by
  simp only [Reg.FLOCK_STATUS] at h
  omega

/-- The registers in which a step of the rail shows and clears RAIL_CAPPED. -/
def CapReg (o : Nat) : Prop := o = Reg.ST_FLAGS ∨ ∃ f < 16, o = Reg.FLOCK_STATUS f

/-- A register that shows RAIL_CAPPED is not RAIL_STATUS. -/
theorem CapReg.ne_railStatus {o : Nat} (h : CapReg o) : o ≠ Reg.RAIL_STATUS := by
  obtain rfl | ⟨f, -, rfl⟩ := h
  · decide
  · simp only [Reg.FLOCK_STATUS, Reg.RAIL_STATUS]; omega

theorem regsOnly_railCapped (d : Dev) : RegsOnly CapReg d (railCapped d) :=
  (regsOnly_forN 16 _ (fun f hf e => regsOnly_wr (.inr ⟨f, hf, rfl⟩) _ e) d).trans (regsOnly_wr (.inl rfl) _ _)

theorem railCapped_stFlags (d : Dev) : (railCapped d).bit Reg.ST_FLAGS 7 = true := by
  rw [railCapped, Dev.bit_setBit _ _ _ _ (by omega)]
  simp

theorem railCapped_flockStatus (d : Dev) {f : Nat} (hf : f < 16) : (railCapped d).bit (Reg.FLOCK_STATUS f) 11 = true := by
  have hne : Reg.FLOCK_STATUS f ≠ Reg.ST_FLAGS := by simp only [Reg.FLOCK_STATUS, Reg.ST_FLAGS]; omega
  have hrd : (forN 16 d fun f d => d.setBit (Reg.FLOCK_STATUS f) 11).rd (Reg.FLOCK_STATUS f) = d.rd (Reg.FLOCK_STATUS f) ||| w32 (2 ^ 11) :=
    (rd_forN_wr flockStatus_injective (· ||| w32 (2 ^ 11)) 16 d _).trans (if_pos ⟨f, hf, rfl⟩)
  rw [railCapped, Dev.bit_setBit_ne _ _ _ hne, Dev.bit, hrd, bitOf, BitVec.getLsbD_or, w32_two_pow_bit 11 11 (by omega)]
  simp

/-! ### The commands of the rail -/

theorem exec_railReviewWindow (s : State) : exec .railReviewWindow s = .next (s.upd railReview) := rfl
theorem exec_railStepDown (s : State) : exec .railStepDown s = .next (s.upd railStepDown) := rfl
theorem exec_twinFloorStep (s : State) : exec .twinFloorStep s = .next (s.upd twinFloorStep) := rfl
theorem exec_avsVdone (lvl : Fin 26) (s : State) : exec (.avsVdone lvl) s = .next (s.upd (avsDone lvl)) := rfl
theorem exec_avsTimeout (s : State) : exec .avsTimeout s = .next (s.upd avsTimeout) := rfl
theorem exec_avsRetry (s : State) : exec .avsRetry s = .next (s.upd avsRetry) := rfl

/-! ### The review of a window (R28, R93) -/

/-- The level for which a review of a window asks, if any. -/
def reviewWant (d : Dev) : Option Nat :=
  if lowerTo d < railLevel d then some (railLevel d - 1)
  else if d.rail.low = true ∧ railLevel d < railCap d then some (railLevel d + 1) else none

/-- A window with a low-slack line ends with the rail at or above its limit. -/
def reviewCaps (d : Dev) : Bool := d.rail.low && (decide (lowerTo d < railLevel d) || decide (railCap d ≤ railLevel d))

/-- A window of the review ends and the next one starts. -/
def windowEnd (d : Dev) : Dev := d.updRail (fun r => { r with low := false, windowAt := d.clk })

theorem windowEnd_regs (d : Dev) : (windowEnd d).regs = d.regs := rfl
theorem windowEnd_frozen (d : Dev) : (windowEnd d).rail.frozen = d.rail.frozen := rfl

/-- The end of a window, with RAIL_CAPPED where the rail is at its limit. -/
def windowNoted (caps : Bool) (d : Dev) : Dev := if caps then railCapped (windowEnd d) else windowEnd d

/-- A review ends the window, notes the limit and asks for at most one step. -/
theorem railReview_passed (d : Dev) : ∃ e, Passed d (d.rail.windowAt + 100000) e ∧
    railReview d = railAsk (reviewWant d) (windowNoted (reviewCaps d) e) := by
  have hpassed := passed_passClk d (d.rail.windowAt + 100000)
  rw [railReview]
  generalize d.passClk (d.rail.windowAt + 100000) = e at hpassed ⊢
  refine ⟨e, hpassed, ?_⟩
  have hregs : (windowEnd e).regs = d.regs := (windowEnd_regs e).trans hpassed.regs
  have hfrozen : (windowEnd e).rail.frozen = d.rail.frozen := (windowEnd_frozen e).trans (congrArg Rail.frozen hpassed.rail)
  have hlevel : railLevel (windowEnd e) = railLevel d := railLevel_congr hregs
  have hcap : railCap (windowEnd e) = railCap d := railCap_congr hregs
  have hlower : lowerTo (windowEnd e) = lowerTo d := lowerTo_congr hregs hfrozen
  have hlow : e.rail.low = d.rail.low := congrArg Rail.low hpassed.rail
  simp only [← windowEnd.eq_def, hlevel, hcap, hlower, hlow]
  by_cases hdown : lowerTo d < railLevel d
  · cases hlow : d.rail.low <;> simp [reviewWant, windowNoted, reviewCaps, railAsk, hdown, hlow]
  · cases hlow : d.rail.low
    · simp [reviewWant, windowNoted, reviewCaps, railAsk, hdown, hlow]
    · by_cases hcap : railCap d ≤ railLevel d
      · simp [reviewWant, windowNoted, reviewCaps, railAsk, hdown, hlow, hcap, show ¬ railLevel d < railCap d by omega]
      · simp [reviewWant, windowNoted, reviewCaps, railAsk, hdown, hlow, hcap, show railLevel d < railCap d by omega]

theorem windowNoted_rail (caps : Bool) (d : Dev) : (windowNoted caps d).rail = (windowEnd d).rail := by
  cases caps with
  | false => rfl
  | true => exact (regsOnly_railCapped _).rail

theorem railOnly_windowNoted (caps : Bool) (d : Dev) : RailOnly CapReg d (windowNoted caps d) := by
  cases caps with
  | false => exact railOnly_updRail ..
  | true => exact (railOnly_updRail ..).trans (regsOnly_railCapped _).railOnly

theorem railFree_windowNoted (caps : Bool) (d : Dev) : railFree (windowNoted caps d) ↔ railFree d := by
  rw [railFree_congr (windowNoted_rail caps d)]
  rfl

theorem gives_railReviewWindow (s : State) :
    Gives .railReviewWindow s (fun t => t.dev.rail.low = false ∧ t.dev.clk = max s.dev.clk (s.dev.rail.windowAt + 100000) ∧
      (railFree s.dev → t.dev.rail.request = reviewWant s.dev ∧ (reviewWant s.dev ≠ none → t.dev.bit Reg.RAIL_STATUS 10 = true)) ∧
      (¬ railFree s.dev → t.dev.rail.request = s.dev.rail.request) ∧
      (s.dev.rail.low = true → lowerTo s.dev < railLevel s.dev ∨ railCap s.dev ≤ railLevel s.dev →
        t.dev.bit Reg.ST_FLAGS 7 = true ∧ ∀ f < 16, t.dev.bit (Reg.FLOCK_STATUS f) 11 = true) ∧
      Leaves (fun d e => { d with regs := e.regs, rail := e.rail, ht := e.ht, clk := e.clk })
        (fun o => o = Reg.RAIL_STATUS ∨ o = Reg.ST_FLAGS ∨ ∃ f < 16, o = Reg.FLOCK_STATUS f) s t) := by
  obtain ⟨e, hpassed, hform⟩ := railReview_passed s.dev
  have hfreed : railFree (windowNoted (reviewCaps s.dev) e) ↔ railFree s.dev := (railFree_windowNoted _ e).trans (railFree_congr hpassed.rail)
  have honly : RailOnly (fun o => o = Reg.RAIL_STATUS ∨ CapReg o) e (railAsk (reviewWant s.dev) (windowNoted (reviewCaps s.dev) e)) :=
    ((railOnly_windowNoted _ e).mono fun o ho => .inr ho).trans (railOnly_railAsk (.inl rfl) _ _)
  have hcapReg {o : Nat} (ho : CapReg o) (n : Nat) :
      (railAsk (reviewWant s.dev) (windowNoted (reviewCaps s.dev) e)).bit o n = (windowNoted (reviewCaps s.dev) e).bit o n :=
    congrArg (bitOf · n) ((railOnly_railAsk (p := (· = Reg.RAIL_STATUS)) rfl _ _).2 o ho.ne_railStatus)
  refine gives_of_upd (exec_railReviewWindow s) hform
    ⟨?low, honly.clk.trans hpassed.2, ?free, ?busy, ?capped, honly.leaves_of_passed hpassed⟩
  case low => exact (railAsk_low _ _).trans (by rw [windowNoted_rail]; rfl)
  case free => exact fun hfree => railAsk_of_free _ (hfreed.2 hfree)
  case busy =>
    intro hbusy
    rw [railAsk_of_not_free _ (mt hfreed.1 hbusy), windowNoted_rail, ← hpassed.rail]
    rfl
  case capped =>
    intro hlow hlim
    have hcaps : reviewCaps s.dev = true := by simpa [reviewCaps, hlow] using hlim
    rw [hcaps] at hcapReg ⊢
    exact ⟨(hcapReg (.inl rfl) 7).trans (railCapped_stFlags _),
      fun f hf => (hcapReg (.inr ⟨f, hf, rfl⟩) 11).trans (railCapped_flockStatus _ hf)⟩

/-! ### Steps toward the floor (R94, R98) -/

/-- The count of R94 starts again. -/
def calmRestarted (d : Dev) : Dev := d.updRail (fun r => { r with calmFrom := d.clk })

theorem railFree_calmRestarted (d : Dev) : railFree (calmRestarted d) ↔ railFree d := Iff.rfl

/-- Time passes, and a free steward asks for a step down above the floor (R94). -/
theorem railStepDown_passed (d : Dev) : ∃ e, Passed d (d.rail.calmFrom + 1000000000) e ∧
    ((railFree d ∧ railFloor d < railLevel d ∧ railStepDown d = railAsked (railLevel d - 1) (calmRestarted e)) ∨
      ((¬ railFree d ∨ railLevel d ≤ railFloor d) ∧ railStepDown d = e)) := by
  have hpassed := passed_passClk d (d.rail.calmFrom + 1000000000)
  unfold railStepDown
  generalize d.passClk (d.rail.calmFrom + 1000000000) = e at hpassed ⊢
  refine ⟨e, hpassed, ?_⟩
  simp only [railLevel_congr hpassed.regs, railFloor_congr hpassed.regs, hpassed.rail]
  by_cases h : railFree d ∧ railFloor d < railLevel d
  · obtain ⟨⟨hpg, hreq⟩, hfloor⟩ := h
    have hfree : railFree (calmRestarted e) := (railFree_calmRestarted e).2 ((railFree_congr hpassed.rail).2 ⟨hpg, hreq⟩)
    exact .inl ⟨⟨hpg, hreq⟩, hfloor, by simp [hpg, hreq, hfloor, ← calmRestarted.eq_def, railRequest_of_free _ hfree]⟩
  · refine .inr ⟨by rw [← not_lt]; exact not_and_or.1 h, if_neg fun hstep => h ?_⟩
    simp only [gt_iff_lt, Bool.and_eq_true, decide_eq_true_eq, Option.isNone_iff_eq_none] at hstep
    obtain ⟨⟨hfloor, hpg⟩, hreq⟩ := hstep
    exact ⟨⟨hpg, hreq⟩, hfloor⟩

theorem gives_railStepDown (s : State) :
    Gives .railStepDown s (fun t => t.dev.clk = max s.dev.clk (s.dev.rail.calmFrom + 1000000000) ∧
      (railFree s.dev → railFloor s.dev < railLevel s.dev →
        t.dev.rail.request = some (railLevel s.dev - 1) ∧ t.dev.rail.calmFrom = t.dev.clk) ∧
      (¬ railFree s.dev ∨ railLevel s.dev ≤ railFloor s.dev → t.dev.rail = s.dev.rail) ∧
      Leaves (fun d e => { d with regs := e.regs, rail := e.rail, ht := e.ht, clk := e.clk }) (· = Reg.RAIL_STATUS) s t) := by
  obtain ⟨e, hpassed, ⟨hfree, hfloor, hform⟩ | ⟨hstay, hform⟩⟩ := railStepDown_passed s.dev
  · have honly : RailOnly (· = Reg.RAIL_STATUS) e (railAsked (railLevel s.dev - 1) (calmRestarted e)) :=
      (railOnly_updRail _ _ _).trans (railOnly_railAsked (p := (· = Reg.RAIL_STATUS)) rfl _ _)
    refine gives_of_upd (exec_railStepDown s) hform ⟨hpassed.2, fun _ _ => ⟨rfl, rfl⟩, ?_, honly.leaves_of_passed hpassed⟩
    rintro (hbusy | hlow)
    · exact absurd hfree hbusy
    · omega
  · refine gives_of_upd (exec_railStepDown s) hform ⟨hpassed.2, fun hfree hfloor => ?_, fun _ => hpassed.rail,
      (RailOnly.refl _ _).leaves_of_passed hpassed⟩
    obtain hbusy | hlow := hstay
    · exact absurd hfree hbusy
    · omega

/-- The next step toward the twin floor is counted from here. -/
def floorStepped (d : Dev) : Dev := d.updRail (fun r => { r with stepAt := d.clk })

theorem railFree_floorStepped (d : Dev) : railFree (floorStepped d) ↔ railFree d := Iff.rfl

/-- Time passes, and below the twin floor the steward asks for a step up where no request is outstanding (R98). -/
theorem twinFloorStep_passed (d : Dev) : ∃ e, Passed d (d.rail.stepAt + 100000) e ∧ twinFloorStep d =
    if railLevel d < railFloor d ∧ d.rail.request = none then railRequest (railLevel d + 1) (floorStepped e) else e := by
  have hpassed := passed_passClk d (d.rail.stepAt + 100000)
  unfold twinFloorStep
  generalize d.passClk (d.rail.stepAt + 100000) = e at hpassed ⊢
  refine ⟨e, hpassed, ?_⟩
  simp only [railLevel_congr hpassed.regs, railFloor_congr hpassed.regs, hpassed.rail, Bool.and_eq_true, decide_eq_true_eq,
    Option.isNone_iff_eq_none]
  rfl

theorem gives_twinFloorStep (s : State) :
    Gives .twinFloorStep s (fun t => t.dev.clk = max s.dev.clk (s.dev.rail.stepAt + 100000) ∧
      (railFree s.dev → railLevel s.dev < railFloor s.dev →
        t.dev.rail.request = some (railLevel s.dev + 1) ∧ t.dev.rail.stepAt = t.dev.clk) ∧
      (¬ railFree s.dev ∨ railFloor s.dev ≤ railLevel s.dev → t.dev.rail.request = s.dev.rail.request) ∧
      Leaves (fun d e => { d with regs := e.regs, rail := e.rail, ht := e.ht, clk := e.clk }) (· = Reg.RAIL_STATUS) s t) := by
  obtain ⟨e, hpassed, hform⟩ := twinFloorStep_passed s.dev
  have hfreed : railFree (floorStepped e) ↔ railFree s.dev := (railFree_floorStepped e).trans (railFree_congr hpassed.rail)
  by_cases hstep : railLevel s.dev < railFloor s.dev ∧ s.dev.rail.request = none
  · rw [if_pos hstep] at hform
    have honly : RailOnly (· = Reg.RAIL_STATUS) e (railRequest (railLevel s.dev + 1) (floorStepped e)) :=
      (railOnly_updRail _ _ _).trans (railOnly_railRequest (p := (· = Reg.RAIL_STATUS)) rfl _ _)
    refine gives_of_upd (exec_twinFloorStep s) hform ⟨honly.clk.trans hpassed.2, ?free, ?busy, honly.leaves_of_passed hpassed⟩
    case free =>
      intro hfree _
      rw [railRequest_of_free _ (hfreed.2 hfree)]
      exact ⟨rfl, rfl⟩
    case busy =>
      rintro (hbusy | hhigh)
      · rw [railRequest_of_not_free _ (mt hfreed.1 hbusy), ← hpassed.rail]
        rfl
      · omega
  · rw [if_neg hstep] at hform
    exact gives_of_upd (exec_twinFloorStep s) hform ⟨hpassed.2, fun hfree hfloor => absurd ⟨hfloor, hfree.2⟩ hstep,
      fun _ => (congrArg Rail.request hpassed.rail :), (RailOnly.refl _ _).leaves_of_passed hpassed⟩

/-! ### A failed request (R288, R555) -/

/-- Whether the cap and the floor allow a level. -/
theorem mayAsk_iff (d : Dev) (l : Nat) : mayAsk d l = true ↔ if railLevel d < l then l ≤ railCap d else railFloor d ≤ l := by
  unfold mayAsk
  split <;> exact decide_eq_true_iff

/-- Time passes, and the request that failed is repeated where the cap and the floor allow it (R288). -/
theorem avsRetry_passed {d : Dev} {l : Nat} (h : d.rail.failed = some l) : ∃ e, Passed d (d.rail.failedAt + 1000000) e ∧
    avsRetry d = if mayAsk d l then railRequest l e else e.updRail (fun r => { r with failed := none }) := by
  have hpassed := passed_passClk d (d.rail.failedAt + 1000000)
  simp only [avsRetry, h]
  generalize d.passClk (d.rail.failedAt + 1000000) = e at hpassed ⊢
  exact ⟨e, hpassed, by rw [mayAsk_congr hpassed.regs]⟩

theorem gives_avsRetry {s : State} {l : Nat} (h : s.dev.rail.failed = some l) :
    Gives .avsRetry s (fun t => t.dev.clk = max s.dev.clk (s.dev.rail.failedAt + 1000000) ∧
      (if (if railLevel s.dev < l then l ≤ railCap s.dev else railFloor s.dev ≤ l) then
        (railFree s.dev → t.dev.rail.request = some l ∧ t.dev.bit Reg.RAIL_STATUS 10 = true) ∧ (¬ railFree s.dev → t.dev.rail = s.dev.rail)
      else t.dev.rail = { s.dev.rail with failed := none }) ∧
      Leaves (fun d e => { d with regs := e.regs, rail := e.rail, ht := e.ht, clk := e.clk }) (· = Reg.RAIL_STATUS) s t) := by
  obtain ⟨e, hpassed, hform⟩ := avsRetry_passed h
  by_cases hmay : mayAsk s.dev l = true
  · rw [if_pos hmay] at hform
    have honly := railOnly_railRequest (p := (· = Reg.RAIL_STATUS)) rfl l e
    refine gives_of_upd (exec_avsRetry s) hform ⟨honly.clk.trans hpassed.2, ?_, honly.leaves_of_passed hpassed⟩
    rw [if_pos ((mayAsk_iff s.dev l).1 hmay)]
    refine ⟨fun hfree => ?_, fun hbusy => ?_⟩
    · rw [railRequest_of_free _ ((railFree_congr hpassed.rail).2 hfree)]
      exact ⟨rfl, railAsked_bit _ _⟩
    · rw [railRequest_of_not_free _ (mt (railFree_congr hpassed.rail).1 hbusy), hpassed.rail]
  · rw [if_neg hmay] at hform
    refine gives_of_upd (exec_avsRetry s) hform ⟨hpassed.2, ?_, (railOnly_updRail _ _ _).leaves_of_passed hpassed⟩
    rw [if_neg (mt (mayAsk_iff s.dev l).2 hmay), ← hpassed.rail]
    rfl

theorem gives_avsTimeout {s : State} {l : Nat} (h : s.dev.rail.request = some l) :
    Gives .avsTimeout s (fun t => t.dev.rail.request = none ∧ t.dev.rail.failed = some l ∧ t.dev.rail.failedAt = s.dev.clk ∧
      t.dev.bit Reg.ST_FLAGS 8 = true ∧ t.dev.bit Reg.RAIL_STATUS 10 = false ∧
      Leaves (fun d e => { d with regs := e.regs, rail := e.rail }) (fun o => o = Reg.RAIL_STATUS ∨ o = Reg.ST_FLAGS) s t) := by
  have hform : avsTimeout s.dev = ((s.dev.updRail (fun r => { r with request := none, failed := some l, failedAt := s.dev.clk })).clrBit
      Reg.RAIL_STATUS 10).setBit Reg.ST_FLAGS 8 := by
    simp only [avsTimeout, h]
  refine gives_of_upd (exec_avsTimeout s) hform ⟨rfl, rfl, rfl, ?flag, ?requested, ?leaves⟩
  case flag => rw [Dev.bit_setBit _ _ _ _ (by omega)]; simp
  case requested =>
    rw [Dev.bit_setBit_ne _ _ _ (by decide), Dev.bit_clrBit _ _ _ _ (by omega) (by omega)]
    simp
  case leaves =>
    exact ((railOnly_updRail _ _ _).trans ((regsOnly_wr (.inl rfl) _ _).trans (regsOnly_wr (.inr rfl) _ _)).railOnly).leaves

/-! ### The level read back (R555) -/

/-- The steward enters the level read back. -/
def levelEntered (lvl : Nat) (d : Dev) : Dev :=
  ((d.updRail (fun r => { r with request := none })).clrBit Reg.RAIL_STATUS 10).setFld Reg.RAIL_STATUS 4 0 lvl

/-- A step of the rail counts, and a step down clears RAIL_CAPPED. -/
def stepCounted (old lvl : Nat) (d : Dev) : Dev :=
  if old < lvl then d.bump Reg.RAIL_UPS
  else if lvl < old then forN 16 (d.bump Reg.RAIL_DOWNS) (fun f d => d.clrBit (Reg.FLOCK_STATUS f) 11) else d

theorem avsDone_of_request {d : Dev} {l : Nat} (lvl : Nat) (h : d.rail.request = some l) :
    avsDone lvl d = moveCheck (stepCounted (railLevel d) lvl (levelEntered lvl d)) := by
  simp only [avsDone, h]
  rfl

/-- The registers of a counted step. -/
def StepReg (o : Nat) : Prop := o = Reg.RAIL_UPS ∨ o = Reg.RAIL_DOWNS ∨ ∃ f < 16, o = Reg.FLOCK_STATUS f

theorem regsOnly_stepCounted (old lvl : Nat) (d : Dev) : RegsOnly StepReg d (stepCounted old lvl d) := by
  unfold stepCounted
  split
  · exact regsOnly_bump (.inl rfl) d
  · split
    · exact (regsOnly_bump (.inr (.inl rfl)) d).trans (regsOnly_forN 16 _ (fun f hf e => regsOnly_wr (.inr (.inr ⟨f, hf, rfl⟩)) _ e) _)
    · exact .refl _ d

theorem railStatus_not_stepReg : ¬ StepReg Reg.RAIL_STATUS := by
  rintro (h | h | ⟨f, -, h⟩)
  · exact absurd h (by decide)
  · exact absurd h (by decide)
  · simp only [Reg.FLOCK_STATUS, Reg.RAIL_STATUS] at h; omega

theorem rd_stepCounted_up {old lvl : Nat} (h : old < lvl) (d : Dev) :
    ((stepCounted old lvl d).rd Reg.RAIL_UPS).toNat = min ((d.rd Reg.RAIL_UPS).toNat + 1) 0xFFFFFFFF := by
  rw [stepCounted, if_pos h, Dev.toNat_rd_bump]

/-- A step down counts, and every flock's RAIL_CAPPED clears. -/
theorem stepCounted_down {old lvl : Nat} (h : lvl < old) (d : Dev) :
    ((stepCounted old lvl d).rd Reg.RAIL_DOWNS).toNat = min ((d.rd Reg.RAIL_DOWNS).toNat + 1) 0xFFFFFFFF ∧
      ∀ f < 16, (stepCounted old lvl d).bit (Reg.FLOCK_STATUS f) 11 = false := by
  have hrd := rd_forN_wr flockStatus_injective (· &&& ~~~ w32 (2 ^ 11)) 16 (d.bump Reg.RAIL_DOWNS)
  rw [stepCounted, if_neg (by omega), if_pos h]
  refine ⟨?_, fun f hf => ?_⟩
  · have hother : ¬ ∃ f < 16, Reg.FLOCK_STATUS f = Reg.RAIL_DOWNS := by
      rintro ⟨f, -, hf⟩
      simp only [Reg.FLOCK_STATUS, Reg.RAIL_DOWNS] at hf
      omega
    rw [← Dev.toNat_rd_bump]
    exact congrArg BitVec.toNat ((hrd _).trans (if_neg hother))
  · refine (congrArg (bitOf · 11) ((hrd _).trans (if_pos ⟨f, hf, rfl⟩))).trans ?_
    rw [bitOf, BitVec.getLsbD_and, BitVec.getLsbD_not, w32_two_pow_bit 11 11 (by omega)]
    simp

theorem levelEntered_level {lvl : Nat} (h : lvl < 32) (d : Dev) : railLevel (levelEntered lvl d) = lvl :=
  Dev.fld_setFld_same _ _ (by omega) h

theorem levelEntered_requested (lvl : Nat) (d : Dev) : (levelEntered lvl d).bit Reg.RAIL_STATUS 10 = false := by
  rw [levelEntered, Dev.bit_setFld_outside _ _ _ (by omega) (by omega) (by omega), Dev.bit_clrBit _ _ _ _ (by omega) (by omega)]
  simp

theorem railOnly_levelEntered (lvl : Nat) (d : Dev) : RailOnly (· = Reg.RAIL_STATUS) d (levelEntered lvl d) :=
  (railOnly_updRail _ _ _).trans ((regsOnly_wr (p := (· = Reg.RAIL_STATUS)) rfl _ _).trans
    (regsOnly_wr (p := (· = Reg.RAIL_STATUS)) rfl _ _)).railOnly

theorem gives_avsVdone {s : State} {l : Nat} (h : s.dev.rail.request = some l) (lvl : Fin 26) :
    Gives (.avsVdone lvl) s (fun t => t.dev.rail.request = none ∧ railLevel t.dev = lvl.val ∧ t.dev.bit Reg.RAIL_STATUS 10 = false ∧
      (railLevel s.dev < lvl.val → (t.dev.rd Reg.RAIL_UPS).toNat = min ((s.dev.rd Reg.RAIL_UPS).toNat + 1) 0xFFFFFFFF) ∧
      (lvl.val < railLevel s.dev → (t.dev.rd Reg.RAIL_DOWNS).toNat = min ((s.dev.rd Reg.RAIL_DOWNS).toNat + 1) 0xFFFFFFFF ∧
        ∀ f < 16, t.dev.bit (Reg.FLOCK_STATUS f) 11 = false) ∧
      Leaves (fun d e => { d with regs := e.regs, rail := e.rail })
        (fun o => o = Reg.RAIL_STATUS ∨ o = Reg.RAIL_UPS ∨ o = Reg.RAIL_DOWNS ∨ o = Reg.REGIME_STATUS ∨ o = Reg.MODE ∨
          ∃ f < 16, o = Reg.FLOCK_STATUS f) s t) := by
  have hlvl : lvl.val < 32 := by omega
  have hentered := railOnly_levelEntered lvl.val s.dev
  have hcounted := regsOnly_stepCounted (railLevel s.dev) lvl.val (levelEntered lvl.val s.dev)
  have hmoved := moveOnly_moveCheck (stepCounted (railLevel s.dev) lvl.val (levelEntered lvl.val s.dev))
  have hstatus : (moveCheck (stepCounted (railLevel s.dev) lvl.val (levelEntered lvl.val s.dev))).rd Reg.RAIL_STATUS =
      (levelEntered lvl.val s.dev).rd Reg.RAIL_STATUS := (hmoved.2 _ (by decide)).trans (hcounted.2 _ railStatus_not_stepReg)
  refine gives_of_upd (exec_avsVdone lvl s) (avsDone_of_request lvl.val h) ⟨?request, ?level, ?requested, ?up, ?down, ?leaves⟩
  case request =>
    have hrequest := congrArg (fun x : Dev => x.rail.request) hmoved.1
    exact hrequest.trans (congrArg Rail.request hcounted.rail)
  case level => exact (congrArg (fld · 4 0) hstatus).trans (levelEntered_level hlvl s.dev)
  case requested => exact (congrArg (bitOf · 10) hstatus).trans (levelEntered_requested lvl.val s.dev)
  case up =>
    intro hup
    rw [hmoved.2 _ (by decide), rd_stepCounted_up hup, hentered.2 _ (by decide)]
  case down =>
    intro hdown
    obtain ⟨hcount, hclear⟩ := stepCounted_down hdown (levelEntered lvl.val s.dev)
    refine ⟨by rw [hmoved.2 _ (by decide), hcount, hentered.2 _ (by decide)], fun f hf => ?_⟩
    have hne : ¬ (Reg.FLOCK_STATUS f = Reg.REGIME_STATUS ∨ Reg.FLOCK_STATUS f = Reg.MODE) := by
      simp only [Reg.FLOCK_STATUS, Reg.REGIME_STATUS, Reg.MODE]
      omega
    exact (congrArg (bitOf · 11) (hmoved.2 _ hne)).trans (hclear f hf)
  case leaves =>
    refine (((hentered.mono fun o ho => .inl ho).trans (hcounted.mono fun o ho => ?_).railOnly).trans (hmoved.railOnly ⟨?_, ?_⟩)).leaves
    · obtain h | h | h := ho
      · exact .inr (.inl h)
      · exact .inr (.inr (.inl h))
      · exact .inr (.inr (.inr (.inr (.inr h))))
    · exact .inr (.inr (.inr (.inl rfl)))
    · exact .inr (.inr (.inr (.inr (.inl rfl))))

/-! ### O25 -/

theorem avsDone_idle {d : Dev} (lvl : Nat) (h : d.rail.request = none) : avsDone lvl d = d := by simp only [avsDone, h]
theorem avsTimeout_idle {d : Dev} (h : d.rail.request = none) : avsTimeout d = d := by simp only [avsTimeout, h]
theorem avsRetry_idle {d : Dev} (h : d.rail.failed = none) : avsRetry d = d := by simp only [avsRetry, h]

/-- Settles O25: each review and each step asks at most once, by `railAsk_of_free` and `railAsk_of_not_free`; the answers of the regulator
are entered by `avsDone_of_request` and `gives_avsTimeout`. -/
theorem railMovesOneStepAtATime : Obligations.RailMovesOneStepAtATime := by
  unfold Obligations.RailMovesOneStepAtATime
  refine ⟨?asks, fun s l h => ⟨gives_avsVdone h, gives_avsTimeout h⟩, ?idle, ?noRetry⟩
  case asks =>
    rintro s free rfl
    refine ⟨?_, gives_railStepDown s, gives_twinFloorStep s, fun l h => gives_avsRetry h⟩
    rintro want rfl
    exact gives_railReviewWindow s
  case idle =>
    exact fun s h => ⟨gives_of_upd (exec_avsTimeout s) (avsTimeout_idle h) rfl,
      fun lvl => gives_of_upd (exec_avsVdone lvl s) (avsDone_idle lvl.val h) rfl⟩
  case noRetry => exact fun s h => gives_of_upd (exec_avsRetry s) (avsRetry_idle h) rfl

end Sys2Proof.Machine

/-! PROOFS. The Tandem answer to a yoke that the device does not have (O44, refuted). -/
namespace Sys2Proof.Machine

/-! ### RUN of coprocessor 1 for a yoke number past 7 (R446) -/

/-- A number that no yoke has, at which `Reg.YOKE_STATE` gives the offset of TD_OUT 0. -/
def strayYoke : Nat := 0x38870

/-- Outputs 0 to 7 are lent, and RUN of the stray yoke, which replays the empty logs, is the vector that completes. -/
def strayRun : State := State.reset.upd (fun d =>
  ((d.wr Reg.AU_STATUS 4).auUpd (fun u => { u with tdq := [some strayYoke] })).updYk strayYoke
    (fun k => { k with tdWait := some 0, replay := some (0, 0) }))

theorem strayRun_waits : (strayRun.dev.yk strayYoke).tdWait = some 0 := congrArg YokeSt.tdWait (Dev.yk_updYk_same ..)

theorem strayRun_lends : 0 ∈ lentRows strayRun.dev := by decide +kernel

/-- With gains and inputs of 0, row 0 gives 0 (R445). -/
theorem strayRun_row :
    iw (tdY (strayRun.dev.fld Reg.TD_SHIFT 4 0) (tdAcc strayRun.dev ((List.range 64).map (fun k => strayRun.dev.rd (Reg.TD_IN k))) 0)) = 0 := by
  decide +kernel

/-- The replay ends with the answer, and STATE of the stray yoke, SOLO, overwrites bits [12:10] of TD_OUT 0. -/
theorem strayRun_tdOut : (vectorDone strayRun).dev.rd (Reg.TD_OUT 0) = 0x1000 := by decide +kernel

theorem exec_tandemVectorDone (s : State) : exec .tandemVectorDone s = .next (vectorDone s) := rfl

/-- Refutes O44 in its clause on RUN of coprocessor 1, which is stated for every number y and not for the device's eight yokes alone: at
`strayRun` the yoke that is answered has its YOKE_STATE where TD_OUT 0 lies, so the end of its replay changes the result that the clause
claims there. -/
theorem not_audioSamplesPortsAndSlicesPerform : ¬ Obligations.AudioSamplesPortsAndSlicesPerform := by
  unfold Obligations.AudioSamplesPortsAndSlicesPerform
  rintro ⟨-, -, -, -, -, -, -, hrun, -⟩
  obtain ⟨t, hexec, -, hrows, -⟩ :=
    hrun strayRun strayYoke 0 [] _ rfl (fun _ _ => rfl) rfl strayRun_waits
  have ht : vectorDone strayRun = t := Host.Outcome.next.inj ((exec_tandemVectorDone strayRun).symm.trans hexec)
  have hclaimed : t.dev.rd (Reg.TD_OUT 0) = 0 := (hrows 0 strayRun_lends).1.trans strayRun_row
  rw [← ht, strayRun_tdOut] at hclaimed
  exact absurd hclaimed (by decide)

end Sys2Proof.Machine

/-! PROOFS. What the common operations leave of the die: entries of the fault log, reads of memory, folds over units. -/
namespace Sys2Proof.Machine

-- One proof after another: proofs that wait for the kernel at once would take more threads than the check's memory holds.
set_option Elab.async false

/-! ### The die but for some of its parts and some registers -/

/-- `e` is `d` but for the parts that `g` does not take from its first argument, and for registers of `p` (as `Leaves` says it of states). -/
def Within (g : Dev → Dev → Dev) (p : Nat → Prop) (d e : Dev) : Prop := g e d = d ∧ ∀ o, ¬ p o → e.rd o = d.rd o

namespace Within

theorem refl {g : Dev → Dev → Dev} {p : Nat → Prop} (d : Dev) (hg : ∀ d, g d d = d := by exact fun _ => rfl) : Within g p d d :=
  ⟨hg d, fun _ _ => rfl⟩

theorem trans {g : Dev → Dev → Dev} {p : Nat → Prop} {d e x : Dev} (h : Within g p d e) (k : Within g p e x)
    (hg : ∀ x e d, g (g x e) d = g x d := by exact fun _ _ _ => rfl) : Within g p d x :=
  ⟨by rw [← hg x e d, k.1, h.1], fun o ho => (k.2 o ho).trans (h.2 o ho)⟩

/-- More parts, and more registers, may change. -/
theorem widen {g g' : Dev → Dev → Dev} {p q : Nat → Prop} {d e : Dev} (h : Within g p d e) (hpq : ∀ o, p o → q o)
    (hg : ∀ e d, g' (g e d) d = g' e d := by exact fun _ _ => rfl) (hr : ∀ d, g' d d = d := by exact fun _ => rfl) : Within g' q d e :=
  ⟨by rw [← hg, h.1, hr], fun o ho => h.2 o fun hp => ho (hpq o hp)⟩

theorem mono {g : Dev → Dev → Dev} {p q : Nat → Prop} {d e : Dev} (h : Within g p d e) (hpq : ∀ o, p o → q o) : Within g q d e :=
  ⟨h.1, fun o ho => h.2 o fun hp => ho (hpq o hp)⟩

theorem leaves {g : Dev → Dev → Dev} {p : Nat → Prop} {s : State} {e : Dev} (h : Within g p s.dev e) : Leaves g p s { s with dev := e } :=
  ⟨rfl, rfl, h.1, h.2⟩

theorem ite {g : Dev → Dev → Dev} {p : Nat → Prop} {d x y : Dev} {c : Prop} [Decidable c] (hx : c → Within g p d x) (hy : ¬ c → Within g p d y) :
    Within g p d (if c then x else y) := by
  split
  · exact hx ‹c›
  · exact hy ‹¬ c›

theorem foldl {β : Type} {g : Dev → Dev → Dev} {p : Nat → Prop} (l : List β) (f : Dev → β → Dev) (h : ∀ b ∈ l, ∀ d, Within g p d (f d b)) (d : Dev)
    (hr : ∀ d, g d d = d := by exact fun _ => rfl) (hg : ∀ x e d, g (g x e) d = g x d := by exact fun _ _ _ => rfl) :
    Within g p d (l.foldl f d) :=
  List.foldlRecOn (motive := Within g p d) l f (Within.refl d hr) fun e he b hb => he.trans (h b hb e) hg

theorem forN {g : Dev → Dev → Dev} {p : Nat → Prop} (n : Nat) (f : Nat → Dev → Dev) (h : ∀ i < n, ∀ d, Within g p d (f i d)) (d : Dev)
    (hr : ∀ d, g d d = d := by exact fun _ => rfl) (hg : ∀ x e d, g (g x e) d = g x d := by exact fun _ _ _ => rfl) :
    Within g p d (Machine.forN n d f) :=
  foldl (List.range n) _ (fun i hi => h i (List.mem_range.1 hi)) d hr hg

end Within

/-- Only registers of a set change, in words of `Within`. -/
theorem RegsOnly.within {g : Dev → Dev → Dev} {p : Nat → Prop} {d e : Dev} (h : RegsOnly p d e)
    (hg : ∀ e d : Dev, g { e with regs := d.regs } d = g e d := by exact fun _ _ => rfl) (hr : ∀ d, g d d = d := by exact fun _ => rfl) :
    Within g p d e :=
  Within.widen (g := fun e d => { e with regs := d.regs }) h (fun _ ho => ho) hg hr

/-- A change of a part that `g` lets change, and of no register. -/
theorem within_of_eq {g : Dev → Dev → Dev} {p : Nat → Prop} {d e : Dev} (h : g e d = d) (hr : e.regs = d.regs) : Within g p d e :=
  ⟨h, fun o _ => by rw [Dev.rd, hr, Dev.rd]⟩

/-- A change of such a part comes first. -/
theorem Within.after {g : Dev → Dev → Dev} {p : Nat → Prop} {d e x : Dev} (k : Within g p e x) (h : g e d = d) (hr : e.regs = d.regs)
    (hg : ∀ x e d, g (g x e) d = g x d := by exact fun _ _ _ => rfl) : Within g p d x :=
  (within_of_eq h hr).trans k hg

/-! ### Folds -/

/-- What the step at b makes, when the other steps of a fold over different elements keep what it needs and what it makes. -/
theorem foldl_at {σ β : Type} (P Q : σ → Prop) (f : σ → β → σ) {l : List β} (hl : l.Nodup) {b : β} (hb : b ∈ l) (s : σ) (h0 : P s)
    (hP : ∀ c ∈ l, c ≠ b → ∀ e, P e → P (f e c)) (hb' : ∀ e, P e → Q (f e b)) (hQ : ∀ c ∈ l, c ≠ b → ∀ e, Q e → Q (f e c)) : Q (l.foldl f s) := by
  induction l generalizing s with
  | nil => simp at hb
  | cons c l ih =>
    obtain ⟨hc, hl⟩ := List.nodup_cons.1 hl
    by_cases hcb : c = b
    · subst hcb
      exact List.foldlRecOn (motive := Q) l f (hb' s h0) fun e he x hx => hQ x (by simp [hx]) (fun h => hc (h ▸ hx)) e he
    · exact ih hl (by simpa [Ne.symm hcb] using hb) (f s c) (hP c (by simp) hcb s h0) (fun x hx => hP x (by simp [hx])) (fun x hx => hQ x (by simp [hx]))

end Sys2Proof.Machine

/-! PROOFS. What an entry of the fault log, a write of the keep store and a read of memory leave. -/
namespace Sys2Proof.Machine

-- One proof after another: proofs that wait for the kernel at once would take more threads than the check's memory holds.
set_option Elab.async false

/-! ### Writes of registers -/

theorem within_wr {g : Dev → Dev → Dev} {p : Nat → Prop} {o : Nat} (ho : p o) (v : Word) (d : Dev)
    (hg : ∀ e d : Dev, g { e with regs := d.regs } d = g e d := by exact fun _ _ => rfl) (hr : ∀ d, g d d = d := by exact fun _ => rfl) :
    Within g p d (d.wr o v) := (regsOnly_wr ho v d).within hg hr

theorem within_setBit {g : Dev → Dev → Dev} {p : Nat → Prop} {o : Nat} (ho : p o) (n : Nat) (d : Dev)
    (hg : ∀ e d : Dev, g { e with regs := d.regs } d = g e d := by exact fun _ _ => rfl) (hr : ∀ d, g d d = d := by exact fun _ => rfl) :
    Within g p d (d.setBit o n) := within_wr ho _ d hg hr

theorem within_clrBit {g : Dev → Dev → Dev} {p : Nat → Prop} {o : Nat} (ho : p o) (n : Nat) (d : Dev)
    (hg : ∀ e d : Dev, g { e with regs := d.regs } d = g e d := by exact fun _ _ => rfl) (hr : ∀ d, g d d = d := by exact fun _ => rfl) :
    Within g p d (d.clrBit o n) := within_wr ho _ d hg hr

theorem within_putBit {g : Dev → Dev → Dev} {p : Nat → Prop} {o : Nat} (ho : p o) (n : Nat) (b : Bool) (d : Dev)
    (hg : ∀ e d : Dev, g { e with regs := d.regs } d = g e d := by exact fun _ _ => rfl) (hr : ∀ d, g d d = d := by exact fun _ => rfl) :
    Within g p d (d.putBit o n b) := by
  cases b
  · exact within_clrBit ho n d hg hr
  · exact within_setBit ho n d hg hr

theorem within_setFld {g : Dev → Dev → Dev} {p : Nat → Prop} {o : Nat} (ho : p o) (hi lo v : Nat) (d : Dev)
    (hg : ∀ e d : Dev, g { e with regs := d.regs } d = g e d := by exact fun _ _ => rfl) (hr : ∀ d, g d d = d := by exact fun _ => rfl) :
    Within g p d (d.setFld o hi lo v) := within_wr ho _ d hg hr

theorem within_bump {g : Dev → Dev → Dev} {p : Nat → Prop} {o : Nat} (ho : p o) (d : Dev)
    (hg : ∀ e d : Dev, g { e with regs := d.regs } d = g e d := by exact fun _ _ => rfl) (hr : ∀ d, g d d = d := by exact fun _ => rfl) :
    Within g p d (d.bump o) := (regsOnly_bump ho d).within hg hr

/-! ### Changes of one part -/

theorem within_updCell {g : Dev → Dev → Dev} {p : Nat → Prop} (f k : Nat) (u : CellSt → CellSt) (d : Dev)
    (hg : ∀ e d : Dev, g { e with cells := d.cells } d = g e d := by exact fun _ _ => rfl) (hr : ∀ d, g d d = d := by exact fun _ => rfl) :
    Within g p d (d.updCell f k u) := within_of_eq ((hg (d.updCell f k u) d).symm.trans (hr d)) rfl

theorem within_updFlock {g : Dev → Dev → Dev} {p : Nat → Prop} (f : Nat) (u : FlockSt → FlockSt) (d : Dev)
    (hg : ∀ e d : Dev, g { e with flocks := d.flocks } d = g e d := by exact fun _ _ => rfl) (hr : ∀ d, g d d = d := by exact fun _ => rfl) :
    Within g p d (d.updFlock f u) := within_of_eq ((hg (d.updFlock f u) d).symm.trans (hr d)) rfl

theorem within_updHead {g : Dev → Dev → Dev} {p : Nat → Prop} (h : Nat) (u : HeadSt → HeadSt) (d : Dev)
    (hg : ∀ e d : Dev, g { e with heads := d.heads } d = g e d := by exact fun _ _ => rfl) (hr : ∀ d, g d d = d := by exact fun _ => rfl) :
    Within g p d (d.updHead h u) := within_of_eq ((hg (d.updHead h u) d).symm.trans (hr d)) rfl

theorem within_updLs {g : Dev → Dev → Dev} {p : Nat → Prop} (h : Nat) (u : LsSt → LsSt) (d : Dev)
    (hg : ∀ e d : Dev, g { e with scripts := d.scripts } d = g e d := by exact fun _ _ => rfl) (hr : ∀ d, g d d = d := by exact fun _ => rfl) :
    Within g p d (d.updLs h u) := within_of_eq ((hg (d.updLs h u) d).symm.trans (hr d)) rfl

theorem within_ldUpd {g : Dev → Dev → Dev} {p : Nat → Prop} (u : Loader → Loader) (d : Dev)
    (hg : ∀ e d : Dev, g { e with ld := d.ld } d = g e d := by exact fun _ _ => rfl) (hr : ∀ d, g d d = d := by exact fun _ => rfl) :
    Within g p d (d.ldUpd u) := within_of_eq ((hg (d.ldUpd u) d).symm.trans (hr d)) rfl

theorem within_pwUpd {g : Dev → Dev → Dev} {p : Nat → Prop} (u : PwrSt → PwrSt) (d : Dev)
    (hg : ∀ e d : Dev, g { e with pw := d.pw } d = g e d := by exact fun _ _ => rfl) (hr : ∀ d, g d d = d := by exact fun _ => rfl) :
    Within g p d (d.pwUpd u) := within_of_eq ((hg (d.pwUpd u) d).symm.trans (hr d)) rfl

/-! ### The keep store and the fault log (R286, R478, R479) -/

/-- The die with the registers and the wear counters of another. -/
def wearPart (e d : Dev) : Dev := { e with regs := d.regs, keep := { e.keep with wear := d.keep.wear } }

/-- The die with the registers, the keep store and the log's present second of another. -/
def logPart (e d : Dev) : Dev := { e with regs := d.regs, keep := d.keep, logSecond := d.logSecond, logKeys := d.logKeys }

theorem within_wearStep (k : Nat) (d : Dev) : Within wearPart LogReg d (wearStep k d) := by
  have hwear (n : Nat) : Within wearPart LogReg d (d.kp (fun x => { x with wear := Store.set (fun _ => 0) x.wear k n })) := within_of_eq rfl rfl
  unfold wearStep
  dsimp only
  split
  · exact ((hwear _).trans (within_setBit (by simp [LogReg]) _ _)).trans (within_wr (by simp [LogReg]) _ _)
  · exact hwear _

theorem within_log_wearStep (k : Nat) (d : Dev) : Within logPart LogReg d (wearStep k d) := (within_wearStep k d).widen fun _ ho => ho

/-- A write of a keep-backed register by the device. -/
theorem within_keepDevField (o : Nat) (v : Word) (d : Dev) : Within wearPart (fun x => x = o ∨ LogReg x) d (keepDevField o v d) := by
  unfold keepDevField
  split
  · exact .refl d
  · exact Within.trans (g := wearPart) (within_wr (.inl rfl) v d) ((within_wearStep _ _).mono fun _ => .inr)

theorem rd_keepDevField_same {o : Nat} (ho : ¬ LogReg o) (v : Word) (d : Dev) : (keepDevField o v d).rd o = v := by
  unfold keepDevField
  split
  next h => exact h
  next => rw [(within_wearStep _ _).2 o ho, Dev.rd_wr_same]

theorem within_keepDevWord (k : Nat) (v : Word) (d : Dev) : Within logPart LogReg d (keepDevWord k v d) := by
  unfold keepDevWord keepStoreWord
  split
  · exact .refl d
  · exact (within_log_wearStep k _).after rfl rfl

theorem within_logSecondFix (d : Dev) : Within logPart LogReg d (logSecondFix d) := by
  unfold logSecondFix
  split <;> exact within_of_eq rfl rfl

theorem within_logKeys {p : Nat → Prop} (l : List (Nat × Nat)) (d : Dev) : Within logPart p d { d with logKeys := l } := within_of_eq rfl rfl

/-- An entry of the fault log, or its loss. -/
theorem within_faultLogAt (ht cls det idx act res aux : Nat) (d : Dev) : Within logPart LogReg d (faultLogAt ht cls det idx act res aux d) := by
  unfold faultLogAt
  dsimp only
  refine (within_logSecondFix d).trans ?_
  generalize logSecondFix d = d
  split
  · exact (within_setBit (by simp [LogReg]) _ d).trans (within_bump (by simp [LogReg]) _)
  · exact (((Within.forN 4 _ (fun i _ d => within_keepDevWord _ _ d) d).trans
      ((within_keepDevField _ _ _).widen (by simp [LogReg]))).trans (within_logKeys _ _)).trans (within_setBit (by simp [LogReg]) _ _)

theorem within_faultLog (cls det idx act res aux : Nat) (d : Dev) : Within logPart LogReg d (faultLog cls det idx act res aux d) :=
  within_faultLogAt _ _ _ _ _ _ _ d

/-! ### What a read of memory notes (R457, R458, R466, R469) -/

/-- The registers below the pages of flocks. -/
abbrev InChip (o : Nat) : Prop := o < 0x100000

theorem inChip_of_logReg {o : Nat} (h : LogReg o) : InChip o := by
  obtain rfl | rfl | rfl | rfl | rfl | rfl := h <;> decide

/-- The die with what a read of memory may change of another: registers, the keep store with the fault log, the memory controller, the repairs. -/
def notePart (e d : Dev) : Dev :=
  { e with regs := d.regs, keep := d.keep, logSecond := d.logSecond, logKeys := d.logKeys, mc := d.mc, repairs := d.repairs }

theorem within_note_faultLog (cls det idx act res aux : Nat) (d : Dev) : Within notePart InChip d (faultLog cls det idx act res aux d) :=
  (within_faultLog ..).widen fun _ => inChip_of_logReg

theorem within_note_mcUpd (f : MemCtl → MemCtl) (d : Dev) : Within notePart InChip d (d.mcUpd f) := within_of_eq rfl rfl

theorem within_retireStart (p : Nat) (d : Dev) : Within notePart InChip d (retireStart p d) := by
  unfold retireStart
  split
  · split
    · dsimp only
      exact (within_note_faultLog ..).after rfl rfl
    · exact .refl d
  · split
    · exact .refl d
    · split
      · exact within_note_mcUpd _ d
      · exact ((within_setBit (by decide) _ d).trans (within_setBit (by decide) _ _)).trans (within_note_faultLog ..)

theorem within_pageCount (p : Nat) (d : Dev) : Within notePart InChip d (pageCount p d) := by
  unfold pageCount
  dsimp only
  split <;> exact .ite (fun _ => (within_note_mcUpd _ d).trans (within_retireStart p _)) (fun _ => within_note_mcUpd _ d)

theorem within_rowCount (r : Nat) (d : Dev) : Within notePart InChip d (rowCount r d) := by
  unfold rowCount rowFail
  dsimp only
  split <;> exact within_of_eq rfl rfl

theorem within_noteCorrected (w : Nat) (d : Dev) : Within notePart InChip d (noteCorrected w d) := by
  unfold noteCorrected countCorrection
  refine .trans ?_ (.ite (fun _ => within_pageCount _ _) fun _ => within_rowCount _ _)
  exact (within_setBit (by decide) _ d).trans (within_bump (by decide) _)

theorem within_noteUncorrectable (cls w : Nat) (d : Dev) : Within notePart InChip d (noteUncorrectable cls w d) := by
  unfold noteUncorrectable
  dsimp only
  refine .trans ?_ (.ite (fun _ => within_retireStart _ _) fun _ => within_note_mcUpd _ _)
  exact ((within_setBit (by decide) _ d).trans (within_bump (by decide) _)).trans ((within_wr (by decide) _ _).trans (within_note_mcUpd _ _))

/-- What a read of memory leaves: the bytes of the memories and the queue, the registers from the pages of flocks on, and the die but for
what it notes. -/
def Noted (s t : State) : Prop := SameBytes s t ∧ Within notePart InChip s.dev t.dev

theorem SameBytes.trans {s t u : State} (h : SameBytes s t) (k : SameBytes t u) : SameBytes s u := by
  obtain ⟨h1, h2, h3, h4⟩ := h
  obtain ⟨k1, k2, k3, k4⟩ := k
  exact ⟨k1.trans h1, k2.trans h2, k3.trans h3, k4.trans h4⟩

theorem sameBytes_upd (f : Dev → Dev) (s : State) : SameBytes s (s.upd f) := ⟨rfl, rfl, rfl, rfl⟩

theorem SameBytes.refl (s : State) : SameBytes s s := ⟨rfl, rfl, rfl, rfl⟩

theorem Noted.refl (s : State) : Noted s s := ⟨.refl s, .refl s.dev⟩

theorem Noted.trans {s t u : State} (h : Noted s t) (k : Noted t u) : Noted s u := ⟨h.1.trans k.1, h.2.trans k.2⟩

theorem noted_upd {f : Dev → Dev} {s : State} (h : Within notePart InChip s.dev (f s.dev)) : Noted s (s.upd f) := ⟨sameBytes_upd f s, h⟩

theorem noted_touchWord (cls w : Nat) (s : State) : Noted s (touchWord cls w s).2 := by
  unfold touchWord
  split
  · exact .refl s
  · split
    · exact .refl s
    · exact ⟨⟨rfl, rfl, rfl, rfl⟩, within_noteCorrected w s.dev⟩
    · exact ⟨⟨rfl, rfl, rfl, rfl⟩, within_noteUncorrectable cls w s.dev⟩

theorem noted_touchWords (cls n w : Nat) (s : State) : Noted s (touchWords cls n w s).2 := by
  induction n generalizing w s with
  | zero => exact .refl s
  | succ n ih => exact (noted_touchWord cls w s).trans (ih (w + 1) _)

theorem noted_memRead (cls a n : Nat) (s : State) : Noted s (memRead cls a n s).2.2 := noted_touchWords cls (wordSpan a n) (a / 32) s

theorem noted_fetch (cls a n : Nat) (s : State) : Noted s (fetch cls a n s).2 := by
  unfold fetch
  split
  · exact noted_memRead cls a n s
  · split
    · exact noted_upd (within_setBit (by decide) _ _)
    · exact .refl s

/-! ### What a write of memory leaves of the die (R411, R459, R470) -/

/-- The die with the registers and the check units of another. -/
def writePart (e d : Dev) : Dev := { e with regs := d.regs, cks := d.cks }

theorem within_ckArrive {p : Nat → Prop} (m : Nat) (b : List Byte) (nat : Bool) (d : Dev) : Within writePart p d (ckArrive m b nat d) :=
  within_of_eq rfl rfl

theorem within_snoop {p : Nat → Prop} (src : Nat) (f : Nat → Option (List Byte)) (nat : Bool) (d : Dev) : Within writePart p d (snoop src f nat d) := by
  unfold snoop
  refine .forN 8 _ (fun m _ d => .ite (fun _ => ?_) fun _ => .refl d) d
  split
  · exact within_ckArrive m _ nat d
  · exact .refl d

theorem within_snoopMem {p : Nat → Prop} (a : Nat) (b : List Byte) (d : Dev) : Within writePart p d (snoopMem a b d) := by
  unfold snoopMem
  exact .ite (fun _ => within_snoop 3 _ false d) fun _ => .refl d

/-- A word written in full may take the armed error. -/
theorem within_fullWord (w : Nat) (s : State) : Within writePart (· = Reg.ERR_INJECT_HI) s.dev (fullWord w s).dev := by
  unfold fullWord
  dsimp only
  split
  · exact within_clrBit (by rfl) 31 s.dev
  · exact .refl s.dev

/-- A write of memory leaves the other memories. -/
theorem fullWord_others (w : Nat) (s : State) : (fullWord w s).mem.tcm = s.mem.tcm ∧ (fullWord w s).mem.flash = s.mem.flash := by
  unfold fullWord
  dsimp only
  split <;> exact ⟨rfl, rfl⟩

/-- What a write of the words that a range covers whole leaves. -/
theorem fullWords_leaves (a n : Nat) (s : State) : Within writePart (· = Reg.ERR_INJECT_HI) s.dev (fullWords a n s).dev ∧
    (fullWords a n s).mem.tcm = s.mem.tcm ∧ (fullWords a n s).mem.flash = s.mem.flash := by
  unfold fullWords
  refine forN_ind (fun t : State => Within writePart (· = Reg.ERR_INJECT_HI) s.dev t.dev ∧ t.mem.tcm = s.mem.tcm ∧ t.mem.flash = s.mem.flash)
    _ _ s ⟨.refl s.dev, rfl, rfl⟩ fun i _ t ht => ?_
  obtain ⟨hdev, htcm, hflash⟩ := ht
  exact ⟨hdev.trans (within_fullWord _ t), (fullWord_others _ t).1.trans htcm, (fullWord_others _ t).2.trans hflash⟩

theorem within_memWrite (a : Nat) (b : List Byte) (s : State) : Within writePart (· = Reg.ERR_INJECT_HI) s.dev (memWrite a b s).dev :=
  (within_snoopMem a b s.dev).trans (fullWords_leaves a b.length _).1

theorem memWrite_others (a : Nat) (b : List Byte) (s : State) :
    (memWrite a b s).mem.tcm = s.mem.tcm ∧ (memWrite a b s).mem.flash = s.mem.flash ∧ (memWrite a b s).pending = s.pending :=
  ⟨(fullWords_leaves a b.length _).2.1, (fullWords_leaves a b.length _).2.2, (keeps_memWrite a b s).2⟩

/-- The bytes of memory after a write. -/
theorem byteAt_memWrite (a : Nat) (b : List Byte) (s : State) (x : Nat) :
    (memWrite a b s).byteAt x = if a ≤ x ∧ x < a + b.length then b.getD (x - a) 0 else s.byteAt x := by
  rw [State.byteAt, memWrite_byte]
  by_cases h : a ≤ x ∧ x - a < b.length
  · rw [dif_pos h, if_pos (by omega), List.getD_eq_getElem _ _ h.2]
  · rw [dif_neg h, if_neg (by omega), State.byteAt]

end Sys2Proof.Machine

/-! PROOFS. The statistics latch (O15). -/
namespace Sys2Proof.Machine

-- One proof after another: proofs that wait for the kernel at once would take more threads than the check's memory holds.
set_option Elab.async false

/-! ### Cells, flocks and heads after a change of one -/

@[simp] theorem Dev.cell_updCell_same (d : Dev) (f p : Nat) (g : CellSt → CellSt) : (d.updCell f p g).cell f p = g (d.cell f p) :=
  (Store.get_set _ d.cells _ _ _).trans (if_pos rfl)

theorem Dev.cell_updCell_ne (d : Dev) {f p f' p' : Nat} (g : CellSt → CellSt) (hp : p < 16) (hp' : p' < 16) (h : f' = f → p' ≠ p) :
    (d.updCell f p g).cell f' p' = d.cell f' p' := by
  refine (Store.get_set _ d.cells _ _ _).trans (if_neg fun hk => ?_)
  unfold cellKey at hk
  have hff : f' = f := by omega
  exact h hff (by omega)

@[simp] theorem Dev.flock_updFlock_same (d : Dev) (f : Nat) (g : FlockSt → FlockSt) : (d.updFlock f g).flock f = g (d.flock f) :=
  (Store.get_set _ d.flocks _ _ _).trans (if_pos rfl)

theorem Dev.flock_updFlock_ne (d : Dev) {f f' : Nat} (g : FlockSt → FlockSt) (h : f' ≠ f) : (d.updFlock f g).flock f' = d.flock f' :=
  (Store.get_set _ d.flocks _ _ _).trans (if_neg h)

theorem Dev.head_updHead (d : Dev) (h : Nat) (g : HeadSt → HeadSt) (k : Nat) :
    (d.updHead h g).head k = if k = h then g (d.head h) else d.head k := Store.get_set _ d.heads _ _ _

/-- A loop that writes a word of its own to each register of a family. -/
theorem rd_forN_wr_index {o : Nat → Nat} (ho : Function.Injective o) (v : Nat → Word) {n i : Nat} (hi : i < n) (d : Dev) :
    (forN n d (fun i d => d.wr (o i) (v i))).rd (o i) = v i :=
  foldl_at (fun _ => True) (fun e : Dev => e.rd (o i) = v i) _ List.nodup_range (List.mem_range.2 hi) d trivial (fun _ _ _ _ _ => trivial)
    (fun e _ => Dev.rd_wr_same e _ _) fun _ _ hj e he => (Dev.rd_wr_ne e _ fun h => hj (ho h).symm).trans he

/-! ### The statistics of a post (R90) -/

/-- The statistics of a post: its latched registers, and the counts of the present frame. -/
def postStats (d : Dev) (f p : Nat) : List Word × Word × Nat × Nat × Bool :=
  ((List.range 8).map (fun b => d.rd (Reg.CELL_SLACK_HIST f p b)), d.rd (Reg.CELL_SLACK_MIN f p), (d.cell f p).slackMin, (d.cell f p).missed,
    (d.cell f p).low)

/-- What the latch makes of the statistics of a post whose cell was c. -/
def statsLatched (c : CellSt) : List Word × Word × Nat × Nat × Bool :=
  ((List.range 8).map (fun b => w32 (c.hist.getD b 0)), w32 (c.slackMin + c.missed * 0x10000), 0xFFFF, 0, false)

/-- The registers of a post that hold its latched statistics. -/
def InStats (f p o : Nat) : Prop := cellOff f p 0xC ≤ o ∧ o < cellOff f p 0x40

theorem postStats_congr {d e : Dev} {f p : Nat} (hr : ∀ o, InStats f p o → e.rd o = d.rd o) (hm : (e.cell f p).slackMin = (d.cell f p).slackMin)
    (hmiss : (e.cell f p).missed = (d.cell f p).missed) (hlow : (e.cell f p).low = (d.cell f p).low) : postStats e f p = postStats d f p := by
  have hhist : ∀ b ∈ List.range 8, e.rd (Reg.CELL_SLACK_HIST f p b) = d.rd (Reg.CELL_SLACK_HIST f p b) := fun b hb => by
    have := List.mem_range.1 hb
    exact hr _ ⟨by unfold cellOff Reg.CELL_SLACK_HIST; omega, by unfold cellOff Reg.CELL_SLACK_HIST; omega⟩
  have hslack := hr (Reg.CELL_SLACK_MIN f p) ⟨by unfold cellOff Reg.CELL_SLACK_MIN; omega, by unfold cellOff Reg.CELL_SLACK_MIN; omega⟩
  rw [postStats, List.map_congr_left hhist, hslack, hm, hmiss, hlow, postStats]

/-- The words that the statement of the latch asks for. -/
theorem postStats_eq_latched {d : Dev} {f p : Nat} {c : CellSt} (h : postStats d f p = statsLatched c) :
    (∀ b < 8, d.rd (Reg.CELL_SLACK_HIST f p b) = w32 (c.hist.getD b 0)) ∧
      d.rd (Reg.CELL_SLACK_MIN f p) = w32 (c.slackMin + c.missed * 0x10000) ∧
      (d.cell f p).slackMin = 0xFFFF ∧ (d.cell f p).missed = 0 ∧ (d.cell f p).low = false := by
  simp only [postStats, statsLatched, Prod.mk.injEq, List.map_inj_left, List.mem_range] at h
  exact h

/-! ### The latch of a post -/

/-- The die with the registers and the rail control of another. -/
def railPart (e d : Dev) : Dev := { e with regs := d.regs, rail := d.rail }

theorem within_railDisturb {p : Nat → Prop} (d : Dev) : Within railPart p d (railDisturb d) := within_of_eq rfl rfl

theorem Within.cell_of_railPart {p : Nat → Prop} {d e : Dev} (h : Within railPart p d e) (f k : Nat) : e.cell f k = d.cell f k :=
  (congrArg (fun x : Dev => x.cell f k) h.1 :)

/-- The slack of the frame is latched. -/
def latchSlack (f p : Nat) (c : CellSt) (d : Dev) : Dev :=
  forN 8 (d.wr (Reg.CELL_SLACK_MIN f p) (w32 (c.slackMin + c.missed * 0x10000)))
    (fun b d => d.wr (Reg.CELL_SLACK_HIST f p b) (w32 (c.hist.getD b 0)))

/-- The counts of a layer are latched. -/
def latchLayer (f p : Nat) (c : CellSt) (d : Dev) (l : Nat) : Dev :=
  let y := c.layer l
  let o := l * 0xF00
  let d := if kindOf d f p ≤ 2 then d.wr (cellOff f p (0x17C + o)) (w32 (min 0xFFFFFFFF y.fills)) else d
  if kindOf d f p = 2 then
    let d := d.wr (cellOff f p (0x180 + o)) (w32 (y.selMax + y.ovfLines * 0x10000))
    let d := d.wr (cellOff f p (0x184 + o)) (w32 y.demand)
    d.wr (cellOff f p (0x188 + o)) (match y.ovfFirst with | some (n, i) => w32 (n + i * 0x10000 + 0x80000000) | none => 0)
  else d

/-- A cell at the start of a frame's statistics. -/
def statsFresh (c : CellSt) : CellSt :=
  let fresh (y : LayerSt) : LayerSt := { y with fills := 0, selMax := 0, ovfLines := 0, demand := 0, ovfFirst := none, pairs := [] }
  { c with slackMin := 0xFFFF, missed := 0, hist := [0, 0, 0, 0, 0, 0, 0, 0], low := false, l0 := fresh c.l0, l1 := fresh c.l1 }

/-- The registers of a post with cell c are latched; low slack disturbs the rail. -/
def latchRegs (f p : Nat) (c : CellSt) (d : Dev) : Dev :=
  let d := latchSlack f p c d
  let d := if kindOf d f p ≠ 0 && c.slackMin < 2 * d.fld (Reg.SLACK_FLOOR f) 15 0 then railDisturb d else d
  (activeLayers d f p).foldl (latchLayer f p c) d

/-- The latch of a post, with its parts named. -/
theorem latchPost_eq (f p : Nat) (d : Dev) : latchPost f p d = (latchRegs f p (d.cell f p) d).updCell f p statsFresh := rfl

theorem lt_two_of_activeLayers {d : Dev} {f p l : Nat} (h : l ∈ activeLayers d f p) : l < 2 := by
  unfold activeLayers at h
  split at h
  · simp at h
  · split at h <;> simp at h <;> omega

theorem within_latchSlack (f p : Nat) (c : CellSt) (d : Dev) : Within railPart (InStats f p) d (latchSlack f p c d) := by
  refine (within_wr ?_ _ d).trans (.forN 8 _ (fun b hb e => within_wr ?_ _ e) _)
  · unfold InStats cellOff Reg.CELL_SLACK_MIN; omega
  · unfold InStats cellOff Reg.CELL_SLACK_HIST; omega

/-- The counts of the layers lie past the slack statistics of the page. -/
theorem within_latchLayer (f p : Nat) (c : CellSt) (d : Dev) {l : Nat} (hl : l < 2) :
    Within railPart (fun o => InCell f p o ∧ ¬ InStats f p o) d (latchLayer f p c d l) := by
  have hin (o : Nat) (h1 : 0x40 ≤ o) (h2 : o < 0x10000) : InCell f p (cellOff f p o) ∧ ¬ InStats f p (cellOff f p o) := by
    unfold InCell InStats cellOff; omega
  unfold latchLayer
  dsimp only
  refine .trans (.ite (fun _ => within_wr (hin (0x17C + l * 0xF00) (by omega) (by omega)) _ d) fun _ => .refl d) (.ite (fun _ => ?_) fun _ => .refl _)
  exact ((within_wr (hin (0x180 + l * 0xF00) (by omega) (by omega)) _ _).trans (within_wr (hin (0x184 + l * 0xF00) (by omega) (by omega)) _ _)).trans
    (within_wr (hin (0x188 + l * 0xF00) (by omega) (by omega)) _ _)

theorem rd_latchSlack_min (f p : Nat) (c : CellSt) (d : Dev) :
    (latchSlack f p c d).rd (Reg.CELL_SLACK_MIN f p) = w32 (c.slackMin + c.missed * 0x10000) := by
  unfold latchSlack
  have hhist := Within.forN (g := railPart) (p := fun o => ∃ b, o = Reg.CELL_SLACK_HIST f p b) 8
    (fun b d => d.wr (Reg.CELL_SLACK_HIST f p b) (w32 (c.hist.getD b 0))) (fun b _ e => within_wr ⟨b, rfl⟩ _ e)
  refine ((hhist _).2 _ ?_).trans (Dev.rd_wr_same d _ _)
  rintro ⟨b, hb⟩
  unfold Reg.CELL_SLACK_MIN Reg.CELL_SLACK_HIST at hb
  omega

theorem rd_latchSlack_hist (f p : Nat) (c : CellSt) (d : Dev) {b : Nat} (hb : b < 8) :
    (latchSlack f p c d).rd (Reg.CELL_SLACK_HIST f p b) = w32 (c.hist.getD b 0) :=
  rd_forN_wr_index (o := Reg.CELL_SLACK_HIST f p) (fun i j h => by unfold Reg.CELL_SLACK_HIST at h; omega) _ hb _

/-- After the slack is latched the registers that hold it stay. -/
theorem latchRegs_after_slack (f p : Nat) (c : CellSt) (d : Dev) :
    Within railPart (fun o => InCell f p o ∧ ¬ InStats f p o) (latchSlack f p c d) (latchRegs f p c d) := by
  unfold latchRegs
  dsimp only
  refine .trans ?_ (.foldl _ (latchLayer f p c) (fun l hl e => within_latchLayer f p c e (lt_two_of_activeLayers hl)) _)
  exact .ite (fun _ => within_railDisturb _) fun _ => .refl _

theorem within_latchRegs (f p : Nat) (c : CellSt) (d : Dev) : Within railPart (InCell f p) d (latchRegs f p c d) := by
  refine ((within_latchSlack f p c d).mono fun o ho => ?_).trans ((latchRegs_after_slack f p c d).mono fun _ h => h.1)
  unfold InStats at ho
  unfold InCell
  unfold cellOff at *
  omega

/-- The die with the registers, the rail control and the cells of another. -/
def latchPart (e d : Dev) : Dev := { e with regs := d.regs, rail := d.rail, cells := d.cells }

theorem within_latchPost (f p : Nat) (d : Dev) : Within latchPart (InCell f p) d (latchPost f p d) := by
  rw [latchPost_eq]
  exact .trans ((within_latchRegs f p _ d).widen fun _ h => h) (within_updCell f p statsFresh _)

theorem cell_latchPost_ne {f p f' p' : Nat} (hp : p < 16) (hp' : p' < 16) (h : f' = f → p' ≠ p) (d : Dev) :
    (latchPost f p d).cell f' p' = d.cell f' p' := by
  rw [latchPost_eq, Dev.cell_updCell_ne _ _ hp hp' h, (within_latchRegs f p _ d).cell_of_railPart]

theorem postStats_latchPost (f p : Nat) (d : Dev) : postStats (latchPost f p d) f p = statsLatched (d.cell f p) := by
  have hregs (o : Nat) (ho : InStats f p o) : (latchPost f p d).rd o = (latchSlack f p (d.cell f p) d).rd o := by
    rw [latchPost_eq, Dev.updCell_rd, (latchRegs_after_slack f p _ d).2 o fun h => h.2 ho]
  have hhist (b : Nat) (hb : b ∈ List.range 8) :
      (latchPost f p d).rd (Reg.CELL_SLACK_HIST f p b) = w32 ((d.cell f p).hist.getD b 0) := by
    have hb := List.mem_range.1 hb
    rw [hregs _ (by unfold InStats cellOff Reg.CELL_SLACK_HIST; omega), rd_latchSlack_hist f p _ d hb]
  have hmin : (latchPost f p d).rd (Reg.CELL_SLACK_MIN f p) = w32 ((d.cell f p).slackMin + (d.cell f p).missed * 0x10000) := by
    rw [hregs _ (by unfold InStats cellOff Reg.CELL_SLACK_MIN; omega), rd_latchSlack_min]
  rw [postStats, List.map_congr_left hhist, hmin, latchPost_eq, Dev.cell_updCell_same]
  simp only [statsFresh, statsLatched]

/-! ### The latch of the flocks of a head -/

/-- The statistics of post p of flock f are those of cell c, which is still there: what the latches of other posts keep. -/
def PostKept (f p : Nat) (d e : Dev) : Prop := e.cell f p = d.cell f p ∧ postStats e f p = postStats d f p

theorem PostKept.refl (f p : Nat) (d : Dev) : PostKept f p d d := ⟨rfl, rfl⟩

theorem PostKept.trans {f p : Nat} {d e x : Dev} (h : PostKept f p d e) (k : PostKept f p e x) : PostKept f p d x :=
  ⟨k.1.trans h.1, k.2.trans h.2⟩

theorem PostKept.of_regs {f p : Nat} {d e : Dev} (hc : e.cell f p = d.cell f p) (hr : ∀ o, InStats f p o → e.rd o = d.rd o) : PostKept f p d e :=
  ⟨hc, postStats_congr hr (by rw [hc]) (by rw [hc]) (by rw [hc])⟩

theorem postKept_latchPost_ne {f p f' p' : Nat} (hp : p < 8) (hp' : p' < 8) (h : f' = f → p' ≠ p) (d : Dev) :
    PostKept f p d (latchPost f' p' d) := by
  refine .of_regs (cell_latchPost_ne (by omega) (by omega) (fun hf hpp => h hf.symm hpp.symm) d) fun o ho => (within_latchPost f' p' d).2 o fun hin => ?_
  unfold InStats at ho
  unfold InCell at hin
  unfold cellOff at *
  by_cases hf : f' = f
  · have := h hf
    omega
  · omega

/-- The part of a flock's latch that follows those of its posts. -/
def latchFlockEnd (f : Nat) (d : Dev) : Dev :=
  let d := d.wr (Reg.FLOCK_SLACK_MIN f) (w32 (flockMin d f))
  let shadow := d.fld (Reg.FLOCK_STATUS f) 15 12
  d.updFlock f (fun x =>
    if x.mismatch then { x with probing := true }
    else if shadow < 8 && (x.rove || x.want.contains shadow) then
      { x with rove := false, want := x.want.erase shadow, handoff := some shadow }
    else x)

theorem latchFlock_eq (f : Nat) (d : Dev) : latchFlock f d = latchFlockEnd f ((List.range 8).foldl (fun d p => latchPost f p d) d) := rfl

/-- The die with the registers and the flocks of another. -/
def flockPart (e d : Dev) : Dev := { e with regs := d.regs, flocks := d.flocks }

theorem Within.cell_of_flockPart {p : Nat → Prop} {d e : Dev} (h : Within flockPart p d e) (f k : Nat) : e.cell f k = d.cell f k :=
  (congrArg (fun x : Dev => x.cell f k) h.1 :)
theorem Within.heads_of_flockPart {p : Nat → Prop} {d e : Dev} (h : Within flockPart p d e) : e.heads = d.heads := (congrArg Dev.heads h.1 :)

theorem within_latchFlockEnd (f : Nat) (d : Dev) : Within flockPart (· = Reg.FLOCK_SLACK_MIN f) d (latchFlockEnd f d) := by
  unfold latchFlockEnd
  dsimp only
  exact (within_wr (by rfl) _ d).trans (within_updFlock f _ _)

theorem postKept_latchFlockEnd (f f' : Nat) {p : Nat} (hp : p < 8) (d : Dev) : PostKept f p d (latchFlockEnd f' d) := by
  refine .of_regs ((within_latchFlockEnd f' d).cell_of_flockPart f p) fun o ho => (within_latchFlockEnd f' d).2 o fun hin => ?_
  unfold InStats cellOff at ho
  unfold Reg.FLOCK_SLACK_MIN at hin
  omega

theorem postKept_latchFlock_ne {f p f' : Nat} (hp : p < 8) (h : f' ≠ f) (d : Dev) : PostKept f p d (latchFlock f' d) := by
  rw [latchFlock_eq]
  refine .trans ?_ (postKept_latchFlockEnd f f' hp _)
  exact List.foldlRecOn (motive := PostKept f p d) (List.range 8) (fun d p => latchPost f' p d) (.refl f p d) fun e he p' hp' =>
    he.trans (postKept_latchPost_ne hp (List.mem_range.1 hp') (fun hf => absurd hf h) e)

theorem postStats_latchFlock (f : Nat) {p : Nat} (hp : p < 8) (d : Dev) : postStats (latchFlock f d) f p = statsLatched (d.cell f p) := by
  have hposts := foldl_at (fun e : Dev => e.cell f p = d.cell f p) (fun e => postStats e f p = statsLatched (d.cell f p)) (fun d p => latchPost f p d)
    List.nodup_range (List.mem_range.2 hp) d rfl
    (fun p' hp' hne e he => (postKept_latchPost_ne hp (List.mem_range.1 hp') (fun _ => hne) e).1.trans he)
    (fun e he => (postStats_latchPost f p e).trans (by rw [he]))
    (fun p' hp' hne e he => (postKept_latchPost_ne hp (List.mem_range.1 hp') (fun _ => hne) e).2.trans he)
  rw [latchFlock_eq]
  exact (postKept_latchFlockEnd f f hp _).2.trans hposts

theorem Within.heads_of_latchPart {p : Nat → Prop} {d e : Dev} (h : Within latchPart p d e) : e.heads = d.heads := (congrArg Dev.heads h.1 :)

/-- The latch leaves the heads as they are. -/
theorem heads_latchFlock (f : Nat) (d : Dev) : (latchFlock f d).heads = d.heads := by
  rw [latchFlock_eq, (within_latchFlockEnd f _).heads_of_flockPart]
  exact (Within.foldl (p := fun _ => True) (List.range 8) (fun d p => latchPost f p d)
    (fun p _ d => (within_latchPost f p d).mono fun _ _ => trivial) d).heads_of_latchPart

theorem mem_flocksOf {d : Dev} {h f : Nat} : f ∈ flocksOf d h ↔ f < 16 ∧ flockHead d f = h := by simp [flocksOf]

theorem nodup_flocksOf (d : Dev) (h : Nat) : (flocksOf d h).Nodup := List.nodup_range.filter _

/-- The posts of a flock of the head that is latched have their statistics. -/
theorem postStats_latchFlocks {d : Dev} {l : List Nat} (hl : l.Nodup) {f p : Nat} (hf : f ∈ l) (hp : p < 8) :
    postStats (l.foldl (fun d f => latchFlock f d) d) f p = statsLatched (d.cell f p) :=
  foldl_at (fun e : Dev => e.cell f p = d.cell f p) (fun e => postStats e f p = statsLatched (d.cell f p)) (fun d f => latchFlock f d) hl hf d rfl
    (fun _ _ hne e he => (postKept_latchFlock_ne hp hne e).1.trans he)
    (fun e he => (postStats_latchFlock f hp e).trans (by rw [he]))
    (fun _ _ hne e he => (postKept_latchFlock_ne hp hne e).2.trans he)

theorem heads_latchFlocks (l : List Nat) (d : Dev) : (l.foldl (fun d f => latchFlock f d) d).heads = d.heads :=
  List.foldlRecOn (motive := fun e : Dev => e.heads = d.heads) l _ rfl fun e he f _ => (heads_latchFlock f e).trans he

end Sys2Proof.Machine

/-! PROOFS. What follows the latch of a head's posts (O15). -/
namespace Sys2Proof.Machine

-- One proof after another: proofs that wait for the kernel at once would take more threads than the check's memory holds.
set_option Elab.async false

/-! ### What follows the latch: the copy of sprite tables, and the end of the active lines (R133, R212) -/

/-- The latched statistics stay, and so does the mark that the head has latched. -/
def StatsKept (d e : Dev) : Prop :=
  (∀ h, (e.head h).latched = (d.head h).latched) ∧ ∀ f < 16, ∀ p < 8, postStats e f p = postStats d f p

theorem StatsKept.refl (d : Dev) : StatsKept d d := ⟨fun _ => rfl, fun _ _ _ _ => rfl⟩

theorem StatsKept.trans {d e x : Dev} (h : StatsKept d e) (k : StatsKept e x) : StatsKept d x :=
  ⟨fun n => (k.1 n).trans (h.1 n), fun f hf p hp => (k.2 f hf p hp).trans (h.2 f hf p hp)⟩

theorem not_inStats_of_inChip {f p o : Nat} (h : InChip o) : ¬ InStats f p o := by
  unfold InStats cellOff
  unfold InChip at h
  omega

theorem statsKept_of_notePart {d e : Dev} (h : Within notePart InChip d e) : StatsKept d e := by
  have hheads (k : Nat) : e.head k = d.head k := (congrArg (fun x : Dev => x.head k) h.1 :)
  have hcell (f p : Nat) : e.cell f p = d.cell f p := (congrArg (fun x : Dev => x.cell f p) h.1 :)
  exact ⟨fun k => by rw [hheads], fun f _ p _ => (PostKept.of_regs (hcell f p) fun o ho => h.2 o fun hi => not_inStats_of_inChip hi ho).2⟩

theorem statsKept_of_regs {d e : Dev} {p : Nat → Prop} (h : RegsOnly p d e) (hp : ∀ f k, k < 8 → ∀ o, p o → ¬ InStats f k o) : StatsKept d e := by
  have hheads (k : Nat) : e.head k = d.head k := (congrArg (fun x : Dev => x.head k) h.1 :)
  have hcell (f p : Nat) : e.cell f p = d.cell f p := (congrArg (fun x : Dev => x.cell f p) h.1 :)
  exact ⟨fun k => by rw [hheads], fun f _ k hk => (PostKept.of_regs (hcell f k) fun o ho => h.2 o fun hi => hp f k hk o hi ho).2⟩

/-- The state after a copy of sprite tables: the bytes of memory, the latched statistics. -/
def TablesOnly (s t : State) : Prop := SameBytes s t ∧ StatsKept s.dev t.dev

theorem TablesOnly.refl (s : State) : TablesOnly s s := ⟨.refl s, .refl s.dev⟩

theorem TablesOnly.trans {s t u : State} (h : TablesOnly s t) (k : TablesOnly t u) : TablesOnly s u := ⟨h.1.trans k.1, h.2.trans k.2⟩

theorem tablesOnly_upd {f : Dev → Dev} {s : State} (h : StatsKept s.dev (f s.dev)) : TablesOnly s (s.upd f) := ⟨sameBytes_upd f s, h⟩

theorem statsKept_sprStatus (f p l n : Nat) (d : Dev) : StatsKept d (d.setBit (Reg.SPR_STATUS f p l) n) := by
  refine statsKept_of_regs (p := (· = Reg.SPR_STATUS f p l)) (regsOnly_wr (by rfl) _ d) fun f' k hk o ho => ?_
  subst ho
  unfold InStats cellOff Reg.SPR_STATUS
  omega

theorem statsKept_poisonCount (f p l : Nat) (d : Dev) : StatsKept d (d.bump (Reg.POISON_COUNT f p l)) := by
  refine statsKept_of_regs (p := (· = Reg.POISON_COUNT f p l)) (regsOnly_bump (by rfl) d) fun f' k hk o ho => ?_
  subst ho
  unfold InStats cellOff Reg.POISON_COUNT
  omega

theorem tablesOnly_fetch (cls a n : Nat) (s : State) : TablesOnly s (fetch cls a n s).2 :=
  ⟨(noted_fetch cls a n s).1, statsKept_of_notePart (noted_fetch cls a n s).2⟩

/-- A result with a state after a copy. (A name of its own: the kernel would reduce a bare second component.) -/
def TablesOnlySnd {α : Type} (s : State) (r : α × State) : Prop := TablesOnly s r.2

/-- `copyEntry` is unfolded as a function: at its arguments the kernel would compute the address of the entry. -/
theorem tablesOnlySnd_copyEntry (f p l i : Nat) (s : State) : TablesOnlySnd s (copyEntry f p l i s) := by
  suffices h : ∀ r, r = copyEntry f p l i s → TablesOnlySnd s r from h _ rfl
  intro r hr
  have hdef : copyEntry = copyEntry := rfl
  conv at hdef => rhs; delta copyEntry
  rw [hdef] at hr
  beta_reduce at hr
  lift_lets at hr
  extract_lets a at hr
  split at hr
  next found t heq =>
    have hfetch : TablesOnly s t := by simpa only [heq] using tablesOnly_fetch 0 a 16 s
    subst hr
    refine TablesOnly.trans (s := s) hfetch ?_
    cases found with
    | data b =>
      dsimp only
      split
      · refine tablesOnly_upd ?_
        exact statsKept_sprStatus f p l 3 t.dev
      · exact .refl t
    | poison b =>
      dsimp only
      refine tablesOnly_upd ?_
      exact ((statsKept_sprStatus f p l 1 t.dev).trans (statsKept_poisonCount f p l _))
    | fail =>
      dsimp only
      refine tablesOnly_upd ?_
      exact (statsKept_sprStatus f p l 0 t.dev)

/-- A change of the layers of a cell leaves its statistics. -/
theorem statsKept_updLayer (f : Nat) {p : Nat} (hp : p < 8) (l : Nat) (g : LayerSt → LayerSt) (d : Dev) : StatsKept d (d.updLayer f p l g) := by
  refine ⟨fun _ => rfl, fun f' _ k hk => ?_⟩
  have hlayer (c : CellSt) : (c.updLayer l g).slackMin = c.slackMin ∧ (c.updLayer l g).missed = c.missed ∧ (c.updLayer l g).low = c.low := by
    unfold CellSt.updLayer
    split <;> exact ⟨rfl, rfl, rfl⟩
  unfold Dev.updLayer
  by_cases h : f' = f ∧ k = p
  · obtain ⟨rfl, rfl⟩ := h
    have hc := hlayer (d.cell f' k)
    refine postStats_congr (fun _ _ => rfl) ?_ ?_ ?_ <;> rw [Dev.cell_updCell_same]
    · exact hc.1
    · exact hc.2.1
    · exact hc.2.2
  · exact (PostKept.of_regs (Dev.cell_updCell_ne d _ (by omega) (by omega) fun hf hk => h ⟨hf, hk⟩) fun _ _ => rfl).2

theorem tablesOnly_copyTable (f : Nat) {p : Nat} (hp : p < 8) (l : Nat) (s : State) : TablesOnly s (copyTable f p l s) := by
  suffices h : ∀ t, t = copyTable f p l s → TablesOnly s t from h _ rfl
  intro t ht
  have hdef : copyTable = copyTable := rfl
  conv at hdef => rhs; delta copyTable
  rw [hdef] at ht
  beta_reduce at ht
  split at ht
  next es u heq =>
    have hcopies : TablesOnlySnd s (es, u) := by
      rw [← heq]
      refine forN_ind (TablesOnlySnd s) _ _ _ (TablesOnly.refl s) fun i _ r hr => ?_
      split
      next e v hentry =>
        have hstep := tablesOnlySnd_copyEntry f p l i r.2
        rw [hentry] at hstep
        exact TablesOnly.trans hr hstep
    subst ht
    exact TablesOnly.trans hcopies (tablesOnly_upd (statsKept_updLayer f hp l _ _))

/-- The copies for one post. -/
theorem tablesOnly_copyPost (f : Nat) {p : Nat} (hp : p < 8) (l : List Nat) (c : Prop) [Decidable c] (s : State) :
    TablesOnly s (if c then l.foldl (fun s l => copyTable f p l s) s else s) := by
  split
  · exact List.foldlRecOn (motive := TablesOnly s) l _ (.refl s) fun t ht l _ => ht.trans (tablesOnly_copyTable f hp l t)
  · exact .refl s

theorem tablesOnly_copyTables (h : Nat) (s : State) : TablesOnly s (copyTables h s) := by
  unfold copyTables
  exact List.foldlRecOn (motive := TablesOnly s) _ _ (.refl s) fun t ht f _ =>
    List.foldlRecOn (motive := TablesOnly s) _ _ ht fun t ht p hp => ht.trans (tablesOnly_copyPost f (List.mem_range.1 hp) _ _ t)

/-! ### A head that stops after the latch (R180, R212, R214) -/

/-- The die with the registers, the heads and the scripts of another. -/
def headPart (e d : Dev) : Dev := { e with regs := d.regs, heads := d.heads, scripts := d.scripts }

/-- What a head that stops leaves: all but the pages of heads and what heads and scripts carry, and the mark of the latch. -/
def StopOnly (d e : Dev) : Prop := Within headPart InHeads d e ∧ ∀ h, (e.head h).latched = (d.head h).latched

theorem StopOnly.refl (d : Dev) : StopOnly d d := ⟨.refl d, fun _ => rfl⟩

theorem StopOnly.trans {d e x : Dev} (h : StopOnly d e) (k : StopOnly e x) : StopOnly d x := ⟨h.1.trans k.1, fun n => (k.2 n).trans (h.2 n)⟩

theorem StopOnly.statsKept {d e : Dev} (h : StopOnly d e) : StatsKept d e := by
  have hcell (f p : Nat) : e.cell f p = d.cell f p := (congrArg (fun x : Dev => x.cell f p) h.1.1 :)
  refine ⟨h.2, fun f hf p hp => (PostKept.of_regs (hcell f p) fun o ho => h.1.2 o fun hi => ?_).2⟩
  unfold InStats cellOff at ho
  unfold InHeads at hi
  omega

theorem stopOnly_wr {o : Nat} (ho : InHeads o) (v : Word) (d : Dev) : StopOnly d (d.wr o v) := ⟨within_wr ho v d, fun _ => rfl⟩

theorem stopOnly_updLs (h : Nat) (g : LsSt → LsSt) (d : Dev) : StopOnly d (d.updLs h g) := ⟨within_updLs h g d, fun _ => rfl⟩

theorem stopOnly_updHead (h : Nat) {g : HeadSt → HeadSt} (hg : ∀ x, (g x).latched = x.latched) (d : Dev) : StopOnly d (d.updHead h g) := by
  refine ⟨within_updHead h g d, fun k => ?_⟩
  rw [Dev.head_updHead]
  split
  · next hk => rw [hg, hk]
  · rfl

theorem stopOnly_stopScript {h : Nat} (hh : h < 8) (d : Dev) : StopOnly d (stopScript h d) := by
  have hbank : InHeads (Reg.LS_BANK h) := by unfold InHeads Reg.LS_BANK; omega
  have hpos : InHeads (Reg.LS_POS h) := by unfold InHeads Reg.LS_POS; omega
  unfold stopScript lsEnd lsPos
  dsimp only
  refine .trans ?_ (stopOnly_wr hpos _ _)
  exact ((stopOnly_wr hbank _ d).trans (stopOnly_updLs h _ _)).trans (stopOnly_updLs h _ _)

theorem stopOnly_phyDown {h : Nat} (hh : h < 8) (d : Dev) : StopOnly d (phyDown h d) := by
  have hphy : InHeads (Reg.PHY_STATUS h) := by unfold InHeads Reg.PHY_STATUS; omega
  have hstatus : InHeads (Reg.HEAD_STATUS h) := by unfold InHeads Reg.HEAD_STATUS; omega
  unfold phyDown
  refine .trans ?_ (stopOnly_updHead h (by intro x; rfl) _)
  exact (stopOnly_wr hphy _ d).trans (stopOnly_wr hstatus _ _)

theorem stopOnly_enterStopOne {h : Nat} (hh : h < 8) (standby : Bool) (d : Dev) : StopOnly d (enterStopOne h standby d) := by
  have hflags : InHeads (Reg.HEAD_FLAGS h) := by unfold InHeads Reg.HEAD_FLAGS; omega
  have hstatus : InHeads (Reg.HEAD_STATUS h) := by unfold InHeads Reg.HEAD_STATUS; omega
  have hstopped (n : Nat) : StopOnly d (((setHeadState h n (stopScript h d)).setBit (Reg.HEAD_FLAGS h) 3).updHead h (fun x =>
      { x with stop := 0, reading := false, view := [], sls := [], mid := [], late := [] })) := by
    refine .trans ?_ (stopOnly_updHead h (by intro x; rfl) _)
    refine .trans (stopOnly_stopScript hh d) (.trans ?_ (stopOnly_wr hflags _ _))
    exact stopOnly_wr hstatus _ _
  unfold enterStopOne
  dsimp only
  split
  · exact (hstopped _).trans (stopOnly_phyDown hh _)
  · exact hstopped _

theorem lt_of_mirrorsOf {d : Dev} {h m : Nat} (hm : m ∈ mirrorsOf d h) : m < 8 := List.mem_range.1 (List.mem_filter.1 hm).1

theorem stopOnly_enterStop {h : Nat} (hh : h < 8) (standby : Bool) (d : Dev) : StopOnly d (enterStop h standby d) := by
  unfold enterStop
  refine List.foldlRecOn (motive := StopOnly d) _ _ (stopOnly_enterStopOne hh standby d) fun e he m hm => ?_
  split
  · exact he
  · exact he.trans (stopOnly_enterStopOne (lt_of_mirrorsOf hm) standby e)

/-- The end of the active lines, when the head or a mirror stops there. -/
theorem stopOnly_finishStop {h : Nat} (hh : h < 8) (d : Dev) : StopOnly d (finishStop h d) := by
  have hmirrors : StopOnly d ((mirrorsOf d h).foldl
      (fun d m => if (d.head m).stop = 0 then d else enterStopOne m ((d.head m).stop == 2) d) d) := by
    refine List.foldlRecOn (motive := StopOnly d) _ _ (.refl d) fun e he m hm => ?_
    split
    · exact he
    · exact he.trans (stopOnly_enterStopOne (lt_of_mirrorsOf hm) _ e)
  unfold finishStop
  dsimp only
  split
  · exact hmirrors
  · exact hmirrors.trans (stopOnly_enterStop hh _ _)

/-! ### STATS_LATCH (R90) -/

/-- The head's line has come: it reaches the blanking, starts its first frame, or shows nothing. -/
def LatchDue (d : Dev) (h : Nat) : Prop :=
  (headState d h = 4 ∧ (d.head h).latched = false ∧ (d.head h).reading = false ∧ (modeOf d h).vAct ≤ (d.head h).next) ∨
    (headState d h = 3 ∧ (d.head h).latched = false) ∨ headState d h = 1 ∨ headState d h = 5

/-- The beam of the head is at the end of its active lines, and its flocks are latched. -/
def latchHead (h : Nat) (atBlank : Bool) (d : Dev) : Dev :=
  let d := if atBlank then d.beamTo h (modeOf d h).vAct 0 else d
  (flocksOf d h).foldl (fun d f => latchFlock f d) (d.updHead h (fun x => { x with latched := true }))

/-- The die is that of before, at a later instant, or the same. -/
theorem beamTo_same (d : Dev) (h n x : Nat) : (d.beamTo h n x).regs = d.regs ∧ (d.beamTo h n x).cells = d.cells ∧ (d.beamTo h n x).heads = d.heads := by
  unfold Dev.beamTo Dev.passClk
  split
  · split <;> exact ⟨rfl, rfl, rfl⟩
  · exact ⟨rfl, rfl, rfl⟩

theorem latchHead_latched (h : Nat) (b : Bool) (d : Dev) : ((latchHead h b d).head h).latched = true := by
  unfold latchHead
  dsimp only
  rw [Dev.head, heads_latchFlocks, ← Dev.head, Dev.head_updHead, if_pos rfl]

theorem latchHead_stats {h f p : Nat} (hf : f < 16) (hp : p < 8) {d : Dev} (hh : flockHead d f = h) (b : Bool) :
    postStats (latchHead h b d) f p = statsLatched (d.cell f p) := by
  have hsame : ∀ e : Dev, e.regs = d.regs → e.cells = d.cells →
      postStats ((flocksOf e h).foldl (fun d f => latchFlock f d) (e.updHead h (fun x => { x with latched := true }))) f p =
        statsLatched (d.cell f p) := fun e hr hc => by
    have hmem : f ∈ flocksOf e h := mem_flocksOf.2 ⟨hf, by rw [← hh, flockHead, Dev.fld, Dev.rd, hr, flockHead, Dev.fld, Dev.rd]⟩
    rw [postStats_latchFlocks (nodup_flocksOf e h) hmem hp, show (e.updHead h _).cell f p = e.cell f p from rfl, Dev.cell, hc, Dev.cell]
  unfold latchHead
  dsimp only
  cases b with
  | true => exact hsame _ (beamTo_same d h _ 0).1 (beamTo_same d h _ 0).2.1
  | false => exact hsame d rfl rfl

/-- The beam has reached the first blanking line of the frame, or a head starts its first frame. -/
def blankNow (d : Dev) (h : Nat) : Bool :=
  (headState d h == 4 && !(d.head h).latched && !(d.head h).reading && (d.head h).next ≥ (modeOf d h).vAct) || (headState d h == 3 && !(d.head h).latched)

theorem statsLatch_eq (h : Nat) (s : State) : statsLatch h s =
    if blankNow s.dev h || headState s.dev h == 1 || headState s.dev h == 5 then
      if blankNow s.dev h then copyTables h (s.upd (latchHead h (blankNow s.dev h))) else s.upd (latchHead h (blankNow s.dev h))
    else s := rfl

theorem blankNow_of_due {d : Dev} {h : Nat} (hdue : LatchDue d h) : (blankNow d h || headState d h == 1 || headState d h == 5) = true := by
  obtain ⟨h4, hl, hr, hn⟩ | ⟨h3, hl⟩ | h1 | h5 := hdue
  · simp [blankNow, h4, hl, hr, hn]
  · simp [blankNow, h3, hl]
  · simp [h1]
  · simp [h5]

/-- The latch of a head that is due: the statistics are latched, and the sprite tables follow. -/
theorem statsLatch_of_due {h : Nat} {s : State} (hdue : LatchDue s.dev h) :
    TablesOnly (s.upd (latchHead h (blankNow s.dev h))) (statsLatch h s) := by
  rw [statsLatch_eq, if_pos (blankNow_of_due hdue)]
  split
  · exact tablesOnly_copyTables h _
  · exact .refl _

/-- A stop of the head that falls due with the latch follows it. -/
theorem blanking_of_due {h : Nat} (hh : h < 8) {s : State} (hdue : LatchDue s.dev h) :
    TablesOnly (s.upd (latchHead h (blankNow s.dev h))) (blanking h s) := by
  unfold blanking
  dsimp only
  split
  · exact (statsLatch_of_due hdue).trans (tablesOnly_upd (stopOnly_finishStop hh _).statsKept)
  · exact statsLatch_of_due hdue

theorem exec_statsLatch (h : Fin 8) (s : State) : exec (.statsLatch h) s = .next (blanking h s) := rfl

theorem gives_statsLatch {s : State} {h : Fin 8} (hdue : LatchDue s.dev h) :
    Gives (.statsLatch h) s (fun t => (t.dev.head h).latched = true ∧
      (∀ f < 16, ∀ p < 8, flockHead s.dev f = h.val →
        (∀ b < 8, t.dev.rd (Reg.CELL_SLACK_HIST f p b) = w32 ((s.dev.cell f p).hist.getD b 0)) ∧
        t.dev.rd (Reg.CELL_SLACK_MIN f p) = w32 ((s.dev.cell f p).slackMin + (s.dev.cell f p).missed * 0x10000) ∧
        (t.dev.cell f p).slackMin = 0xFFFF ∧ (t.dev.cell f p).missed = 0 ∧ (t.dev.cell f p).low = false) ∧ SameBytes s t) := by
  obtain ⟨hbytes, hlatched, hstats⟩ := blanking_of_due h.isLt hdue
  refine ⟨_, exec_statsLatch h s, (hlatched h).trans (latchHead_latched h _ s.dev), fun f hf p hp hhead => ?_, (sameBytes_upd _ s).trans hbytes⟩
  exact postStats_eq_latched ((hstats f hf p hp).trans (latchHead_stats hf hp hhead _))

end Sys2Proof.Machine

/-! PROOFS. Requests of a cell and collision records (O15). -/
namespace Sys2Proof.Machine

-- One proof after another: proofs that wait for the kernel at once would take more threads than the check's memory holds.
set_option Elab.async false

/-! ### Requests to a cell (R73, R127, R134, R227) -/

theorem exec_cacheInv (f : Fin 16) (p : Fin 8) (l : Fin 2) (s : State) :
    exec (.cacheInv f p l) s = .next (s.upd (cellBusWrite f p (0x178 + l * 0xF00) 1)) := rfl
theorem exec_sprReload (f : Fin 16) (p : Fin 8) (l : Fin 2) (s : State) :
    exec (.sprReload f p l) s = .next (s.upd (cellBusWrite f p (0x11C + l * 0xF00) 1)) := rfl
theorem exec_fbFlipArm (f : Fin 16) (p : Fin 8) (l : Fin 2) (s : State) :
    exec (.fbFlipArm f p l) s = .next (s.upd (cellBusWrite f p (0x124 + l * 0xF00) 1)) := rfl

/-- During a re-pen of the flock a write of a cell page is denied (R73). -/
theorem cellBusWrite_of_repen {d : Dev} {f : Nat} (h : (d.flock f).repen ≠ none) (p o : Nat) (v : Word) : cellBusWrite f p o v d = d.deny := by
  rw [cellBusWrite, if_pos (Option.isSome_iff_ne_none.2 h)]

theorem cellBusWrite_of_free {d : Dev} {f p : Nat} (h : (d.flock f).repen = none) (hp : p < 8) (o : Nat) (v : Word) :
    cellBusWrite f p o v d = (cellRegWrite f p o v d).okay := by
  rw [cellBusWrite, if_neg (by simp [h]), if_neg (by omega)]

/-- The row of a register of layer l of a cell: the kind's row at the offset that layer 0 has. -/
theorem cellRow_layer {kind : Nat} {twin : Bool} {b l : Nat} (hl : l < 2) (htwin : l = 1 → twin = true) (h1 : 0x100 ≤ b) (h2 : b < 0x1000) :
    cellRow kind twin (b + l * 0xF00) = (findRow (layerRows kind) b).map (fun r => (r.1, l, b)) := by
  obtain rfl | rfl : l = 0 ∨ l = 1 := by omega
  · simp [cellRow, show ¬ b < 0x100 by omega, h2]
  · simp [cellRow, show ¬ b + 0xF00 < 0x100 by omega, show ¬ b + 0xF00 < 0x1000 by omega, show b + 0xF00 < 0x1F00 by omega, htwin rfl]

/-- A register of a page past CELL_STATUS. -/
theorem kindOf_wr_ne {d : Dev} {f p o : Nat} (v : Word) (h : o ≠ 4) : kindOf (d.wr (cellOff f p o) v) f p = kindOf d f p := by
  rw [kindOf, Dev.fld, Dev.rd_wr_ne, kindOf, Dev.fld]
  unfold Reg.CELL_STATUS cellOff
  omega

/-- A write of a register of a layer that the layer does not refuse: the register takes it, and then its effect. -/
theorem cellRegWrite_layer {d : Dev} {f p b l : Nat} {r : RegRow} {i j : Nat} (v : Word) (hl : l < 2) (htwin : l = 1 → twinOf d f p = true)
    (h1 : 0x100 ≤ b) (h2 : b < 0x1000) (hrow : findRow (layerRows (kindOf d f p)) b = some (r, i, j))
    (hok : layerRefuses d f p l (kindOf d f p) (twinOf d f p) b v = false) :
    cellRegWrite f p (b + l * 0xF00) v d = layerEffect f p l (kindOf d f p) b (d.rd (cellOff f p (b + l * 0xF00))) v
      (d.wr (cellOff f p (b + l * 0xF00)) (r.merge (d.rd (cellOff f p (b + l * 0xF00))) v)) := by
  rw [cellRegWrite, cellRow_layer hl htwin h1 h2, hrow]
  simp only [Option.map_some, hok, h1, h2, decide_true, Bool.and_true, Bool.and_false, if_true, Bool.false_eq_true, if_false]
  rw [kindOf_wr_ne _ (by omega)]

/-- A write of INV of a TILE or SPRITE cell discards the cell's cache (R127). -/
theorem cellRegWrite_inv {d : Dev} {f p l : Nat} (hk : kindOf d f p = 1 ∨ kindOf d f p = 2) (hl : l < 2) (htwin : l = 1 → twinOf d f p = true) :
    ∃ w, cellRegWrite f p (0x178 + l * 0xF00) 1 d = (d.wr (cellOff f p (0x178 + l * 0xF00)) w).updCell f p (fun c => { c with inv := true }) := by
  obtain hk | hk := hk <;>
    exact ⟨_, (cellRegWrite_layer (i := 0) (j := 0) (r := { base := 0x178, wo := 0x1 }) 1 hl htwin (by decide) (by decide) (by rw [hk]; rfl)
      (by rw [hk]; rfl)).trans (by rw [hk]; rfl)⟩

/-- A write of RELOAD of a SPRITE layer requests the reload of its table (R134). -/
theorem cellRegWrite_reload {d : Dev} {f p l : Nat} (hk : kindOf d f p = 2) (hl : l < 2) (htwin : l = 1 → twinOf d f p = true) :
    ∃ w, cellRegWrite f p (0x11C + l * 0xF00) 1 d =
      (d.wr (cellOff f p (0x11C + l * 0xF00)) w).updLayer f p l (fun y => { y with reload := true }) :=
  ⟨_, (cellRegWrite_layer (i := 0) (j := 0) (r := { base := 0x11C, wo := 0x1 }) 1 hl htwin (by decide) (by decide) (by rw [hk]; rfl)
    (by rw [hk]; rfl)).trans (by rw [hk]; rfl)⟩

/-- A write of 1 to ARM of a FRAME layer sets it (R227). -/
theorem cellRegWrite_arm {d : Dev} {f p l : Nat} (hk : kindOf d f p = 3) (hl : l < 2) (htwin : l = 1 → twinOf d f p = true) :
    ∃ w, cellRegWrite f p (0x124 + l * 0xF00) 1 d = d.wr (cellOff f p (0x124 + l * 0xF00)) w ∧ bitOf w 0 = true := by
  refine ⟨_, (cellRegWrite_layer (i := 0) (j := 0) (r := { base := 0x124, w1s := 0x1 }) 1 hl htwin (by decide) (by decide) (by rw [hk]; rfl)
    (by rw [hk]; rfl)).trans (by rw [hk]; rfl), ?_⟩
  rw [RegRow.bitOf_merge _ _ _ (by decide)]
  simp [bitOf]

theorem Dev.cell_wr (d : Dev) (o : Nat) (v : Word) (f p : Nat) : (d.wr o v).cell f p = d.cell f p := rfl
theorem Dev.cell_bump (d : Dev) (o f p : Nat) : (d.bump o).cell f p = d.cell f p := by unfold Dev.bump; split <;> rfl
theorem Dev.cell_setBit (d : Dev) (o n f p : Nat) : (d.setBit o n).cell f p = d.cell f p := rfl
theorem Dev.cell_okay (d : Dev) (f p : Nat) : d.okay.cell f p = d.cell f p := rfl

/-- A write of one register and a change of one cell, with an answer to the requester. -/
theorem leaves_cellRequest (s : State) (f p o : Nat) (w : Word) (g : CellSt → CellSt) :
    Leaves (fun d e => { d with regs := e.regs, cells := e.cells, resp := e.resp }) (· = o) s
      { s with dev := ((s.dev.wr o w).updCell f p g).okay } :=
  ⟨rfl, rfl, rfl, fun _ h => Dev.rd_wr_ne s.dev w h⟩

theorem CellSt.layer_updLayer_same (c : CellSt) (l : Nat) (g : LayerSt → LayerSt) : (c.updLayer l g).layer l = g (c.layer l) := by
  unfold CellSt.updLayer CellSt.layer
  split <;> rfl

theorem Dev.layer_updLayer_same (d : Dev) (f p l : Nat) (g : LayerSt → LayerSt) :
    ((d.updLayer f p l g).cell f p).layer l = g ((d.cell f p).layer l) := by
  rw [Dev.updLayer, Dev.cell_updCell_same, CellSt.layer_updLayer_same]

section
variable {s : State} {f : Fin 16} {p : Fin 8} {l : Fin 2}

theorem gives_cellRequests_of_repen (h : (s.dev.flock f).repen ≠ none) :
    Gives (.cacheInv f p l) s (fun t => t.dev.resp = .accessError ∧ OnlyRegs (fun _ => False) s t) ∧
      Gives (.sprReload f p l) s (fun t => t.dev.resp = .accessError ∧ OnlyRegs (fun _ => False) s t) ∧
      Gives (.fbFlipArm f p l) s (fun t => t.dev.resp = .accessError ∧ OnlyRegs (fun _ => False) s t) :=
  ⟨gives_of_upd (exec_cacheInv f p l s) (cellBusWrite_of_repen h p _ 1) ⟨rfl, onlyRegs_answer s .accessError⟩,
    gives_of_upd (exec_sprReload f p l s) (cellBusWrite_of_repen h p _ 1) ⟨rfl, onlyRegs_answer s .accessError⟩,
    gives_of_upd (exec_fbFlipArm f p l s) (cellBusWrite_of_repen h p _ 1) ⟨rfl, onlyRegs_answer s .accessError⟩⟩

theorem gives_cacheInv (h : (s.dev.flock f).repen = none) (htwin : l.val = 1 → twinOf s.dev f p = true)
    (hk : kindOf s.dev f p = 1 ∨ kindOf s.dev f p = 2) :
    Gives (.cacheInv f p l) s (fun t => (t.dev.cell f p).inv = true ∧ t.dev.resp = .ok 0 ∧
      Leaves (fun d e => { d with regs := e.regs, cells := e.cells, resp := e.resp }) (· = cellOff f p (0x178 + l.val * 0xF00)) s t) := by
  obtain ⟨w, hw⟩ := cellRegWrite_inv hk l.isLt htwin
  refine gives_of_upd (exec_cacheInv f p l s) ((cellBusWrite_of_free h p.isLt _ 1).trans (congrArg Dev.okay hw)) ⟨?_, rfl, leaves_cellRequest ..⟩
  rw [Dev.cell_okay, Dev.cell_updCell_same]

theorem gives_sprReload (h : (s.dev.flock f).repen = none) (htwin : l.val = 1 → twinOf s.dev f p = true) (hk : kindOf s.dev f p = 2) :
    Gives (.sprReload f p l) s (fun t => ((t.dev.cell f p).layer l).reload = true ∧ t.dev.resp = .ok 0 ∧
      Leaves (fun d e => { d with regs := e.regs, cells := e.cells, resp := e.resp }) (· = cellOff f p (0x11C + l.val * 0xF00)) s t) := by
  obtain ⟨w, hw⟩ := cellRegWrite_reload hk l.isLt htwin
  refine gives_of_upd (exec_sprReload f p l s) ((cellBusWrite_of_free h p.isLt _ 1).trans (congrArg Dev.okay hw)) ⟨?_, rfl, leaves_cellRequest ..⟩
  rw [Dev.cell_okay, Dev.layer_updLayer_same]

theorem gives_fbFlipArm (h : (s.dev.flock f).repen = none) (htwin : l.val = 1 → twinOf s.dev f p = true) (hk : kindOf s.dev f p = 3) :
    Gives (.fbFlipArm f p l) s (fun t => t.dev.bit (Reg.FB_FLIP f p l) 0 = true ∧ t.dev.resp = .ok 0 ∧ OnlyRegs (· = Reg.FB_FLIP f p l) s t) := by
  obtain ⟨w, hw, hbit⟩ := cellRegWrite_arm hk l.isLt htwin
  have ho : cellOff f p (0x124 + l.val * 0xF00) = Reg.FB_FLIP f p l := by unfold cellOff Reg.FB_FLIP; omega
  rw [ho] at hw
  refine gives_of_upd (exec_fbFlipArm f p l s) ((cellBusWrite_of_free h p.isLt _ 1).trans (congrArg Dev.okay hw)) ⟨?_, rfl, onlyRegs_wr_answer ..⟩
  rw [Dev.bit_okay, Dev.bit, Dev.rd_wr_same, hbit]

end

/-! ### Collision records (R150 to R152) -/

section
variable {s : State} {f p l : Nat} {c : CollRec} {rest : List CollRec}

/-- The place of the next record in the ring of a layer. -/
def collAddr (d : Dev) (f p l : Nat) : Nat :=
  base48 d (Reg.COLL_BASE_LO f p l) (Reg.COLL_BASE_HI f p l) + 16 * ((d.rd (Reg.COLL_WR f p l)).toNat % 2 ^ d.fld (Reg.COLL_SIZE f p l) 4 0)

/-- The oldest record leaves the queue of its layer. -/
def collPop (f p l : Nat) (rest : List CollRec) (d : Dev) : Dev := d.updLayer f p l (fun y => { y with collQ := rest })

/-- A record is lost to a full ring: its pair may report again. -/
def collFull (f p l : Nat) (c : CollRec) (rest : List CollRec) (d : Dev) : Dev :=
  (((collPop f p l rest d).updLayer f p l (fun y => { y with pairs := y.pairs.erase (c.sprA, c.sprB) })).bump (Reg.COLL_LOST f p l)).setBit
    (Reg.SPR_STATUS f p l) 7

/-- A record has been stored. -/
def collStored (f p l : Nat) (rest : List CollRec) (d : Dev) : Dev :=
  let was := d.bit (Reg.SPR_STATUS f p l) 6
  let d := ((collPop f p l rest d).wr (Reg.COLL_WR f p l) (d.rd (Reg.COLL_WR f p l) + 1)).setBit (Reg.SPR_STATUS f p l) 6
  if was then d else fire (0x101 + 16 * f + 2 * p) d

theorem collWrite_of_empty (hq : ((s.dev.cell f p).layer l).collQ = []) : collWrite f p l s = s := by
  have hdef : collWrite = collWrite := rfl
  conv at hdef => rhs; delta collWrite
  rw [hdef]
  beta_reduce
  simp only [hq]

theorem collWrite_of_full (hq : ((s.dev.cell f p).layer l).collQ = c :: rest)
    (hfull : 2 ^ s.dev.fld (Reg.COLL_SIZE f p l) 4 0 ≤ (s.dev.rd (Reg.COLL_WR f p l) - s.dev.rd (Reg.COLL_RD f p l)).toNat) :
    collWrite f p l s = s.upd (collFull f p l c rest) := by
  have hdef : collWrite = collWrite := rfl
  conv at hdef => rhs; delta collWrite
  rw [hdef]
  beta_reduce
  simp only [hq, ge_iff_le, hfull, if_true]
  rfl

theorem collWrite_of_unwritable (hq : ((s.dev.cell f p).layer l).collQ = c :: rest)
    (hroom : (s.dev.rd (Reg.COLL_WR f p l) - s.dev.rd (Reg.COLL_RD f p l)).toNat < 2 ^ s.dev.fld (Reg.COLL_SIZE f p l) 4 0)
    (hmem : memOk s.dev (collAddr s.dev f p l) 16 = false) :
    collWrite f p l s = s.upd (fun d => (collPop f p l rest d).bump (Reg.COLL_LOST f p l)) := by
  have hdef : collWrite = collWrite := rfl
  conv at hdef => rhs; delta collWrite
  rw [hdef]
  beta_reduce
  unfold collAddr at hmem
  simp only [hq, ge_iff_le, Nat.not_le.2 hroom, if_false, hmem, Bool.not_false, if_true]
  rfl

theorem collWrite_of_room (hq : ((s.dev.cell f p).layer l).collQ = c :: rest)
    (hroom : (s.dev.rd (Reg.COLL_WR f p l) - s.dev.rd (Reg.COLL_RD f p l)).toNat < 2 ^ s.dev.fld (Reg.COLL_SIZE f p l) 4 0)
    (hmem : memOk s.dev (collAddr s.dev f p l) 16 = true) :
    collWrite f p l s = (memWrite (collAddr s.dev f p l)
      (collBytes c (collFrameHt s.dev (flockHead s.dev f) c).1 l (s.dev.rd (Reg.COLL_WR f p l)).toNat (s.dev.fld (Reg.COLL_SIZE f p l) 4 0))
      { s with dev := (collFrameHt s.dev (flockHead s.dev f) c).2 }).upd (collStored f p l rest) := by
  have hdef : collWrite = collWrite := rfl
  conv at hdef => rhs; delta collWrite
  rw [hdef]
  beta_reduce
  unfold collAddr at hmem
  simp only [hq, ge_iff_le, Nat.not_le.2 hroom, if_false, hmem, Bool.not_true, Bool.false_eq_true]
  rfl

theorem collPop_collQ (d : Dev) : (((collPop f p l rest d).cell f p).layer l).collQ = rest := by
  rw [collPop, Dev.layer_updLayer_same]

/-- What the choice of FRAME_HT changes: nothing but the number of the next free value. -/
theorem collFrameHt_same (d : Dev) (h : Nat) (c : CollRec) :
    (collFrameHt d h c).2.regs = d.regs ∧ (collFrameHt d h c).2.cells = d.cells := by
  suffices hall : ∀ r, r = collFrameHt d h c → r.2.regs = d.regs ∧ r.2.cells = d.cells from hall _ rfl
  intro r hr
  have hdef : collFrameHt = collFrameHt := rfl
  conv at hdef => rhs; delta collFrameHt
  rw [hdef] at hr
  beta_reduce at hr
  split at hr <;> (subst hr; exact ⟨rfl, rfl⟩)

theorem FiringOnly.cell {d e : Dev} (h : FiringOnly d e) (f k : Nat) : e.cell f k = d.cell f k := (congrArg (fun x : Dev => x.cell f k) h.1 :)

/-- What the store of a record notes. -/
theorem collStored_notes (d : Dev) : (collStored f p l rest d).rd (Reg.COLL_WR f p l) = d.rd (Reg.COLL_WR f p l) + 1 ∧
    (((collStored f p l rest d).cell f p).layer l).collQ = rest ∧ (collStored f p l rest d).bit (Reg.SPR_STATUS f p l) 6 = true := by
  have hne : Reg.COLL_WR f p l ≠ Reg.SPR_STATUS f p l := by unfold Reg.COLL_WR Reg.SPR_STATUS; omega
  have hwr : ¬ InConj (Reg.COLL_WR f p l) := by unfold InConj Reg.COLL_WR; omega
  have hstatus : ¬ InConj (Reg.SPR_STATUS f p l) := by unfold InConj Reg.SPR_STATUS; omega
  have hbase : ∀ e, e = ((collPop f p l rest d).wr (Reg.COLL_WR f p l) (d.rd (Reg.COLL_WR f p l) + 1)).setBit (Reg.SPR_STATUS f p l) 6 →
      e.rd (Reg.COLL_WR f p l) = d.rd (Reg.COLL_WR f p l) + 1 ∧ ((e.cell f p).layer l).collQ = rest ∧ e.bit (Reg.SPR_STATUS f p l) 6 = true := by
    rintro _ rfl
    refine ⟨?_, ?_, ?_⟩
    · rw [Dev.rd_setBit_ne _ 6 hne, Dev.rd_wr_same]
    · rw [Dev.cell_setBit, Dev.cell_wr, collPop_collQ]
    · rw [Dev.bit_setBit _ _ _ _ (by decide)]
      simp
  obtain ⟨h1, h2, h3⟩ := hbase _ rfl
  unfold collStored
  dsimp only
  split
  · exact ⟨h1, h2, h3⟩
  · have hfire := firingOnly_fire (0x101 + 16 * f + 2 * p)
      (((collPop f p l rest d).wr (Reg.COLL_WR f p l) (d.rd (Reg.COLL_WR f p l) + 1)).setBit (Reg.SPR_STATUS f p l) 6)
    refine ⟨(hfire.2 _ hwr).trans h1, ?_, ?_⟩
    · rw [hfire.cell, h2]
    · rw [Dev.bit, hfire.2 _ hstatus, ← Dev.bit, h3]

theorem length_collBytes (c : CollRec) (t l w k : Nat) : (collBytes c t l w k).length = 16 := by
  simp [collBytes, natBytes]

/-- What a command gives that ends with a change of the die. (The kernel would compare the changed die with the old one.) -/
theorem next_upd_parts {i : Instr} {s u : State} {g : Dev → Dev} (h : exec i s = .next (u.upd g)) :
    ∃ t, exec i s = .next t ∧ t.dev = g u.dev ∧ t.mem = u.mem ∧ t.pending = u.pending := ⟨_, h, rfl, rfl, rfl⟩

theorem State.byteAt_congr {s t : State} (h : t.mem = s.mem) (x : Nat) : t.byteAt x = s.byteAt x := by rw [State.byteAt, h, State.byteAt]
theorem State.byteAt_dev (s : State) (d : Dev) (x : Nat) : State.byteAt { s with dev := d } x = s.byteAt x := rfl

theorem exec_collRecordWrite (f : Fin 16) (p : Fin 8) (l : Fin 2) (s : State) : exec (.collRecordWrite f p l) s = .next (collWrite f p l s) := rfl

/-- A loss counts, and leaves all but the count, the flag and the cell. -/
theorem collLost_notes (d : Dev) :
    (((collPop f p l rest d).bump (Reg.COLL_LOST f p l)).rd (Reg.COLL_LOST f p l)).toNat = min ((d.rd (Reg.COLL_LOST f p l)).toNat + 1) 0xFFFFFFFF ∧
    ((((collPop f p l rest d).bump (Reg.COLL_LOST f p l)).cell f p).layer l).collQ = rest := by
  refine ⟨Dev.toNat_rd_bump .., ?_⟩
  rw [Dev.cell_bump, collPop_collQ]

/-- A loss to a full ring counts and raises the flag. -/
theorem collFull_notes (d : Dev) :
    ((collFull f p l c rest d).rd (Reg.COLL_LOST f p l)).toNat = min ((d.rd (Reg.COLL_LOST f p l)).toNat + 1) 0xFFFFFFFF ∧
    (((collFull f p l c rest d).cell f p).layer l).collQ = rest ∧ (collFull f p l c rest d).bit (Reg.SPR_STATUS f p l) 7 = true := by
  have hne : Reg.COLL_LOST f p l ≠ Reg.SPR_STATUS f p l := by unfold Reg.COLL_LOST Reg.SPR_STATUS; omega
  unfold collFull
  refine ⟨?_, ?_, ?_⟩
  · rw [Dev.rd_setBit_ne _ 7 hne]
    exact Dev.toNat_rd_bump ..
  · rw [Dev.cell_setBit, Dev.cell_bump, Dev.layer_updLayer_same, collPop_collQ]
  · rw [Dev.bit_setBit _ _ _ _ (by decide)]
    simp

theorem within_updLayer {g : Dev → Dev → Dev} {q : Nat → Prop} (f p l : Nat) (u : LayerSt → LayerSt) (d : Dev)
    (hg : ∀ e d : Dev, g { e with cells := d.cells } d = g e d := by exact fun _ _ => rfl) (hr : ∀ d, g d d = d := by exact fun _ => rfl) :
    Within g q d (d.updLayer f p l u) := within_updCell f p _ d hg hr

/-- The die with the registers and the cells of another. -/
def cellsPart (e d : Dev) : Dev := { e with regs := d.regs, cells := d.cells }

theorem within_collLost (d : Dev) : Within cellsPart (fun o => o = Reg.COLL_LOST f p l ∨ o = Reg.SPR_STATUS f p l) d
    ((collPop f p l rest d).bump (Reg.COLL_LOST f p l)) := by
  unfold collPop
  exact (within_updLayer f p l _ d).trans (within_bump (.inl rfl) _)

theorem within_collFull (d : Dev) : Within cellsPart (fun o => o = Reg.COLL_LOST f p l ∨ o = Reg.SPR_STATUS f p l) d
    (collFull f p l c rest d) := by
  unfold collFull collPop
  exact (((within_updLayer f p l _ d).trans (within_updLayer f p l _ _)).trans (within_bump (.inl rfl) _)).trans (within_setBit (.inr rfl) 7 _)

end

section
variable {s : State} {f : Fin 16} {p : Fin 8} {l : Fin 2} {c : CollRec} {rest : List CollRec}

/-- A record that finds room goes to its slot of the ring, and to no other byte (R151). -/
theorem gives_collRecordWrite_room (hq : ((s.dev.cell f p).layer l).collQ = c :: rest)
    (hroom : (s.dev.rd (Reg.COLL_WR f p l) - s.dev.rd (Reg.COLL_RD f p l)).toNat < 2 ^ s.dev.fld (Reg.COLL_SIZE f p l) 4 0) {a : Nat}
    (ha : a = collAddr s.dev f p l) (hmem : memOk s.dev a 16 = true) :
    Gives (.collRecordWrite f p l) s (fun t =>
      (∀ i < 16, t.byteAt (a + i) = (collBytes c (collFrameHt s.dev (flockHead s.dev f) c).1 l (s.dev.rd (Reg.COLL_WR f p l)).toNat
        (s.dev.fld (Reg.COLL_SIZE f p l) 4 0)).getD i 0) ∧
      (∀ x, x < a ∨ a + 16 ≤ x → t.byteAt x = s.byteAt x) ∧
      t.dev.rd (Reg.COLL_WR f p l) = s.dev.rd (Reg.COLL_WR f p l) + 1 ∧ ((t.dev.cell f p).layer l).collQ = rest ∧
      t.dev.bit (Reg.SPR_STATUS f p l) 6 = true ∧ t.mem.tcm = s.mem.tcm ∧ t.mem.flash = s.mem.flash ∧ t.pending = s.pending) := by
  have hexec := exec_collRecordWrite f p l s
  subst ha
  rw [collWrite_of_room hq hroom hmem] at hexec
  have hlen := length_collBytes c (collFrameHt s.dev (flockHead s.dev f) c).1 l (s.dev.rd (Reg.COLL_WR f p l)).toNat (s.dev.fld (Reg.COLL_SIZE f p l) 4 0)
  obtain ⟨hregs, -⟩ := collFrameHt_same s.dev (flockHead s.dev f) c
  generalize collBytes c _ l _ _ = b at *
  generalize (collFrameHt s.dev (flockHead s.dev f) c).2 = d at *
  generalize collAddr s.dev f p l = a at *
  have hbyte := byteAt_memWrite a b { s with dev := d }
  have hdev := (within_memWrite a b { s with dev := d }).2
  obtain ⟨htcm, hflash, hpending⟩ := memWrite_others a b { s with dev := d }
  generalize memWrite a b { s with dev := d } = u at *
  have hne : Reg.COLL_WR f p l ≠ Reg.ERR_INJECT_HI := by unfold Reg.COLL_WR Reg.ERR_INJECT_HI; omega
  have hsame : u.dev.rd (Reg.COLL_WR f p l) = s.dev.rd (Reg.COLL_WR f p l) := by rw [hdev _ hne, Dev.rd, Dev.rd, hregs]
  obtain ⟨hwr, hqueue, hflag⟩ := collStored_notes (rest := rest) (f := f) (p := p) (l := l) u.dev
  obtain ⟨t, hexec, hd, hm, hp⟩ := next_upd_parts hexec
  rw [← hd] at hwr hqueue hflag
  refine ⟨t, hexec, fun i hi => ?_, fun x hx => ?_, hwr.trans (by rw [hsame]), hqueue, hflag, by rw [hm, htcm], by rw [hm, hflash], by rw [hp, hpending]⟩
  · rw [State.byteAt_congr hm, hbyte, if_pos (by omega), Nat.add_sub_cancel_left]
  · rw [State.byteAt_congr hm, hbyte, if_neg (by omega), State.byteAt_dev]

/-- A record that finds none, or no memory, is lost. -/
theorem gives_collRecordWrite_lost (hq : ((s.dev.cell f p).layer l).collQ = c :: rest) {full : Bool}
    (hfull : full = decide (2 ^ s.dev.fld (Reg.COLL_SIZE f p l) 4 0 ≤ (s.dev.rd (Reg.COLL_WR f p l) - s.dev.rd (Reg.COLL_RD f p l)).toNat))
    (hlost : full = true ∨ memOk s.dev (collAddr s.dev f p l) 16 = false) :
    Gives (.collRecordWrite f p l) s (fun t =>
      (t.dev.rd (Reg.COLL_LOST f p l)).toNat = min ((s.dev.rd (Reg.COLL_LOST f p l)).toNat + 1) 0xFFFFFFFF ∧
      ((t.dev.cell f p).layer l).collQ = rest ∧ (full = true → t.dev.bit (Reg.SPR_STATUS f p l) 7 = true) ∧
      Leaves (fun d e => { d with regs := e.regs, cells := e.cells }) (fun o => o = Reg.COLL_LOST f p l ∨ o = Reg.SPR_STATUS f p l) s t) := by
  have hexec := exec_collRecordWrite f p l s
  cases full with
  | true =>
    rw [collWrite_of_full hq (of_decide_eq_true hfull.symm)] at hexec
    obtain ⟨hcount, hqueue, hflag⟩ := collFull_notes (c := c) (rest := rest) (f := f) (p := p) (l := l) s.dev
    exact ⟨_, hexec, hcount, hqueue, fun _ => hflag, (within_collFull s.dev).leaves⟩
  | false =>
    have hroom := Nat.not_le.1 (of_decide_eq_false hfull.symm)
    have hmem : memOk s.dev (collAddr s.dev f p l) 16 = false := hlost.resolve_left (by decide)
    rw [collWrite_of_unwritable hq hroom hmem] at hexec
    obtain ⟨hcount, hqueue⟩ := collLost_notes (rest := rest) (f := f) (p := p) (l := l) s.dev
    exact ⟨_, hexec, hcount, hqueue, fun h => absurd h (by decide), (within_collLost s.dev).leaves⟩

theorem gives_collRecordWrite_empty (hq : ((s.dev.cell f p).layer l).collQ = []) : Gives (.collRecordWrite f p l) s (fun t => t = s) :=
  ⟨s, (exec_collRecordWrite f p l s).trans (congrArg Host.Outcome.next (collWrite_of_empty hq)), rfl⟩

end

/-- Settles O15: the latch of a head's posts stays through what follows it (`gives_statsLatch`), a request is one write of a layer's register,
and each record is stored, lost, or not there (`collWrite_of_room`, `collWrite_of_full`, `collWrite_of_unwritable`, `collWrite_of_empty`). -/
theorem cellRequestsStatisticsAndCollisions : Obligations.CellRequestsStatisticsAndCollisions := by
  unfold Obligations.CellRequestsStatisticsAndCollisions
  refine ⟨fun s h hdue => gives_statsLatch hdue, fun s f p l h => gives_cellRequests_of_repen h, ?requests, ?stored, ?lost,
    fun s f p l hq => gives_collRecordWrite_empty hq⟩
  case requests => exact fun s f p l h htwin => ⟨gives_cacheInv h htwin, gives_sprReload h htwin, gives_fbFlipArm h htwin⟩
  case stored => exact fun s f p l c rest hq hroom a ha hmem => gives_collRecordWrite_room hq hroom ha hmem
  case lost => exact fun s f p l c rest full hq hfull hlost => gives_collRecordWrite_lost hq hfull hlost

end Sys2Proof.Machine

/-! PROOFS. Fields and flags of registers after a change of others, and the requests of a re-pen (O50). -/
namespace Sys2Proof.Machine

-- One proof after another: proofs that wait for the kernel at once would take more threads than the check's memory holds.
set_option Elab.async false

/-! ### Fields and bits that stay -/

theorem Dev.fld_congr {d e : Dev} {o : Nat} (h : e.rd o = d.rd o) (hi lo : Nat) : e.fld o hi lo = d.fld o hi lo := by rw [Dev.fld, h, Dev.fld]

theorem Dev.bit_congr {d e : Dev} {o : Nat} (h : e.rd o = d.rd o) (n : Nat) : e.bit o n = d.bit o n := by rw [Dev.bit, h, Dev.bit]

theorem fld_lt (w : Word) (hi lo : Nat) : fld w hi lo < 2 ^ (hi + 1 - lo) := Nat.mod_lt _ (Nat.two_pow_pos _)

/-- A field that shares no bit with what changes stays. -/
theorem fld_eq_of_bits {v w : Word} {hi lo : Nat} (h : ∀ b, lo ≤ b → b ≤ hi → bitOf v b = bitOf w b) : fld v hi lo = fld w hi lo := by
  refine Nat.eq_of_testBit_eq fun i => ?_
  rw [testBit_fld, testBit_fld]
  by_cases hi' : i < hi + 1 - lo
  · rw [h (lo + i) (by omega) (by omega)]
  · simp [hi']

theorem Dev.fld_setBit_outside (d : Dev) (o : Nat) {n hi lo : Nat} (hn : n < 32) (h : n < lo ∨ hi < n) :
    (d.setBit o n).fld o hi lo = d.fld o hi lo :=
  fld_eq_of_bits fun b h1 h2 => (d.bit_setBit o n b hn).trans (by rw [decide_eq_false (by omega), Bool.or_false]; rfl)

theorem Dev.fld_clrBit_outside (d : Dev) (o : Nat) {n hi lo : Nat} (hn : n < 32) (hhi : hi < 32) (h : n < lo ∨ hi < n) :
    (d.clrBit o n).fld o hi lo = d.fld o hi lo :=
  fld_eq_of_bits fun b h1 h2 => (d.bit_clrBit o n b hn (by omega)).trans (by rw [decide_eq_false (by omega), Bool.not_false, Bool.and_true]; rfl)

theorem Dev.bit_setBit_same (d : Dev) (o : Nat) {n : Nat} (hn : n < 32) : (d.setBit o n).bit o n = true := by
  rw [Dev.bit_setBit _ _ _ _ hn]
  simp

theorem Dev.bit_clrBit_same (d : Dev) (o : Nat) {n : Nat} (hn : n < 32) : (d.clrBit o n).bit o n = false := by
  rw [Dev.bit_clrBit _ _ _ _ hn hn]
  simp

/-! ### REPEN_CTRL (R71, R72) -/

theorem exec_repenRequest (q : Req) (v : Word) (s : State) : exec (.repenRequest q v) s = .next (s.upd (repenRequest q v)) := rfl

theorem repenRequest_denied {q : Req} {d : Dev} (h : d.keeper q = false) (v : Word) : repenRequest q v d = d.deny := by
  simp [repenRequest, h]

theorem repenRequest_without_go {q : Req} {v : Word} {d : Dev} (h : d.keeper q = true) (hv : bitOf v 31 = false) : repenRequest q v d = d.okay := by
  simp [repenRequest, h, hv]

/-- REPEN_STATUS notes the VAR_ID of a request. -/
def repenNoted (v : Word) (d : Dev) : Dev := d.setFld Reg.REPEN_STATUS 31 16 (fld v 15 0)

/-- The flock of a request is noted too. -/
def repenNotedAt (v : Word) (f : Nat) (d : Dev) : Dev := (repenNoted v d).setFld Reg.REPEN_STATUS 7 4 f

theorem Dev.flock_okay (d : Dev) (f : Nat) : d.okay.flock f = d.flock f := rfl

theorem flock_setRepen_same (f : Nat) (r : Option Repen) (d : Dev) : (setRepen f r d).flock f = { d.flock f with repen := r } :=
  Dev.flock_updFlock_same d f _

theorem rd_setRepen (f : Nat) (r : Option Repen) (d : Dev) (o : Nat) : (setRepen f r d).rd o = d.rd o := Dev.updFlock_rd d f _ o

theorem ld_setRepen (f : Nat) (r : Option Repen) (d : Dev) : (setRepen f r d).ld = d.ld := Dev.updFlock_ld d f _

theorem flock_setRepen_ne {f g : Nat} (h : g ≠ f) (r : Option Repen) (d : Dev) : (setRepen f r d).flock g = d.flock g :=
  Dev.flock_updFlock_ne d _ h

section
variable {q : Req} {v : Word} {d : Dev} {f : Nat}

theorem repenBusy_noted (d : Dev) : repenBusy (repenNoted v d) = repenBusy d := Dev.bit_setFld_outside _ _ _ (by decide) (by decide) (by decide)

theorem repenBusy_notedAt (d : Dev) : repenBusy (repenNotedAt v f d) = repenBusy d :=
  (Dev.bit_setFld_outside _ _ _ (by decide) (by decide) (by decide)).trans (repenBusy_noted d)

theorem repenRequest_without_flock (hq : d.keeper q = true) (hv : bitOf v 31 = true) (hf : repenFlock v d = none) :
    repenRequest q v d = (repenRefuse (if repenBusy d then 1 else 2) (repenNoted v d)).okay := by
  rw [← repenBusy_noted (v := v) d]
  simp only [repenRequest, hq, hv, hf]
  rfl

theorem repenRequest_of_busy (hq : d.keeper q = true) (hv : bitOf v 31 = true) (hf : repenFlock v d = some f)
    (hbusy : repenBusy d = true ∨ (d.flock f).repen ≠ none) : repenRequest q v d = (repenRefuse 1 (repenNotedAt v f d)).okay := by
  have hc : (repenBusy (repenNotedAt v f d) || ((repenNotedAt v f d).flock f).repen.isSome) = true := by
    rw [repenBusy_notedAt, Bool.or_eq_true]
    exact hbusy.imp id Option.isSome_iff_ne_none.2
  simp only [repenRequest, hq, hv, hf]
  exact if_pos hc

theorem repenRequest_waiting (hq : d.keeper q = true) (hv : bitOf v 31 = true) (hf : repenFlock v d = some f) (hbusy : repenBusy d = false)
    (hr : (d.flock f).repen = none) (ht : (d.flock f).takeover ≠ none) :
    repenRequest q v d =
      (setRepen f (some { step := 0, variant := fld v 15 0, align := bitOf v 24, since := d.clk }) (repenNotedAt v f d)).okay := by
  have hc : ¬ (repenBusy (repenNotedAt v f d) || ((repenNotedAt v f d).flock f).repen.isSome) = true := by
    rw [repenBusy_notedAt, hbusy, show (repenNotedAt v f d).flock f = d.flock f from rfl, hr]
    decide
  simp only [repenRequest, hq, hv, hf]
  exact (if_neg hc).trans (if_pos (Option.isSome_iff_ne_none.2 ht))

theorem repenRequest_checked (hq : d.keeper q = true) (hv : bitOf v 31 = true) (hf : repenFlock v d = some f) (hbusy : repenBusy d = false)
    (hr : (d.flock f).repen = none) (ht : (d.flock f).takeover = none) :
    repenRequest q v d = (repenAccept (repenCause f (fld v 15 0) d) f (fld v 15 0) (bitOf v 24) (repenNotedAt v f d)).okay := by
  have hc : ¬ (repenBusy (repenNotedAt v f d) || ((repenNotedAt v f d).flock f).repen.isSome) = true := by
    rw [repenBusy_notedAt, hbusy, show (repenNotedAt v f d).flock f = d.flock f from rfl, hr]
    decide
  have ht' : ¬ ((repenNotedAt v f d).flock f).takeover.isSome = true := by
    rw [show (repenNotedAt v f d).flock f = d.flock f from rfl, ht]
    decide
  simp only [repenRequest, hq, hv, hf]
  exact (if_neg hc).trans (if_neg ht')

/-! ### A request that is refused, and one that waits (R72) -/

/-- A refusal notes its cause, and leaves the fields of the request. -/
theorem repenRefuse_notes (c : Nat) (hc : c < 256) (d : Dev) :
    (repenRefuse c d).bit Reg.REPEN_STATUS 2 = true ∧ (repenRefuse c d).fld Reg.REPEN_STATUS 15 8 = c ∧
      (repenRefuse c d).fld Reg.REPEN_STATUS 31 16 = d.fld Reg.REPEN_STATUS 31 16 ∧
      (repenRefuse c d).fld Reg.REPEN_STATUS 7 4 = d.fld Reg.REPEN_STATUS 7 4 := by
  unfold repenRefuse
  refine ⟨?_, Dev.fld_setFld_same _ _ (by decide) hc, ?_, ?_⟩
  · rw [Dev.bit_setFld_outside _ _ _ (by decide) (by decide) (by decide), Dev.bit_setBit_same _ _ (by decide)]
  · rw [Dev.fld_setFld_disjoint _ _ _ (by decide) (by decide) (by decide), Dev.fld_setBit_outside _ _ (by decide) (by decide)]
  · rw [Dev.fld_setFld_disjoint _ _ _ (by decide) (by decide) (by decide), Dev.fld_setBit_outside _ _ (by decide) (by decide)]

theorem regsOnly_repenRefuse (c : Nat) (d : Dev) : RegsOnly (· = Reg.REPEN_STATUS) d (repenRefuse c d) :=
  (regsOnly_wr (by rfl) _ d).trans (regsOnly_wr (by rfl) _ _)

theorem fld_repenNoted (v : Word) (d : Dev) : (repenNoted v d).fld Reg.REPEN_STATUS 31 16 = fld v 15 0 :=
  Dev.fld_setFld_same _ _ (by decide) (fld_lt v 15 0)

theorem fld_repenNotedAt (v : Word) (f : Nat) (d : Dev) : (repenNotedAt v f d).fld Reg.REPEN_STATUS 31 16 = fld v 15 0 :=
  (Dev.fld_setFld_disjoint _ _ _ (by decide) (by decide) (by decide)).trans (fld_repenNoted v d)

theorem regsOnly_repenNoted (v : Word) (d : Dev) : RegsOnly (· = Reg.REPEN_STATUS) d (repenNoted v d) := regsOnly_wr (by rfl) _ d

theorem regsOnly_repenNotedAt (v : Word) (f : Nat) (d : Dev) : RegsOnly (· = Reg.REPEN_STATUS) d (repenNotedAt v f d) :=
  (regsOnly_repenNoted v d).trans (regsOnly_wr (by rfl) _ _)

/-- A change of registers, with an answer to the requester, as a command leaves the rest. -/
theorem RegsOnly.onlyRegs_okay {p : Nat → Prop} {s : State} {e : Dev} (h : RegsOnly p s.dev e) : OnlyRegs p s { s with dev := e.okay } :=
  ⟨rfl, rfl, (congrArg (fun x : Dev => { x with resp := s.dev.resp }) h.1 :), h.2⟩

end

section
variable {s : State} {q : Req} {v : Word} {f : Nat}

/-- A request that meets another, or names no flock, is refused with its cause. -/
theorem gives_repenRequest_refused {c : Nat} (hq : s.dev.keeper q = true) (hv : bitOf v 31 = true)
    (hc : repenFlock v s.dev = none ∧ c = (if repenBusy s.dev then 1 else 2) ∨
      (∃ f < 16, repenFlock v s.dev = some f ∧ (repenBusy s.dev = true ∨ (s.dev.flock f).repen ≠ none)) ∧ c = 1) :
    Gives (.repenRequest q v) s (fun t => t.dev.resp = .ok 0 ∧ t.dev.bit Reg.REPEN_STATUS 2 = true ∧ t.dev.fld Reg.REPEN_STATUS 15 8 = c ∧
      t.dev.fld Reg.REPEN_STATUS 31 16 = fld v 15 0 ∧ OnlyRegs (· = Reg.REPEN_STATUS) s t) := by
  have hgives : ∀ e, RegsOnly (· = Reg.REPEN_STATUS) s.dev e → e.fld Reg.REPEN_STATUS 31 16 = fld v 15 0 → c < 256 →
      repenRequest q v s.dev = (repenRefuse c e).okay → Gives (.repenRequest q v) s (fun t => t.dev.resp = .ok 0 ∧
        t.dev.bit Reg.REPEN_STATUS 2 = true ∧ t.dev.fld Reg.REPEN_STATUS 15 8 = c ∧
        t.dev.fld Reg.REPEN_STATUS 31 16 = fld v 15 0 ∧ OnlyRegs (· = Reg.REPEN_STATUS) s t) := fun e he hid hc he' => by
    obtain ⟨hbit, hcause, hid', -⟩ := repenRefuse_notes c hc e
    exact gives_of_upd (exec_repenRequest q v s) he' ⟨rfl, hbit, hcause, hid'.trans hid, (he.trans (regsOnly_repenRefuse c e)).onlyRegs_okay⟩
  obtain ⟨hf, rfl⟩ | ⟨⟨f, -, hf, hbusy⟩, rfl⟩ := hc
  · exact hgives _ (regsOnly_repenNoted v s.dev) (fld_repenNoted v s.dev) (by split <;> decide) (repenRequest_without_flock hq hv hf)
  · exact hgives _ (regsOnly_repenNotedAt v f s.dev) (fld_repenNotedAt v f s.dev) (by decide) (repenRequest_of_busy hq hv hf hbusy)

/-- A request during a takeover waits for its end. -/
theorem gives_repenRequest_waiting (hf16 : f < 16) (hq : s.dev.keeper q = true) (hv : bitOf v 31 = true) (hf : repenFlock v s.dev = some f)
    (hbusy : repenBusy s.dev = false) (hr : (s.dev.flock f).repen = none) (ht : (s.dev.flock f).takeover ≠ none) :
    Gives (.repenRequest q v) s (fun t => t.dev.resp = .ok 0 ∧ t.dev.flock f = { s.dev.flock f with
        repen := some { step := 0, variant := fld v 15 0, align := bitOf v 24, since := s.dev.clk } } ∧
      (∀ g, g ≠ f → t.dev.flock g = s.dev.flock g) ∧ t.dev.fld Reg.REPEN_STATUS 31 16 = fld v 15 0 ∧ t.dev.fld Reg.REPEN_STATUS 7 4 = f ∧
      Leaves (fun d e => { d with regs := e.regs, flocks := e.flocks, resp := e.resp }) (· = Reg.REPEN_STATUS) s t) := by
  refine gives_of_upd (exec_repenRequest q v s) (repenRequest_waiting hq hv hf hbusy hr ht) ⟨rfl, ?_, fun g hg => ?_,
    fld_repenNotedAt v f s.dev, Dev.fld_setFld_same _ _ (by decide) hf16, rfl, rfl, rfl, ?_⟩
  · rw [Dev.flock_okay, flock_setRepen_same]
    rfl
  · rw [Dev.flock_okay, flock_setRepen_ne hg]
    rfl
  · exact (regsOnly_repenNotedAt v f s.dev).2

end

/-! ### A request that is accepted (R72, R74) -/

/-- CELL_STATUS of the posts of a flock. -/
def IsCellStatus (f o : Nat) : Prop := ∃ p < 8, o = Reg.CELL_STATUS f p

theorem isCellStatus_ne_flockStatus {f g : Nat} : ¬ IsCellStatus f (Reg.FLOCK_STATUS g) := by
  rintro ⟨p, hp, h⟩
  unfold Reg.FLOCK_STATUS Reg.CELL_STATUS at h
  omega

/-- SHADOWED of the posts follows SHADOW_POST. -/
theorem regsOnly_setShadow_posts (f q : Nat) (d : Dev) : RegsOnly (IsCellStatus f) (d.setFld (Reg.FLOCK_STATUS f) 15 12 q) (setShadow f q d) := by
  unfold setShadow
  refine regsOnly_forN 8 _ (fun p hp d => ?_) _
  unfold Dev.putBit
  split <;> exact regsOnly_wr ⟨p, hp, rfl⟩ _ d

theorem regsOnly_setShadow (f q : Nat) (d : Dev) : RegsOnly (fun o => o = Reg.FLOCK_STATUS f ∨ IsCellStatus f o) d (setShadow f q d) :=
  RegsOnly.trans (regsOnly_wr (.inl rfl) _ d) ((regsOnly_setShadow_posts f q d).mono fun _ => .inr)

theorem setShadow_flockStatus (f q : Nat) (d : Dev) :
    (setShadow f q d).rd (Reg.FLOCK_STATUS f) = (d.setFld (Reg.FLOCK_STATUS f) 15 12 q).rd (Reg.FLOCK_STATUS f) :=
  (regsOnly_setShadow_posts f q d).2 _ isCellStatus_ne_flockStatus

/-- The registers of a re-pen's request. -/
def repenMarked (f : Nat) (d : Dev) : Dev := setShadow f 15 ((d.setBit Reg.REPEN_STATUS 0).setBit (Reg.FLOCK_STATUS f) 10)

theorem repenAccept_zero (f v : Nat) (align : Bool) (d : Dev) : repenAccept 0 f v align d =
    let e := repenMarked f (d.ldUpd (fun l => { l with journal := some (f, v), serial := d.rd Reg.IMAGE_SERIAL }))
    let e := e.updFlock f (fun x => { x with probing := false, handoff := none })
    setRepen f (some { step := 1, variant := v, align := align, since := e.clk, seq := (e.head (flockHead e f)).seq }) e := rfl

theorem repenAccept_ne_zero {c : Nat} (hc : c ≠ 0) (f v : Nat) (align : Bool) (d : Dev) :
    repenAccept c f v align d = repenRefuse c (setRepen f none d) := by
  cases c with
  | zero => exact absurd rfl hc
  | succ n => rfl

theorem repenStatus_ne_flockStatus (f : Nat) : Reg.REPEN_STATUS ≠ Reg.FLOCK_STATUS f := by unfold Reg.REPEN_STATUS Reg.FLOCK_STATUS; omega

/-- The flags of an accepted request, and the fields of REPEN_STATUS and FLOCK_STATUS that stay. -/
theorem repenMarked_notes (f : Nat) (d : Dev) :
    (repenMarked f d).rd Reg.REPEN_STATUS = (d.setBit Reg.REPEN_STATUS 0).rd Reg.REPEN_STATUS ∧
      (repenMarked f d).bit (Reg.FLOCK_STATUS f) 10 = true ∧ (repenMarked f d).fld (Reg.FLOCK_STATUS f) 15 12 = 15 ∧
      flockHead (repenMarked f d) f = flockHead d f := by
  have hne := repenStatus_ne_flockStatus f
  unfold repenMarked
  refine ⟨?_, ?_, ?_, ?_⟩
  · rw [(regsOnly_setShadow ..).2, Dev.rd_setBit_ne _ _ hne]
    rintro (h | ⟨p, hp, h⟩)
    · exact hne h
    · unfold Reg.REPEN_STATUS Reg.CELL_STATUS at h
      omega
  · rw [Dev.bit_congr (setShadow_flockStatus ..), Dev.bit_setFld_outside _ _ _ (by decide) (by decide) (by decide), Dev.bit_setBit_same _ _ (by decide)]
  · rw [Dev.fld_congr (setShadow_flockStatus ..), Dev.fld_setFld_same _ _ (by decide) (by decide)]
  · rw [flockHead, Dev.fld_congr (setShadow_flockStatus ..), Dev.fld_setFld_disjoint _ _ _ (by decide) (by decide) (by decide),
      Dev.fld_setBit_outside _ _ (by decide) (by decide), Dev.fld_congr (Dev.rd_setBit_ne _ _ hne.symm), flockHead]

theorem Dev.head_updFlock (d : Dev) (f : Nat) (g : FlockSt → FlockSt) (h : Nat) : (d.updFlock f g).head h = d.head h := rfl

/-- A flock's state is no part of what its registers hold. -/
theorem flockHead_updFlock (d : Dev) (f : Nat) (g : FlockSt → FlockSt) (f' : Nat) : flockHead (d.updFlock f g) f' = flockHead d f' :=
  Dev.fld_congr (Dev.updFlock_rd d f g _) 3 0

theorem RegsOnly.clk {p : Nat → Prop} {d e : Dev} (h : RegsOnly p d e) : e.clk = d.clk := (congrArg Dev.clk h.1 :)
theorem RegsOnly.ld {p : Nat → Prop} {d e : Dev} (h : RegsOnly p d e) : e.ld = d.ld := (congrArg Dev.ld h.1 :)
theorem RegsOnly.head {p : Nat → Prop} {d e : Dev} (h : RegsOnly p d e) (k : Nat) : e.head k = d.head k := (congrArg (fun x : Dev => x.head k) h.1 :)
theorem RegsOnly.flock {p : Nat → Prop} {d e : Dev} (h : RegsOnly p d e) (f : Nat) : e.flock f = d.flock f :=
  (congrArg (fun x : Dev => x.flock f) h.1 :)

theorem regsOnly_repenMarked (f : Nat) (d : Dev) : RegsOnly (fun _ => True) d (repenMarked f d) := by
  have hbits : RegsOnly (fun _ => True) d ((d.setBit Reg.REPEN_STATUS 0).setBit (Reg.FLOCK_STATUS f) 10) :=
    RegsOnly.trans (regsOnly_wr trivial _ d) (regsOnly_wr trivial _ _)
  exact hbits.trans ((regsOnly_setShadow f 15 _).mono fun _ _ => trivial)

/-- What an accepted request makes of the die. -/
theorem repenAccept_zero_notes (f v : Nat) (align : Bool) (d : Dev) :
    (repenAccept 0 f v align d).rd Reg.REPEN_STATUS = (d.setBit Reg.REPEN_STATUS 0).rd Reg.REPEN_STATUS ∧
      (repenAccept 0 f v align d).bit (Reg.FLOCK_STATUS f) 10 = true ∧ (repenAccept 0 f v align d).ld.journal = some (f, v) ∧
      (repenAccept 0 f v align d).fld (Reg.FLOCK_STATUS f) 15 12 = 15 ∧
      (repenAccept 0 f v align d).flock f = { d.flock f with
        probing := false, handoff := none
        repen := some { step := 1, variant := v, align := align, since := d.clk, seq := (d.head (flockHead d f)).seq } } := by
  rw [repenAccept_zero]
  dsimp only
  obtain ⟨hstatus, hbit, hshadow, hhead⟩ := repenMarked_notes f (d.ldUpd (fun l => { l with journal := some (f, v), serial := d.rd Reg.IMAGE_SERIAL }))
  have hregs := regsOnly_repenMarked f (d.ldUpd (fun l => { l with journal := some (f, v), serial := d.rd Reg.IMAGE_SERIAL }))
  have hjournal := congrArg Loader.journal hregs.ld
  have hclk := hregs.clk
  have hseq := hregs.head (flockHead d f)
  have hflock := hregs.flock f
  generalize repenMarked f _ = e at *
  rw [flock_setRepen_same, Dev.flock_updFlock_same, flockHead_updFlock, Dev.updFlock_clk, Dev.head_updFlock, hclk, hhead, hflock]
  refine ⟨?_, ?_, ?_, ?_, ?_⟩
  · rw [rd_setRepen, Dev.updFlock_rd, hstatus]
    rfl
  · rw [Dev.bit_congr (rd_setRepen ..), Dev.bit_congr (Dev.updFlock_rd ..), hbit]
  · rw [ld_setRepen, Dev.updFlock_ld, hjournal]
    rfl
  · rw [Dev.fld_congr (rd_setRepen ..), Dev.fld_congr (Dev.updFlock_rd ..), hshadow]
  · exact congrArg (fun n : Nat => { d.flock f with
      probing := false, handoff := none, repen := some { step := 1, variant := v, align := align, since := d.clk, seq := n } })
      (congrArg HeadSt.seq hseq)

/-- A request that R72 checks: it is accepted, or refused with its cause. -/
theorem gives_repenRequest_checked {s : State} {q : Req} {v : Word} {f : Nat} (hq : s.dev.keeper q = true) (hv : bitOf v 31 = true)
    (hf : repenFlock v s.dev = some f) (hf16 : f < 16) (hbusy : repenBusy s.dev = false) (hr : (s.dev.flock f).repen = none)
    (ht : (s.dev.flock f).takeover = none) :
    Gives (.repenRequest q v) s (fun t => t.dev.resp = .ok 0 ∧ t.dev.fld Reg.REPEN_STATUS 31 16 = fld v 15 0 ∧
      t.dev.fld Reg.REPEN_STATUS 7 4 = f % 16 ∧
      (if repenCause f (fld v 15 0) s.dev = 0 then t.dev.bit Reg.REPEN_STATUS 0 = true ∧ t.dev.bit (Reg.FLOCK_STATUS f) 10 = true ∧
        t.dev.ld.journal = some (f, fld v 15 0) ∧
        t.dev.fld (Reg.FLOCK_STATUS f) 15 12 = 15 ∧ (t.dev.flock f).probing = false ∧ (t.dev.flock f).handoff = none ∧
        (t.dev.flock f).repen =
          some { step := 1, variant := fld v 15 0, align := bitOf v 24, since := s.dev.clk, seq := (s.dev.head (flockHead s.dev f)).seq }
      else t.dev.bit Reg.REPEN_STATUS 2 = true ∧ t.dev.fld Reg.REPEN_STATUS 15 8 = repenCause f (fld v 15 0) s.dev ∧
        (t.dev.flock f).repen = none ∧ t.dev.ld = s.dev.ld) ∧ SameMem s t ∧ t.pending = s.pending) := by
  have hid := fld_repenNotedAt v f s.dev
  have hflock : (repenNotedAt v f s.dev).fld Reg.REPEN_STATUS 7 4 = f := Dev.fld_setFld_same _ _ (by decide) hf16
  have hnoted := regsOnly_repenNotedAt v f s.dev
  have hhead : flockHead (repenNotedAt v f s.dev) f = flockHead s.dev f := by
    rw [flockHead, Dev.fld_congr (hnoted.2 _ (repenStatus_ne_flockStatus f).symm), flockHead]
  have hcause : repenCause f (fld v 15 0) s.dev < 256 := by
    unfold repenCause
    repeat' split
    all_goals decide
  have hreq := repenRequest_checked hq hv hf hbusy hr ht
  generalize repenNotedAt v f s.dev = d at *
  generalize repenCause f (fld v 15 0) s.dev = c at *
  by_cases hc : c = 0
  · subst hc
    obtain ⟨hstatus, hbit, hjournal, hshadow, hrepen⟩ := repenAccept_zero_notes f (fld v 15 0) (bitOf v 24) d
    obtain ⟨e, he⟩ : ∃ e, repenAccept 0 f (fld v 15 0) (bitOf v 24) d = e := ⟨_, rfl⟩
    rw [he] at hstatus hbit hjournal hshadow hrepen hreq
    refine gives_of_upd (exec_repenRequest q v s) hreq ⟨rfl, ?_, ?_, ?_, rfl, rfl⟩
    · exact (Dev.fld_congr hstatus 31 16).trans ((Dev.fld_setBit_outside _ _ (by decide) (by decide)).trans hid)
    · exact (Dev.fld_congr hstatus 7 4).trans ((Dev.fld_setBit_outside _ _ (by decide) (by decide)).trans (by omega))
    · rw [if_pos rfl]
      refine ⟨(Dev.bit_congr hstatus 0).trans (Dev.bit_setBit_same _ _ (by decide)), hbit, hjournal, hshadow, ?_, ?_, ?_⟩
      · exact congrArg FlockSt.probing hrepen
      · exact congrArg FlockSt.handoff hrepen
      · refine (congrArg FlockSt.repen hrepen).trans ?_
        rw [hnoted.clk, hhead, hnoted.head]
  · rw [repenAccept_ne_zero hc] at hreq
    obtain ⟨hbit, hfld, hid', hflock'⟩ := repenRefuse_notes c hcause (setRepen f none d)
    have hregs := regsOnly_repenRefuse c (setRepen f none d)
    rw [Dev.fld_congr (rd_setRepen ..)] at hid' hflock'
    have hrepen : ((repenRefuse c (setRepen f none d)).flock f).repen = none := by rw [hregs.flock, flock_setRepen_same]
    have hld : (repenRefuse c (setRepen f none d)).ld = s.dev.ld := by rw [hregs.ld, ld_setRepen, hnoted.ld]
    generalize repenRefuse c (setRepen f none d) = e at *
    refine gives_of_upd (exec_repenRequest q v s) hreq ⟨rfl, hid'.trans hid, hflock'.trans (by omega), ?_, rfl, rfl⟩
    rw [if_neg hc]
    exact ⟨hbit, hfld, hrepen, hld⟩

end Sys2Proof.Machine

/-! PROOFS. The steps of a re-pen that do not fall due, and the blank step (O50). -/
namespace Sys2Proof.Machine

-- One proof after another: proofs that wait for the kernel at once would take more threads than the check's memory holds.
set_option Elab.async false

/-! ### Steps that do not fall due (R74) -/

theorem exec_repenBlank (s : State) : exec .repenBlank s = .next (s.upd repenBlankStep) := rfl
theorem exec_repenStoreRewritten (s : State) : exec .repenStoreRewritten s = .next (s.upd repenRewritten) := rfl
theorem exec_repenCellsLoaded (lost : List Nat) (s : State) : exec (.repenCellsLoaded lost) s = .next (s.upd (repenLoaded lost)) := rfl
theorem exec_repenProbeDone (bad : List Nat) (spareOk : Bool) (s : State) :
    exec (.repenProbeDone bad spareOk) s = .next (s.upd (repenProbed bad spareOk)) := rfl
theorem exec_repenRejoin (s : State) : exec .repenRejoin s = .next (s.upd repenRejoin) := rfl

theorem repenBlankStep_idle {d : Dev} (h : ∀ f r, repenAt d 1 = some (f, r) → frameCame d f r = false) : repenBlankStep d = d := by
  unfold repenBlankStep
  split
  · rfl
  next f r hat => exact if_pos (by rw [h f r hat]; rfl)

theorem repenRewritten_idle {d : Dev} (h : repenAt d 2 = none) : repenRewritten d = d := by simp only [repenRewritten, h]

theorem repenLoaded_idle {d : Dev} (h : repenAt d 3 = none) (lost : List Nat) : repenLoaded lost d = d := by simp only [repenLoaded, h]

theorem repenProbed_idle {d : Dev} (h : repenAt d 4 = none) (bad : List Nat) (spareOk : Bool) : repenProbed bad spareOk d = d := by
  simp only [repenProbed, h]

theorem repenRejoin_idle {d : Dev} (h : ∀ f r, repenAt d 5 = some (f, r) →
    frameCame d f r = false ∨ railLevel d < railFloor d ∨ (d.flock f).takeover ≠ none) : repenRejoin d = d := by
  unfold repenRejoin
  split
  · rfl
  next f r hat =>
    refine if_pos ?_
    rw [Bool.or_eq_true, Bool.or_eq_true, Bool.not_eq_true', decide_eq_true_eq, Option.isSome_iff_ne_none, or_assoc]
    exact h f r hat

/-- A step of a re-pen that does not fall due leaves the state as it is. -/
theorem gives_same {i : Instr} {s : State} {g : Dev → Dev} (he : exec i s = .next (s.upd g)) (hg : g s.dev = s.dev) : Gives i s (fun t => t = s) :=
  gives_of_upd he hg rfl

/-- The flock of a re-pen that stands at step n is one of the 16. -/
theorem repenAt_some {d : Dev} {n f : Nat} {r : Repen} (h : repenAt d n = some (f, r)) : f < 16 ∧ (d.flock f).repen = some r ∧ r.step = n := by
  obtain ⟨g, hg, hm⟩ := List.exists_of_findSome?_eq_some h
  split at hm
  next r' hr' =>
    split at hm
    next hstep =>
      obtain ⟨rfl, rfl⟩ := Prod.mk.inj (Option.some.inj hm)
      exact ⟨List.mem_range.1 hg, hr', hstep⟩
    next => exact absurd hm (by simp)
  next => exact absurd hm (by simp)

end Sys2Proof.Machine

/-! PROOFS. The line starts of a head (R181), to which a re-pen's steps wait (O50). -/
namespace Sys2Proof.Machine

-- One proof after another: proofs that wait for the kernel at once would take more threads than the check's memory holds.
set_option Elab.async false

/-! ### The modes (R205, R206) -/

/-- A line of every mode is longer than 16 pixels, and lasts at least a nanosecond. -/
def Mode.Sound (m : Mode) : Prop := 16 < m.hTot ∧ 0 < m.vTot ∧ 0 < m.pd ∧ m.pd * m.vTot ≤ m.pn

theorem modeTable_sound (k : Nat) : (modeTable k).Sound := by
  unfold modeTable Mode.Sound
  split <;> decide

theorem modeOf_sound (d : Dev) (h : Nat) : (modeOf d h).Sound := by
  obtain ⟨h1, h2, h3, h4⟩ := modeTable_sound (d.fld (Reg.HEAD_STATUS h) 7 4)
  unfold modeOf
  dsimp only
  split
  · refine ⟨h1, h2, by dsimp only; omega, ?_⟩
    calc (modeTable _).pd * 1000 * (modeTable _).vTot = (modeTable _).pd * (modeTable _).vTot * 1000 := by ring
      _ ≤ (modeTable _).pn * 1000 := Nat.mul_le_mul_right 1000 h4
      _ ≤ (modeTable _).pn * 1001 := Nat.mul_le_mul_left _ (by decide)
  · exact ⟨h1, h2, h3, h4⟩

theorem Mode.Sound.den_pos {m : Mode} (h : m.Sound) : 0 < m.den := by
  obtain ⟨h1, h2, h3, -⟩ := h
  exact Nat.mul_pos (Nat.mul_pos h3 (by omega)) h2

theorem Mode.Sound.pn_pos {m : Mode} (h : m.Sound) : 0 < m.pn := by
  obtain ⟨-, h2, h3, h4⟩ := h
  exact (Nat.mul_pos h3 h2).trans_le h4

/-- A line period is at least a nanosecond. -/
theorem Mode.Sound.den_le {m : Mode} (h : m.Sound) : m.den ≤ m.hTot * m.pn := by
  obtain ⟨-, -, -, h4⟩ := h
  calc m.pd * m.hTot * m.vTot = m.hTot * (m.pd * m.vTot) := by ring
    _ ≤ m.hTot * m.pn := Nat.mul_le_mul_left _ h4

theorem Mode.span_mono (m : Mode) {a b : Nat} (h : a ≤ b) : m.span a ≤ m.span b := Nat.div_le_div_right (Nat.mul_le_mul_right _ h)

/-- Pixels that have run lie in the past. -/
theorem Mode.span_pixels_le (m : Mode) {a px : Nat} (hpx : px ≤ a * m.den / m.pn) : m.span px ≤ a := by
  refine Nat.div_le_of_le_mul ?_
  calc px * m.pn ≤ a * m.den / m.pn * m.pn := Nat.mul_le_mul_right _ hpx
    _ ≤ a * m.den := Nat.div_mul_le_self _ _
    _ = m.den * a := Nat.mul_comm ..

/-- A line past the pixels that have run lies ahead. -/
theorem Mode.Sound.lt_span {m : Mode} (h : m.Sound) {a px : Nat} (hpx : a * m.den / m.pn + 1 + m.hTot ≤ px) : a < m.span px := by
  refine (Nat.le_div_iff_mul_le h.den_pos).2 ?_
  have hrun : a * m.den < (a * m.den / m.pn + 1) * m.pn := Nat.lt_mul_of_div_lt (Nat.lt_succ_self _) h.pn_pos
  calc (a + 1) * m.den = a * m.den + m.den := by ring
    _ ≤ (a * m.den / m.pn + 1) * m.pn + m.hTot * m.pn := Nat.add_le_add hrun.le h.den_le
    _ = (a * m.den / m.pn + 1 + m.hTot) * m.pn := by ring
    _ ≤ px * m.pn := Nat.mul_le_mul_right _ hpx

/-! ### The next line start (R74, R181) -/

section
variable {d : Dev} {h : Nat} (hrelocked : (d.head h).relocked = false)
include hrelocked

/-- The line start of a line of the frame that runs, by the pixel clock. -/
theorem lineStartClk_eq {n : Nat} (hn : n < (modeOf d h).vTot) :
    lineStartClk d h n = (d.head h).fsClk + (modeOf d h).span (n * (modeOf d h).hTot - 16) := by
  obtain ⟨h1, h2, -, -⟩ := modeOf_sound d h
  have hpx : n * (modeOf d h).hTot - 16 < (modeOf d h).hTot * (modeOf d h).vTot := by
    have hmul : n * (modeOf d h).hTot < (modeOf d h).hTot * (modeOf d h).vTot := by
      rw [Nat.mul_comm]
      exact Nat.mul_lt_mul_of_pos_left hn (by omega)
    omega
  unfold lineStartClk pixClk
  dsimp only
  rw [if_neg (by omega), hrelocked, if_neg (by simp)]

theorem lineStartClk_mono {n k : Nat} (hnk : n ≤ k) (hk : k < (modeOf d h).vTot) : lineStartClk d h n ≤ lineStartClk d h k := by
  rw [lineStartClk_eq hrelocked (by omega), lineStartClk_eq hrelocked hk]
  have := Nat.mul_le_mul_right (modeOf d h).hTot hnk
  exact Nat.add_le_add_left ((modeOf d h).span_mono (by omega)) _

/-- The line that the beam is in, counted from its line start. -/
def lineNow (d : Dev) (h : Nat) : Nat := (pixelsRun d h + 16) / (modeOf d h).hTot

omit hrelocked in
theorem lineNow_bounds : lineNow d h * (modeOf d h).hTot ≤ pixelsRun d h + 16 ∧ pixelsRun d h + 16 < (lineNow d h + 1) * (modeOf d h).hTot := by
  obtain ⟨h1, -, -, -⟩ := modeOf_sound d h
  exact ⟨Nat.div_mul_le_self _ _, Nat.lt_mul_of_div_lt (Nat.lt_succ_self _) (by omega)⟩

/-- The line starts before the present line's lie in the past. -/
theorem lineStartClk_past {n : Nat} (hn : n < lineNow d h) (hv : n < (modeOf d h).vTot) : lineStartClk d h n ≤ d.clk := by
  obtain ⟨hlow, -⟩ := lineNow_bounds (d := d) (h := h)
  obtain ⟨h1, -, -, -⟩ := modeOf_sound d h
  have hle : (n + 1) * (modeOf d h).hTot ≤ pixelsRun d h + 16 := (Nat.mul_le_mul_right _ hn).trans hlow
  rw [Nat.add_mul, Nat.one_mul] at hle
  rw [lineStartClk_eq hrelocked hv]
  have hspan : (modeOf d h).span (n * (modeOf d h).hTot - 16) ≤ d.clk - (d.head h).fsClk :=
    (modeOf d h).span_pixels_le (by unfold pixelsRun at hle; exact (by omega))
  by_cases hfs : (d.head h).fsClk ≤ d.clk
  · omega
  · have hrun : pixelsRun d h = 0 := by unfold pixelsRun; rw [Nat.sub_eq_zero_of_le (by omega)]; simp
    omega

/-- The line start after the next lies ahead. -/
theorem lineStartClk_ahead (hv : lineNow d h + 2 < (modeOf d h).vTot) : d.clk < lineStartClk d h (lineNow d h + 2) := by
  obtain ⟨-, hhigh⟩ := lineNow_bounds (d := d) (h := h)
  rw [lineStartClk_eq hrelocked hv]
  have hspan : d.clk - (d.head h).fsClk < (modeOf d h).span ((lineNow d h + 2) * (modeOf d h).hTot - 16) := by
    refine (modeOf_sound d h).lt_span ?_
    have hmul : (lineNow d h + 2) * (modeOf d h).hTot = (lineNow d h + 1) * (modeOf d h).hTot + (modeOf d h).hTot := by ring
    unfold pixelsRun at hhigh
    omega
  omega

end

end Sys2Proof.Machine

/-! PROOFS. The blank step of a re-pen (O50). -/
namespace Sys2Proof.Machine

-- One proof after another: proofs that wait for the kernel at once would take more threads than the check's memory holds.
set_option Elab.async false

/-! ### Time up to the next line start (R74) -/

/-- The die at another instant. -/
def timePart (e d : Dev) : Dev := { e with ht := d.ht, clk := d.clk }

/-- Only time passes. -/
def TimeOnly (d e : Dev) : Prop := timePart e d = d

theorem TimeOnly.refl (d : Dev) : TimeOnly d d := rfl
theorem TimeOnly.regs {d e : Dev} (h : TimeOnly d e) : e.regs = d.regs := (congrArg Dev.regs h :)
theorem TimeOnly.head {d e : Dev} (h : TimeOnly d e) (k : Nat) : e.head k = d.head k := (congrArg (fun x : Dev => x.head k) h :)
theorem TimeOnly.flock {d e : Dev} (h : TimeOnly d e) (f : Nat) : e.flock f = d.flock f := (congrArg (fun x : Dev => x.flock f) h :)
theorem TimeOnly.rd {d e : Dev} (h : TimeOnly d e) (o : Nat) : e.rd o = d.rd o := by rw [Dev.rd, h.regs, Dev.rd]
theorem TimeOnly.trans {d e x : Dev} (h : TimeOnly d e) (k : TimeOnly e x) : TimeOnly d x :=
  (congrArg (fun y : Dev => timePart y d) k :).trans h

theorem timeOnly_passClk (d : Dev) (c : Nat) : TimeOnly d (d.passClk c) := (passed_passClk d c).1

theorem clk_passClk (d : Dev) (c : Nat) : (d.passClk c).clk = max d.clk c := (passed_passClk d c).2

/-- The first of the present line's start and the two that follow that lies ahead. -/
def nextStart (d : Dev) (h : Nat) : Option Nat :=
  [lineNow d h, lineNow d h + 1, lineNow d h + 2].find? (fun n => decide (d.clk < lineStartClk d h n))

theorem toLineStart_eq (f : Nat) (d : Dev) : toLineStart f d =
    if headScans d f then
      match nextStart d (flockHead d f) with
      | some n => d.passClk (lineStartClk d (flockHead d f) n)
      | none => d
    else d := rfl

theorem timeOnly_toLineStart (f : Nat) (d : Dev) : TimeOnly d (toLineStart f d) := by
  rw [toLineStart_eq]
  split
  · split
    · exact timeOnly_passClk d _
    · exact .refl d
  · exact .refl d

/-- The line start that is chosen is the first that lies ahead. -/
theorem nextStart_first {d : Dev} {h : Nat} (hrelocked : (d.head h).relocked = false) (hv : lineNow d h + 2 < (modeOf d h).vTot) :
    ∃ n, nextStart d h = some n ∧ d.clk < lineStartClk d h n ∧
      ∀ k < (modeOf d h).vTot, d.clk < lineStartClk d h k → lineStartClk d h n ≤ lineStartClk d h k := by
  have hpast : ∀ k < (modeOf d h).vTot, d.clk < lineStartClk d h k → lineNow d h ≤ k := fun k hk hahead => by
    by_contra hlt
    have := lineStartClk_past hrelocked (Nat.not_le.1 hlt) hk
    omega
  have hmono {n k : Nat} (hnk : n ≤ k) (hk : k < (modeOf d h).vTot) := lineStartClk_mono hrelocked hnk hk
  have hahead := lineStartClk_ahead hrelocked hv
  by_cases h0 : d.clk < lineStartClk d h (lineNow d h)
  · exact ⟨_, by simp [nextStart, h0], h0, fun k hk hka => hmono (hpast k hk hka) hk⟩
  have hone : ∀ k < (modeOf d h).vTot, d.clk < lineStartClk d h k → lineNow d h + 1 ≤ k := fun k hk hka => by
    have hne : k ≠ lineNow d h := fun he => h0 (he ▸ hka)
    have := hpast k hk hka
    omega
  by_cases h1 : d.clk < lineStartClk d h (lineNow d h + 1)
  · exact ⟨_, by simp [nextStart, h0, h1], h1, fun k hk hka => hmono (hone k hk hka) hk⟩
  · refine ⟨_, by simp [nextStart, h0, h1, hahead], hahead, fun k hk hka => hmono ?_ hk⟩
    have hne : k ≠ lineNow d h + 1 := fun he => h1 (he ▸ hka)
    have := hone k hk hka
    omega

/-- Time passes up to the first line start of the flock's head that lies ahead, while the frame is not in its last lines. -/
theorem toLineStart_clk {d : Dev} {f h : Nat} (hscan : headScans d f = true) (hh : h = flockHead d f) (hrelocked : (d.head h).relocked = false)
    (hrun : pixelsRun d h + 16 < ((modeOf d h).vTot - 2) * (modeOf d h).hTot) :
    d.clk < (toLineStart f d).clk ∧ (∃ n, (toLineStart f d).clk = lineStartClk d h n) ∧
      ∀ n < (modeOf d h).vTot, d.clk < lineStartClk d h n → (toLineStart f d).clk ≤ lineStartClk d h n := by
  subst hh
  have hline : lineNow d (flockHead d f) < (modeOf d (flockHead d f)).vTot - 2 := Nat.div_lt_of_lt_mul (by rwa [Nat.mul_comm] at hrun)
  obtain ⟨n, hn, hahead, hfirst⟩ := nextStart_first hrelocked (by omega)
  have hclk : (toLineStart f d).clk = lineStartClk d (flockHead d f) n := by
    rw [toLineStart_eq, if_pos hscan, hn]
    exact (clk_passClk d _).trans (by omega)
  rw [hclk]
  exact ⟨hahead, ⟨n, rfl⟩, hfirst⟩

/-! ### The posts of a flock go blank (R74 step 2) -/

/-- A post stops, loses its stamp, and its staged writes are discarded. -/
def blankPost (f p : Nat) (d : Dev) : Dev := (clearPost f p d).updCell f p (fun c => { c with staged := [] })

/-- The post is blank. -/
def PostBlank (f p : Nat) (d : Dev) : Prop :=
  (d.cell f p).staged = [] ∧ (d.cell f p).bufs = [] ∧ d.rd (Reg.CELL_GEN f p) = 0 ∧ d.bit (Reg.CELL_STATUS f p) 13 = false

/-- CELL_GEN and CELL_STATUS of a post. -/
def PostMark (f p o : Nat) : Prop := o = Reg.CELL_GEN f p ∨ o = Reg.CELL_STATUS f p

theorem cellGen_ne_cellStatus (f p f' p' : Nat) : Reg.CELL_GEN f p ≠ Reg.CELL_STATUS f' p' := by
  unfold Reg.CELL_GEN Reg.CELL_STATUS
  omega

theorem postMark_ne {f p p' o : Nat} (hpp : p' ≠ p) (h : PostMark f p o) : ¬ PostMark f p' o := by
  unfold PostMark Reg.CELL_GEN Reg.CELL_STATUS at *
  omega

theorem within_clearPost (f p : Nat) (d : Dev) : Within cellsPart (PostMark f p) d (clearPost f p d) := by
  unfold clearPost
  exact ((within_wr (.inl rfl) _ d).trans (within_clrBit (.inr rfl) 13 _)).trans (within_updCell f p _ _)

theorem within_blankPost (f p : Nat) (d : Dev) : Within cellsPart (PostMark f p) d (blankPost f p d) := by
  unfold blankPost
  exact (within_clearPost f p d).trans (within_updCell f p _ _)

/-- A post that has lost its stamp. -/
theorem clearPost_marks (f p : Nat) (d : Dev) :
    (clearPost f p d).rd (Reg.CELL_GEN f p) = 0 ∧ (clearPost f p d).bit (Reg.CELL_STATUS f p) 13 = false ∧ ((clearPost f p d).cell f p).bufs = [] := by
  unfold clearPost
  dsimp only
  refine ⟨?_, ?_, ?_⟩
  · rw [Dev.updCell_rd, Dev.rd_clrBit_ne _ _ (cellGen_ne_cellStatus f p f p), Dev.rd_wr_same]
  · rw [Dev.bit_congr (Dev.updCell_rd ..), Dev.bit_clrBit_same _ _ (by decide)]
  · rw [Dev.cell_updCell_same]

theorem postBlank_blankPost (f p : Nat) (d : Dev) : PostBlank f p (blankPost f p d) := by
  obtain ⟨hgen, hbit, hbufs⟩ := clearPost_marks f p d
  unfold blankPost PostBlank
  rw [Dev.cell_updCell_same, Dev.updCell_rd, Dev.bit_congr (Dev.updCell_rd ..)]
  exact ⟨rfl, hbufs, hgen, hbit⟩

theorem Dev.cell_clrBit (d : Dev) (o n f p : Nat) : (d.clrBit o n).cell f p = d.cell f p := rfl

theorem cell_clearPost_ne {f p p' : Nat} (hp : p < 8) (hp' : p' < 8) (h : p' ≠ p) (d : Dev) : (clearPost f p d).cell f p' = d.cell f p' := by
  unfold clearPost
  dsimp only
  rw [Dev.cell_updCell_ne _ _ (by omega) (by omega) fun _ => h, Dev.cell_clrBit, Dev.cell_wr]

/-- A post stays blank while another is cleared. -/
theorem PostBlank.of_ne {f p p' : Nat} (hp : p < 8) (hp' : p' < 8) (h : p' ≠ p) {d : Dev} (hd : PostBlank f p d) : PostBlank f p (blankPost f p' d) := by
  obtain ⟨h1, h2, h3, h4⟩ := hd
  have hcell : (blankPost f p' d).cell f p = d.cell f p :=
    (Dev.cell_updCell_ne _ _ (by omega) (by omega) fun _ => h.symm).trans (cell_clearPost_ne hp' hp h.symm d)
  have hreg (o : Nat) (ho : PostMark f p o) : (blankPost f p' d).rd o = d.rd o := (within_blankPost f p' d).2 o (postMark_ne h ho)
  exact ⟨by rw [hcell, h1], by rw [hcell, h2], (hreg _ (.inl rfl)).trans h3, (Dev.bit_congr (hreg _ (.inr rfl)) 13).trans h4⟩

/-- All posts of a flock go blank. -/
def blankPosts (f : Nat) (d : Dev) : Dev := posts.foldl (fun d p => blankPost f p d) d

theorem nodup_posts : posts.Nodup := List.nodup_range

theorem mem_posts {p : Nat} : p ∈ posts ↔ p < 8 := List.mem_range

theorem postBlank_blankPosts (f : Nat) {p : Nat} (hp : p < 8) (d : Dev) : PostBlank f p (blankPosts f d) :=
  foldl_at (fun _ => True) (PostBlank f p) (fun d p => blankPost f p d) nodup_posts (mem_posts.2 hp) d trivial (fun _ _ _ _ _ => trivial)
    (fun e _ => postBlank_blankPost f p e) fun _ hc hne _ he => he.of_ne hp (mem_posts.1 hc) hne

theorem within_blankPosts (f : Nat) (d : Dev) : Within cellsPart (fun o => ∃ p < 8, PostMark f p o) d (blankPosts f d) :=
  .foldl posts _ (fun p hp e => (within_blankPost f p e).mono fun _ ho => ⟨p, mem_posts.1 hp, ho⟩) d

/-! ### REPEN_BLANK (R74) -/

/-- LS_DROPS of the flock's head counts the staged writes that are discarded. -/
def countDrops (f : Nat) (d : Dev) : Dev :=
  if flockHead d f < 8 then d.bumpBy (Reg.LS_DROPS (flockHead d f)) (posts.foldl (fun n p => n + (d.cell f p).staged.length) 0) else d

theorem regsOnly_countDrops (f : Nat) (d : Dev) : RegsOnly (· = Reg.LS_DROPS (flockHead d f)) d (countDrops f d) := by
  unfold countDrops
  split
  · exact regsOnly_wr (by rfl) _ d
  · exact .refl _ d

/-- The instant at which the slots turn transparent. -/
def blankTime (f : Nat) (align : Bool) (d : Dev) : Dev := if align then d else toLineStart f d

theorem timeOnly_blankTime (f : Nat) (align : Bool) (d : Dev) : TimeOnly d (blankTime f align d) := by
  unfold blankTime
  split
  · exact .refl d
  · exact timeOnly_toLineStart f d

theorem repenBlankStep_of_due {d : Dev} {f : Nat} {r : Repen} (hat : repenAt d 1 = some (f, r)) (hcame : frameCame d f r = true) :
    ∃ r', r'.step = 2 ∧ repenBlankStep d = setRepen f (some r') (blankPosts f (countDrops f (blankTime f r.align d))) := by
  unfold repenBlankStep
  simp only [hat, hcame]
  exact ⟨_, rfl, rfl⟩

/-- The die with what the blank step may change of another. -/
def blankPart (e d : Dev) : Dev := { e with regs := d.regs, flocks := d.flocks, cells := d.cells, ht := d.ht, clk := d.clk }

theorem TimeOnly.within {p : Nat → Prop} {d e : Dev} (h : TimeOnly d e) : Within blankPart p d e :=
  ⟨(congrArg (fun x : Dev => { x with regs := d.regs, flocks := d.flocks, cells := d.cells }) h :), fun o _ => h.rd o⟩

theorem TimeOnly.flockHead {d e : Dev} (h : TimeOnly d e) (f : Nat) : flockHead e f = Machine.flockHead d f := Dev.fld_congr (h.rd _) 3 0

theorem within_setRepen {g : Dev → Dev → Dev} {p : Nat → Prop} (f : Nat) (r : Option Repen) (d : Dev)
    (hg : ∀ e d : Dev, g { e with flocks := d.flocks } d = g e d := by exact fun _ _ => rfl) (hr : ∀ d, g d d = d := by exact fun _ => rfl) :
    Within g p d (setRepen f r d) := within_updFlock f _ d hg hr

/-- The registers that the blank step may change. -/
def BlankReg (f h o : Nat) : Prop := o = Reg.LS_DROPS h ∨ ∃ p < 8, PostMark f p o

theorem within_blankSteps (f : Nat) (align : Bool) (d : Dev) :
    Within blankPart (BlankReg f (flockHead d f)) d (blankPosts f (countDrops f (blankTime f align d))) := by
  have htime := timeOnly_blankTime f align d
  have hdrops := (regsOnly_countDrops f (blankTime f align d)).within (g := blankPart)
  rw [htime.flockHead] at hdrops
  exact (htime.within.trans (hdrops.mono fun _ => .inl)).trans ((within_blankPosts f _).widen fun _ => .inr)

theorem Within.clk_of_cellsPart {p : Nat → Prop} {d e : Dev} (h : Within cellsPart p d e) : e.clk = d.clk := (congrArg Dev.clk h.1 :)

theorem clk_blankSteps (f : Nat) (align : Bool) (d : Dev) :
    (blankPosts f (countDrops f (blankTime f align d))).clk = (blankTime f align d).clk :=
  (within_blankPosts f _).clk_of_cellsPart.trans (regsOnly_countDrops f _).clk

theorem Dev.cell_setRepen (f : Nat) (r : Option Repen) (d : Dev) (f' p : Nat) : (setRepen f r d).cell f' p = d.cell f' p := rfl
theorem clk_setRepen (f : Nat) (r : Option Repen) (d : Dev) : (setRepen f r d).clk = d.clk := Dev.updFlock_clk d f _

theorem PostBlank.setRepen {f p : Nat} {d : Dev} (h : PostBlank f p d) (f' : Nat) (r : Option Repen) : PostBlank f p (setRepen f' r d) := by
  unfold PostBlank
  rw [Dev.cell_setRepen, rd_setRepen, Dev.bit_congr (rd_setRepen ..)]
  exact h

theorem gives_repenBlank {s : State} {f : Nat} {r : Repen} (hat : repenAt s.dev 1 = some (f, r)) (hcame : frameCame s.dev f r = true) :
    Gives .repenBlank s (fun t => (t.dev.flock f).repen.map (·.step) = some 2 ∧
      (∀ p < 8, (t.dev.cell f p).staged = [] ∧ (t.dev.cell f p).bufs = [] ∧ t.dev.rd (Reg.CELL_GEN f p) = 0 ∧
        t.dev.bit (Reg.CELL_STATUS f p) 13 = false) ∧ (r.align = true → t.dev.clk = s.dev.clk) ∧
      (∀ h m, r.align = false → headScans s.dev f = true → h = flockHead s.dev f → m = modeOf s.dev h → (s.dev.head h).relocked = false →
        pixelsRun s.dev h + 16 < (m.vTot - 2) * m.hTot → s.dev.clk < t.dev.clk ∧ (∃ n, t.dev.clk = lineStartClk s.dev h n) ∧
        ∀ n < m.vTot, s.dev.clk < lineStartClk s.dev h n → t.dev.clk ≤ lineStartClk s.dev h n) ∧
      Leaves (fun d e => { d with regs := e.regs, flocks := e.flocks, cells := e.cells, ht := e.ht, clk := e.clk })
        (fun o => o = Reg.LS_DROPS (flockHead s.dev f) ∨ ∃ p < 8, o = Reg.CELL_GEN f p ∨ o = Reg.CELL_STATUS f p) s t) := by
  obtain ⟨r', hstep, hblank⟩ := repenBlankStep_of_due hat hcame
  have hwithin := within_blankSteps f r.align s.dev
  have hclk := clk_blankSteps f r.align s.dev
  have hposts := fun p (hp : p < 8) => postBlank_blankPosts f hp (countDrops f (blankTime f r.align s.dev))
  obtain ⟨e, he⟩ : ∃ e, blankPosts f (countDrops f (blankTime f r.align s.dev)) = e := ⟨_, rfl⟩
  rw [he] at hblank hwithin hclk hposts
  refine gives_of_upd (exec_repenBlank s) hblank ⟨?_, fun p hp => (hposts p hp).setRepen f _, fun halign => ?_, ?_, ?_⟩
  · rw [flock_setRepen_same, Option.map_some, hstep]
  · rw [clk_setRepen, hclk, blankTime, if_pos halign]
  · intro h m halign hscan hh hm hrelocked hrun
    subst hm
    have hnext := toLineStart_clk hscan hh hrelocked hrun
    rw [clk_setRepen, hclk, blankTime, if_neg (by simp [halign])]
    exact hnext
  · exact (hwithin.trans (within_setRepen f _ e)).leaves

end Sys2Proof.Machine

/-! PROOFS. Writes and reloads of the pages of posts, and the rewriting of a flock's config store (O50). -/
namespace Sys2Proof.Machine

-- One proof after another: proofs that wait for the kernel at once would take more threads than the check's memory holds.
set_option Elab.async false

/-! ### The page of a post (R106) -/

/-- The registers of a post's page but CELL_STATUS. -/
def PostReg (f p o : Nat) : Prop := InCell f p o ∧ o % 0x10000 ≠ 4

theorem postReg_cellOff {f p o : Nat} (h : o < 0x10000) (h4 : o ≠ 4) : PostReg f p (cellOff f p o) := by
  unfold PostReg InCell cellOff
  omega

theorem not_postReg_cellStatus (f p f' p' : Nat) : ¬ PostReg f p (Reg.CELL_STATUS f' p') := by
  unfold PostReg Reg.CELL_STATUS
  omega

theorem pageOf_cell {f p o : Nat} (hf : f < 16) (hp : p < 8) (ho : o < 0x10000) : pageOf (cellOff f p o) = some (.cell f p, o) := by
  unfold pageOf cellOff
  simp only
  rw [if_neg (by omega), if_neg (by simp; omega), if_pos (by simp; omega), if_neg (by omega), if_pos (by omega)]
  simp only [Option.some.injEq, Prod.mk.injEq, Page.cell.injEq]
  omega

/-- The row of CELL_STATUS. -/
theorem cellRow_status (kind : Nat) (twin : Bool) : cellRow kind twin 4 = some ({ base := 0x4 }, 0, 4) := rfl

/-- The row that an offset of a cell page reaches has the offset that layer 0 has. -/
theorem cellRow_some {kind o l b : Nat} {twin : Bool} {r : RegRow} (h : cellRow kind twin o = some (r, l, b)) : l < 2 ∧ o = b + l * 0xF00 := by
  unfold cellRow at h
  split_ifs at h <;> simp only [Option.map_eq_some_iff, Prod.mk.injEq] at h <;> obtain ⟨_, _, _, rfl, rfl⟩ := h <;> omega

theorem Word.and_ones (w : Word) : w &&& 4294967295#32 = w := BitVec.and_allOnes

/-- A register without writable bits keeps its value. -/
theorem RegRow.merge_readOnly (base : Nat) (old v : Word) : ({ base := base } : RegRow).merge old v = old := by
  simp [RegRow.merge, Word.and_ones]

theorem RegRow.store_readOnly (base : Nat) (old v : Word) : ({ base := base } : RegRow).store old v = old := by
  simp [RegRow.store, Word.and_ones]

/-- A register that is written with its own value. -/
theorem within_wr_own {g : Dev → Dev → Dev} {q : Nat → Prop} (o : Nat) {v : Word} {d : Dev} (h : v = d.rd o)
    (hg : ∀ e d : Dev, g { e with regs := d.regs } d = g e d := by exact fun _ _ => rfl) (hr : ∀ d, g d d = d := by exact fun _ => rfl) :
    Within g q d (d.wr o v) := by
  refine ⟨(within_wr (p := (· = o)) rfl v d hg hr).1, fun x _ => ?_⟩
  subst h
  by_cases hx : x = o
  · rw [hx, Dev.rd_wr_same]
  · rw [Dev.rd_wr_ne _ _ hx]

theorem within_layerEffect (f p : Nat) {l : Nat} (hl : l < 2) (kind b : Nat) (old v : Word) (d : Dev) :
    Within cellsPart (PostReg f p) d (layerEffect f p l kind b old v d) := by
  have hwr : PostReg f p (Reg.COLL_WR f p l) ∧ PostReg f p (Reg.COLL_RD f p l) := by
    unfold PostReg InCell cellOff Reg.COLL_WR Reg.COLL_RD
    omega
  unfold layerEffect
  split
  · exact .ite (fun _ => within_updCell f p _ d) fun _ => .refl d
  · exact .ite (fun _ => within_updCell f p _ d) fun _ => .refl d
  · exact .ite (fun _ => within_updLayer f p l _ d) fun _ => .refl d
  · exact .ite (fun _ => (within_wr hwr.1 _ d).trans (within_wr hwr.2 _ _)) fun _ => .refl d
  · exact .refl d

/-- A write of a cell page leaves CELL_STATUS. -/
theorem within_cellRegWrite (f p : Nat) {o : Nat} (ho : o < 0x10000) (v : Word) (d : Dev) : Within cellsPart (PostReg f p) d (cellRegWrite f p o v d) := by
  unfold cellRegWrite
  split
  next => exact .refl d
  next r l b hrow =>
    obtain ⟨hl, hb⟩ := cellRow_some hrow
    refine .ite (fun _ => within_setBit (postReg_cellOff (by omega) (by omega)) 2 d) fun _ => ?_
    have hwr : Within cellsPart (PostReg f p) d (d.wr (cellOff f p o) (r.merge (d.rd (cellOff f p o)) v)) := by
      by_cases h4 : o = 4
      · subst h4
        rw [cellRow_status] at hrow
        obtain ⟨rfl, -⟩ := hrow
        exact within_wr_own _ (RegRow.merge_readOnly ..)
      · exact within_wr (postReg_cellOff ho h4) _ d
    dsimp only
    refine hwr.trans (.ite (fun _ => within_layerEffect f p hl _ b _ v _) fun _ => .ite (fun _ => ?_) fun _ => .refl _)
    exact within_updCell f p _ _

theorem layerResets_range {kind : Nat} {e : Nat × Word} (h : e ∈ layerResets kind) : 0x100 ≤ e.1 ∧ e.1 < 0x1000 := by
  have hall : ∀ k < 5, ∀ e ∈ layerResets k, 0x100 ≤ e.1 ∧ e.1 < 0x1000 := by decide
  by_cases hk : kind < 5
  · exact hall kind hk e h
  · have hrows : layerRows kind = [] := by
      unfold layerRows
      split <;> first | omega | rfl
    simp [layerResets, hrows] at h

theorem within_layerInit (f p : Nat) (d : Dev) : Within cellsPart (PostReg f p) d (layerInit f p d) := by
  unfold layerInit
  refine .foldl _ _ (fun l hl d => .foldl _ _ (fun e he d => ?_) d) d
  have hl2 : l < 2 := by split_ifs at hl <;> simp at hl <;> omega
  obtain ⟨h1, h2⟩ := layerResets_range he
  exact within_wr (postReg_cellOff (by omega) (by omega)) _ d

theorem Store.get_keep {α : Type} (d : Nat → α) (q : Nat → Bool) (m : Store α) {k : Nat} (h : q k = true) :
    Store.get d (Store.keep q m) k = Store.get d m k := by
  induction m with
  | nil => rfl
  | cons e m ih =>
    obtain ⟨a, v⟩ := e
    by_cases ha : a = k
    · subst ha
      simp [Store.keep, Store.get, h]
    · rw [Store.get, if_neg ha, ← ih]
      by_cases hq : q a = true
      · simp [Store.keep, Store.get, hq, ha]
      · simp [Store.keep, hq]

/-- The die without the stored words of a post's page past its common registers. -/
def clearPage (f p : Nat) (d : Dev) : Dev :=
  { d with regs := Store.keep (fun o => !(cellOff f p 0x100 ≤ o && o < cellOff f p 0x10000)) d.regs }

theorem within_clearPage (f p : Nat) (d : Dev) : Within cellsPart (PostReg f p) d (clearPage f p d) := by
  refine ⟨rfl, fun o ho => ?_⟩
  rw [Dev.rd, clearPage, Store.get_keep, Dev.rd]
  rw [Bool.not_eq_true', Bool.and_eq_false_iff, decide_eq_false_iff_not, decide_eq_false_iff_not]
  unfold PostReg InCell at ho
  unfold cellOff at ho ⊢
  omega

theorem within_layerClear (f p : Nat) (d : Dev) : Within cellsPart (PostReg f p) d (layerClear f p d) :=
  (within_clearPage f p d).trans (within_layerInit f p _)

/-! ### The reload of a post's page (R180) -/

section
variable {f p : Nat} (hf : f < 16) (hp : p < 8)
include hf hp

theorem within_resetStored {o : Nat} (ho : InCell f p o) (d : Dev) : Within cellsPart (PostReg f p) d (resetStored o d) := by
  by_cases h4 : o % 0x10000 = 4
  · have hoff : o = cellOff f p 4 := by unfold InCell cellOff at ho; unfold cellOff; omega
    have hrow : rowAt d o = some { base := 0x4 } := by
      rw [rowAt, hoff, pageOf_cell hf hp (by omega)]
      simp only [show p ≠ 8 by omega, if_false, cellRow_status, Option.map_some]
    rw [resetStored, hrow]
    exact within_wr_own _ (RegRow.store_readOnly ..)
  · unfold resetStored
    split
    · exact within_wr ⟨ho, h4⟩ _ d
    · exact .refl d

theorem within_reloadEntry {e : Nat × Word} (ho : InCell f p e.1) (d : Dev) : Within cellsPart (PostReg f p) d (reloadEntry e d) := by
  obtain ⟨o, ho', hoff⟩ : ∃ o < 0x10000, e.1 = cellOff f p o := ⟨e.1 - cellOff f p 0, by unfold InCell at ho; omega, by unfold InCell cellOff at *; omega⟩
  rw [reloadEntry, hoff, pageOf_cell hf hp ho']
  simp only [hp, if_true]
  exact within_cellRegWrite f p ho' e.2 d

theorem within_resetPost (same : Bool) (d : Dev) : Within cellsPart (PostReg f p) d (resetPost f p same d) := by
  have hin {o : Nat} (h : (decide (cellOff f p 0 ≤ o) && decide (o < cellOff f p 0 + 0x10000)) = true) : InCell f p o := by
    simpa [InCell] using h
  unfold resetPost
  refine .ite (fun _ => ?_) fun _ => within_layerClear f p d
  unfold reloadRange
  refine (within_layerInit f p d).trans (.trans (.foldl _ _ (fun e he d => ?_) _) (.foldl _ _ (fun e he d => ?_) _))
  · exact within_resetStored hf hp (hin (List.mem_filter.1 he).2) d
  · exact within_reloadEntry hf hp (hin (List.mem_filter.1 he).2) d

end

end Sys2Proof.Machine

/-! PROOFS. A flock's config store is rewritten from a layout (O50). -/
namespace Sys2Proof.Machine

-- One proof after another: proofs that wait for the kernel at once would take more threads than the check's memory holds.
set_option Elab.async false

/-! ### The kinds of a layout (R74 step 3) -/

/-- A post takes KIND and TWIN, and the reset values of its kind. -/
def setKind (f p : Nat) (k : Nat × Nat) (d : Dev) : Dev :=
  layerInit f p ((d.setFld (Reg.CELL_STATUS f p) 2 0 k.1).setFld (Reg.CELL_STATUS f p) 3 3 k.2)

/-- The kinds of a layout's posts. -/
def setPostKinds (f : Nat) (b : List Byte) (d : Dev) : Dev := forN 8 d (fun p d => setKind f p ((flockKinds b).getD p (0, 0)) d)

/-- The probe line of a layout. -/
def setProbe (f : Nat) (b : List Byte) (d : Dev) : Dev :=
  d.updFlock f (fun x => { x with seed := w32 (u32At b 4), crc := w32 (u32At b 8), len := u16At b 0xC })

theorem setKinds_eq (f : Nat) (b : List Byte) (d : Dev) : setKinds f b d = setProbe f b (setPostKinds f b d) := rfl

theorem putFld_mod (w : Word) (hi lo v : Nat) : putFld w hi lo (v % 2 ^ (hi + 1 - lo)) = putFld w hi lo v := by
  rw [putFld, Nat.mod_mod, putFld]

theorem Dev.fld_setFld_mod (d : Dev) (o : Nat) {hi lo : Nat} (v : Nat) (hhi : hi < 32) : (d.setFld o hi lo v).fld o hi lo = v % 2 ^ (hi + 1 - lo) := by
  rw [Dev.fld, Dev.setFld, Dev.rd_wr_same, ← putFld_mod, fld_putFld_same hhi _ (Nat.mod_lt _ (Nat.two_pow_pos _))]

theorem kindOf_congr {d e : Dev} {f p : Nat} (h : e.rd (Reg.CELL_STATUS f p) = d.rd (Reg.CELL_STATUS f p)) : kindOf e f p = kindOf d f p :=
  Dev.fld_congr h 2 0

theorem kindOf_setKind (f p : Nat) (k : Nat × Nat) (d : Dev) : kindOf (setKind f p k d) f p = k.1 % 8 := by
  refine (kindOf_congr ((within_layerInit f p _).2 _ (not_postReg_cellStatus f p f p))).trans ?_
  rw [kindOf, Dev.fld_setFld_disjoint _ _ _ (by decide) (by decide) (by decide), Dev.fld_setFld_mod _ _ _ (by decide)]
  rfl

theorem within_setKind (f p : Nat) (k : Nat × Nat) (d : Dev) :
    Within cellsPart (fun o => o = Reg.CELL_STATUS f p ∨ PostReg f p o) d (setKind f p k d) :=
  ((within_setFld (.inl rfl) 2 0 k.1 d).trans (within_setFld (.inl rfl) 3 3 k.2 _)).trans ((within_layerInit f p _).mono fun _ => .inr)

/-- The kind of a post stays when another post takes its own. -/
theorem kindOf_setKind_ne {f p p' : Nat} (hp : p' ≠ p) (k : Nat × Nat) (d : Dev) : kindOf (setKind f p' k d) f p = kindOf d f p := by
  refine kindOf_congr ((within_setKind f p' k d).2 _ ?_)
  rintro (h | h)
  · unfold Reg.CELL_STATUS at h
    omega
  · exact not_postReg_cellStatus _ _ _ _ h

theorem kindOf_setPostKinds (f : Nat) (b : List Byte) {p : Nat} (hp : p < 8) (d : Dev) :
    kindOf (setPostKinds f b d) f p = ((flockKinds b).getD p (0, 0)).1 % 8 :=
  foldl_at (fun _ => True) (fun e : Dev => kindOf e f p = ((flockKinds b).getD p (0, 0)).1 % 8) _ List.nodup_range (List.mem_range.2 hp) d trivial
    (fun _ _ _ _ _ => trivial) (fun e _ => kindOf_setKind f p _ e) fun _ _ hne e he => (kindOf_setKind_ne hne _ e).trans he

/-! ### The rest of the layout -/

theorem Within.flock_of_cellsPart {p : Nat → Prop} {d e : Dev} (h : Within cellsPart p d e) (f : Nat) : e.flock f = d.flock f :=
  (congrArg (fun x : Dev => x.flock f) h.1 :)

theorem within_setPostKinds (f : Nat) (b : List Byte) (d : Dev) : Within cellsPart (fun _ => True) d (setPostKinds f b d) :=
  .forN 8 _ (fun _ _ d => (within_setKind f _ _ d).mono fun _ _ => trivial) d

/-- The registers of the posts are reloaded or cleared, and their cells start anew. -/
def resetPosts (f : Nat) (same : Nat → Bool) (d : Dev) : Dev := forN 8 d (fun p d => (resetPost f p (same p) d).updCell f p (fun _ => {}))

/-- The register writes of a VARIANT record. -/
def variantWrites (f : Nat) (l : List (Nat × Word)) (d : Dev) : Dev :=
  l.foldl (fun d e =>
    let o := e.1 - (0x1010000 + f * 0x100000)
    cellRegWrite f (o / 0x10000) (o % 0x10000) e.2 d) d

theorem layoutApply_eq (f v : Nat) (d : Dev) :
    layoutApply f v d =
      let b := layoutFlock d.ld.recs f v
      let e := resetPosts f (fun p => v == 0xFFFF || sameKind d.ld.recs f p b) (setKinds f b d)
      match variantRec d.ld.recs v with
      | some x => variantWrites f (variantRegs x) e
      | none => e := rfl

theorem within_resetPosts {f : Nat} (hf : f < 16) (same : Nat → Bool) (d : Dev) :
    Within cellsPart (fun o => ∃ f p, PostReg f p o) d (resetPosts f same d) :=
  .forN 8 _ (fun p hp d => ((within_resetPost hf hp _ d).mono fun _ h => ⟨f, p, h⟩).trans (within_updCell f p _ _)) d

theorem within_variantWrites (f : Nat) (l : List (Nat × Word)) (d : Dev) :
    Within cellsPart (fun o => ∃ f p, PostReg f p o) d (variantWrites f l d) :=
  .foldl _ _ (fun e _ d => (within_cellRegWrite f _ (Nat.mod_lt _ (by decide)) e.2 d).mono fun _ h => ⟨f, _, h⟩) d

/-- The registers and the cells of the posts, after the kinds are set. -/
theorem within_layoutApply {f : Nat} (hf : f < 16) (v : Nat) (d : Dev) :
    Within cellsPart (fun o => ∃ f p, PostReg f p o) (setKinds f (layoutFlock d.ld.recs f v) d) (layoutApply f v d) := by
  rw [layoutApply_eq]
  dsimp only
  split
  · exact (within_resetPosts hf _ _).trans (within_variantWrites f _ _)
  · exact within_resetPosts hf _ _

theorem rd_setProbe (f : Nat) (b : List Byte) (d : Dev) (o : Nat) : (setProbe f b d).rd o = d.rd o := rfl

/-- What the layout makes of the flocks, and the kinds of the posts. -/
theorem layoutApply_notes {f : Nat} (hf : f < 16) (v : Nat) (d : Dev) {b : List Byte} (hb : b = layoutFlock d.ld.recs f v) :
    (layoutApply f v d).flock f = { d.flock f with seed := w32 (u32At b 4), crc := w32 (u32At b 8), len := u16At b 0xC } ∧
      (∀ g, g ≠ f → (layoutApply f v d).flock g = d.flock g) ∧
      ∀ p < 8, kindOf (layoutApply f v d) f p = ((flockKinds b).getD p (0, 0)).1 % 8 := by
  have hwithin := within_layoutApply hf v d
  rw [← hb, setKinds_eq] at hwithin
  have hflock := (within_setPostKinds f b d).flock_of_cellsPart
  refine ⟨?_, fun g hg => ?_, fun p hp => ?_⟩
  · rw [hwithin.flock_of_cellsPart, setProbe, Dev.flock_updFlock_same, hflock]
  · rw [hwithin.flock_of_cellsPart, setProbe, Dev.flock_updFlock_ne _ _ hg, hflock]
  · rw [← kindOf_setPostKinds f b hp d]
    exact (kindOf_congr (hwithin.2 _ fun ⟨_, _, h⟩ => not_postReg_cellStatus _ _ _ _ h)).trans (kindOf_congr (rd_setProbe ..))

theorem kindOf_setRepen (f : Nat) (r : Option Repen) (d : Dev) (f' p : Nat) : kindOf (setRepen f r d) f' p = kindOf d f' p :=
  kindOf_congr (rd_setRepen ..)

theorem repenRewritten_of_due {d : Dev} {f : Nat} {r : Repen} (h : repenAt d 2 = some (f, r)) :
    repenRewritten d = setRepen f (some { r with step := 3 }) (layoutApply f r.variant d) := by
  simp only [repenRewritten, h]

theorem gives_repenStoreRewritten {s : State} {f : Nat} {r : Repen} (hat : repenAt s.dev 2 = some (f, r)) :
    Gives .repenStoreRewritten s (fun t => (t.dev.flock f).repen = some { r with step := 3 } ∧
      (t.dev.flock f).seed = w32 (u32At (layoutFlock s.dev.ld.recs f r.variant) 4) ∧
      (t.dev.flock f).crc = w32 (u32At (layoutFlock s.dev.ld.recs f r.variant) 8) ∧
      (t.dev.flock f).len = u16At (layoutFlock s.dev.ld.recs f r.variant) 0xC ∧
      (∀ p < 8, kindOf t.dev f p = ((flockKinds (layoutFlock s.dev.ld.recs f r.variant)).getD p (0, 0)).1 % 8) ∧
      (∀ g, g ≠ f → t.dev.flock g = s.dev.flock g) ∧ SameMem s t ∧ t.pending = s.pending) := by
  obtain ⟨hf, -, -⟩ := repenAt_some hat
  obtain ⟨hflock, hother, hkinds⟩ := layoutApply_notes hf r.variant s.dev rfl
  have hstep := repenRewritten_of_due hat
  obtain ⟨e, he⟩ : ∃ e, layoutApply f r.variant s.dev = e := ⟨_, rfl⟩
  rw [he] at hstep hflock hother hkinds
  refine gives_of_upd (exec_repenStoreRewritten s) hstep ?_
  dsimp only
  rw [flock_setRepen_same, hflock]
  exact ⟨rfl, rfl, rfl, rfl, fun p hp => (kindOf_setRepen ..).trans (hkinds p hp), fun g hg => (flock_setRepen_ne hg _ e).trans (hother g hg), rfl, rfl⟩

end Sys2Proof.Machine

/-! PROOFS. The spare of a flock, and the cells' loading of their entries in a re-pen (O50). -/
namespace Sys2Proof.Machine

-- One proof after another: proofs that wait for the kernel at once would take more threads than the check's memory holds.
set_option Elab.async false

/-! ### The spare post (R266, R269, R271) -/

/-- Any part of the die. -/
def anyPart (_ d : Dev) : Dev := d

/-- Registers of a set alone change, and any part beside them. -/
theorem Within.any {g : Dev → Dev → Dev} {p : Nat → Prop} {d e : Dev} (h : Within g p d e) : Within anyPart p d e := ⟨rfl, h.2⟩

/-- The registers that the loss or the gain of a spare changes. -/
def SpareReg (f o : Nat) : Prop :=
  LogReg o ∨ o = Reg.FLOCK_STATUS f ∨ o = Reg.FLOCK_IRQ f ∨ o = Reg.CELL_GEN f 8 ∨ ∃ p < 9, o = Reg.CELL_STATUS f p

theorem not_spareReg_of_chip {f o : Nat} (h : InChip o) (hl : ¬ LogReg o) : ¬ SpareReg f o := by
  unfold SpareReg Reg.FLOCK_STATUS Reg.FLOCK_IRQ Reg.CELL_GEN Reg.CELL_STATUS
  rintro (h' | h' | h' | h' | ⟨p, hp, h'⟩)
  · exact hl h'
  all_goals unfold InChip at h; omega

theorem not_spareReg_postMap (f f' : Nat) : ¬ SpareReg f (Reg.POST_MAP f') := by
  unfold SpareReg LogReg Reg.FLOCK_STATUS Reg.FLOCK_IRQ Reg.CELL_GEN Reg.CELL_STATUS Reg.POST_MAP Reg.ST_FLAGS Reg.FAULT_COUNT Reg.LOG_DROPS
    Reg.KEEP_FLAGS Reg.WEAR_ADDR Reg.RATE_ADDR
  rintro (h' | h' | h' | h' | ⟨p, hp, h'⟩) <;> omega

theorem not_logReg_of_page {o : Nat} (h : 0x1000000 ≤ o) : ¬ LogReg o := fun h' => by
  have := inChip_of_logReg h'
  unfold InChip at this
  omega

theorem within_setPostCell_spare (f c : Nat) (d : Dev) : Within anyPart (SpareReg f) d (setPostCell f 8 c d) :=
  Within.trans (within_setFld (.inr (.inr (.inr (.inr ⟨8, by omega, rfl⟩)))) 7 4 c d) (within_setFld (.inr (.inl rfl)) 7 4 c _)

theorem within_setShadow (f q : Nat) (d : Dev) : Within anyPart (SpareReg f) d (setShadow f q d) :=
  (regsOnly_setShadow f q d).within.mono fun o h => by
    rcases h with rfl | ⟨p, hp, rfl⟩
    · exact .inr (.inl rfl)
    · exact .inr (.inr (.inr (.inr ⟨p, by omega, rfl⟩)))

theorem within_loseSpare (f : Nat) (d : Dev) : Within anyPart (SpareReg f) d (loseSpare f d) := by
  unfold loseSpare
  refine ((Within.trans ?_ (within_wr (.inr (.inr (.inr (.inl rfl)))) 0 _)).trans (within_setBit (.inr (.inr (.inl rfl))) 2 _)).trans
    (within_setBit (.inl (.inl rfl)) 1 _)
  exact ((within_setBit (.inr (.inl rfl)) 8 d).trans (within_setPostCell_spare f 15 _)).trans (within_setShadow f 15 _)

theorem within_gainSpare (f c : Nat) (d : Dev) : Within anyPart (SpareReg f) d (gainSpare f c d) :=
  ((within_setPostCell_spare f c d).trans (within_clrBit (.inr (.inl rfl)) 8 _)).trans (within_wr (.inr (.inr (.inr (.inl rfl)))) 0 _)

theorem within_spareAgain (f c : Nat) (d : Dev) : Within anyPart (SpareReg f) d (spareAgain f c d) :=
  (within_gainSpare f c d).trans ((within_faultLog ..).any.mono fun _ => .inl)

theorem within_spendSpare (f : Nat) (d : Dev) : Within anyPart (SpareReg f) d (spendSpare f d) := by
  unfold spendSpare
  split
  · exact ((within_updFlock f _ d).trans (within_setShadow f 15 _)).trans (within_spareAgain f _ _)
  · exact within_loseSpare f d

theorem spendSpare_of_none {d : Dev} {f : Nat} (h : (d.flock f).ready = []) : spendSpare f d = loseSpare f d := by
  unfold spendSpare
  rw [h]

theorem spareCell_congr {d e : Dev} {f : Nat} (h : e.rd (Reg.FLOCK_STATUS f) = d.rd (Reg.FLOCK_STATUS f)) : spareCell e f = spareCell d f :=
  Dev.fld_congr h 7 4

theorem postCell_congr {d e : Dev} {f : Nat} (h : e.rd (Reg.POST_MAP f) = d.rd (Reg.POST_MAP f)) (p : Nat) : postCell e f p = postCell d f p :=
  Dev.fld_congr h _ _

theorem spareCell_setPostCell_spare (f : Nat) {c : Nat} (hc : c < 16) (d : Dev) : spareCell (setPostCell f 8 c d) f = c :=
  Dev.fld_setFld_same _ _ (by decide) hc

theorem spareCell_setShadow (f q : Nat) (d : Dev) : spareCell (setShadow f q d) f = spareCell d f :=
  (spareCell_congr (setShadow_flockStatus f q d)).trans (Dev.fld_setFld_disjoint _ _ _ (by decide) (by decide) (by decide))

/-- A flock that has lost its spare. -/
theorem spareCell_loseSpare (f : Nat) (d : Dev) : spareCell (loseSpare f d) f = 15 := by
  have h1 : Reg.FLOCK_STATUS f ≠ Reg.ST_FLAGS := by unfold Reg.FLOCK_STATUS Reg.ST_FLAGS; omega
  have h2 : Reg.FLOCK_STATUS f ≠ Reg.FLOCK_IRQ f := by unfold Reg.FLOCK_STATUS Reg.FLOCK_IRQ; omega
  have h3 : Reg.FLOCK_STATUS f ≠ Reg.CELL_GEN f 8 := by unfold Reg.FLOCK_STATUS Reg.CELL_GEN; omega
  unfold loseSpare
  dsimp only
  rw [spareCell_congr (Dev.rd_setBit_ne _ _ h1), spareCell_congr (Dev.rd_setBit_ne _ _ h2), spareCell_congr (Dev.rd_wr_ne _ _ h3),
    spareCell_setShadow, spareCell_setPostCell_spare _ (by decide)]

/-! ### A post takes the spare (R602) -/

/-- A post takes the cell of the spare. -/
def giveSpare (f p : Nat) (d : Dev) : Dev :=
  (spendSpare f ((setPostCell f p (spareCell d f) d).clrBit (Reg.NOCELL (f / 4)) (8 * (f % 4) + p))).setBit (Reg.FLOCK_IRQ f) 3

/-- The registers that a post's taking of the spare changes. -/
def GiveReg (f o : Nat) : Prop := SpareReg f o ∨ o = Reg.POST_MAP f ∨ o = Reg.NOCELL (f / 4)

theorem setPostCell_post {f p : Nat} (hp : p < 8) (c : Nat) (d : Dev) :
    setPostCell f p c d = (d.setFld (Reg.CELL_STATUS f p) 7 4 c).setFld (Reg.POST_MAP f) (4 * p + 3) (4 * p) c := by
  rw [setPostCell, if_neg (by omega)]

theorem within_setPostCell {f p : Nat} (hp : p < 8) (c : Nat) (d : Dev) :
    Within anyPart (fun o => o = Reg.CELL_STATUS f p ∨ o = Reg.POST_MAP f) d (setPostCell f p c d) := by
  rw [setPostCell_post hp]
  exact Within.trans (within_setFld (.inl rfl) 7 4 c d) (within_setFld (.inr rfl) _ _ c _)

theorem within_giveSpare {f p : Nat} (hp : p < 8) (d : Dev) : Within anyPart (GiveReg f) d (giveSpare f p d) := by
  unfold giveSpare
  refine Within.trans (Within.trans (.trans ?_ (within_clrBit (.inr (.inr rfl)) _ _)) ((within_spendSpare f _).mono fun _ => .inl))
    (within_setBit (.inl (.inr (.inr (.inl rfl)))) 3 _)
  refine (within_setPostCell hp _ d).mono fun o h => ?_
  rcases h with rfl | rfl
  · exact .inl (.inr (.inr (.inr (.inr ⟨p, by omega, rfl⟩))))
  · exact .inr (.inl rfl)

theorem postCell_setPostCell_same {f p c : Nat} (hp : p < 8) (hc : c < 16) (d : Dev) : postCell (setPostCell f p c d) f p = c := by
  rw [setPostCell_post hp, postCell, Dev.fld_setFld_same _ _ (by omega)]
  rw [show 4 * p + 3 + 1 - 4 * p = 4 by omega]
  exact hc

theorem postMap_ne_cellStatus (f f' p : Nat) : Reg.POST_MAP f ≠ Reg.CELL_STATUS f' p := by unfold Reg.POST_MAP Reg.CELL_STATUS; omega

theorem postCell_setPostCell_ne {f p p' : Nat} (hp : p < 8) (hp' : p' < 8) (h : p' ≠ p) (c : Nat) (d : Dev) :
    postCell (setPostCell f p' c d) f p = postCell d f p := by
  rw [setPostCell_post hp', postCell, Dev.fld_setFld_disjoint _ _ _ (by omega) (by omega) (by omega)]
  exact postCell_congr (Dev.rd_wr_ne _ _ (postMap_ne_cellStatus f f p')) p

theorem spareCell_lt (d : Dev) (f : Nat) : spareCell d f < 16 := fld_lt _ _ _

theorem not_spareReg_nocell {f n : Nat} (hn : n < 4) : ¬ SpareReg f (Reg.NOCELL n) := by
  refine not_spareReg_of_chip ?_ ?_
  · unfold InChip Reg.NOCELL
    omega
  · unfold LogReg Reg.NOCELL Reg.ST_FLAGS Reg.FAULT_COUNT Reg.LOG_DROPS Reg.KEEP_FLAGS Reg.WEAR_ADDR Reg.RATE_ADDR
    omega

/-- A post has taken cell c. -/
def PostGiven (f p c : Nat) (d : Dev) : Prop :=
  postCell d f p = c ∧ d.bit (Reg.NOCELL (f / 4)) (8 * (f % 4) + p) = false ∧ d.bit (Reg.FLOCK_IRQ f) 3 = true

section
variable {f p : Nat} (hf : f < 16) (hp : p < 8)
include hf

/-- POST_MAP and NOCELL after a post has taken the spare. -/
theorem giveSpare_maps (p : Nat) (d : Dev) : (giveSpare f p d).rd (Reg.POST_MAP f) = (setPostCell f p (spareCell d f) d).rd (Reg.POST_MAP f) ∧
    (giveSpare f p d).rd (Reg.NOCELL (f / 4)) =
      ((setPostCell f p (spareCell d f) d).clrBit (Reg.NOCELL (f / 4)) (8 * (f % 4) + p)).rd (Reg.NOCELL (f / 4)) := by
  have hn : f / 4 < 4 := by omega
  have h1 : Reg.POST_MAP f ≠ Reg.FLOCK_IRQ f := by unfold Reg.POST_MAP Reg.FLOCK_IRQ; omega
  have h2 : Reg.NOCELL (f / 4) ≠ Reg.FLOCK_IRQ f := by unfold Reg.NOCELL Reg.FLOCK_IRQ; omega
  have h3 : Reg.POST_MAP f ≠ Reg.NOCELL (f / 4) := by unfold Reg.NOCELL Reg.POST_MAP; omega
  unfold giveSpare
  rw [Dev.rd_setBit_ne _ _ h1, Dev.rd_setBit_ne _ _ h2, (within_spendSpare f _).2 _ (not_spareReg_postMap f f),
    (within_spendSpare f _).2 _ (not_spareReg_nocell hn), Dev.rd_clrBit_ne _ _ h3]
  exact ⟨rfl, rfl⟩

include hp

theorem postGiven_giveSpare (d : Dev) : PostGiven f p (spareCell d f) (giveSpare f p d) := by
  obtain ⟨hmap, hnocell⟩ := giveSpare_maps hf p d
  refine ⟨?_, ?_, Dev.bit_setBit_same _ _ (by decide)⟩
  · rw [postCell_congr hmap, postCell_setPostCell_same hp (spareCell_lt d f)]
  · rw [Dev.bit_congr hnocell, Dev.bit_clrBit_same _ _ (by omega)]

/-- A post keeps the cell that it has taken when another takes the next. -/
theorem PostGiven.giveSpare_ne {p' c : Nat} (hp' : p' < 8) (h : p' ≠ p) {d : Dev} (hd : PostGiven f p c d) : PostGiven f p c (giveSpare f p' d) := by
  obtain ⟨hcell, hbit, -⟩ := hd
  obtain ⟨hmap, hnocell⟩ := giveSpare_maps hf p' d
  refine ⟨?_, ?_, Dev.bit_setBit_same _ _ (by decide)⟩
  · rw [postCell_congr hmap, postCell_setPostCell_ne hp hp' h, hcell]
  · have hkept : (setPostCell f p' (spareCell d f) d).rd (Reg.NOCELL (f / 4)) = d.rd (Reg.NOCELL (f / 4)) := by
      refine (within_setPostCell hp' _ d).2 _ ?_
      unfold Reg.NOCELL Reg.CELL_STATUS Reg.POST_MAP
      omega
    rw [Dev.bit_congr hnocell, Dev.bit_clrBit _ _ _ _ (by omega) (by omega), Dev.bit_congr hkept, hbit, Bool.false_and]

end

theorem Dev.flock_setFld (d : Dev) (o hi lo v f : Nat) : (d.setFld o hi lo v).flock f = d.flock f := rfl
theorem Dev.flock_clrBit (d : Dev) (o n f : Nat) : (d.clrBit o n).flock f = d.flock f := rfl

theorem flock_setPostCell (f p c : Nat) (d : Dev) (f' : Nat) : (setPostCell f p c d).flock f' = d.flock f' := by
  unfold setPostCell
  split <;> rw [Dev.flock_setFld, Dev.flock_setFld]

theorem spareCell_giveSpare {f : Nat} {d : Dev} (h : (d.flock f).ready = []) (p : Nat) : spareCell (giveSpare f p d) f = 15 := by
  have h1 : Reg.FLOCK_STATUS f ≠ Reg.FLOCK_IRQ f := by unfold Reg.FLOCK_STATUS Reg.FLOCK_IRQ; omega
  rw [giveSpare, spareCell_congr (Dev.rd_setBit_ne _ _ h1), spendSpare_of_none, spareCell_loseSpare]
  rw [Dev.flock_clrBit, flock_setPostCell, h]

/-! ### The posts without a cell (R602) -/

theorem repenSpare_give {d : Dev} {f p : Nat} (hk : kindOf d f p ≠ 0) (hc : postCell d f p = 15) (hs : spareCell d f ≠ 15)
    (ht : (d.flock f).takeover = none) (hu : underTakeover d f p = false) : repenSpare f p d = giveSpare f p d := by
  rw [repenSpare, if_pos (by simp [hk, hc, hs, ht, hu])]
  rfl

theorem repenSpare_keep {d : Dev} {f p : Nat} (h : kindOf d f p = 0 ∨ postCell d f p ≠ 15 ∨ spareCell d f = 15) : repenSpare f p d = d := by
  rw [repenSpare, if_neg]
  simp only [Bool.and_eq_true, decide_eq_true_eq]
  rintro ⟨⟨⟨⟨hk, hc⟩, -⟩, hs⟩, -⟩
  exact h.elim hk (·.elim (· hc) hs)

/-- A post that has no need of the spare leaves it; one that has takes it. -/
theorem repenSpare_cases (f p : Nat) (d : Dev) : repenSpare f p d = d ∨ repenSpare f p d = giveSpare f p d := by
  unfold repenSpare
  split
  · exact .inr rfl
  · exact .inl rfl

theorem within_repenSpare {f p : Nat} (hp : p < 8) (d : Dev) : Within anyPart (GiveReg f) d (repenSpare f p d) := by
  obtain h | h := repenSpare_cases f p d <;> rw [h]
  · exact .refl d
  · exact within_giveSpare hp d

/-- The posts of a flock without a cell take the spare, in order. -/
def repenSpares (f : Nat) (d : Dev) : Dev := posts.foldl (fun d p => repenSpare f p d) d

theorem within_repenSpares (f : Nat) (d : Dev) : Within anyPart (GiveReg f) d (repenSpares f d) :=
  .foldl posts _ (fun _ hp d => within_repenSpare (mem_posts.1 hp) d) d

theorem foldl_repenSpare_keep {d : Dev} {f : Nat} (l : List Nat) (h : ∀ p ∈ l, kindOf d f p = 0 ∨ postCell d f p ≠ 15 ∨ spareCell d f = 15) :
    l.foldl (fun d p => repenSpare f p d) d = d := by
  induction l with
  | nil => rfl
  | cons p l ih => rw [List.foldl_cons, repenSpare_keep (h p (by simp)), ih fun q hq => h q (by simp [hq])]

theorem posts_split {p : Nat} (hp : p < 8) : posts = List.range p ++ p :: List.range' (p + 1) (7 - p) := by
  revert p
  decide

/-- The first post without a cell takes the spare; the posts after it leave it that cell. -/
theorem repenSpares_first {f p : Nat} (hf : f < 16) (hp : p < 8) {d : Dev} (hk : kindOf d f p ≠ 0) (hc : postCell d f p = 15)
    (hq : ∀ q < p, kindOf d f q = 0 ∨ postCell d f q ≠ 15) (hs : spareCell d f ≠ 15) (ht : (d.flock f).takeover = none)
    (hu : underTakeover d f p = false) :
    PostGiven f p (spareCell d f) (repenSpares f d) ∧ ((d.flock f).ready = [] → spareCell (repenSpares f d) f = 15) := by
  have hfold : repenSpares f d = (List.range' (p + 1) (7 - p)).foldl (fun d p => repenSpare f p d) (giveSpare f p d) := by
    rw [repenSpares, posts_split hp, List.foldl_append, List.foldl_cons,
      foldl_repenSpare_keep (List.range p) fun q hq' => (hq q (List.mem_range.1 hq')).imp_right .inl, repenSpare_give hk hc hs ht hu]
  rw [hfold]
  refine ⟨?_, fun hr => ?_⟩
  · refine List.foldlRecOn (motive := PostGiven f p (spareCell d f)) _ _ (postGiven_giveSpare hf hp d) fun e he q hq' => ?_
    have hq8 : p < q ∧ q < 8 := by
      rw [List.mem_range'_1] at hq'
      omega
    obtain h | h := repenSpare_cases f q e <;> rw [h]
    · exact he
    · exact he.giveSpare_ne hf hp hq8.2 (by omega)
  · rw [foldl_repenSpare_keep _ fun q _ => .inr (.inr (spareCell_giveSpare hr p)), spareCell_giveSpare hr]

end Sys2Proof.Machine

/-! PROOFS. The cells of a flock load their entries and take the stamp (O50). -/
namespace Sys2Proof.Machine

-- One proof after another: proofs that wait for the kernel at once would take more threads than the check's memory holds.
set_option Elab.async false

/-! ### Entries that are lost (R99, R458) -/

/-- The registers that note a word that cannot be corrected. -/
def BadReg (o : Nat) : Prop := o = Reg.MEM_FLAGS ∨ o = Reg.UNCORR_COUNT ∨ o = Reg.LAST_ERR_LO

/-- A part of the die that no register shows changes. -/
theorem within_any_of_regs {p : Nat → Prop} {d e : Dev} (h : e.regs = d.regs) : Within anyPart p d e := within_of_eq rfl h

theorem noteArrayBad_notes (d : Dev) : Within anyPart BadReg d (noteArrayBad d) ∧ (noteArrayBad d).bit Reg.MEM_FLAGS 1 = true := by
  have hflags : Within anyPart BadReg d (d.setBit Reg.MEM_FLAGS 1) := within_setBit (.inl rfl) 1 d
  have hrest : Within anyPart (fun o => o = Reg.UNCORR_COUNT ∨ o = Reg.LAST_ERR_LO) (d.setBit Reg.MEM_FLAGS 1) (noteArrayBad d) := by
    unfold noteArrayBad Dev.fresh
    dsimp only
    exact (((within_bump (.inl rfl) _).trans (within_any_of_regs rfl)).trans (within_wr (.inr rfl) _ _)).trans (within_any_of_regs rfl)
  refine ⟨hflags.trans (hrest.mono fun _ => .inr), ?_⟩
  rw [Dev.bit_congr (hrest.2 _ (by unfold Reg.MEM_FLAGS Reg.UNCORR_COUNT Reg.LAST_ERR_LO; decide)), Dev.bit_setBit_same _ _ (by decide)]

theorem entryLost_notes {f p : Nat} (hf : f < 16) (hp : p < 8) (v : Nat) (d : Dev) :
    Within anyPart (fun o => PostReg f p o ∨ o = Reg.FLOCK_IRQ f) d (entryLost f p v d) ∧ (entryLost f p v d).bit (Reg.FLOCK_IRQ f) 3 = true := by
  refine ⟨?_, Dev.bit_setBit_same _ _ (by decide)⟩
  unfold entryLost
  dsimp only
  refine Within.trans ?_ (within_setBit (.inr rfl) 3 _)
  split
  · exact ((within_resetPost hf hp _ d).any.mono fun _ => .inl).trans
      (.foldl _ _ (fun e _ d => (within_cellRegWrite f p (Nat.mod_lt _ (by decide)) e.2 d).any.mono fun _ => .inl) _)
  · exact (within_resetPost hf hp _ d).any.mono fun _ => .inl

/-- The entry of a post is found lost, and reloaded. -/
def losePost (f v : Nat) (d : Dev) (p : Nat) : Dev := entryLost f p v (noteArrayBad d)

/-- The registers that lost entries change. -/
def LostReg (f o : Nat) : Prop := BadReg o ∨ o = Reg.FLOCK_IRQ f ∨ ∃ p, PostReg f p o

theorem within_losePost {f p : Nat} (hf : f < 16) (hp : p < 8) (v : Nat) (d : Dev) : Within anyPart (LostReg f) d (losePost f v d p) :=
  ((noteArrayBad_notes d).1.mono fun _ => .inl).trans
    ((entryLost_notes hf hp v _).1.mono fun _ h => h.elim (fun h => .inr (.inr ⟨p, h⟩)) fun h => .inr (.inl h))

/-- A lost entry is noted. -/
def LossNoted (f : Nat) (d : Dev) : Prop := d.bit (Reg.FLOCK_IRQ f) 3 = true ∧ d.bit Reg.MEM_FLAGS 1 = true

theorem lossNoted_losePost {f p : Nat} (hf : f < 16) (hp : p < 8) (v : Nat) (d : Dev) : LossNoted f (losePost f v d p) := by
  obtain ⟨hwithin, hirq⟩ := entryLost_notes hf hp v (noteArrayBad d)
  refine ⟨hirq, ?_⟩
  rw [losePost, Dev.bit_congr (hwithin.2 _ ?_), (noteArrayBad_notes d).2]
  unfold PostReg InCell cellOff Reg.MEM_FLAGS Reg.FLOCK_IRQ
  omega

/-- The entries of the posts in a list are lost. -/
def loseEntries (f v : Nat) (lost : List Nat) (d : Dev) : Dev := (posts.filter (fun p => lost.contains p)).foldl (losePost f v) d

theorem loseEntries_nil (f v : Nat) (d : Dev) : loseEntries f v [] d = d := rfl

theorem within_loseEntries {f : Nat} (hf : f < 16) (v : Nat) (lost : List Nat) (d : Dev) : Within anyPart (LostReg f) d (loseEntries f v lost d) :=
  .foldl _ _ (fun _ hp d => within_losePost hf (mem_posts.1 (List.mem_filter.1 hp).1) v d) d

theorem lossNoted_loseEntries {f p : Nat} (hf : f < 16) (v : Nat) {lost : List Nat} (hp : p < 8) (hl : p ∈ lost) (d : Dev) :
    LossNoted f (loseEntries f v lost d) :=
  foldl_at (fun _ => True) (LossNoted f) _ (nodup_posts.filter _) (List.mem_filter.2 ⟨mem_posts.2 hp, by simpa using hl⟩) d trivial
    (fun _ _ _ _ _ => trivial) (fun e _ => lossNoted_losePost hf hp v e)
    fun _ hc _ e _ => lossNoted_losePost hf (mem_posts.1 (List.mem_filter.1 hc).1) v e

theorem lossNoted_repenSpares {f : Nat} (hf : f < 16) {d : Dev} (h : LossNoted f d) : LossNoted f (repenSpares f d) := by
  obtain ⟨hirq, hflags⟩ := h
  refine ⟨?_, ?_⟩
  · refine List.foldlRecOn (motive := fun e : Dev => e.bit (Reg.FLOCK_IRQ f) 3 = true) _ _ hirq fun e he q _ => ?_
    obtain h | h := repenSpare_cases f q e <;> rw [h]
    · exact he
    · exact Dev.bit_setBit_same _ _ (by decide)
  · rw [Dev.bit_congr ((within_repenSpares f d).2 _ ?_), hflags]
    rintro (h | h | h)
    · refine not_spareReg_of_chip (by decide) ?_ h
      unfold LogReg
      decide
    · unfold Reg.MEM_FLAGS Reg.POST_MAP at h
      omega
    · unfold Reg.MEM_FLAGS Reg.NOCELL at h
      omega

/-! ### The stamp (R284) -/

/-- A post with a cell takes the generation stamp. -/
def stampPost (f p : Nat) (d : Dev) : Dev := if postCell d f p = 15 then d else d.wr (Reg.CELL_GEN f p) (d.rd Reg.GLOBAL_GEN)

/-- The posts of a flock take the stamp. -/
def stampPosts (f : Nat) (d : Dev) : Dev := forN 8 d (fun p d => stampPost f p d)

/-- The registers that the stamps of the posts change. -/
def StampReg (f : Nat) (d : Dev) (o : Nat) : Prop := ∃ p < 8, postCell d f p ≠ 15 ∧ o = Reg.CELL_GEN f p

theorem not_stampReg_postMap (f : Nat) (d : Dev) : ¬ StampReg f d (Reg.POST_MAP f) := by
  rintro ⟨p, hp, -, h⟩
  unfold Reg.POST_MAP Reg.CELL_GEN at h
  omega

theorem regsOnly_stampPost (f : Nat) {p : Nat} (hp : p < 8) {d e : Dev} (h : RegsOnly (StampReg f d) d e) : RegsOnly (StampReg f d) d (stampPost f p e) := by
  unfold stampPost
  split
  next => exact h
  next hc =>
    refine h.trans (regsOnly_wr ⟨p, hp, ?_, rfl⟩ _ e)
    rwa [postCell_congr (h.2 _ (not_stampReg_postMap f d))] at hc

theorem regsOnly_stampPosts (f : Nat) (d : Dev) : RegsOnly (StampReg f d) d (stampPosts f d) :=
  forN_ind (fun e => RegsOnly (StampReg f d) d e) 8 (fun p d => stampPost f p d) d (.refl _ d) fun _ hp _ he => regsOnly_stampPost f hp he

theorem postCell_stampPosts (f : Nat) (d : Dev) (p : Nat) : postCell (stampPosts f d) f p = postCell d f p :=
  postCell_congr ((regsOnly_stampPosts f d).2 _ (not_stampReg_postMap f d)) p

theorem rd_stampPosts {f o : Nat} (h : ∀ p < 8, o ≠ Reg.CELL_GEN f p) (d : Dev) : (stampPosts f d).rd o = d.rd o :=
  (regsOnly_stampPosts f d).2 o fun ⟨p, hp, _, ho⟩ => h p hp ho

/-- A post with a cell has the generation stamp. -/
def PostStamped (f p : Nat) (d : Dev) : Prop := postCell d f p ≠ 15 → d.rd (Reg.CELL_GEN f p) = d.rd Reg.GLOBAL_GEN

theorem globalGen_ne_cellGen (f p : Nat) : Reg.GLOBAL_GEN ≠ Reg.CELL_GEN f p := by unfold Reg.GLOBAL_GEN Reg.CELL_GEN; omega

theorem postMap_ne_cellGen (f p : Nat) : Reg.POST_MAP f ≠ Reg.CELL_GEN f p := by unfold Reg.POST_MAP Reg.CELL_GEN; omega

theorem postStamped_stampPost (f p : Nat) (d : Dev) : PostStamped f p (stampPost f p d) := by
  unfold stampPost
  split
  next h => exact fun h' => absurd h h'
  next => exact fun _ => by rw [Dev.rd_wr_same, Dev.rd_wr_ne _ _ (globalGen_ne_cellGen f p)]

/-- A post keeps its stamp when another takes its own. -/
theorem PostStamped.stampPost_ne {f p p' : Nat} (h : p' ≠ p) {d : Dev} (hd : PostStamped f p d) :
    PostStamped f p (stampPost f p' d) := by
  have hne : Reg.CELL_GEN f p ≠ Reg.CELL_GEN f p' := by unfold Reg.CELL_GEN; omega
  unfold stampPost
  split
  · exact hd
  · intro hc
    rw [postCell_congr (Dev.rd_wr_ne _ _ (postMap_ne_cellGen f p'))] at hc
    rw [Dev.rd_wr_ne _ _ hne, Dev.rd_wr_ne _ _ (globalGen_ne_cellGen f p'), hd hc]

theorem postStamped_stampPosts (f : Nat) {p : Nat} (hp : p < 8) (d : Dev) : PostStamped f p (stampPosts f d) :=
  foldl_at (fun _ => True) (PostStamped f p) _ List.nodup_range (List.mem_range.2 hp) d trivial (fun _ _ _ _ _ => trivial)
    (fun e _ => postStamped_stampPost f p e) fun _ _ hne _ he => he.stampPost_ne hne

/-! ### REPEN_CELLS_LOADED (R74 step 4) -/

/-- The cells of a flock load their entries. -/
def loadCells (f v : Nat) (lost : List Nat) (d : Dev) : Dev := stampPosts f (repenSpares f (loseEntries f v lost d))

theorem repenLoaded_of_due {d : Dev} {f : Nat} {r : Repen} (h : repenAt d 3 = some (f, r)) (lost : List Nat) :
    repenLoaded lost d = setRepen f (some { r with step := 4 }) (loadCells f r.variant lost d) := by
  simp only [repenLoaded, h]
  rfl

section
variable {f : Nat} (hf : f < 16) (v : Nat)
include hf

theorem rd_globalGen_loadCells (lost : List Nat) (d : Dev) : (loadCells f v lost d).rd Reg.GLOBAL_GEN = d.rd Reg.GLOBAL_GEN := by
  rw [loadCells, rd_stampPosts fun p _ => globalGen_ne_cellGen f p, (within_repenSpares f _).2, (within_loseEntries hf v lost d).2]
  · unfold LostReg BadReg PostReg InCell cellOff Reg.GLOBAL_GEN Reg.MEM_FLAGS Reg.UNCORR_COUNT Reg.LAST_ERR_LO Reg.FLOCK_IRQ
    rintro (h | h | ⟨p, h⟩) <;> omega
  · rintro (h | h | h)
    · exact not_spareReg_of_chip (by decide) (by unfold LogReg; decide) h
    · unfold Reg.GLOBAL_GEN Reg.POST_MAP at h
      omega
    · unfold Reg.GLOBAL_GEN Reg.NOCELL at h
      omega

theorem stamped_loadCells (lost : List Nat) (d : Dev) {p : Nat} (hp : p < 8) (hc : postCell (loadCells f v lost d) f p ≠ 15) :
    (loadCells f v lost d).rd (Reg.CELL_GEN f p) = d.rd Reg.GLOBAL_GEN :=
  (postStamped_stampPosts f hp _ hc).trans (rd_globalGen_loadCells hf v lost d)

theorem lossNoted_loadCells {lost : List Nat} {p : Nat} (hp : p < 8) (hl : p ∈ lost) (d : Dev) : LossNoted f (loadCells f v lost d) := by
  obtain ⟨hirq, hflags⟩ := lossNoted_repenSpares hf (lossNoted_loseEntries hf v hp hl d)
  refine ⟨(Dev.bit_congr (rd_stampPosts (fun p _ => ?_) _) 3).trans hirq, (Dev.bit_congr (rd_stampPosts (fun p _ => ?_) _) 1).trans hflags⟩
  · unfold Reg.FLOCK_IRQ Reg.CELL_GEN
    omega
  · unfold Reg.MEM_FLAGS Reg.CELL_GEN
    omega

end

/-- The first post without a cell takes the spare. -/
theorem loadCells_first {f p : Nat} (hf : f < 16) (hp : p < 8) (v : Nat) {d : Dev} (hk : kindOf d f p ≠ 0) (hc : postCell d f p = 15)
    (hq : ∀ q < p, kindOf d f q = 0 ∨ postCell d f q ≠ 15) (hs : spareCell d f ≠ 15) (ht : (d.flock f).takeover = none)
    (hu : underTakeover d f p = false) :
    PostGiven f p (spareCell d f) (loadCells f v [] d) ∧ ((d.flock f).ready = [] → spareCell (loadCells f v [] d) f = 15) := by
  obtain ⟨⟨hcell, hnocell, hirq⟩, hspare⟩ := repenSpares_first hf hp hk hc hq hs ht hu
  have hn (q : Nat) : Reg.NOCELL (f / 4) ≠ Reg.CELL_GEN f q ∧ Reg.FLOCK_IRQ f ≠ Reg.CELL_GEN f q ∧ Reg.FLOCK_STATUS f ≠ Reg.CELL_GEN f q := by
    unfold Reg.NOCELL Reg.FLOCK_IRQ Reg.FLOCK_STATUS Reg.CELL_GEN
    omega
  rw [loadCells, loseEntries_nil]
  refine ⟨⟨(postCell_stampPosts ..).trans hcell, ?_, ?_⟩, fun hr => (spareCell_congr (rd_stampPosts (fun q _ => (hn q).2.2) _)).trans (hspare hr)⟩
  · exact (Dev.bit_congr (rd_stampPosts (fun q _ => (hn q).1) _) _).trans hnocell
  · exact (Dev.bit_congr (rd_stampPosts (fun q _ => (hn q).2.1) _) 3).trans hirq

/-- Every post has what it needs: only the stamps of the posts with cells change. -/
theorem regsOnly_loadCells {d : Dev} {f : Nat} (v : Nat) (h : ∀ p < 8, kindOf d f p = 0 ∨ postCell d f p ≠ 15) :
    RegsOnly (StampReg f d) d (loadCells f v [] d) := by
  rw [loadCells, loseEntries_nil, repenSpares, foldl_repenSpare_keep posts fun p hp => (h p (mem_posts.1 hp)).imp_right .inl]
  exact regsOnly_stampPosts f d

theorem gives_repenCellsLoaded {s : State} {f : Nat} {r : Repen} {lost : List Nat} (hat : repenAt s.dev 3 = some (f, r)) :
    Gives (.repenCellsLoaded lost) s (fun t => (t.dev.flock f).repen = some { r with step := 4 } ∧
      (∀ p < 8, postCell t.dev f p ≠ 15 → t.dev.rd (Reg.CELL_GEN f p) = s.dev.rd Reg.GLOBAL_GEN) ∧
      (∀ p < 8, p ∈ lost → t.dev.bit (Reg.FLOCK_IRQ f) 3 = true ∧ t.dev.bit Reg.MEM_FLAGS 1 = true) ∧
      (∀ p < 8, lost = [] → kindOf s.dev f p ≠ 0 → postCell s.dev f p = 15 → (∀ q < p, kindOf s.dev f q = 0 ∨ postCell s.dev f q ≠ 15) →
        spareCell s.dev f ≠ 15 → (s.dev.flock f).takeover = none → underTakeover s.dev f p = false →
        postCell t.dev f p = spareCell s.dev f ∧ t.dev.bit (Reg.NOCELL (f / 4)) (8 * (f % 4) + p) = false ∧
        t.dev.bit (Reg.FLOCK_IRQ f) 3 = true ∧ ((s.dev.flock f).ready = [] → spareCell t.dev f = 15)) ∧
      (lost = [] → (∀ p < 8, kindOf s.dev f p = 0 ∨ postCell s.dev f p ≠ 15) →
        Leaves (fun d e => { d with regs := e.regs, flocks := e.flocks })
          (fun o => ∃ p < 8, postCell s.dev f p ≠ 15 ∧ o = Reg.CELL_GEN f p) s t) ∧ SameMem s t ∧ t.pending = s.pending) := by
  obtain ⟨hf, -, -⟩ := repenAt_some hat
  have hstep := repenLoaded_of_due hat lost
  have hstamped := fun p (hp : p < 8) => stamped_loadCells hf r.variant lost s.dev hp
  have hlost := fun p (hp : p < 8) (hl : p ∈ lost) => lossNoted_loadCells hf r.variant hp hl s.dev
  have hfirst := fun p (hp : p < 8) (hl : lost = []) => hl ▸ loadCells_first (d := s.dev) hf hp r.variant
  have hleaves := fun hl : lost = [] => hl ▸ regsOnly_loadCells (d := s.dev) (f := f) r.variant
  obtain ⟨e, he⟩ : ∃ e, loadCells f r.variant lost s.dev = e := ⟨_, rfl⟩
  rw [he] at hstep
  simp only [he] at hstamped hlost hfirst hleaves
  refine gives_of_upd (exec_repenCellsLoaded lost s) hstep ⟨?_, fun p hp hc => ?_, fun p hp hl => ?_, fun p hp hl hk hc hq hs ht hu => ?_,
    fun hl hc => ?_, rfl, rfl⟩
  · rw [flock_setRepen_same]
  · rw [postCell_congr (rd_setRepen ..)] at hc
    rw [rd_setRepen, hstamped p hp hc]
  · rw [Dev.bit_congr (rd_setRepen ..), Dev.bit_congr (rd_setRepen ..)]
    exact hlost p hp hl
  · obtain ⟨⟨hcell, hnocell, hirq⟩, hspare⟩ := hfirst p hp hl hk hc hq hs ht hu
    rw [postCell_congr (rd_setRepen ..), Dev.bit_congr (rd_setRepen ..), Dev.bit_congr (rd_setRepen ..), spareCell_congr (rd_setRepen ..)]
    exact ⟨hcell, hnocell, hirq, fun hr => hspare (hr.trans hl.symm)⟩
  · exact ((hleaves hl hc).within.trans (within_setRepen f _ e)).leaves

end Sys2Proof.Machine

/-! PROOFS. The probe of a flock's cells in a re-pen (O50). -/
namespace Sys2Proof.Machine

-- One proof after another: proofs that wait for the kernel at once would take more threads than the check's memory holds.
set_option Elab.async false

/-! ### Cells that are retired (R271) -/

theorem mem_insNat {n k : Nat} {l : List Nat} : n ∈ insNat k l ↔ n = k ∨ n ∈ l := by
  induction l with
  | nil => simp [insNat]
  | cons a l ih =>
    rw [insNat]
    split_ifs with h1 h2
    · simp
    · simp [h2]
    · simp only [List.mem_cons, ih]
      tauto

theorem testing_retireCell (f c : Nat) (d : Dev) : ((retireCell f c d).flock f).testing = insNat c (d.flock f).testing := by
  rw [retireCell, Dev.flock_updFlock_same]

theorem within_retireCell {q : Nat → Prop} (f c : Nat) (d : Dev) : Within anyPart q d (retireCell f c d) := within_updFlock f _ d

theorem rd_retireCell (f c : Nat) (d : Dev) (o : Nat) : (retireCell f c d).rd o = d.rd o := Dev.updFlock_rd d f _ o

/-! ### A cell that misses, without a spare (R76) -/

/-- The post waits for a spare. -/
def awaitSpare (f p c : Nat) (d : Dev) : Dev :=
  d.updFlock f (fun x => { x with waiting := x.waiting ++ [{ post := p, cell := c, ht := d.now, detect := 8, logged := true }] })

theorem within_awaitSpare {q : Nat → Prop} (f p c : Nat) (d : Dev) : Within anyPart q d (awaitSpare f p c d) := within_updFlock f _ d

/-- The post stops, its cell is retired, and the re-pen fails in part. -/
def failMarks (f p c : Nat) (d : Dev) : Dev :=
  (retireCell f c (clearPost f p ((awaitSpare f p c d).setBit (Reg.FLOCK_STATUS f) 9))).setBit Reg.REPEN_STATUS 3

/-- Cell c of a post misses the probe. -/
def probeFail (f p c : Nat) (d : Dev) : Dev := faultLog 1 8 (cellIndex f c) 2 6 (cellAux (failMarks f p c d) f) (failMarks f p c d)

theorem probeMiss_without_spare {f : Nat} {d : Dev} (h : spareCell d f = 15) (p : Nat) (spareOk : Bool) :
    probeMiss f p spareOk d = probeFail f p (postCell d f p) d := by
  rw [probeMiss, if_pos h]
  rfl

theorem Within.flock_of_logPart {p : Nat → Prop} {d e : Dev} (h : Within logPart p d e) (f : Nat) : e.flock f = d.flock f :=
  (congrArg (fun x : Dev => x.flock f) h.1 :)

theorem Dev.flock_setBit (d : Dev) (o n f : Nat) : (d.setBit o n).flock f = d.flock f := rfl
theorem Dev.flock_wr (d : Dev) (o : Nat) (v : Word) (f : Nat) : (d.wr o v).flock f = d.flock f := rfl

theorem testing_failMarks (f p c : Nat) (d : Dev) : ((failMarks f p c d).flock f).testing = insNat c (d.flock f).testing := by
  rw [failMarks, Dev.flock_setBit, testing_retireCell, (within_clearPost f p _).flock_of_cellsPart, Dev.flock_setBit, awaitSpare,
    Dev.flock_updFlock_same]

theorem flockStatus_not_postMark (f p : Nat) : ¬ PostMark f p (Reg.FLOCK_STATUS f) := by
  unfold PostMark Reg.FLOCK_STATUS Reg.CELL_GEN Reg.CELL_STATUS
  omega

theorem repenStatus_not_postMark (f p : Nat) : ¬ PostMark f p Reg.REPEN_STATUS := by
  unfold PostMark Reg.REPEN_STATUS Reg.CELL_GEN Reg.CELL_STATUS
  omega

theorem cellMark_ne_repenStatus {f p o : Nat} (h : PostMark f p o) : o ≠ Reg.REPEN_STATUS := fun h' => repenStatus_not_postMark f p (h' ▸ h)

/-- The registers of the marks. -/
theorem rd_failMarks (f p c : Nat) (d : Dev) :
    (failMarks f p c d).rd (Reg.FLOCK_STATUS f) = (d.setBit (Reg.FLOCK_STATUS f) 9).rd (Reg.FLOCK_STATUS f) ∧
      (failMarks f p c d).bit Reg.REPEN_STATUS 3 = true ∧
      ∀ o, PostMark f p o → (failMarks f p c d).rd o = (clearPost f p ((awaitSpare f p c d).setBit (Reg.FLOCK_STATUS f) 9)).rd o := by
  refine ⟨?_, Dev.bit_setBit_same _ _ (by decide), fun o ho => ?_⟩
  · rw [failMarks, Dev.rd_setBit_ne _ _ (repenStatus_ne_flockStatus f).symm, rd_retireCell, (within_clearPost f p _).2 _ (flockStatus_not_postMark f p)]
    unfold awaitSpare Dev.setBit
    rw [Dev.rd_wr_same, Dev.rd_wr_same, Dev.updFlock_rd]
  · rw [failMarks, Dev.rd_setBit_ne _ _ (cellMark_ne_repenStatus ho), rd_retireCell]

theorem within_failMarks (f p c : Nat) (d : Dev) :
    Within anyPart (fun o => o = Reg.FLOCK_STATUS f ∨ o = Reg.REPEN_STATUS ∨ PostMark f p o) d (failMarks f p c d) := by
  have hclear := (within_clearPost f p ((awaitSpare f p c d).setBit (Reg.FLOCK_STATUS f) 9)).any
  unfold failMarks
  refine (((within_awaitSpare f p c d).trans (within_setBit (.inl rfl) 9 _)).trans (hclear.mono fun _ h => .inr (.inr h))).trans ?_
  exact Within.trans (within_retireCell f c _) (within_setBit (.inr (.inl rfl)) 3 _)

theorem not_logReg_repenStatus : ¬ LogReg Reg.REPEN_STATUS := by unfold LogReg; decide

theorem not_logReg_postMark {f p o : Nat} (h : PostMark f p o) : ¬ LogReg o := by
  refine not_logReg_of_page ?_
  unfold PostMark Reg.CELL_GEN Reg.CELL_STATUS at h
  omega

theorem not_logReg_flockStatus (f : Nat) : ¬ LogReg (Reg.FLOCK_STATUS f) := not_logReg_of_page (by unfold Reg.FLOCK_STATUS; omega)

/-- What a miss without a spare notes of the post. -/
def MissNoted (f p c : Nat) (d : Dev) : Prop :=
  d.rd (Reg.CELL_GEN f p) = 0 ∧ d.bit (Reg.CELL_STATUS f p) 13 = false ∧ d.bit Reg.REPEN_STATUS 3 = true ∧
    d.bit (Reg.FLOCK_STATUS f) 9 = true ∧ c ∈ (d.flock f).testing

theorem missNoted_probeFail (f p c : Nat) (d : Dev) : MissNoted f p c (probeFail f p c d) := by
  obtain ⟨hstatus, hrepen, hmarks⟩ := rd_failMarks f p c d
  obtain ⟨hgen, hbit, -⟩ := clearPost_marks f p ((awaitSpare f p c d).setBit (Reg.FLOCK_STATUS f) 9)
  have hlog := within_faultLog 1 8 (cellIndex f c) 2 6 (cellAux (failMarks f p c d) f) (failMarks f p c d)
  refine ⟨?_, ?_, ?_, ?_, ?_⟩
  · rw [probeFail, hlog.2 _ (not_logReg_postMark (.inl rfl)), hmarks _ (.inl rfl), hgen]
  · rw [probeFail, Dev.bit_congr (hlog.2 _ (not_logReg_postMark (.inr rfl))), Dev.bit_congr (hmarks _ (.inr rfl)), hbit]
  · rw [probeFail, Dev.bit_congr (hlog.2 _ not_logReg_repenStatus), hrepen]
  · rw [probeFail, Dev.bit_congr (hlog.2 _ (not_logReg_flockStatus f)), Dev.bit_congr hstatus, Dev.bit_setBit_same _ _ (by decide)]
  · rw [probeFail, hlog.flock_of_logPart, testing_failMarks]
    exact mem_insNat.2 (.inl rfl)

/-- A miss that is noted stays noted when another post misses. -/
theorem MissNoted.probeFail_ne {f p p' c : Nat} (h : p' ≠ p) (c' : Nat) {d : Dev} (hd : MissNoted f p c d) : MissNoted f p c (probeFail f p' c' d) := by
  obtain ⟨hgen, hbit, -, -, htesting⟩ := hd
  obtain ⟨-, -, hrepen, hstatus, -⟩ := missNoted_probeFail f p' c' d
  have hlog := within_faultLog 1 8 (cellIndex f c') 2 6 (cellAux (failMarks f p' c' d) f) (failMarks f p' c' d)
  have hkept (o : Nat) (ho : PostMark f p o) : (probeFail f p' c' d).rd o = d.rd o := by
    rw [probeFail, hlog.2 _ (not_logReg_postMark ho), (within_failMarks f p' c' d).2]
    rintro (rfl | rfl | h')
    · exact flockStatus_not_postMark f p ho
    · exact repenStatus_not_postMark f p ho
    · exact postMark_ne (Ne.symm h) h' ho
  refine ⟨(hkept _ (.inl rfl)).trans hgen, (Dev.bit_congr (hkept _ (.inr rfl)) 13).trans hbit, hrepen, hstatus, ?_⟩
  rw [probeFail, hlog.flock_of_logPart, testing_failMarks]
  exact mem_insNat.2 (.inr htesting)

/-- A miss without a spare leaves POST_MAP, and the flock without a spare. -/
theorem probeFail_keeps (f p c : Nat) (d : Dev) :
    (probeFail f p c d).rd (Reg.POST_MAP f) = d.rd (Reg.POST_MAP f) ∧ spareCell (probeFail f p c d) f = spareCell d f := by
  have hlog := within_faultLog 1 8 (cellIndex f c) 2 6 (cellAux (failMarks f p c d) f) (failMarks f p c d)
  refine ⟨?_, ?_⟩
  · rw [probeFail, hlog.2 _ (not_logReg_of_page (by unfold Reg.POST_MAP; omega)), (within_failMarks f p c d).2]
    unfold PostMark Reg.POST_MAP Reg.FLOCK_STATUS Reg.REPEN_STATUS Reg.CELL_GEN Reg.CELL_STATUS
    omega
  · rw [probeFail, spareCell_congr (hlog.2 _ (not_logReg_flockStatus f)), spareCell_congr (rd_failMarks f p c d).1]
    exact Dev.fld_setBit_outside _ _ (by decide) (by decide)

/-! ### A cell that misses, with a spare (R76) -/

/-- The spare takes the place of a post's cell. -/
def probeSwap (f p : Nat) (d : Dev) : Dev := (loseSpare f (retireCell f (postCell d f p) (swapSpare f p d))).setBit (Reg.FLOCK_IRQ f) 3

theorem probeMiss_with_spare {f : Nat} {d : Dev} (h : spareCell d f ≠ 15) (p : Nat) :
    ∃ aux, probeMiss f p true d = faultLog 1 8 (cellIndex f (postCell d f p)) 1 1 aux (probeSwap f p d) := by
  rw [probeMiss, if_neg h, if_pos rfl]
  exact ⟨_, rfl⟩

theorem postCell_swapSpare {f p : Nat} (hp : p < 8) (d : Dev) : postCell (swapSpare f p d) f p = spareCell d f := by
  have hspare := within_setPostCell_spare f (postCell d f p) (setPostCell f p (spareCell d f) d)
  unfold swapSpare
  dsimp only
  rw [postCell_congr (Dev.rd_wr_ne _ _ (postMap_ne_cellGen f p)), postCell_congr (hspare.2 _ (not_spareReg_postMap f f)),
    postCell_setPostCell_same hp (spareCell_lt d f)]

/-- A setting of SHADOW_POST leaves the flock. -/
theorem flock_setShadow (f q : Nat) (d : Dev) (f' : Nat) : (setShadow f q d).flock f' = d.flock f' := (regsOnly_setShadow f q d).flock f'

theorem flock_loseSpare (f : Nat) (d : Dev) (f' : Nat) : (loseSpare f d).flock f' = d.flock f' := by
  unfold loseSpare
  dsimp only
  rw [Dev.flock_setBit, Dev.flock_setBit, Dev.flock_wr, flock_setShadow, flock_setPostCell, Dev.flock_setBit]

/-- What the exchange has made. -/
theorem probeSwap_notes {f p : Nat} (hp : p < 8) (d : Dev) :
    postCell (probeSwap f p d) f p = spareCell d f ∧ spareCell (probeSwap f p d) f = 15 ∧
      postCell d f p ∈ ((probeSwap f p d).flock f).testing ∧ (probeSwap f p d).bit (Reg.FLOCK_IRQ f) 3 = true := by
  have h1 : Reg.POST_MAP f ≠ Reg.FLOCK_IRQ f := by unfold Reg.POST_MAP Reg.FLOCK_IRQ; omega
  have h2 : Reg.FLOCK_STATUS f ≠ Reg.FLOCK_IRQ f := by unfold Reg.FLOCK_STATUS Reg.FLOCK_IRQ; omega
  refine ⟨?_, ?_, ?_, Dev.bit_setBit_same _ _ (by decide)⟩
  · rw [probeSwap, postCell_congr (Dev.rd_setBit_ne _ _ h1), postCell_congr ((within_loseSpare f _).2 _ (not_spareReg_postMap f f)),
      postCell_congr (rd_retireCell ..), postCell_swapSpare hp]
  · rw [probeSwap, spareCell_congr (Dev.rd_setBit_ne _ _ h2), spareCell_loseSpare]
  · rw [probeSwap, Dev.flock_setBit, flock_loseSpare, testing_retireCell]
    exact mem_insNat.2 (.inl rfl)

end Sys2Proof.Machine

/-! PROOFS. The probe step of a re-pen (O50). -/
namespace Sys2Proof.Machine

-- One proof after another: proofs that wait for the kernel at once would take more threads than the check's memory holds.
set_option Elab.async false

/-! ### The posts whose cells are checked (R76) -/

theorem mem_servedPosts {d : Dev} {f p : Nat} :
    p ∈ servedPosts d f ↔ p < 8 ∧ kindOf d f p ≠ 0 ∧ postCell d f p ≠ 15 ∧ underTakeover d f p = false := by
  simp [servedPosts, mem_posts, and_assoc]

theorem nodup_servedPosts (d : Dev) (f : Nat) : (servedPosts d f).Nodup := nodup_posts.filter _

/-- The posts whose cells miss the probe. -/
def missedPosts (d : Dev) (f : Nat) (bad : List Nat) : List Nat := (servedPosts d f).filter (fun p => !probeGood d f || bad.contains p)

theorem probeCells_eq (f : Nat) (bad : List Nat) (spareOk : Bool) (d : Dev) :
    probeCells f bad spareOk d = (missedPosts d f bad).foldl (fun e p => probeMiss f p (spareOk && probeGood d f) e) d := rfl

theorem missedPosts_none {d : Dev} {f : Nat} (h : probeGood d f = true) : missedPosts d f [] = [] := by
  simp [missedPosts, h]

theorem missedPosts_one {d : Dev} {f p : Nat} (h : probeGood d f = true) (hp : p ∈ servedPosts d f) : missedPosts d f [p] = [p] := by
  have hpred : (fun q => !probeGood d f || [p].contains q) = fun q => decide (q = p) := by
    funext q
    simp [h]
  rw [missedPosts, hpred, List.filter_eq, List.count_eq_one_of_mem (nodup_servedPosts d f) hp, List.replicate_one]

theorem mem_missedPosts {d : Dev} {f p : Nat} {bad : List Nat} (h : probeGood d f = false ∨ p ∈ bad) (hp : p ∈ servedPosts d f) :
    p ∈ missedPosts d f bad := by
  refine List.mem_filter.2 ⟨hp, ?_⟩
  obtain h | h := h <;> simp [h]

/-- With no spare, every miss is a failure. -/
theorem missNoted_probeCells {d : Dev} {f p : Nat} {bad : List Nat} (spareOk : Bool) (h : probeGood d f = false ∨ p ∈ bad)
    (hp : p ∈ servedPosts d f) (hs : spareCell d f = 15) : MissNoted f p (postCell d f p) (probeCells f bad spareOk d) := by
  have hkeep {e : Dev} (hs : spareCell e f = 15) (q : Nat) (ok : Bool) :
      spareCell (probeMiss f q ok e) f = 15 ∧ postCell (probeMiss f q ok e) f p = postCell e f p := by
    rw [probeMiss_without_spare hs]
    obtain ⟨hmap, hspare⟩ := probeFail_keeps f q (postCell e f q) e
    exact ⟨hspare.trans hs, postCell_congr hmap p⟩
  have hmiss := foldl_at (fun e : Dev => spareCell e f = 15 ∧ postCell e f p = postCell d f p)
    (fun e : Dev => spareCell e f = 15 ∧ MissNoted f p (postCell d f p) e) (fun e p => probeMiss f p (spareOk && probeGood d f) e)
    ((nodup_servedPosts d f).filter _) (mem_missedPosts h hp) d ⟨hs, rfl⟩
    (fun q _ _ e ⟨hs, hc⟩ => ⟨(hkeep hs q _).1, (hkeep hs q _).2.trans hc⟩)
    (fun e ⟨hs, hc⟩ => ⟨(hkeep hs p _).1, by rw [probeMiss_without_spare hs, hc]; exact missNoted_probeFail f p _ e⟩)
    fun q _ hne e ⟨hs, hm⟩ => ⟨(hkeep hs q _).1, by rw [probeMiss_without_spare hs]; exact hm.probeFail_ne hne _⟩
  exact hmiss.2

/-- What the exchange of a cell that alone misses has made. -/
def PostSwapped (f p c sp : Nat) (d : Dev) : Prop :=
  postCell d f p = sp ∧ spareCell d f = 15 ∧ c ∈ (d.flock f).testing ∧ d.bit (Reg.FLOCK_IRQ f) 3 = true

theorem postSwapped_probeCells {d : Dev} {f p : Nat} (h : probeGood d f = true) (hp : p ∈ servedPosts d f) (hs : spareCell d f ≠ 15) :
    PostSwapped f p (postCell d f p) (spareCell d f) (probeCells f [p] true d) := by
  have hcells : probeCells f [p] true d = probeMiss f p true d := by
    rw [probeCells_eq, missedPosts_one h hp, h]
    rfl
  obtain ⟨aux, haux⟩ := probeMiss_with_spare hs p
  obtain ⟨hcell, hspare, htesting, hirq⟩ := probeSwap_notes (mem_servedPosts.1 hp).1 d
  have hlog := within_faultLog 1 8 (cellIndex f (postCell d f p)) 1 1 aux (probeSwap f p d)
  have hpage {o : Nat} (ho : 0x1000000 ≤ o) := hlog.2 o (not_logReg_of_page ho)
  rw [hcells, haux]
  refine ⟨?_, ?_, ?_, ?_⟩
  · rw [postCell_congr (hpage (by unfold Reg.POST_MAP; omega)), hcell]
  · rw [spareCell_congr (hpage (by unfold Reg.FLOCK_STATUS; omega)), hspare]
  · rw [hlog.flock_of_logPart]
    exact htesting
  · rw [Dev.bit_congr (hpage (by unfold Reg.FLOCK_IRQ; omega)), hirq]

/-! ### REPEN_PROBE_DONE (R76) -/

/-- A layer is to build from a line on. -/
def fillLayer (at_ : Nat × Nat) (y : LayerSt) : LayerSt := { y with frame := at_.1, next := at_.2, lineColl := [] }

/-- The cells of the posts in a list fill their line buffers from a line on. -/
def fillCells (f : Nat) (at_ : Nat × Nat) (l : List Nat) (d : Dev) : Dev :=
  l.foldl (fun d p => d.updCell f p (fun c => { c with l0 := fillLayer at_ c.l0, l1 := fillLayer at_ c.l1 })) d

/-- The die with the cells and the flocks of another. -/
def fillPart (e d : Dev) : Dev := { e with flocks := d.flocks, cells := d.cells }

theorem within_fillCells (f : Nat) (at_ : Nat × Nat) (l : List Nat) (d : Dev) : Within cellsPart (fun _ => False) d (fillCells f at_ l d) :=
  .foldl l _ (fun p _ d => within_updCell f p _ d) d

theorem within_fillPart (f : Nat) (at_ : Nat × Nat) (l : List Nat) (d : Dev) : Within fillPart (fun _ => False) d (fillCells f at_ l d) :=
  .foldl l _ (fun p _ d => within_updCell f p _ d) d

theorem repenProbed_of_due {d : Dev} {f : Nat} {r : Repen} (h : repenAt d 4 = some (f, r)) (bad : List Nat) (spareOk : Bool) :
    ∃ r' at_ l, r'.step = 5 ∧ repenProbed bad spareOk d = setRepen f (some r') (fillCells f at_ l (probeCells f bad spareOk d)) := by
  simp only [repenProbed, h]
  exact ⟨_, _, _, rfl, rfl⟩

section
variable {d e : Dev} (h : Within cellsPart (fun _ => False) d e)
include h

theorem MissNoted.of_filled {f p c : Nat} (hd : MissNoted f p c d) (r : Option Repen) : MissNoted f p c (setRepen f r e) := by
  have hrd (o : Nat) : (setRepen f r e).rd o = d.rd o := (rd_setRepen ..).trans (h.2 o id)
  unfold MissNoted
  rw [hrd, Dev.bit_congr (hrd _), Dev.bit_congr (hrd _), Dev.bit_congr (hrd _), flock_setRepen_same, h.flock_of_cellsPart]
  exact hd

theorem PostSwapped.of_filled {f p c sp : Nat} (hd : PostSwapped f p c sp d) (r : Option Repen) : PostSwapped f p c sp (setRepen f r e) := by
  have hrd (o : Nat) : (setRepen f r e).rd o = d.rd o := (rd_setRepen ..).trans (h.2 o id)
  unfold PostSwapped
  rw [postCell_congr (hrd _), spareCell_congr (hrd _), Dev.bit_congr (hrd _), flock_setRepen_same, h.flock_of_cellsPart]
  exact hd

end

theorem gives_repenProbeDone {s : State} {f : Nat} {r : Repen} {bad : List Nat} {spareOk : Bool} (hat : repenAt s.dev 4 = some (f, r)) :
    Gives (.repenProbeDone bad spareOk) s (fun t => (t.dev.flock f).repen.map (·.step) = some 5 ∧
      (bad = [] → probeGood s.dev f = true →
        Leaves (fun d e => { d with flocks := e.flocks, cells := e.cells }) (fun _ => False) s t) ∧
      (∀ p < 8, bad = [p] → probeGood s.dev f = true → spareOk = true → kindOf s.dev f p ≠ 0 → postCell s.dev f p ≠ 15 →
        underTakeover s.dev f p = false → spareCell s.dev f ≠ 15 →
        postCell t.dev f p = spareCell s.dev f ∧ spareCell t.dev f = 15 ∧ postCell s.dev f p ∈ (t.dev.flock f).testing ∧
        t.dev.bit (Reg.FLOCK_IRQ f) 3 = true) ∧
      (∀ p < 8, probeGood s.dev f = false ∨ p ∈ bad → kindOf s.dev f p ≠ 0 → postCell s.dev f p ≠ 15 →
        underTakeover s.dev f p = false → spareCell s.dev f = 15 →
        t.dev.rd (Reg.CELL_GEN f p) = 0 ∧ t.dev.bit (Reg.CELL_STATUS f p) 13 = false ∧ t.dev.bit Reg.REPEN_STATUS 3 = true ∧
        t.dev.bit (Reg.FLOCK_STATUS f) 9 = true ∧ postCell s.dev f p ∈ (t.dev.flock f).testing) ∧
      SameMem s t ∧ t.pending = s.pending) := by
  obtain ⟨r', at_, l, hr', hstep⟩ := repenProbed_of_due hat bad spareOk
  have hfilled := within_fillCells f at_ l (probeCells f bad spareOk s.dev)
  have hnone : bad = [] → probeGood s.dev f = true → Within fillPart (fun _ => False) s.dev (fillCells f at_ l (probeCells f bad spareOk s.dev)) := by
    intro hb hg
    have hsame : probeCells f bad spareOk s.dev = s.dev := by rw [hb, probeCells_eq, missedPosts_none hg, List.foldl_nil]
    rw [hsame]
    exact within_fillPart f at_ l s.dev
  have hswap := fun p (hb : bad = [p]) hg (ho : spareOk = true) hp => hb ▸ ho ▸ postSwapped_probeCells (d := s.dev) (f := f) (p := p) hg hp
  have hmiss := fun p => missNoted_probeCells (d := s.dev) (f := f) (p := p) (bad := bad) spareOk
  obtain ⟨e, he⟩ : ∃ e, fillCells f at_ l (probeCells f bad spareOk s.dev) = e := ⟨_, rfl⟩
  rw [he] at hfilled hstep
  simp only [he] at hnone
  refine gives_of_upd (exec_repenProbeDone bad spareOk s) hstep ⟨?_, fun hb hg => ?_, fun p hp hb hg ho hk hc hu hs => ?_,
    fun p hp hb hk hc hu hs => ?_, rfl, rfl⟩
  · rw [flock_setRepen_same, Option.map_some, hr']
  · exact ((hnone hb hg).trans (within_setRepen f _ e)).leaves
  · exact (hswap p hb hg ho (mem_servedPosts.2 ⟨hp, hk, hc, hu⟩) hs).of_filled hfilled _
  · exact (hmiss p hb (mem_servedPosts.2 ⟨hp, hk, hc, hu⟩) hs).of_filled hfilled _

end Sys2Proof.Machine

/-! PROOFS. The slot map of a head, and the end of a re-pen (O50). -/
namespace Sys2Proof.Machine

-- One proof after another: proofs that wait for the kernel at once would take more threads than the check's memory holds.
set_option Elab.async false

/-! ### The slot map (R70, R193) -/

/-- The word of a slot's entry, and of its video index. -/
def mapWord (e : Nat × Nat × Nat × Bool) (v : Nat) : Word :=
  w32 (e.1 % 2 ^ 8 + e.2.1 % 8 * 2 ^ 8 + e.2.2.1 % 2 * 2 ^ 12 + (if e.2.2.2 then 2 ^ 13 else 0) + v * 2 ^ 14)

/-- A slot reads as the entry that its word was made from. -/
theorem mapWord_fields {e : Nat × Nat × Nat × Bool} (h1 : e.1 < 256) (h2 : e.2.1 < 8) (h3 : e.2.2.1 < 2) (v : Nat) :
    (fld (mapWord e v) 7 0, fld (mapWord e v) 11 8, fld (mapWord e v) 12 12, bitOf (mapWord e v) 13) = e := by
  obtain ⟨a, b, c, x⟩ := e
  dsimp only at h1 h2 h3
  have hword : (mapWord (a, b, c, x) v).toNat = (a + b * 256 + c * 4096 + x.toNat * 8192 + v * 16384) % 4294967296 := by
    have hx : (if x = true then 2 ^ 13 else 0) = x.toNat * 8192 := by cases x <;> rfl
    rw [mapWord, w32, BitVec.toNat_ofNat]
    dsimp only
    rw [hx, Nat.mod_eq_of_lt h2, Nat.mod_eq_of_lt h3, Nat.mod_eq_of_lt (show a < 2 ^ 8 from h1)]
    norm_num
  have hx := Bool.toNat_lt x
  have hbit : bitOf (mapWord (a, b, c, x) v) 13 = x := by
    rw [bitOf, BitVec.getLsbD, hword, Nat.testBit_eq_decide_div_mod_eq]
    cases x <;> simp only [Bool.toNat_true, Bool.toNat_false, decide_eq_true_eq, decide_eq_false_iff_not] <;> omega
  rw [hbit]
  simp only [fld, hword, Nat.shiftRight_eq_div_pow, Prod.mk.injEq, and_true]
  omega

theorem slotSrc_injective (h : Nat) : Function.Injective (Reg.SLOT_SRC h) := fun i j hij => by
  unfold Reg.SLOT_SRC at hij
  omega

theorem setSlots_eq (h : Nat) (slots : List (Nat × Nat × Nat × Bool)) (d : Dev) :
    setSlots h slots d = forN 32 d (fun s d => d.wr (Reg.SLOT_SRC h s) (mapWord (slots.getD s (255, 0, 0, false)) (videoIndex slots s))) := rfl

/-- A slot that is entered in the map. -/
theorem rd_setSlots (h : Nat) (slots : List (Nat × Nat × Nat × Bool)) {n : Nat} (hn : n < 32) (d : Dev) :
    (setSlots h slots d).rd (Reg.SLOT_SRC h n) = mapWord (slots.getD n (255, 0, 0, false)) (videoIndex slots n) := by
  rw [setSlots_eq]
  exact rd_forN_wr_index (slotSrc_injective h) (fun n => mapWord (slots.getD n (255, 0, 0, false)) (videoIndex slots n)) hn d

theorem slotNow_of_word {d : Dev} {h n : Nat} {e : Nat × Nat × Nat × Bool} {v : Nat} (hw : d.rd (Reg.SLOT_SRC h n) = mapWord e v)
    (h1 : e.1 < 256) (h2 : e.2.1 < 8) (h3 : e.2.2.1 < 2) : slotNow d h n = e := by
  unfold slotNow
  rw [hw]
  exact mapWord_fields h1 h2 h3 v

/-- The words of a head's slot map. -/
def SlotReg (h o : Nat) : Prop := ∃ n < 32, o = Reg.SLOT_SRC h n

theorem regsOnly_setSlots (h : Nat) (slots : List (Nat × Nat × Nat × Bool)) (d : Dev) : RegsOnly (SlotReg h) d (setSlots h slots d) := by
  rw [setSlots_eq]
  exact regsOnly_forN 32 _ (fun n hn d => regsOnly_wr ⟨n, hn, rfl⟩ _ d) d

theorem slotsNow_congr {d e : Dev} {h : Nat} (hr : ∀ n < 32, e.rd (Reg.SLOT_SRC h n) = d.rd (Reg.SLOT_SRC h n)) : slotsNow e h = slotsNow d h := by
  refine List.map_congr_left fun n hn => ?_
  rw [slotNow, hr n (List.mem_range.1 hn), slotNow]

/-! ### The instant of the return (R75) -/

/-- The instant at which the slots return. -/
def rejoinTime (f : Nat) (r : Repen) (d : Dev) : Dev :=
  let m := modeOf d (flockHead d f)
  if r.align || !headScans d f then d
  else toLineStart f (d.passClk (r.since + (3 * m.pn + m.pd * m.vTot - 1) / (m.pd * m.vTot) - 1))

theorem timeOnly_rejoinTime (f : Nat) (r : Repen) (d : Dev) : TimeOnly d (rejoinTime f r d) := by
  unfold rejoinTime
  dsimp only
  split
  · exact .refl d
  · exact (timeOnly_passClk d _).trans (timeOnly_toLineStart f _)

theorem clk_le_toLineStart (f : Nat) (d : Dev) : d.clk ≤ (toLineStart f d).clk := by
  rw [toLineStart_eq]
  split
  · split
    · rw [clk_passClk]
      exact Nat.le_max_left ..
    · exact Nat.le_refl _
  · exact Nat.le_refl _

theorem le_ceil_mul (a : Nat) {b : Nat} (hb : 0 < b) : a ≤ (a + b - 1) / b * b := by
  have := Nat.lt_div_mul_add (a := a + b - 1) hb
  omega

/-- At least 3 line periods have passed. -/
theorem clk_rejoinTime {f : Nat} {r : Repen} {d : Dev} (halign : r.align = false) (hscan : headScans d f = true) :
    3 * (modeOf d (flockHead d f)).pn ≤
      ((rejoinTime f r d).clk + 1 - r.since) * ((modeOf d (flockHead d f)).pd * (modeOf d (flockHead d f)).vTot) := by
  obtain ⟨-, hv, hpd, -⟩ := modeOf_sound d (flockHead d f)
  have hpos := Nat.mul_pos hpd hv
  refine (le_ceil_mul _ hpos).trans (Nat.mul_le_mul_right _ ?_)
  have hle := clk_le_toLineStart f
    (d.passClk (r.since + (3 * (modeOf d (flockHead d f)).pn + (modeOf d (flockHead d f)).pd * (modeOf d (flockHead d f)).vTot - 1) /
      ((modeOf d (flockHead d f)).pd * (modeOf d (flockHead d f)).vTot) - 1))
  rw [clk_passClk] at hle
  rw [rejoinTime, if_neg (by simp [halign, hscan])]
  omega

/-! ### The posts rejoin (R75, R101) -/

/-- The posts with cells rejoin. -/
def rejoinPosts (f : Nat) (d : Dev) : Dev := (servedPosts d f).foldl (fun d p => repenJoin f p d) d

/-- CELL_GEN and CELL_STATUS of the posts of a flock. -/
def PostMarks (f o : Nat) : Prop := ∃ p < 8, PostMark f p o

theorem regsOnly_repenJoin (f p : Nat) (d : Dev) : RegsOnly (PostMark f p) d (repenJoin f p d) :=
  (regsOnly_wr (.inl rfl) _ d).trans (regsOnly_wr (.inr rfl) _ _)

theorem regsOnly_rejoinPosts (f : Nat) (d : Dev) : RegsOnly (PostMarks f) d (rejoinPosts f d) :=
  List.foldlRecOn (motive := RegsOnly (PostMarks f) d) _ _ (.refl _ d) fun e he p hp =>
    he.trans ((regsOnly_repenJoin f p e).mono fun _ ho => ⟨p, (mem_servedPosts.1 hp).1, ho⟩)

/-- A post has the generation stamp g, and JOINED. -/
def PostJoined (f p : Nat) (g : Word) (d : Dev) : Prop := d.rd (Reg.CELL_GEN f p) = g ∧ d.bit (Reg.CELL_STATUS f p) 13 = true

theorem postJoined_repenJoin (f p : Nat) (d : Dev) : PostJoined f p (d.rd Reg.GLOBAL_GEN) (repenJoin f p d) := by
  refine ⟨?_, Dev.bit_setBit_same _ _ (by decide)⟩
  rw [repenJoin, Dev.rd_setBit_ne _ _ (cellGen_ne_cellStatus f p f p), Dev.rd_wr_same]

theorem postJoined_congr {f p : Nat} {g : Word} {d e : Dev} (h : ∀ o, PostMark f p o → e.rd o = d.rd o) : PostJoined f p g e ↔ PostJoined f p g d := by
  unfold PostJoined
  rw [h _ (.inl rfl), Dev.bit_congr (h _ (.inr rfl))]

theorem globalGen_not_postMark (f p : Nat) : ¬ PostMark f p Reg.GLOBAL_GEN := by
  unfold PostMark Reg.GLOBAL_GEN Reg.CELL_GEN Reg.CELL_STATUS
  omega

theorem postJoined_rejoinPosts {f p : Nat} {d : Dev} (hp : p ∈ servedPosts d f) : PostJoined f p (d.rd Reg.GLOBAL_GEN) (rejoinPosts f d) :=
  foldl_at (fun e : Dev => e.rd Reg.GLOBAL_GEN = d.rd Reg.GLOBAL_GEN) (PostJoined f p (d.rd Reg.GLOBAL_GEN)) _ (nodup_servedPosts d f) hp d rfl
    (fun q _ _ e he => ((regsOnly_repenJoin f q e).2 _ (globalGen_not_postMark f q)).trans he)
    (fun e he => he ▸ postJoined_repenJoin f p e)
    fun q _ hne e he => (postJoined_congr fun o ho => (regsOnly_repenJoin f q e).2 o (postMark_ne hne ho)).2 he

end Sys2Proof.Machine

/-! PROOFS. The end of a re-pen, and the statement (O50). -/
namespace Sys2Proof.Machine

-- One proof after another: proofs that wait for the kernel at once would take more threads than the check's memory holds.
set_option Elab.async false

/-! ### REPEN_REJOIN (R75, R76) -/

/-- The slots of the flock return with the entries of its layout. -/
def rejoinSlots (f v h : Nat) (d : Dev) : Dev :=
  if h < 8 then setSlots h (replaceSlots f (layoutSlots d.ld.recs f v) (slotsNow d h)) d else d

/-- The re-pen and its journal end. -/
def repenOver (f : Nat) (d : Dev) : Dev := setRepen f none ((d.clrBit (Reg.FLOCK_STATUS f) 10).ldUpd (fun l => { l with journal := none }))

/-- REPEN_STATUS reads DONE. -/
def repenMarkDone (d : Dev) : Dev := (d.clrBit Reg.REPEN_STATUS 0).setBit Reg.REPEN_STATUS 1

/-- The flock has its layout. -/
def rejoinEnd (f v : Nat) (d : Dev) : Dev := moveCheck (moveFreeze (repenMarkDone (keepDevField (Reg.PEN_VARIANT f) (w32 v) (repenOver f d))))

theorem repenRejoin_of_due {d : Dev} {f : Nat} {r : Repen} (hat : repenAt d 5 = some (f, r)) (hcame : frameCame d f r = true)
    (hrail : railFloor d ≤ railLevel d) (ht : (d.flock f).takeover = none) :
    repenRejoin d = rejoinEnd f r.variant (rejoinSlots f r.variant (flockHead d f) (rejoinPosts f (rejoinTime f r d))) := by
  unfold repenRejoin
  simp only [hat]
  rw [if_neg (by simp [hcame, ht, hrail])]
  rfl

/-- The registers of the end of a re-pen. -/
def EndReg (f o : Nat) : Prop :=
  o = Reg.FLOCK_STATUS f ∨ (o = Reg.PEN_VARIANT f ∨ LogReg o) ∨ o = Reg.REPEN_STATUS ∨ o = Reg.REGIME_STATUS ∨ o = Reg.MODE

/-- The die with the clock of another: any other part may change. -/
def clkPart (e d : Dev) : Dev := { d with clk := e.clk }

theorem within_repenOver (f : Nat) (d : Dev) : Within clkPart (EndReg f) d (repenOver f d) :=
  ((within_clrBit (.inl rfl) 10 d).trans (within_ldUpd _ _)).trans (within_setRepen f none _)

theorem within_moves (f : Nat) (d : Dev) : Within clkPart (EndReg f) d (moveCheck (moveFreeze (repenMarkDone d))) := by
  have hdone : Within clkPart (EndReg f) d (repenMarkDone d) :=
    (within_clrBit (.inr (.inr (.inl rfl))) 0 d).trans (within_setBit (.inr (.inr (.inl rfl))) 1 _)
  have hmove : MoveOnly (repenMarkDone d) (moveCheck (moveFreeze (repenMarkDone d))) := (moveOnly_moveFreeze _).trans (moveOnly_moveCheck _)
  exact hdone.trans ⟨(congrArg (fun x : Dev => clkPart x (repenMarkDone d)) hmove.1 :), fun o ho => hmove.2 o fun h => ho (.inr (.inr (.inr h)))⟩

theorem within_rejoinEnd (f v : Nat) (d : Dev) : Within clkPart (EndReg f) d (rejoinEnd f v d) := by
  have hkeep : Within clkPart (EndReg f) (repenOver f d) (keepDevField (Reg.PEN_VARIANT f) (w32 v) (repenOver f d)) :=
    (within_keepDevField ..).widen fun _ h => .inr (.inl h)
  exact ((within_repenOver f d).trans hkeep).trans (within_moves f _)

theorem MoveOnly.flock {d e : Dev} (h : MoveOnly d e) (f : Nat) : e.flock f = d.flock f := (congrArg (fun x : Dev => x.flock f) h.1 :)
theorem MoveOnly.ld {d e : Dev} (h : MoveOnly d e) : e.ld = d.ld := (congrArg Dev.ld h.1 :)
theorem Within.flock_of_wearPart {p : Nat → Prop} {d e : Dev} (h : Within wearPart p d e) (f : Nat) : e.flock f = d.flock f :=
  (congrArg (fun x : Dev => x.flock f) h.1 :)
theorem Within.ld_of_wearPart {p : Nat → Prop} {d e : Dev} (h : Within wearPart p d e) : e.ld = d.ld := (congrArg Dev.ld h.1 :)
theorem Dev.ld_ldUpd (d : Dev) (u : Loader → Loader) : (d.ldUpd u).ld = u d.ld := rfl
theorem Dev.rd_ldUpd (d : Dev) (u : Loader → Loader) (o : Nat) : (d.ldUpd u).rd o = d.rd o := rfl
theorem flock_repenMarkDone (d : Dev) (f : Nat) : (repenMarkDone d).flock f = d.flock f := rfl
theorem ld_repenMarkDone (d : Dev) : (repenMarkDone d).ld = d.ld := rfl

theorem repenMarkDone_bits (d : Dev) : (repenMarkDone d).bit Reg.REPEN_STATUS 0 = false ∧ (repenMarkDone d).bit Reg.REPEN_STATUS 1 = true := by
  refine ⟨?_, Dev.bit_setBit_same _ _ (by decide)⟩
  rw [repenMarkDone, Dev.bit_setBit _ _ _ _ (by decide), Dev.bit_clrBit_same _ _ (by decide)]
  rfl

theorem rd_repenMarkDone {o : Nat} (h : o ≠ Reg.REPEN_STATUS) (d : Dev) : (repenMarkDone d).rd o = d.rd o := by
  rw [repenMarkDone, Dev.rd_setBit_ne _ _ h, Dev.rd_clrBit_ne _ _ h]

theorem penVariant_range {f : Nat} (hf : f < 16) : 0x20080 ≤ Reg.PEN_VARIANT f ∧ Reg.PEN_VARIANT f < 0x200C0 := by
  unfold Reg.PEN_VARIANT
  omega

theorem not_logReg_penVariant {f : Nat} (hf : f < 16) : ¬ LogReg (Reg.PEN_VARIANT f) := by
  obtain ⟨h1, h2⟩ := penVariant_range hf
  unfold LogReg Reg.ST_FLAGS Reg.FAULT_COUNT Reg.LOG_DROPS Reg.KEEP_FLAGS Reg.WEAR_ADDR Reg.RATE_ADDR
  omega

/-- What the end of a re-pen shows. -/
theorem rejoinEnd_notes {f : Nat} (hf : f < 16) (v : Nat) (d : Dev) :
    ((rejoinEnd f v d).flock f).repen = none ∧ (rejoinEnd f v d).bit (Reg.FLOCK_STATUS f) 10 = false ∧ (rejoinEnd f v d).ld.journal = none ∧
      (rejoinEnd f v d).bit Reg.REPEN_STATUS 0 = false ∧ (rejoinEnd f v d).bit Reg.REPEN_STATUS 1 = true ∧
      (rejoinEnd f v d).rd (Reg.PEN_VARIANT f) = w32 v := by
  have hkeep := within_keepDevField (Reg.PEN_VARIANT f) (w32 v) (repenOver f d)
  have hvariant := rd_keepDevField_same (not_logReg_penVariant hf) (w32 v) (repenOver f d)
  have hover : ((repenOver f d).flock f).repen = none ∧ (repenOver f d).bit (Reg.FLOCK_STATUS f) 10 = false ∧ (repenOver f d).ld.journal = none := by
    refine ⟨?_, ?_, ?_⟩
    · rw [repenOver, flock_setRepen_same]
    · rw [repenOver, Dev.bit_congr (rd_setRepen ..), Dev.bit_congr (Dev.rd_ldUpd ..), Dev.bit_clrBit_same _ _ (by decide)]
    · rw [repenOver, ld_setRepen, Dev.ld_ldUpd]
  obtain ⟨hrepen, hbit, hjournal⟩ := hover
  have hstatus : ¬ (Reg.FLOCK_STATUS f = Reg.PEN_VARIANT f ∨ LogReg (Reg.FLOCK_STATUS f)) :=
    not_or.2 ⟨by unfold Reg.FLOCK_STATUS Reg.PEN_VARIANT; omega, not_logReg_flockStatus f⟩
  unfold rejoinEnd
  obtain ⟨e, he⟩ : ∃ e, keepDevField (Reg.PEN_VARIANT f) (w32 v) (repenOver f d) = e := ⟨_, rfl⟩
  rw [he] at hkeep hvariant ⊢
  have hmove : MoveOnly (repenMarkDone e) (moveCheck (moveFreeze (repenMarkDone e))) := (moveOnly_moveFreeze _).trans (moveOnly_moveCheck _)
  obtain ⟨hbusy, hdone⟩ := repenMarkDone_bits e
  refine ⟨?_, ?_, ?_, ?_, ?_, ?_⟩
  · rw [hmove.flock, flock_repenMarkDone, hkeep.flock_of_wearPart, hrepen]
  · rw [Dev.bit_congr (hmove.2 _ (by unfold Reg.FLOCK_STATUS Reg.REGIME_STATUS Reg.MODE; omega)),
      Dev.bit_congr (rd_repenMarkDone (repenStatus_ne_flockStatus f).symm e), Dev.bit_congr (hkeep.2 _ hstatus), hbit]
  · rw [hmove.ld, ld_repenMarkDone, hkeep.ld_of_wearPart, hjournal]
  · rw [Dev.bit_congr (hmove.2 _ (by decide)), hbusy]
  · rw [Dev.bit_congr (hmove.2 _ (by decide)), hdone]
  · obtain ⟨h1, h2⟩ := penVariant_range hf
    rw [hmove.2 _ (by unfold Reg.REGIME_STATUS Reg.MODE; omega), rd_repenMarkDone (by unfold Reg.REPEN_STATUS; omega), hvariant]

theorem regsOnly_rejoinSlots (f v h : Nat) (d : Dev) : RegsOnly (SlotReg h) d (rejoinSlots f v h d) := by
  unfold rejoinSlots
  split
  · exact regsOnly_setSlots ..
  · exact .refl _ d

theorem not_endReg_of_page {f o : Nat} (hf : f < 16) (h : 0x1000000 ≤ o) (hne : o ≠ Reg.FLOCK_STATUS f) : ¬ EndReg f o := by
  obtain ⟨h1, h2⟩ := penVariant_range hf
  rintro (h' | (h' | h') | h' | h' | h')
  · exact hne h'
  · omega
  · exact not_logReg_of_page h h'
  · unfold Reg.REPEN_STATUS at h'
    omega
  · unfold Reg.REGIME_STATUS at h'
    omega
  · unfold Reg.MODE at h'
    omega

theorem Within.clk_of_clkPart {p : Nat → Prop} {d e : Dev} (h : Within clkPart p d e) : e.clk = d.clk := (congrArg Dev.clk h.1 :)

section
variable {f : Nat} (hf : f < 16) (v h : Nat) (d : Dev)
include hf

/-- The posts keep their stamps to the end. -/
theorem postJoined_rejoinEnd {p : Nat} {g : Word} (hp : p < 8) (hd : PostJoined f p g d) : PostJoined f p g (rejoinEnd f v (rejoinSlots f v h d)) := by
  refine (postJoined_congr fun o ho => ?_).2 hd
  have hpage : 0x1000000 ≤ o ∧ o < 0x2000000 ∧ o ≠ Reg.FLOCK_STATUS f := by
    unfold PostMark Reg.CELL_GEN Reg.CELL_STATUS at ho
    unfold Reg.FLOCK_STATUS
    omega
  obtain ⟨h1, h2, h3⟩ := hpage
  rw [(within_rejoinEnd f v _).2 o (not_endReg_of_page hf h1 h3), (regsOnly_rejoinSlots f v h d).2]
  rintro ⟨n, hn, rfl⟩
  unfold Reg.SLOT_SRC at h2
  omega

/-- The slots keep their entries to the end. -/
theorem slotNow_rejoinEnd (hh : h < 8) {n : Nat} (hn : n < 32) {e : Nat × Nat × Nat × Bool}
    (he : e = (replaceSlots f (layoutSlots d.ld.recs f v) (slotsNow d h)).getD n (255, 0, 0, false)) (h1 : e.1 < 256) (h2 : e.2.1 < 8)
    (h3 : e.2.2.1 < 2) : slotNow (rejoinEnd f v (rejoinSlots f v h d)) h n = e := by
  have hpage : 0x1000000 ≤ Reg.SLOT_SRC h n ∧ Reg.SLOT_SRC h n ≠ Reg.FLOCK_STATUS f := by
    unfold Reg.SLOT_SRC Reg.FLOCK_STATUS
    omega
  refine slotNow_of_word ?_ h1 h2 h3 (v := videoIndex (replaceSlots f (layoutSlots d.ld.recs f v) (slotsNow d h)) n)
  rw [(within_rejoinEnd f v _).2 _ (not_endReg_of_page hf hpage.1 hpage.2), rejoinSlots, if_pos hh, rd_setSlots h _ hn, he]

end

theorem slotsNow_rejoinPosts (f h : Nat) (d : Dev) : slotsNow (rejoinPosts f d) h = slotsNow d h := by
  refine slotsNow_congr fun n _ => (regsOnly_rejoinPosts f d).2 _ ?_
  rintro ⟨p, hp, ho⟩
  unfold PostMark Reg.SLOT_SRC Reg.CELL_GEN Reg.CELL_STATUS at ho
  omega

theorem TimeOnly.slotsNow {d e : Dev} (h : TimeOnly d e) (k : Nat) : slotsNow e k = Machine.slotsNow d k := slotsNow_congr fun _ _ => h.rd _
theorem TimeOnly.ld {d e : Dev} (h : TimeOnly d e) : e.ld = d.ld := (congrArg Dev.ld h :)

theorem TimeOnly.mem_servedPosts {d e : Dev} (h : TimeOnly d e) {f p : Nat} : p ∈ servedPosts e f ↔ p ∈ servedPosts d f := by
  have hu : underTakeover e f p = underTakeover d f p := by rw [underTakeover, h.flock, underTakeover]
  rw [Machine.mem_servedPosts, Machine.mem_servedPosts, kindOf_congr (h.rd _), postCell_congr (h.rd _), hu]

theorem gives_repenRejoin {s : State} {f : Nat} {r : Repen} (hat : repenAt s.dev 5 = some (f, r)) (hcame : frameCame s.dev f r = true)
    (hrail : railFloor s.dev ≤ railLevel s.dev) (ht : (s.dev.flock f).takeover = none) :
    Gives .repenRejoin s (fun t => (t.dev.flock f).repen = none ∧ t.dev.bit (Reg.FLOCK_STATUS f) 10 = false ∧ t.dev.ld.journal = none ∧
      t.dev.bit Reg.REPEN_STATUS 0 = false ∧ t.dev.bit Reg.REPEN_STATUS 1 = true ∧ t.dev.rd (Reg.PEN_VARIANT f) = w32 r.variant ∧
      (∀ p < 8, kindOf s.dev f p ≠ 0 → postCell s.dev f p ≠ 15 → underTakeover s.dev f p = false →
        t.dev.rd (Reg.CELL_GEN f p) = s.dev.rd Reg.GLOBAL_GEN ∧ t.dev.bit (Reg.CELL_STATUS f p) 13 = true) ∧
      (r.align = false → headScans s.dev f = true → ∀ m, m = modeOf s.dev (flockHead s.dev f) →
        3 * m.pn ≤ (t.dev.clk + 1 - r.since) * (m.pd * m.vTot)) ∧
      (flockHead s.dev f < 8 → ∀ n < 32, ∀ e,
        e = (replaceSlots f (layoutSlots s.dev.ld.recs f r.variant) (slotsNow s.dev (flockHead s.dev f))).getD n (255, 0, 0, false) →
        e.1 < 256 → e.2.1 < 8 → e.2.2.1 < 2 → slotNow t.dev (flockHead s.dev f) n = e) ∧ SameMem s t ∧ t.pending = s.pending) := by
  obtain ⟨hf, -, -⟩ := repenAt_some hat
  have hstep := repenRejoin_of_due hat hcame hrail ht
  have htime := timeOnly_rejoinTime f r s.dev
  have hclk := fun ha hs => clk_rejoinTime (f := f) (r := r) (d := s.dev) ha hs
  obtain ⟨e, he⟩ : ∃ e, rejoinTime f r s.dev = e := ⟨_, rfl⟩
  simp only [he] at hstep htime hclk
  have hposts := regsOnly_rejoinPosts f e
  have hslots := slotsNow_rejoinPosts f (flockHead s.dev f) e
  have hjoined := fun p hp => postJoined_rejoinPosts (f := f) (p := p) (d := e) hp
  obtain ⟨x, hx⟩ : ∃ x, rejoinPosts f e = x := ⟨_, rfl⟩
  simp only [hx] at hstep hposts hslots hjoined
  have hend := (regsOnly_rejoinSlots f r.variant (flockHead s.dev f) x).clk
  have hclks := (within_rejoinEnd f r.variant (rejoinSlots f r.variant (flockHead s.dev f) x)).clk_of_clkPart
  obtain ⟨hrepen, hbit, hjournal, hbusy, hdone, hvariant⟩ := rejoinEnd_notes hf r.variant (rejoinSlots f r.variant (flockHead s.dev f) x)
  refine gives_of_upd (exec_repenRejoin s) hstep ⟨hrepen, hbit, hjournal, hbusy, hdone, hvariant, fun p hp hk hc hu => ?_, fun ha hs m hm => ?_,
    fun hh n hn y hy h1 h2 h3 => ?_, rfl, rfl⟩
  · have hmem := hjoined p (htime.mem_servedPosts.2 (mem_servedPosts.2 ⟨hp, hk, hc, hu⟩))
    rw [htime.rd] at hmem
    exact postJoined_rejoinEnd hf _ _ x hp hmem
  · rw [hclks, hend, hposts.clk, hm]
    exact hclk ha hs
  · refine slotNow_rejoinEnd hf _ _ x hh hn ?_ h1 h2 h3
    rw [hy, hslots, hposts.ld, htime.slotsNow, htime.ld]

/-! ### O50 -/

/-- Settles O50: a request is refused, waits or is accepted (`gives_repenRequest_refused`, `gives_repenRequest_waiting`,
`gives_repenRequest_checked`), and each later step has its own lemma: `gives_repenBlank`, `gives_repenStoreRewritten`, `gives_repenCellsLoaded`,
`gives_repenProbeDone`, `gives_repenRejoin`. -/
theorem repensGoStepByStep : Obligations.RepensGoStepByStep := by
  unfold Obligations.RepensGoStepByStep
  refine ⟨?checked, fun s q v => ⟨fun hq => ?denied, fun hq hv => ?noGo, fun c hq hv h => ?refused, fun f hf hq hv hfl hb hr ht => ?waiting⟩,
    fun s h => gives_same (exec_repenBlank s) (repenBlankStep_idle h), fun s h => gives_same (exec_repenStoreRewritten s) (repenRewritten_idle h),
    fun s lost h => gives_same (exec_repenCellsLoaded lost s) (repenLoaded_idle h lost),
    fun s bad ok h => gives_same (exec_repenProbeDone bad ok s) (repenProbed_idle h bad ok),
    fun s h => gives_same (exec_repenRejoin s) (repenRejoin_idle h), fun s f r hat hcame => gives_repenBlank hat hcame,
    fun s f r hat => gives_repenStoreRewritten hat, fun s f r lost hat => gives_repenCellsLoaded hat,
    fun s f r bad ok hat => gives_repenProbeDone hat, fun s f r hat hcame hrail ht => gives_repenRejoin hat hcame hrail ht⟩
  case checked => exact fun s q v f hq hv hfl hf hb hr ht => gives_repenRequest_checked hq hv hfl hf hb hr ht
  case denied => exact gives_of_upd (exec_repenRequest q v s) (repenRequest_denied hq v) rfl
  case noGo => exact gives_of_upd (exec_repenRequest q v s) (repenRequest_without_go hq hv) rfl
  case refused => exact gives_repenRequest_refused hq hv h
  case waiting => exact gives_repenRequest_waiting hf hq hv hfl hb hr ht

end Sys2Proof.Machine

/-! PROOFS. The loader's choice of a slot (O49). -/
namespace Sys2Proof.Machine

-- One proof after another: proofs that wait for the kernel at once would take more threads than the check's memory holds.
set_option Elab.async false

/-! ### The choice of a slot (R62, R64) -/

theorem Dev.bit_putBit_same (d : Dev) (o : Nat) {n : Nat} (hn : n < 32) (b : Bool) : (d.putBit o n b).bit o n = b := by
  cases b
  · exact Dev.bit_clrBit_same d o hn
  · exact Dev.bit_setBit_same d o hn

theorem Dev.fld_putBit_outside (d : Dev) (o : Nat) {n hi lo : Nat} (b : Bool) (hn : n < 32) (hhi : hi < 32) (h : n < lo ∨ hi < n) :
    (d.putBit o n b).fld o hi lo = d.fld o hi lo := by
  cases b
  · exact Dev.fld_clrBit_outside d o hn hhi h
  · exact Dev.fld_setBit_outside d o hn h

/-- The die with what a load may change of another: registers, the loader, the boot, and the wear of the keep store. -/
def loadPart (e d : Dev) : Dev := { e with regs := d.regs, ld := d.ld, pw := d.pw, keep := { e.keep with wear := d.keep.wear } }

/-- The die with what the choice of a slot may change of another: registers, the loader, and the wear of the keep store. -/
def choicePart (e d : Dev) : Dev := { e with regs := d.regs, ld := d.ld, keep := { e.keep with wear := d.keep.wear } }

/-- The registers that the choice of a slot changes. -/
def LoadReg (o : Nat) : Prop := o = Reg.IMAGE_STATUS ∨ o = Reg.SLOT_CTRL ∨ LogReg o

theorem not_logReg_slotCtrl : ¬ LogReg Reg.SLOT_CTRL := by unfold LogReg; decide
theorem not_logReg_imageStatus : ¬ LogReg Reg.IMAGE_STATUS := by unfold LogReg; decide

theorem within_setFailCount (n : Nat) (d : Dev) : Within wearPart (fun o => o = Reg.SLOT_CTRL ∨ LogReg o) d (setFailCount n d) :=
  within_keepDevField _ _ d

theorem rd_setFailCount (n : Nat) (d : Dev) : (setFailCount n d).rd Reg.SLOT_CTRL = putFld (d.rd Reg.SLOT_CTRL) 3 2 n :=
  rd_keepDevField_same not_logReg_slotCtrl _ d

theorem failCount_congr {d e : Dev} (h : e.rd Reg.SLOT_CTRL = d.rd Reg.SLOT_CTRL) : failCount e = failCount d := Dev.fld_congr h 3 2

theorem failCount_setFailCount {n : Nat} (hn : n < 4) (d : Dev) : failCount (setFailCount n d) = n := by
  rw [failCount, Dev.fld, rd_setFailCount, fld_putFld_same (by decide) _ hn]

/-- The load starts from slot k. -/
def slotStart (k : Nat) (fallback : Bool) (d : Dev) : Dev :=
  (d.ldUpd (fun l => { l with phase := 1, slot := k, recs := [] })).putBit Reg.IMAGE_STATUS 1 fallback

theorem within_slotStart (k : Nat) (fallback : Bool) (d : Dev) : Within choicePart (· = Reg.IMAGE_STATUS) d (slotStart k fallback d) :=
  (within_ldUpd _ d).trans (within_putBit (by rfl) 1 fallback _)

theorem Dev.ld_putBit (d : Dev) (o n : Nat) (b : Bool) : (d.putBit o n b).ld = d.ld := by cases b <;> rfl
theorem Dev.pw_putBit (d : Dev) (o n : Nat) (b : Bool) : (d.putBit o n b).pw = d.pw := by cases b <;> rfl
theorem Dev.pw_ldUpd (d : Dev) (u : Loader → Loader) : (d.ldUpd u).pw = d.pw := rfl

theorem ld_slotStart (k : Nat) (fallback : Bool) (d : Dev) : (slotStart k fallback d).ld = { d.ld with phase := 1, slot := k, recs := [] } := by
  rw [slotStart, Dev.ld_putBit, Dev.ld_ldUpd]

theorem pw_slotStart (k : Nat) (fallback : Bool) (d : Dev) : (slotStart k fallback d).pw = d.pw := by
  rw [slotStart, Dev.pw_putBit, Dev.pw_ldUpd]

/-- FALLBACK as the choice leaves it. -/
def bootFallback (bad : Bool) (d : Dev) : Bool := bootSlot bad d == 2 && (bad || slotSel d != 2)

/-- The count of a boot from a slot that is not golden. -/
def countBoot (bad : Bool) (d : Dev) : Dev := if bootSlot bad d = 2 then d else setFailCount (failCount d + 1) d

theorem chooseSlot_eq (bad : Bool) (d : Dev) : chooseSlot bad d = slotStart (bootSlot bad d) (bootFallback bad d) (countBoot bad d) := by
  by_cases h1 : bad = true ∨ slotSel d = 3
  · have hslot : bootSlot bad d = 2 := if_pos (by obtain h | h := h1 <;> simp [h])
    rw [chooseSlot, if_pos (by simpa using h1), countBoot, bootFallback, hslot, if_pos rfl]
    have hfb : (bad || slotSel d != 2) = true := by obtain h | h := h1 <;> simp [h]
    simp only [hfb, beq_self_eq_true, Bool.and_self]
    rfl
  · obtain ⟨hbad, h3⟩ := not_or.1 h1
    have hbad' : bad = false := by simpa using hbad
    subst hbad'
    by_cases h2 : slotSel d = 2 ∨ failCount d ≥ 2
    · have hslot : bootSlot false d = 2 := if_pos (by obtain h | h := h2 <;> simp [h])
      rw [chooseSlot, if_neg (by simpa using h3), if_pos (by simpa using h2), countBoot, bootFallback, hslot, if_pos rfl]
      simp only [beq_self_eq_true, Bool.true_and, Bool.false_or]
      rfl
    · obtain ⟨hsel, hfail⟩ := not_or.1 h2
      have hslot : bootSlot false d = slotSel d := if_neg (by simp [hsel, h3]; omega)
      rw [chooseSlot, if_neg (by simpa using h3), if_neg (by simpa using h2), countBoot, bootFallback, hslot, if_neg hsel,
        Nat.min_eq_right (by omega)]
      have hfb : (slotSel d == 2 && (false || slotSel d != 2)) = false := by simp [hsel]
      simp only [hfb]
      rfl

theorem within_countBoot (bad : Bool) (d : Dev) : Within wearPart (fun o => o = Reg.SLOT_CTRL ∨ LogReg o) d (countBoot bad d) := by
  unfold countBoot
  split
  · exact .refl d
  · exact within_setFailCount _ d

theorem failCount_countBoot (bad : Bool) (d : Dev) :
    failCount (countBoot bad d) = if bootSlot bad d = 2 then failCount d else failCount d + 1 := by
  unfold countBoot
  by_cases h : bootSlot bad d = 2
  · rw [if_pos h, if_pos h]
  · have hfail : failCount d < 2 := by
      by_contra hge
      exact h (if_pos (by simp; omega))
    rw [if_neg h, if_neg h, failCount_setFailCount (by omega)]

theorem imageStatus_ne_slotCtrl : Reg.SLOT_CTRL ≠ Reg.IMAGE_STATUS := by decide

theorem Within.pw_of_wearPart {p : Nat → Prop} {d e : Dev} (h : Within wearPart p d e) : e.pw = d.pw := (congrArg Dev.pw h.1 :)

/-- What the choice of a slot makes of the die. -/
def SlotChosen (bad : Bool) (d e : Dev) : Prop :=
  e.ld = { d.ld with phase := 1, slot := bootSlot bad d, recs := [] } ∧ e.pw = d.pw ∧ e.bit Reg.IMAGE_STATUS 1 = bootFallback bad d ∧
    failCount e = (if bootSlot bad d = 2 then failCount d else failCount d + 1) ∧ Within choicePart LoadReg d e ∧
    ∀ hi lo, hi < 32 → 1 < lo → e.fld Reg.IMAGE_STATUS hi lo = d.fld Reg.IMAGE_STATUS hi lo

theorem slotChosen_chooseSlot (bad : Bool) (d : Dev) : SlotChosen bad d (chooseSlot bad d) := by
  have hcount := within_countBoot bad d
  have hstart := within_slotStart (bootSlot bad d) (bootFallback bad d) (countBoot bad d)
  have hstatus : (countBoot bad d).rd Reg.IMAGE_STATUS = d.rd Reg.IMAGE_STATUS := hcount.2 _ (not_or.2 ⟨by decide, not_logReg_imageStatus⟩)
  rw [chooseSlot_eq]
  refine ⟨?_, ?_, ?_, ?_, ?_, fun hi lo hhi hlo => ?_⟩
  · rw [ld_slotStart, hcount.ld_of_wearPart]
  · rw [pw_slotStart, hcount.pw_of_wearPart]
  · exact Dev.bit_putBit_same _ _ (by decide) _
  · rw [failCount_congr (hstart.2 _ imageStatus_ne_slotCtrl), failCount_countBoot]
  · exact (hcount.widen fun _ h => .inr h).trans (hstart.mono fun _ => .inl)
  · rw [slotStart, Dev.fld_putBit_outside _ _ _ (by decide) hhi (.inl hlo)]
    exact Dev.fld_congr hstatus hi lo

/-! ### LOAD_START (R62, R562, R568) -/

theorem exec_loadStart (bad : Bool) (s : State) : exec (.loadStart bad) s = .next (s.upd (loadStart bad)) := rfl

theorem loadStart_idle {d : Dev} (bad : Bool) (h : d.pw.boot ≠ 5 ∨ d.ld.phase ≠ 0 ∨ d.bit Reg.IMAGE_STATUS 5 = true) : loadStart bad d = d := by
  rw [loadStart, if_pos (by simpa [or_assoc] using h)]

section
variable {d : Dev} (hboot : d.pw.boot = 5) (hphase : d.ld.phase = 0) (hhalt : d.bit Reg.IMAGE_STATUS 5 = false)
include hboot hphase hhalt

theorem loadStart_boot (bad : Bool) (hkind : d.pw.kind ≠ 3) : loadStart bad d = chooseSlot bad (d.pwUpd (fun p => { p with boot := 6 })) := by
  rw [loadStart, if_neg (by simp [hboot, hphase, hhalt]), if_neg hkind]
  rfl

theorem loadStart_deep (bad : Bool) (hkind : d.pw.kind = 3) : ∃ fb, loadStart bad d = slotStart d.pw.slot fb (d.pwUpd (fun p => { p with boot := 6 })) := by
  rw [loadStart, if_neg (by simp [hboot, hphase, hhalt]), if_pos hkind]
  exact ⟨_, rfl⟩

end

theorem Dev.ld_pwUpd (d : Dev) (u : PwrSt → PwrSt) : (d.pwUpd u).ld = d.ld := rfl
theorem Dev.pw_pwUpd (d : Dev) (u : PwrSt → PwrSt) : (d.pwUpd u).pw = u d.pw := rfl
theorem Dev.rd_pwUpd (d : Dev) (u : PwrSt → PwrSt) (o : Nat) : (d.pwUpd u).rd o = d.rd o := rfl

/-- The choice of a slot reads SLOT_CTRL alone. -/
theorem bootSlot_congr {d e : Dev} (h : e.rd Reg.SLOT_CTRL = d.rd Reg.SLOT_CTRL) (bad : Bool) :
    bootSlot bad e = bootSlot bad d ∧ bootFallback bad e = bootFallback bad d := by
  have hsel : slotSel e = slotSel d := Dev.fld_congr h 1 0
  have hslot : bootSlot bad e = bootSlot bad d := by rw [bootSlot, hsel, failCount_congr h, bootSlot]
  exact ⟨hslot, by rw [bootFallback, hslot, hsel, bootFallback]⟩

theorem gives_loadStart {s : State} {bad : Bool} (hboot : s.dev.pw.boot = 5) (hphase : s.dev.ld.phase = 0)
    (hhalt : s.dev.bit Reg.IMAGE_STATUS 5 = false) (hkind : s.dev.pw.kind ≠ 3) :
    Gives (.loadStart bad) s (fun t => t.dev.ld = { s.dev.ld with phase := 1, slot := bootSlot bad s.dev, recs := [] } ∧
      t.dev.pw = { s.dev.pw with boot := 6 } ∧ t.dev.bit Reg.IMAGE_STATUS 1 = (bootSlot bad s.dev == 2 && (bad || slotSel s.dev != 2)) ∧
      failCount t.dev = (if bootSlot bad s.dev = 2 then failCount s.dev else failCount s.dev + 1) ∧
      Leaves (fun d e => { d with regs := e.regs, ld := e.ld, pw := e.pw, keep := { d.keep with wear := e.keep.wear } })
        (fun o => o = Reg.IMAGE_STATUS ∨ o = Reg.SLOT_CTRL ∨ LogReg o) s t) := by
  have hwithin : Within loadPart LoadReg s.dev (s.dev.pwUpd (fun p => { p with boot := 6 })) := within_pwUpd _ _
  obtain ⟨hslot, hfallback⟩ := bootSlot_congr (Dev.rd_pwUpd s.dev (fun p => { p with boot := 6 }) Reg.SLOT_CTRL) bad
  obtain ⟨hld, hpw, hbit, hfail, hleaves, -⟩ := slotChosen_chooseSlot bad (s.dev.pwUpd (fun p => { p with boot := 6 }))
  rw [hslot, Dev.ld_pwUpd] at hld
  rw [hfallback] at hbit
  rw [hslot, failCount_congr (Dev.rd_pwUpd ..)] at hfail
  exact gives_of_upd (exec_loadStart bad s) (loadStart_boot hboot hphase hhalt bad hkind) ⟨hld, hpw, hbit, hfail, (hwithin.trans (hleaves.widen fun _ h => h)).leaves⟩

/-- The die with the registers, the loader and the boot of another. -/
def bootPart (e d : Dev) : Dev := { e with regs := d.regs, ld := d.ld, pw := d.pw }

theorem gives_loadStart_deep {s : State} {bad : Bool} (hboot : s.dev.pw.boot = 5) (hphase : s.dev.ld.phase = 0)
    (hhalt : s.dev.bit Reg.IMAGE_STATUS 5 = false) (hkind : s.dev.pw.kind = 3) :
    Gives (.loadStart bad) s (fun t => t.dev.ld = { s.dev.ld with phase := 1, slot := s.dev.pw.slot, recs := [] } ∧
      t.dev.pw = { s.dev.pw with boot := 6 } ∧
      Leaves (fun d e => { d with regs := e.regs, ld := e.ld, pw := e.pw }) (· = Reg.IMAGE_STATUS) s t) := by
  obtain ⟨fb, hstart⟩ := loadStart_deep hboot hphase hhalt bad hkind
  have hwithin : Within bootPart (· = Reg.IMAGE_STATUS) s.dev (slotStart s.dev.pw.slot fb (s.dev.pwUpd (fun p => { p with boot := 6 }))) :=
    ((within_pwUpd _ _).trans (within_ldUpd _ _)).trans (within_putBit (by rfl) 1 fb _)
  refine gives_of_upd (exec_loadStart bad s) hstart ⟨?_, ?_, hwithin.leaves⟩
  · rw [ld_slotStart, Dev.ld_pwUpd]
  · rw [pw_slotStart, Dev.pw_pwUpd]

end Sys2Proof.Machine

/-! PROOFS. The check of an image in its slot (O49). -/
namespace Sys2Proof.Machine

-- One proof after another: proofs that wait for the kernel at once would take more threads than the check's memory holds.
set_option Elab.async false

/-! ### What the checks of an image read of the die (R39, R59, R60) -/

section
variable {d e : Dev} (h : ∀ o, o ≠ Reg.ERR_INJECT_HI → e.rd o = d.rd o)
include h

theorem keyWords_congr (k : Nat) : keyWords e k = keyWords d k := by
  refine List.map_congr_left fun i hi => h _ ?_
  have := List.mem_range.1 hi
  unfold Reg.KEY_HASH Reg.ERR_INJECT_HI
  omega

theorem provisioned_congr (k : Nat) : provisioned e k = provisioned d k := by rw [provisioned, keyWords_congr h, provisioned]

theorem unprovisioned_congr : unprovisioned e = unprovisioned d := by simp only [unprovisioned, provisioned_congr h]

theorem keyOk_congr (k : Nat) (pub : List Byte) : keyOk e k pub = keyOk d k pub := by
  rw [keyOk, provisioned_congr h, keyWords_congr h, Dev.bit_congr (h Reg.KEY_REVOKE (by decide)), keyOk]

theorem sigCheck_congr : sigCheck e = sigCheck d := by
  funext img sig n
  rw [sigCheck, unprovisioned_congr h, keyOk_congr h, sigCheck]

theorem headerCheck_congr : headerCheck e = headerCheck d := by
  funext len b
  unfold headerCheck
  rw [h Reg.MIN_SERIAL (by decide)]

/-- The checks of an image read MIN_SERIAL, KEY_HASH and KEY_REVOKE alone. -/
theorem checkImage_congr : checkImage e = checkImage d := by
  funext len get
  rw [checkImage, headerCheck_congr h, sigCheck_congr h, checkImage]

end

/-- An image that is accepted has a header that passes. -/
theorem headerCheck_of_accepted {d : Dev} {len : Option Nat} {g : Nat → Nat → List Byte} {recs : List ImgRec} (h : checkImage d len g = (none, recs)) :
    headerCheck d len (g 0 64) = none := by
  cases hc : headerCheck d len (g 0 64) with
  | none => rfl
  | some r => simp [checkImage, hc] at h

/-! ### The copy into the staging area (R65, R566) -/

/-- The bytes of the image that the loader reads. -/
def loadBytes (s : State) : List Byte := slotBytes s s.dev.ld.slot 0 (u32At (slotBytes s s.dev.ld.slot 0 64) 8)

theorem length_slotBytes (s : State) (k o n : Nat) : (slotBytes s k o n).length = n := Store.getList_length ..

theorem loadCopy_refused {s : State} (h : (headerCheck s.dev none (slotBytes s s.dev.ld.slot 0 64)).isSome = true) : loadCopy s = s := by
  obtain ⟨r, hr⟩ := Option.isSome_iff_exists.1 h
  simp only [loadCopy, hr]

theorem loadCopy_passed {s : State} (h : headerCheck s.dev none (slotBytes s s.dev.ld.slot 0 64) = none) :
    loadCopy s = memWrite stagingArea (loadBytes s) s := by
  simp only [loadCopy, h]
  rfl

/-- What the copy of n bytes leaves. -/
def LoadCopied (n : Nat) (s t : State) : Prop :=
  Within writePart (· = Reg.ERR_INJECT_HI) s.dev t.dev ∧ t.mem.tcm = s.mem.tcm ∧ t.mem.flash = s.mem.flash ∧ t.pending = s.pending ∧
    ∀ k, k < stagingArea ∨ stagingArea + n ≤ k → t.byteAt k = s.byteAt k

theorem loadCopied_loadCopy (s : State) : LoadCopied (u32At (slotBytes s s.dev.ld.slot 0 64) 8) s (loadCopy s) := by
  cases hc : headerCheck s.dev none (slotBytes s s.dev.ld.slot 0 64) with
  | some r =>
    rw [loadCopy_refused (by rw [hc]; rfl)]
    exact ⟨.refl s.dev, rfl, rfl, rfl, fun _ _ => rfl⟩
  | none =>
    rw [loadCopy_passed hc]
    obtain ⟨htcm, hflash, hpending⟩ := memWrite_others stagingArea (loadBytes s) s
    refine ⟨within_memWrite .., htcm, hflash, hpending, fun k hk => ?_⟩
    rw [byteAt_memWrite, loadBytes, length_slotBytes, if_neg (by omega)]

/-- The bytes of the staging area after the copy. -/
theorem byteAt_loadCopy {s : State} (h : headerCheck s.dev none (slotBytes s s.dev.ld.slot 0 64) = none) {k : Nat}
    (hk : k < u32At (slotBytes s s.dev.ld.slot 0 64) 8) : (loadCopy s).byteAt (stagingArea + k) = (loadBytes s).getD k 0 := by
  rw [loadCopy_passed h, byteAt_memWrite, loadBytes, length_slotBytes, if_pos (by omega), Nat.add_sub_cancel_left]

end Sys2Proof.Machine

/-! PROOFS. The end of an image's check (O49). -/
namespace Sys2Proof.Machine

-- One proof after another: proofs that wait for the kernel at once would take more threads than the check's memory holds.
set_option Elab.async false

/-! ### LOAD_CHECK_DONE (R63, R65, R66, R562) -/

theorem exec_loadCheckDone (bad : Bool) (s : State) : exec (.loadCheckDone bad) s = .next (loadCheck bad s) := rfl

theorem loadCheck_idle {s : State} (bad : Bool) (h : s.dev.ld.phase ≠ 1) : loadCheck bad s = s := by rw [loadCheck, if_pos h]

theorem Within.ld_of_writePart {p : Nat → Prop} {d e : Dev} (h : Within writePart p d e) : e.ld = d.ld := (congrArg Dev.ld h.1 :)
theorem Within.pw_of_writePart {p : Nat → Prop} {d e : Dev} (h : Within writePart p d e) : e.pw = d.pw := (congrArg Dev.pw h.1 :)

/-- The copy leaves what the checks read. -/
theorem checkImage_loadCopy (s : State) : checkImage (loadCopy s).dev none (slotBytes (loadCopy s) (loadCopy s).dev.ld.slot) =
    checkImage s.dev none (slotBytes s s.dev.ld.slot) := by
  obtain ⟨hdev, -, hflash, -, -⟩ := loadCopied_loadCopy s
  have hbytes (k : Nat) : slotBytes (loadCopy s) k = slotBytes s k := by
    funext o n
    rw [slotBytes, hflash, slotBytes]
  rw [hdev.ld_of_writePart, hbytes, checkImage_congr fun o ho => hdev.2 o ho]

/-- An image that passes is taken, unless an exit from deep standby asks for another one. -/
def loadTaken (bad : Bool) (recs : List ImgRec) (d : Dev) : Dev :=
  if d.pw.kind = 3 && w32 (serialOf recs) ≠ d.pw.serial then chooseSlot bad (fullBoot d)
  else d.ldUpd (fun l => { l with phase := 2, recs := recs })

section
variable {s : State} (hphase : s.dev.ld.phase = 1)
include hphase

theorem loadCheck_refused (bad : Bool) {r : Nat × Nat} {recs : List ImgRec} (h : checkImage s.dev none (slotBytes s s.dev.ld.slot) = (some r, recs)) :
    loadCheck bad s = (loadCopy s).upd (loadRefused bad r) := by
  rw [loadCheck, if_neg (not_not.2 hphase)]
  dsimp only
  rw [checkImage_loadCopy, h]

theorem loadCheck_passed (bad : Bool) {recs : List ImgRec} (h : checkImage s.dev none (slotBytes s s.dev.ld.slot) = (none, recs)) :
    loadCheck bad s = (loadCopy s).upd (loadTaken bad recs) := by
  rw [loadCheck, if_neg (not_not.2 hphase)]
  dsimp only
  rw [checkImage_loadCopy, h]
  rfl

end

/-- What a command gives that copies the image and then changes the die. -/
theorem gives_of_copy {i : Instr} {s : State} {g : Dev → Dev} {e : Dev} {P : State → Prop} (h : exec i s = .next ((loadCopy s).upd g))
    (he : g (loadCopy s).dev = e) (hP : P { loadCopy s with dev := e }) : Gives i s P := by
  subst he
  exact ⟨_, h, hP⟩

/-- A change of the die after the copy of n bytes, as a command leaves the rest. -/
theorem stores_of_copy {g : Dev → Dev → Dev} {p : Nat → Prop} {n : Nat} {s t : State} {e : Dev} (h : LoadCopied n s t)
    (he : Within g p s.dev e) : Stores g p stagingArea n s { t with dev := e } := by
  obtain ⟨-, htcm, hflash, hpending, hbyte⟩ := h
  exact ⟨fun k hk => (State.byteAt_dev t e k).trans (hbyte k hk), htcm, hflash, hpending, he.1, he.2⟩

/-- The die with the registers, the loader and the check units of another. -/
def checkPart (e d : Dev) : Dev := { e with regs := d.regs, ld := d.ld, cks := d.cks }

theorem loadTaken_of_serial {bad : Bool} {recs : List ImgRec} {d : Dev} (h : d.pw.kind = 3 → w32 (serialOf recs) = d.pw.serial) :
    loadTaken bad recs d = d.ldUpd (fun l => { l with phase := 2, recs := recs }) := by
  rw [loadTaken, if_neg]
  simp only [Bool.and_eq_true, decide_eq_true_eq, not_and, not_not]
  exact h

theorem gives_loadCheck_accepted {s : State} {bad : Bool} {len : Nat} (hphase : s.dev.ld.phase = 1)
    (hlen : len = u32At (slotBytes s s.dev.ld.slot 0 64) 8) {recs : List ImgRec}
    (hcheck : checkImage s.dev none (slotBytes s s.dev.ld.slot) = (none, recs)) (hserial : s.dev.pw.kind = 3 → w32 (serialOf recs) = s.dev.pw.serial) :
    Gives (.loadCheckDone bad) s (fun t => t.dev.ld = { s.dev.ld with phase := 2, recs := recs } ∧
      (∀ k < len, t.byteAt (stagingArea + k) = (slotBytes s s.dev.ld.slot 0 len).getD k 0) ∧
      Stores (fun d e => { d with regs := e.regs, ld := e.ld, cks := e.cks }) (· = Reg.ERR_INJECT_HI) stagingArea len s t) := by
  subst hlen
  have hexec := (exec_loadCheckDone bad s).trans (congrArg Host.Outcome.next (loadCheck_passed hphase bad hcheck))
  have hcopy := loadCopied_loadCopy s
  have hdev := hcopy.1
  have hbytes := fun k hk => byteAt_loadCopy (s := s) (k := k) (headerCheck_of_accepted hcheck) hk
  rw [← hdev.pw_of_writePart] at hserial
  refine gives_of_copy hexec (loadTaken_of_serial hserial) ⟨?_, fun k hk => ?_, stores_of_copy hcopy (e := (loadCopy s).dev.ldUpd _) ?_⟩
  · rw [Dev.ld_ldUpd, hdev.ld_of_writePart]
  · rw [State.byteAt_dev, hbytes k hk, loadBytes]
  · exact Within.trans (g := checkPart) (hdev.widen fun _ h => h) (within_ldUpd _ _)

/-! ### An exit from deep standby that becomes a full boot (R562) -/

/-- What the exit's end makes of the die. -/
def DeepBooted (bad : Bool) (d e : Dev) : Prop :=
  e.pw = { d.pw with kind := 0, deep := [] } ∧ e.ld = { d.ld with slot := bootSlot bad d, recs := [] } ∧
    failCount e = (if bootSlot bad d = 2 then failCount d else failCount d + 1) ∧ e.bit Reg.IMAGE_STATUS 1 = bootFallback bad d

theorem Dev.ld_fullBoot (d : Dev) : (fullBoot d).ld = d.ld := rfl
theorem Dev.rd_fullBoot (d : Dev) (o : Nat) : (fullBoot d).rd o = d.rd o := rfl
theorem pw_fullBoot (d : Dev) : (fullBoot d).pw = { d.pw with kind := 0, deep := [] } := rfl

/-- The loader at phase 1 with a slot chosen anew. -/
theorem loader_restart {l : Loader} (h : l.phase = 1) (k : Nat) : { l with phase := 1, slot := k, recs := [] } = { l with slot := k, recs := [] } := by
  cases l
  cases h
  rfl

/-- The loader starts over in a full boot; SLOT_CTRL is as it was. -/
theorem deepBooted_of {d x : Dev} (bad : Bool) (hphase : d.ld.phase = 1) (hld : x.ld = d.ld) (hpw : x.pw = d.pw)
    (hslot : x.rd Reg.SLOT_CTRL = d.rd Reg.SLOT_CTRL) : DeepBooted bad d (chooseSlot bad (fullBoot x)) := by
  obtain ⟨hboot, hfallback⟩ := bootSlot_congr ((Dev.rd_fullBoot x _).trans hslot) bad
  obtain ⟨hld', hpw', hbit, hfail, -, -⟩ := slotChosen_chooseSlot bad (fullBoot x)
  refine ⟨?_, ?_, ?_, ?_⟩
  · rw [hpw', pw_fullBoot, hpw]
  · rw [hld', hboot, Dev.ld_fullBoot, hld, loader_restart hphase]
  · rw [hfail, hboot, failCount_congr ((Dev.rd_fullBoot x _).trans hslot)]
  · rw [hbit, hfallback]

/-- The code and the record of a refusal are noted. -/
def noteRefusal (r : Nat × Nat) (d : Dev) : Dev := (d.setFld Reg.IMAGE_STATUS 15 8 r.1).setFld Reg.IMAGE_STATUS 31 16 r.2

theorem loadRefused_deep {bad : Bool} {r : Nat × Nat} {d : Dev} (h : d.pw.kind = 3) : loadRefused bad r d = chooseSlot bad (fullBoot (noteRefusal r d)) := by
  unfold loadRefused
  exact if_pos h

theorem loadTaken_deep {bad : Bool} {recs : List ImgRec} {d : Dev} (h : d.pw.kind = 3) (hs : w32 (serialOf recs) ≠ d.pw.serial) :
    loadTaken bad recs d = chooseSlot bad (fullBoot d) := if_pos (by simp [h, hs])

theorem noteRefusal_keeps (r : Nat × Nat) (d : Dev) : (noteRefusal r d).ld = d.ld ∧ (noteRefusal r d).pw = d.pw ∧
    (noteRefusal r d).rd Reg.SLOT_CTRL = d.rd Reg.SLOT_CTRL := by
  refine ⟨?_, ?_, ?_⟩
  · rw [noteRefusal, Dev.setFld_ld, Dev.setFld_ld]
  · rw [noteRefusal, Dev.setFld_pw, Dev.setFld_pw]
  · rw [noteRefusal, Dev.rd_setFld_ne _ _ _ _ imageStatus_ne_slotCtrl, Dev.rd_setFld_ne _ _ _ _ imageStatus_ne_slotCtrl]

theorem gives_loadCheck_deep {s : State} {bad : Bool} (hphase : s.dev.ld.phase = 1) {r : Refused} {recs : List ImgRec}
    (hcheck : checkImage s.dev none (slotBytes s s.dev.ld.slot) = (r, recs)) (hkind : s.dev.pw.kind = 3)
    (hr : r ≠ none ∨ w32 (serialOf recs) ≠ s.dev.pw.serial) :
    Gives (.loadCheckDone bad) s (fun t => t.dev.pw = { s.dev.pw with kind := 0, deep := [] } ∧
      t.dev.ld = { s.dev.ld with slot := bootSlot bad s.dev, recs := [] } ∧
      failCount t.dev = (if bootSlot bad s.dev = 2 then failCount s.dev else failCount s.dev + 1) ∧
      t.dev.bit Reg.IMAGE_STATUS 1 = (bootSlot bad s.dev == 2 && (bad || slotSel s.dev != 2))) := by
  have hdev := (loadCopied_loadCopy s).1
  have hslot := hdev.2 Reg.SLOT_CTRL (by decide)
  have hkind' : (loadCopy s).dev.pw.kind = 3 := by rw [hdev.pw_of_writePart, hkind]
  have hexec := exec_loadCheckDone bad s
  cases r with
  | some r =>
    rw [loadCheck_refused hphase bad hcheck] at hexec
    obtain ⟨hld, hpw, hrd⟩ := noteRefusal_keeps r (loadCopy s).dev
    exact gives_of_copy hexec (loadRefused_deep hkind')
      (deepBooted_of bad hphase (hld.trans hdev.ld_of_writePart) (hpw.trans hdev.pw_of_writePart) (hrd.trans hslot))
  | none =>
    rw [loadCheck_passed hphase bad hcheck] at hexec
    have hserial := hr.resolve_left fun h => h rfl
    rw [← hdev.pw_of_writePart] at hserial
    exact gives_of_copy hexec (loadTaken_deep hkind' hserial) (deepBooted_of bad hphase hdev.ld_of_writePart hdev.pw_of_writePart hslot)

/-! ### A refusal (R63, R66) -/

/-- The die with what a refused load may change of another. -/
def refusePart (e d : Dev) : Dev := { e with regs := d.regs, ld := d.ld, cks := d.cks, keep := { e.keep with wear := d.keep.wear } }

/-- The registers that a refused load changes. -/
def RefuseReg (o : Nat) : Prop := o = Reg.IMAGE_STATUS ∨ o = Reg.SLOT_CTRL ∨ o = Reg.ERR_INJECT_HI ∨ LogReg o

/-- Golden refused leaves the device in HALT; any other slot restarts the load. -/
def refusedEnd (bad : Bool) (d : Dev) : Dev :=
  if d.ld.slot = 2 then (d.ldUpd (fun l => { l with phase := 0 })).setBit Reg.IMAGE_STATUS 5 else chooseSlot bad d

theorem loadRefused_boot {bad : Bool} {r : Nat × Nat} {d : Dev} (h : d.pw.kind ≠ 3) : loadRefused bad r d = refusedEnd bad (noteRefusal r d) := by
  unfold loadRefused
  exact if_neg h

theorem noteRefusal_fields (r : Nat × Nat) (d : Dev) : (noteRefusal r d).fld Reg.IMAGE_STATUS 15 8 = r.1 % 256 ∧
    (noteRefusal r d).fld Reg.IMAGE_STATUS 31 16 = r.2 % 65536 := by
  refine ⟨?_, ?_⟩
  · rw [noteRefusal, Dev.fld_setFld_disjoint _ _ _ (by decide) (by decide) (by decide), Dev.fld_setFld_mod _ _ _ (by decide)]
    rfl
  · rw [noteRefusal, Dev.fld_setFld_mod _ _ _ (by decide)]
    rfl

/-- What a refusal makes of the die. -/
def LoadRefused (bad : Bool) (d e : Dev) : Prop :=
  if d.ld.slot = 2 then e.ld = { d.ld with phase := 0 } ∧ e.bit Reg.IMAGE_STATUS 5 = true
  else e.ld = { d.ld with slot := bootSlot bad d, recs := [] } ∧
    failCount e = (if bootSlot bad d = 2 then failCount d else failCount d + 1)

theorem refusedEnd_fields (bad : Bool) (d : Dev) {hi lo : Nat} (hhi : hi < 32) (hlo : 5 < lo) :
    (refusedEnd bad d).fld Reg.IMAGE_STATUS hi lo = d.fld Reg.IMAGE_STATUS hi lo := by
  unfold refusedEnd
  split
  · rw [Dev.fld_setBit_outside _ _ (by decide) (.inl hlo)]
    exact Dev.fld_congr (Dev.rd_ldUpd ..) hi lo
  · exact (slotChosen_chooseSlot bad d).2.2.2.2.2 hi lo hhi (by omega)

/-- `x` is the die of `d` after the copy, with the refusal noted. -/
theorem loadRefused_refusedEnd {d x : Dev} (bad : Bool) (hphase : d.ld.phase = 1) (hld : x.ld = d.ld) (hslot : x.rd Reg.SLOT_CTRL = d.rd Reg.SLOT_CTRL) :
    LoadRefused bad d (refusedEnd bad x) := by
  obtain ⟨hboot, -⟩ := bootSlot_congr hslot bad
  obtain ⟨hld', -, -, hfail, -, -⟩ := slotChosen_chooseSlot bad x
  unfold LoadRefused refusedEnd
  rw [hld]
  split
  · refine ⟨?_, Dev.bit_setBit_same _ _ (by decide)⟩
    rw [Dev.setBit_ld, Dev.ld_ldUpd, hld]
  · refine ⟨?_, ?_⟩
    · rw [hld', hboot, hld, loader_restart hphase]
    · rw [hfail, hboot, failCount_congr hslot]

theorem within_refusedEnd (bad : Bool) (d : Dev) : Within choicePart LoadReg d (refusedEnd bad d) := by
  unfold refusedEnd
  split
  · exact (within_ldUpd _ d).trans (within_setBit (.inl rfl) 5 _)
  · exact (slotChosen_chooseSlot bad d).2.2.2.2.1

theorem within_noteRefusal (r : Nat × Nat) (d : Dev) : Within choicePart LoadReg d (noteRefusal r d) :=
  (within_setFld (.inl rfl) 15 8 r.1 d).trans (within_setFld (.inl rfl) 31 16 r.2 _)

theorem refuseReg_of_loadReg {o : Nat} (h : LoadReg o) : RefuseReg o := by
  obtain h | h | h := h
  · exact .inl h
  · exact .inr (.inl h)
  · exact .inr (.inr (.inr h))

theorem gives_loadCheck_refused {s : State} {bad : Bool} {len : Nat} (hphase : s.dev.ld.phase = 1)
    (hlen : len = u32At (slotBytes s s.dev.ld.slot 0 64) 8) {code n : Nat} {recs : List ImgRec}
    (hcheck : checkImage s.dev none (slotBytes s s.dev.ld.slot) = (some (code, n), recs)) (hkind : s.dev.pw.kind ≠ 3) :
    Gives (.loadCheckDone bad) s (fun t => ((headerCheck s.dev none (slotBytes s s.dev.ld.slot 0 64)).isSome = true → SameMem s t) ∧
      t.dev.fld Reg.IMAGE_STATUS 15 8 = code % 256 ∧ t.dev.fld Reg.IMAGE_STATUS 31 16 = n % 65536 ∧
      (if s.dev.ld.slot = 2 then t.dev.ld = { s.dev.ld with phase := 0 } ∧ t.dev.bit Reg.IMAGE_STATUS 5 = true
      else t.dev.ld = { s.dev.ld with slot := bootSlot bad s.dev, recs := [] } ∧
        failCount t.dev = (if bootSlot bad s.dev = 2 then failCount s.dev else failCount s.dev + 1)) ∧
      Stores (fun d e => { d with regs := e.regs, ld := e.ld, cks := e.cks, keep := { d.keep with wear := e.keep.wear } })
        (fun o => o = Reg.IMAGE_STATUS ∨ o = Reg.SLOT_CTRL ∨ o = Reg.ERR_INJECT_HI ∨ LogReg o) stagingArea len s t) := by
  subst hlen
  have hexec := (exec_loadCheckDone bad s).trans (congrArg Host.Outcome.next (loadCheck_refused hphase bad hcheck))
  have hcopy := loadCopied_loadCopy s
  have hdev := hcopy.1
  have hkind' : (loadCopy s).dev.pw.kind ≠ 3 := by rwa [hdev.pw_of_writePart]
  obtain ⟨hld, -, hrd⟩ := noteRefusal_keeps (code, n) (loadCopy s).dev
  obtain ⟨hcode, hrecord⟩ := noteRefusal_fields (code, n) (loadCopy s).dev
  have hend := within_refusedEnd bad (noteRefusal (code, n) (loadCopy s).dev)
  have hwithin : Within refusePart RefuseReg s.dev (refusedEnd bad (noteRefusal (code, n) (loadCopy s).dev)) :=
    (Within.trans (g := refusePart) (hdev.widen fun _ h => .inr (.inr (.inl h)))
      ((within_noteRefusal (code, n) _).widen fun _ => refuseReg_of_loadReg)).trans (hend.widen fun _ => refuseReg_of_loadReg)
  refine gives_of_copy hexec (loadRefused_boot hkind') ⟨fun hr => (congrArg State.mem (loadCopy_refused hr) :), ?_, ?_,
    loadRefused_refusedEnd bad hphase (hld.trans hdev.ld_of_writePart) (hrd.trans (hdev.2 _ (by decide))), stores_of_copy hcopy hwithin⟩
  · rw [refusedEnd_fields bad _ (by decide) (by decide), hcode]
  · rw [refusedEnd_fields bad _ (by decide) (by decide), hrecord]

end Sys2Proof.Machine

/-! PROOFS. Commands on a staged image (O49). -/
namespace Sys2Proof.Machine

-- One proof after another: proofs that wait for the kernel at once would take more threads than the check's memory holds.
set_option Elab.async false

/-! ### The checks of a staged image leave the memories (R67) -/

/-- A result whose state has the bytes of s. (A name of its own: the kernel would reduce a bare component.) -/
def SameBytesEnd {α β : Type} (s : State) (r : α × β × State) : Prop := SameBytes s r.2.2

/-- `stageCheck` is unfolded as a function: at its argument the kernel would compute the address of the image. -/
theorem sameBytesEnd_stageCheck (s : State) : SameBytesEnd s (stageCheck s) := by
  suffices h : ∀ r, r = stageCheck s → SameBytesEnd s r from h _ rfl
  intro r hr
  have hdef : stageCheck = stageCheck := rfl
  conv at hdef => rhs; delta stageCheck
  rw [hdef] at hr
  beta_reduce at hr
  lift_lets at hr
  extract_lets a len n at hr
  split at hr
  next =>
    subst hr
    exact .refl s
  next =>
    split at hr
    next =>
      split at hr <;> subst hr
      · exact sameBytes_upd _ s
      · exact .refl s
    next =>
      split at hr
      next b p u heq =>
        have hu : SameBytes s u := by
          have hread := (noted_memRead 1 a n s).1
          rw [heq] at hread
          exact hread
        split at hr <;> subst hr <;> exact hu

/-! ### The start of a command (R67) -/

/-- A command starts with the result of its checks. -/
def stageStart (cmd : Nat) (c : Nat × Nat) (b : List Byte) (s : State) : State :=
  s.upd (fun d => ((d.ldUpd (fun l => { l with stage := some { cmd := cmd, code := c.1, record := c.2, data := b } })).setBit
    Reg.STAGE_STATUS 0).okay)

theorem stageStart_notes (cmd : Nat) (c : Nat × Nat) (b : List Byte) (s : State) :
    (stageStart cmd c b s).dev.ld.stage = some { cmd := cmd, code := c.1, record := c.2, data := b } ∧
      (stageStart cmd c b s).dev.bit Reg.STAGE_STATUS 0 = true ∧ (stageStart cmd c b s).dev.resp = .ok 0 :=
  ⟨rfl, Dev.bit_setBit_same _ _ (by decide), rfl⟩

theorem stageStart_mem (cmd : Nat) (c : Nat × Nat) (b : List Byte) (s : State) :
    (stageStart cmd c b s).mem = s.mem ∧ (stageStart cmd c b s).pending = s.pending := ⟨rfl, rfl⟩

section
variable {s : State} {q : Req} (hq : s.dev.keeper q = true)
include hq

theorem stageCmd_busy (cmd : Nat) (h : s.dev.bit Reg.STAGE_STATUS 0 = true) : stageCmd q cmd s = s.upd Dev.okay := by
  rw [stageCmd, if_neg (by simp [hq]), if_pos (by simp [h])]

variable (hbusy : s.dev.bit Reg.STAGE_STATUS 0 = false) {cmd : Nat} (hcmd : 1 ≤ cmd ∧ cmd ≤ 4)
include hbusy hcmd

theorem stageCmd_protected (h4 : cmd = 4) (hwp : s.dev.bit Reg.SLOT_CTRL 4 = true) : stageCmd q cmd s = stageStart cmd (0x21, 0) [] s := by
  obtain ⟨h1, h2⟩ := hcmd
  have hyes : (decide (cmd = 4) && s.dev.bit Reg.SLOT_CTRL 4) = true := by simp [h4, hwp]
  unfold stageCmd
  generalize stageCheck s = r
  obtain ⟨c, b, u⟩ := r
  rw [if_neg (by simp [hq]), if_neg (by simp [hbusy]; omega)]
  simp only [hyes, if_true]
  rfl

variable (hwp : cmd = 4 → s.dev.bit Reg.SLOT_CTRL 4 = false)
include hwp

theorem stageCmd_checked {c : Nat × Nat} {b : List Byte} {u : State} (hr : stageCheck s = (c, b, u)) :
    stageCmd q cmd s = if c.1 ≠ 0 ∨ cmd = 1 then stageStart cmd c [] u else stageStart cmd c b (eraseSlot (progSlot cmd) u) := by
  obtain ⟨h1, h4⟩ := hcmd
  have hno : (decide (cmd = 4) && s.dev.bit Reg.SLOT_CTRL 4) = false := by
    rw [Bool.and_eq_false_iff, decide_eq_false_iff_not]
    exact (Decidable.em (cmd = 4)).symm.imp_right hwp
  unfold stageCmd
  generalize stageCheck s = r at hr
  subst hr
  rw [if_neg (by simp [hq]), if_neg (by simp [hbusy]; omega)]
  simp only [hno, Bool.false_eq_true, if_false, Bool.or_eq_true, decide_eq_true_eq]
  rfl

end

end Sys2Proof.Machine

/-! PROOFS. Commands on a staged image, and their ends (O49). -/
namespace Sys2Proof.Machine

-- One proof after another: proofs that wait for the kernel at once would take more threads than the check's memory holds.
set_option Elab.async false

/-! ### VERIFY and PROGRAM (R67) -/

theorem exec_verify (q : Req) (s : State) : exec (.verify q) s = .next (stageCmd q 1 s) := rfl
theorem exec_programA (q : Req) (s : State) : exec (.programA q) s = .next (stageCmd q 2 s) := rfl
theorem exec_programB (q : Req) (s : State) : exec (.programB q) s = .next (stageCmd q 3 s) := rfl
theorem exec_programGolden (q : Req) (s : State) : exec (.programGolden q) s = .next (stageCmd q 4 s) := rfl

/-- The instruction of each STAGE_CMD code. -/
def IsStageCmd (q : Req) (cmd : Nat) (i : Instr) : Prop :=
  1 ≤ cmd ∧ cmd ≤ 4 ∧ ∀ s, exec i s = .next (stageCmd q cmd s)

theorem isStageCmd_verify (q : Req) : IsStageCmd q 1 (.verify q) := ⟨by decide, by decide, exec_verify q⟩

theorem isStageCmd_program {q : Req} {c : Nat} {i : Instr} (h : (c, i) ∈ [(2, .programA q), (3, .programB q), (4, .programGolden q)]) :
    IsStageCmd q c i ∧ c ≠ 1 := by
  simp only [List.mem_cons, Prod.mk.injEq, List.not_mem_nil, or_false] at h
  obtain ⟨rfl, rfl⟩ | ⟨rfl, rfl⟩ | ⟨rfl, rfl⟩ := h
  · exact ⟨⟨by decide, by decide, exec_programA q⟩, by decide⟩
  · exact ⟨⟨by decide, by decide, exec_programB q⟩, by decide⟩
  · exact ⟨⟨by decide, by decide, exec_programGolden q⟩, by decide⟩

theorem isStageCmd_of_mem {q : Req} {i : Instr} (h : i ∈ [.verify q, .programA q, .programB q, .programGolden q]) : ∃ c, IsStageCmd q c i := by
  obtain rfl | h := List.mem_cons.1 h
  · exact ⟨1, isStageCmd_verify q⟩
  · simp only [List.mem_cons, List.not_mem_nil, or_false] at h
    obtain rfl | rfl | rfl := h
    · exact ⟨2, (isStageCmd_program (by simp)).1⟩
    · exact ⟨3, (isStageCmd_program (by simp)).1⟩
    · exact ⟨4, (isStageCmd_program (by simp)).1⟩

theorem Store.get_keep_out {α : Type} (d : Nat → α) (q : Nat → Bool) (m : Store α) {k : Nat} (h : q k = false) :
    Store.get d (Store.keep q m) k = d k := by
  induction m with
  | nil => rfl
  | cons e m ih =>
    obtain ⟨a, v⟩ := e
    by_cases hq : q a = true
    · have ha : a ≠ k := fun ha => by simp [ha, h] at hq
      rw [← ih]
      simp [Store.keep, Store.get, hq, ha]
    · rw [← ih]
      simp [Store.keep, hq]

/-- An erased slot reads all ones. -/
theorem flash_eraseSlot (k : Nat) (s : State) (a : Nat) : Store.get (fun _ => 0xFF) (eraseSlot k s).mem.flash a =
    if slotBase k ≤ a ∧ a < slotBase k + 0x1000000 then 0xFF else Store.get (fun _ => 0xFF) s.mem.flash a := by
  unfold eraseSlot
  dsimp only
  split
  next h => rw [Store.get_keep_out _ _ _ (by simp [h])]
  next h => rw [Store.get_keep _ _ _ (by simp; omega)]

section
variable {s : State} {q : Req} {cmd : Nat} {i : Instr} (hi : IsStageCmd q cmd i) (hq : s.dev.keeper q = true)
include hi hq

theorem gives_stageCmd_busy (hbusy : s.dev.bit Reg.STAGE_STATUS 0 = true) : Gives i s (fun t => t = s.upd Dev.okay) := by
  obtain ⟨-, -, hexec⟩ := hi
  exact ⟨_, hexec s, stageCmd_busy hq cmd hbusy⟩

variable (hbusy : s.dev.bit Reg.STAGE_STATUS 0 = false)
include hbusy

/-- PROGRAM_GOLDEN meets the write protection. -/
theorem gives_stageCmd_protected (h4 : cmd = 4) (hwp : s.dev.bit Reg.SLOT_CTRL 4 = true) :
    Gives i s (fun t => t.dev.ld.stage = some { cmd := cmd, code := 0x21, record := 0, data := [] } ∧
      t.dev.bit Reg.STAGE_STATUS 0 = true ∧ t.dev.resp = .ok 0 ∧ SameMem s t ∧ t.pending = s.pending) := by
  obtain ⟨h1, h2, hexec⟩ := hi
  obtain ⟨hstage, hbit, hresp⟩ := stageStart_notes cmd (0x21, 0) [] s
  obtain ⟨hmem, hpending⟩ := stageStart_mem cmd (0x21, 0) [] s
  exact ⟨_, (hexec s).trans (congrArg Host.Outcome.next (stageCmd_protected hq hbusy ⟨h1, h2⟩ h4 hwp)), hstage, hbit, hresp, hmem, hpending⟩

variable (hwp : cmd = 4 → s.dev.bit Reg.SLOT_CTRL 4 = false)
include hwp

/-- A command whose checks fail, and VERIFY, leave the memories. -/
theorem gives_stageCmd_ends (hend : (stageCheck s).1.1 ≠ 0 ∨ cmd = 1) :
    Gives i s (fun t => t.dev.ld.stage = some { cmd := cmd, code := (stageCheck s).1.1, record := (stageCheck s).1.2, data := [] } ∧
      t.dev.bit Reg.STAGE_STATUS 0 = true ∧ t.dev.resp = .ok 0 ∧ SameBytes s t) := by
  obtain ⟨h1, h2, hexec⟩ := hi
  have hsame := sameBytesEnd_stageCheck s
  obtain ⟨⟨c, b, u⟩, hr⟩ : ∃ r, stageCheck s = r := ⟨_, rfl⟩
  rw [hr] at hend hsame ⊢
  have hcmd := stageCmd_checked hq hbusy ⟨h1, h2⟩ hwp hr
  rw [if_pos hend] at hcmd
  obtain ⟨hstage, hbit, hresp⟩ := stageStart_notes cmd c [] u
  exact ⟨_, (hexec s).trans (congrArg Host.Outcome.next hcmd), hstage, hbit, hresp, hsame.trans (sameBytes_upd _ u)⟩

/-- A PROGRAM command whose checks pass erases its slot. -/
theorem gives_stageCmd_erases (hend : (stageCheck s).1.1 = 0) (h1' : cmd ≠ 1) :
    Gives i s (fun t => t.dev.ld.stage = some { cmd := cmd, code := 0, record := (stageCheck s).1.2, data := (stageCheck s).2.1 } ∧
      t.dev.bit Reg.STAGE_STATUS 0 = true ∧ t.dev.resp = .ok 0 ∧ t.mem.bytes = s.mem.bytes ∧ t.mem.tcm = s.mem.tcm ∧ t.pending = s.pending ∧
      ∀ a, Store.get (fun _ => 0xFF) t.mem.flash a =
        if slotBase (cmd - 2) ≤ a ∧ a < slotBase (cmd - 2) + 0x1000000 then 0xFF else Store.get (fun _ => 0xFF) s.mem.flash a) := by
  obtain ⟨h1, h2, hexec⟩ := hi
  have hsame := sameBytesEnd_stageCheck s
  obtain ⟨⟨c, b, u⟩, hr⟩ : ∃ r, stageCheck s = r := ⟨_, rfl⟩
  rw [hr] at hend hsame ⊢
  dsimp only at hend ⊢
  have hcmd := stageCmd_checked hq hbusy ⟨h1, h2⟩ hwp hr
  rw [if_neg (not_or.2 ⟨not_not.2 hend, h1'⟩)] at hcmd
  obtain ⟨hbytes, htcm, hflash, hpending⟩ := hsame
  obtain ⟨hstage, hbit, hresp⟩ := stageStart_notes cmd c b (eraseSlot (progSlot cmd) u)
  rw [hend] at hstage
  have herase := flash_eraseSlot (progSlot cmd) u
  dsimp only at hbytes htcm hflash hpending
  rw [hflash] at herase
  exact ⟨_, (hexec s).trans (congrArg Host.Outcome.next hcmd), hstage, hbit, hresp, hbytes, htcm, hpending, herase⟩

end

/-! ### STAGE_CMD_DONE (R67) -/

theorem exec_stageCmdDone (bad : Bool) (s : State) : exec (.stageCmdDone bad) s = .next (stageDone bad s) := rfl

theorem stageDone_idle {s : State} (bad : Bool) (h : s.dev.ld.stage = none) : stageDone bad s = s := by simp only [stageDone, h]

/-- STAGE_STATUS reads the result of a command. -/
def stageResult (code record : Nat) (d : Dev) : Dev :=
  ((((d.ldUpd (fun l => { l with stage := none })).clrBit Reg.STAGE_STATUS 0).setFld Reg.STAGE_STATUS 15 8 code).setFld
    Reg.STAGE_STATUS 31 16 record).setBit Reg.STAGE_STATUS (if code = 0 then 1 else 2)

/-- The flash with another content. -/
def withFlash (s : State) (fl : Store Byte) : State := { s with mem := { s.mem with flash := fl } }

theorem stageDone_programs {s : State} {c : StageCmd} (bad : Bool) (h : s.dev.ld.stage = some c) (hp : c.cmd ≠ 1 ∧ c.code = 0) :
    stageDone bad s = (withFlash s (Store.setList (fun _ => 0xFF) s.mem.flash (slotBase (progSlot c.cmd)) c.data)).upd
      (stageResult (if bad then 0x20 else c.code) c.record) := by
  obtain ⟨h1, h2⟩ := hp
  have hw : (decide (c.cmd ≠ 1) && decide (c.code = 0)) = true := by simp [h1, h2]
  simp only [stageDone, h, hw, if_true, Bool.true_and]
  rfl

theorem stageDone_ends {s : State} {c : StageCmd} (bad : Bool) (h : s.dev.ld.stage = some c) (hp : ¬ (c.cmd ≠ 1 ∧ c.code = 0)) :
    stageDone bad s = s.upd (stageResult c.code c.record) := by
  have hw : (decide (c.cmd ≠ 1) && decide (c.code = 0)) = false := by
    rw [Bool.and_eq_false_iff, decide_eq_false_iff_not, decide_eq_false_iff_not]
    exact not_and_or.1 hp
  simp only [stageDone, h, hw, Bool.false_and, Bool.false_eq_true, if_false]
  rfl

/-- What the result of a command shows. -/
theorem stageResult_notes (code record : Nat) (d : Dev) :
    (stageResult code record d).ld = { d.ld with stage := none } ∧ (stageResult code record d).bit Reg.STAGE_STATUS 0 = false ∧
      (stageResult code record d).fld Reg.STAGE_STATUS 15 8 = code % 256 ∧ (stageResult code record d).fld Reg.STAGE_STATUS 31 16 = record % 65536 ∧
      (stageResult code record d).bit Reg.STAGE_STATUS (if code = 0 then 1 else 2) = true ∧
      ∀ o, o ≠ Reg.STAGE_STATUS → (stageResult code record d).rd o = d.rd o := by
  obtain ⟨n, hn⟩ : ∃ n, (if code = 0 then 1 else 2) = n := ⟨_, rfl⟩
  have hn2 : 0 < n ∧ n < 3 := by
    rw [← hn]
    split <;> decide
  unfold stageResult
  rw [hn]
  refine ⟨?_, ?_, ?_, ?_, Dev.bit_setBit_same _ _ (by omega), fun o ho => ?_⟩
  · rw [Dev.setBit_ld, Dev.setFld_ld, Dev.setFld_ld, Dev.clrBit_ld, Dev.ld_ldUpd]
  · rw [Dev.bit_setBit _ _ _ _ (by omega), Dev.bit_setFld_outside _ _ _ (by decide) (by decide) (by decide),
      Dev.bit_setFld_outside _ _ _ (by decide) (by decide) (by decide), Dev.bit_clrBit_same _ _ (by decide)]
    simp
    omega
  · rw [Dev.fld_setBit_outside _ _ (by omega) (by omega), Dev.fld_setFld_disjoint _ _ _ (by decide) (by decide) (by decide),
      Dev.fld_setFld_mod _ _ _ (by decide)]
    rfl
  · rw [Dev.fld_setBit_outside _ _ (by omega) (by omega), Dev.fld_setFld_mod _ _ _ (by decide)]
    rfl
  · rw [Dev.rd_setBit_ne _ _ ho, Dev.rd_setFld_ne _ _ _ _ ho, Dev.rd_setFld_ne _ _ _ _ ho, Dev.rd_clrBit_ne _ _ ho, Dev.rd_ldUpd]

theorem gives_stageCmdDone {s : State} {bad : Bool} {c : StageCmd} (h : s.dev.ld.stage = some c) :
    Gives (.stageCmdDone bad) s (fun t => t.dev.ld = { s.dev.ld with stage := none } ∧ t.dev.bit Reg.STAGE_STATUS 0 = false ∧
      (if c.cmd ≠ 1 ∧ c.code = 0 then
        (∀ k < c.data.length, Store.get (fun _ => 0xFF) t.mem.flash (slotBase (progSlot c.cmd) + k) = c.data.getD k 0) ∧
        (∀ a, a < slotBase (progSlot c.cmd) ∨ slotBase (progSlot c.cmd) + c.data.length ≤ a →
          Store.get (fun _ => 0xFF) t.mem.flash a = Store.get (fun _ => 0xFF) s.mem.flash a) ∧
        t.dev.fld Reg.STAGE_STATUS 15 8 = (if bad then 0x20 else 0) ∧ t.dev.bit Reg.STAGE_STATUS (if bad then 2 else 1) = true
      else t.mem.flash = s.mem.flash ∧ t.dev.fld Reg.STAGE_STATUS 15 8 = c.code % 256 ∧
        t.dev.bit Reg.STAGE_STATUS (if c.code = 0 then 1 else 2) = true) ∧
      t.dev.fld Reg.STAGE_STATUS 31 16 = c.record % 65536 ∧ t.mem.bytes = s.mem.bytes ∧ t.mem.tcm = s.mem.tcm ∧ t.pending = s.pending ∧
      ∀ o, o ≠ Reg.STAGE_STATUS → t.dev.rd o = s.dev.rd o) := by
  have hexec := exec_stageCmdDone bad s
  by_cases hp : c.cmd ≠ 1 ∧ c.code = 0
  · rw [stageDone_programs bad h hp, hp.2] at hexec
    obtain ⟨hld, hbusy, hcode, hrecord, hbit, hrest⟩ := stageResult_notes (if bad then 0x20 else 0) c.record s.dev
    refine ⟨_, hexec, hld, hbusy, ?_, hrecord, rfl, rfl, rfl, hrest⟩
    rw [if_pos hp]
    refine ⟨fun k hk => ?_, fun a ha => Store.get_setList_out _ _ _ ha, ?_, ?_⟩
    · rw [State.upd_mem, withFlash, Store.get_setList, dif_pos (by omega), List.getD_eq_getElem _ _ hk]
      simp only [Nat.add_sub_cancel_left]
    · exact hcode.trans (by cases bad <;> rfl)
    · cases bad <;> exact hbit
  · rw [stageDone_ends bad h hp] at hexec
    obtain ⟨hld, hbusy, hcode, hrecord, hbit, hrest⟩ := stageResult_notes c.code c.record s.dev
    refine ⟨_, hexec, hld, hbusy, ?_, hrecord, rfl, rfl, rfl, hrest⟩
    rw [if_neg hp]
    exact ⟨rfl, hcode, hbit⟩

end Sys2Proof.Machine

/-! PROOFS. The keep-backed registers of the image page (O49). -/
namespace Sys2Proof.Machine

-- One proof after another: proofs that wait for the kernel at once would take more threads than the check's memory holds.
set_option Elab.async false

/-! ### Guarded writes of the keep store (R477 to R479) -/

/-- The die with what a guarded write may change of another: registers, the answer to its requester, and the counts of the keep store. -/
def guardPart (e d : Dev) : Dev :=
  { e with
    regs := d.regs, resp := d.resp,
    keep := { e.keep with wear := d.keep.wear, rate := d.keep.rate, rateSec := d.keep.rateSec, commits := d.keep.commits } }

/-- The word that a write of the bits m of a register makes. -/
def partWord (m old v : Word) : Word := (old &&& ~~~ m) ||| (v &&& m)

theorem partWord_all (old v : Word) : partWord 0xFFFFFFFF old v = v := by
  simp [partWord, Word.and_ones]

/-- The write is counted, and its wear. -/
def keepCounted (key : Nat) (d : Dev) : Dev := rateStep key (wearStep key d)

theorem keepPart_eq (o i : Nat) (m v : Word) (d : Dev) : keepPart o i m v d =
    if d.rd o = partWord m (d.rd o) v then d
    else if rateOf d (keyOfReg o + i) ≥ 16 then rateStop (keyOfReg o + i) d
    else keepCounted (keyOfReg o + i) (d.wr o (partWord m (d.rd o) v)) := rfl

theorem within_rateStep {p : Nat → Prop} (key : Nat) (d : Dev) : Within guardPart p d (rateStep key d) := by
  unfold rateStep rateFix
  split <;> exact within_of_eq rfl rfl

theorem within_keepCounted (key : Nat) (d : Dev) : Within guardPart LogReg d (keepCounted key d) :=
  ((within_wearStep key d).widen fun _ h => h).trans (within_rateStep key _)

theorem rate_wearStep (key : Nat) (d : Dev) (k : Nat) : rateOf (wearStep key d) k = rateOf d k := by
  unfold wearStep
  dsimp only
  split <;> rfl

theorem rateOf_wr (d : Dev) (o : Nat) (v : Word) (k : Nat) : rateOf (d.wr o v) k = rateOf d k := rfl

/-- The count of one word leaves those of the others. -/
theorem rate_rateStep_ne {key k : Nat} (h : k ≠ key) (d : Dev) : rateOf (rateStep key d) k = rateOf d k := by
  unfold rateStep rateFix
  by_cases hs : d.keep.rateSec = d.second
  · rw [if_pos hs]
    have hset : rateOf (d.kp (fun x => { x with rate := Store.set (fun _ => 0) x.rate key (Store.get (fun _ => 0) x.rate key + 1) })) k =
        if d.keep.rateSec = d.second then Store.get (fun _ => 0) (Store.set (fun _ => 0) d.keep.rate key (Store.get (fun _ => 0) d.keep.rate key + 1)) k
        else 0 := rfl
    rw [hset, Store.get_set_ne _ _ _ h, rateOf]
  · rw [if_neg hs]
    have hset : rateOf ((d.kp (fun x => { x with rate := [], commits := 0, rateSec := d.second })).kp
          (fun x => { x with rate := Store.set (fun _ => 0) x.rate key (Store.get (fun _ => 0) x.rate key + 1) })) k =
        if d.second = d.second then Store.get (fun _ => 0) (Store.set (fun _ => 0) [] key (Store.get (fun _ => 0) [] key + 1)) k else 0 := rfl
    rw [hset, Store.get_set_ne _ _ _ h, rateOf, if_neg hs, if_pos rfl, Store.get_nil]

section
variable {o i : Nat} {m v : Word} {d : Dev}

/-- What a write that the rate guard lets pass leaves. -/
theorem keepPart_performed (ho : ¬ LogReg o) (h : rateOf d (keyOfReg o + i) < 16) :
    (keepPart o i m v d).rd o = partWord m (d.rd o) v ∧ Within guardPart (fun x => x = o ∨ LogReg x) d (keepPart o i m v d) ∧
      ∀ k, k ≠ keyOfReg o + i → rateOf (keepPart o i m v d) k = rateOf d k := by
  rw [keepPart_eq]
  split
  next heq => exact ⟨heq, .refl d, fun _ _ => rfl⟩
  next =>
    rw [if_neg (by omega)]
    have hcount := within_keepCounted (keyOfReg o + i) (d.wr o (partWord m (d.rd o) v))
    refine ⟨?_, Within.trans (within_wr (.inl rfl) _ d) (hcount.mono fun _ => .inr), fun k hk => ?_⟩
    · rw [hcount.2 _ ho, Dev.rd_wr_same]
    · rw [keepCounted, rate_rateStep_ne hk, rate_wearStep, rateOf_wr]

theorem keepPart_stopped (hne : d.rd o ≠ partWord m (d.rd o) v) (h : 16 ≤ rateOf d (keyOfReg o + i)) :
    keepPart o i m v d = rateStop (keyOfReg o + i) d := by
  rw [keepPart_eq, if_neg hne, if_pos h]

end

theorem rateStop_notes (key : Nat) (d : Dev) : (rateStop key d).bit Reg.KEEP_FLAGS 1 = true ∧ (rateStop key d).rd Reg.RATE_ADDR = keepAddrWord key ∧
    RegsOnly (fun o => o = Reg.KEEP_FLAGS ∨ o = Reg.RATE_ADDR) d (rateStop key d) := by
  refine ⟨?_, Dev.rd_wr_same .., (regsOnly_wr (.inl rfl) _ d).trans (regsOnly_wr (.inr rfl) _ _)⟩
  rw [rateStop, Dev.bit_wr_ne _ _ _ (by decide), Dev.bit_setBit_same _ _ (by decide)]

/-! ### BOOT_OK (R64) -/

theorem exec_bootOk (q : Req) (v : Word) (s : State) : exec (.bootOk q v) s = .next (s.upd (bootOk q v)) := rfl
theorem exec_slotCtrlWrite (q : Req) (v : Word) (s : State) : exec (.slotCtrlWrite q v) s = .next (s.upd (slotCtrlWrite q v)) := rfl
theorem exec_minSerialWrite (q : Req) (v : Word) (s : State) : exec (.minSerialWrite q v) s = .next (s.upd (minSerialWrite q v)) := rfl
theorem exec_keyRevokeWrite (q : Req) (v : Word) (s : State) : exec (.keyRevokeWrite q v) s = .next (s.upd (keyRevokeWrite q v)) := rfl
theorem exec_keyHashWrite (q : Req) (k : Fin 4) (j : Fin 12) (v : Word) (s : State) :
    exec (.keyHashWrite q k j v) s = .next (s.upd (keyHashWrite q k j v)) := rfl

/-- The count of failed boots clears, unless the device has fallen back. -/
def clearFails (d : Dev) : Dev := if d.bit Reg.IMAGE_STATUS 1 then d else setFailCount 0 d

theorem bootOk_confirms {q : Req} {v : Word} {d : Dev} (hq : d.keeper q = true) (hv : bitOf v 0 = true) :
    bootOk q v d = (clearFails (d.pwUpd (fun p => { p with wdt := none }))).okay := by
  rw [bootOk, if_neg (by simp [hq]), if_neg (by simp [hv])]
  rfl

theorem within_clearFails (d : Dev) : Within wearPart (fun o => o = Reg.SLOT_CTRL ∨ LogReg o) d (clearFails d) := by
  unfold clearFails
  split
  · exact .refl d
  · exact within_setFailCount 0 d

theorem failCount_clearFails (d : Dev) : failCount (clearFails d) = if d.bit Reg.IMAGE_STATUS 1 = true then failCount d else 0 := by
  unfold clearFails
  split
  · rfl
  · exact failCount_setFailCount (by decide) d

/-- The die with what a confirmed boot may change of another. -/
def confirmPart (e d : Dev) : Dev := { e with regs := d.regs, resp := d.resp, pw := d.pw, keep := { e.keep with wear := d.keep.wear } }

/-- A change of the die with an answer to the requester. -/
theorem Within.okay {g : Dev → Dev → Dev} {p : Nat → Prop} {d e : Dev} (h : Within g p d e)
    (hg : ∀ e d : Dev, g { e with resp := d.resp } d = g e d := by exact fun _ _ => rfl) : Within g p d e.okay :=
  ⟨(hg e.okay d).symm.trans ((hg e d).trans h.1), fun o ho => h.2 o ho⟩

theorem gives_bootOk {s : State} {q : Req} {v : Word} (hq : s.dev.keeper q = true) (hv : bitOf v 0 = true) :
    Gives (.bootOk q v) s (fun t => t.dev.pw = { s.dev.pw with wdt := none } ∧ t.dev.resp = .ok 0 ∧
      failCount t.dev = (if s.dev.bit Reg.IMAGE_STATUS 1 = true then failCount s.dev else 0) ∧
      Leaves (fun d e => { d with regs := e.regs, pw := e.pw, keep := { d.keep with wear := e.keep.wear }, resp := e.resp })
        (fun o => o = Reg.SLOT_CTRL ∨ LogReg o) s t) := by
  have hclear := within_clearFails (s.dev.pwUpd (fun p => { p with wdt := none }))
  have hfail := failCount_clearFails (s.dev.pwUpd (fun p => { p with wdt := none }))
  rw [Dev.bit_congr (Dev.rd_pwUpd ..), failCount_congr (Dev.rd_pwUpd ..)] at hfail
  have hwithin := Within.trans (g := confirmPart) (within_pwUpd (fun p => { p with wdt := none }) s.dev) (hclear.widen fun _ h => h)
  refine gives_of_upd (exec_bootOk q v s) (bootOk_confirms hq hv) ⟨?_, rfl, hfail, hwithin.okay.leaves⟩
  exact hclear.pw_of_wearPart.trans (Dev.pw_pwUpd ..)

/-! ### SLOT_CTRL (R64, R78) -/

/-- The word that a SLOT_CTRL write asks for. -/
def slotCtrlWord (old v : Word) : Word := (old &&& 0xC) ||| (v &&& 0x13)

/-- SLOT and GOLDEN_WP take their bits. -/
def slotCtrlParts (v : Word) (d : Dev) : Dev :=
  keepPart Reg.SLOT_CTRL 1 0x10 (slotCtrlWord (d.rd Reg.SLOT_CTRL) v) (keepPart Reg.SLOT_CTRL 0 3 (slotCtrlWord (d.rd Reg.SLOT_CTRL) v) d)

theorem slotCtrlWrite_eq {q : Req} {v : Word} {d : Dev} (hq : d.keeper q = true) (h3 : fld v 1 0 ≠ 3) (hwp : d.bit Reg.SLOT_CTRL 4 = true → bitOf v 4 = true) :
    slotCtrlWrite q v d = (if ((slotCtrlParts v d).rd Reg.SLOT_CTRL ^^^ slotCtrlWord (d.rd Reg.SLOT_CTRL) v) &&& 0x13 = 0
      then setFailCount 0 (slotCtrlParts v d) else slotCtrlParts v d).okay := by
  rw [slotCtrlWrite, if_neg (by simp [hq]), if_neg (by simpa [h3] using hwp)]
  rfl

/-- The word of SLOT_CTRL after both parts are written. -/
def slotCtrlWritten (old v : Word) : Word := partWord 0x10 (partWord 3 old (slotCtrlWord old v)) (slotCtrlWord old v)

theorem bitOf_partWord (m old v : Word) {b : Nat} (hb : b < 32) : bitOf (partWord m old v) b = if bitOf m b then bitOf v b else bitOf old b := by
  simp only [partWord, bitOf, BitVec.getLsbD_or, BitVec.getLsbD_and, BitVec.getLsbD_not, hb, decide_true, Bool.true_and]
  by_cases h : m.getLsbD b = true <;> simp [h]

/-- The bits of SLOT_CTRL that firmware writes. -/
theorem bitOf_slotCtrlMask : ∀ b < 32, bitOf 0x13 b = decide (b = 0 ∨ b = 1 ∨ b = 4) := by decide

theorem bitOf_slotCtrlWritten (old v : Word) {b : Nat} (hb : b = 0 ∨ b = 1 ∨ b = 4) :
    bitOf (slotCtrlWritten old v) b = bitOf (slotCtrlWord old v) b ∧ bitOf (slotCtrlWord old v) b = bitOf v b := by
  refine ⟨?_, ?_⟩
  · rw [slotCtrlWritten, bitOf_partWord _ _ _ (by omega), bitOf_partWord _ _ _ (by omega)]
    obtain rfl | rfl | rfl := hb <;> rfl
  · rw [slotCtrlWord, bitOf, BitVec.getLsbD_or, BitVec.getLsbD_and, BitVec.getLsbD_and, bitOf]
    obtain rfl | rfl | rfl := hb <;> simp

theorem slotCtrlWritten_takes (old v : Word) : (slotCtrlWritten old v ^^^ slotCtrlWord old v) &&& 0x13 = 0 := by
  refine BitVec.eq_of_getLsbD_eq fun b hb => ?_
  have hmask := bitOf_slotCtrlMask b hb
  refine Eq.trans ?_ (BitVec.getLsbD_zero (w := 32)).symm
  rw [BitVec.getLsbD_and, BitVec.getLsbD_xor]
  by_cases h : b = 0 ∨ b = 1 ∨ b = 4
  · have hbit := (bitOf_slotCtrlWritten old v h).1
    unfold bitOf at hbit
    rw [hbit, Bool.xor_self, Bool.false_and]
  · rw [decide_eq_false h] at hmask
    unfold bitOf at hmask
    rw [hmask, Bool.and_false]

theorem slotCtrlKey_ne : keyOfReg Reg.SLOT_CTRL + 1 ≠ keyOfReg Reg.SLOT_CTRL + 0 := by omega

/-- Both parts of a SLOT_CTRL write are performed. -/
theorem slotCtrlParts_performed {v : Word} {d : Dev} (h : ∀ k < 2, rateOf d (keyOfReg Reg.SLOT_CTRL + k) < 16) :
    (slotCtrlParts v d).rd Reg.SLOT_CTRL = slotCtrlWritten (d.rd Reg.SLOT_CTRL) v ∧
      Within guardPart (fun o => o = Reg.SLOT_CTRL ∨ LogReg o) d (slotCtrlParts v d) := by
  obtain ⟨hrd, hwithin, hrate⟩ := keepPart_performed (m := 3) (v := slotCtrlWord (d.rd Reg.SLOT_CTRL) v) not_logReg_slotCtrl (h 0 (by decide))
  obtain ⟨hrd', hwithin', -⟩ := keepPart_performed (o := Reg.SLOT_CTRL) (i := 1) (m := 0x10) (v := slotCtrlWord (d.rd Reg.SLOT_CTRL) v)
    not_logReg_slotCtrl ((hrate _ slotCtrlKey_ne).trans_lt (h 1 (by decide)))
  rw [hrd] at hrd'
  exact ⟨hrd', hwithin.trans hwithin'⟩

theorem gives_slotCtrlWrite {s : State} {q : Req} {v : Word} (hq : s.dev.keeper q = true) (h3 : fld v 1 0 ≠ 3)
    (hwp : s.dev.bit Reg.SLOT_CTRL 4 = true → bitOf v 4 = true) (hrate : ∀ k < 2, rateOf s.dev (keyOfReg Reg.SLOT_CTRL + k) < 16) :
    Gives (.slotCtrlWrite q v) s (fun t => slotSel t.dev = fld v 1 0 ∧ t.dev.bit Reg.SLOT_CTRL 4 = bitOf v 4 ∧ failCount t.dev = 0 ∧
      t.dev.resp = .ok 0 ∧
      Leaves (fun d e => { d with
          regs := e.regs, resp := e.resp,
          keep := { d.keep with wear := e.keep.wear, rate := e.keep.rate, rateSec := e.keep.rateSec, commits := e.keep.commits } })
        (fun o => o = Reg.SLOT_CTRL ∨ LogReg o) s t) := by
  obtain ⟨hrd, hparts⟩ := slotCtrlParts_performed (v := v) hrate
  have hwrite := slotCtrlWrite_eq hq h3 hwp
  rw [hrd, if_pos (slotCtrlWritten_takes _ v)] at hwrite
  obtain ⟨e, he⟩ : ∃ e, slotCtrlParts v s.dev = e := ⟨_, rfl⟩
  rw [he] at hrd hparts hwrite
  have hfail := within_setFailCount 0 e
  have hbit (b : Nat) (hb : b = 0 ∨ b = 1 ∨ b = 4) : bitOf ((setFailCount 0 e).rd Reg.SLOT_CTRL) b = bitOf v b := by
    obtain ⟨h1, h2⟩ := bitOf_slotCtrlWritten (s.dev.rd Reg.SLOT_CTRL) v hb
    rw [rd_setFailCount, bitOf_putFld (by decide) _ _ _ (by omega), if_neg (by omega), hrd, h1, h2]
  refine gives_of_upd (exec_slotCtrlWrite q v s) hwrite ⟨?_, hbit 4 (by decide), failCount_setFailCount (by decide) _, rfl, ?_⟩
  · exact fld_eq_of_bits fun b _ hb => hbit b (by omega)
  · exact (hparts.trans (hfail.widen fun _ h => h)).okay.leaves

/-! ### MIN_SERIAL and KEY_REVOKE (R78) -/

/-- The word that a write of MIN_SERIAL or KEY_REVOKE asks for, where the page lets it pass. -/
def KeepFieldWrite (d : Dev) (q : Req) (v : Word) (i : Instr) (o : Nat) (w : Word) : Prop :=
  i = .minSerialWrite q v ∧ o = Reg.MIN_SERIAL ∧ w = v ∧ d.rd Reg.MIN_SERIAL ≤ v ∧ v ≤ d.rd Reg.IMAGE_SERIAL ∨
    i = .keyRevokeWrite q v ∧ o = Reg.KEY_REVOKE ∧ w = d.rd Reg.KEY_REVOKE ||| (v &&& 0xF) ∧ ∃ k < 4, provisioned d k = true ∧ bitOf w k = false

/-- Such a write is one of a whole register of the keep store. -/
theorem exec_keepFieldWrite {s : State} {q : Req} {v w : Word} {i : Instr} {o : Nat} (hq : s.dev.keeper q = true)
    (h : KeepFieldWrite s.dev q v i o w) : ¬ LogReg o ∧ ∃ g, exec i s = .next (s.upd g) ∧ g s.dev = (keepPart o 0 0xFFFFFFFF w s.dev).okay := by
  obtain ⟨rfl, rfl, rfl, h1, h2⟩ | ⟨rfl, rfl, rfl, k, hk, hprov, hbit⟩ := h
  · refine ⟨by unfold LogReg; decide, _, exec_minSerialWrite q w s, ?_⟩
    rw [minSerialWrite, if_neg (by simp [hq]), if_neg (by simp [BitVec.not_lt, h1, h2])]
    rfl
  · refine ⟨by unfold LogReg; decide, _, exec_keyRevokeWrite q v s, ?_⟩
    rw [keyRevokeWrite, if_neg (by simp [hq])]
    exact if_pos (List.any_eq_true.2 ⟨k, List.mem_range.2 hk, by rw [hprov, Bool.true_and]; exact congrArg (! ·) hbit⟩)

section
variable {s : State} {q : Req} {v w : Word} {i : Instr} {o : Nat} (hq : s.dev.keeper q = true) (h : KeepFieldWrite s.dev q v i o w)
include hq h

theorem gives_keepField_performed (hrate : rateOf s.dev (keyOfReg o) < 16) : Gives i s (fun t => t.dev.rd o = w ∧ t.dev.resp = .ok 0 ∧
    Leaves (fun d e => { d with
        regs := e.regs, resp := e.resp,
        keep := { d.keep with wear := e.keep.wear, rate := e.keep.rate, rateSec := e.keep.rateSec, commits := e.keep.commits } })
      (fun x => x = o ∨ LogReg x) s t) := by
  obtain ⟨hlog, g, hexec, hg⟩ := exec_keepFieldWrite hq h
  obtain ⟨hrd, hwithin, -⟩ := keepPart_performed (i := 0) (m := 0xFFFFFFFF) (v := w) hlog hrate
  exact gives_of_upd hexec hg ⟨hrd.trans (partWord_all _ w), rfl, hwithin.okay.leaves⟩

theorem gives_keepField_stopped (hrate : 16 ≤ rateOf s.dev (keyOfReg o)) (hne : s.dev.rd o ≠ w) :
    Gives i s (fun t => t.dev.rd o = s.dev.rd o ∧ t.dev.bit Reg.KEEP_FLAGS 1 = true ∧
      t.dev.rd Reg.RATE_ADDR = keepAddrWord (keyOfReg o) ∧ t.dev.resp = .ok 0 ∧
      OnlyRegs (fun x => x = Reg.KEEP_FLAGS ∨ x = Reg.RATE_ADDR) s t) := by
  obtain ⟨hlog, g, hexec, hg⟩ := exec_keepFieldWrite hq h
  rw [keepPart_stopped (by rwa [partWord_all]) hrate] at hg
  obtain ⟨hflag, haddr, honly⟩ := rateStop_notes (keyOfReg o + 0) s.dev
  refine gives_of_upd hexec hg ⟨honly.2 o ?_, hflag, haddr, rfl, honly.onlyRegs_okay⟩
  rintro (rfl | rfl)
  · exact hlog (by simp [LogReg])
  · exact hlog (by simp [LogReg])

end

end Sys2Proof.Machine

/-! PROOFS. The hashes of the keys, and the writes of the image page that have no effect (O49). -/
namespace Sys2Proof.Machine

-- One proof after another: proofs that wait for the kernel at once would take more threads than the check's memory holds.
set_option Elab.async false

/-! ### KEY_HASH (R78) -/

/-- The die with what a write of a key's hash may change of another: registers, the held words, the answer to its requester, and wear. -/
def hashPart (e d : Dev) : Dev :=
  { e with regs := d.regs, resp := d.resp, keep := { e.keep with wear := d.keep.wear, keyHeld := d.keep.keyHeld } }

/-- A word of the hash of key k, or a register of the log. -/
def HashReg (k o : Nat) : Prop := (∃ n < 12, o = Reg.KEY_HASH k n) ∨ LogReg o

theorem not_logReg_keyHash {k n : Nat} (hk : k < 4) (hn : n < 12) : ¬ LogReg (Reg.KEY_HASH k n) := by
  unfold LogReg Reg.KEY_HASH Reg.ST_FLAGS Reg.FAULT_COUNT Reg.LOG_DROPS Reg.KEEP_FLAGS Reg.WEAR_ADDR Reg.RATE_ADDR
  omega

/-- The word i of the hash of key k is held. -/
def holdKeyWord (k i : Nat) (v : Word) (d : Dev) : Dev := d.kp (fun p => { p with keyHeld := Store.set (fun _ => 0) p.keyHeld (16 * k + i) v })

/-- One held word of the hash of key k becomes its register. -/
def commitKeyWord (k j : Nat) (d : Dev) : Dev := keepDevField (Reg.KEY_HASH k j) (Store.get (fun _ => 0) d.keep.keyHeld (16 * k + j)) d

/-- The held words of key k become its hash. -/
def commitKey (k : Nat) (d : Dev) : Dev := forN 12 d (fun j d => commitKeyWord k j d)

/-- The held words of key k are dropped. -/
def dropKey (k : Nat) (d : Dev) : Dev := d.kp (fun p => { p with keyHeld := Store.keep (fun a => a / 16 != k) p.keyHeld })

section
variable {q : Req} {k i : Nat} {v : Word} {d : Dev} (hq : d.keeper q = true) (hprov : provisioned d k = false)
include hq hprov

theorem keyHashWrite_holds (hi : i < 11) : keyHashWrite q k i v d = (holdKeyWord k i v d).okay := by
  rw [keyHashWrite, if_neg (by simp [hq]), if_neg (by rw [hprov, Bool.false_or, decide_eq_true_iff]; omega)]
  exact if_pos hi

theorem keyHashWrite_commits : keyHashWrite q k 11 v d = (dropKey k (commitKey k (holdKeyWord k 11 v d))).okay := by
  rw [keyHashWrite, if_neg (by simp [hq]), if_neg (by rw [hprov, Bool.false_or, decide_eq_true_iff]; omega)]
  exact if_neg (by omega)

end

theorem within_commitKeyWord (k j : Nat) (hj : j < 12) (d : Dev) : Within wearPart (HashReg k) d (commitKeyWord k j d) :=
  (within_keepDevField _ _ d).mono fun _ ho => ho.imp (fun h => ⟨j, hj, h⟩) id

theorem Within.keyHeld_of_wearPart {p : Nat → Prop} {d e : Dev} (h : Within wearPart p d e) : e.keep.keyHeld = d.keep.keyHeld :=
  (congrArg (fun x : Dev => x.keep.keyHeld) h.1 :)

theorem within_commitKey (k : Nat) (d : Dev) : Within wearPart (HashReg k) d (commitKey k d) :=
  .forN 12 _ (fun j hj e => within_commitKeyWord k j hj e) d

/-- Every held word of key k stands in its register. -/
theorem rd_commitKey {k n : Nat} (hk : k < 4) (hn : n < 12) (d : Dev) :
    (commitKey k d).rd (Reg.KEY_HASH k n) = Store.get (fun _ => 0) d.keep.keyHeld (16 * k + n) := by
  refine foldl_at (fun e : Dev => e.keep.keyHeld = d.keep.keyHeld) (fun e : Dev => e.rd (Reg.KEY_HASH k n) = Store.get (fun _ => 0) d.keep.keyHeld (16 * k + n))
    (fun d j => commitKeyWord k j d) List.nodup_range (List.mem_range.2 hn) d rfl ?_ ?_ ?_
  · exact fun j hj _ e he => (within_commitKeyWord k j (List.mem_range.1 hj) e).keyHeld_of_wearPart.trans he
  · intro e he
    rw [commitKeyWord, rd_keepDevField_same (not_logReg_keyHash hk hn), he]
  · intro j hj hne e he
    refine ((within_keepDevField _ _ e).2 _ ?_).trans he
    rintro (h | h)
    · exact hne (by unfold Reg.KEY_HASH at h; omega)
    · exact not_logReg_keyHash hk hn h

theorem within_holdKeyWord (k i : Nat) (v : Word) (d : Dev) : Within hashPart (HashReg k) d (holdKeyWord k i v d) := within_of_eq rfl rfl

theorem keyHeld_holdKeyWord (k i : Nat) (v : Word) (d : Dev) :
    (holdKeyWord k i v d).keep.keyHeld = Store.set (fun _ => 0) d.keep.keyHeld (16 * k + i) v := rfl

theorem within_dropKey (k : Nat) (d : Dev) : Within hashPart (HashReg k) d (dropKey k d) := within_of_eq rfl rfl

theorem rd_dropKey (k : Nat) (d : Dev) (o : Nat) : (dropKey k d).rd o = d.rd o := rfl

/-- The held words become the hash, and are held no more. -/
theorem keyHash_committed {k n : Nat} (hk : k < 4) (hn : n < 12) (v : Word) (d : Dev) :
    (dropKey k (commitKey k (holdKeyWord k 11 v d))).okay.rd (Reg.KEY_HASH k n) =
      if n = 11 then v else Store.get (fun _ => 0) d.keep.keyHeld (16 * k + n) := by
  rw [Dev.rd_okay, rd_dropKey, rd_commitKey hk hn, keyHeld_holdKeyWord]
  split
  next h => rw [h, Store.get_set_same]
  next h => rw [Store.get_set_ne _ _ _ (by omega)]

theorem within_keyHash_committed (k : Nat) (v : Word) (d : Dev) :
    Within hashPart (HashReg k) d (dropKey k (commitKey k (holdKeyWord k 11 v d))).okay :=
  (((within_holdKeyWord k 11 v d).trans ((within_commitKey k _).widen fun _ h => h)).trans (within_dropKey k _)).okay

theorem gives_keyHashWrite_holds {s : State} {q : Req} {k : Fin 4} {j : Fin 12} {v : Word} (hq : s.dev.keeper q = true)
    (hprov : provisioned s.dev k = false) (hj : j.val < 11) : Gives (.keyHashWrite q k j v) s (fun t => t.dev.resp = .ok 0 ∧
      (Store.get (fun _ => 0) t.dev.keep.keyHeld (16 * k + j) = v ∧ t.dev.regs = s.dev.regs) ∧
      Leaves (fun d e => { d with regs := e.regs, keep := { d.keep with wear := e.keep.wear, keyHeld := e.keep.keyHeld }, resp := e.resp })
        (fun o => (∃ n < 12, o = Reg.KEY_HASH k n) ∨ LogReg o) s t) :=
  gives_of_upd (exec_keyHashWrite q k j v s) (keyHashWrite_holds hq hprov hj)
    ⟨rfl, ⟨Store.get_set_same .., rfl⟩, (within_holdKeyWord k j v s.dev).okay.leaves⟩

theorem gives_keyHashWrite_commits {s : State} {q : Req} {k : Fin 4} {j : Fin 12} {v : Word} (hq : s.dev.keeper q = true)
    (hprov : provisioned s.dev k = false) (hj : j.val = 11) : Gives (.keyHashWrite q k j v) s (fun t => t.dev.resp = .ok 0 ∧
      (t.dev.rd (Reg.KEY_HASH k 11) = v ∧ ∀ n < 11, t.dev.rd (Reg.KEY_HASH k n) = Store.get (fun _ => 0) s.dev.keep.keyHeld (16 * k + n)) ∧
      Leaves (fun d e => { d with regs := e.regs, keep := { d.keep with wear := e.keep.wear, keyHeld := e.keep.keyHeld }, resp := e.resp })
        (fun o => (∃ n < 12, o = Reg.KEY_HASH k n) ∨ LogReg o) s t) := by
  have hwrite := keyHashWrite_commits (v := v) hq hprov
  have hword {n : Nat} (hn : n < 12) := keyHash_committed k.isLt hn v s.dev
  have hwithin := within_keyHash_committed k v s.dev
  have hresp : (dropKey k (commitKey k (holdKeyWord k 11 v s.dev))).okay.resp = .ok 0 := rfl
  obtain ⟨e, he⟩ : ∃ e, (dropKey k (commitKey k (holdKeyWord k 11 v s.dev))).okay = e := ⟨_, rfl⟩
  rw [he] at hwrite hwithin hresp
  simp only [he] at hword
  rw [← hj] at hwrite
  refine gives_of_upd (exec_keyHashWrite q k j v s) hwrite ⟨hresp, ⟨?_, fun n hn => ?_⟩, hwithin.leaves⟩
  · rw [hword (by decide), if_pos rfl]
  · rw [hword (by omega), if_neg (by omega)]

theorem gives_keyHashWrite {s : State} {q : Req} {k : Fin 4} {j : Fin 12} {v : Word} (hq : s.dev.keeper q = true)
    (hprov : provisioned s.dev k = false) : Gives (.keyHashWrite q k j v) s (fun t => t.dev.resp = .ok 0 ∧
      (if j.val < 11 then Store.get (fun _ => 0) t.dev.keep.keyHeld (16 * k + j) = v ∧ t.dev.regs = s.dev.regs
      else t.dev.rd (Reg.KEY_HASH k 11) = v ∧ ∀ n < 11, t.dev.rd (Reg.KEY_HASH k n) = Store.get (fun _ => 0) s.dev.keep.keyHeld (16 * k + n)) ∧
      Leaves (fun d e => { d with regs := e.regs, keep := { d.keep with wear := e.keep.wear, keyHeld := e.keep.keyHeld }, resp := e.resp })
        (fun o => (∃ n < 12, o = Reg.KEY_HASH k n) ∨ LogReg o) s t) := by
  by_cases hj : j.val < 11
  · simp only [if_pos hj]
    exact gives_keyHashWrite_holds hq hprov hj
  · simp only [if_neg hj]
    exact gives_keyHashWrite_commits hq hprov (by omega)

/-! ### Values that a rule refuses, and requesters without Keeper privilege (R78) -/

/-- The writes of the image page that a rule refuses. -/
def ImageWriteIdle (d : Dev) (q : Req) (v : Word) (i : Instr) : Prop :=
  i = .bootOk q v ∧ bitOf v 0 = false ∨
    i = .slotCtrlWrite q v ∧ (fld v 1 0 = 3 ∨ d.bit Reg.SLOT_CTRL 4 = true ∧ bitOf v 4 = false) ∨
    i = .minSerialWrite q v ∧ (v < d.rd Reg.MIN_SERIAL ∨ d.rd Reg.IMAGE_SERIAL < v) ∨
    i = .keyRevokeWrite q v ∧ (∀ k < 4, provisioned d k = true → bitOf (d.rd Reg.KEY_REVOKE ||| (v &&& 0xF)) k = true) ∨
    ∃ k j, i = .keyHashWrite q k j v ∧ provisioned d k = true

/-- An instruction that only answers. -/
theorem gives_upd {i : Instr} {s : State} {g h : Dev → Dev} (he : exec i s = .next (s.upd g)) (hg : g s.dev = h s.dev) :
    Gives i s (fun t => t = s.upd h) :=
  gives_of_upd he hg rfl

theorem keyRevokeWrite_idle {q : Req} {v : Word} {d : Dev} (hq : d.keeper q = true)
    (h : ∀ k < 4, provisioned d k = true → bitOf (d.rd Reg.KEY_REVOKE ||| (v &&& 0xF)) k = true) : keyRevokeWrite q v d = d.okay := by
  rw [keyRevokeWrite, if_neg (by simp [hq])]
  refine if_neg fun hany => ?_
  obtain ⟨k, hk, hleft⟩ := List.any_eq_true.1 hany
  obtain ⟨hprov, hbit⟩ := Bool.and_eq_true_iff.1 hleft
  exact absurd (h k (List.mem_range.1 hk) hprov) (by simpa using hbit)

theorem gives_imageWrite_idle {s : State} {q : Req} {v : Word} {i : Instr} (hq : s.dev.keeper q = true) (h : ImageWriteIdle s.dev q v i) :
    Gives i s (fun t => t = s.upd Dev.okay) := by
  obtain ⟨rfl, hv⟩ | ⟨rfl, hv⟩ | ⟨rfl, hv⟩ | ⟨rfl, hv⟩ | ⟨k, j, rfl, hprov⟩ := h
  · refine gives_upd (exec_bootOk q v s) ?_
    rw [bootOk, if_neg (by simp [hq]), if_pos (by simp [hv])]
  · refine gives_upd (exec_slotCtrlWrite q v s) ?_
    rw [slotCtrlWrite, if_neg (by simp [hq]), if_pos (by simpa using hv)]
  · refine gives_upd (exec_minSerialWrite q v s) ?_
    rw [minSerialWrite, if_neg (by simp [hq]), if_pos (by simpa using hv)]
  · exact gives_upd (exec_keyRevokeWrite q v s) (keyRevokeWrite_idle hq hv)
  · refine gives_upd (exec_keyHashWrite q k j v s) ?_
    rw [keyHashWrite, if_neg (by simp [hq]), if_pos (by simp [hprov])]

theorem stageCmd_denied {q : Req} {s : State} (hq : s.dev.keeper q = false) (cmd : Nat) : stageCmd q cmd s = s.upd Dev.deny := by
  rw [stageCmd, if_pos (by simp [hq])]

theorem IsStageCmd.denied {q : Req} {s : State} {cmd : Nat} {i : Instr} (h : IsStageCmd q cmd i) (hq : s.dev.keeper q = false) :
    Gives i s (fun t => t = s.upd Dev.deny) := by
  obtain ⟨-, -, hexec⟩ := h
  exact ⟨_, hexec s, stageCmd_denied hq cmd⟩

/-- The writes of the keep-backed registers of the image page. -/
def IsKeepWrite (q : Req) (k : Fin 4) (j : Fin 12) (v : Word) (i : Instr) : Prop :=
  i ∈ [Instr.bootOk q v, .slotCtrlWrite q v, .minSerialWrite q v, .keyRevokeWrite q v, .keyHashWrite q k j v]

theorem gives_keepWrite_denied {s : State} {q : Req} {k : Fin 4} {j : Fin 12} {v : Word} {i : Instr} (hq : s.dev.keeper q = false)
    (hi : IsKeepWrite q k j v i) : Gives i s (fun t => t = s.upd Dev.deny) := by
  have hdeny : (!s.dev.keeper q) = true := by rw [hq]; rfl
  unfold IsKeepWrite at hi
  simp only [List.mem_cons, List.not_mem_nil, or_false] at hi
  obtain rfl | rfl | rfl | rfl | rfl := hi
  · exact gives_upd (exec_bootOk q v s) (if_pos hdeny)
  · exact gives_upd (exec_slotCtrlWrite q v s) (if_pos hdeny)
  · exact gives_upd (exec_minSerialWrite q v s) (if_pos hdeny)
  · exact gives_upd (exec_keyRevokeWrite q v s) (if_pos hdeny)
  · exact gives_upd (exec_keyHashWrite q k j v s) (if_pos hdeny)

theorem gives_imageCommand_denied {s : State} {q : Req} {k : Fin 4} {j : Fin 12} {v : Word} {i : Instr} (hq : s.dev.keeper q = false)
    (hi : i ∈ [Instr.verify q, .programA q, .programB q, .programGolden q] ++
      [.bootOk q v, .slotCtrlWrite q v, .minSerialWrite q v, .keyRevokeWrite q v, .keyHashWrite q k j v]) :
    Gives i s (fun t => t = s.upd Dev.deny) := by
  obtain hcmd | hwrite := List.mem_append.1 hi
  · obtain ⟨c, hc⟩ := isStageCmd_of_mem hcmd
    exact hc.denied hq
  · exact gives_keepWrite_denied hq hwrite

end Sys2Proof.Machine

/-! PROOFS. Applying an image leaves the queue of commands as it is (O49). -/
namespace Sys2Proof.Machine

-- One proof after another: proofs that wait for the kernel at once would take more threads than the check's memory holds.
set_option Elab.async false

/-! ### The queue after the operations of memories -/

/-- A change of the state that leaves the queue of commands. -/
def KeepsQueue (f : State → State) : Prop := ∀ s, (f s).pending = s.pending

theorem Keeps.queue {f : State → State} (h : Keeps f) : KeepsQueue f := fun s => (h s).2

theorem queue_foldl {β : Type} (l : List β) (f : State → β → State) (h : ∀ b, KeepsQueue (fun s => f s b)) : KeepsQueue (fun s => l.foldl f s) :=
  fun s => List.foldlRecOn (motive := fun t : State => t.pending = s.pending) l f rfl fun t ht b _ => (h b t).trans ht

@[simp] theorem pending_upd (s : State) (f : Dev → Dev) : (s.upd f).pending = s.pending := rfl
@[simp] theorem pending_memRead (cls a n : Nat) (s : State) : (memRead cls a n s).2.2.pending = s.pending := (keeps_memRead cls a n).queue s
@[simp] theorem pending_memWrite (a : Nat) (b : List Byte) (s : State) : (memWrite a b s).pending = s.pending := (keeps_memWrite a b).queue s

/-! ### The yokes -/

theorem queue_undoTcm (y : Nat) : KeepsQueue (undoTcm y) := fun s =>
  queue_foldl (s.dev.yk y).undo (fun s e => tcmPut y e.1 (wordBytes e.2) s) (fun e => (keeps_tcmPut y e.1 (wordBytes e.2)).queue) s

theorem queue_restore (y : Nat) (keepLogs : Bool) : KeepsQueue (restore y keepLogs) := by
  intro s
  unfold restore
  rw [pending_upd]
  exact queue_undoTcm y s

theorem queue_yokeRestart (q : Req) (y : Nat) : KeepsQueue (yokeRestart q y) := by
  intro s
  unfold yokeRestart
  split
  · rfl
  · split
    · rfl
    · split <;> rfl

theorem queue_yokeResume (q : Req) (y : Nat) : KeepsQueue (yokeResume q y) := by
  intro s
  unfold yokeResume
  split
  · rfl
  · split
    · rfl
    · rw [pending_upd]
      exact queue_restore y false s

theorem queue_yokeCtrl (q : Req) (v : Word) : KeepsQueue (yokeCtrl q v) := by
  intro s
  unfold yokeCtrl
  split
  · rfl
  · split
    · rfl
    · split
      · exact queue_yokeRestart q _ s
      · exact queue_yokeResume q _ s
      · rfl

theorem queue_applyYoke (y : Nat) : KeepsQueue (applyYoke y) := by
  intro s
  unfold applyYoke
  split
  · rfl
  · split <;> rfl

/-! ### The staged image -/

theorem queue_stageCheck (s : State) : (stageCheck s).2.2.pending = s.pending := by
  obtain ⟨-, -, -, hpending⟩ := sameBytesEnd_stageCheck s
  exact hpending

theorem queue_stageCmd (q : Req) (cmd : Nat) : KeepsQueue (stageCmd q cmd) := by
  intro s
  have hcheck := queue_stageCheck s
  unfold stageCmd
  generalize stageCheck s = r at hcheck ⊢
  obtain ⟨c, b, u⟩ := r
  split
  · rfl
  · split
    · rfl
    · dsimp only
      split
      · rfl
      · split <;> exact hcheck

/-! ### The Mules -/

theorem queue_muleFinish (c : MuleCmd) (code : Nat) : KeepsQueue (muleFinish c code) := by
  intro s
  unfold muleFinish
  dsimp only
  split
  · exact pending_memWrite _ _ s
  · rfl

theorem queue_muleSubmit (a : Nat) (keeper : Bool) (s : State) : (muleSubmit a keeper s).2.pending = s.pending := by
  have hread := pending_memRead 2 a 64 s
  unfold muleSubmit
  generalize memRead 2 a 64 s = r at hread ⊢
  obtain ⟨b, p, u⟩ := r
  split
  · rfl
  · split
    · rfl
    · dsimp only
      split <;> exact hread

theorem queue_muleSubmitWrite (q : Req) (v : Word) : KeepsQueue (muleSubmitWrite q v) := by
  intro s
  unfold muleSubmitWrite
  split
  · rfl
  · have hsubmit := queue_muleSubmit (0x1000000000 + 64 * fld v 17 0) (s.dev.keeper q) s
    dsimp only
    split
    next h => rw [h] at hsubmit; exact hsubmit
    next h => rw [h] at hsubmit; exact (pending_memWrite _ _ _).trans hsubmit
    next h => rw [h] at hsubmit; exact hsubmit
    next h => rw [h] at hsubmit; exact hsubmit

theorem queue_muleAbort (q : Req) (t : Word) : KeepsQueue (muleAbort q t) := by
  intro s
  unfold muleAbort
  split
  · rfl
  · split
    · exact queue_muleFinish _ _ _
    · rfl

/-! ### The Packhorse -/

theorem queue_ownClear (n : Nat) (s : State) : (ownClear n s).2.pending = s.pending := by
  unfold ownClear
  extract_lets a
  have hread := pending_memRead 2 a 32 s
  generalize memRead 2 a 32 s = r at hread ⊢
  obtain ⟨b, p, u⟩ := r
  split
  · exact hread
  · rfl

theorem queue_phProceed (n : Nat) : KeepsQueue (phProceed n) := by
  intro s
  have hclear := queue_ownClear n s
  suffices h : ∀ t, t = phProceed n s → t.pending = s.pending from h _ rfl
  intro t ht
  have hdef : phProceed = phProceed := rfl
  conv at hdef =>
    rhs
    delta phProceed
  rw [hdef] at ht
  beta_reduce at ht
  generalize ownClear n s = r at hclear ht
  obtain ⟨c, u⟩ := r
  rw [ht]
  exact (pending_upd u _).trans hclear

theorem queue_phStart (n : Nat) (a : Option Arrival) : KeepsQueue (phStart n a) := by
  intro s
  unfold phStart
  dsimp only
  split
  · split
    · rfl
    · exact queue_phProceed n _
  · rfl

theorem queue_phStep (n : Nat) (a : Option Arrival) : KeepsQueue (phStep n a) := by
  intro s
  have hclear := queue_ownClear n s
  unfold phStep
  generalize ownClear n s = r at hclear ⊢
  obtain ⟨c, u⟩ := r
  dsimp only
  split
  · split <;> exact hclear
  · rfl

theorem queue_phCmd (q : Req) (n : Nat) (v : Word) : KeepsQueue (phCmd q n v) := by
  intro s
  unfold phCmd
  split
  · rfl
  · dsimp only
    split
    · split
      · exact queue_phStart n none s
      · exact queue_phStep n none s
      · rfl
      · rfl
      · rfl
      · rfl
    · rfl

/-! ### Writes of register space (R6, R56) -/

theorem queue_stewardWrite (q : Req) (o : Nat) (v : Word) : KeepsQueue (stewardWrite q o v) := by
  intro s
  unfold stewardWrite
  split
  · rfl
  · split
    · rfl
    · exact queue_yokeCtrl q v s
    · split <;> rfl
    · rfl
    · rfl

theorem queue_imageWrite (q : Req) (o : Nat) (v : Word) : KeepsQueue (imageWrite q o v) := by
  intro s
  unfold imageWrite
  split
  · rfl
  · split
    · rfl
    · split
      · rfl
      · rfl
      · rfl
      · rfl
      · split
        · exact queue_stageCmd q _ s
        · rfl
      · rfl
      · rfl

theorem queue_mulePageWrite (q : Req) (o : Nat) (v : Word) : KeepsQueue (mulePageWrite q o v) := by
  intro s
  unfold mulePageWrite
  split
  · exact queue_muleSubmitWrite q v s
  · exact queue_muleAbort q v s
  · rfl

theorem queue_phPageWrite (q : Req) (o : Nat) (v : Word) : KeepsQueue (phPageWrite q o v) := by
  intro s
  unfold phPageWrite
  dsimp only
  split
  · split
    · exact queue_phCmd q _ v s
    · rfl
  · rfl

theorem queue_pageWrite (q : Req) (p : Page) (off o : Nat) (v : Word) : KeepsQueue (pageWrite q p off o v) := by
  intro s
  unfold pageWrite
  split
  · split
    case h_8 => rfl
    case h_9 => rfl
    all_goals (split <;> rfl)
  · cases p with
    | grenhiund => exact queue_stewardWrite q o v s
    | image => exact queue_imageWrite q o v s
    | mule => exact queue_mulePageWrite q o v s
    | packhorse => exact queue_phPageWrite q o v s
    | _ => rfl

theorem queue_regWrite (q : Req) (off width : Nat) (v : Word) : KeepsQueue (regWrite q off width v) := by
  intro s
  unfold regWrite
  split
  · rfl
  · split
    · exact queue_pageWrite q _ off _ v s
    · rfl

/-! ### The image (R65) -/

theorem queue_applyRegset : KeepsQueue applyRegset := fun s =>
  queue_foldl (regsetOf s.dev) (fun s e => regWrite .loader e.1 4 e.2 s) (fun e => queue_regWrite .loader e.1 4 e.2) s

theorem queue_applyYokes (s : State) : (forN 8 s applyYoke).pending = s.pending :=
  queue_foldl (List.range 8) (fun s y => applyYoke y s) queue_applyYoke s

theorem queue_applyImage : KeepsQueue applyImage := by
  intro s
  unfold applyImage
  rw [pending_upd, queue_applyRegset, queue_applyYokes, pending_upd]

theorem queue_applyOnce : KeepsQueue applyOnce := by
  intro s
  unfold applyOnce
  split
  · exact (pending_upd _ _).trans (queue_applyImage s)
  · rfl

end Sys2Proof.Machine

/-! PROOFS. LOAD_DONE: the image in force, and LOADED (O49). -/
namespace Sys2Proof.Machine

-- One proof after another: proofs that wait for the kernel at once would take more threads than the check's memory holds.
set_option Elab.async false

/-! ### The image is applied once (R65, R77) -/

/-- The loader that has the image in force: the journal is done, and the serial number of the image is known. -/
def LoadApplied (l : Loader) : Prop := l.journal = none ∧ l.serial = w32 (serialOf l.recs)

theorem loadApplied_applyVariants (d : Dev) : LoadApplied (applyVariants d).ld := by
  have hvariants : ∃ e : Dev, applyVariants d = e.ldUpd (fun l => { l with journal := none, serial := w32 (serialOf e.ld.recs) }) := ⟨_, rfl⟩
  obtain ⟨e, he⟩ := hvariants
  rw [he, Dev.ld_ldUpd]
  exact ⟨rfl, rfl⟩

theorem loadApplied_applyImage (s : State) : LoadApplied (applyImage s).dev.ld := by
  rw [applyImage, State.upd_dev]
  exact loadApplied_applyVariants _

theorem applyOnce_accepted {s : State} (h : s.dev.ld.phase = 2) :
    (applyOnce s).dev.ld.phase = 4 ∧ LoadApplied (applyOnce s).dev.ld := by
  have hdev : (applyOnce s).dev = (applyImage s).dev.ldUpd (fun l => { l with phase := 4 }) := by
    rw [applyOnce, if_pos h, State.upd_dev]
  have happlied := loadApplied_applyImage s
  rw [hdev, Dev.ld_ldUpd]
  generalize (applyImage s).dev.ld = l at happlied ⊢
  exact ⟨rfl, happlied⟩

theorem applyOnce_applied {s : State} (h : s.dev.ld.phase = 4) : applyOnce s = s := if_neg (by omega)

theorem phase_applyOnce {s : State} (h : s.dev.ld.phase = 2 ∨ s.dev.ld.phase = 4) : (applyOnce s).dev.ld.phase = 4 := by
  obtain h | h := h
  · exact (applyOnce_accepted h).1
  · rw [applyOnce_applied h, h]

/-! ### LOADED (R65 step 7) -/

/-- The die with what the start of the units may change of another: all but the loader, the power states and the clock. -/
def startPart (e d : Dev) : Dev := { d with ld := e.ld, pw := e.pw, clk := e.clk }

/-- The registers that the start of the units may change: none that tells of the image, nor the generation. -/
def StartReg (o : Nat) : Prop := o ≠ Reg.IMAGE_STATUS ∧ o ≠ Reg.IMAGE_SERIAL ∧ o ≠ Reg.GLOBAL_GEN

theorem startReg_of_page {o : Nat} (h : 0x30000 ≤ o) : StartReg o := by
  unfold StartReg Reg.IMAGE_STATUS Reg.IMAGE_SERIAL Reg.GLOBAL_GEN
  omega

theorem Within.ld_of_startPart {p : Nat → Prop} {d e : Dev} (h : Within startPart p d e) : e.ld = d.ld := (congrArg (fun x : Dev => x.ld) h.1 :)
theorem Within.pw_of_startPart {p : Nat → Prop} {d e : Dev} (h : Within startPart p d e) : e.pw = d.pw := (congrArg (fun x : Dev => x.pw) h.1 :)
theorem Within.clk_of_startPart {p : Nat → Prop} {d e : Dev} (h : Within startPart p d e) : e.clk = d.clk := (congrArg (fun x : Dev => x.clk) h.1 :)

/-- A register of a unit is written. -/
theorem within_start_wr {o : Nat} (h : 0x30000 ≤ o) (v : Word) (d : Dev) : Within startPart StartReg d (d.wr o v) := within_wr (startReg_of_page h) v d

/-- The generation of one yoke that the image enables. -/
def stampYoke (y : Nat) (d : Dev) : Dev := if yokeOn d y then d.wr (Reg.Y_GEN y) 1 else d

/-- The generations of one head. -/
def stampHead (h : Nat) (d : Dev) : Dev := ((d.wr (Reg.HEAD_GEN h) 1).wr (Reg.LS_GEN h) 1).wr (Reg.COMP_GEN h) 1

/-- The generation of one post that has a cell. -/
def stampCell (f p : Nat) (d : Dev) : Dev := if postCell d f p = 15 then d else (d.wr (Reg.CELL_GEN f p) 1).setBit (Reg.CELL_STATUS f p) 13

/-- The generations of the units. -/
def stampUnits (d : Dev) : Dev :=
  forN 16 (forN 8 (forN 8 (forN 32 (((d.wr Reg.AU_GEN 1).wr Reg.MULE_GEN 1).wr Reg.DRV_GEN 1) (fun n d => d.wr (Reg.PCH_GEN n) 1)) stampYoke) stampHead)
    (fun f d => forN 8 d (stampCell f))

theorem stampAll_eq (d : Dev) : stampAll d = stampUnits (d.wr Reg.GLOBAL_GEN 1) := rfl

theorem within_stampYoke (y : Nat) (d : Dev) : Within startPart StartReg d (stampYoke y d) :=
  .ite (fun _ => within_start_wr (by unfold Reg.Y_GEN; omega) 1 d) fun _ => .refl d

theorem within_stampHead (h : Nat) (d : Dev) : Within startPart StartReg d (stampHead h d) :=
  ((within_start_wr (by unfold Reg.HEAD_GEN; omega) 1 d).trans (within_start_wr (by unfold Reg.LS_GEN; omega) 1 _)).trans
    (within_start_wr (by unfold Reg.COMP_GEN; omega) 1 _)

theorem within_stampCell (f p : Nat) (d : Dev) : Within startPart StartReg d (stampCell f p d) :=
  .ite (fun _ => .refl d) fun _ => (within_start_wr (by unfold Reg.CELL_GEN; omega) 1 d).trans
    (within_start_wr (by unfold Reg.CELL_STATUS; omega) _ _)

theorem within_stampUnits (d : Dev) : Within startPart StartReg d (stampUnits d) := by
  have hblocks : Within startPart StartReg d (((d.wr Reg.AU_GEN 1).wr Reg.MULE_GEN 1).wr Reg.DRV_GEN 1) :=
    ((within_start_wr (by decide) 1 d).trans (within_start_wr (by decide) 1 _)).trans (within_start_wr (by decide) 1 _)
  have hchannels := Within.forN 32 (fun n (e : Dev) => e.wr (Reg.PCH_GEN n) 1) (fun n _ e => within_start_wr (by unfold Reg.PCH_GEN; omega) 1 e)
    (g := startPart) (p := StartReg)
  exact (((hblocks.trans (hchannels _)).trans (.forN 8 stampYoke (fun y _ => within_stampYoke y) _)).trans
    (.forN 8 stampHead (fun h _ => within_stampHead h) _)).trans
    (.forN 16 _ (fun f _ e => .forN 8 (stampCell f) (fun p _ => within_stampCell f p) e) _)

/-- What the IMAGE page and the boot show of the image. -/
def showImage (d : Dev) : Dev :=
  let d := ((d.setBit Reg.IMAGE_STATUS 0).setFld Reg.IMAGE_STATUS 3 2 d.ld.slot).putBit Reg.IMAGE_STATUS 4 (unprovisioned d)
  let d := d.wr Reg.IMAGE_SERIAL (w32 (serialOf d.ld.recs))
  (d.ldUpd (fun l => { l with phase := 3 })).pwUpd (fun p => { p with boot := 7 })

/-- The units start. -/
def startUnits (d : Dev) : Dev := offerAnew (syncSpares (startHeads (patrolStart (if ringless d then setJoined d else d))))

theorem setLoaded_eq (d : Dev) : setLoaded d = startUnits (showImage (stampAll d)) := rfl

theorem within_setJoined (d : Dev) : Within startPart StartReg d (setJoined d) := by
  have hreg : StartReg Reg.HERD_STATUS := startReg_of_page (by decide)
  refine .ite (fun _ => .refl d) fun _ => Within.trans (within_setBit hreg 0 d) ?_
  exact .forN 8 endJoinWait (fun h _ e => .ite (fun _ => within_updHead h _ e) fun _ => .refl e) _

theorem within_patrolStart (d : Dev) : Within startPart StartReg d (patrolStart d) := within_of_eq rfl rfl

theorem within_beginCold (h : Nat) (d : Dev) : Within startPart StartReg d (beginCold h d) :=
  Within.trans (within_start_wr (by unfold Reg.HEAD_STATUS; omega) _ d) (within_updHead h _ _)

theorem within_startHeads (d : Dev) : Within startPart StartReg d (startHeads d) := by
  refine .forN 8 _ (fun h _ e => ?_) d
  split
  · exact .ite (fun _ => within_beginCold h e) fun _ => .refl e
  · exact .refl e

theorem within_syncSpares (d : Dev) : Within startPart StartReg d (syncSpares d) :=
  within_wr (by unfold StartReg; decide) _ d

theorem within_setSrc (n : Nat) (x : Src) (d : Dev) : Within startPart StartReg d (d.setSrc n x) := within_of_eq rfl rfl

theorem within_offer (n : Nat) (d : Dev) : Within startPart StartReg d (offer n d) := by
  unfold offer
  split
  · exact .refl d
  · split
    · split <;> exact within_setSrc n _ d
    · exact within_setSrc n _ d

theorem within_offerAnew (d : Dev) : Within startPart StartReg d (offerAnew d) := by
  refine .foldl _ _ (fun n _ e => ?_) d
  split
  · exact .ite (fun _ => .refl e) fun _ => within_offer n e
  · exact within_offer n e
  · exact .refl e

theorem within_startUnits (d : Dev) : Within startPart StartReg d (startUnits d) :=
  (((Within.ite (fun _ => within_setJoined d) fun _ => .refl d).trans (within_patrolStart _)).trans (within_startHeads _)).trans
    ((within_syncSpares _).trans (within_offerAnew _))

/-- What LOADED shows of an image. -/
structure ImageShown (d e : Dev) : Prop where
  loaded : e.bit Reg.IMAGE_STATUS 0 = true
  slot : e.fld Reg.IMAGE_STATUS 3 2 = d.ld.slot % 4
  serial : e.rd Reg.IMAGE_SERIAL = w32 (serialOf d.ld.recs)
  gen : e.rd Reg.GLOBAL_GEN = d.rd Reg.GLOBAL_GEN
  ld : e.ld = { d.ld with phase := 3 }
  pw : e.pw = { d.pw with boot := 7 }
  clk : e.clk = d.clk

theorem Dev.bit_putBit_outside (d : Dev) (o : Nat) {n m : Nat} (b : Bool) (hn : n < 32) (hm : m < 32) (h : m ≠ n) :
    (d.putBit o n b).bit o m = d.bit o m := by
  cases b
  · exact (Dev.bit_clrBit d o n m hn hm).trans (by rw [decide_eq_false h, Bool.not_false, Bool.and_true])
  · exact (Dev.bit_setBit d o n m hn).trans (by rw [decide_eq_false h, Bool.or_false])

theorem rd_imageSerial_ne {o : Nat} (h : o ≠ Reg.IMAGE_SERIAL) (d : Dev) (v : Word) (f : Loader → Loader) (g : PwrSt → PwrSt) :
    (((d.wr Reg.IMAGE_SERIAL v).ldUpd f).pwUpd g).rd o = d.rd o := by rw [Dev.rd_pwUpd, Dev.rd_ldUpd, Dev.rd_wr_ne _ _ h]

/-- The serial number joins what IMAGE_STATUS shows. -/
theorem imageShown_serial {d e : Dev} (hbit : e.bit Reg.IMAGE_STATUS 0 = true) (hslot : e.fld Reg.IMAGE_STATUS 3 2 = d.ld.slot % 4)
    (hgen : e.rd Reg.GLOBAL_GEN = d.rd Reg.GLOBAL_GEN) (hld : e.ld = d.ld) (hpw : e.pw = d.pw) (hclk : e.clk = d.clk) :
    ImageShown d (((e.wr Reg.IMAGE_SERIAL (w32 (serialOf e.ld.recs))).ldUpd (fun l => { l with phase := 3 })).pwUpd (fun p => { p with boot := 7 })) where
  loaded := by rwa [Dev.bit_congr (rd_imageSerial_ne (by decide) ..)]
  slot := by rwa [Dev.fld_congr (rd_imageSerial_ne (by decide) ..)]
  serial := by rw [Dev.rd_pwUpd, Dev.rd_ldUpd, Dev.rd_wr_same, hld]
  gen := by rwa [rd_imageSerial_ne (by decide)]
  ld := by rw [Dev.ld_pwUpd, Dev.ld_ldUpd, Dev.wr_ld, hld]
  pw := by rw [Dev.pw_pwUpd, Dev.pw_ldUpd, Dev.wr_pw, hpw]
  clk := by rw [Dev.pwUpd_clk, Dev.ldUpd_clk, Dev.wr_clk, hclk]

theorem imageShown_showImage (d : Dev) : ImageShown d (showImage d) := by
  refine imageShown_serial ?_ ?_ ?_ (Dev.ld_putBit ..) (Dev.pw_putBit ..) (Dev.putBit_clk ..)
  · rw [Dev.bit_putBit_outside _ _ _ (by decide) (by decide) (by decide), Dev.bit_setFld_outside _ _ _ (by decide) (by decide) (by decide),
      Dev.bit_setBit_same _ _ (by decide)]
  · exact (Dev.fld_putBit_outside _ _ _ (by decide) (by decide) (by decide)).trans (Dev.fld_setFld_mod _ _ _ (by decide))
  · have hgen : Reg.GLOBAL_GEN ≠ Reg.IMAGE_STATUS := by decide
    rw [Dev.rd_putBit_ne _ _ _ hgen, Dev.rd_setFld_ne _ _ _ _ hgen, Dev.rd_setBit_ne _ _ hgen]

/-- The start of the units leaves what LOADED shows. -/
theorem ImageShown.within {d e x : Dev} (h : ImageShown d e) (hx : Within startPart StartReg e x) : ImageShown d x := by
  have hrd {o : Nat} (ho : ¬ StartReg o) : x.rd o = e.rd o := hx.2 o ho
  have hstatus : x.rd Reg.IMAGE_STATUS = e.rd Reg.IMAGE_STATUS := hrd (by simp [StartReg])
  exact {
    loaded := (Dev.bit_congr hstatus ..).trans h.loaded
    slot := (Dev.fld_congr hstatus ..).trans h.slot
    serial := (hrd (by simp [StartReg])).trans h.serial
    gen := (hrd (by simp [StartReg])).trans h.gen
    ld := hx.ld_of_startPart.trans h.ld
    pw := hx.pw_of_startPart.trans h.pw
    clk := hx.clk_of_startPart.trans h.clk }

/-- The generation is 1, and the loader, the power states and the clock stay until LOADED sets. -/
theorem stampAll_leaves (d : Dev) : (stampAll d).rd Reg.GLOBAL_GEN = 1 ∧ (stampAll d).ld = d.ld ∧ (stampAll d).pw = d.pw ∧ (stampAll d).clk = d.clk := by
  have hunits := within_stampUnits (d.wr Reg.GLOBAL_GEN 1)
  rw [stampAll_eq]
  refine ⟨?_, hunits.ld_of_startPart.trans rfl, hunits.pw_of_startPart.trans rfl, hunits.clk_of_startPart.trans rfl⟩
  rw [hunits.2 _ (by simp [StartReg]), Dev.rd_wr_same]

theorem imageShown_setLoaded (d : Dev) : ImageShown (stampAll d) (setLoaded d) := by
  rw [setLoaded_eq]
  exact (imageShown_showImage _).within (within_startUnits _)

/-! ### LOAD_DONE (R65, R98) -/

theorem exec_loadDone (s : State) : exec .loadDone s = .next (loadDone s) := rfl

/-- LOADED sets where the rail has reached the twin floor, and the BOOT_WDT count begins. -/
def loadReached (d : Dev) : Dev :=
  if railLevel d < railFloor d then d else (setLoaded d).pwUpd (fun p => { p with wdt := some d.clk })

theorem loadDone_eq {s : State} (hphase : s.dev.ld.phase = 2 ∨ s.dev.ld.phase = 4) (hkind : s.dev.pw.kind ≠ 3) :
    loadDone s = (applyOnce s).upd loadReached := by
  rw [loadDone, if_neg]
  · rfl
  · obtain h | h := hphase <;> simp [h, hkind]

theorem loadDone_idle {s : State} (h : s.dev.ld.phase ≠ 2 ∧ s.dev.ld.phase ≠ 4 ∨ s.dev.pw.kind = 3 ∨
    s.dev.ld.phase = 4 ∧ railLevel s.dev < railFloor s.dev) : loadDone s = s := by
  by_cases hidle : s.dev.ld.phase ≠ 2 ∧ s.dev.ld.phase ≠ 4 ∨ s.dev.pw.kind = 3
  · exact if_pos (by simpa using hidle)
  · obtain ⟨hphase, hkind⟩ := not_or.1 hidle
    obtain h | h | ⟨h4, hrail⟩ := h
    · exact absurd h hphase
    · exact absurd h hkind
    · rw [loadDone_eq (.inr h4) hkind, applyOnce_applied h4, State.upd, loadReached, if_pos hrail]

theorem loadReached_waits {d : Dev} (h : railLevel d < railFloor d) : loadReached d = d := if_pos h

/-- What LOADED and the BOOT_WDT count make of the die. -/
theorem loadReached_sets {d : Dev} (h : ¬ railLevel d < railFloor d) : (loadReached d).bit Reg.IMAGE_STATUS 0 = true ∧
    (loadReached d).fld Reg.IMAGE_STATUS 3 2 = (loadReached d).ld.slot % 4 ∧ (loadReached d).ld = { d.ld with phase := 3 } ∧
    (loadReached d).rd Reg.IMAGE_SERIAL = w32 (serialOf (loadReached d).ld.recs) ∧ (loadReached d).rd Reg.GLOBAL_GEN = 1 ∧
    (loadReached d).pw.boot = 7 ∧ (loadReached d).pw.wdt = some (loadReached d).clk := by
  obtain ⟨hgen, hld, -, hclk⟩ := stampAll_leaves d
  have hshown := imageShown_setLoaded d
  have hset : loadReached d = (setLoaded d).pwUpd (fun p => { p with wdt := some d.clk }) := if_neg h
  rw [hset]
  generalize setLoaded d = e at hshown ⊢
  generalize stampAll d = x at hshown hgen hld hclk
  have heclk := hshown.clk
  have held := hshown.ld
  have hepw := hshown.pw
  refine ⟨(Dev.bit_congr (Dev.rd_pwUpd ..) ..).trans hshown.loaded, ?_, ?_, ?_, ?_, ?_, ?_⟩
  · rw [Dev.fld_congr (Dev.rd_pwUpd ..), hshown.slot, Dev.ld_pwUpd, held]
  · rw [Dev.ld_pwUpd, held, hld]
  · rw [Dev.rd_pwUpd, hshown.serial, Dev.ld_pwUpd, held]
  · rw [Dev.rd_pwUpd, hshown.gen, hgen]
  · rw [Dev.pw_pwUpd, hepw]
  · rw [Dev.pw_pwUpd, Dev.pwUpd_clk, heclk, hclk]

theorem gives_loadDone_idle {s : State} (h : s.dev.ld.phase ≠ 2 ∧ s.dev.ld.phase ≠ 4 ∨ s.dev.pw.kind = 3 ∨
    s.dev.ld.phase = 4 ∧ railLevel s.dev < railFloor s.dev) : Gives .loadDone s (fun t => t = s) :=
  ⟨_, exec_loadDone s, loadDone_idle h⟩

theorem gives_loadDone {s : State} (hphase : s.dev.ld.phase = 2 ∨ s.dev.ld.phase = 4) (hkind : s.dev.pw.kind ≠ 3) :
    Gives .loadDone s (fun t => (s.dev.ld.phase = 2 → t.dev.ld.journal = none) ∧
      (if railLevel (applyOnce s).dev < railFloor (applyOnce s).dev then t.dev.ld.phase = 4 ∧
        (s.dev.ld.phase = 2 → t.dev.ld.serial = w32 (serialOf t.dev.ld.recs))
      else t.dev.bit Reg.IMAGE_STATUS 0 = true ∧ t.dev.fld Reg.IMAGE_STATUS 3 2 = t.dev.ld.slot % 4 ∧ t.dev.ld.phase = 3 ∧
        t.dev.rd Reg.IMAGE_SERIAL = w32 (serialOf t.dev.ld.recs) ∧ t.dev.rd Reg.GLOBAL_GEN = 1 ∧ t.dev.pw.boot = 7 ∧
        t.dev.pw.wdt = some t.dev.clk) ∧ t.pending = s.pending) := by
  have happlied : s.dev.ld.phase = 2 → LoadApplied (applyOnce s).dev.ld := fun h => (applyOnce_accepted h).2
  have hp4 := phase_applyOnce hphase
  have hqueue := queue_applyOnce s
  have hdone := loadDone_eq hphase hkind
  generalize applyOnce s = u at happlied hp4 hqueue hdone ⊢
  refine ⟨_, (exec_loadDone s).trans (congrArg _ hdone), ?_⟩
  beta_reduce
  rw [State.upd_dev, pending_upd]
  split
  next hrail =>
    rw [loadReached_waits hrail]
    exact ⟨fun h => (happlied h).1, ⟨hp4, fun h => (happlied h).2⟩, hqueue⟩
  next hrail =>
    obtain ⟨hbit, hslot, hld, hserial, hgen, hboot, hwdt⟩ := loadReached_sets hrail
    generalize loadReached u.dev = e at hbit hslot hld hserial hgen hboot hwdt ⊢
    refine ⟨fun h => ?_, ⟨hbit, hslot, ?_, hserial, hgen, hboot, hwdt⟩, hqueue⟩
    · rw [hld]
      exact (happlied h).1
    · rw [hld]

end Sys2Proof.Machine

/-! PROOFS. The images of the device load and are programmed (O49). -/
namespace Sys2Proof.Machine

-- One proof after another: proofs that wait for the kernel at once would take more threads than the check's memory holds.
set_option Elab.async false

/-! ### O49 -/

/-- Settles O49: the loader's three steps (`gives_loadStart` and `gives_loadStart_deep`; `gives_loadCheck_accepted`, `gives_loadCheck_deep` and
`gives_loadCheck_refused`; `gives_loadDone`), the commands of the staged image (`gives_stageCmd_ends`, `gives_stageCmd_protected`,
`gives_stageCmd_erases`, `gives_stageCmd_busy`, `gives_stageCmdDone`), and the writes of the keep-backed registers (`gives_bootOk`,
`gives_slotCtrlWrite`, `gives_keepField_performed`, `gives_keepField_stopped`, `gives_keyHashWrite`, `gives_imageWrite_idle`,
`gives_imageCommand_denied`). -/
theorem imagesLoadAndProgram : Obligations.ImagesLoadAndProgram := by
  unfold Obligations.ImagesLoadAndProgram
  refine ⟨fun s bad hboot hphase hhalt hkind => gives_loadStart hboot hphase hhalt hkind,
    fun s bad hboot hphase hhalt hkind => gives_loadStart_deep hboot hphase hhalt hkind,
    fun s bad h => gives_same (exec_loadStart bad s) (loadStart_idle bad h), fun s bad len hphase hlen => ⟨?accepted, ?deep, ?refused⟩,
    fun s bad h => ⟨_, exec_loadCheckDone bad s, loadCheck_idle bad h⟩, fun s h => gives_loadDone_idle h,
    fun s hphase hkind => gives_loadDone hphase hkind, fun s q hq hbusy => ⟨?verify, fun c i hi => ?program⟩,
    fun s q i hi hq hbusy => ?busy, fun s bad h => ⟨_, exec_stageCmdDone bad s, stageDone_idle bad h⟩, fun s bad c h => gives_stageCmdDone h,
    fun s q v hq => ⟨fun hv => gives_bootOk hq hv, fun h3 hwp hrate => gives_slotCtrlWrite hq h3 hwp hrate,
      fun i o w h => ⟨fun hrate => gives_keepField_performed hq h hrate, fun hrate hne => gives_keepField_stopped hq h hrate hne⟩,
      fun i h => gives_imageWrite_idle hq h⟩,
    fun s q k j v hq hprov => gives_keyHashWrite hq hprov, fun s q k j v hq i hi => gives_imageCommand_denied hq hi⟩
  case accepted => exact fun recs hcheck hserial => gives_loadCheck_accepted hphase hlen hcheck hserial
  case deep => exact fun r recs hcheck hkind hr => gives_loadCheck_deep hphase hcheck hkind hr
  case refused => exact fun code n recs hcheck hkind => gives_loadCheck_refused hphase hlen hcheck hkind
  case verify => exact gives_stageCmd_ends (isStageCmd_verify q) hq hbusy (fun h => absurd h (by decide)) (.inr rfl)
  case program =>
    obtain ⟨hcmd, h1⟩ := isStageCmd_program hi
    exact ⟨fun h4 hwp => h4 ▸ gives_stageCmd_protected hcmd hq hbusy h4 hwp, fun hwp hend => gives_stageCmd_ends hcmd hq hbusy hwp (.inl hend),
      fun hwp hend => gives_stageCmd_erases hcmd hq hbusy hwp hend h1⟩
  case busy =>
    obtain ⟨c, hcmd⟩ := isStageCmd_of_mem hi
    exact gives_stageCmd_busy hcmd hq hbusy

end Sys2Proof.Machine

/-! PROOFS. The fault log and the spare of a flock, as the probes and self-tests of cells leave them (O27). -/
namespace Sys2Proof.Machine

-- One proof after another: proofs that wait for the kernel at once would take more threads than the check's memory holds.
set_option Elab.async false

/-! ### What an entry of the fault log leaves (R286) -/

theorem Within.repairs_of_logPart {p : Nat → Prop} {d e : Dev} (h : Within logPart p d e) : e.repairs = d.repairs := (congrArg Dev.repairs h.1 :)

/-- The registers of the keep store's wear. -/
def WearReg (o : Nat) : Prop := o = Reg.KEEP_FLAGS ∨ o = Reg.WEAR_ADDR

theorem regs_wearStep (k : Nat) (d : Dev) : Within anyPart WearReg d (wearStep k d) := by
  have hwear (u : Keep → Keep) : Within anyPart WearReg d (d.kp u) := within_any_of_regs rfl
  unfold wearStep
  dsimp only
  split
  · exact ((hwear _).trans (within_setBit (g := anyPart) (p := WearReg) (.inl rfl) _ _)).trans (within_wr (.inr rfl) _ _)
  · exact hwear _

theorem regs_keepDevWord (k : Nat) (v : Word) (d : Dev) : Within anyPart WearReg d (keepDevWord k v d) := by
  unfold keepDevWord keepStoreWord
  split
  · exact .refl d
  · exact (regs_wearStep k _).after rfl rfl

theorem regs_keepDevField (o : Nat) (v : Word) (d : Dev) : Within anyPart (fun x => x = o ∨ WearReg x) d (keepDevField o v d) := by
  unfold keepDevField
  split
  · exact .refl d
  · exact Within.trans (g := anyPart) (within_wr (.inl rfl) v d) ((regs_wearStep _ _).mono fun _ => .inr)

/-- Every bit of ST_FLAGS that is set stays set. -/
def FlagsGrow (d e : Dev) : Prop := ∀ n, d.bit Reg.ST_FLAGS n = true → e.bit Reg.ST_FLAGS n = true

theorem FlagsGrow.trans {d e x : Dev} (h : FlagsGrow d e) (k : FlagsGrow e x) : FlagsGrow d x := fun n hn => k n (h n hn)

theorem flagsGrow_of_rd {d e : Dev} (h : e.rd Reg.ST_FLAGS = d.rd Reg.ST_FLAGS) : FlagsGrow d e := fun n hn => (Dev.bit_congr h n).trans hn

theorem flagsGrow_setBit (d : Dev) {k : Nat} (hk : k < 32) : FlagsGrow d (d.setBit Reg.ST_FLAGS k) := fun n hn => by
  rw [Dev.bit_setBit _ _ _ _ hk, hn, Bool.true_or]

/-- The words of an entry and the count of entries leave the steward's flags. -/
theorem stFlags_logged (k : Nat) (ws : List Word) (v : Word) (d : Dev) :
    (keepDevField Reg.FAULT_COUNT v (forN 4 d fun i d => keepDevWord (k + i) (ws.getD i 0) d)).rd Reg.ST_FLAGS = d.rd Reg.ST_FLAGS := by
  have hno : ¬ WearReg Reg.ST_FLAGS := by unfold WearReg; decide
  have hwords := (Within.forN 4 (fun i d => keepDevWord (k + i) (ws.getD i 0) d) (fun i _ e => regs_keepDevWord _ _ e) d).2 _ hno
  exact ((regs_keepDevField _ v _).2 _ (not_or.2 ⟨by decide, hno⟩)).trans hwords

theorem flagsGrow_counted {d e : Dev} (h : e.rd Reg.ST_FLAGS = d.rd Reg.ST_FLAGS) (l : List (Nat × Nat)) :
    FlagsGrow d (({ e with logKeys := l } : Dev).setBit Reg.ST_FLAGS 0) :=
  (flagsGrow_of_rd h).trans (flagsGrow_setBit (d := { e with logKeys := l }) (by decide))

/-- An entry of the fault log clears no bit of ST_FLAGS. -/
theorem flagsGrow_faultLogAt (ht cls det idx act res aux : Nat) (d : Dev) : FlagsGrow d (faultLogAt ht cls det idx act res aux d) := by
  have hfix : FlagsGrow d (logSecondFix d) := by
    unfold logSecondFix
    split <;> exact fun _ hn => hn
  unfold faultLogAt
  dsimp only
  refine hfix.trans ?_
  generalize logSecondFix d = d
  split
  · exact (flagsGrow_setBit d (by decide)).trans (flagsGrow_of_rd ((regsOnly_bump (p := (· = Reg.LOG_DROPS)) rfl _).2 _ (by decide)))
  · exact flagsGrow_counted (stFlags_logged _ _ _ d) _

theorem flagsGrow_faultLog (cls det idx act res aux : Nat) (d : Dev) : FlagsGrow d (faultLog cls det idx act res aux d) :=
  flagsGrow_faultLogAt d.now cls det idx act res aux d

/-! ### The spare post is used (R266, R271) -/

theorem flock_spareAgain (f c : Nat) (d : Dev) (f' : Nat) : (spareAgain f c d).flock f' = d.flock f' := by
  unfold spareAgain
  rw [(within_faultLog ..).flock_of_logPart, gainSpare, Dev.flock_wr, Dev.flock_clrBit, flock_setPostCell]

/-- The spare is cell c, and the flock is guarded. -/
def SpareIs (f c : Nat) (d : Dev) : Prop := spareCell d f = c ∧ d.bit (Reg.FLOCK_STATUS f) 8 = false

theorem spareIs_spareAgain (f : Nat) {c : Nat} (hc : c < 16) (d : Dev) : SpareIs f c (spareAgain f c d) := by
  have hlog {e : Dev} (aux : Nat) := (within_faultLog 1 7 (cellIndex f c) 12 0 aux e).2 _ (not_logReg_flockStatus f)
  have hgen : Reg.FLOCK_STATUS f ≠ Reg.CELL_GEN f 8 := by unfold Reg.FLOCK_STATUS Reg.CELL_GEN; omega
  refine ⟨?_, ?_⟩
  · rw [spareAgain, spareCell_congr (hlog _), gainSpare, spareCell_congr (Dev.rd_wr_ne _ _ hgen), spareCell,
      Dev.fld_clrBit_outside _ _ (by decide) (by decide) (by decide)]
    exact spareCell_setPostCell_spare f hc d
  · rw [spareAgain, Dev.bit_congr (hlog _), gainSpare, Dev.bit_congr (Dev.rd_wr_ne _ _ hgen), Dev.bit_clrBit_same _ _ (by decide)]

theorem unguarded_loseSpare (f : Nat) (d : Dev) : (loseSpare f d).bit (Reg.FLOCK_STATUS f) 8 = true := by
  have h1 : Reg.FLOCK_STATUS f ≠ Reg.ST_FLAGS := by unfold Reg.FLOCK_STATUS Reg.ST_FLAGS; omega
  have h2 : Reg.FLOCK_STATUS f ≠ Reg.FLOCK_IRQ f := by unfold Reg.FLOCK_STATUS Reg.FLOCK_IRQ; omega
  have h3 : Reg.FLOCK_STATUS f ≠ Reg.CELL_GEN f 8 := by unfold Reg.FLOCK_STATUS Reg.CELL_GEN; omega
  have h4 : Reg.FLOCK_STATUS f ≠ Reg.CELL_STATUS f 8 := by unfold Reg.FLOCK_STATUS Reg.CELL_STATUS; omega
  have hcell (e : Dev) : (setPostCell f 8 15 e).bit (Reg.FLOCK_STATUS f) 8 = e.bit (Reg.FLOCK_STATUS f) 8 := by
    rw [setPostCell, if_pos rfl, Dev.bit_setFld_outside _ _ _ (by decide) (by decide) (by decide), Dev.bit_congr (Dev.rd_setFld_ne _ _ _ _ h4)]
  unfold loseSpare
  dsimp only
  rw [Dev.bit_congr (Dev.rd_setBit_ne _ _ h1), Dev.bit_congr (Dev.rd_setBit_ne _ _ h2), Dev.bit_congr (Dev.rd_wr_ne _ _ h3),
    Dev.bit_congr (setShadow_flockStatus ..), Dev.bit_setFld_outside _ _ _ (by decide) (by decide) (by decide), hcell,
    Dev.bit_setBit_same _ _ (by decide)]

/-- What the use of a flock's spare post, whose ready cells were those of the list, makes of the spare. -/
def SpareSpent (f : Nat) (ready : List Nat) (d : Dev) : Prop :=
  (ready = [] → spareCell d f = 15 ∧ d.bit (Reg.FLOCK_STATUS f) 8 = true) ∧ ∀ n l, ready = n :: l → n < 9 → spareCell d f = n

theorem SpareSpent.congr {f : Nat} {ready : List Nat} {d e : Dev} (h : SpareSpent f ready d) (hr : e.rd (Reg.FLOCK_STATUS f) = d.rd (Reg.FLOCK_STATUS f)) :
    SpareSpent f ready e := by
  unfold SpareSpent
  rw [spareCell_congr hr, Dev.bit_congr hr]
  exact h

theorem spareSpent_spendSpare (f : Nat) (d : Dev) : SpareSpent f (d.flock f).ready (spendSpare f d) := by
  refine ⟨fun h => ?_, fun n l h hn => ?_⟩
  · rw [spendSpare_of_none h]
    exact ⟨spareCell_loseSpare f d, unguarded_loseSpare f d⟩
  · unfold spendSpare
    rw [h]
    exact (spareIs_spareAgain f (by omega) _).1

/-- The use of the spare changes the ready cells of the flock, and no other part of its state. -/
theorem flock_spendSpare (f : Nat) (d : Dev) : ∃ l, (spendSpare f d).flock f = { d.flock f with ready := l } := by
  unfold spendSpare
  split
  next c l _ => exact ⟨l, by rw [flock_spareAgain, flock_setShadow, Dev.flock_updFlock_same]⟩
  next h => exact ⟨[], by rw [flock_loseSpare, ← h]⟩

/-- A cell is retired, and the spare post is used. -/
def retireAndSpend (f c : Nat) (d : Dev) : Dev := spendSpare f (retireCell f c d)

/-- What that makes of the flock. -/
theorem retireAndSpend_notes (f c : Nat) (d : Dev) : SpareSpent f (d.flock f).ready (retireAndSpend f c d) ∧
    c ∈ ((retireAndSpend f c d).flock f).testing ∧ ((retireAndSpend f c d).flock f).probing = (d.flock f).probing ∧
    Within anyPart (SpareReg f) d (retireAndSpend f c d) := by
  have hspent := spareSpent_spendSpare f (retireCell f c d)
  obtain ⟨l, hflock⟩ := flock_spendSpare f (retireCell f c d)
  have hretired : (retireCell f c d).flock f =
      { d.flock f with retiredAt := (d.flock f).retiredAt ++ [(c, d.clk)], testing := insNat c (d.flock f).testing } := by
    rw [retireCell, Dev.flock_updFlock_same]
  rw [hretired] at hspent hflock
  refine ⟨hspent, ?_, ?_, (within_retireCell f c d).trans (within_spendSpare f _)⟩
  · rw [retireAndSpend, hflock]
    exact mem_insNat.2 (.inl rfl)
  · rw [retireAndSpend, hflock]

end Sys2Proof.Machine

/-! PROOFS. The shadow probe decides which cell is wrong (O27). -/
namespace Sys2Proof.Machine

-- One proof after another: proofs that wait for the kernel at once would take more threads than the check's memory holds.
set_option Elab.async false

theorem exec_shadowProbeDone (f : Fin 16) (a b : Bool) (s : State) : exec (.shadowProbeDone f a b) s = .next (s.upd (probeDone f a b)) := rfl

theorem probeDone_idle {f : Nat} {d : Dev} (h : (d.flock f).probing = false) (a b : Bool) : probeDone f a b d = d := by
  rw [probeDone, if_neg (by simp [h])]

/-! ### A cell retired from a flock, its spare post used -/

/-- A cell of the flock is retired, the spare post is used, and no probe runs. -/
def CellRetired (f c : Nat) (d e : Dev) : Prop :=
  (e.flock f).probing = false ∧ (e.flock f).testing.contains c = true ∧ SpareSpent f (d.flock f).ready e

theorem CellRetired.congr {f c : Nat} {d e x : Dev} (h : CellRetired f c d e) (hf : x.flock f = e.flock f)
    (hr : x.rd (Reg.FLOCK_STATUS f) = e.rd (Reg.FLOCK_STATUS f)) : CellRetired f c d x := by
  obtain ⟨hprobe, htest, hspent⟩ := h
  exact ⟨by rw [hf, hprobe], by rw [hf, htest], hspent.congr hr⟩

theorem CellRetired.logged {f c : Nat} {d e : Dev} (h : CellRetired f c d e) (cls det idx act res aux : Nat) :
    CellRetired f c d (faultLog cls det idx act res aux e) :=
  h.congr ((within_faultLog ..).flock_of_logPart f) ((within_faultLog ..).2 _ (not_logReg_flockStatus f))

/-- A probe that ends by the retirement of a cell; what the steward changes before leaves the flock. -/
theorem cellRetired_retireAndSpend {f : Nat} {d e : Dev} (he : e.flock f = { d.flock f with probing := false }) (c : Nat) :
    CellRetired f c d (retireAndSpend f c e) := by
  obtain ⟨hspent, htest, hprobe, -⟩ := retireAndSpend_notes f c e
  rw [he] at hspent hprobe
  exact ⟨hprobe, by simpa using htest, hspent⟩

theorem not_logReg_flockIrq (f : Nat) : ¬ LogReg (Reg.FLOCK_IRQ f) := not_logReg_of_page (by unfold Reg.FLOCK_IRQ; omega)
theorem not_logReg_postMap (f : Nat) : ¬ LogReg (Reg.POST_MAP f) := fun h => not_spareReg_postMap f f (.inl h)
theorem flockStatus_ne_flockIrq (f : Nat) : Reg.FLOCK_STATUS f ≠ Reg.FLOCK_IRQ f := by unfold Reg.FLOCK_STATUS Reg.FLOCK_IRQ; omega
theorem postMap_ne_flockIrq (f : Nat) : Reg.POST_MAP f ≠ Reg.FLOCK_IRQ f := by unfold Reg.POST_MAP Reg.FLOCK_IRQ; omega
theorem postMap_ne_stFlags (f : Nat) : Reg.POST_MAP f ≠ Reg.ST_FLAGS := by unfold Reg.POST_MAP Reg.ST_FLAGS; omega
theorem flockStatus_ne_stFlags (f : Nat) : Reg.FLOCK_STATUS f ≠ Reg.ST_FLAGS := by unfold Reg.FLOCK_STATUS Reg.ST_FLAGS; omega

/-- The stamp of a post is none of the registers that the use of the spare changes. -/
theorem not_spareReg_cellGen {f p : Nat} (hp : p < 8) : ¬ SpareReg f (Reg.CELL_GEN f p) := by
  unfold SpareReg
  rintro (h | h | h | h | ⟨q, hq, h⟩)
  · exact not_logReg_of_page (by unfold Reg.CELL_GEN; omega) h
  all_goals unfold Reg.CELL_GEN at h
  · unfold Reg.FLOCK_STATUS at h; omega
  · unfold Reg.FLOCK_IRQ at h; omega
  · omega
  · unfold Reg.CELL_STATUS at h; omega

/-- Both probe lines are checked: the probe has ended. -/
def probeEnded (f : Nat) (d : Dev) : Dev := d.updFlock f (fun x => { x with probing := false })

theorem flock_probeEnded (f : Nat) (d : Dev) : (probeEnded f d).flock f = { d.flock f with probing := false } := Dev.flock_updFlock_same ..
theorem rd_probeEnded (f : Nat) (d : Dev) (o : Nat) : (probeEnded f d).rd o = d.rd o := Dev.updFlock_rd ..

theorem flock_swapSpare (f p : Nat) (d : Dev) (f' : Nat) : (swapSpare f p d).flock f' = d.flock f' := by
  unfold swapSpare
  dsimp only
  rw [Dev.flock_wr, flock_setPostCell, flock_setPostCell]

theorem Dev.flock_updCell (d : Dev) (f p : Nat) (u : CellSt → CellSt) (f' : Nat) : (d.updCell f p u).flock f' = d.flock f' := rfl

theorem rd_swapSpare_cellGen (f p : Nat) (d : Dev) : (swapSpare f p d).rd (Reg.CELL_GEN f p) = d.rd Reg.GLOBAL_GEN := Dev.rd_wr_same ..

/-! ### The four outcomes (R269) -/

section
variable {f p : Nat} {a b : Bool} {d : Dev} (hprobe : (d.flock f).probing = true) (hp : d.fld (Reg.FLOCK_STATUS f) 15 12 = p) (hp8 : p < 8)
include hprobe hp hp8

theorem probeDone_benign (ha : (a && probeGood d f) = true) (hb : (b && probeGood d f) = true) :
    probeDone f a b d = (probeEnded f d).bump Reg.SHADOW_BENIGN := by
  unfold probeDone
  dsimp only
  rw [if_pos hprobe, if_neg (by omega), ha, hb]
  rfl

theorem probeDone_spareWrong (ha : (a && probeGood d f) = true) (hb : (b && probeGood d f) = false) :
    ∃ res aux, probeDone f a b d =
      faultLog 1 6 (cellIndex f (spareCell d f)) 2 res aux (retireAndSpend f (spareCell d f) (probeEnded f d)) := by
  unfold probeDone
  dsimp only
  rw [if_pos hprobe, if_neg (by omega), ha, hb]
  exact ⟨_, _, rfl⟩

theorem probeDone_bothWrong (ha : (a && probeGood d f) = false) (hb : (b && probeGood d f) = false) :
    ∃ aux, probeDone f a b d = faultLog 1 6 (cellIndex f (spareCell d f)) 2 4 aux
      ((retireAndSpend f (spareCell d f) (probeEnded f d)).setBit Reg.ST_FLAGS 11) := by
  unfold probeDone
  dsimp only
  rw [if_pos hprobe, if_neg (by omega), ha, hb]
  exact ⟨_, rfl⟩

theorem probeDone_postWrong (ha : (a && probeGood d f) = false) (hb : (b && probeGood d f) = true) :
    ∃ u res aux, probeDone f a b d = faultLog 1 6 (cellIndex f (postCell d f p)) 1 res aux
      (((retireAndSpend f (postCell d f p) (swapSpare f p (probeEnded f d))).updCell f p u).setBit (Reg.FLOCK_IRQ f) 3) := by
  subst hp
  unfold probeDone
  dsimp only
  rw [if_pos hprobe, if_neg (by omega), ha, hb]
  exact ⟨_, _, _, rfl⟩

end

/-! ### What each outcome leaves -/

theorem probeDone_benign_notes {f : Nat} (d : Dev) : ((probeEnded f d).bump Reg.SHADOW_BENIGN).flock f = { d.flock f with probing := false } ∧
    (((probeEnded f d).bump Reg.SHADOW_BENIGN).rd Reg.SHADOW_BENIGN).toNat = min ((d.rd Reg.SHADOW_BENIGN).toNat + 1) 0xFFFFFFFF ∧
    Within flockPart (· = Reg.SHADOW_BENIGN) d ((probeEnded f d).bump Reg.SHADOW_BENIGN) := by
  have hbump := regsOnly_bump (p := (· = Reg.SHADOW_BENIGN)) rfl (probeEnded f d)
  exact ⟨by rw [hbump.flock, flock_probeEnded], by rw [Dev.toNat_rd_bump, rd_probeEnded], (within_updFlock f _ d).trans hbump.within⟩

theorem spareWrong_notes (f : Nat) (d : Dev) (res aux : Nat) {x : Dev}
    (hx : x = faultLog 1 6 (cellIndex f (spareCell d f)) 2 res aux (retireAndSpend f (spareCell d f) (probeEnded f d))) :
    CellRetired f (spareCell d f) d x ∧ ∀ p, postCell x f p = postCell d f p := by
  subst hx
  refine ⟨(cellRetired_retireAndSpend (flock_probeEnded f d) _).logged .., fun p => postCell_congr ?_ p⟩
  obtain ⟨-, -, -, hregs⟩ := retireAndSpend_notes f (spareCell d f) (probeEnded f d)
  rw [(within_faultLog ..).2 _ (not_logReg_postMap f), hregs.2 _ (not_spareReg_postMap f f), rd_probeEnded]

theorem bothWrong_notes (f : Nat) (d : Dev) (aux : Nat) {x : Dev} (hx : x = faultLog 1 6 (cellIndex f (spareCell d f)) 2 4 aux
      ((retireAndSpend f (spareCell d f) (probeEnded f d)).setBit Reg.ST_FLAGS 11)) :
    CellRetired f (spareCell d f) d x ∧ (∀ p, postCell x f p = postCell d f p) ∧ x.bit Reg.ST_FLAGS 11 = true := by
  subst hx
  have hret := cellRetired_retireAndSpend (flock_probeEnded f d) (spareCell d f)
  refine ⟨(hret.congr (Dev.flock_setBit ..) (Dev.rd_setBit_ne _ _ (flockStatus_ne_stFlags f))).logged .., fun p => postCell_congr ?_ p,
    flagsGrow_faultLog _ _ _ _ _ _ _ 11 (Dev.bit_setBit_same _ _ (by decide))⟩
  obtain ⟨-, -, -, hregs⟩ := retireAndSpend_notes f (spareCell d f) (probeEnded f d)
  rw [(within_faultLog ..).2 _ (not_logReg_postMap f), Dev.rd_setBit_ne _ _ (postMap_ne_stFlags f), hregs.2 _ (not_spareReg_postMap f f), rd_probeEnded]

theorem postWrong_notes {f p : Nat} (hp : p < 8) (d : Dev) (u : CellSt → CellSt) (res aux : Nat) {x : Dev}
    (hx : x = faultLog 1 6 (cellIndex f (postCell d f p)) 1 res aux
      (((retireAndSpend f (postCell d f p) (swapSpare f p (probeEnded f d))).updCell f p u).setBit (Reg.FLOCK_IRQ f) 3)) :
    CellRetired f (postCell d f p) d x ∧ postCell x f p = spareCell d f ∧ x.bit (Reg.FLOCK_IRQ f) 3 = true ∧
      x.rd (Reg.CELL_GEN f p) = d.rd Reg.GLOBAL_GEN := by
  subst hx
  have hret := cellRetired_retireAndSpend ((flock_swapSpare f p (probeEnded f d) f).trans (flock_probeEnded f d)) (postCell d f p)
  have hgen : Reg.CELL_GEN f p ≠ Reg.FLOCK_IRQ f := by unfold Reg.CELL_GEN Reg.FLOCK_IRQ; omega
  obtain ⟨-, -, -, hregs⟩ := retireAndSpend_notes f (postCell d f p) (swapSpare f p (probeEnded f d))
  refine ⟨((hret.congr (Dev.flock_updCell ..) (Dev.updCell_rd ..)).congr (Dev.flock_setBit ..)
    (Dev.rd_setBit_ne _ _ (flockStatus_ne_flockIrq f))).logged .., ?_, ?_, ?_⟩
  · rw [postCell_congr ((within_faultLog ..).2 _ (not_logReg_postMap f)), postCell_congr (Dev.rd_setBit_ne _ _ (postMap_ne_flockIrq f)),
      postCell_congr (Dev.updCell_rd ..), postCell_congr (hregs.2 _ (not_spareReg_postMap f f)), postCell_swapSpare hp,
      spareCell_congr (rd_probeEnded ..)]
  · rw [Dev.bit_congr ((within_faultLog ..).2 _ (not_logReg_flockIrq f)), Dev.bit_setBit_same _ _ (by decide)]
  · rw [(within_faultLog ..).2 _ (fun h => not_spareReg_cellGen hp (.inl h)), Dev.rd_setBit_ne _ _ hgen, Dev.updCell_rd,
      hregs.2 _ (not_spareReg_cellGen hp), rd_swapSpare_cellGen, rd_probeEnded]

/-! ### The clause of the probe, outcome by outcome -/

/-- Both cells are checked against one probe line. -/
theorem and_probeGood (a b g : Bool) : (a && b && g) = ((a && g) && (b && g)) := by cases a <;> cases b <;> cases g <;> rfl

section
variable {s : State} {f : Fin 16} {p : Nat} {a b : Bool} (hprobe : (s.dev.flock f).probing = true)
  (hp : s.dev.fld (Reg.FLOCK_STATUS f) 15 12 = p) (hp8 : p < 8)
include hprobe hp hp8

theorem gives_probe_benign (ha : (a && probeGood s.dev f) = true) (hb : (b && probeGood s.dev f) = true) :
    Gives (.shadowProbeDone f a b) s (fun t => (t.dev.flock f).probing = false ∧
      ((t.dev.rd Reg.SHADOW_BENIGN).toNat = min ((s.dev.rd Reg.SHADOW_BENIGN).toNat + 1) 0xFFFFFFFF ∧
        Leaves (fun d e => { d with regs := e.regs, flocks := e.flocks }) (· = Reg.SHADOW_BENIGN) s t) ∧
      (true = false → SpareSpent f (s.dev.flock f).ready t.dev) ∧ SameMem s t ∧ t.pending = s.pending) := by
  obtain ⟨hflock, hcount, hpart, hregs⟩ := probeDone_benign_notes (f := f) s.dev
  refine gives_of_upd (exec_shadowProbeDone f a b s) (probeDone_benign hprobe hp hp8 ha hb) ⟨?_, ⟨hcount, rfl, rfl, hpart, hregs⟩, nofun, rfl, rfl⟩
  exact congrArg FlockSt.probing hflock

theorem gives_probe_spareWrong (ha : (a && probeGood s.dev f) = true) (hb : (b && probeGood s.dev f) = false) :
    Gives (.shadowProbeDone f a b) s (fun t => (t.dev.flock f).probing = false ∧
      (postCell t.dev f p = postCell s.dev f p ∧ (t.dev.flock f).testing.contains (spareCell s.dev f) = true) ∧
      (false = false → SpareSpent f (s.dev.flock f).ready t.dev) ∧ SameMem s t ∧ t.pending = s.pending) := by
  obtain ⟨res, aux, hx⟩ := probeDone_spareWrong hprobe hp hp8 ha hb
  obtain ⟨⟨hend, htest, hspent⟩, hpost⟩ := spareWrong_notes f s.dev res aux hx
  exact gives_of_upd (exec_shadowProbeDone f a b s) rfl ⟨hend, ⟨hpost p, htest⟩, fun _ => hspent, rfl, rfl⟩

theorem gives_probe_bothWrong (ha : (a && probeGood s.dev f) = false) (hb : (b && probeGood s.dev f) = false) :
    Gives (.shadowProbeDone f a b) s (fun t => (t.dev.flock f).probing = false ∧
      (postCell t.dev f p = postCell s.dev f p ∧ (t.dev.flock f).testing.contains (spareCell s.dev f) = true ∧
        t.dev.bit Reg.ST_FLAGS 11 = true) ∧
      (false = false → SpareSpent f (s.dev.flock f).ready t.dev) ∧ SameMem s t ∧ t.pending = s.pending) := by
  obtain ⟨aux, hx⟩ := probeDone_bothWrong hprobe hp hp8 ha hb
  obtain ⟨⟨hend, htest, hspent⟩, hpost, hflag⟩ := bothWrong_notes f s.dev aux hx
  exact gives_of_upd (exec_shadowProbeDone f a b s) rfl ⟨hend, ⟨hpost p, htest, hflag⟩, fun _ => hspent, rfl, rfl⟩

theorem gives_probe_postWrong (ha : (a && probeGood s.dev f) = false) (hb : (b && probeGood s.dev f) = true) :
    Gives (.shadowProbeDone f a b) s (fun t => (t.dev.flock f).probing = false ∧
      (postCell t.dev f p = spareCell s.dev f ∧ (t.dev.flock f).testing.contains (postCell s.dev f p) = true ∧
        t.dev.bit (Reg.FLOCK_IRQ f) 3 = true ∧ t.dev.rd (Reg.CELL_GEN f p) = s.dev.rd Reg.GLOBAL_GEN) ∧
      (false = false → SpareSpent f (s.dev.flock f).ready t.dev) ∧ SameMem s t ∧ t.pending = s.pending) := by
  obtain ⟨u, res, aux, hx⟩ := probeDone_postWrong hprobe hp hp8 ha hb
  obtain ⟨⟨hend, htest, hspent⟩, hpost, hirq, hgen⟩ := postWrong_notes hp8 s.dev u res aux hx
  exact gives_of_upd (exec_shadowProbeDone f a b s) rfl ⟨hend, ⟨hpost, htest, hirq, hgen⟩, fun _ => hspent, rfl, rfl⟩

end

end Sys2Proof.Machine

/-! PROOFS. The end of a cell's self-test (O27). -/
namespace Sys2Proof.Machine

-- One proof after another: proofs that wait for the kernel at once would take more threads than the check's memory holds.
set_option Elab.async false

theorem exec_cellSelftestDone (f : Fin 16) (c : Fin 9) (pass : Bool) (s : State) :
    exec (.cellSelftestDone f c pass) s = .next (s.upd (cellTestDone f c pass)) := rfl

theorem cellTestDone_idle {f c : Nat} {d : Dev} (h : (d.flock f).testing.contains c = false) (pass : Bool) : cellTestDone f c pass d = d := by
  rw [cellTestDone, if_neg (by rw [h]; decide)]

/-! ### The flock and its spare, as the start of a takeover leaves them (R264, R266) -/

/-- The flock keeps its spare, whether it is guarded, and its BIST_PASS. -/
def SpareStands (f : Nat) (d e : Dev) : Prop :=
  (e.flock f).bist = (d.flock f).bist ∧ spareCell e f = spareCell d f ∧ e.bit (Reg.FLOCK_STATUS f) 8 = d.bit (Reg.FLOCK_STATUS f) 8

theorem SpareStands.refl (f : Nat) (d : Dev) : SpareStands f d d := ⟨rfl, rfl, rfl⟩
theorem SpareStands.trans {f : Nat} {d e x : Dev} (h : SpareStands f d e) (k : SpareStands f e x) : SpareStands f d x :=
  ⟨k.1.trans h.1, k.2.1.trans h.2.1, k.2.2.trans h.2.2⟩

theorem spareStands_of_rd {f : Nat} {d e : Dev} (hb : (e.flock f).bist = (d.flock f).bist)
    (hr : e.rd (Reg.FLOCK_STATUS f) = d.rd (Reg.FLOCK_STATUS f)) : SpareStands f d e := ⟨hb, spareCell_congr hr, Dev.bit_congr hr 8⟩

theorem spareStands_updFlock (f : Nat) (u : FlockSt → FlockSt) (d : Dev) (hu : (u (d.flock f)).bist = (d.flock f).bist) :
    SpareStands f d (d.updFlock f u) := spareStands_of_rd (by rw [Dev.flock_updFlock_same, hu]) (Dev.updFlock_rd ..)

theorem spareStands_clearPost (f p : Nat) (d : Dev) : SpareStands f d (clearPost f p d) :=
  spareStands_of_rd (by rw [(within_clearPost f p d).flock_of_cellsPart]) ((within_clearPost f p d).2 _ (flockStatus_not_postMark f p))

theorem spareStands_setShadow (f q : Nat) (d : Dev) : SpareStands f d (setShadow f q d) :=
  ⟨by rw [flock_setShadow], spareCell_setShadow f q d, by
    rw [Dev.bit_congr (setShadow_flockStatus f q d), Dev.bit_setFld_outside _ _ _ (by decide) (by decide) (by decide)]⟩

theorem spareStands_markTakeover (f : Nat) (d : Dev) : SpareStands f d (d.setBit (Reg.FLOCK_STATUS f) 9) :=
  ⟨congrArg FlockSt.bist (Dev.flock_setBit ..), Dev.fld_setBit_outside _ _ (by decide) (by decide), by
    rw [Dev.bit_setBit _ _ _ _ (by decide), decide_eq_false (by decide), Bool.or_false]⟩

theorem spareStands_wr {f o : Nat} (ho : Reg.FLOCK_STATUS f ≠ o) (v : Word) (d : Dev) : SpareStands f d (d.wr o v) :=
  spareStands_of_rd (congrArg FlockSt.bist (Dev.flock_wr ..)) (Dev.rd_wr_ne _ _ ho)

theorem spareStands_updCell (f p : Nat) (u : CellSt → CellSt) (d : Dev) : SpareStands f d (d.updCell f p u) :=
  spareStands_of_rd (congrArg FlockSt.bist (Dev.flock_updCell ..)) (Dev.updCell_rd ..)

theorem spareStands_takeoverLoaded (f : Nat) (d : Dev) : SpareStands f d (takeoverLoaded f d) := by
  have hgen : Reg.FLOCK_STATUS f ≠ Reg.CELL_GEN f 8 := by unfold Reg.FLOCK_STATUS Reg.CELL_GEN; omega
  unfold takeoverLoaded
  split
  · dsimp only
    split
    · exact .refl f d
    · exact ((spareStands_updCell f _ _ d).trans (spareStands_wr hgen _ _)).trans (spareStands_updFlock f _ _ rfl)
  · exact .refl f d

theorem spareStands_takeoverStart (f : Nat) (t : Takeover) (d : Dev) : SpareStands f d (takeoverStart f t d) := by
  unfold takeoverStart
  dsimp only
  have h := (((spareStands_updFlock f (fun x => { x with takeover := some t, testing := x.testing.erase (spareCell d f), probing := false, handoff := none })
    d rfl).trans (spareStands_clearPost f t.post _)).trans (spareStands_markTakeover f _)).trans (spareStands_setShadow f 15 _)
  split
  · exact h.trans (spareStands_takeoverLoaded f _)
  · exact h

theorem spareStands_takeoverNext (f : Nat) (d : Dev) : SpareStands f d (takeoverNext f d) := by
  unfold takeoverNext
  dsimp only
  split
  · split
    · exact .trans (spareStands_updFlock f _ d rfl) (spareStands_takeoverStart ..)
    · exact .refl f d
  · exact .refl f d

/-! ### The outcomes of the self-test -/

/-- The self-test of cell c has ended, and BIST_PASS tells its outcome. -/
def testEnded (f c : Nat) (pass : Bool) (d : Dev) : Dev := setBist f c pass (d.updFlock f (fun x => { x with testing := x.testing.erase c }))

theorem flock_testEnded (f c : Nat) (pass : Bool) (d : Dev) : (testEnded f c pass d).flock f =
    { d.flock f with testing := (d.flock f).testing.erase c, bist := if pass then insNat c (d.flock f).bist else (d.flock f).bist.erase c } := by
  rw [testEnded, setBist, Dev.flock_updFlock_same, Dev.flock_updFlock_same]

theorem postOf_testEnded (f c : Nat) (pass : Bool) (d : Dev) : postOf (testEnded f c pass d) f c = postOf d f c := rfl
theorem spareCell_testEnded (f c : Nat) (pass : Bool) (d : Dev) : spareCell (testEnded f c pass d) f = spareCell d f := rfl

theorem retirements_testEnded (f c : Nat) (pass : Bool) (d : Dev) : retirements (testEnded f c pass d) f c = retirements d f c := by
  unfold retirements
  rw [flock_testEnded]
  rfl

theorem bist_testEnded (f c : Nat) (d : Dev) : ((testEnded f c true d).flock f).bist.contains c = true := by
  rw [flock_testEnded]
  simpa using (mem_insNat (l := (d.flock f).bist)).2 (.inl rfl)

theorem within_testEnded (f c : Nat) (pass : Bool) (d : Dev) : Within flockPart (fun _ => False) d (testEnded f c pass d) :=
  Within.trans (g := flockPart) (within_updFlock (g := flockPart) f _ d) (within_updFlock (g := flockPart) f _ _)

theorem flock_mapUnit (cls idx : Nat) (d : Dev) (f : Nat) : (mapUnit cls idx d).flock f = d.flock f := rfl

/-- A cell in the repair map. -/
theorem mapCell_notes (f c : Nat) (d : Dev) : ((mapCell f c d).flock f).mapped.contains c = true ∧
    (mapCell f c d).repairs.contains (1, 16 * f + c) = true ∧ spareCell (mapCell f c d) f = spareCell d f := by
  obtain ⟨e, he⟩ : ∃ e, mapUnit 1 (cellIndex f c) (d.updFlock f (fun x => { x with mapped := insNat c x.mapped })) = e := ⟨_, rfl⟩
  have hlog := within_faultLog 1 7 (cellIndex f c) 13 (guardResult e f) (cellAux e f) e
  have hflock : (e.flock f).mapped = insNat c (d.flock f).mapped := by
    rw [← he, flock_mapUnit, Dev.flock_updFlock_same]
  unfold mapCell
  dsimp only
  rw [he]
  refine ⟨?_, ?_, ?_⟩
  · rw [hlog.flock_of_logPart, hflock]
    simpa using (mem_insNat (l := (d.flock f).mapped)).2 (.inl rfl)
  · rw [hlog.repairs_of_logPart, ← he, mapUnit]
    dsimp only
    split
    next h => exact h
    next => simp [cellIndex]
  · rw [spareCell_congr (hlog.2 _ (not_logReg_flockStatus f)), ← he]
    rfl

section
variable {f c p : Nat} {d : Dev} (h : (d.flock f).testing.contains c = true)
include h

theorem cellTestDone_ready (hpost : postOf d f c = none) (hret : retirements d f c < 3) (hs : spareCell d f ≠ 15) :
    cellTestDone f c true d = (testEnded f c true d).updFlock f (fun x => { x with ready := insNat c x.ready }) := by
  rw [← postOf_testEnded f c true] at hpost
  rw [← retirements_testEnded f c true] at hret
  rw [← spareCell_testEnded f c true] at hs
  rw [cellTestDone, if_pos h]
  unfold testEnded at hpost hret hs ⊢
  dsimp only
  rw [hpost]
  dsimp only
  rw [if_neg (by simpa using hret), if_neg hs]

theorem cellTestDone_spare (hpost : postOf d f c = none) (hret : retirements d f c < 3) (hs : spareCell d f = 15) :
    cellTestDone f c true d = takeoverNext f (spareAgain f c (testEnded f c true d)) := by
  rw [← postOf_testEnded f c true] at hpost
  rw [← retirements_testEnded f c true] at hret
  rw [← spareCell_testEnded f c true] at hs
  rw [cellTestDone, if_pos h]
  unfold testEnded at hpost hret hs ⊢
  dsimp only
  rw [hpost]
  dsimp only
  rw [if_neg (by simpa using hret), if_pos hs]

theorem cellTestDone_mapped {pass : Bool} (hpost : postOf d f c = none) (hret : pass = false ∨ 3 ≤ retirements d f c) :
    cellTestDone f c pass d = mapCell f c (testEnded f c pass d) := by
  rw [← postOf_testEnded f c pass] at hpost
  rw [← retirements_testEnded f c pass] at hret
  rw [cellTestDone, if_pos h]
  unfold testEnded at hpost hret ⊢
  dsimp only
  rw [hpost]
  dsimp only
  rw [if_pos (by simpa using hret)]

theorem cellTestDone_sparePost {pass : Bool} (hpost : postOf d f c = some 8) :
    cellTestDone f c pass d = if pass then testEnded f c pass d else mapCell f c (spendSpare f (testEnded f c pass d)) := by
  rw [← postOf_testEnded f c pass] at hpost
  rw [cellTestDone, if_pos h]
  unfold testEnded at hpost ⊢
  dsimp only
  rw [hpost]
  rfl

theorem cellTestDone_post {pass : Bool} (hp : p < 8) (hpost : postOf d f c = some p) : cellTestDone f c pass d =
    if pass then (testEnded f c pass d).wr (Reg.CELL_GEN f p) (d.rd Reg.GLOBAL_GEN)
    else retireCell f c (dropPost f p (clearPost f p (testEnded f c pass d))) := by
  rw [← postOf_testEnded f c pass] at hpost
  rw [cellTestDone, if_pos h]
  unfold testEnded at hpost ⊢
  dsimp only
  rw [hpost]
  split
  next heq => simp at heq
  next heq => simp at heq; omega
  next heq =>
    obtain rfl := Option.some.inj heq
    rfl

end

/-- The post of a cell that fails has none. -/
theorem dropPost_notes {f p : Nat} (_hf : f < 16) (hp : p < 8) (d : Dev) : postCell (dropPost f p d) f p = 15 ∧
    (dropPost f p d).bit (Reg.NOCELL (f / 4)) (8 * (f % 4) + p) = true := by
  have hne : Reg.POST_MAP f ≠ Reg.NOCELL (f / 4) := by unfold Reg.POST_MAP Reg.NOCELL; omega
  refine ⟨?_, Dev.bit_setBit_same _ _ (by omega)⟩
  rw [dropPost, postCell_congr (Dev.rd_setBit_ne _ _ hne), postCell_setPostCell_same hp (by decide)]

/-! ### The clauses of the self-test -/

section
variable {s : State} {f : Fin 16} {c : Fin 9} (h : (s.dev.flock f).testing.contains c.val = true)
include h

theorem gives_selftest_spare (hpost : postOf s.dev f c = none) (hret : retirements s.dev f c < 3) :
    Gives (.cellSelftestDone f c true) s (fun t => (t.dev.flock f).bist.contains c.val = true ∧
      (if spareCell s.dev f = 15 then spareCell t.dev f = c.val ∧ t.dev.bit (Reg.FLOCK_STATUS f) 8 = false
      else spareCell t.dev f = spareCell s.dev f ∧ (t.dev.flock f).ready.contains c.val = true) ∧ SameMem s t ∧ t.pending = s.pending) := by
  split
  next hs =>
    have hspare : SpareIs f c (spareAgain f c (testEnded f c true s.dev)) := spareIs_spareAgain f (by omega) _
    obtain ⟨hbist, hcell, hguard⟩ := spareStands_takeoverNext f (spareAgain f c (testEnded f c true s.dev))
    refine gives_of_upd (exec_cellSelftestDone f c true s) (cellTestDone_spare h hpost hret hs)
      ⟨?_, ⟨hcell.trans hspare.1, hguard.trans hspare.2⟩, rfl, rfl⟩
    rw [hbist, flock_spareAgain]
    exact bist_testEnded f c s.dev
  next hs =>
    refine gives_of_upd (exec_cellSelftestDone f c true s) (cellTestDone_ready h hpost hret hs) ⟨?_, ⟨rfl, ?_⟩, rfl, rfl⟩
    · rw [Dev.flock_updFlock_same]
      exact bist_testEnded f c s.dev
    · rw [Dev.flock_updFlock_same]
      simpa using (mem_insNat (l := ((testEnded f c true s.dev).flock f).ready)).2 (.inl rfl)

theorem gives_selftest_mapped (pass : Bool) (hpost : postOf s.dev f c = none) (hret : pass = false ∨ 3 ≤ retirements s.dev f c) :
    Gives (.cellSelftestDone f c pass) s (fun t => (t.dev.flock f).mapped.contains c.val = true ∧
      t.dev.repairs.contains (1, 16 * f.val + c.val) = true ∧ spareCell t.dev f = spareCell s.dev f ∧ SameMem s t ∧ t.pending = s.pending) := by
  obtain ⟨hmapped, hrep, hspare⟩ := mapCell_notes f c (testEnded f c pass s.dev)
  exact gives_of_upd (exec_cellSelftestDone f c pass s) (cellTestDone_mapped h hpost hret) ⟨hmapped, hrep, hspare, rfl, rfl⟩

theorem gives_selftest_sparePass (hpost : postOf s.dev f c = some 8) :
    Gives (.cellSelftestDone f c true) s (fun t => (t.dev.flock f).bist.contains c.val = true ∧
      Leaves (fun d e => { d with flocks := e.flocks }) (fun _ => False) s t) := by
  refine gives_of_upd (exec_cellSelftestDone f c true s) ((cellTestDone_sparePost h hpost).trans (if_pos rfl)) ⟨bist_testEnded f c s.dev, rfl, rfl, ?_, fun o _ => rfl⟩
  exact (within_testEnded f c true s.dev).1

theorem gives_selftest_spareFail (hpost : postOf s.dev f c = some 8) :
    Gives (.cellSelftestDone f c false) s (fun t => (t.dev.flock f).mapped.contains c.val = true ∧
      t.dev.repairs.contains (1, 16 * f.val + c.val) = true ∧ ((s.dev.flock f).ready = [] → spareCell t.dev f = 15) ∧
      SameMem s t ∧ t.pending = s.pending) := by
  have hrun := (cellTestDone_sparePost (pass := false) h hpost).trans (if_neg Bool.false_ne_true)
  have hspent := spareSpent_spendSpare f (testEnded f c false s.dev)
  rw [show ((testEnded f c false s.dev).flock f).ready = (s.dev.flock f).ready by rw [flock_testEnded]] at hspent
  generalize spendSpare f (testEnded f c false s.dev) = e at hrun hspent
  obtain ⟨hmapped, hrep, hspare⟩ := mapCell_notes f c e
  exact gives_of_upd (exec_cellSelftestDone f c false s) hrun ⟨hmapped, hrep, fun hready => hspare.trans (hspent.1 hready).1, rfl, rfl⟩

theorem gives_selftest_postPass {p : Nat} (hp : p < 8) (hpost : postOf s.dev f c = some p) :
    Gives (.cellSelftestDone f c true) s (fun t => t.dev.rd (Reg.CELL_GEN f p) = s.dev.rd Reg.GLOBAL_GEN ∧
      Leaves (fun d e => { d with regs := e.regs, flocks := e.flocks }) (· = Reg.CELL_GEN f p) s t) := by
  have hleft := ((within_testEnded f c true s.dev).mono fun _ => False.elim).trans
    (within_wr (g := flockPart) (p := (· = Reg.CELL_GEN f p)) rfl (s.dev.rd Reg.GLOBAL_GEN) (testEnded f c true s.dev))
  exact gives_of_upd (exec_cellSelftestDone f c true s) ((cellTestDone_post h hp hpost).trans (if_pos rfl)) ⟨Dev.rd_wr_same .., rfl, rfl, hleft⟩

theorem gives_selftest_postFail {p : Nat} (hp : p < 8) (hpost : postOf s.dev f c = some p) :
    Gives (.cellSelftestDone f c false) s (fun t => postCell t.dev f p = 15 ∧ t.dev.bit (Reg.NOCELL (f / 4)) (8 * (f % 4) + p) = true ∧
      (t.dev.flock f).testing.contains c.val = true ∧ SameMem s t ∧ t.pending = s.pending) := by
  obtain ⟨hcell, hbit⟩ := dropPost_notes f.isLt hp (clearPost f p (testEnded f c false s.dev))
  refine gives_of_upd (exec_cellSelftestDone f c false s) ((cellTestDone_post h hp hpost).trans (if_neg Bool.false_ne_true)) ⟨hcell, hbit, ?_, rfl, rfl⟩
  rw [testing_retireCell]
  simpa using mem_insNat.2 (.inl rfl)

end

end Sys2Proof.Machine

/-! PROOFS. The timers of handoffs and of tests (O27). -/
namespace Sys2Proof.Machine

-- One proof after another: proofs that wait for the kernel at once would take more threads than the check's memory holds.
set_option Elab.async false

/-- A fold each of whose steps does its part, where what is done stays done. -/
theorem foldl_done {σ β : Type} {R : σ → σ → Prop} (hrefl : ∀ d, R d d) (htrans : ∀ {d e x}, R d e → R e x → R d x) {D : β → σ → Prop}
    (hD : ∀ b e x, R e x → D b e → D b x) (f : σ → β → σ) (l : List β) (d : σ)
    (hf : ∀ b ∈ l, ∀ e, R d e → R e (f e b) ∧ D b (f e b)) : R d (l.foldl f d) ∧ ∀ b ∈ l, D b (l.foldl f d) := by
  induction l generalizing d with
  | nil => exact ⟨hrefl d, nofun⟩
  | cons b l ih =>
    obtain ⟨hstep, hdone⟩ := hf b (by simp) d (hrefl d)
    obtain ⟨hrest, hall⟩ := ih (f d b) fun c hc e he => hf c (List.mem_cons_of_mem b hc) e (htrans hstep he)
    exact ⟨htrans hstep hrest, List.forall_mem_cons.2 ⟨hD b _ _ hrest hdone, hall⟩⟩

theorem forN_done {σ : Type} {R : σ → σ → Prop} (hrefl : ∀ d, R d d) (htrans : ∀ {d e x}, R d e → R e x → R d x) {D : Nat → σ → Prop}
    (hD : ∀ i e x, R e x → D i e → D i x) (n : Nat) (d : σ) (f : Nat → σ → σ)
    (hf : ∀ i < n, ∀ e, R d e → R e (f i e) ∧ D i (f i e)) : R d (forN n d f) ∧ ∀ i < n, D i (forN n d f) := by
  obtain ⟨hall, hdone⟩ := foldl_done hrefl htrans hD (fun e i => f i e) (List.range n) d fun i hi => hf i (List.mem_range.1 hi)
  exact ⟨hall, fun i hi => hdone i (List.mem_range.2 hi)⟩

/-! ### Handoffs (R272, R280) -/

theorem exec_roveTimer (s : State) : exec .roveTimer s = .next (s.upd roveTimer) := rfl

theorem roveTimer_idle {d : Dev} (h : d.bit Reg.ROVE_CTRL 0 = false) : roveTimer d = d := by
  rw [roveTimer, if_neg (by rw [h]; decide)]

/-- A handoff is asked of a flock that serves a head. -/
def roveFlock (f : Nat) (d : Dev) : Dev := if flockHead d f < 8 then d.updFlock f (fun x => { x with rove := true }) else d

/-- The state in which the flocks are asked: the time has come, and the voice slices have been asked. -/
def roveDue (d : Dev) : Dev := { d with roveAt := d.clk, au := { d.au with rove := true } }

theorem roveTimer_on {d : Dev} (h : d.bit Reg.ROVE_CTRL 0 = true) :
    roveTimer d = forN 16 (roveDue (d.passClk (d.roveAt + d.fld Reg.ROVE_CTRL 15 8 * 60000000000))) roveFlock := by
  rw [roveTimer, if_pos h]
  rfl

/-- No register changes, and a handoff that was asked of a flock still is. -/
def Asked (d e : Dev) : Prop :=
  { e with flocks := d.flocks } = d ∧ ∀ f, (d.flock f).rove = true → (e.flock f).rove = true

theorem Asked.refl (d : Dev) : Asked d d := ⟨rfl, fun _ h => h⟩
theorem Asked.trans {d e x : Dev} (h : Asked d e) (k : Asked e x) : Asked d x :=
  ⟨(congrArg (fun y : Dev => { y with flocks := d.flocks }) k.1).trans h.1, fun f hf => k.2 f (h.2 f hf)⟩
theorem Asked.rd {d e : Dev} (h : Asked d e) (o : Nat) : e.rd o = d.rd o := (congrArg (fun y : Dev => y.rd o) h.1 :)

theorem asked_roveFlock (f : Nat) (d : Dev) : Asked d (roveFlock f d) ∧ (flockHead d f < 8 → ((roveFlock f d).flock f).rove = true) := by
  unfold roveFlock
  split
  next =>
    refine ⟨⟨rfl, fun g hg => ?_⟩, fun _ => by rw [Dev.flock_updFlock_same]⟩
    by_cases hgf : g = f
    · rw [hgf, Dev.flock_updFlock_same]
    · rw [Dev.flock_updFlock_ne _ _ hgf, hg]
  next hidle => exact ⟨.refl d, fun h => absurd h hidle⟩

theorem asked_roveFlocks (d : Dev) : Asked d (forN 16 d roveFlock) ∧ ∀ f < 16, flockHead d f < 8 → ((forN 16 d roveFlock).flock f).rove = true := by
  refine forN_done (R := Asked) .refl .trans (D := fun f e => flockHead d f < 8 → (e.flock f).rove = true) (fun f e x hx h hf => hx.2 f (h hf)) 16 d roveFlock ?_
  intro f _ e he
  obtain ⟨hstep, hdone⟩ := asked_roveFlock f e
  exact ⟨hstep, fun hf => hdone (by rwa [flockHead, Dev.fld_congr (he.rd _)])⟩

/-- The die with what the timer of handoffs changes of another. -/
def rovePart (e d : Dev) : Dev :=
  { e with flocks := d.flocks, au := { e.au with rove := d.au.rove }, ht := d.ht, clk := d.clk, roveAt := d.roveAt }

/-- What the timer makes of the die once the time has come. -/
theorem roveFlocks_notes {d e : Dev} {n : Nat} (he : Passed d n e) :
    (∀ f < 16, flockHead d f < 8 → ((forN 16 (roveDue e) roveFlock).flock f).rove = true) ∧
      (forN 16 (roveDue e) roveFlock).au.rove = true ∧ (forN 16 (roveDue e) roveFlock).clk = max d.clk n ∧
      (forN 16 (roveDue e) roveFlock).roveAt = (forN 16 (roveDue e) roveFlock).clk ∧
      Within rovePart (fun _ => False) d (forN 16 (roveDue e) roveFlock) := by
  obtain ⟨htime, hclk⟩ := he
  have hrd (o : Nat) : (roveDue e).rd o = d.rd o := (congrArg (fun y : Dev => y.rd o) htime :)
  obtain ⟨hasked, hdone⟩ := asked_roveFlocks (roveDue e)
  generalize forN 16 (roveDue e) roveFlock = x at hasked hdone
  have hau : x.au.rove = true := (congrArg (fun y : Dev => y.au.rove) hasked.1 :)
  have hxclk : x.clk = e.clk := (congrArg Dev.clk hasked.1 :)
  have hxrove : x.roveAt = e.clk := (congrArg Dev.roveAt hasked.1 :)
  refine ⟨fun f hf hh => hdone f hf ?_, hau, hxclk.trans hclk, hxrove.trans hxclk.symm, ?_, fun o _ => (hasked.rd o).trans (hrd o)⟩
  · rwa [flockHead, Dev.fld_congr (hrd _)]
  · exact (congrArg (fun y => rovePart y d) hasked.1).trans (congrArg (fun y => rovePart y d) htime :)

theorem gives_roveTimer {s : State} {n : Nat} (h : s.dev.bit Reg.ROVE_CTRL 0 = true)
    (hn : s.dev.roveAt + s.dev.fld Reg.ROVE_CTRL 15 8 * 60000000000 = n) :
    Gives .roveTimer s (fun t => (∀ f < 16, flockHead s.dev f < 8 → (t.dev.flock f).rove = true) ∧ t.dev.au.rove = true ∧
      t.dev.clk = max s.dev.clk n ∧ t.dev.roveAt = t.dev.clk ∧ Leaves rovePart (fun _ => False) s t) := by
  have hrun := roveTimer_on h
  rw [hn] at hrun
  have hnotes := roveFlocks_notes (passed_passClk s.dev n)
  generalize forN 16 (roveDue (s.dev.passClk n)) roveFlock = x at hrun hnotes
  obtain ⟨hdone, hau, hclk, hrove, hpart⟩ := hnotes
  exact gives_of_upd (exec_roveTimer s) hrun ⟨hdone, hau, hclk, hrove, rfl, rfl, hpart⟩

/-! ### Tests of spares (R272, R281) -/

theorem exec_spareTestTimer (s : State) : exec .spareTestTimer s = .next (s.upd spareTest) := rfl

/-- A stamp of a cell. -/
def StampOfCell (o : Nat) : Prop := ∃ f < 16, ∃ p < 9, o = Reg.CELL_GEN f p

/-- Tests of cells have started: registers but the stamps stay, no takeover changes, and a cell that ran its test runs it on. -/
def CellsTested (d e : Dev) : Prop :=
  Within flockPart StampOfCell d e ∧ ∀ f, (e.flock f).takeover = (d.flock f).takeover ∧ ∀ c ∈ (d.flock f).testing, c ∈ (e.flock f).testing

theorem CellsTested.refl (d : Dev) : CellsTested d d := ⟨.refl d, fun _ => ⟨rfl, fun _ h => h⟩⟩
theorem CellsTested.trans {d e x : Dev} (h : CellsTested d e) (k : CellsTested e x) : CellsTested d x :=
  ⟨h.1.trans k.1, fun f => ⟨(k.2 f).1.trans (h.2 f).1, fun c hc => (k.2 f).2 c ((h.2 f).2 c hc)⟩⟩

theorem postOf_lt {d : Dev} {f c p : Nat} (h : postOf d f c = some p) : p < 9 := by
  unfold postOf at h
  split at h
  next q hq =>
    obtain rfl := Option.some.inj h
    exact Nat.lt_succ_of_lt (List.mem_range.1 (List.mem_of_find?_eq_some hq))
  next =>
    split at h
    · obtain rfl := Option.some.inj h
      decide
    · cases h

theorem cellsTested_wr {o : Nat} (ho : StampOfCell o) (v : Word) (d : Dev) : CellsTested d (d.wr o v) :=
  ⟨within_wr ho v d, fun f => by rw [Dev.flock_wr]; exact ⟨rfl, fun _ h => h⟩⟩

theorem cellsTested_startCellTest {f : Nat} (hf : f < 16) (c : Nat) (d : Dev) :
    CellsTested d (startCellTest f c d) ∧ c ∈ ((startCellTest f c d).flock f).testing := by
  have hstart : CellsTested d (d.updFlock f (fun x => { x with testing := insNat c x.testing })) := by
    refine ⟨within_updFlock f _ d, fun g => ?_⟩
    by_cases hg : g = f
    · subst hg
      rw [Dev.flock_updFlock_same]
      exact ⟨rfl, fun k hk => mem_insNat.2 (.inr hk)⟩
    · rw [Dev.flock_updFlock_ne _ _ hg]
      exact ⟨rfl, fun _ hk => hk⟩
  have hmem : c ∈ ((d.updFlock f (fun x => { x with testing := insNat c x.testing })).flock f).testing := by
    rw [Dev.flock_updFlock_same]
    exact mem_insNat.2 (.inl rfl)
  unfold startCellTest
  dsimp only
  generalize d.updFlock f (fun x => { x with testing := insNat c x.testing }) = e at hstart hmem
  split
  next p hp => exact ⟨hstart.trans (cellsTested_wr ⟨f, hf, p, postOf_lt hp, rfl⟩ 0 e), by rwa [Dev.flock_wr]⟩
  next => exact ⟨hstart, hmem⟩

/-- The cells of a list start their tests. -/
theorem cellsTested_foldl {f : Nat} (hf : f < 16) (l : List Nat) (d : Dev) :
    CellsTested d (l.foldl (fun d c => startCellTest f c d) d) ∧ ∀ c ∈ l, c ∈ ((l.foldl (fun d c => startCellTest f c d) d).flock f).testing :=
  foldl_done (R := CellsTested) .refl .trans (D := fun c e => c ∈ (e.flock f).testing) (fun c _ _ hx hc => (hx.2 f).2 c hc) _ l d
    fun c _ e _ => cellsTested_startCellTest hf c e

/-! ### Which cells a periodic test takes -/

theorem not_stampOfCell {o : Nat} (h : ∀ f, ∀ p < 9, o ≠ Reg.CELL_GEN f p) : ¬ StampOfCell o := fun ⟨f, _, p, hp, ho⟩ => h f p hp ho

section
variable {d e : Dev} (h : CellsTested d e)
include h

theorem CellsTested.kindOf (f : Nat) : Machine.kindOf e f = Machine.kindOf d f :=
  funext fun p => kindOf_congr (h.1.2 _ (not_stampOfCell fun f' p' _ => (cellGen_ne_cellStatus f' p' f p).symm))

theorem CellsTested.postCell (f : Nat) : Machine.postCell e f = Machine.postCell d f :=
  funext fun p => postCell_congr (h.1.2 _ (not_stampOfCell fun f' p' hp => by unfold Reg.POST_MAP Reg.CELL_GEN; omega)) p

theorem CellsTested.spareCell (f : Nat) : Machine.spareCell e f = Machine.spareCell d f :=
  spareCell_congr (h.1.2 _ (not_stampOfCell fun f' p' hp => by unfold Reg.FLOCK_STATUS Reg.CELL_GEN; omega))

theorem CellsTested.lendDepth : Machine.lendDepth e = Machine.lendDepth d :=
  congrArg (4 * ·) (Dev.fld_congr (h.1.2 _ (not_stampOfCell fun f' p' hp => by unfold Reg.MODE Reg.CELL_GEN; omega)) 7 6)

theorem CellsTested.owesWork (f p : Nat) : Machine.owesWork e f p = Machine.owesWork d f p := by
  have hvideo : videoPosts e f = videoPosts d f := by rw [videoPosts, h.kindOf, videoPosts]
  unfold Machine.owesWork isLender lenders offPosts
  rw [hvideo, h.kindOf, h.lendDepth]

theorem CellsTested.testCells (f : Nat) : Machine.testCells e f = Machine.testCells d f := by
  unfold Machine.testCells
  simp only [h.spareCell, h.postCell, h.owesWork, (h.2 f).1]

end

theorem cellsTested_flocks (d : Dev) :
    CellsTested d (forN 16 d fun f d => (testCells d f).foldl (fun d c => startCellTest f c d) d) ∧
      ∀ f < 16, ∀ c ∈ testCells d f, c ∈ ((forN 16 d fun f d => (testCells d f).foldl (fun d c => startCellTest f c d) d).flock f).testing := by
  refine forN_done (R := CellsTested) .refl .trans (D := fun f e => ∀ c ∈ testCells d f, c ∈ (e.flock f).testing)
    (fun f _ _ hx hall c hc => (hx.2 f).2 c (hall c hc)) 16 d _ fun f hf e he => ?_
  rw [← he.testCells f]
  exact cellsTested_foldl hf (testCells e f) e

/-! ### Tests of units -/

/-- Tests of units have started, and nothing else has changed. -/
def UnitsTested (d e : Dev) : Prop := { e with testing := d.testing } = d ∧ ∀ u ∈ d.testing, u ∈ e.testing

theorem UnitsTested.refl (d : Dev) : UnitsTested d d := ⟨rfl, fun _ h => h⟩
theorem UnitsTested.trans {d e x : Dev} (h : UnitsTested d e) (k : UnitsTested e x) : UnitsTested d x :=
  ⟨(congrArg (fun y : Dev => { y with testing := d.testing }) k.1).trans h.1, fun u hu => k.2 u (h.2 u hu)⟩
theorem UnitsTested.sparesOf {d e : Dev} (h : UnitsTested d e) (cls : Nat) : Machine.sparesOf e cls = Machine.sparesOf d cls :=
  (congrArg (fun y : Dev => Machine.sparesOf y cls) h.1 :)

theorem unitsTested_startTest (cls i : Nat) (d : Dev) : UnitsTested d (startTest cls i d) ∧ (cls, i) ∈ (startTest cls i d).testing := by
  unfold startTest
  dsimp only
  split
  next h => exact ⟨.refl d, by simpa using h⟩
  next => exact ⟨⟨rfl, fun u hu => List.mem_append_left _ hu⟩, by simp⟩

theorem unitsTested_class (cls : Nat) (l : List Nat) (d : Dev) :
    UnitsTested d (l.foldl (fun d i => startTest cls i d) d) ∧ ∀ i ∈ l, (cls, i) ∈ (l.foldl (fun d i => startTest cls i d) d).testing :=
  foldl_done (R := UnitsTested) .refl .trans (D := fun i e => (cls, i) ∈ e.testing) (fun _ _ _ hx hi => hx.2 _ hi) _ l d
    fun i _ e _ => unitsTested_startTest cls i e

/-- Each spare of the classes starts its test. -/
def testUnits (classes : List Nat) (d : Dev) : Dev := classes.foldl (fun d cls => (sparesOf d cls).foldl (fun d i => startTest cls i d) d) d

theorem unitsTested_testUnits (classes : List Nat) (d : Dev) :
    UnitsTested d (testUnits classes d) ∧ ∀ cls ∈ classes, ∀ i ∈ sparesOf d cls, (cls, i) ∈ (testUnits classes d).testing := by
  refine foldl_done (R := UnitsTested) .refl .trans (D := fun cls e => ∀ i ∈ sparesOf d cls, (cls, i) ∈ e.testing)
    (fun _ _ _ hx hall i hi => hx.2 _ (hall i hi)) _ classes d fun cls _ e he => ?_
  rw [← he.sparesOf cls]
  exact unitsTested_class cls (sparesOf e cls) e

/-! ### The timer of tests -/

/-- Every cell and unit to be tested starts its test, the time of the tests being noted. -/
def testsDue (d : Dev) : Dev := { d with testAt := d.clk }

theorem spareTest_eq (d : Dev) : spareTest d =
    testUnits [2, 3, 4, 5, 6, 9] (forN 16 (testsDue (d.passClk (d.testAt + d.fld Reg.ROVE_CTRL 23 16 * 60000000000)))
      fun f d => (testCells d f).foldl (fun d c => startCellTest f c d) d) := rfl

/-- The die with what the timer of tests changes of another. -/
def testPart (e d : Dev) : Dev :=
  { e with regs := d.regs, flocks := d.flocks, testing := d.testing, ht := d.ht, clk := d.clk, testAt := d.testAt }

/-- The spare of a flock is tested when no takeover needs it. -/
theorem spare_mem_testCells {d : Dev} {f : Nat} (hs : spareCell d f ≠ 15) (ht : (d.flock f).takeover = none) : spareCell d f ∈ testCells d f := by
  unfold testCells
  rw [if_pos (by simp [hs, ht])]
  exact List.mem_append_left _ (List.mem_singleton.2 rfl)

/-- The cell of a post that owes no work is tested. -/
theorem post_mem_testCells {d : Dev} {f p : Nat} (hp : p < 8) (hw : owesWork d f p = false) (hc : postCell d f p ≠ 15) :
    postCell d f p ∈ testCells d f := by
  refine List.mem_append_right _ (List.mem_filterMap.2 ⟨p, List.mem_range.2 hp, ?_⟩)
  rw [if_pos (by simp [hw, hc])]

/-- What the timer makes of the die once the time has come. -/
theorem spareTest_notes {d e x y : Dev} {n : Nat} (he : Passed d n e) (hx : CellsTested (testsDue e) x)
    (hall : ∀ f < 16, ∀ c ∈ testCells (testsDue e) f, c ∈ (x.flock f).testing) (hy : UnitsTested x y)
    (hunits : ∀ cls ∈ ([2, 3, 4, 5, 6, 9] : List Nat), ∀ i ∈ sparesOf x cls, (cls, i) ∈ y.testing) :
    y.clk = max d.clk n ∧ (∀ f < 16, ∀ c ∈ testCells d f, c ∈ (y.flock f).testing) ∧
      (∀ cls ∈ ([2, 3, 4, 5, 6, 9] : List Nat), ∀ i ∈ sparesOf d cls, (cls, i) ∈ y.testing) ∧ Within testPart StampOfCell d y := by
  obtain ⟨htime, hclk⟩ := he
  obtain ⟨hpart, hregs⟩ := hx.1
  have hcells (f : Nat) : testCells (testsDue e) f = testCells d f := (congrArg (fun z : Dev => testCells z f) htime :)
  have hspares (cls : Nat) : sparesOf x cls = sparesOf d cls :=
    (congrArg (fun z : Dev => sparesOf z cls) hpart).trans (congrArg (fun z : Dev => sparesOf z cls) htime :)
  have hyclk : y.clk = e.clk := (congrArg Dev.clk hy.1 :).trans (congrArg Dev.clk hpart :)
  refine ⟨hyclk.trans hclk, fun f hf c hc => ?_, fun cls hcls i hi => hunits cls hcls i ?_, ?_, fun o ho => ?_⟩
  · rw [show y.flock f = x.flock f from (congrArg (fun z : Dev => z.flock f) hy.1 :)]
    exact hall f hf c (by rwa [hcells])
  · rwa [hspares]
  · have hyx : testPart y d = testPart x d := (congrArg (fun z => testPart z d) hy.1 :)
    have hxe : testPart x d = testPart e d := (congrArg (fun z => testPart z d) hpart :)
    exact (hyx.trans hxe).trans (congrArg (fun z => testPart z d) htime :)
  · have hyx : y.rd o = x.rd o := (congrArg (fun z : Dev => z.rd o) hy.1 :)
    exact (hyx.trans (hregs o ho)).trans (congrArg (fun z : Dev => z.rd o) htime :)

theorem gives_spareTestTimer {s : State} {n : Nat} (hn : s.dev.testAt + s.dev.fld Reg.ROVE_CTRL 23 16 * 60000000000 = n) :
    Gives .spareTestTimer s (fun t => t.dev.clk = max s.dev.clk n ∧
      (∀ f < 16, spareCell s.dev f ≠ 15 → (s.dev.flock f).takeover = none → (t.dev.flock f).testing.contains (spareCell s.dev f) = true) ∧
      (∀ f < 16, ∀ p < 8, owesWork s.dev f p = false → postCell s.dev f p ≠ 15 → (t.dev.flock f).testing.contains (postCell s.dev f p) = true) ∧
      (∀ cls ∈ ([2, 3, 4, 5, 6, 9] : List Nat), ∀ i ∈ sparesOf s.dev cls, t.dev.testing.contains (cls, i) = true) ∧
      Leaves testPart StampOfCell s t) := by
  have hrun := spareTest_eq s.dev
  rw [hn] at hrun
  obtain ⟨hx, hall⟩ := cellsTested_flocks (testsDue (s.dev.passClk n))
  generalize forN 16 (testsDue (s.dev.passClk n)) (fun f d => (testCells d f).foldl (fun d c => startCellTest f c d) d) = x at hrun hx hall
  obtain ⟨hy, hunits⟩ := unitsTested_testUnits [2, 3, 4, 5, 6, 9] x
  obtain ⟨hclk, hcells, hspares, hpart⟩ := spareTest_notes (passed_passClk s.dev n) hx hall hy hunits
  generalize testUnits [2, 3, 4, 5, 6, 9] x = y at hrun hclk hcells hspares hpart
  refine gives_of_upd (exec_spareTestTimer s) hrun ⟨hclk, fun f hf hs ht => ?_, fun f hf p hp hw hc => ?_, fun cls hcls i hi => ?_, rfl, rfl, hpart⟩
  · exact List.contains_iff_mem.2 (hcells f hf _ (spare_mem_testCells hs ht))
  · exact List.contains_iff_mem.2 (hcells f hf _ (post_mem_testCells hp hw hc))
  · exact List.contains_iff_mem.2 (hspares cls hcls i hi)

/-! ### The obligation -/

/-- Settles O27: the probe by its four outcomes, the self-test by the post that the cell holds, and the timers by folds over flocks and classes
each of whose steps does its part. -/
theorem probesAndCellTestsDecide : Obligations.ProbesAndCellTestsDecide := by
  unfold Obligations.ProbesAndCellTestsDecide
  refine ⟨fun s f p a b hprobe hp hp8 => ?_, fun s f a b h => gives_same (exec_shadowProbeDone f a b s) (probeDone_idle h a b),
    fun s f c h => ⟨gives_selftest_spare h, gives_selftest_mapped h,
      fun hpost => ⟨gives_selftest_sparePass h hpost, gives_selftest_spareFail h hpost⟩,
      fun p hp hpost => ⟨gives_selftest_postPass h hp hpost, gives_selftest_postFail h hp hpost⟩⟩,
    fun s f c pass h => gives_same (exec_cellSelftestDone f c pass s) (cellTestDone_idle h pass),
    fun s h => gives_roveTimer h rfl, fun s h => gives_same (exec_roveTimer s) (roveTimer_idle h), fun s => gives_spareTestTimer rfl⟩
  rw [and_probeGood]
  cases ha : a && probeGood s.dev f <;> cases hb : b && probeGood s.dev f
  · exact gives_probe_bothWrong hprobe hp hp8 ha hb
  · exact gives_probe_postWrong hprobe hp hp8 ha hb
  · exact gives_probe_spareWrong hprobe hp hp8 ha hb
  · exact gives_probe_benign hprobe hp hp8 ha hb

end Sys2Proof.Machine

/-! PROOFS. The build of a line leaves the bytes of the memories (O14). -/
namespace Sys2Proof.Machine

-- One proof after another: proofs that wait for the kernel at once would take more threads than the check's memory holds.
set_option Elab.async false

/-- A build reads memory, and leaves its bytes. -/
def Built (b c : Bld) : Prop := SameBytes b.s c.s

theorem Built.refl (b : Bld) : Built b b := SameBytes.refl b.s
theorem Built.trans {b c e : Bld} (h : Built b c) (k : Built c e) : Built b e := SameBytes.trans h k

/-- A result with the build after it. (A name of its own: the kernel would reduce a bare second component.) -/
def BuiltSnd {α : Type} (b : Bld) (r : α × Bld) : Prop := Built b r.2

theorem BuiltSnd.snd {α : Type} {b : Bld} {r : α × Bld} (h : BuiltSnd b r) : Built b r.2 := h
theorem BuiltSnd.mk {α : Type} {b c : Bld} (h : Built b c) (a : α) : BuiltSnd b (a, c) := h

/-! ### Fetches through the cache -/

theorem builtSnd_blockFetch (k : Nat) (b : Bld) : BuiltSnd b (blockFetch k b) := by
  have hread := (noted_fetch 0 (k * 64) 64 b.s).1
  unfold blockFetch
  generalize fetch 0 (k * 64) 64 b.s = x at hread
  obtain ⟨found, s⟩ := x
  cases found with
  | fail => exact hread
  | poison bytes => exact hread
  | data bytes => exact hread

theorem built_cacheRoom (part : Nat) (b : Bld) : Built b (cacheRoom part b) := by
  unfold cacheRoom
  dsimp only
  split
  · exact .refl b
  · exact ⟨rfl, rfl, rfl, rfl⟩

theorem builtSnd_cacheFill (part k : Nat) (b : Bld) : BuiltSnd b (cacheFill part k b) := by
  have hlo := (noted_fetch 0 (k * 64) 32 b.s).1
  unfold cacheFill
  generalize fetch 0 (k * 64) 32 b.s = x at hlo
  obtain ⟨lo, s⟩ := x
  have hhi := (noted_fetch 0 (k * 64 + 32) 32 s).1
  dsimp only
  generalize fetch 0 (k * 64 + 32) 32 s = y at hhi
  obtain ⟨hi, t⟩ := y
  have hboth : SameBytes b.s t := SameBytes.trans hlo hhi
  dsimp only
  split
  · exact hboth.trans (built_cacheRoom part { b with s := t })
  · exact hboth
  · exact hboth

theorem builtSnd_cacheLine (part k : Nat) (b : Bld) : BuiltSnd b (cacheLine part k b) := by
  unfold cacheLine
  split
  · exact SameBytes.refl b.s
  · exact SameBytes.refl b.s
  · split
    next r c heq =>
      refine BuiltSnd.mk (c := { c with seen := r :: c.seen }) ?_ r
      have hc : BuiltSnd b (r, c) := by
        rw [← heq]
        split
        · exact .refl b
        · exact builtSnd_cacheFill part k b
      exact hc

theorem builtSnd_cacheLines (part n k : Nat) (b : Bld) : BuiltSnd b (cacheLines part n k b) := by
  induction n generalizing k b with
  | zero => exact .refl b
  | succ n ih =>
    have hone := builtSnd_cacheLine part k b
    unfold cacheLines
    generalize cacheLine part k b = x at hone
    obtain ⟨r, c⟩ := x
    exact Built.trans hone (ih (k + 1) c)

theorem builtSnd_cacheRead (part a n : Nat) (b : Bld) : BuiltSnd b (cacheRead part a n b) := by
  have hlines := builtSnd_cacheLines part ((a % 64 + n + 63) / 64) (a / 64) b
  unfold cacheRead
  generalize cacheLines part ((a % 64 + n + 63) / 64) (a / 64) b = x at hlines
  exact hlines

theorem builtSnd_blocks (n k : Nat) (b : Bld) : BuiltSnd b (blocks n k b) := by
  induction n generalizing k b with
  | zero => exact .refl b
  | succ n ih =>
    have hone := builtSnd_blockFetch k b
    unfold blocks
    generalize blockFetch k b = x at hone
    obtain ⟨r, c⟩ := x
    exact Built.trans hone (ih (k + 1) c)

/-! ### FRAME and VIDEO lines -/

/-! Where the kernel would compute an address, the `let`s of the definition are lifted, or the function called is made a variable first. -/

theorem builtSnd_buildFrame (f p l n w : Nat) (b : Bld) : BuiltSnd b (buildFrame f p l n w b) := by
  unfold buildFrame
  extract_lets -underBinder
  split
  · exact .refl b
  · split
    next bs c heq =>
      have hc : BuiltSnd b (bs, c) := by
        rw [← heq]
        exact builtSnd_blocks ..
      exact .mk hc.snd _

theorem builtSnd_planeRow (a n : Nat) (b : Bld) : BuiltSnd b (planeRow a n b) := by
  have hblocks := builtSnd_blocks
  unfold planeRow
  generalize blocks = g at hblocks ⊢
  exact .mk (hblocks _ _ b).snd _

theorem built_buildVideo (v : VidCfg) (r : Nat) (b : Bld) : Built b (buildVideo v r b).2.2 := by
  have hrow := builtSnd_planeRow
  unfold buildVideo
  generalize planeRow = g at hrow ⊢
  have hother {c : Prop} [Decidable c] (x : Option (List Byte)) (a n : Nat) (b : Bld) : BuiltSnd b (if c then (x, b) else g a n b) := by
    split
    · exact .mk (.refl b) x
    · exact hrow a n b
  have hall {c : Prop} [Decidable c] (x : Option (List Byte)) (a n a' n' a'' n'' : Nat) :=
    ((hrow a n b).snd.trans (hrow a' n' (g a n b).2).snd).trans (hother (c := c) x a'' n'' (g a' n' (g a n b).2).2).snd
  split
  · exact .refl b
  · dsimp only
    split <;> exact hall ..

/-! ### SPRITE lines -/

theorem built_lineOf (k : Nat) (m : List (Nat × List Fetched)) (b : Bld) : Built b (lineOf k m b).2.2 := by
  unfold lineOf
  split
  · exact .refl b
  · exact builtSnd_cacheLine 0 k b

theorem builtSnd_drawSprite (f p l n : Nat) (s : SprSel) (b : Bld) : BuiltSnd b (drawSprite f p l n s b) := by
  unfold drawSprite
  extract_lets -underBinder d e tz bpp sy0 sy row
  split
  next px used m c heq =>
    have hc : Built b (px, used, m, c).2.2.2 := by
      rw [← heq]
      refine forN_ind (fun r : List Px × List Fetched × List (Nat × List Fetched) × Bld => Built b r.2.2.2) _ _ _ (.refl b) fun i _ r hr => ?_
      extract_lets -underBinder
      split
      · exact hr
      · split
        next ws m' c' hline =>
          have hstep : Built r.2.2.2 (ws, m', c').2.2 := by
            rw [← hline]
            exact built_lineOf ..
          exact Built.trans hr hstep
    exact .mk hc _

theorem builtSnd_drawAll (f p l n : Nat) (sel : List SprSel) (b : Bld) : BuiltSnd b (drawAll f p l n sel b) := by
  induction sel generalizing b with
  | nil => exact .refl b
  | cons s sel ih =>
    have hone := builtSnd_drawSprite f p l n s b
    unfold drawAll
    generalize drawSprite f p l n s b = x at hone
    obtain ⟨r, c⟩ := x
    exact Built.trans hone (ih c)

theorem built_upd (u : Dev → Dev) (b : Bld) : Built b { b with s := b.s.upd u } := sameBytes_upd u b.s

theorem builtSnd_buildSprite (f p l n w frame : Nat) (ht : Option Nat) (b : Bld) : BuiltSnd b (buildSprite f p l n w frame ht b) := by
  have hdraw := builtSnd_drawAll
  unfold buildSprite
  generalize drawAll = g at hdraw ⊢
  dsimp only
  split
  · exact built_upd _ b
  · exact .mk ((hdraw ..).snd.trans (built_upd ..)) _

/-! ### TILE lines -/

theorem builtSnd_tileLine (f p l n : Nat) (b : Bld) : BuiltSnd b (tileLine f p l n b) := by
  have hread := builtSnd_cacheRead
  unfold tileLine
  generalize cacheRead = g at hread ⊢
  extract_lets -underBinder d c table
  split
  · extract_lets -underBinder
    split
    · split
      next r e heq =>
      have he : BuiltSnd b (r, e) := by
        rw [← heq]
        exact hread ..
      split
      · exact .mk he.snd _
      · exact .mk he.snd _
    · exact .mk (.refl b) _
  · exact .mk (.refl b) _
  · split
    next r e heq =>
    have he : BuiltSnd b (r, e) := by
      rw [← heq]
      exact hread ..
    split
    · exact .mk he.snd _
    · exact .mk he.snd _

/-- A result with the run over a line after it. -/
def BuiltRun {α : Type} (r : TileRun) (x : α × TileRun) : Prop := Built r.b x.2.b

theorem builtRun_tileCol (c : TileCfg) (k : Nat) (r : TileRun) : BuiltRun r (tileCol c k r) := by
  have hread (a n : Nat) := (builtSnd_cacheRead 1 a n r.b).snd
  unfold tileCol
  generalize cacheRead = g at hread ⊢
  extract_lets -underBinder
  split
  · split
    · exact Built.refl r.b
    · exact hread ..
  · exact hread ..

theorem builtRun_tileEntry (a : Nat) (r : TileRun) : BuiltRun r (tileEntry a r) := by
  have hread (n : Nat) := (builtSnd_cacheRead 1 a n r.b).snd
  unfold tileEntry
  generalize cacheRead = g at hread ⊢
  extract_lets -underBinder
  split
  · split
    · exact Built.refl r.b
    · exact hread ..
  · exact hread ..

theorem builtRun_tileRow (a n : Nat) (r : TileRun) : BuiltRun r (tileRow a n r) := by
  have hread := (builtSnd_cacheRead 0 a n r.b).snd
  unfold tileRow
  generalize cacheRead = g at hread ⊢
  extract_lets -underBinder
  split
  · split
    · exact Built.refl r.b
    · exact hread
  · exact hread

theorem builtRun_tilePixel (f p : Nat) (c : TileCfg) (e : Word) (px py : Nat) (r : TileRun) : BuiltRun r (tilePixel f p c e px py r) := by
  have hrow := builtRun_tileRow
  unfold tilePixel
  generalize tileRow = g at hrow ⊢
  extract_lets -underBinder
  split
  next x t heq =>
    have ht : BuiltRun r (x, t) := by
      rw [← heq]
      exact hrow ..
    split
    · exact ht
    · exact ht

theorem built_tileAt (f p l n : Nat) (c : TileCfg) (t : TileLine) (x : Nat) (r : TileRun) : Built r.b (tileAt f p l n c t x r).b := by
  have hcol := builtRun_tileCol
  have hentry := builtRun_tileEntry
  have hpixel := builtRun_tilePixel
  unfold tileAt
  generalize tileCol = gcol at hcol ⊢
  generalize tileEntry = gentry at hentry ⊢
  generalize tilePixel = gpixel at hpixel ⊢
  extract_lets -underBinder put clear
  split
  · exact .refl r.b
  · split
    next dc u heq =>
    have hu : BuiltRun r (dc, u) := by
      rw [← heq]
      split
      · exact hcol ..
      · exact Built.refl r.b
    split
    · exact hu
    · extract_lets -underBinder
      split
      · exact hu
      · exact Built.trans hu (hpixel ..)
      · split
        next e w hw =>
        have hboth : BuiltRun r (e, w) := by
          rw [← hw]
          exact Built.trans hu (hentry ..)
        split
        · exact Built.trans hboth (hpixel ..)
        · exact hboth

theorem builtSnd_buildTile (f p l n w : Nat) (b : Bld) : BuiltSnd b (buildTile f p l n w b) := by
  have hline := builtSnd_tileLine
  have hat := built_tileAt
  unfold buildTile
  generalize tileLine = gline at hline ⊢
  generalize tileAt = gat at hat ⊢
  extract_lets -underBinder d c clear
  split
  · exact .mk (.refl b) _
  · split
    next t e heq =>
    have he : BuiltSnd b (t, e) := by
      rw [← heq]
      exact hline ..
    split
    · exact .mk he.snd _
    · refine .mk (forN_ind (fun r : TileRun => Built b r.b) _ _ _ he.snd fun i _ r hr => ?_) _
      exact Built.trans hr (hat ..)

/-! ### A line of a layer -/

theorem built_buildLine (f p l frame n : Nat) (s : State) : SameBytes s (buildLine f p l frame n s).2.2.s := by
  have htile := builtSnd_buildTile
  have hsprite := builtSnd_buildSprite
  have hframe := builtSnd_buildFrame
  have hvideo := built_buildVideo
  unfold buildLine
  generalize buildTile = gtile at htile ⊢
  generalize buildSprite = gsprite at hsprite ⊢
  generalize buildFrame = gframe at hframe ⊢
  generalize buildVideo = gvideo at hvideo ⊢
  extract_lets -underBinder d b w
  split
  · exact (htile ..).snd
  · exact (hsprite ..).snd
  · exact (hframe ..).snd
  · exact hvideo ..


end Sys2Proof.Machine

/-! PROOFS. A layer starts a line (O14). -/
namespace Sys2Proof.Machine

-- One proof after another: proofs that wait for the kernel at once would take more threads than the check's memory holds.
set_option Elab.async false

theorem exec_cellLineStart (f : Fin 16) (p : Fin 8) (l : Fin 2) (evict : List Nat) (late : Nat) (s : State) :
    exec (.cellLineStart f p l evict late) s = .next (lineStart f p l evict late s) := rfl

/-- A line enters the buffers of its cell. -/
def lineEntered (f p : Nat) (b : LineBuf) (cache : Store (List Byte)) (d : Dev) : Dev :=
  d.updCell f p (fun c =>
    { c.updLayer b.layer (fun y => { y with frame := b.frame, next := b.line + 1 }) with cache := cache, bufs := c.bufs ++ [b] })

theorem cell_lateFetches (n : Nat) (d : Dev) (f p : Nat) : (lateFetches n d).cell f p = d.cell f p := by
  unfold lateFetches
  split <;> rfl

theorem lineEntered_notes (f p : Nat) (b : LineBuf) (cache : Store (List Byte)) (late : Nat) (d : Dev) :
    ((lateFetches late (lineEntered f p b cache d)).cell f p).bufs.getLast? = some b ∧
      (((lateFetches late (lineEntered f p b cache d)).cell f p).layer b.layer).frame = b.frame ∧
      (((lateFetches late (lineEntered f p b cache d)).cell f p).layer b.layer).next = b.line + 1 := by
  rw [cell_lateFetches, lineEntered, Dev.cell_updCell_same]
  have hlayer := CellSt.layer_updLayer_same (d.cell f p) b.layer (fun y => { y with frame := b.frame, next := b.line + 1 })
  exact ⟨by simp, congrArg LayerSt.frame hlayer, congrArg LayerSt.next hlayer⟩

/-- A line that starts is sampled and built on a state with the same bytes, and enters the buffers. -/
theorem lineStart_some {f p l fr n : Nat} (evict : List Nat) (late : Nat) {s : State} (hp : p < 8) (h : mayStart s.dev f p l = some (fr, n)) :
    ∃ (t : State) (u : Dev → Dev) (b : LineBuf) (cache : Store (List Byte)), SameBytes s t ∧ b.layer = l ∧ b.frame = fr ∧ b.line = n ∧ b.done = false ∧
      lineStart f p l evict late s = t.upd (fun d => lateFetches late (lineEntered f p b cache (u d))) := by
  obtain ⟨r, hr⟩ : ∃ r, lineStart f p l evict late s = r := ⟨_, rfl⟩
  rw [hr]
  unfold lineStart at hr
  split at hr
  next hnone => rw [h] at hnone; cases hnone
  next frame m hsome =>
    obtain ⟨rfl, rfl⟩ := Prod.mk.inj (Option.some.inj (h.symm.trans hsome))
    extract_lets -underBinder s1 s2 at hr
    split at hr
    next px miss b heq =>
    have hprep : SameBytes s s2 := by
      refine (sameBytes_upd (prepareLine f p l fr n evict) s).trans ?_
      dsimp only [s2]
      split
      · exact (tablesOnly_copyTable f hp l s1).1
      · exact .refl s1
    have hbuild := built_buildLine f p l fr n s2
    rw [heq] at hbuild
    exact ⟨b.s, noteBuild f p l b.failed b.poison b.fills,
      { layer := l, frame := fr, line := n, px := px, missing := miss, regs := layerRegs s2.dev f p, seen := b.seen.reverse }, b.cache,
      hprep.trans hbuild, rfl, rfl, rfl, rfl, hr.symm⟩

theorem gives_cellLineStart {s : State} {f : Fin 16} {p : Fin 8} {l : Fin 2} (evict : List Nat) (late : Nat) {fr n : Nat}
    (h : mayStart s.dev f p l = some (fr, n)) :
    Gives (.cellLineStart f p l evict late) s (fun t => (∃ b, (t.dev.cell f p).bufs.getLast? = some b ∧ b.layer = l.val ∧ b.frame = fr ∧
        b.line = n ∧ b.done = false) ∧
      ((t.dev.cell f p).layer l).frame = fr ∧ ((t.dev.cell f p).layer l).next = n + 1 ∧ SameBytes s t) := by
  obtain ⟨t, u, b, cache, hbytes, hl, hfr, hn, hdone, hrun⟩ := lineStart_some evict late p.isLt h
  obtain ⟨hlast, hframe, hnext⟩ := lineEntered_notes f p b cache late (u t.dev)
  rw [hl] at hframe hnext
  refine ⟨_, (exec_cellLineStart f p l evict late s).trans (congrArg _ hrun), ⟨b, hlast, hl, hfr, hn, hdone⟩, ?_, ?_, hbytes.trans (sameBytes_upd _ t)⟩
  · exact hframe.trans hfr
  · exact hnext.trans (congrArg (· + 1) hn)

theorem gives_cellLineStart_none {s : State} {f : Fin 16} {p : Fin 8} {l : Fin 2} (evict : List Nat) (late : Nat)
    (h : mayStart s.dev f p l = none) : Gives (.cellLineStart f p l evict late) s (fun t => t = s) := by
  refine ⟨_, exec_cellLineStart f p l evict late s, ?_⟩
  rw [lineStart, h]

end Sys2Proof.Machine

/-! PROOFS. A line or row that is missed (O14). -/
namespace Sys2Proof.Machine

-- One proof after another: proofs that wait for the kernel at once would take more threads than the check's memory holds.
set_option Elab.async false

/-! ### What every miss does (R88, R198) -/

/-- The registers that a miss changes. -/
def MissReg (f p o : Nat) : Prop := o = Reg.CELL_MISS f p ∨ o = Reg.CELL_EVT f p ∨ o = Reg.FLOCK_IRQ f ∨ InConj o

/-- The die with what a miss changes of another. -/
def missPart (e d : Dev) : Dev := { e with regs := d.regs, cells := d.cells, rail := { e.rail with calmFrom := d.rail.calmFrom }, tasks := d.tasks }

theorem within_fire {g : Dev → Dev → Dev} {q : Nat → Prop} (ev : Nat) (d : Dev) (hq : ∀ o, InConj o → q o)
    (hg : ∀ e d : Dev, g { e with regs := d.regs, tasks := d.tasks } d = g e d := by exact fun _ _ => rfl)
    (hr : ∀ d, g d d = d := by exact fun _ => rfl) : Within g q d (fire ev d) :=
  Within.widen (g := fun e d => { e with regs := d.regs, tasks := d.tasks }) (firingOnly_fire ev d) hq hg hr

theorem not_inConj_cellMiss (f p : Nat) : ¬ InConj (Reg.CELL_MISS f p) := by unfold InConj Reg.CELL_MISS; omega
theorem not_inConj_cellEvt (f p : Nat) : ¬ InConj (Reg.CELL_EVT f p) := by unfold InConj Reg.CELL_EVT; omega
theorem not_inConj_flockIrq (f : Nat) : ¬ InConj (Reg.FLOCK_IRQ f) := by unfold InConj Reg.FLOCK_IRQ; omega

/-- The flags and the count of a miss. -/
def missMarked (f p : Nat) (d : Dev) : Dev := ((d.bump (Reg.CELL_MISS f p)).setBit (Reg.CELL_EVT f p) 1).setBit (Reg.FLOCK_IRQ f) 1

theorem noteMiss_eq (f p : Nat) (d : Dev) : noteMiss f p d =
    fire (0x81 + 2 * f) (railDisturb (missMarked f p (d.updCell f p (fun c => { c with missed := min 0xFFFF (c.missed + 1) })))) := rfl

theorem missMarked_notes (f p : Nat) (d : Dev) :
    ((missMarked f p d).rd (Reg.CELL_MISS f p)).toNat = min ((d.rd (Reg.CELL_MISS f p)).toNat + 1) 0xFFFFFFFF ∧
      (missMarked f p d).bit (Reg.CELL_EVT f p) 1 = true ∧ (missMarked f p d).bit (Reg.FLOCK_IRQ f) 1 = true ∧
      RegsOnly (MissReg f p) d (missMarked f p d) := by
  have h1 : Reg.CELL_MISS f p ≠ Reg.CELL_EVT f p := by unfold Reg.CELL_MISS Reg.CELL_EVT; omega
  have h2 : Reg.CELL_MISS f p ≠ Reg.FLOCK_IRQ f := by unfold Reg.CELL_MISS Reg.FLOCK_IRQ; omega
  have h3 : Reg.CELL_EVT f p ≠ Reg.FLOCK_IRQ f := by unfold Reg.CELL_EVT Reg.FLOCK_IRQ; omega
  unfold missMarked
  refine ⟨?_, ?_, Dev.bit_setBit_same _ _ (by decide), ?_⟩
  · rw [Dev.rd_setBit_ne _ _ h2, Dev.rd_setBit_ne _ _ h1, Dev.toNat_rd_bump]
  · rw [Dev.bit_setBit_ne _ _ _ h3, Dev.bit_setBit_same _ _ (by decide)]
  · exact ((regsOnly_bump (.inl rfl) d).trans (regsOnly_wr (.inr (.inl rfl)) _ _)).trans (regsOnly_wr (.inr (.inr (.inl rfl))) _ _)

/-- A line or row of post p of flock f has been missed: the count, the flags, and the rail no longer calm. -/
def Missed (f p : Nat) (d e : Dev) : Prop :=
  (e.rd (Reg.CELL_MISS f p)).toNat = min ((d.rd (Reg.CELL_MISS f p)).toNat + 1) 0xFFFFFFFF ∧
    e.bit (Reg.CELL_EVT f p) 1 = true ∧ e.bit (Reg.FLOCK_IRQ f) 1 = true ∧ e.rail.calmFrom = d.clk ∧ Within missPart (MissReg f p) d e

theorem FiringOnly.calmFrom {d e : Dev} (h : FiringOnly d e) : e.rail.calmFrom = d.rail.calmFrom := (congrArg (fun x : Dev => x.rail.calmFrom) h.1 :)
theorem calmFrom_railDisturb (d : Dev) : (railDisturb d).rail.calmFrom = d.clk := rfl

theorem within_miss_railDisturb {q : Nat → Prop} (d : Dev) : Within missPart q d (railDisturb d) := within_of_eq rfl rfl
theorem rd_railDisturb (d : Dev) (o : Nat) : (railDisturb d).rd o = d.rd o := rfl

/-- The event of a miss, fired on a state whose count and flags are marked. -/
theorem missed_event (f p ev : Nat) {d x : Dev} (hmiss : (x.rd (Reg.CELL_MISS f p)).toNat = min ((d.rd (Reg.CELL_MISS f p)).toNat + 1) 0xFFFFFFFF)
    (hevt : x.bit (Reg.CELL_EVT f p) 1 = true) (hirq : x.bit (Reg.FLOCK_IRQ f) 1 = true) (hcalm : x.rail.calmFrom = d.clk)
    (hpart : Within missPart (MissReg f p) d x) : Missed f p d (fire ev x) := by
  have hfire := firingOnly_fire ev x
  refine ⟨?_, ?_, ?_, ?_, hpart.trans (within_fire ev x fun _ ho => .inr (.inr (.inr ho)))⟩
  · rw [hfire.2 _ (not_inConj_cellMiss f p), hmiss]
  · rw [Dev.bit_congr (hfire.2 _ (not_inConj_cellEvt f p)), hevt]
  · rw [Dev.bit_congr (hfire.2 _ (not_inConj_flockIrq f)), hirq]
  · rw [hfire.calmFrom, hcalm]

theorem missed_fire (f p ev : Nat) {d e : Dev} (hcells : { e with cells := d.cells } = d) :
    Missed f p d (fire ev (railDisturb (missMarked f p e))) := by
  have hrd (o : Nat) : e.rd o = d.rd o := (congrArg (fun y : Dev => y.rd o) hcells :)
  have hclk : e.clk = d.clk := (congrArg Dev.clk hcells :)
  have hstep : Within missPart (MissReg f p) d e := ⟨(congrArg (fun y => missPart y d) hcells :), fun o _ => hrd o⟩
  obtain ⟨hmiss, hevt, hirq, hregs⟩ := missMarked_notes f p e
  generalize missMarked f p e = x at hmiss hevt hirq hregs
  refine missed_event f p ev ?_ ?_ ?_ ?_ ((hstep.trans hregs.within).trans (within_miss_railDisturb x))
  · rw [rd_railDisturb, hmiss, hrd]
  · rw [Dev.bit_congr (rd_railDisturb ..), hevt]
  · rw [Dev.bit_congr (rd_railDisturb ..), hirq]
  · rw [calmFrom_railDisturb, hregs.clk, hclk]

theorem missed_noteMiss (f p : Nat) (d : Dev) : Missed f p d (noteMiss f p d) := by
  rw [noteMiss_eq]
  exact missed_fire f p _ rfl

theorem cell_railDisturb (d : Dev) (f p : Nat) : (railDisturb d).cell f p = d.cell f p := rfl
theorem RegsOnly.cell {q : Nat → Prop} {d e : Dev} (h : RegsOnly q d e) (f p : Nat) : e.cell f p = d.cell f p :=
  (congrArg (fun x : Dev => x.cell f p) h.1 :)

theorem missCount_cell (c : CellSt) (n : Nat) : ({ c with missed := n } : CellSt).bufs = c.bufs ∧ ∀ l, ({ c with missed := n } : CellSt).layer l = c.layer l :=
  ⟨rfl, fun _ => rfl⟩

/-- A miss leaves the buffers and the layers of the cell. -/
theorem cell_noteMiss (f p : Nat) (d : Dev) :
    ((noteMiss f p d).cell f p).bufs = (d.cell f p).bufs ∧ ∀ l, ((noteMiss f p d).cell f p).layer l = (d.cell f p).layer l := by
  obtain ⟨-, -, -, hregs⟩ := missMarked_notes f p (d.updCell f p (fun c => { c with missed := min 0xFFFF (c.missed + 1) }))
  rw [noteMiss_eq, (firingOnly_fire _ _).cell, cell_railDisturb, hregs.cell, Dev.cell_updCell_same]
  exact missCount_cell ..

theorem Missed.after {f p : Nat} {d e x : Dev} (h : Missed f p e x) (hcells : { e with cells := d.cells } = d) : Missed f p d x := by
  obtain ⟨hmiss, hevt, hirq, hcalm, hpart⟩ := h
  have hrd (o : Nat) : e.rd o = d.rd o := (congrArg (fun y : Dev => y.rd o) hcells :)
  have hclk : e.clk = d.clk := (congrArg Dev.clk hcells :)
  have hstep : Within missPart (MissReg f p) d e := ⟨(congrArg (fun y => missPart y d) hcells :), fun o _ => hrd o⟩
  exact ⟨by rw [hmiss, hrd], hevt, hirq, hcalm.trans hclk, hstep.trans hpart⟩

/-! ### A line of another kind than VIDEO, and a source row of a VIDEO cell -/

theorem missed_missLine (f p l : Nat) (due : Nat × Nat) (d : Dev) : Missed f p d (missLine f p l due d) := by
  unfold missLine
  exact (missed_noteMiss f p _).after rfl

theorem missed_missRow (f p frame r : Nat) (d : Dev) : Missed f p d (missRow f p frame r d) := by
  unfold missRow
  exact (missed_noteMiss f p _).after rfl

theorem missLine_cell (f p l : Nat) (due : Nat × Nat) (d : Dev) :
    (((missLine f p l due d).cell f p).layer l).frame = due.1 ∧ (((missLine f p l due d).cell f p).layer l).next = due.2 + 1 ∧
      ∀ b ∈ ((missLine f p l due d).cell f p).bufs, b.layer = l → b.done = true := by
  unfold missLine
  obtain ⟨hbufs, hlayer⟩ := cell_noteMiss f p (d.updCell f p (fun c =>
    { c.updLayer l (fun y => { y with frame := due.1, next := due.2 + 1, lineColl := [] }) with
      bufs := c.bufs.filter (fun b => !(b.layer == l && !b.done)) }))
  rw [hbufs, hlayer, Dev.cell_updCell_same]
  have hnew := CellSt.layer_updLayer_same (d.cell f p) l (fun y => { y with frame := due.1, next := due.2 + 1, lineColl := [] })
  refine ⟨congrArg LayerSt.frame hnew, congrArg LayerSt.next hnew, fun b hb hl => ?_⟩
  have hkept := (List.mem_filter.1 hb).2
  simpa [hl] using hkept

/-- Row r of a frame is marked missing. -/
def RowMarked (f p frame r : Nat) (d : Dev) : Prop := ∃ b ∈ (d.cell f p).bufs, b.frame = frame ∧ b.line = r ∧ b.missing = true

theorem rowMarked_missRow (f p frame r : Nat) (d : Dev) :
    RowMarked f p frame r (missRow f p frame r d) ∧ ∀ r', RowMarked f p frame r' d → RowMarked f p frame r' (missRow f p frame r d) := by
  obtain ⟨x, hx⟩ : ∃ x, missRow f p frame r d = x := ⟨_, rfl⟩
  rw [hx]
  have hbufs : (x.cell f p).bufs = (d.cell f p).bufs.filter (fun b => !(b.frame == frame && b.line == r)) ++
      [{ layer := 0, frame := frame, line := r, px := [], done := true, missing := true }] := by
    rw [← hx]
    unfold missRow
    dsimp only
    rw [(cell_noteMiss ..).1, Dev.cell_updCell_same]
  unfold RowMarked
  rw [hbufs]
  have hnew : ∃ b ∈ (d.cell f p).bufs.filter (fun b => !(b.frame == frame && b.line == r)) ++
      [{ layer := 0, frame := frame, line := r, px := [], done := true, missing := true }], b.frame = frame ∧ b.line = r ∧ b.missing = true :=
    ⟨_, List.mem_append_right _ (List.mem_singleton.2 rfl), rfl, rfl, rfl⟩
  refine ⟨hnew, fun r' ⟨b, hb, hframe, hline, hmissing⟩ => ?_⟩
  by_cases hr : r' = r
  · exact hr ▸ hnew
  · refine ⟨b, List.mem_append_left _ (List.mem_filter.2 ⟨hb, ?_⟩), hframe, hline, hmissing⟩
    simp [hline, hr]

/-! ### The rows of an output line -/

theorem Within.clk_of_missPart {q : Nat → Prop} {d e : Dev} (h : Within missPart q d e) : e.clk = d.clk := (congrArg Dev.clk h.1 :)

/-- Each row of a list is missed. -/
def missRows (f p frame : Nat) (rs : List Nat) (d : Dev) : Dev := rs.foldl (fun d r => missRow f p frame r d) d

theorem missRows_nil (f p frame : Nat) (d : Dev) : missRows f p frame [] d = d := rfl
theorem missRows_cons (f p frame r : Nat) (rs : List Nat) (d : Dev) :
    missRows f p frame (r :: rs) d = missRows f p frame rs (missRow f p frame r d) := by
  rw [missRows, List.foldl_cons, missRows]

/-- Steps of a count that holds at its greatest value add up. -/
theorem saturate_step (n k m : Nat) : min (min (n + 1) m + k) m = min (n + (k + 1)) m := by omega

theorem toNat_le_max (w : Word) : w.toNat ≤ 0xFFFFFFFF := Nat.le_of_lt_succ w.isLt

theorem missRows_count (f p frame : Nat) (rs : List Nat) (d : Dev) : ((missRows f p frame rs d).rd (Reg.CELL_MISS f p)).toNat =
    min ((d.rd (Reg.CELL_MISS f p)).toNat + rs.length) 0xFFFFFFFF := by
  induction rs generalizing d with
  | nil => rw [missRows_nil, List.length_nil, Nat.add_zero, Nat.min_eq_left (toNat_le_max _)]
  | cons r rs ih =>
    rw [missRows_cons, ih, (missed_missRow f p frame r d).1, List.length_cons]
    exact saturate_step ..

/-- The rows are marked, and what a miss leaves stays. -/
theorem missRows_marks (f p frame : Nat) (rs : List Nat) (d : Dev) :
    Within missPart (MissReg f p) d (missRows f p frame rs d) ∧ ∀ r ∈ rs, RowMarked f p frame r (missRows f p frame rs d) := by
  obtain ⟨⟨hpart, -⟩, hmarks⟩ := foldl_done
    (R := fun d e => Within missPart (MissReg f p) d e ∧ ∀ r, RowMarked f p frame r d → RowMarked f p frame r e)
    (fun d => ⟨.refl d, fun _ h => h⟩) (fun h k => ⟨h.1.trans k.1, fun r hr => k.2 r (h.2 r hr)⟩) (D := RowMarked f p frame)
    (fun r _ _ hx hr => hx.2 r hr) (fun d r => missRow f p frame r d) rs d fun r _ e _ =>
      ⟨⟨(missed_missRow f p frame r e).2.2.2.2, (rowMarked_missRow f p frame r e).2⟩, (rowMarked_missRow f p frame r e).1⟩
  exact ⟨hpart, hmarks⟩

/-- The last row missed leaves the flags of a miss. -/
theorem missRows_flags {f p frame : Nat} {rs : List Nat} (h : rs ≠ []) (d : Dev) :
    (missRows f p frame rs d).bit (Reg.CELL_EVT f p) 1 = true ∧ (missRows f p frame rs d).bit (Reg.FLOCK_IRQ f) 1 = true ∧
      (missRows f p frame rs d).rail.calmFrom = d.clk := by
  obtain ⟨before, last, rfl⟩ := (List.eq_nil_or_concat' rs).resolve_left h
  obtain ⟨-, hevt, hirq, hcalm, -⟩ := missed_missRow f p frame last (missRows f p frame before d)
  have hlast : missRows f p frame (before ++ [last]) d = missRow f p frame last (missRows f p frame before d) := List.foldl_concat ..
  rw [(missRows_marks f p frame before d).1.clk_of_missPart] at hcalm
  rw [hlast]
  exact ⟨hevt, hirq, hcalm⟩

/-! ### LINE_MISSED (R87, R88, R197) -/

theorem exec_lineMissed (f : Fin 16) (p : Fin 8) (l : Fin 2) (s : State) : exec (.lineMissed f p l) s = .next (s.upd (lineMissed f p l)) := rfl

theorem timeOnly_toDeadline (h frame n : Nat) (d : Dev) : TimeOnly d (toDeadline h frame n d) := by
  unfold toDeadline
  split
  · exact timeOnly_passClk d _
  · exact .refl d

section
variable {f p l : Nat} {d : Dev}

theorem lineMissed_inactive (h : (activeLayers d f p).contains l = false ∨ owesLines d f p = false) : lineMissed f p l d = d := by
  unfold lineMissed
  refine if_pos ?_
  obtain h | h := h
  · rw [h]; rfl
  · rw [h]; simp

theorem lineMissed_none (h : kindOf d f p ≠ 4 ∧ lineOwed d f p l (dueLine d (flockHead d f)) = false ∨
    kindOf d f p = 4 ∧ rowsOwed d f p (dueLine d (flockHead d f)) = []) : lineMissed f p l d = d := by
  unfold lineMissed
  dsimp only
  obtain ⟨hkind, howed⟩ | ⟨hkind, hrows⟩ := h
  · rw [if_neg hkind, howed]
    simp
  · rw [if_pos hkind, hrows]
    simp

variable (hactive : (activeLayers d f p).contains l = true) (howes : owesLines d f p = true)
include hactive howes

theorem lineMissed_line (hkind : kindOf d f p ≠ 4) (howed : lineOwed d f p l (dueLine d (flockHead d f)) = true) :
    lineMissed f p l d = missLine f p l (dueLine d (flockHead d f))
      (toDeadline (flockHead d f) (dueLine d (flockHead d f)).1 (dueLine d (flockHead d f)).2 d) := by
  unfold lineMissed
  dsimp only
  rw [hactive, howes, if_neg (by decide), if_neg hkind, if_pos howed]

theorem lineMissed_rows (hkind : kindOf d f p = 4) (hrows : rowsOwed d f p (dueLine d (flockHead d f)) ≠ []) :
    lineMissed f p l d = missRows f p (dueLine d (flockHead d f)).1 (rowsOwed d f p (dueLine d (flockHead d f)))
      (toDeadline (flockHead d f) (dueLine d (flockHead d f)).1 (dueLine d (flockHead d f)).2 d) := by
  unfold lineMissed
  dsimp only
  rw [hactive, howes, if_neg (by decide), if_pos hkind]
  split
  next hnone => exact absurd hnone hrows
  next => rfl

end

/-- The die with what a miss at its deadline changes of another. -/
def latePart (e d : Dev) : Dev :=
  { e with regs := d.regs, cells := d.cells, rail := { e.rail with calmFrom := d.rail.calmFrom }, tasks := d.tasks, ht := d.ht, clk := d.clk }

theorem within_late {q : Nat → Prop} {d e x : Dev} (ht : TimeOnly d e) (h : Within missPart q e x) : Within latePart q d x := by
  have hlate : Within latePart q d e := ⟨(congrArg (fun y => latePart y d) ht :), fun o _ => ht.rd o⟩
  exact hlate.trans (h.widen fun _ ho => ho)

section
variable {s : State} {f : Fin 16} {p : Fin 8} {l : Fin 2} {due : Nat × Nat} (hdue : due = dueLine s.dev (flockHead s.dev f))
include hdue

theorem gives_lineMissed_idle (h : (activeLayers s.dev f p).contains l.val = false ∨ owesLines s.dev f p = false ∨
    (kindOf s.dev f p ≠ 4 ∧ lineOwed s.dev f p l due = false) ∨ (kindOf s.dev f p = 4 ∧ rowsOwed s.dev f p due = [])) :
    Gives (.lineMissed f p l) s (fun t => t = s) := by
  subst hdue
  refine gives_same (exec_lineMissed f p l s) ?_
  obtain h | h | h := h
  · exact lineMissed_inactive (.inl h)
  · exact lineMissed_inactive (.inr h)
  · exact lineMissed_none h

variable (hactive : (activeLayers s.dev f p).contains l.val = true) (howes : owesLines s.dev f p = true)
include hactive howes

theorem gives_lineMissed_line (hkind : kindOf s.dev f p ≠ 4) (howed : lineOwed s.dev f p l due = true) :
    Gives (.lineMissed f p l) s (fun t =>
      (t.dev.rd (Reg.CELL_MISS f p)).toNat = min ((s.dev.rd (Reg.CELL_MISS f p)).toNat + 1) 0xFFFFFFFF ∧
      t.dev.bit (Reg.CELL_EVT f p) 1 = true ∧ t.dev.bit (Reg.FLOCK_IRQ f) 1 = true ∧
      ((t.dev.cell f p).layer l).frame = due.1 ∧ ((t.dev.cell f p).layer l).next = due.2 + 1 ∧
      (∀ b ∈ (t.dev.cell f p).bufs, b.layer = l.val → b.done = true) ∧
      t.dev.clk = (toDeadline (flockHead s.dev f) due.1 due.2 s.dev).clk ∧ t.dev.rail.calmFrom = t.dev.clk ∧
      Leaves latePart (MissReg f p) s t) := by
  subst hdue
  have hrun := lineMissed_line hactive howes hkind howed
  have htime := timeOnly_toDeadline (flockHead s.dev f) (dueLine s.dev (flockHead s.dev f)).1 (dueLine s.dev (flockHead s.dev f)).2 s.dev
  generalize toDeadline (flockHead s.dev f) (dueLine s.dev (flockHead s.dev f)).1 (dueLine s.dev (flockHead s.dev f)).2 s.dev = e at hrun htime ⊢
  obtain ⟨hcount, hevt, hirq, hcalm, hpart⟩ := missed_missLine f p l (dueLine s.dev (flockHead s.dev f)) e
  obtain ⟨hframe, hnext, hbufs⟩ := missLine_cell f p l (dueLine s.dev (flockHead s.dev f)) e
  rw [htime.rd] at hcount
  exact gives_of_upd (exec_lineMissed f p l s) hrun ⟨hcount, hevt, hirq, hframe, hnext, hbufs, hpart.clk_of_missPart,
    hcalm.trans hpart.clk_of_missPart.symm, rfl, rfl, within_late htime hpart⟩

theorem gives_lineMissed_rows (hkind : kindOf s.dev f p = 4) (hrows : rowsOwed s.dev f p due ≠ []) :
    Gives (.lineMissed f p l) s (fun t =>
      (t.dev.rd (Reg.CELL_MISS f p)).toNat = min ((s.dev.rd (Reg.CELL_MISS f p)).toNat + (rowsOwed s.dev f p due).length) 0xFFFFFFFF ∧
      t.dev.bit (Reg.CELL_EVT f p) 1 = true ∧ t.dev.bit (Reg.FLOCK_IRQ f) 1 = true ∧
      (∀ r ∈ rowsOwed s.dev f p due, ∃ b ∈ (t.dev.cell f p).bufs, b.frame = due.1 ∧ b.line = r ∧ b.missing = true) ∧
      t.dev.clk = (toDeadline (flockHead s.dev f) due.1 due.2 s.dev).clk ∧ t.dev.rail.calmFrom = t.dev.clk ∧
      Leaves latePart (MissReg f p) s t) := by
  subst hdue
  have hrun := lineMissed_rows hactive howes hkind hrows
  have htime := timeOnly_toDeadline (flockHead s.dev f) (dueLine s.dev (flockHead s.dev f)).1 (dueLine s.dev (flockHead s.dev f)).2 s.dev
  generalize toDeadline (flockHead s.dev f) (dueLine s.dev (flockHead s.dev f)).1 (dueLine s.dev (flockHead s.dev f)).2 s.dev = e at hrun htime ⊢
  generalize rowsOwed s.dev f p (dueLine s.dev (flockHead s.dev f)) = rs at hrun hrows ⊢
  have hcount := missRows_count f p (dueLine s.dev (flockHead s.dev f)).1 rs e
  obtain ⟨hevt, hirq, hcalm⟩ := missRows_flags (f := f) (p := p) (frame := (dueLine s.dev (flockHead s.dev f)).1) hrows e
  obtain ⟨hpart, hmarks⟩ := missRows_marks f p (dueLine s.dev (flockHead s.dev f)).1 rs e
  rw [htime.rd] at hcount
  exact gives_of_upd (exec_lineMissed f p l s) hrun ⟨hcount, hevt, hirq, hmarks, hpart.clk_of_missPart,
    hcalm.trans hpart.clk_of_missPart.symm, rfl, rfl, within_late htime hpart⟩

end

end Sys2Proof.Machine

/-! PROOFS. A line under construction completes, or is found missed (O14). -/
namespace Sys2Proof.Machine

-- One proof after another: proofs that wait for the kernel at once would take more threads than the check's memory holds.
set_option Elab.async false

/-! ### What follows the measurement of a line's slack (R92, R149, R268) -/

/-- The registers that the completion of a line may change. -/
def DoneReg (f p o : Nat) : Prop := InCell f p o ∨ o = Reg.FLOCK_IRQ f ∨ o = Reg.SHADOW_MISMATCH ∨ InConj o

/-- The registers that may change once the slack and the CRC of the line are written. -/
def AfterReg (f p o : Nat) : Prop := DoneReg f p o ∧ o ≠ Reg.CELL_SLACK_LAST f p ∧ o ≠ Reg.CELL_LINE_CRC f p

/-- The die with what the completion of a line may change of another. -/
def donePart (e d : Dev) : Dev := { e with regs := d.regs, cells := d.cells, flocks := d.flocks, rail := d.rail, tasks := d.tasks }

/-- The cells of the posts other than post p of flock f. -/
def OthersKept (f p : Nat) (d e : Dev) : Prop := ∀ g q, g < 16 → q < 9 → (g ≠ f ∨ q ≠ p) → e.cell g q = d.cell g q

/-- What was measured of the line stays, and so do the other cells. -/
def MeasureKept (f p : Nat) (d e : Dev) : Prop :=
  (e.cell f p).bufs = (d.cell f p).bufs ∧ (e.cell f p).slackMin = (d.cell f p).slackMin ∧ (e.cell f p).hist = (d.cell f p).hist ∧
    OthersKept f p d e ∧ Within donePart (AfterReg f p) d e

theorem MeasureKept.refl (f p : Nat) (d : Dev) : MeasureKept f p d d := ⟨rfl, rfl, rfl, fun _ _ _ _ _ => rfl, .refl d⟩

theorem MeasureKept.trans {f p : Nat} {d e x : Dev} (h : MeasureKept f p d e) (k : MeasureKept f p e x) : MeasureKept f p d x := by
  obtain ⟨hbufs, hmin, hhist, hothers, hpart⟩ := h
  obtain ⟨kbufs, kmin, khist, kothers, kpart⟩ := k
  exact ⟨kbufs.trans hbufs, kmin.trans hmin, khist.trans hhist, fun g q hg hq hne => (kothers g q hg hq hne).trans (hothers g q hg hq hne),
    hpart.trans kpart⟩

/-- A step that leaves the cells. -/
theorem measureKept_of_cells {f p : Nat} {d e : Dev} (hc : ∀ g q, e.cell g q = d.cell g q) (h : Within donePart (AfterReg f p) d e) :
    MeasureKept f p d e :=
  ⟨by rw [hc], by rw [hc], by rw [hc], fun g q _ _ _ => hc g q, h⟩

theorem measureKept_regs {f p : Nat} {d e : Dev} (h : RegsOnly (AfterReg f p) d e) : MeasureKept f p d e := measureKept_of_cells h.cell h.within

theorem measureKept_fire (f p ev : Nat) (d : Dev) : MeasureKept f p d (fire ev d) := by
  refine measureKept_of_cells (firingOnly_fire ev d).cell (within_fire ev d fun o ho => ⟨.inr (.inr (.inr ho)), ?_, ?_⟩)
  · unfold InConj at ho
    unfold Reg.CELL_SLACK_LAST
    omega
  · unfold InConj at ho
    unfold Reg.CELL_LINE_CRC
    omega

theorem othersKept_updCell (f : Nat) {p : Nat} (hp : p < 8) (u : CellSt → CellSt) (d : Dev) : OthersKept f p d (d.updCell f p u) := by
  intro g q _ hq hne
  exact Dev.cell_updCell_ne d u (by omega) (by omega) fun hgf hqp => by omega

/-- A change of a cell that leaves its buffers and its slack. -/
theorem measureKept_updCell (f : Nat) {p : Nat} (hp : p < 8) {u : CellSt → CellSt} (d : Dev)
    (hu : ∀ c, (u c).bufs = c.bufs ∧ (u c).slackMin = c.slackMin ∧ (u c).hist = c.hist) : MeasureKept f p d (d.updCell f p u) := by
  obtain ⟨hbufs, hmin, hhist⟩ := hu (d.cell f p)
  refine ⟨?_, ?_, ?_, othersKept_updCell f hp u d, within_updCell f p u d⟩
  · rw [Dev.cell_updCell_same, hbufs]
  · rw [Dev.cell_updCell_same, hmin]
  · rw [Dev.cell_updCell_same, hhist]

theorem measureKept_updLayer (f : Nat) {p : Nat} (hp : p < 8) (l : Nat) (u : LayerSt → LayerSt) (d : Dev) : MeasureKept f p d (d.updLayer f p l u) := by
  refine measureKept_updCell f hp d fun c => ?_
  unfold CellSt.updLayer
  split <;> exact ⟨rfl, rfl, rfl⟩

theorem measureKept_updFlock (f p : Nat) (u : FlockSt → FlockSt) (d : Dev) : MeasureKept f p d (d.updFlock f u) :=
  measureKept_of_cells (fun _ _ => rfl) (within_updFlock f u d)

theorem afterReg_cellEvt (f p : Nat) : AfterReg f p (Reg.CELL_EVT f p) := by
  unfold AfterReg DoneReg InCell cellOff Reg.CELL_EVT Reg.CELL_SLACK_LAST Reg.CELL_LINE_CRC
  omega

theorem afterReg_flockIrq (f p : Nat) : AfterReg f p (Reg.FLOCK_IRQ f) := by
  refine ⟨.inr (.inl rfl), ?_, ?_⟩ <;> unfold Reg.FLOCK_IRQ
  · unfold Reg.CELL_SLACK_LAST
    omega
  · unfold Reg.CELL_LINE_CRC
    omega

theorem afterReg_shadowMismatch (f p : Nat) : AfterReg f p Reg.SHADOW_MISMATCH := by
  refine ⟨.inr (.inr (.inl rfl)), ?_, ?_⟩ <;> unfold Reg.SHADOW_MISMATCH
  · unfold Reg.CELL_SLACK_LAST
    omega
  · unfold Reg.CELL_LINE_CRC
    omega

theorem afterReg_collLost (f p : Nat) {l : Nat} (hl : l < 2) : AfterReg f p (Reg.COLL_LOST f p l) := by
  unfold AfterReg DoneReg InCell cellOff Reg.COLL_LOST Reg.CELL_SLACK_LAST Reg.CELL_LINE_CRC
  omega

theorem afterReg_sprStatus (f p : Nat) {l : Nat} (hl : l < 2) : AfterReg f p (Reg.SPR_STATUS f p l) := by
  unfold AfterReg DoneReg InCell cellOff Reg.SPR_STATUS Reg.CELL_SLACK_LAST Reg.CELL_LINE_CRC
  omega

theorem measureKept_lowSlack (f : Nat) {p : Nat} (hp : p < 8) (d : Dev) : MeasureKept f p d (lowSlack f p d) := by
  have hlow : MeasureKept f p d { d with rail := { d.rail with low := true } } := measureKept_of_cells (fun _ _ => rfl) (within_of_eq rfl rfl)
  unfold lowSlack
  dsimp only
  split
  · have hcell := measureKept_updCell f hp (u := fun c => { c with low := true }) { d with rail := { d.rail with low := true } }
      (fun _ => ⟨rfl, rfl, rfl⟩)
    exact ((hlow.trans hcell).trans (measureKept_regs ((regsOnly_wr (afterReg_cellEvt f p) _ _).trans (regsOnly_wr (afterReg_flockIrq f p) _ _)))).trans
      (measureKept_fire ..)
  · exact hlow

theorem measureKept_trackColl (f : Nat) {p l : Nat} (hp : p < 8) (hl : l < 2) (c : CollRec) (d : Dev) : MeasureKept f p d (trackColl f p l c d) := by
  unfold trackColl
  dsimp only
  split
  · exact .refl f p d
  · split
    · exact measureKept_regs ((regsOnly_bump (afterReg_collLost f p hl) d).trans (regsOnly_wr (afterReg_sprStatus f p hl) _ _))
    · exact measureKept_updLayer f hp l _ d

theorem measureKept_shadowCompare (f p : Nat) (crc : Word) (spare : Option Word) (d : Dev) : MeasureKept f p d (shadowCompare f p crc spare d) := by
  unfold shadowCompare
  split
  · exact .refl f p d
  · split
    · exact (measureKept_updFlock f p _ d).trans
        (measureKept_regs (regsOnly_bump (afterReg_shadowMismatch f p) _))
    · exact .refl f p d

/-! ### The measurement (R87, R91, R103) -/

/-- The buffers, the least slack and the histogram of a cell whose line completes with slack k. -/
def lineClosed (k : Nat) (px : List Px) (c : CellSt) : CellSt :=
  { c with
    bufs := c.bufs.map (fun x => if x.done then x else { x with px := px, done := true, regs := [], pal := [], seen := [] })
    slackMin := min c.slackMin k, hist := bumpAt (slackBin k) c.hist }

/-- The slack and, for layer 0, the CRC of a line that completes. -/
def lineMeasured (f p k layer : Nat) (crc : Word) (px : List Px) (d : Dev) : Dev :=
  if layer = 0 then ((d.updCell f p (lineClosed k px)).wr (Reg.CELL_SLACK_LAST f p) (w32 k)).wr (Reg.CELL_LINE_CRC f p) crc
  else (d.updCell f p (lineClosed k px)).wr (Reg.CELL_SLACK_LAST f p) (w32 k)

theorem lineClosed_done (k : Nat) (px : List Px) (c : CellSt) :
    (lineClosed k px c).bufs.length = c.bufs.length ∧ (lineClosed k px c).bufs.all (·.done) = true := by
  unfold lineClosed
  dsimp only
  refine ⟨List.length_map _, List.all_eq_true.2 fun x hx => ?_⟩
  obtain ⟨y, -, rfl⟩ := List.mem_map.1 hx
  split
  next h => exact h
  next => rfl

theorem cell_lineMeasured (f p k layer : Nat) (crc : Word) (px : List Px) (d : Dev) (g q : Nat) :
    (lineMeasured f p k layer crc px d).cell g q = (d.updCell f p (lineClosed k px)).cell g q := by
  unfold lineMeasured
  split
  · rw [Dev.cell_wr, Dev.cell_wr]
  · rw [Dev.cell_wr]

theorem slackLast_ne_lineCrc (f p : Nat) : Reg.CELL_SLACK_LAST f p ≠ Reg.CELL_LINE_CRC f p := by
  unfold Reg.CELL_SLACK_LAST Reg.CELL_LINE_CRC
  omega

theorem rd_lineMeasured (f p k layer : Nat) (crc : Word) (px : List Px) (d : Dev) :
    (lineMeasured f p k layer crc px d).rd (Reg.CELL_SLACK_LAST f p) = w32 k ∧
      (layer = 0 → (lineMeasured f p k layer crc px d).rd (Reg.CELL_LINE_CRC f p) = crc) := by
  unfold lineMeasured
  refine ⟨?_, fun h => ?_⟩
  · split
    · rw [Dev.rd_wr_ne _ _ (slackLast_ne_lineCrc f p), Dev.rd_wr_same]
    · rw [Dev.rd_wr_same]
  · rw [if_pos h, Dev.rd_wr_same]

theorem doneReg_slackLast (f p : Nat) : DoneReg f p (Reg.CELL_SLACK_LAST f p) := by
  unfold DoneReg InCell cellOff Reg.CELL_SLACK_LAST
  omega

theorem doneReg_lineCrc (f p : Nat) : DoneReg f p (Reg.CELL_LINE_CRC f p) := by
  unfold DoneReg InCell cellOff Reg.CELL_LINE_CRC
  omega

theorem within_lineMeasured (f p k layer : Nat) (crc : Word) (px : List Px) (d : Dev) :
    Within donePart (DoneReg f p) d (lineMeasured f p k layer crc px d) := by
  have hslack : Within donePart (DoneReg f p) d ((d.updCell f p (lineClosed k px)).wr (Reg.CELL_SLACK_LAST f p) (w32 k)) :=
    Within.trans (g := donePart) (within_updCell (g := donePart) f p _ d) (within_wr (doneReg_slackLast f p) _ _)
  unfold lineMeasured
  split
  · exact hslack.trans (within_wr (doneReg_lineCrc f p) crc _)
  · exact hslack

/-- The completion of a line keeps what it has measured. -/
theorem measureKept_completeLine (f : Nat) {p : Nat} (hp : p < 8) (slack : Nat) {b : LineBuf} (hb : b.layer < 2) (px : List Px) (spare : Option Word)
    (d : Dev) : MeasureKept f p (lineMeasured f p (min 65535 slack) b.layer (lineCrc px) px d) (completeLine f p slack b px spare d) := by
  obtain ⟨r, hr⟩ : ∃ r, completeLine f p slack b px spare d = r := ⟨_, rfl⟩
  rw [hr]
  unfold completeLine at hr
  generalize lineCrc px = crc at hr ⊢
  generalize min 65535 slack = k at hr ⊢
  extract_lets -underBinder k' c' d1 d2 d3 d4 d5 d6 at hr
  have h3 : lineMeasured f p k b.layer crc px d = d3 := rfl
  have h4 : MeasureKept f p d3 d4 := by
    dsimp only [d4]
    split
    · exact measureKept_lowSlack f hp d3
    · exact .refl f p d3
  have h5 : MeasureKept f p d4 d5 :=
    List.foldlRecOn (motive := MeasureKept f p d4) _ _ (.refl f p d4) fun e he c _ => he.trans (measureKept_trackColl f hp hb c e)
  have h6 : MeasureKept f p d5 d6 := measureKept_updLayer f hp b.layer _ d5
  rw [h3, ← hr]
  exact ((h4.trans h5).trans h6).trans (measureKept_shadowCompare ..)

/-! ### CELL_LINE_DONE -/

theorem exec_cellLineDone (f : Fin 16) (p : Fin 8) (lead : Nat) (spare : Option Word) (pal : List Nat) (s : State) :
    exec (.cellLineDone f p lead spare pal) s = .next (lineDone f p lead pal spare s) := rfl

section
variable {f p lead : Nat} {pal : List Nat} {spare : Option Word} {s : State} {b : LineBuf}

theorem lineDone_idle (h : (s.dev.cell f p).bufs.find? (fun b => !b.done) = none) : lineDone f p lead pal spare s = s := by
  unfold lineDone
  dsimp only
  rw [h]

variable (h : (s.dev.cell f p).bufs.find? (fun b => !b.done) = some b)
include h

theorem lineDone_untimed (hclk : frameClk s.dev (flockHead s.dev f) b.frame = none) : lineDone f p lead pal spare s =
    s.upd (completeLine f p ((modeOf s.dev (flockHead s.dev f)).pixels lead) b (mixLine f p b pal s) spare) := by
  unfold lineDone
  dsimp only
  rw [h]
  dsimp only
  rw [hclk]

variable {base n : Nat} (hclk : frameClk s.dev (flockHead s.dev f) b.frame = some base)
  (hn : n = max (s.dev.clk * 1000) ((modeOf s.dev (flockHead s.dev f)).deadline base (readAt s.dev f p b.line) - lead))
include hclk hn

theorem lineDone_timed (hslack : ¬ (modeOf s.dev (flockHead s.dev f)).slack base (readAt s.dev f p b.line) n < 0) : lineDone f p lead pal spare s =
    s.upd (fun d => completeLine f p ((modeOf s.dev (flockHead s.dev f)).slack base (readAt s.dev f p b.line) n).toNat b (mixLine f p b pal s) spare
      (d.passClk (n / 1000))) := by
  rw [hn] at hslack ⊢
  unfold lineDone
  dsimp only
  rw [h]
  dsimp only
  rw [hclk]
  dsimp only
  rw [if_neg hslack]

theorem lineDone_late (hslack : (modeOf s.dev (flockHead s.dev f)).slack base (readAt s.dev f p b.line) n < 0) : lineDone f p lead pal spare s =
    s.upd (if kindOf s.dev f p = 4 then missRow f p b.frame b.line else missLine f p b.layer (b.frame, b.line)) := by
  rw [hn] at hslack
  unfold lineDone
  dsimp only
  rw [h]
  dsimp only
  rw [hclk]
  dsimp only
  rw [if_pos hslack]

end

/-- The die with what the completion of a line in its time may change of another. -/
def doneTimePart (e d : Dev) : Dev :=
  { e with regs := d.regs, cells := d.cells, flocks := d.flocks, rail := d.rail, tasks := d.tasks, ht := d.ht, clk := d.clk }

theorem TimeOnly.cell {d e : Dev} (h : TimeOnly d e) (g q : Nat) : e.cell g q = d.cell g q := (congrArg (fun x : Dev => x.cell g q) h :)

/-- What the completion of line b with slack k at instant c leaves. -/
def LineDone (f p k c : Nat) (b : LineBuf) (crc : Word) (d x : Dev) : Prop :=
  x.rd (Reg.CELL_SLACK_LAST f p) = w32 (min 65535 k) ∧ x.clk = c ∧
    (b.layer = 0 → x.rd (Reg.CELL_LINE_CRC f p) = crc) ∧
    (x.cell f p).slackMin = min (d.cell f p).slackMin (min 65535 k) ∧
    (x.cell f p).hist = bumpAt (slackBin (min 65535 k)) (d.cell f p).hist ∧
    (x.cell f p).bufs.length = (d.cell f p).bufs.length ∧ (x.cell f p).bufs.all (·.done) = true ∧
    OthersKept f p d x ∧ Within doneTimePart (DoneReg f p) d x

/-- The measurement of a line, as the rest of its completion keeps it. -/
theorem lineDone_of_kept {f p k layer : Nat} (hp : p < 8) {b : LineBuf} {crc : Word} {px : List Px} {d e x : Dev} (hlayer : layer = b.layer)
    (ht : TimeOnly d e) (hx : MeasureKept f p (lineMeasured f p (min 65535 k) layer crc px e) x) : LineDone f p k e.clk b crc d x := by
  obtain ⟨hslack, hcrc⟩ := rd_lineMeasured f p (min 65535 k) layer crc px e
  obtain ⟨hlen, hdone⟩ := lineClosed_done (min 65535 k) px (e.cell f p)
  have hown : (lineMeasured f p (min 65535 k) layer crc px e).cell f p = lineClosed (min 65535 k) px (e.cell f p) := by
    rw [cell_lineMeasured, Dev.cell_updCell_same]
  have hmeasured := within_lineMeasured f p (min 65535 k) layer crc px e
  have hothers : OthersKept f p e (lineMeasured f p (min 65535 k) layer crc px e) := fun g q hg hq hne => by
    rw [cell_lineMeasured]
    exact othersKept_updCell f hp _ e g q hg hq hne
  generalize lineMeasured f p (min 65535 k) layer crc px e = y at hx hslack hcrc hown hmeasured hothers
  obtain ⟨hbufs, hmin, hhist, hkept, hpart⟩ := hx
  have hwhole : Within donePart (DoneReg f p) e x := hmeasured.trans (hpart.mono fun _ ho => ho.1)
  have htime : Within doneTimePart (DoneReg f p) d e := ⟨(congrArg (fun z => doneTimePart z d) ht :), fun o _ => ht.rd o⟩
  rw [hown, ht.cell] at hbufs hmin hhist
  rw [ht.cell] at hlen hdone
  refine ⟨?_, (congrArg Dev.clk hwhole.1 :), fun h0 => ?_, hmin, hhist, ?_, ?_, fun g q hg hq hne => ?_, htime.trans (hwhole.widen fun _ ho => ho)⟩
  · rw [hpart.2 _ fun ho => ho.2.1 rfl, hslack]
  · rw [hpart.2 _ fun ho => ho.2.2 rfl, hcrc (hlayer.trans h0)]
  · rw [hbufs, hlen]
  · rw [hbufs, hdone]
  · rw [hkept g q hg hq hne, hothers g q hg hq hne, ht.cell]

section
variable {s : State} {f : Fin 16} {p : Fin 8} {lead : Nat} {pal : List Nat} {spare : Option Word} {b : LineBuf}
  (h : (s.dev.cell f p).bufs.find? (fun b => !b.done) = some b) (hb : b.layer < 2)
include h hb

theorem gives_lineDone_untimed (hclk : frameClk s.dev (flockHead s.dev f) b.frame = none) : Gives (.cellLineDone f p lead spare pal) s (fun t =>
    LineDone f p ((modeOf s.dev (flockHead s.dev f)).pixels lead) s.dev.clk b (lineCrc (mixLine f p b pal s)) s.dev t.dev ∧
      SameMem s t ∧ t.pending = s.pending) := by
  have hkept := measureKept_completeLine f p.isLt ((modeOf s.dev (flockHead s.dev f)).pixels lead) hb (mixLine f p b pal s) spare s.dev
  exact ⟨_, (exec_cellLineDone f p lead spare pal s).trans (congrArg _ (lineDone_untimed h hclk)),
    lineDone_of_kept p.isLt rfl (.refl s.dev) hkept, rfl, rfl⟩

variable {base n : Nat} (hclk : frameClk s.dev (flockHead s.dev f) b.frame = some base)
  (hn : n = max (s.dev.clk * 1000) ((modeOf s.dev (flockHead s.dev f)).deadline base (readAt s.dev f p b.line) - lead))
include hclk hn

theorem gives_lineDone_timed {k : Nat} (hk : (k : Int) = (modeOf s.dev (flockHead s.dev f)).slack base (readAt s.dev f p b.line) n) :
    Gives (.cellLineDone f p lead spare pal) s (fun t =>
      LineDone f p k (max s.dev.clk (n / 1000)) b (lineCrc (mixLine f p b pal s)) s.dev t.dev ∧ SameMem s t ∧ t.pending = s.pending) := by
  have hrun := lineDone_timed (pal := pal) (spare := spare) h hclk hn (by omega)
  rw [← hk, Int.toNat_natCast] at hrun
  have hkept := measureKept_completeLine f p.isLt k hb (mixLine f p b pal s) spare (s.dev.passClk (n / 1000))
  have hdone := lineDone_of_kept p.isLt rfl (timeOnly_passClk s.dev (n / 1000)) hkept
  rw [clk_passClk] at hdone
  exact ⟨_, (exec_cellLineDone f p lead spare pal s).trans (congrArg _ hrun), hdone, rfl, rfl⟩

omit hb in
theorem gives_lineDone_late (hslack : (modeOf s.dev (flockHead s.dev f)).slack base (readAt s.dev f p b.line) n < 0) :
    Gives (.cellLineDone f p lead spare pal) s (fun t => Missed f p s.dev t.dev ∧ SameMem s t ∧ t.pending = s.pending) := by
  refine ⟨_, (exec_cellLineDone f p lead spare pal s).trans (congrArg _ (lineDone_late h hclk hn hslack)), ?_, rfl, rfl⟩
  unfold State.upd
  dsimp only
  split
  · exact missed_missRow ..
  · exact missed_missLine ..

end

theorem gives_lineDone_idle {s : State} {f : Fin 16} {p : Fin 8} (lead : Nat) (pal : List Nat) (spare : Option Word)
    (h : (s.dev.cell f p).bufs.find? (fun b => !b.done) = none) : Gives (.cellLineDone f p lead spare pal) s (fun t => t = s) :=
  ⟨_, exec_cellLineDone f p lead spare pal s, lineDone_idle h⟩

/-! ### The obligation -/

theorem Gives.imp {i : Instr} {s : State} {P Q : State → Prop} (h : Gives i s P) (hPQ : ∀ t, P t → Q t) : Gives i s Q := by
  obtain ⟨t, hrun, ht⟩ := h
  exact ⟨t, hrun, hPQ t ht⟩

/-- Settles O14: a start builds on a state with the same bytes and appends its line; a completion keeps what `lineMeasured` has written; a miss is
`noteMiss` after a change of the cell's own buffers, once for each row of a VIDEO cell. -/
theorem cellLinesStartCompleteAndMiss : Obligations.CellLinesStartCompleteAndMiss := by
  unfold Obligations.CellLinesStartCompleteAndMiss
  refine ⟨fun s f p l evict late fr n h => gives_cellLineStart evict late h, fun s f p l evict late h => gives_cellLineStart_none evict late h,
    fun s f p lead pal spare b k c h hb hk => ?_, fun s f p lead pal spare b base n h hb hclk hn hslack => ?_,
    fun s f p lead pal spare h => gives_lineDone_idle lead pal spare h,
    fun s f p l due hdue => ⟨gives_lineMissed_idle hdue, gives_lineMissed_line hdue, gives_lineMissed_rows hdue⟩⟩
  case refine_1 =>
    suffices hdone : Gives (.cellLineDone f p lead spare pal) s (fun t =>
        LineDone f p k c b (lineCrc (mixLine f p b pal s)) s.dev t.dev ∧ SameMem s t ∧ t.pending = s.pending) by
      refine hdone.imp fun t ⟨⟨hlast, hclk, hcrc, hmin, hhist, hlen, hall, hothers, hpart, hregs⟩, hmem, hpending⟩ => ?_
      exact ⟨hlast, hclk, hcrc, hmin, hhist, hlen, hall, hothers, hmem, hpending, hpart, hregs⟩
    split at hk
    next hnone =>
      obtain ⟨rfl, rfl⟩ := hk
      exact gives_lineDone_untimed h hb hnone
    next base hbase =>
      obtain ⟨n, hn, hk, rfl⟩ := hk
      exact gives_lineDone_timed h hb hbase hn hk
  case refine_2 =>
    refine (gives_lineDone_late h hclk hn hslack).imp fun t ⟨⟨hcount, hevt, hirq, hcalm, hpart, hregs⟩, hmem, hpending⟩ => ?_
    have hlast : ¬ MissReg f p (Reg.CELL_SLACK_LAST f p) := by
      unfold MissReg InConj Reg.CELL_SLACK_LAST Reg.CELL_MISS Reg.CELL_EVT Reg.FLOCK_IRQ
      omega
    exact ⟨hcount, hevt, hirq, hregs _ hlast, hcalm, hmem, hpending, hpart, hregs⟩

end Sys2Proof.Machine

/-! PROOFS. The commands of the power states, and the heads and the session that an entry ends (O51). -/
namespace Sys2Proof.Machine

-- One proof after another: proofs that wait for the kernel at once would take more threads than the check's memory holds.
set_option Elab.async false

theorem exec_pwrRun (q : Req) (s : State) : exec (.pwrRun q) s = .next (s.upd (pwrRun q)) := rfl
theorem exec_pwrStandby (q : Req) (s : State) : exec (.pwrStandby q) s = .next (s.upd (pwrStandby q)) := rfl
theorem exec_pwrDeep (q : Req) (s : State) : exec (.pwrDeep q) s = .next (s.upd (pwrDeep q)) := rfl

/-! ### STATE of PWR_STATUS -/

theorem Dev.pwr_congr {d e : Dev} (h : e.rd Reg.PWR_STATUS = d.rd Reg.PWR_STATUS) : e.pwr = d.pwr := Dev.fld_congr h 2 0

theorem pwr_setPwr {n : Nat} (hn : n < 8) (d : Dev) : (setPwr n d).pwr = n := Dev.fld_setFld_same d Reg.PWR_STATUS (by decide) hn

theorem regsOnly_setPwr (n : Nat) (d : Dev) : RegsOnly (· = Reg.PWR_STATUS) d (setPwr n d) := regsOnly_wr (by rfl) _ d

/-! ### Refusals (R559) -/

/-- The registers that a refusal writes. -/
def PwrRefuseReg (o : Nat) : Prop := o = Reg.PWR_STATUS ∨ o = Reg.PWR_FLAGS

/-- A refusal, before the requester is answered. -/
def refusalNoted (cause : Nat) (d : Dev) : Dev := (d.setFld Reg.PWR_STATUS 7 4 cause).setBit Reg.PWR_FLAGS 0

theorem pwrRefuse_eq (cause : Nat) (d : Dev) : pwrRefuse cause d = (refusalNoted cause d).okay := rfl

theorem refusalNoted_notes {c : Nat} (hc : c < 16) (d : Dev) : (refusalNoted c d).fld Reg.PWR_STATUS 7 4 = c ∧
    (refusalNoted c d).bit Reg.PWR_FLAGS 0 = true ∧ (refusalNoted c d).pwr = d.pwr ∧ RegsOnly PwrRefuseReg d (refusalNoted c d) := by
  have hne : Reg.PWR_STATUS ≠ Reg.PWR_FLAGS := by decide
  unfold refusalNoted
  refine ⟨?_, Dev.bit_setBit_same _ _ (by decide), ?_, (regsOnly_wr (.inl rfl) _ d).trans (regsOnly_wr (.inr rfl) _ _)⟩
  · rw [Dev.fld_congr (Dev.rd_setBit_ne _ _ hne), Dev.fld_setFld_same _ _ (by decide) hc]
  · rw [Dev.pwr_congr (Dev.rd_setBit_ne _ _ hne)]
    exact Dev.fld_setFld_disjoint _ _ _ (by decide) (by decide) (by decide)

/-- A command that is refused for a cause. -/
theorem gives_pwr_refused {i : Instr} {s : State} {f : Dev → Dev} {c : Nat} (he : exec i s = .next (s.upd f)) (hf : f s.dev = pwrRefuse c s.dev)
    (hc : c < 16) : Gives i s (fun t => t.dev.fld Reg.PWR_STATUS 7 4 = c ∧ t.dev.bit Reg.PWR_FLAGS 0 = true ∧ t.dev.pwr = s.dev.pwr ∧
      t.dev.resp = .ok 0 ∧ OnlyRegs (fun o => o = Reg.PWR_STATUS ∨ o = Reg.PWR_FLAGS) s t) := by
  rw [pwrRefuse_eq] at hf
  obtain ⟨hcause, hflag, hpwr, hregs⟩ := refusalNoted_notes hc s.dev
  generalize refusalNoted c s.dev = e at hf hcause hflag hpwr hregs
  exact gives_of_upd he hf ⟨hcause, hflag, hpwr, rfl, hregs.onlyRegs_okay⟩

theorem pwrBusy_lt (d : Dev) : pwrBusy d < 16 := by
  unfold pwrBusy
  split
  · decide
  · split <;> decide

section
variable {q : Req} {d : Dev}

theorem pwr_denied (h : pwrMay q d = false) : pwrRun q d = d.deny ∧ pwrStandby q d = d.deny ∧ pwrDeep q d = d.deny := by
  unfold pwrRun pwrStandby pwrDeep
  simp [h]

variable (h : pwrMay q d = true)
include h

theorem pwrRun_refused (h0 : d.pwr ≠ 0) (h2 : d.pwr ≠ 2) : pwrRun q d = pwrRefuse 3 d := by
  unfold pwrRun
  rw [if_neg (by simp [h])]
  split
  next hp => exact absurd hp h0
  next hp => exact absurd hp h2
  next => rfl

theorem pwrRun_running (h0 : d.pwr = 0) : pwrRun q d = d.okay := by
  unfold pwrRun
  rw [if_neg (by simp [h]), h0]
  rfl

theorem pwrRun_standby (h2 : d.pwr = 2) : pwrRun q d = (setPwr 3 (d.pwUpd (fun p => { p with since := d.clk }))).okay := by
  unfold pwrRun
  rw [if_neg (by simp [h]), h2]
  rfl

/-- An entry that is refused, for the cause that the state or the work gives. -/
theorem pwrEntry_refused {c : Nat} (hc : c = if d.pwr = 0 then pwrBusy d else 3) (hc0 : c ≠ 0) :
    pwrStandby q d = pwrRefuse c d ∧ pwrDeep q d = pwrRefuse c d := by
  have hmay : ¬ (!pwrMay q d) = true := by simp [h]
  by_cases hp : d.pwr = 0
  · rw [if_pos hp] at hc
    obtain ⟨n, rfl⟩ := Nat.exists_eq_succ_of_ne_zero hc0
    constructor
    · rw [pwrStandby, if_neg hmay, if_neg (not_not.2 hp), ← hc]
      rfl
    · rw [pwrDeep, if_neg hmay, if_neg (not_not.2 hp), ← hc]
      rfl
  · rw [if_neg hp] at hc
    subst hc
    constructor
    · rw [pwrStandby, if_neg hmay, if_pos hp]
    · rw [pwrDeep, if_neg hmay, if_pos hp]

theorem pwrEntry_accepted (hp : d.pwr = 0) (hb : pwrBusy d = 0) :
    pwrStandby q d = (headsStandby (setPwr 1 d)).okay ∧ pwrDeep q d = (endSession (headsStandby (setPwr 4 d))).okay := by
  have hmay : ¬ (!pwrMay q d) = true := by simp [h]
  constructor
  · rw [pwrStandby, if_neg hmay, if_neg (not_not.2 hp), hb]
    rfl
  · rw [pwrDeep, if_neg hmay, if_neg (not_not.2 hp), hb]
    rfl

end

/-! ### Heads that take STANDBY (R212, R214, R224, R559) -/

/-- The registers of the pages of head m. -/
def InHeadPage (m o : Nat) : Prop := 0x2000000 + m * 0x100000 ≤ o ∧ o < 0x2000000 + m * 0x100000 + 0x100000

/-- Only head m changes. -/
def OnHead (m : Nat) (d e : Dev) : Prop := Within headPart (InHeadPage m) d e ∧ ∀ k, k ≠ m → e.head k = d.head k

theorem OnHead.trans {m : Nat} {d e x : Dev} (h : OnHead m d e) (k : OnHead m e x) : OnHead m d x :=
  ⟨h.1.trans k.1, fun n hn => (k.2 n hn).trans (h.2 n hn)⟩

theorem onHead_wr {m o : Nat} (ho : InHeadPage m o) (v : Word) (d : Dev) : OnHead m d (d.wr o v) := ⟨within_wr ho v d, fun _ _ => rfl⟩

theorem onHead_updLs (m : Nat) (u : LsSt → LsSt) (d : Dev) : OnHead m d (d.updLs m u) := ⟨within_updLs m u d, fun _ _ => rfl⟩

theorem onHead_updHead (m : Nat) (u : HeadSt → HeadSt) (d : Dev) : OnHead m d (d.updHead m u) :=
  ⟨within_updHead m u d, fun k hk => by rw [Dev.head_updHead, if_neg hk]⟩

theorem onHead_stopScript (m : Nat) (d : Dev) : OnHead m d (stopScript m d) := by
  have hbank : InHeadPage m (Reg.LS_BANK m) := by unfold InHeadPage Reg.LS_BANK; omega
  have hpos : InHeadPage m (Reg.LS_POS m) := by unfold InHeadPage Reg.LS_POS; omega
  unfold stopScript lsEnd lsPos
  dsimp only
  exact (((onHead_wr hbank _ d).trans (onHead_updLs m _ _)).trans (onHead_updLs m _ _)).trans (onHead_wr hpos _ _)

theorem inHeadPage_headStatus (m : Nat) : InHeadPage m (Reg.HEAD_STATUS m) := by unfold InHeadPage Reg.HEAD_STATUS; omega

theorem onHead_phyDown (m : Nat) (d : Dev) : OnHead m d (phyDown m d) := by
  have hphy : InHeadPage m (Reg.PHY_STATUS m) := by unfold InHeadPage Reg.PHY_STATUS; omega
  unfold phyDown
  exact ((onHead_wr hphy _ d).trans (onHead_wr (inHeadPage_headStatus m) _ _)).trans (onHead_updHead m _ _)

/-- Head m stands in STANDBY. -/
def standbyMarked (m : Nat) (d : Dev) : Dev :=
  ((setHeadState m 5 (stopScript m d)).setBit (Reg.HEAD_FLAGS m) 3).updHead m (fun x =>
    { x with stop := 0, reading := false, view := [], sls := [], mid := [], late := [] })

theorem enterStopOne_standby (m : Nat) (d : Dev) : enterStopOne m true d = phyDown m (standbyMarked m d) := rfl

theorem onHead_enterStandbyOne (m : Nat) (d : Dev) : OnHead m d (enterStopOne m true d) := by
  have hflags : InHeadPage m (Reg.HEAD_FLAGS m) := by unfold InHeadPage Reg.HEAD_FLAGS; omega
  rw [enterStopOne_standby]
  unfold standbyMarked setHeadState
  exact ((((onHead_stopScript m d).trans (onHead_wr (inHeadPage_headStatus m) _ _)).trans (onHead_wr hflags _ _)).trans
    (onHead_updHead m _ _)).trans (onHead_phyDown m _)

theorem headState_congr {d e : Dev} {h : Nat} (hr : e.rd (Reg.HEAD_STATUS h) = d.rd (Reg.HEAD_STATUS h)) : headState e h = headState d h :=
  Dev.fld_congr hr 2 0

theorem Dev.rd_updHead (d : Dev) (h : Nat) (u : HeadSt → HeadSt) (o : Nat) : (d.updHead h u).rd o = d.rd o := rfl

theorem headState_phyDown (m : Nat) (d : Dev) : headState (phyDown m d) m = headState d m := by
  have hne : Reg.HEAD_STATUS m ≠ Reg.PHY_STATUS m := by unfold Reg.HEAD_STATUS Reg.PHY_STATUS; omega
  rw [phyDown, headState_congr (Dev.rd_updHead ..), headState, Dev.fld_clrBit_outside _ _ (by decide) (by decide) (by decide)]
  exact headState_congr (Dev.rd_clrBit_ne _ _ hne)

theorem headState_enterStandbyOne (m : Nat) (d : Dev) : headState (enterStopOne m true d) m = 5 := by
  have hne : Reg.HEAD_STATUS m ≠ Reg.HEAD_FLAGS m := by unfold Reg.HEAD_STATUS Reg.HEAD_FLAGS; omega
  rw [enterStopOne_standby, headState_phyDown, standbyMarked, headState_congr (Dev.rd_updHead ..), headState_congr (Dev.rd_setBit_ne _ _ hne)]
  exact Dev.fld_setFld_same _ _ (by decide) (by decide)

/-- A head that changes has gone to STANDBY, or it waits to do so. -/
def Halting (d e : Dev) : Prop := ∀ k < 8,
  headState e k = 5 ∨ headState e k = headState d k ∧ ((e.head k).stop = (d.head k).stop ∨ (e.head k).stop = 2)

/-- Heads halt, and nothing else changes. -/
def HaltOnly (d e : Dev) : Prop := Halting d e ∧ Within headPart InHeads d e

theorem HaltOnly.refl (d : Dev) : HaltOnly d d := ⟨fun _ _ => .inr ⟨rfl, .inl rfl⟩, .refl d⟩

theorem HaltOnly.trans {d e x : Dev} (h : HaltOnly d e) (k : HaltOnly e x) : HaltOnly d x := by
  refine ⟨fun n hn => ?_, h.2.trans k.2⟩
  obtain hx | ⟨hx, hs⟩ := k.1 n hn
  · exact .inl hx
  · obtain he | ⟨he, hs'⟩ := h.1 n hn
    · exact .inl (hx.trans he)
    · refine .inr ⟨hx.trans he, ?_⟩
      obtain hs | hs := hs
      · rwa [hs]
      · exact .inr hs

theorem haltOnly_of_onHead {m : Nat} (hm : m < 8) {d e : Dev} (h : OnHead m d e)
    (hstate : headState e m = 5 ∨ headState e m = headState d m ∧ ((e.head m).stop = (d.head m).stop ∨ (e.head m).stop = 2)) : HaltOnly d e := by
  refine ⟨fun k hk => ?_, h.1.mono fun o ho => ?_⟩
  · by_cases hkm : k = m
    · rwa [hkm]
    · refine .inr ⟨headState_congr (h.1.2 _ fun ho => ?_), .inl (by rw [h.2 k hkm])⟩
      unfold InHeadPage Reg.HEAD_STATUS at ho
      omega
  · unfold InHeadPage at ho
    unfold InHeads
    omega

theorem haltOnly_enterStandbyOne {m : Nat} (hm : m < 8) (d : Dev) : HaltOnly d (enterStopOne m true d) :=
  haltOnly_of_onHead hm (onHead_enterStandbyOne m d) (.inl (headState_enterStandbyOne m d))

/-- A head takes STANDBY, and the mirrors that follow it. -/
theorem haltOnly_enterStandby {h : Nat} (hh : h < 8) (d : Dev) : HaltOnly d (enterStop h true d) ∧ headState (enterStop h true d) h = 5 := by
  unfold enterStop
  refine List.foldlRecOn (motive := fun e => HaltOnly d e ∧ headState e h = 5) _ _
    ⟨haltOnly_enterStandbyOne hh d, headState_enterStandbyOne h d⟩ fun e ⟨he, h5⟩ m hm => ?_
  split
  · exact ⟨he, h5⟩
  · have hone := haltOnly_enterStandbyOne (lt_of_mirrorsOf hm) e
    refine ⟨he.trans hone, ?_⟩
    obtain hx | ⟨hx, -⟩ := hone.1 h hh
    · exact hx
    · exact hx.trans h5

/-- What STANDBY leaves of the mark that a mirror halts on its own. -/
def ownHalt (h : Nat) (d : Dev) : Dev := if isMirror d h then d.updHead h (fun x => { x with own := true }) else d

theorem ownHalt_same {h : Nat} (hh : h < 8) (d : Dev) : HaltOnly d (ownHalt h d) ∧ headState (ownHalt h d) h = headState d h := by
  unfold ownHalt
  split
  · refine ⟨haltOnly_of_onHead hh (onHead_updHead h _ d) (.inr ⟨headState_congr (Dev.rd_updHead ..), .inl ?_⟩), headState_congr (Dev.rd_updHead ..)⟩
    rw [Dev.head_updHead, if_pos rfl]
  · exact ⟨.refl d, rfl⟩

/-- STANDBY of a head that has no picture. -/
theorem headHalt_stopped {h : Nat} {d : Dev} (hs : headState d h = 1 ∨ headState d h = 2) : headHalt h true d = enterStop h true (ownHalt h d) := by
  unfold headHalt
  obtain hs | hs := hs <;> rw [hs] <;> rfl

/-- STANDBY of a head that shows one waits for the end of the frame. -/
theorem headHalt_shown {h : Nat} {d : Dev} (hs : headState d h = 3 ∨ headState d h = 4) :
    headHalt h true d = (ownHalt h d).updHead h (fun x => { x with stop := 2 }) := by
  unfold headHalt
  obtain hs | hs := hs <;> rw [hs] <;> rfl

/-- A head that an entry has asked to take STANDBY. -/
def Halted (h : Nat) (d e : Dev) : Prop :=
  (headState d h = 1 ∨ headState d h = 2 → headState e h = 5) ∧ (headState d h = 3 ∨ headState d h = 4 → headState e h = 5 ∨ (e.head h).stop = 2)

/-- One head of the loop of an entry. -/
def headStandby (h : Nat) (d : Dev) : Dev := if 1 ≤ headState d h && headState d h ≤ 4 then headHalt h true d else d

theorem headsStandby_eq (d : Dev) : headsStandby d = forN 8 d headStandby := rfl

theorem haltOnly_headStandby {h : Nat} (hh : h < 8) (d : Dev) : HaltOnly d (headStandby h d) ∧ Halted h d (headStandby h d) := by
  obtain ⟨hown, hownState⟩ := ownHalt_same hh d
  unfold headStandby
  split
  next hrange =>
    have hcases : (headState d h = 1 ∨ headState d h = 2) ∨ headState d h = 3 ∨ headState d h = 4 := by
      simp only [Bool.and_eq_true, decide_eq_true_eq] at hrange
      omega
    obtain hs | hs := hcases
    · rw [headHalt_stopped hs]
      obtain ⟨hhalt, h5⟩ := haltOnly_enterStandby hh (ownHalt h d)
      exact ⟨hown.trans hhalt, fun _ => h5, fun _ => .inl h5⟩
    · rw [headHalt_shown hs]
      have hstop : (((ownHalt h d).updHead h (fun x => { x with stop := 2 })).head h).stop = 2 := by rw [Dev.head_updHead, if_pos rfl]
      have hstate : headState ((ownHalt h d).updHead h (fun x => { x with stop := 2 })) h = headState (ownHalt h d) h := headState_congr (Dev.rd_updHead ..)
      refine ⟨hown.trans (haltOnly_of_onHead hh (onHead_updHead h _ _) (.inr ⟨hstate, .inr hstop⟩)), fun h12 => ?_, fun _ => .inr hstop⟩
      omega
  next hrange =>
    simp only [Bool.and_eq_true, decide_eq_true_eq] at hrange
    exact ⟨.refl d, fun _ => by omega, fun _ => by omega⟩

/-- Every head takes STANDBY, or waits to. -/
theorem headsStandby_notes (d : Dev) : HaltOnly d (headsStandby d) ∧ ∀ h < 8, Halted h d (headsStandby d) := by
  rw [headsStandby_eq]
  refine forN_done (R := HaltOnly) .refl .trans (D := fun h e => h < 8 → Halted h d e) ?_ 8 d headStandby ?_ |>.imp id fun hall h hh => hall h hh hh
  · intro h e x hx he hh
    obtain ⟨hstopped, hshown⟩ := he hh
    obtain hx | ⟨hx, hs⟩ := hx.1 h hh
    · exact ⟨fun _ => hx, fun _ => .inl hx⟩
    · refine ⟨fun h12 => hx.trans (hstopped h12), fun h34 => ?_⟩
      obtain h5 | h2 := hshown h34
      · exact .inl (hx.trans h5)
      · exact .inr (hs.elim (·.trans h2) id)
  · intro h hh e he
    obtain ⟨hstep, hstopped, hshown⟩ := haltOnly_headStandby hh e
    refine ⟨hstep, fun _ => ?_⟩
    obtain h5 | ⟨hsame, -⟩ := he.1 h hh
    · obtain hx | ⟨hx, -⟩ := hstep.1 h hh
      · exact ⟨fun _ => hx, fun _ => .inl hx⟩
      · exact ⟨fun _ => hx.trans h5, fun _ => .inl (hx.trans h5)⟩
    · rw [hsame] at hstopped hshown
      exact ⟨hstopped, hshown⟩


/-! ### The session that DEEP ends (R508, R561) -/

/-- The registers that the end of a session may change. -/
def SessionReg (o : Nat) : Prop := o ≠ Reg.PWR_STATUS ∧ ¬ InHeads o

/-- The die but for its heads, of another. -/
def sessionPart (e d : Dev) : Dev := { d with heads := e.heads }

theorem sessionReg_of_page {o : Nat} (h1 : 0x10000 ≤ o) (h2 : o < 0x2000000) : SessionReg o := by
  unfold SessionReg InHeads Reg.PWR_STATUS
  omega

theorem within_session_of_heads {d e : Dev} (hh : e.heads = d.heads) (hr : ∀ o, ¬ SessionReg o → e.rd o = d.rd o) :
    Within sessionPart SessionReg d e := by
  refine ⟨?_, hr⟩
  unfold sessionPart
  rw [hh]

theorem sessionReg_of_yokeReg {y o : Nat} (hy : y < 8) (h : YokeReg y o) : SessionReg o := by
  unfold SessionReg InHeads Reg.PWR_STATUS
  unfold YokeReg Reg.Y_STATUS Reg.Y_PC Reg.YOKE_STATE Reg.CKPT_HT Reg.Y_TRAPS Reg.REGIME_STATUS Reg.MODE Reg.ST_STATUS Reg.ST_FLAGS at h
  omega

theorem within_session_of_ownYoke {y : Nat} (hy : y < 8) {d e : Dev} (h : OwnYoke y d e) : Within sessionPart SessionReg d e :=
  within_session_of_heads (congrArg Dev.heads h.2.1 :) fun o ho => h.2.2 o fun hy' => ho (sessionReg_of_yokeReg hy hy')

/-- A read of the peer that a yoke waits for ends with an access error. -/
theorem ownYoke_yokeLoadAnswer_accessError (y tag : Nat) (d : Dev) : OwnYoke y d (yokeLoadAnswer y tag .accessError d) := by
  unfold yokeLoadAnswer
  split
  · split
    · exact ((ownYoke_updYk y _ d).trans (ownYoke_updYk y _ _)).trans (ownYoke_yokeTrap y 5 _ _)
    · exact .rfl y d
  · exact .rfl y d

/-- A change of a part that no head and no register depends on. -/
theorem within_session_other {d e : Dev} (hh : e.heads = d.heads) (hr : e.regs = d.regs) : Within sessionPart SessionReg d e :=
  within_session_of_heads hh fun o _ => by rw [Dev.rd, hr, Dev.rd]

theorem within_session_peerAnswer (r : PeerRead) (d : Dev) : Within sessionPart SessionReg d (peerAnswer r 1 [] d) := by
  have hreads : Within sessionPart SessionReg d (d.drvUpd (fun x => { x with reads := x.reads.filter (fun p => p.tag != r.tag) })) :=
    within_session_other rfl rfl
  unfold peerAnswer
  dsimp only
  refine hreads.trans ?_
  split
  · exact .ite (fun hy => within_session_of_ownYoke hy (ownYoke_yokeLoadAnswer_accessError _ _ _)) fun _ => .refl _
  · exact within_session_other rfl rfl
  · exact within_session_other rfl rfl

theorem within_session_wr {o : Nat} (h1 : 0x10000 ≤ o) (h2 : o < 0x2000000) (v : Word) (d : Dev) : Within sessionPart SessionReg d (d.wr o v) :=
  within_wr (g := sessionPart) (sessionReg_of_page h1 h2) v d

/-- The session is forgotten. -/
def DrvSt.cleared (x : DrvSt) : DrvSt := { x with
  next := 0, txSeq := 0, queue := [], resend := none, fails := 0, nakAt := none, nakDue := false, ackDue := false, badRun := 0
  owed := [], session := none }

/-- The session's frames, credits and windows are gone. -/
def sessionCleared (d : Dev) : Dev :=
  forN 64 (setOut [] ((d.drv.reads.foldl (fun d r => peerAnswer r 1 [] d) d).drvUpd DrvSt.cleared)) (fun s d => d.wr (Reg.TX_CREDITS s) 0)

/-- The session counts what it drops, and the link is DOWN. -/
def sessionDown (n : Nat) (d : Dev) : Dev := setDrvState 0 (d.bumpBy Reg.DROPPED n)

theorem endSession_eq (d : Dev) : endSession d =
    if d.drv.session.isSome then fire 0x2FA ((sessionDown (d.drv.out.length + d.drv.queue.length) (sessionCleared d)).setBit Reg.DRV_FLAGS 1)
    else sessionDown (d.drv.out.length + d.drv.queue.length) (sessionCleared d) := rfl

/-- The link is DOWN without a session, and the heads stay as they are. -/
def SessionGone (d e : Dev) : Prop := drvState e = 0 ∧ e.drv.session = none ∧ Within sessionPart SessionReg d e

theorem sessionCleared_notes (d : Dev) : (sessionCleared d).drv.session = none ∧ Within sessionPart SessionReg d (sessionCleared d) := by
  have hreads : Within sessionPart SessionReg d (d.drv.reads.foldl (fun d r => peerAnswer r 1 [] d) d) :=
    .foldl _ _ (fun r _ e => within_session_peerAnswer r e) d
  unfold sessionCleared
  generalize d.drv.reads.foldl (fun d r => peerAnswer r 1 [] d) d = e at hreads ⊢
  have hout : Within sessionPart SessionReg e (setOut [] (e.drvUpd DrvSt.cleared)) :=
    Within.trans (e := (e.drvUpd DrvSt.cleared).drvUpd (fun x => { x with out := [] })) (within_session_other rfl rfl)
      (within_session_wr (by decide) (by decide) _ _)
  have hnone : (setOut [] (e.drvUpd DrvSt.cleared)).drv.session = none := rfl
  generalize setOut [] (e.drvUpd DrvSt.cleared) = x at hout hnone ⊢
  have hcredits : RegsOnly SessionReg x (forN 64 x (fun s d => d.wr (Reg.TX_CREDITS s) 0)) :=
    regsOnly_forN 64 _ (fun n hn y => regsOnly_wr (sessionReg_of_page (by unfold Reg.TX_CREDITS; omega) (by unfold Reg.TX_CREDITS; omega)) _ y) x
  exact ⟨(congrArg (fun y => y.drv.session) hcredits.1).trans hnone,
    (hreads.trans hout).trans (hcredits.within (g := sessionPart) (fun _ _ => rfl) fun _ => rfl)⟩

theorem sessionGone_sessionDown (n : Nat) {d e : Dev} (h : e.drv.session = none) (hw : Within sessionPart SessionReg d e) :
    SessionGone d (sessionDown n e) := by
  refine ⟨Dev.fld_setFld_same _ Reg.DRV_STATUS (by decide) (by decide), h, ?_⟩
  exact (hw.trans (within_session_wr (by decide) (by decide) _ _)).trans (within_session_wr (by decide) (by decide) _ _)

theorem sessionGone_fired {d e : Dev} (h : SessionGone d e) : SessionGone d (fire 0x2FA (e.setBit Reg.DRV_FLAGS 1)) := by
  obtain ⟨hdown, hnone, hw⟩ := h
  have hflag : Within sessionPart SessionReg e (e.setBit Reg.DRV_FLAGS 1) := within_session_wr (by decide) (by decide) _ _
  have hfire := firingOnly_fire 0x2FA (e.setBit Reg.DRV_FLAGS 1)
  have hstatus : (fire 0x2FA (e.setBit Reg.DRV_FLAGS 1)).rd Reg.DRV_STATUS = e.rd Reg.DRV_STATUS :=
    (hfire.2 _ (by unfold InConj; decide)).trans (Dev.rd_setBit_ne _ _ (by decide))
  refine ⟨(Dev.fld_congr hstatus 1 0).trans hdown, (congrArg (fun y => y.drv.session) hfire.1).trans hnone, (hw.trans hflag).trans ?_⟩
  refine within_session_of_heads (congrArg Dev.heads hfire.1 :) fun o ho => hfire.2 o fun hc => ho (sessionReg_of_page ?_ ?_)
  · exact le_trans (by decide) hc.1
  · exact lt_trans hc.2 (by decide)

theorem endSession_notes (d : Dev) : SessionGone d (endSession d) := by
  obtain ⟨hnone, hw⟩ := sessionCleared_notes d
  have hdown := sessionGone_sessionDown (d.drv.out.length + d.drv.queue.length) hnone hw
  rw [endSession_eq]
  split
  · exact sessionGone_fired hdown
  · exact hdown

theorem headState_of_session {d e : Dev} (h : Within sessionPart SessionReg d e) {k : Nat} (hk : k < 8) : headState e k = headState d k :=
  headState_congr (h.2 _ fun ho => ho.2 (by unfold InHeads Reg.HEAD_STATUS; omega))

theorem head_of_session {d e : Dev} (h : Within sessionPart SessionReg d e) (k : Nat) : e.head k = d.head k := by
  have hh : e.heads = d.heads := (congrArg Dev.heads h.1 :)
  rw [Dev.head, hh, Dev.head]

theorem pwr_of_session {d e : Dev} (h : Within sessionPart SessionReg d e) : e.pwr = d.pwr := Dev.pwr_congr (h.2 _ fun ho => ho.1 rfl)

end Sys2Proof.Machine

/-! PROOFS. What the commands of the power states give (O51). -/
namespace Sys2Proof.Machine

-- One proof after another: proofs that wait for the kernel at once would take more threads than the check's memory holds.
set_option Elab.async false

/-! ### Commands (R559 to R561) -/

/-- A head that an entry has asked to take STANDBY, after a change that leaves heads as they are. -/
theorem Halted.of_same {h : Nat} {d d' e e' : Dev} (hh : Halted h d e) (hd : headState d h = headState d' h) (he : headState e' h = headState e h)
    (hstop : e'.head h = e.head h) : Halted h d' e' := by
  unfold Halted at hh ⊢
  rw [he, hstop, ← hd]
  exact hh

theorem headState_setPwr (n : Nat) (d : Dev) {h : Nat} (hh : h < 8) : headState (setPwr n d) h = headState d h :=
  headState_congr (Dev.rd_setFld_ne _ _ _ _ (by unfold Reg.HEAD_STATUS Reg.PWR_STATUS; omega))

/-- The heads halt, and the state of power is the one that the entry begins with. -/
theorem headsStandby_entered {n : Nat} (hn : n < 8) (d : Dev) :
    (headsStandby (setPwr n d)).pwr = n ∧ ∀ h < 8, Halted h d (headsStandby (setPwr n d)) := by
  obtain ⟨⟨-, hw⟩, hall⟩ := headsStandby_notes (setPwr n d)
  refine ⟨(Dev.pwr_congr (hw.2 _ (by unfold InHeads; decide))).trans (pwr_setPwr hn d), fun h hh => ?_⟩
  exact (hall h hh).of_same (headState_setPwr n d hh) rfl rfl

section
variable {s : State} {q : Req}

theorem gives_pwrRun_standby (h : pwrMay q s.dev = true) (h2 : s.dev.pwr = 2) : Gives (.pwrRun q) s (fun t => t.dev.pwr = 3 ∧
    t.dev.pw = { s.dev.pw with since := s.dev.clk } ∧ t.dev.resp = .ok 0 ∧
    Leaves (fun d e => { d with regs := e.regs, pw := e.pw, resp := e.resp }) (· = Reg.PWR_STATUS) s t) := by
  refine gives_of_upd (exec_pwrRun q s) (pwrRun_standby h h2) ⟨pwr_setPwr (by decide) _, rfl, rfl, rfl, rfl, rfl, fun o ho => ?_⟩
  exact Dev.rd_setFld_ne _ _ _ _ ho

theorem gives_pwrRun_running (h : pwrMay q s.dev = true) (h0 : s.dev.pwr = 0) : Gives (.pwrRun q) s (fun t => t.dev = s.dev.okay ∧
    SameMem s t ∧ t.pending = s.pending) :=
  gives_of_upd (exec_pwrRun q s) (pwrRun_running h h0) ⟨rfl, rfl, rfl⟩

/-- What an accepted entry gives. -/
def EntryBegun (deep : Bool) (s t : State) : Prop :=
  t.dev.pwr = (if deep then 4 else 1) ∧ t.dev.resp = .ok 0 ∧ (∀ h < 8, Halted h s.dev t.dev) ∧
    (deep = true → drvState t.dev = 0 ∧ t.dev.drv.session = none) ∧ SameMem s t ∧ t.pending = s.pending

variable (h : pwrMay q s.dev = true) (hp : s.dev.pwr = 0) (hb : pwrBusy s.dev = 0)
include h hp hb

theorem gives_pwrStandby_accepted : Gives (.pwrStandby q) s (EntryBegun false s) := by
  obtain ⟨hpwr, hheads⟩ := headsStandby_entered (n := 1) (by decide) s.dev
  have hf := (pwrEntry_accepted h hp hb).1
  generalize headsStandby (setPwr 1 s.dev) = e at hf hpwr hheads
  exact gives_of_upd (exec_pwrStandby q s) hf ⟨hpwr, rfl, hheads, nofun, rfl, rfl⟩

theorem gives_pwrDeep_accepted : Gives (.pwrDeep q) s (EntryBegun true s) := by
  obtain ⟨hpwr, hheads⟩ := headsStandby_entered (n := 4) (by decide) s.dev
  have hf := (pwrEntry_accepted h hp hb).2
  generalize headsStandby (setPwr 4 s.dev) = e at hf hpwr hheads
  obtain ⟨hdown, hnone, hw⟩ := endSession_notes e
  generalize endSession e = x at hf hdown hnone hw
  exact gives_of_upd (exec_pwrDeep q s) hf ⟨(pwr_of_session hw).trans hpwr, rfl,
    fun k hk => (hheads k hk).of_same rfl (headState_of_session hw hk) (head_of_session hw k), fun _ => ⟨hdown, hnone⟩, rfl, rfl⟩

end

theorem gives_pwrEntry_accepted {s : State} {q : Req} (h : pwrMay q s.dev = true) (hp : s.dev.pwr = 0) (hb : pwrBusy s.dev = 0) {i : Instr}
    (hi : i ∈ [Instr.pwrStandby q, .pwrDeep q]) : Gives i s (fun t => t.dev.pwr = (if i = .pwrDeep q then 4 else 1) ∧ t.dev.resp = .ok 0 ∧
      (∀ h < 8, (headState s.dev h = 1 ∨ headState s.dev h = 2 → headState t.dev h = 5) ∧
        (headState s.dev h = 3 ∨ headState s.dev h = 4 → headState t.dev h = 5 ∨ (t.dev.head h).stop = 2)) ∧
      (i = .pwrDeep q → drvState t.dev = 0 ∧ t.dev.drv.session = none) ∧ SameMem s t ∧ t.pending = s.pending) := by
  obtain rfl | rfl : i = .pwrStandby q ∨ i = .pwrDeep q := by simpa using hi
  · refine (gives_pwrStandby_accepted h hp hb).imp fun t ⟨hpwr, hresp, hheads, _, hmem, hpend⟩ => ?_
    exact ⟨hpwr.trans ((if_neg nofun).trans (if_neg nofun).symm), hresp, hheads, nofun, hmem, hpend⟩
  · refine (gives_pwrDeep_accepted h hp hb).imp fun t ⟨hpwr, hresp, hheads, hgone, hmem, hpend⟩ => ?_
    exact ⟨hpwr.trans ((if_pos rfl).trans (if_pos rfl).symm), hresp, hheads, fun _ => hgone rfl, hmem, hpend⟩

/-- The commands that are refused, with the cause. -/
def PwrRefusal (d : Dev) (q : Req) (i : Instr) (c : Nat) : Prop :=
  i ∈ [Instr.pwrStandby q, .pwrDeep q] ∧ c = (if d.pwr = 0 then pwrBusy d else 3) ∧ c ≠ 0 ∨ i = .pwrRun q ∧ c = 3 ∧ d.pwr ≠ 0 ∧ d.pwr ≠ 2

theorem gives_pwrRefusal {s : State} {q : Req} {i : Instr} {c : Nat} (h : pwrMay q s.dev = true) (hr : PwrRefusal s.dev q i c) :
    Gives i s (fun t => t.dev.fld Reg.PWR_STATUS 7 4 = c ∧ t.dev.bit Reg.PWR_FLAGS 0 = true ∧ t.dev.pwr = s.dev.pwr ∧ t.dev.resp = .ok 0 ∧
      OnlyRegs (fun o => o = Reg.PWR_STATUS ∨ o = Reg.PWR_FLAGS) s t) := by
  obtain ⟨hi, hc, hc0⟩ | ⟨rfl, rfl, h0, h2⟩ := hr
  · have hlt : c < 16 := by
      have := pwrBusy_lt s.dev
      split at hc <;> omega
    obtain ⟨hstandby, hdeep⟩ := pwrEntry_refused h hc hc0
    obtain rfl | rfl : i = .pwrStandby q ∨ i = .pwrDeep q := by simpa using hi
    · exact gives_pwr_refused (exec_pwrStandby q s) hstandby hlt
    · exact gives_pwr_refused (exec_pwrDeep q s) hdeep hlt
  · exact gives_pwr_refused (exec_pwrRun q s) (pwrRun_refused h h0 h2) (by decide)

theorem gives_pwr_denied {s : State} {q : Req} (h : pwrMay q s.dev = false) {i : Instr} (hi : i ∈ [Instr.pwrRun q, .pwrStandby q, .pwrDeep q]) :
    Gives i s (fun t => t.dev = s.dev.deny ∧ SameMem s t ∧ t.pending = s.pending) := by
  obtain ⟨hrun, hstandby, hdeep⟩ := pwr_denied h
  obtain rfl | rfl | rfl : i = .pwrRun q ∨ i = .pwrStandby q ∨ i = .pwrDeep q := by simpa using hi
  · exact gives_of_upd (exec_pwrRun q s) hrun ⟨rfl, rfl, rfl⟩
  · exact gives_of_upd (exec_pwrStandby q s) hstandby ⟨rfl, rfl, rfl⟩
  · exact gives_of_upd (exec_pwrDeep q s) hdeep ⟨rfl, rfl, rfl⟩

end Sys2Proof.Machine

/-! PROOFS. The entry of standby, and its return up to the rise of the array rail (O51). -/
namespace Sys2Proof.Machine

-- One proof after another: proofs that wait for the kernel at once would take more threads than the check's memory holds.
set_option Elab.async false

theorem exec_standbyEntryDone (noRes : List Nat) (s : State) : exec (.standbyEntryDone noRes) s = .next (s.upd (standbyEntry noRes)) := rfl
theorem exec_arrayPgRise (s : State) : exec .arrayPgRise s = .next (s.upd arrayPgRise) := rfl
theorem exec_arrayPgTimeout (s : State) : exec .arrayPgTimeout s = .next (s.upd arrayPgTimeout) := rfl

/-! ### Posts lose their stamps (R557) -/

/-- A post has no stamp and has not joined. -/
def PostDown (f p : Nat) (d : Dev) : Prop := d.rd (Reg.CELL_GEN f p) = 0 ∧ d.bit (Reg.CELL_STATUS f p) 13 = false

/-- Posts that are down stay down. -/
def DownStays (d e : Dev) : Prop := ∀ f, ∀ p < 9, PostDown f p d → PostDown f p e

theorem DownStays.trans {d e x : Dev} (h : DownStays d e) (k : DownStays e x) : DownStays d x := fun f p hp hd => k f p hp (h f p hp hd)

theorem downStays_of_regs {d e : Dev} (h : ∀ f, ∀ p < 9, e.rd (Reg.CELL_GEN f p) = d.rd (Reg.CELL_GEN f p) ∧
    e.bit (Reg.CELL_STATUS f p) 13 = d.bit (Reg.CELL_STATUS f p) 13) : DownStays d e := fun f p hp hd => by
  obtain ⟨hgen, hjoined⟩ := h f p hp
  exact ⟨hgen.trans hd.1, hjoined.trans hd.2⟩

theorem downStays_clearPost (f p : Nat) (d : Dev) : DownStays d (clearPost f p d) := fun f' p' _ hd => by
  obtain ⟨hgen, hjoined, -⟩ := clearPost_marks f p d
  have hother : ∀ o, ¬ PostMark f p o → (clearPost f p d).rd o = d.rd o := (within_clearPost f p d).2
  constructor
  · by_cases h : Reg.CELL_GEN f' p' = Reg.CELL_GEN f p
    · rw [h, hgen]
    · exact (hother _ (not_or.2 ⟨h, cellGen_ne_cellStatus f' p' f p⟩)).trans hd.1
  · by_cases h : Reg.CELL_STATUS f' p' = Reg.CELL_STATUS f p
    · rw [h, hjoined]
    · exact (Dev.bit_congr (hother _ (not_or.2 ⟨(cellGen_ne_cellStatus f p f' p').symm, h⟩)) 13).trans hd.2

theorem setShadow_postMarks (f q : Nat) (d : Dev) (f' : Nat) {p' : Nat} (hp' : p' < 9) :
    (setShadow f q d).rd (Reg.CELL_GEN f' p') = d.rd (Reg.CELL_GEN f' p') ∧
    (setShadow f q d).bit (Reg.CELL_STATUS f' p') 13 = d.bit (Reg.CELL_STATUS f' p') 13 := by
  have hflock : Reg.CELL_STATUS f' p' ≠ Reg.FLOCK_STATUS f := by unfold Reg.CELL_STATUS Reg.FLOCK_STATUS; omega
  constructor
  · refine (regsOnly_setShadow f q d).2 _ fun h => ?_
    obtain h | ⟨p, -, h⟩ := h
    · unfold Reg.CELL_GEN Reg.FLOCK_STATUS at h
      omega
    · exact cellGen_ne_cellStatus f' p' f p h
  · unfold setShadow
    refine forN_ind (fun e : Dev => e.bit (Reg.CELL_STATUS f' p') 13 = d.bit (Reg.CELL_STATUS f' p') 13) 8 _ _
      (Dev.bit_congr (Dev.rd_setFld_ne _ _ _ _ hflock) 13) fun p _ e he => ?_
    by_cases h : Reg.CELL_STATUS f' p' = Reg.CELL_STATUS f p
    · rw [h] at he ⊢
      exact (Dev.bit_putBit_outside _ _ _ (by decide) (by decide) (by decide)).trans he
    · exact (Dev.bit_congr (Dev.rd_putBit_ne _ _ _ h) 13).trans he

/-- Posts of the cells fall, and nothing but the cells changes. -/
def CellsFall (d e : Dev) : Prop := DownStays d e ∧ Within cellsPart (fun _ => True) d e

theorem CellsFall.refl (d : Dev) : CellsFall d d := ⟨fun _ _ _ h => h, .refl d⟩

theorem CellsFall.trans {d e x : Dev} (h : CellsFall d e) (k : CellsFall e x) : CellsFall d x := ⟨h.1.trans k.1, h.2.trans k.2⟩

theorem cellsFall_clearPost (f p : Nat) (d : Dev) : CellsFall d (clearPost f p d) :=
  ⟨downStays_clearPost f p d, (within_clearPost f p d).mono fun _ _ => trivial⟩

theorem cellsFall_setShadow (f q : Nat) (d : Dev) : CellsFall d (setShadow f q d) :=
  ⟨downStays_of_regs fun f' _ hp => setShadow_postMarks f q d f' hp, (regsOnly_setShadow f q d).within.mono fun _ _ => trivial⟩

/-- The cells of a flock lose their state. -/
def flockDown (f : Nat) (d : Dev) : Dev := setShadow f 15 (forN 9 d (fun p d => clearPost f p d))

theorem flockDown_notes (f : Nat) (d : Dev) : CellsFall d (flockDown f d) ∧ ∀ p < 9, PostDown f p (flockDown f d) := by
  obtain ⟨hfall, hdown⟩ := forN_done (R := CellsFall) .refl .trans (D := fun p e => p < 9 → PostDown f p e)
    (fun p e x hx he hp => hx.1 f p hp (he hp)) 9 d (fun p d => clearPost f p d)
    fun p _ e _ => ⟨cellsFall_clearPost f p e, fun _ => ⟨(clearPost_marks f p e).1, (clearPost_marks f p e).2.1⟩⟩
  have hshadow := cellsFall_setShadow f 15 (forN 9 d (fun p d => clearPost f p d))
  exact ⟨hfall.trans hshadow, fun p hp => hshadow.1 f p hp (hdown p hp hp)⟩

theorem cellsDown_notes (d : Dev) : CellsFall d (cellsDown d) ∧ ∀ f < 16, ∀ p < 9, PostDown f p (cellsDown d) :=
  forN_done (R := CellsFall) .refl .trans (D := fun f e => ∀ p < 9, PostDown f p e) (fun f _ _ hx he p hp => hx.1 f p hp (he p hp)) 16 d flockDown
    fun f _ e _ => flockDown_notes f e

/-! ### STANDBY_ENTRY_DONE (R559, R468) -/

/-- The pending repairs are done, if MEM_CFG asks for it. -/
def PprDone (noRes : List Nat) (d e : Dev) : Prop :=
  d.bit Reg.MEM_CFG 16 = true → e.mc.ppr = [] ∧ e.mc.pprDone = d.mc.pprDone ++ d.mc.ppr.filter (fun p => !noRes.contains p)

/-- A run of pending repairs changes the controller and its flags only. -/
def pprPart (e d : Dev) : Dev := { e with regs := d.regs, mc := d.mc }

/-- A flag of the pages of which repair has told. -/
def pprFlag (n : Nat) (pages : List Nat) (d : Dev) : Dev := if pages.isEmpty then d else d.setBit Reg.MEM_FLAGS n

/-- The pending repairs are over. -/
def pprOver (good : List Nat) (d : Dev) : Dev := d.mcUpd (fun m => { m with ppr := [], pprDone := m.pprDone ++ good })

theorem pprRun_eq (noRes : List Nat) (d : Dev) : pprRun noRes d =
    if !d.bit Reg.MEM_CFG 16 then d
    else pprFlag 7 (d.mc.ppr.filter (fun p => noRes.contains p)) (pprFlag 6 (d.mc.ppr.filter (fun p => !noRes.contains p))
      (pprOver (d.mc.ppr.filter (fun p => !noRes.contains p)) d)) := rfl

theorem regsOnly_pprFlag (n : Nat) (pages : List Nat) (d : Dev) : RegsOnly (fun _ => True) d (pprFlag n pages d) := by
  unfold pprFlag
  split
  · exact .refl _ d
  · exact regsOnly_wr trivial _ d

theorem pprRun_notes (noRes : List Nat) (d : Dev) : PprDone noRes d (pprRun noRes d) ∧ pprPart (pprRun noRes d) d = d := by
  rw [pprRun_eq]
  split
  next hoff => exact ⟨fun hon => absurd hoff (by simp [hon]), rfl⟩
  next =>
    generalize hgood : d.mc.ppr.filter (fun p => !noRes.contains p) = good
    have hflags := (regsOnly_pprFlag 6 good (pprOver good d)).trans (regsOnly_pprFlag 7 (d.mc.ppr.filter (fun p => noRes.contains p)) _)
    generalize pprFlag 7 _ (pprFlag 6 good (pprOver good d)) = e at hflags ⊢
    have hmc : e.mc = (pprOver good d).mc := (congrArg Dev.mc hflags.1 :)
    refine ⟨fun _ => ?_, (congrArg (fun x => pprPart x d) hflags.1 :)⟩
    rw [hmc, hgood]
    exact ⟨rfl, rfl⟩

/-- The array is off, in STANDBY. -/
def arrayOff (d : Dev) : Dev := setPwr 2 (railOff d)

theorem standbyEntry_eq (noRes : List Nat) (d : Dev) : standbyEntry noRes d =
    if d.pwr ≠ 1 || !headsDown d || d.au.runs then d else arrayOff (cellsDown (wearSave (pprRun noRes d))) := rfl

theorem arrayOff_notes (d : Dev) : (arrayOff d).pwr = 2 ∧ (arrayOff d).rail.pg = false ∧ (arrayOff d).bit Reg.RAIL_STATUS 10 = false ∧
    DownStays d (arrayOff d) ∧ (arrayOff d).keep = d.keep ∧ (arrayOff d).mc = d.mc := by
  refine ⟨pwr_setPwr (by decide) _, rfl, ?_, downStays_of_regs fun f p hp => ?_, rfl, rfl⟩
  · exact (Dev.bit_congr (Dev.rd_setFld_ne _ _ _ _ (by decide)) 10).trans (Dev.bit_clrBit_same _ _ (by decide))
  · have hreg (o : Nat) (h : 0x10024 ≤ o) : (arrayOff d).rd o = d.rd o :=
      (Dev.rd_setFld_ne _ _ _ _ (by unfold Reg.PWR_STATUS; omega)).trans (Dev.rd_clrBit_ne _ _ (by unfold Reg.RAIL_STATUS; omega))
    exact ⟨hreg _ (by unfold Reg.CELL_GEN; omega), Dev.bit_congr (hreg _ (by unfold Reg.CELL_STATUS; omega)) 13⟩

theorem wearSave_notes (d : Dev) : (wearSave d).keep.wearSaved = d.keep.wear ∧ (wearSave d).mc = d.mc := ⟨rfl, rfl⟩

theorem Within.keep_mc_of_cellsPart {p : Nat → Prop} {d e : Dev} (h : Within cellsPart p d e) : e.keep = d.keep ∧ e.mc = d.mc :=
  ⟨(congrArg Dev.keep h.1 :), (congrArg Dev.mc h.1 :)⟩

theorem gives_standbyEntryDone {s : State} (noRes : List Nat) (hp : s.dev.pwr = 1) (hh : headsDown s.dev = true) (ha : s.dev.au.runs = false) :
    Gives (.standbyEntryDone noRes) s (fun t => t.dev.pwr = 2 ∧ t.dev.rail.pg = false ∧ t.dev.bit Reg.RAIL_STATUS 10 = false ∧
      t.dev.keep.wearSaved = s.dev.keep.wear ∧
      (∀ f < 16, ∀ p < 9, t.dev.rd (Reg.CELL_GEN f p) = 0 ∧ t.dev.bit (Reg.CELL_STATUS f p) 13 = false) ∧
      (s.dev.bit Reg.MEM_CFG 16 = true → t.dev.mc.ppr = [] ∧
        t.dev.mc.pprDone = s.dev.mc.pprDone ++ s.dev.mc.ppr.filter (fun p => !noRes.contains p)) ∧ SameMem s t ∧ t.pending = s.pending) := by
  have hf : standbyEntry noRes s.dev = arrayOff (cellsDown (wearSave (pprRun noRes s.dev))) := by
    rw [standbyEntry_eq, if_neg (by simp [hp, hh, ha])]
  obtain ⟨hppr, hpart⟩ := pprRun_notes noRes s.dev
  have hkeep : (pprRun noRes s.dev).keep.wear = s.dev.keep.wear := (congrArg (fun x => x.keep.wear) hpart :)
  generalize pprRun noRes s.dev = e at hf hppr hkeep
  obtain ⟨hsaved, hmc⟩ := wearSave_notes e
  generalize wearSave e = w at hf hsaved hmc
  obtain ⟨⟨-, hcells⟩, hdown⟩ := cellsDown_notes w
  obtain ⟨hcellsKeep, hcellsMc⟩ := hcells.keep_mc_of_cellsPart
  generalize cellsDown w = x at hf hdown hcellsKeep hcellsMc
  obtain ⟨hpwr, hpg, hask, hstay, hoffKeep, hoffMc⟩ := arrayOff_notes x
  generalize arrayOff x = y at hf hpwr hpg hask hstay hoffKeep hoffMc
  refine gives_of_upd (exec_standbyEntryDone noRes s) hf ⟨hpwr, hpg, hask, ?_, fun f hf p hp => hstay f p hp (hdown f hf p hp), ?_, rfl, rfl⟩
  · rw [hoffKeep, hcellsKeep, hsaved, hkeep]
  · rw [hoffMc, hcellsMc, hmc]
    exact hppr

theorem gives_standbyEntryDone_idle {s : State} (h : s.dev.pwr ≠ 1 ∨ headsDown s.dev = false ∨ s.dev.au.runs = true) (noRes : List Nat) :
    Gives (.standbyEntryDone noRes) s (fun t => t = s) := by
  refine gives_same (exec_standbyEntryDone noRes s) ?_
  rw [standbyEntry_eq, if_pos]
  obtain h | h | h := h <;> simp [h]

/-! ### ARRAY_PG (R560) -/

theorem updRail_pg_notes (d : Dev) : (d.updRail (fun r => { r with pg := true })).rail.pg = true := rfl

/-- The steward asks for 650 mV once its rail is good. -/
theorem railRequest_notes {d : Dev} (h : d.rail.pg = true) (l : Nat) : (railRequest l d).rail.pg = true ∧
    (d.rail.request = none → (railRequest l d).rail.request = some l) ∧ RailOnly (· = Reg.RAIL_STATUS) d (railRequest l d) := by
  have honly : RailOnly (· = Reg.RAIL_STATUS) d (railRequest l d) := railOnly_railRequest (by rfl) l d
  by_cases hfree : railFree d
  · rw [railRequest_of_free l hfree] at honly ⊢
    exact ⟨h, fun _ => rfl, honly⟩
  · rw [railRequest_of_not_free l hfree] at honly ⊢
    exact ⟨h, fun hnone => absurd ⟨h, hnone⟩ hfree, honly⟩

/-- A rail has risen: the steward writes 650 mV. -/
def railRises (d : Dev) : Dev := railRequest 5 (d.updRail (fun r => { r with pg := true }))

theorem railRises_notes (d : Dev) : (railRises d).rail.pg = true ∧ (d.rail.request = none → (railRises d).rail.request = some 5) ∧
    RailOnly (· = Reg.RAIL_STATUS) d (railRises d) := by
  obtain ⟨hpg, hreq, honly⟩ := railRequest_notes (updRail_pg_notes d) 5
  exact ⟨hpg, hreq, (railOnly_updRail _ _ d).trans honly⟩

theorem arrayPgRise_eq (d : Dev) : arrayPgRise d = if d.pwr ≠ 3 || d.rail.pg then d else railRises d := rfl

/-- A rail that has not risen in 50 ms: the state of power falls back. -/
def railLate (n c : Nat) (d : Dev) : Dev := (setPwr n (d.passClk c)).setBit Reg.PWR_FLAGS 1

theorem arrayPgTimeout_eq (d : Dev) : arrayPgTimeout d = if d.pwr ≠ 3 || d.rail.pg then d else railLate 2 (d.pw.since + 50000000) d := rfl

theorem railLate_notes {n : Nat} (hn : n < 8) (c : Nat) (d : Dev) : (railLate n c d).pwr = n ∧ (railLate n c d).bit Reg.PWR_FLAGS 1 = true ∧
    c ≤ (railLate n c d).clk ∧ { railLate n c d with regs := d.regs, ht := d.ht, clk := d.clk } = d ∧
    ∀ o, ¬ PwrRefuseReg o → (railLate n c d).rd o = d.rd o := by
  have hne : Reg.PWR_STATUS ≠ Reg.PWR_FLAGS := by decide
  have htime := timeOnly_passClk d c
  have hclk : c ≤ (d.passClk c).clk := (le_max_right d.clk c).trans (clk_passClk d c).ge
  unfold railLate
  generalize d.passClk c = e at htime hclk
  refine ⟨?_, Dev.bit_setBit_same _ _ (by decide), hclk, ?_, fun o ho => ?_⟩
  · exact (Dev.pwr_congr (Dev.rd_setBit_ne _ _ hne)).trans (pwr_setPwr hn e)
  · exact (congrArg (fun x : Dev => { x with regs := d.regs }) htime :)
  · obtain ⟨hstatus, hflags⟩ := not_or.1 ho
    exact ((Dev.rd_setBit_ne _ _ hflags).trans (Dev.rd_setFld_ne _ _ _ _ hstatus)).trans (htime.rd o)

theorem gives_railLate {i : Instr} {s : State} {f : Dev → Dev} {n c : Nat} (he : exec i s = .next (s.upd f)) (hf : f s.dev = railLate n c s.dev)
    (hn : n < 8) : Gives i s (fun t => t.dev.pwr = n ∧ t.dev.bit Reg.PWR_FLAGS 1 = true ∧ c ≤ t.dev.clk ∧
      Leaves (fun d e => { d with regs := e.regs, ht := e.ht, clk := e.clk }) (fun o => o = Reg.PWR_STATUS ∨ o = Reg.PWR_FLAGS) s t) := by
  obtain ⟨hpwr, hflag, hclk, hpart, hregs⟩ := railLate_notes hn c s.dev
  exact gives_of_upd he hf ⟨hpwr, hflag, hclk, rfl, rfl, hpart, hregs⟩

section
variable {s : State}

theorem gives_arrayPgRise (hp : s.dev.pwr = 3) (hpg : s.dev.rail.pg = false) : Gives .arrayPgRise s (fun t => t.dev.rail.pg = true ∧
    (s.dev.rail.request = none → t.dev.rail.request = some 5) ∧
    Leaves (fun d e => { d with regs := e.regs, rail := e.rail }) (· = Reg.RAIL_STATUS) s t) := by
  have hf : arrayPgRise s.dev = railRises s.dev := by rw [arrayPgRise_eq, if_neg (by simp [hp, hpg])]
  obtain ⟨hup, hreq, honly⟩ := railRises_notes s.dev
  generalize railRises s.dev = e at hf hup hreq honly
  exact gives_of_upd (exec_arrayPgRise s) hf ⟨hup, hreq, honly.leaves⟩

theorem gives_arrayPgTimeout (hp : s.dev.pwr = 3) (hpg : s.dev.rail.pg = false) : Gives .arrayPgTimeout s (fun t => t.dev.pwr = 2 ∧
    t.dev.bit Reg.PWR_FLAGS 1 = true ∧ s.dev.pw.since + 50000000 ≤ t.dev.clk ∧
    Leaves (fun d e => { d with regs := e.regs, ht := e.ht, clk := e.clk }) (fun o => o = Reg.PWR_STATUS ∨ o = Reg.PWR_FLAGS) s t) :=
  gives_railLate (exec_arrayPgTimeout s) (by rw [arrayPgTimeout_eq, if_neg (by simp [hp, hpg])]) (by decide)

theorem gives_arrayPg_idle (h : s.dev.pwr ≠ 3 ∨ s.dev.rail.pg = true) {i : Instr} (hi : i ∈ [Instr.arrayPgRise, .arrayPgTimeout]) :
    Gives i s (fun t => t = s) := by
  have hidle : (decide (s.dev.pwr ≠ 3) || s.dev.rail.pg) = true := by
    obtain h | h := h <;> simp [h]
  obtain rfl | rfl : i = .arrayPgRise ∨ i = .arrayPgTimeout := by simpa using hi
  · exact gives_same (exec_arrayPgRise s) (by rw [arrayPgRise_eq, if_pos hidle])
  · exact gives_same (exec_arrayPgTimeout s) (by rw [arrayPgTimeout_eq, if_pos hidle])

end

end Sys2Proof.Machine

/-! PROOFS. The return from standby (O51). -/
namespace Sys2Proof.Machine

-- One proof after another: proofs that wait for the kernel at once would take more threads than the check's memory holds.
set_option Elab.async false

theorem exec_standbyExitDone (s : State) : exec .standbyExitDone s = .next (standbyExit s) := rfl

/-! ### Repaired pages are copied back (R468) -/

/-- The registers that the correction of memory may change. -/
abbrev CountReg (o : Nat) : Prop := 0x10000 ≤ o ∧ o < 0x100000

theorem countReg_of_logReg {o : Nat} (h : LogReg o) : CountReg o := by
  obtain rfl | rfl | rfl | rfl | rfl | rfl := h <;> exact ⟨by decide, by decide⟩

theorem within_count_faultLog (cls det idx act res aux : Nat) (d : Dev) : Within notePart CountReg d (faultLog cls det idx act res aux d) :=
  (within_faultLog ..).widen fun _ => countReg_of_logReg

theorem within_count_other {d e : Dev} (h : notePart e d = d) (hr : e.regs = d.regs) : Within notePart CountReg d e := within_of_eq h hr

theorem within_count_mcUpd (f : MemCtl → MemCtl) (d : Dev) : Within notePart CountReg d (d.mcUpd f) := within_of_eq rfl rfl

theorem within_count_retireStart (p : Nat) (d : Dev) : Within notePart CountReg d (retireStart p d) := by
  unfold retireStart
  split
  · split
    · dsimp only
      exact (within_count_faultLog ..).after rfl rfl
    · exact .refl d
  · split
    · exact .refl d
    · split
      · exact within_count_other rfl rfl
      · exact ((within_setBit (by decide) _ d).trans (within_setBit (by decide) _ _)).trans (within_count_faultLog ..)

theorem within_count_pageCount (p : Nat) (d : Dev) : Within notePart CountReg d (pageCount p d) := by
  unfold pageCount
  dsimp only
  split <;> exact .ite (fun _ => (within_count_mcUpd _ d).trans (within_count_retireStart p _)) fun _ => within_count_mcUpd _ d

theorem within_count_rowCount (r : Nat) (d : Dev) : Within notePart CountReg d (rowCount r d) := by
  unfold rowCount rowFail
  dsimp only
  split <;> exact within_count_other rfl rfl

theorem within_count_noteCorrected (w : Nat) (d : Dev) : Within notePart CountReg d (noteCorrected w d) := by
  unfold noteCorrected countCorrection
  refine .trans ?_ (.ite (fun _ => within_count_pageCount _ _) fun _ => within_count_rowCount _ _)
  exact (within_setBit (by decide) _ d).trans (within_bump (by decide) _)

theorem within_count_noteUncorrectable (cls w : Nat) (d : Dev) : Within notePart CountReg d (noteUncorrectable cls w d) := by
  unfold noteUncorrectable
  dsimp only
  refine .trans ?_ (.ite (fun _ => within_count_retireStart _ _) fun _ => within_count_mcUpd _ _)
  exact ((within_setBit (by decide) _ d).trans (within_bump (by decide) _)).trans ((within_wr (by decide) _ _).trans (within_count_mcUpd _ _))

/-- What the copy of repaired pages leaves: the bytes, the queue, and the die but for what corrections note. -/
def Counted (s t : State) : Prop := SameBytes s t ∧ Within notePart CountReg s.dev t.dev

theorem Counted.refl (s : State) : Counted s s := ⟨.refl s, .refl s.dev⟩

theorem Counted.trans {s t u : State} (h : Counted s t) (k : Counted t u) : Counted s u := ⟨h.1.trans k.1, h.2.trans k.2⟩

theorem counted_touchWord (cls w : Nat) (s : State) : Counted s (touchWord cls w s).2 := by
  refine ⟨(noted_touchWord cls w s).1, ?_⟩
  unfold touchWord
  split
  · exact .refl s.dev
  · split
    · exact .refl s.dev
    · exact within_count_noteCorrected w s.dev
    · exact within_count_noteUncorrectable cls w s.dev

theorem counted_foldl {β : Type} (l : List β) (f : State → β → State) (h : ∀ b s, Counted s (f s b)) (s : State) : Counted s (l.foldl f s) :=
  List.foldlRecOn (motive := Counted s) l f (.refl s) fun t ht b _ => ht.trans (h b t)

/-- A page that is copied back leaves the lists of repairs. -/
def pageBack (p : Nat) (d : Dev) : Dev :=
  let e := d.mcUpd (fun m => { m with
    pprDone := m.pprDone.erase p, remap := Store.set (fun p => p) m.remap p p
    table := m.table.filter (fun e => e.1 != p && e.1 != servedBy d p) })
  { e with repairs := e.repairs.erase (7, p) }

theorem copyBack_eq (p : Nat) (s : State) : copyBack p s = (copyPage p s).upd (fun d => faultLog 7 4 p 7 0 0 (pageBack p d)) := rfl

theorem counted_copyBack (p : Nat) (s : State) : Counted s (copyBack p s) := by
  have hcopy : Counted s (copyPage p s) := by
    unfold copyPage
    exact counted_foldl _ _ (fun (e : Nat × Nat) t => counted_touchWord 1 e.1 t) s
  rw [copyBack_eq]
  generalize copyPage p s = t at hcopy ⊢
  refine hcopy.trans ⟨sameBytes_upd _ t, ?_⟩
  have hpage : Within notePart CountReg t.dev (pageBack p t.dev) := within_count_other rfl rfl
  exact hpage.trans (within_count_faultLog ..)

/-- Every repaired page is copied back. -/
def pagesBack (s : State) : State := s.dev.mc.pprDone.foldl (fun s p => copyBack p s) s

theorem counted_pagesBack (s : State) : Counted s (pagesBack s) := counted_foldl _ _ (fun p => counted_copyBack p) s

/-! ### Cells that hold a post rejoin (R101, R557) -/

/-- Whether a post stays away from the rejoin. -/
def staysAway (d : Dev) (f p : Nat) : Bool :=
  postCell d f p = 15 || underTakeover d f p || repenBlank d f || (d.flock f).testing.contains (postCell d f p)

theorem staysAway_congr {d e : Dev} {f : Nat} (hmap : e.rd (Reg.POST_MAP f) = d.rd (Reg.POST_MAP f)) (hflock : e.flock f = d.flock f) (p : Nat) :
    staysAway e f p = staysAway d f p := by
  unfold staysAway underTakeover repenBlank
  rw [postCell_congr hmap, hflock]

/-- A post that does not stay away takes the stamp, and joins. -/
def postUp (f p : Nat) (d : Dev) : Dev := if staysAway d f p then d else repenJoin f p d

theorem cellsUp_eq (d : Dev) : cellsUp d = forN 16 d (fun f d => forN 8 d (fun p d => postUp f p d)) := rfl

/-- CELL_GEN and CELL_STATUS of the posts of all flocks. -/
def AnyMark (o : Nat) : Prop := ∃ f, ∃ p < 8, PostMark f p o

theorem not_anyMark_postMap (f : Nat) : ¬ AnyMark (Reg.POST_MAP f) := by
  rintro ⟨f', p, hp, h⟩
  unfold PostMark Reg.CELL_GEN Reg.CELL_STATUS Reg.POST_MAP at h
  omega

theorem not_anyMark_of_lt {o : Nat} (h : o < 0x1000000) : ¬ AnyMark o := by
  rintro ⟨f, p, -, ho⟩
  unfold PostMark Reg.CELL_GEN Reg.CELL_STATUS at ho
  omega

/-- Posts join with the stamp g: a post that has joined stays so. -/
def PostsJoin (g : Word) (d e : Dev) : Prop := RegsOnly AnyMark d e ∧ ∀ f p, PostJoined f p g d → PostJoined f p g e

theorem PostsJoin.refl (g : Word) (d : Dev) : PostsJoin g d d := ⟨.refl _ d, fun _ _ h => h⟩

theorem PostsJoin.trans {g : Word} {d e x : Dev} (h : PostsJoin g d e) (k : PostsJoin g e x) : PostsJoin g d x :=
  ⟨h.1.trans k.1, fun f p hd => k.2 f p (h.2 f p hd)⟩

theorem rd_globalGen_of_join {g : Word} {d e : Dev} (h : PostsJoin g d e) : e.rd Reg.GLOBAL_GEN = d.rd Reg.GLOBAL_GEN :=
  h.1.2 _ (not_anyMark_of_lt (by decide))

theorem postsJoin_repenJoin (f : Nat) {p : Nat} (hp : p < 8) (d : Dev) : PostsJoin (d.rd Reg.GLOBAL_GEN) d (repenJoin f p d) := by
  obtain ⟨hgen, hjoined⟩ := postJoined_repenJoin f p d
  have hother : ∀ o, ¬ PostMark f p o → (repenJoin f p d).rd o = d.rd o := (regsOnly_repenJoin f p d).2
  refine ⟨(regsOnly_repenJoin f p d).mono fun o ho => ⟨f, p, hp, ho⟩, fun f' p' ⟨hgen', hjoined'⟩ => ⟨?_, ?_⟩⟩
  · by_cases h : Reg.CELL_GEN f' p' = Reg.CELL_GEN f p
    · rw [h, hgen]
    · exact (hother _ (not_or.2 ⟨h, cellGen_ne_cellStatus f' p' f p⟩)).trans hgen'
  · by_cases h : Reg.CELL_STATUS f' p' = Reg.CELL_STATUS f p
    · rw [h, hjoined]
    · exact (Dev.bit_congr (hother _ (not_or.2 ⟨(cellGen_ne_cellStatus f p f' p').symm, h⟩)) 13).trans hjoined'

theorem staysAway_of_join {g : Word} {d e : Dev} (h : PostsJoin g d e) (f p : Nat) : staysAway e f p = staysAway d f p :=
  staysAway_congr (h.1.2 _ (not_anyMark_postMap f)) (h.1.flock f) p

theorem postUp_notes (f : Nat) {p : Nat} (hp : p < 8) {d e : Dev} (h : PostsJoin (d.rd Reg.GLOBAL_GEN) d e) :
    PostsJoin (d.rd Reg.GLOBAL_GEN) e (postUp f p e) ∧ (staysAway d f p = false → PostJoined f p (d.rd Reg.GLOBAL_GEN) (postUp f p e)) := by
  rw [← staysAway_of_join h f p, ← rd_globalGen_of_join h]
  unfold postUp
  split
  next haway => exact ⟨.refl _ e, fun hin => absurd haway (by simp [hin])⟩
  next => exact ⟨postsJoin_repenJoin f hp e, fun _ => postJoined_repenJoin f p e⟩

/-- The posts that do not stay away have joined. -/
theorem cellsUp_notes (d : Dev) : PostsJoin (d.rd Reg.GLOBAL_GEN) d (cellsUp d) ∧
    ∀ f < 16, ∀ p < 8, staysAway d f p = false → PostJoined f p (d.rd Reg.GLOBAL_GEN) (cellsUp d) := by
  rw [cellsUp_eq]
  refine forN_done (R := PostsJoin (d.rd Reg.GLOBAL_GEN)) (.refl _) .trans
    (D := fun f e => ∀ p < 8, staysAway d f p = false → PostJoined f p (d.rd Reg.GLOBAL_GEN) e)
    (fun f _ _ hx he p hp hin => hx.2 f p (he p hp hin)) 16 d _ fun f _ e he => ?_
  refine forN_done (R := PostsJoin (d.rd Reg.GLOBAL_GEN)) (.refl _) .trans
    (D := fun p e => staysAway d f p = false → PostJoined f p (d.rd Reg.GLOBAL_GEN) e)
    (fun p _ _ hx he hin => hx.2 f p (he hin)) 8 e _ fun p hp x hx => postUp_notes f hp (he.trans hx)

/-! ### Units reload and take their stamps (R284) -/

/-- The registers of a range. -/
def InRange (lo hi o : Nat) : Prop := lo ≤ o ∧ o < hi

/-- The pages below those of the yokes hold no cell. -/
theorem pageOf_chip {o : Nat} (h : o < 0x120000) (f p b : Nat) : pageOf o ≠ some (.cell f p, b) := by
  unfold pageOf
  simp only
  rw [if_pos h]
  split <;> simp

theorem regsOnly_resetStored (o : Nat) (d : Dev) : RegsOnly (· = o) d (resetStored o d) := by
  unfold resetStored
  split
  · exact regsOnly_wr (by rfl) _ d
  · exact .refl _ d

theorem regsOnly_reloadEntry {e : Nat × Word} (h : e.1 < 0x120000) (d : Dev) : RegsOnly (· = e.1) d (reloadEntry e d) := by
  unfold reloadEntry
  split
  next hpage => exact absurd hpage (pageOf_chip h _ _ _)
  next =>
    split
    · exact .refl _ d
    · exact regsOnly_wr (by rfl) _ d
  next => exact .refl _ d

theorem regsOnly_foldl {β : Type} {q : Nat → Prop} (l : List β) (f : Dev → β → Dev) (h : ∀ b ∈ l, ∀ d, RegsOnly q d (f d b)) (d : Dev) :
    RegsOnly q d (l.foldl f d) := List.foldlRecOn (motive := RegsOnly q d) l f (.refl q d) fun e he b hb => he.trans (h b hb e)

theorem regsOnly_reloadRange {lo hi : Nat} (hhi : hi ≤ 0x120000) (d : Dev) : RegsOnly (InRange lo hi) d (reloadRange lo hi d) := by
  have hmine {o : Nat} (h : (decide (lo ≤ o) && decide (o < hi)) = true) : InRange lo hi o := by simpa [InRange] using h
  unfold reloadRange
  refine (regsOnly_foldl _ _ (fun e he d => ?_) d).trans (regsOnly_foldl _ _ (fun e he d => ?_) _)
  · exact (regsOnly_resetStored e.1 d).mono fun o ho => ho ▸ hmine (List.mem_filter.1 he).2
  · have hin := hmine (List.mem_filter.1 he).2
    exact (regsOnly_reloadEntry (hin.2.trans_le hhi) d).mono fun o ho => ho ▸ hin

/-- The unit whose stamp lies in the range of its registers has the stamp of the device. -/
theorem rejoinUnit_notes {gen lo hi : Nat} (hgen : InRange lo hi gen) (hhi : hi ≤ 0x120000) (d : Dev) :
    RegsOnly (InRange lo hi) d (rejoinUnit gen (reloadRange lo hi) d) ∧
    (rejoinUnit gen (reloadRange lo hi) d).rd gen = d.rd Reg.GLOBAL_GEN := by
  unfold rejoinUnit
  split
  next hsame => exact ⟨.refl _ d, hsame⟩
  next => exact ⟨(regsOnly_reloadRange hhi d).trans (regsOnly_wr hgen _ _), Dev.rd_wr_same ..⟩

/-- One Packhorse channel. -/
def pchRejoin (n : Nat) (d : Dev) : Dev := rejoinUnit (Reg.PCH_GEN n) (reloadRange (0xB0400 + n * 0x400) (0xB0800 + n * 0x400)) d

theorem pchRejoin_notes {n : Nat} (hn : n < 32) (d : Dev) : RegsOnly (InRange (0xB0400 + n * 0x400) (0xB0800 + n * 0x400)) d (pchRejoin n d) ∧
    (pchRejoin n d).rd (Reg.PCH_GEN n) = d.rd Reg.GLOBAL_GEN :=
  rejoinUnit_notes (by unfold InRange Reg.PCH_GEN; omega) (by omega) d

/-- The range of the Packhorse channels. -/
theorem regsOnly_pchRejoin {n : Nat} (hn : n < 32) (d : Dev) : RegsOnly (InRange 0xB0400 0xB8400) d (pchRejoin n d) :=
  (pchRejoin_notes hn d).1.mono fun o ho => by unfold InRange at ho ⊢; omega

/-- All Packhorse channels. -/
def pchsRejoin (d : Dev) : Dev := forN 32 d pchRejoin

theorem regsOnly_pchsRejoin (d : Dev) : RegsOnly (InRange 0xB0400 0xB8400) d (pchsRejoin d) :=
  regsOnly_forN 32 pchRejoin (fun _ hn e => regsOnly_pchRejoin hn e) d

theorem rd_pchGen_pchsRejoin {n : Nat} (hn : n < 32) (d : Dev) : (pchsRejoin d).rd (Reg.PCH_GEN n) = d.rd Reg.GLOBAL_GEN := by
  unfold pchsRejoin Machine.forN
  refine foldl_at (fun e : Dev => e.rd Reg.GLOBAL_GEN = d.rd Reg.GLOBAL_GEN) (fun e : Dev => e.rd (Reg.PCH_GEN n) = d.rd Reg.GLOBAL_GEN) _
    List.nodup_range (List.mem_range.2 hn) d rfl ?_ ?_ ?_
  · exact fun k hk _ e he => ((regsOnly_pchRejoin (List.mem_range.1 hk) e).2 _ (by unfold InRange; decide)).trans he
  · exact fun e he => (pchRejoin_notes hn e).2.trans he
  · exact fun k hk hne e he => ((pchRejoin_notes (List.mem_range.1 hk) e).1.2 _ (by unfold InRange Reg.PCH_GEN; omega)).trans he

/-- The audio unit, the Mule and the Drove link. -/
def mainRejoin (d : Dev) : Dev :=
  rejoinUnit Reg.DRV_GEN (reloadRange 0x80000 0x90000) (rejoinUnit Reg.MULE_GEN (reloadRange 0xA0000 0xB0000)
    (rejoinUnit Reg.AU_GEN (reloadRange 0xF0000 0x120000) d))

theorem rejoinUnits_eq (d : Dev) : rejoinUnits d = pchsRejoin (mainRejoin d) := rfl

/-- The registers of the units that rejoin. -/
def RejoinReg : Nat → Prop := InRange 0x80000 0x120000

theorem RegsOnly.rejoinReg {lo hi : Nat} {d e : Dev} (h : RegsOnly (InRange lo hi) d e) (hlo : 0x80000 ≤ lo) (hhi : hi ≤ 0x120000) :
    RegsOnly RejoinReg d e := h.mono fun _ ho => ⟨hlo.trans ho.1, ho.2.trans_le hhi⟩

theorem mainRejoin_notes (d : Dev) : RegsOnly RejoinReg d (mainRejoin d) ∧ (mainRejoin d).rd Reg.AU_GEN = d.rd Reg.GLOBAL_GEN ∧
    (mainRejoin d).rd Reg.MULE_GEN = d.rd Reg.GLOBAL_GEN ∧ (mainRejoin d).rd Reg.DRV_GEN = d.rd Reg.GLOBAL_GEN := by
  unfold mainRejoin
  obtain ⟨hau, hauGen⟩ := rejoinUnit_notes (gen := Reg.AU_GEN) (lo := 0xF0000) (hi := 0x120000) (by unfold InRange; decide) (by decide) d
  generalize rejoinUnit Reg.AU_GEN (reloadRange 0xF0000 0x120000) d = x at hau hauGen ⊢
  obtain ⟨hmule, hmuleGen⟩ := rejoinUnit_notes (gen := Reg.MULE_GEN) (lo := 0xA0000) (hi := 0xB0000) (by unfold InRange; decide) (by decide) x
  generalize rejoinUnit Reg.MULE_GEN (reloadRange 0xA0000 0xB0000) x = y at hmule hmuleGen ⊢
  obtain ⟨hdrv, hdrvGen⟩ := rejoinUnit_notes (gen := Reg.DRV_GEN) (lo := 0x80000) (hi := 0x90000) (by unfold InRange; decide) (by decide) y
  generalize rejoinUnit Reg.DRV_GEN (reloadRange 0x80000 0x90000) y = z at hdrv hdrvGen ⊢
  have hx : x.rd Reg.GLOBAL_GEN = d.rd Reg.GLOBAL_GEN := hau.2 _ (by unfold InRange; decide)
  have hy : y.rd Reg.GLOBAL_GEN = x.rd Reg.GLOBAL_GEN := hmule.2 _ (by unfold InRange; decide)
  refine ⟨((hau.rejoinReg (by decide) (by decide)).trans (hmule.rejoinReg (by decide) (by decide))).trans (hdrv.rejoinReg (by decide) (by decide)),
    ?_, ?_, (hdrvGen.trans hy).trans hx⟩
  · exact ((hdrv.2 _ (by unfold InRange; decide)).trans (hmule.2 _ (by unfold InRange; decide))).trans hauGen
  · exact ((hdrv.2 _ (by unfold InRange; decide)).trans hmuleGen).trans hx

/-- The units have the stamp g. -/
def UnitsStamped (g : Word) (d : Dev) : Prop :=
  d.rd Reg.AU_GEN = g ∧ d.rd Reg.MULE_GEN = g ∧ d.rd Reg.DRV_GEN = g ∧ ∀ n < 32, d.rd (Reg.PCH_GEN n) = g

theorem rejoinUnits_notes (d : Dev) : RegsOnly RejoinReg d (rejoinUnits d) ∧ UnitsStamped (d.rd Reg.GLOBAL_GEN) (rejoinUnits d) := by
  rw [rejoinUnits_eq]
  obtain ⟨hmain, hau, hmule, hdrv⟩ := mainRejoin_notes d
  generalize mainRejoin d = e at hmain hau hmule hdrv ⊢
  have hpchs := regsOnly_pchsRejoin e
  refine ⟨hmain.trans (hpchs.rejoinReg (by decide) (by decide)), ?_, ?_, ?_, fun n hn => ?_⟩
  · exact (hpchs.2 _ (by unfold InRange; decide)).trans hau
  · exact (hpchs.2 _ (by unfold InRange; decide)).trans hmule
  · exact (hpchs.2 _ (by unfold InRange; decide)).trans hdrv
  · exact (rd_pchGen_pchsRejoin hn e).trans (hmain.2 _ (by unfold RejoinReg InRange; decide))

/-! ### STANDBY_EXIT_DONE (R560) -/

/-- The device runs again. -/
def standbyOver (d : Dev) : Dev := setPwr 0 (rejoinUnits (cellsUp d))

theorem standbyExit_eq (s : State) : standbyExit s =
    if s.dev.pwr ≠ 3 || !s.dev.rail.pg || s.dev.rail.request.isSome || railLevel s.dev < max 5 (railFloor s.dev) then s
    else (pagesBack s).upd standbyOver := rfl

theorem standbyOver_notes (d : Dev) : (standbyOver d).pwr = 0 ∧ UnitsStamped (d.rd Reg.GLOBAL_GEN) (standbyOver d) ∧
    ∀ f < 16, ∀ p < 8, staysAway d f p = false → PostJoined f p (d.rd Reg.GLOBAL_GEN) (standbyOver d) := by
  unfold standbyOver
  obtain ⟨hcells, hjoined⟩ := cellsUp_notes d
  have hgen := rd_globalGen_of_join hcells
  generalize cellsUp d = e at hcells hjoined hgen ⊢
  obtain ⟨hunits, hau, hmule, hdrv, hpch⟩ := rejoinUnits_notes e
  rw [hgen] at hau hmule hdrv hpch
  generalize rejoinUnits e = x at hunits hau hmule hdrv hpch ⊢
  have hset (o : Nat) (h : o ≠ Reg.PWR_STATUS) : (setPwr 0 x).rd o = x.rd o := (regsOnly_setPwr 0 x).2 o h
  refine ⟨pwr_setPwr (by decide) x, ⟨(hset _ (by decide)).trans hau, (hset _ (by decide)).trans hmule, (hset _ (by decide)).trans hdrv, fun n hn => ?_⟩,
    fun f hf p hp hin => (postJoined_congr fun o ho => ?_).2 (hjoined f hf p hp hin)⟩
  · exact (hset _ (by unfold Reg.PCH_GEN Reg.PWR_STATUS; omega)).trans (hpch n hn)
  · unfold PostMark Reg.CELL_GEN Reg.CELL_STATUS at ho
    exact (hset _ (by unfold Reg.PWR_STATUS; omega)).trans (hunits.2 _ (by unfold RejoinReg InRange; omega))

theorem gives_standbyExitDone {s : State} (hp : s.dev.pwr = 3) (hpg : s.dev.rail.pg = true) (hreq : s.dev.rail.request = none)
    (hlevel : max 5 (railFloor s.dev) ≤ railLevel s.dev) : Gives .standbyExitDone s (fun t => t.dev.pwr = 0 ∧
      t.dev.rd Reg.AU_GEN = s.dev.rd Reg.GLOBAL_GEN ∧
      t.dev.rd Reg.MULE_GEN = s.dev.rd Reg.GLOBAL_GEN ∧ t.dev.rd Reg.DRV_GEN = s.dev.rd Reg.GLOBAL_GEN ∧
      (∀ n < 32, t.dev.rd (Reg.PCH_GEN n) = s.dev.rd Reg.GLOBAL_GEN) ∧
      (∀ f < 16, ∀ p < 8, postCell s.dev f p ≠ 15 → underTakeover s.dev f p = false → repenBlank s.dev f = false →
        (s.dev.flock f).testing.contains (postCell s.dev f p) = false →
        t.dev.rd (Reg.CELL_GEN f p) = s.dev.rd Reg.GLOBAL_GEN ∧ t.dev.bit (Reg.CELL_STATUS f p) 13 = true) ∧ SameBytes s t) := by
  have hexit : standbyExit s = (pagesBack s).upd standbyOver := by
    rw [standbyExit_eq, if_neg]
    simp only [hp, hpg, hreq, Bool.or_eq_true, decide_eq_true_eq, not_or, not_lt]
    exact ⟨⟨⟨by decide, by decide⟩, by decide⟩, hlevel⟩
  obtain ⟨hbytes, hnoted⟩ := counted_pagesBack s
  generalize pagesBack s = r at hexit hbytes hnoted
  have hgen : r.dev.rd Reg.GLOBAL_GEN = s.dev.rd Reg.GLOBAL_GEN := hnoted.2 _ (by unfold CountReg; decide)
  have hstay (f p : Nat) : staysAway r.dev f p = staysAway s.dev f p :=
    staysAway_congr (hnoted.2 _ (by unfold CountReg Reg.POST_MAP; omega)) (congrArg (fun d : Dev => d.flock f) hnoted.1 :) p
  obtain ⟨hpwr, ⟨hau, hmule, hdrv, hpch⟩, hcells⟩ := standbyOver_notes r.dev
  rw [hgen] at hau hmule hdrv hpch hcells
  refine ⟨_, (exec_standbyExitDone s).trans (congrArg Host.Outcome.next hexit), hpwr, hau, hmule, hdrv, hpch, fun f hf p hp h15 htake hrepen htest => ?_,
    hbytes.trans (sameBytes_upd _ r)⟩
  refine hcells f hf p hp ?_
  rw [hstay, staysAway, htake, hrepen, htest]
  simpa using h15

theorem gives_standbyExitDone_idle {s : State} (h : s.dev.pwr ≠ 3 ∨ s.dev.rail.pg = false ∨ s.dev.rail.request ≠ none ∨
    railLevel s.dev < max 5 (railFloor s.dev)) : Gives .standbyExitDone s (fun t => t = s) := by
  refine ⟨_, exec_standbyExitDone s, ?_⟩
  rw [standbyExit_eq, if_pos]
  simp only [Bool.or_eq_true, Bool.not_eq_true', decide_eq_true_eq, Option.isSome_iff_ne_none]
  tauto

end Sys2Proof.Machine

/-! PROOFS. The entry of deep standby, and the wake from it (O51). -/
namespace Sys2Proof.Machine

-- One proof after another: proofs that wait for the kernel at once would take more threads than the check's memory holds.
set_option Elab.async false

theorem exec_deepCheckpoint (y : Fin 8) (s : State) : exec (.deepCheckpoint y) s = .next (s.upd (deepCheckpoint y)) := rfl
theorem exec_deepEntryDone (s : State) : exec .deepEntryDone s = .next (deepEntry s) := rfl
theorem exec_wakeTask (s : State) : exec .wakeTask s = .next (s.upd wakeTask) := rfl
theorem exec_swPgRise (s : State) : exec .swPgRise s = .next (s.upd swPgRise) := rfl
theorem exec_swPgTimeout (s : State) : exec .swPgTimeout s = .next (s.upd swPgTimeout) := rfl

/-! ### DEEP_CHECKPOINT (R561) -/

/-- The checkpoint of yoke y is taken. -/
def checkpointTaken (y : Nat) (d : Dev) : Dev :=
  setRun y 0 (d.pwUpd (fun p => { p with deep := p.deep ++ [(y, (d.yk y).ctx, yokeWins d y)] }))

theorem deepCheckpoint_eq (y : Nat) (d : Dev) : deepCheckpoint y d =
    if d.pwr ≠ 4 || !(yokeRun d y = 1 || yokeRun d y = 4 || yokeRun d y = 7) || (d.yk y).replay.isSome || (d.yk y).wait.isSome ||
      (d.yk y).ld.isSome || (d.yk y).tdWait.isSome then d else checkpointTaken y d := rfl

theorem yokeRun_setRun (y : Nat) {st : Nat} (h : st < 8) (d : Dev) : yokeRun (setRun y st d) y = st := Dev.fld_setFld_same d _ (by decide) h

theorem gives_deepCheckpoint {s : State} {y : Fin 8} (hp : s.dev.pwr = 4) (hrun : yokeRun s.dev y = 1 ∨ yokeRun s.dev y = 4 ∨ yokeRun s.dev y = 7)
    (hreplay : (s.dev.yk y).replay = none) (hwait : (s.dev.yk y).wait = none) (hld : (s.dev.yk y).ld = none) (htd : (s.dev.yk y).tdWait = none) :
    Gives (.deepCheckpoint y) s (fun t =>
      t.dev.pw = { s.dev.pw with deep := s.dev.pw.deep ++ [(y.val, (s.dev.yk y).ctx, yokeWins s.dev y)] } ∧
      yokeRun t.dev y = 0 ∧ Leaves (fun d e => { d with regs := e.regs, pw := e.pw }) (· = Reg.YOKE_STATE y) s t) := by
  have hf : deepCheckpoint y s.dev = checkpointTaken y s.dev := by
    rw [deepCheckpoint_eq, if_neg]
    simpa [hp, hreplay, hwait, hld, htd, ← or_iff_not_imp_left] using hrun
  exact gives_of_upd (exec_deepCheckpoint y s) hf ⟨rfl, yokeRun_setRun y (by decide) _, rfl, rfl, rfl, fun o ho => Dev.rd_setFld_ne _ _ _ _ ho⟩

theorem gives_deepCheckpoint_idle {s : State} (y : Fin 8) (h : s.dev.pwr ≠ 4 ∨ yokeRun s.dev y ∉ [1, 4, 7] ∨ (s.dev.yk y).replay ≠ none ∨
    (s.dev.yk y).wait ≠ none ∨ (s.dev.yk y).ld ≠ none ∨ (s.dev.yk y).tdWait ≠ none) : Gives (.deepCheckpoint y) s (fun t => t = s) := by
  refine gives_same (exec_deepCheckpoint y s) ?_
  rw [deepCheckpoint_eq, if_pos]
  simp only [Bool.or_eq_true, Bool.not_eq_true', decide_eq_true_eq, Option.isSome_iff_ne_none, Bool.or_eq_false_iff, decide_eq_false_iff_not]
  simp only [List.mem_cons, List.not_mem_nil, or_false, not_or] at h
  tauto

/-! ### What timers and pins keep in deep standby (R366, R549) -/

/-- The die with the timers of another. -/
def timersPart (e d : Dev) : Dev := { e with regs := d.regs, timers := d.timers, tmUnits := d.tmUnits }

/-- The registers of the timers and beyond. -/
abbrev TimerReg (o : Nat) : Prop := 0xE0000 ≤ o

/-- Timers stop: STBY_STOPPED of a channel, once set, stays. -/
def TimersStop (d e : Dev) : Prop := Within timersPart TimerReg d e ∧
  ∀ u c, d.bit (Reg.TM_FLAGS u c) 6 = true → e.bit (Reg.TM_FLAGS u c) 6 = true

theorem TimersStop.refl (d : Dev) : TimersStop d d := ⟨.refl d, fun _ _ h => h⟩

theorem TimersStop.trans {d e x : Dev} (h : TimersStop d e) (k : TimersStop e x) : TimersStop d x :=
  ⟨h.1.trans k.1, fun u c hd => k.2 u c (h.2 u c hd)⟩

theorem timersStop_other {d e : Dev} (h : timersPart e d = d) (hr : e.regs = d.regs) : TimersStop d e :=
  ⟨within_of_eq h hr, fun u c hd => by rwa [Dev.bit, Dev.rd, hr]⟩

theorem timersStop_clrRun (u c : Nat) (d : Dev) : TimersStop d (d.clrBit (Reg.TM_STATUS u c) 0) := by
  refine ⟨within_clrBit (by unfold Reg.TM_STATUS; omega) 0 d, fun u' c' hd => ?_⟩
  by_cases h : Reg.TM_FLAGS u' c' = Reg.TM_STATUS u c
  · rw [h] at hd ⊢
    rw [Dev.bit_clrBit _ _ _ _ (by decide) (by decide), hd]
    rfl
  · rwa [Dev.bit_clrBit_ne _ _ _ h]

theorem timersStop_setStopped (u c : Nat) (d : Dev) : TimersStop d (d.setBit (Reg.TM_FLAGS u c) 6) := by
  refine ⟨within_setBit (by unfold Reg.TM_FLAGS; omega) 6 d, fun u' c' hd => ?_⟩
  by_cases h : Reg.TM_FLAGS u' c' = Reg.TM_FLAGS u c
  · rw [h]
    exact Dev.bit_setBit_same _ _ (by decide)
  · rwa [Dev.bit_setBit_ne _ _ _ h]

theorem timersStop_tmStop (u c : Nat) (d : Dev) : TimersStop d (tmStop u c d) := by
  have hrun : TimersStop d ((d.clrBit (Reg.TM_STATUS u c) 0).updTm u c (fun t => { t with arm := none })) :=
    (timersStop_clrRun u c d).trans (timersStop_other rfl rfl)
  unfold tmStop
  dsimp only
  split
  · exact hrun.trans (timersStop_other rfl rfl)
  · exact hrun

/-- One channel on entry to deep standby. -/
def timerDeep (i : Nat) (d : Dev) : Dev := if i < 4 then d else (tmStop (i / 4) (i % 4) d).setBit (Reg.TM_FLAGS (i / 4) (i % 4)) 6

theorem timerDeep_notes (i : Nat) (d : Dev) : TimersStop d (timerDeep i d) ∧
    (4 ≤ i → (timerDeep i d).bit (Reg.TM_FLAGS (i / 4) (i % 4)) 6 = true) := by
  unfold timerDeep
  split
  next h => exact ⟨.refl d, fun hi => absurd h (by omega)⟩
  next => exact ⟨(timersStop_tmStop _ _ d).trans (timersStop_setStopped _ _ _), fun _ => Dev.bit_setBit_same _ _ (by decide)⟩

theorem timersDeep_notes (d : Dev) : TimersStop d (timersDeep d) ∧
    ∀ u, 1 ≤ u → u < 8 → ∀ c < 4, (timersDeep d).bit (Reg.TM_FLAGS u c) 6 = true := by
  obtain ⟨hstop, hall⟩ := forN_done (R := TimersStop) .refl .trans (D := fun i e => 4 ≤ i → e.bit (Reg.TM_FLAGS (i / 4) (i % 4)) 6 = true)
    (fun i _ _ hx he hi => hx.2 _ _ (he hi)) 32 d timerDeep fun i _ e _ => timerDeep_notes i e
  refine ⟨hstop, fun u hu1 hu8 c hc => ?_⟩
  have hflag := hall (4 * u + c) (by omega) (by omega)
  rwa [show (4 * u + c) / 4 = u by omega, show (4 * u + c) % 4 = c by omega] at hflag

/-- The die with the pins of another. -/
def pinsPart (e d : Dev) : Dev := { e with gpio := d.gpio, free := d.free }

theorem within_holdWaves (d : Dev) : Within pinsPart (fun _ => False) d (holdWaves d) := by
  unfold holdWaves
  refine .forN 128 _ (fun q _ e => ?_) d
  split
  · exact within_of_eq rfl rfl
  · exact .refl e

/-! ### The repair map (R285) -/

/-- The die with what the application of the repair map may change of another. -/
def mapPart (e d : Dev) : Dev :=
  { e with
    regs := d.regs, yokes := d.yokes, units := d.units, testing := d.testing, rail := { e.rail with frozen := d.rail.frozen }
    au := d.au, phs := d.phs, flocks := d.flocks }

/-- Only what the repair map concerns changes. -/
def MapOnly (d e : Dev) : Prop := Within mapPart (fun _ => True) d e

theorem mapOnly_of_eq {d e : Dev} (h : mapPart e d = d) : MapOnly d e := ⟨h, fun _ ho => absurd trivial ho⟩

theorem mapOnly_of_ownYoke {y : Nat} {d e : Dev} (h : OwnYoke y d e) : MapOnly d e :=
  mapOnly_of_eq (congrArg (fun x : Dev => { x with au := d.au, phs := d.phs, flocks := d.flocks }) h.2.1 :)

theorem MapOnly.trans {d e x : Dev} (h : MapOnly d e) (k : MapOnly e x) : MapOnly d x := Within.trans (g := mapPart) h k

theorem MapOnly.refl (d : Dev) : MapOnly d d := Within.refl (g := mapPart) d

/-- The place of a unit in service that the repair map names is filled. -/
def mapFill (e : Nat × Nat) (d : Dev) : Dev :=
  match e.1 with
  | 2 =>
    match takeSpare 2 d with
    | some (n, d) => swapCore (e.2 / 2) e.2 n d
    | none => swapCore (e.2 / 2) e.2 (if d.fld (Reg.YOKE_STATE (e.2 / 2)) 4 0 = e.2 then d.fld (Reg.YOKE_STATE (e.2 / 2)) 9 5
        else d.fld (Reg.YOKE_STATE (e.2 / 2)) 4 0) d
  | 3 | 4 =>
    match takeSpare e.1 d with
    | some (n, d) => d.auUpd (fun u => { u with slices := Store.set (fun k => k % 32) u.slices (32 * e.1 + e.2) n })
    | none => d.auUpd (fun u => { u with down := insNat (32 * e.1 + e.2) u.down })
  | 5 =>
    match takeSpare 5 d with
    | some (n, d) => d.setFld (Reg.PCH_STATUS e.2) 13 8 n
    | none => d.updPh e.2 (fun p => { p with broken := true })
  | 6 => match takeSpare 6 d with | some (_, d) => d | none => d
  | _ => d

/-- A unit that the repair map names is out of service. -/
def mapMark (e : Nat × Nat) (d : Dev) : Dev := if 2 ≤ e.1 && e.1 ≤ 9 && e.1 ≠ 7 && e.1 ≠ 8 then setUnit e.1 e.2 3 d else d

theorem mapOut_eq (e : Nat × Nat) (d : Dev) : mapOut e d = if !(d.unit e.1 e.2 == 0) then mapMark e d else mapFill e (mapMark e d) := rfl

theorem mapOnly_mapFill (e : Nat × Nat) (d : Dev) : MapOnly d (mapFill e d) := by
  have htake {cls n : Nat} {x : Dev} (h : takeSpare cls d = some (n, x)) : MapOnly d x := mapOnly_of_ownYoke (ownYoke_takeSpare (y := 0) h)
  have hslice (x : Dev) (u : AudioSt → AudioSt) : MapOnly x (x.auUpd u) := mapOnly_of_eq rfl
  unfold mapFill
  split
  · split
    next h => exact (htake h).trans (mapOnly_of_ownYoke (ownYoke_swapCore _ _ _ _))
    next => exact mapOnly_of_ownYoke (ownYoke_swapCore _ _ _ _)
  · split
    next h => exact (htake h).trans (hslice _ _)
    next => exact hslice _ _
  · split
    next h => exact (htake h).trans (hslice _ _)
    next => exact hslice _ _
  · split
    next h => exact (htake h).trans (mapOnly_of_eq rfl)
    next => exact mapOnly_of_eq rfl
  · split
    next h => exact htake h
    next => exact .refl d
  · exact .refl d

theorem mapOnly_mapOut (e : Nat × Nat) (d : Dev) : MapOnly d (mapOut e d) := by
  have hmark : MapOnly d (mapMark e d) := Within.ite (fun _ => mapOnly_of_ownYoke (ownYoke_setUnit 0 _ _ _ d)) fun _ => MapOnly.refl d
  rw [mapOut_eq]
  split
  · exact hmark
  · exact hmark.trans (mapOnly_mapFill e _)

theorem mapOnly_foldl {β : Type} (l : List β) (f : Dev → β → Dev) (h : ∀ b d, MapOnly d (f d b)) (d : Dev) : MapOnly d (l.foldl f d) :=
  List.foldlRecOn (motive := MapOnly d) l f (.refl d) fun e he b _ => he.trans (h b e)

/-- The units of the repair map go out of service. -/
def mapUnits (d : Dev) : Dev :=
  (d.repairs.filter (fun e => unitInit (unitKey e.1 e.2) != 1)).foldl (fun d e => mapOut e d)
    ((d.repairs.filter (fun e => unitInit (unitKey e.1 e.2) == 1)).foldl (fun d e => mapOut e d) d)

/-- A cell of the repair map goes out of service. -/
def cellMapped (e : Nat × Nat) (d : Dev) : Dev := d.updFlock (e.2 / 16) (fun x => { x with mapped := insNat (e.2 % 16) x.mapped })

/-- The cells of the repair map go out of service, and no unit is under test. -/
def mapCells (d : Dev) : Dev := (d.repairs.filter (fun e => e.1 == 1)).foldl (fun d e => cellMapped e d) { d with testing := [] }

theorem applyMap_eq (d : Dev) : applyMap d = mapCells (mapUnits d) := rfl

theorem mapOnly_mapUnits (d : Dev) : MapOnly d (mapUnits d) :=
  (mapOnly_foldl _ _ (fun e x => mapOnly_mapOut e x) d).trans (mapOnly_foldl _ _ (fun e x => mapOnly_mapOut e x) _)

theorem mapOnly_mapCells (d : Dev) : MapOnly d (mapCells d) :=
  MapOnly.trans (e := { d with testing := [] }) (mapOnly_of_eq rfl) (mapOnly_foldl _ _ (fun e _ => mapOnly_of_eq (by unfold cellMapped; rfl)) _)

theorem mapOnly_applyMap (d : Dev) : MapOnly d (applyMap d) := by
  rw [applyMap_eq]
  exact (mapOnly_mapUnits d).trans (mapOnly_mapCells _)

theorem applyMap_empty {d : Dev} (h : d.repairs = []) : applyMap d = { d with testing := [] } := by
  rw [applyMap_eq, mapUnits, h, mapCells]
  simp only [List.filter_nil, List.foldl_nil, h]

/-! ### DEEP_ENTRY_DONE (R561) -/

/-- Wear counters are saved, timers stop, and pins keep their levels. -/
def deepSaved (d : Dev) : Dev := holdWaves (timersDeep (wearSave d))

/-- The slot and the serial number of the image in force. -/
def imageNoted (d : Dev) : Dev := d.pwUpd (fun p => { p with slot := d.fld Reg.IMAGE_STATUS 3 2, serial := d.rd Reg.IMAGE_SERIAL })

/-- What VDD_AON keeps, before the repair map is applied. -/
def deepKept (d : Dev) : Dev := { d with
  regs := Store.keep (fun o => regKept o || regPin o || regAon o || regTimer o) d.regs
  mc := mcAfter d.repairs d.mc, cells := [], flocks := [], heads := [], scripts := [], rail := { pg := false, windowAt := d.clk, calmFrom := d.clk }
  ld := { journal := d.ld.journal, serial := d.ld.serial }, yokes := [], units := [], requests := [], drv := {}, phs := [], cks := []
  au := {}, mule := {}, net := {} }

/-- The device rests in DEEP. -/
def deepRest (d : Dev) : Dev := setPwr 5 (applyMap (deepKept d))

theorem deepBase_eq (d : Dev) : deepBase d = applyMap (deepKept d) := rfl

theorem deepEntry_eq (s : State) : deepEntry s =
    if s.dev.pwr ≠ 4 || !headsDown s.dev || s.dev.au.runs ||
      (List.range 8).any (fun y => yokeRun s.dev y == 1 || yokeRun s.dev y == 2 || yokeRun s.dev y == 3 || yokeRun s.dev y == 4 || yokeRun s.dev y == 7)
    then s
    else { s with dev := deepRest (imageNoted (deepSaved s.dev)), mem := { s.mem with bytes := [], poison := [], err := [] } } := by
  unfold deepRest
  rw [← deepBase_eq]
  rfl

/-- The registers of the timers of a page stay in deep standby. -/
theorem regTimer_tmFlags {u c : Nat} (hu : u < 8) (hc : c < 4) : regTimer (Reg.TM_FLAGS u c) = true := by
  have hpage : Reg.TM_FLAGS u c / 0x10000 = 14 := by unfold Reg.TM_FLAGS; omega
  have hlt : Reg.TM_FLAGS u c < 0x120000 := by unfold Reg.TM_FLAGS; omega
  simp [regTimer, pageOf, hpage, hlt]

/-- What DEEP leaves. -/
def Rested (d e : Dev) : Prop :=
  e.pwr = 5 ∧ e.keep = d.keep ∧ e.pw = d.pw ∧ e.heads = [] ∧ e.drv = {} ∧ e.mule = {} ∧ e.rail.pg = false ∧
  (d.repairs = [] → ∀ u < 8, ∀ c < 4, e.rd (Reg.TM_FLAGS u c) = d.rd (Reg.TM_FLAGS u c))

theorem deepKept_parts (d : Dev) : (deepKept d).keep = d.keep ∧ (deepKept d).pw = d.pw ∧ (deepKept d).heads = [] ∧ (deepKept d).drv = {} ∧
    (deepKept d).mule = {} ∧ (deepKept d).rail.pg = false ∧ (deepKept d).repairs = d.repairs := ⟨rfl, rfl, rfl, rfl, rfl, rfl, rfl⟩

theorem rd_deepKept {d : Dev} {o : Nat} (h : regTimer o = true) : (deepKept d).rd o = d.rd o :=
  Store.get_keep resetWord (fun o => regKept o || regPin o || regAon o || regTimer o) d.regs (by simp only [h, Bool.or_true])

/-- What the repair map leaves of what DEEP keeps. -/
theorem MapOnly.parts {d e : Dev} (h : MapOnly d e) : e.keep = d.keep ∧ e.pw = d.pw ∧ e.heads = d.heads ∧ e.drv = d.drv ∧ e.mule = d.mule ∧
    e.rail.pg = d.rail.pg :=
  ⟨(congrArg Dev.keep h.1 :), (congrArg Dev.pw h.1 :), (congrArg Dev.heads h.1 :), (congrArg Dev.drv h.1 :), (congrArg Dev.mule h.1 :),
    (congrArg (fun x : Dev => x.rail.pg) h.1 :)⟩

theorem deepRest_notes (d : Dev) : Rested d (deepRest d) := by
  obtain ⟨hkeep, hpw, hheads, hdrv, hmule, hpg, hreps⟩ := deepKept_parts d
  have hkept (u c : Nat) (hu : u < 8) (hc : c < 4) : (deepKept d).rd (Reg.TM_FLAGS u c) = d.rd (Reg.TM_FLAGS u c) := rd_deepKept (regTimer_tmFlags hu hc)
  unfold deepRest
  generalize deepKept d = k at hkeep hpw hheads hdrv hmule hpg hreps hkept ⊢
  obtain ⟨mkeep, mpw, mheads, mdrv, mmule, mpg⟩ := (mapOnly_applyMap k).parts
  have hmap (h : k.repairs = []) (o : Nat) : (applyMap k).rd o = k.rd o := by rw [applyMap_empty h]; rfl
  generalize applyMap k = e at mkeep mpw mheads mdrv mmule mpg hmap ⊢
  refine ⟨pwr_setPwr (by decide) e, mkeep.trans hkeep, mpw.trans hpw, mheads.trans hheads, mdrv.trans hdrv, mmule.trans hmule, mpg.trans hpg,
    fun h u hu c hc => ?_⟩
  rw [(regsOnly_setPwr 5 e).2 _ (by unfold Reg.TM_FLAGS Reg.PWR_STATUS; omega), hmap (hreps.trans h), hkept u c hu hc]

/-- What the saves of deep standby leave. -/
def Saved (d e : Dev) : Prop :=
  e.keep.wearSaved = d.keep.wear ∧ e.keep.win = d.keep.win ∧ e.pw = d.pw ∧ e.repairs = d.repairs ∧ (∀ o < 0xE0000, e.rd o = d.rd o) ∧
  ∀ u, 1 ≤ u → u < 8 → ∀ c < 4, e.bit (Reg.TM_FLAGS u c) 6 = true

theorem wearSave_parts (d : Dev) : (wearSave d).keep.wearSaved = d.keep.wear ∧ (wearSave d).keep.win = d.keep.win ∧ (wearSave d).pw = d.pw ∧
    (wearSave d).repairs = d.repairs ∧ (wearSave d).regs = d.regs := ⟨rfl, rfl, rfl, rfl, rfl⟩

theorem deepSaved_notes (d : Dev) : Saved d (deepSaved d) := by
  obtain ⟨hwear, hwin, hpw, hreps, hregs⟩ := wearSave_parts d
  unfold deepSaved
  generalize wearSave d = w at hwear hwin hpw hreps hregs ⊢
  obtain ⟨⟨ht, -⟩, hflags⟩ := timersDeep_notes w
  generalize timersDeep w = t at ht hflags ⊢
  have hp := within_holdWaves t
  generalize holdWaves t = e at hp ⊢
  have hkeep : e.keep = w.keep := (congrArg Dev.keep hp.1 :).trans (congrArg Dev.keep ht.1 :)
  refine ⟨by rw [hkeep, hwear], by rw [hkeep, hwin], ((congrArg Dev.pw hp.1 :).trans (congrArg Dev.pw ht.1 :)).trans hpw,
    ((congrArg Dev.repairs hp.1 :).trans (congrArg Dev.repairs ht.1 :)).trans hreps, fun o ho => ?_, fun u h1 h8 c hc => ?_⟩
  · rw [hp.2 o id, ht.2 o (by unfold TimerReg; omega), Dev.rd, hregs, Dev.rd]
  · exact (Dev.bit_congr (hp.2 _ id) 6).trans (hflags u h1 h8 c hc)

theorem imageNoted_parts (d : Dev) : (imageNoted d).keep = d.keep ∧ (imageNoted d).repairs = d.repairs ∧
    (imageNoted d).pw.slot = d.fld Reg.IMAGE_STATUS 3 2 ∧ (imageNoted d).pw.serial = d.rd Reg.IMAGE_SERIAL ∧ (imageNoted d).regs = d.regs :=
  ⟨rfl, rfl, rfl, rfl, rfl⟩

theorem gives_deepEntryDone {s : State} (hp : s.dev.pwr = 4) (hh : headsDown s.dev = true) (ha : s.dev.au.runs = false)
    (hy : ∀ y < 8, yokeRun s.dev y ∉ [1, 2, 3, 4, 7]) : Gives .deepEntryDone s (fun t => t.dev.pwr = 5 ∧
      t.mem = { s.mem with bytes := [], poison := [], err := [] } ∧
      t.dev.keep.wearSaved = s.dev.keep.wear ∧ t.dev.keep.win = s.dev.keep.win ∧ t.dev.pw.slot = s.dev.fld Reg.IMAGE_STATUS 3 2 ∧
      t.dev.pw.serial = s.dev.rd Reg.IMAGE_SERIAL ∧ t.dev.heads = [] ∧ t.dev.drv = {} ∧ t.dev.mule = {} ∧ t.dev.rail.pg = false ∧
      (s.dev.repairs = [] → ∀ u, 1 ≤ u → u < 8 → ∀ c < 4, t.dev.bit (Reg.TM_FLAGS u c) 6 = true) ∧ t.pending = s.pending) := by
  have hentry : deepEntry s =
      { s with dev := deepRest (imageNoted (deepSaved s.dev)), mem := { s.mem with bytes := [], poison := [], err := [] } } := by
    rw [deepEntry_eq, if_neg]
    simp only [List.mem_cons, List.not_mem_nil, or_false, not_or] at hy
    simp only [hp, hh, ha, Bool.or_eq_true, List.any_eq_true, List.mem_range, beq_iff_eq]
    rintro (h | ⟨y, hy8, hrun⟩)
    · revert h
      decide
    · have := hy y hy8
      tauto
  obtain ⟨hwear, hwin, -, hreps, hregs, hflags⟩ := deepSaved_notes s.dev
  generalize deepSaved s.dev = w at hentry hwear hwin hreps hregs hflags
  obtain ⟨ikeep, ireps, islot, iserial, iregs⟩ := imageNoted_parts w
  generalize imageNoted w = i at hentry ikeep ireps islot iserial iregs
  obtain ⟨hpwr, hkeep, hpw, hheads, hdrv, hmule, hpg, hstay⟩ := deepRest_notes i
  generalize deepRest i = e at hentry hpwr hkeep hpw hheads hdrv hmule hpg hstay
  refine ⟨_, (exec_deepEntryDone s).trans (congrArg Host.Outcome.next hentry), hpwr, rfl, ?_, ?_, ?_, ?_, hheads, hdrv, hmule, hpg, ?_, rfl⟩
  · rw [hkeep, ikeep, hwear]
  · rw [hkeep, ikeep, hwin]
  · rw [hpw, islot]
    exact Dev.fld_congr (hregs _ (by decide)) 3 2
  · rw [hpw, iserial]
    exact hregs _ (by decide)
  · intro h u h1 h8 c hc
    have hreg : e.rd (Reg.TM_FLAGS u c) = w.rd (Reg.TM_FLAGS u c) := by
      rw [hstay ((ireps.trans hreps).trans h) u h8 c hc, Dev.rd, iregs, Dev.rd]
    exact (Dev.bit_congr hreg 6).trans (hflags u h1 h8 c hc)

theorem gives_deepEntryDone_idle {s : State} (h : s.dev.pwr ≠ 4 ∨ headsDown s.dev = false ∨ s.dev.au.runs = true ∨
    ∃ y < 8, yokeRun s.dev y ∈ [1, 2, 3, 4, 7]) : Gives .deepEntryDone s (fun t => t = s) := by
  refine ⟨_, exec_deepEntryDone s, ?_⟩
  rw [deepEntry_eq, if_pos]
  simp only [Bool.or_eq_true, Bool.not_eq_true', decide_eq_true_eq, List.any_eq_true, List.mem_range, beq_iff_eq]
  simp only [List.mem_cons, List.not_mem_nil, or_false] at h
  obtain h | h | h | ⟨y, hy, hrun⟩ := h
  · exact .inl (.inl (.inl h))
  · exact .inl (.inl (.inr h))
  · exact .inl (.inr h)
  · exact .inr ⟨y, hy, by tauto⟩

/-! ### WAKE_TASK (R338) -/

theorem wakeTask_none {d : Dev} (h : d.tasksAt 0x40 = []) : wakeTask d = d := by
  unfold wakeTask takeTask
  rw [h]

theorem wakeTask_taken {d : Dev} {a : Arrival} {l : List Arrival} (h : d.tasksAt 0x40 = a :: l) : wakeTask d = wakeDeep 8 (d.setTasks 0x40 l) := by
  unfold wakeTask takeTask
  rw [h]

/-- The wake, with its cause. -/
def woken (d : Dev) : Dev :=
  (((setPwr 6 (d.pwUpd (fun p => { p with since := d.clk }))).clrBit Reg.PWR_STATUS 8).clrBit Reg.PWR_STATUS 9).setBit Reg.PWR_STATUS 8

theorem wakeDeep_eq (d : Dev) : wakeDeep 8 d = if d.inDeep then woken d else d := rfl

theorem woken_status (d : Dev) : (woken d).pwr = 6 ∧ (woken d).bit Reg.PWR_STATUS 8 = true ∧ (woken d).bit Reg.PWR_STATUS 9 = false ∧
    ∀ o, o ≠ Reg.PWR_STATUS → (woken d).rd o = d.rd o := by
  unfold woken
  generalize hx : d.pwUpd (fun p => { p with since := d.clk }) = x
  have hregs (o : Nat) : x.rd o = d.rd o := by rw [← hx, Dev.rd_pwUpd]
  refine ⟨?_, Dev.bit_setBit_same _ _ (by decide), ?_, fun o ho => ?_⟩
  · rw [Dev.pwr, Dev.fld_setBit_outside _ _ (by decide) (by decide), Dev.fld_clrBit_outside _ _ (by decide) (by decide) (by decide),
      Dev.fld_clrBit_outside _ _ (by decide) (by decide) (by decide)]
    exact pwr_setPwr (by decide) x
  · rw [Dev.bit_setBit _ _ _ _ (by decide), Dev.bit_clrBit_same _ _ (by decide)]
    rfl
  · rw [Dev.rd_setBit_ne _ _ ho, Dev.rd_clrBit_ne _ _ ho, Dev.rd_clrBit_ne _ _ ho, (regsOnly_setPwr 6 x).2 _ ho, hregs]

theorem woken_parts (d : Dev) : (woken d).pw = { d.pw with since := d.clk } ∧ { woken d with regs := d.regs, pw := d.pw } = d := ⟨rfl, rfl⟩

section
variable {s : State} {a : Arrival} {l : List Arrival}

theorem gives_wakeTask_none (h : s.dev.tasksAt 0x40 = []) : Gives .wakeTask s (fun t => t = s) := gives_same (exec_wakeTask s) (wakeTask_none h)

theorem inDeep_setTasks (d : Dev) (t : Nat) (l : List Arrival) : (d.setTasks t l).inDeep = d.inDeep := rfl

theorem gives_wakeTask_awake (h : s.dev.tasksAt 0x40 = a :: l) (hd : s.dev.inDeep = false) :
    Gives .wakeTask s (fun t => t = s.upd (fun d => d.setTasks 0x40 l)) := by
  refine gives_of_upd (exec_wakeTask s) (d := s.dev.setTasks 0x40 l) ?_ rfl
  rw [wakeTask_taken h, wakeDeep_eq, inDeep_setTasks, hd]
  rfl

theorem setTasks_parts (d : Dev) (t : Nat) (l : List Arrival) : (d.setTasks t l).pw = d.pw ∧ (d.setTasks t l).clk = d.clk ∧
    (d.setTasks t l).regs = d.regs ∧ { d.setTasks t l with tasks := d.tasks } = d := ⟨rfl, rfl, rfl, rfl⟩

theorem gives_wakeTask (h : s.dev.tasksAt 0x40 = a :: l) (hd : s.dev.inDeep = true) : Gives .wakeTask s (fun t => t.dev.pwr = 6 ∧
    t.dev.bit Reg.PWR_STATUS 8 = true ∧ t.dev.bit Reg.PWR_STATUS 9 = false ∧
    t.dev.tasksAt 0x40 = l ∧ t.dev.pw = { s.dev.pw with since := s.dev.clk } ∧
    Leaves (fun d e => { d with regs := e.regs, tasks := e.tasks, pw := e.pw }) (· = Reg.PWR_STATUS) s t) := by
  have hf : wakeTask s.dev = woken (s.dev.setTasks 0x40 l) := by
    rw [wakeTask_taken h, wakeDeep_eq, inDeep_setTasks, hd]
    rfl
  have htasks : (s.dev.setTasks 0x40 l).tasksAt 0x40 = l := by rw [Dev.tasksAt_setTasks, if_pos rfl]
  obtain ⟨hpw, hclk, hregs, hrest⟩ := setTasks_parts s.dev 0x40 l
  generalize s.dev.setTasks 0x40 l = x at hf htasks hpw hclk hregs hrest
  obtain ⟨hpwr, htask, hpin, hother⟩ := woken_status x
  obtain ⟨wpw, wrest⟩ := woken_parts x
  generalize woken x = e at hf hpwr htask hpin hother wpw wrest
  refine gives_of_upd (exec_wakeTask s) hf ⟨hpwr, htask, hpin, ?_, by rw [wpw, hpw, hclk], rfl, rfl, ?_, fun o ho => ?_⟩
  · exact (congrArg (fun y : Dev => y.tasksAt 0x40) wrest :).trans htasks
  · exact (congrArg (fun y : Dev => { y with regs := s.dev.regs, tasks := s.dev.tasks, pw := s.dev.pw }) wrest :).trans
      (congrArg (fun y : Dev => { y with regs := s.dev.regs, pw := s.dev.pw }) hrest :)
  · rw [hother o ho, Dev.rd, hregs, Dev.rd]

/-! ### SW_PG (R562) -/

/-- The boot goes on from its step 4. -/
def bootAgain (d : Dev) : Dev := d.pwUpd (fun p => { p with boot := 3, kind := 3 })

theorem swPgRise_eq (d : Dev) : swPgRise d = if d.pwr ≠ 6 || d.pw.boot ≠ 7 then d else railRises (bootAgain d) := rfl
theorem swPgTimeout_eq (d : Dev) : swPgTimeout d = if d.pwr ≠ 6 || d.pw.boot ≠ 7 then d else railLate 5 (d.pw.since + 50000000) d := rfl

theorem bootAgain_parts (d : Dev) : (bootAgain d).pw = { d.pw with boot := 3, kind := 3 } ∧ (bootAgain d).rail = d.rail ∧
    (bootAgain d).regs = d.regs ∧ { bootAgain d with pw := d.pw } = d := ⟨rfl, rfl, rfl, rfl⟩

theorem gives_swPgRise (hp : s.dev.pwr = 6) (hb : s.dev.pw.boot = 7) : Gives .swPgRise s (fun t =>
    t.dev.pw = { s.dev.pw with boot := 3, kind := 3 } ∧ t.dev.rail.pg = true ∧ (s.dev.rail.request = none → t.dev.rail.request = some 5) ∧
    Leaves (fun d e => { d with regs := e.regs, pw := e.pw, rail := e.rail }) (· = Reg.RAIL_STATUS) s t) := by
  have hf : swPgRise s.dev = railRises (bootAgain s.dev) := by rw [swPgRise_eq, if_neg (by simp [hp, hb])]
  obtain ⟨hpw, hrail, hregs, hrest⟩ := bootAgain_parts s.dev
  generalize bootAgain s.dev = x at hf hpw hrail hregs hrest
  obtain ⟨hup, hreq, honly, hother⟩ := railRises_notes x
  generalize railRises x = e at hf hup hreq honly hother
  refine gives_of_upd (exec_swPgRise s) hf ⟨(congrArg Dev.pw honly :).trans hpw, hup, fun h => hreq (by rw [hrail, h]), rfl, rfl, ?_, fun o ho => ?_⟩
  · exact (congrArg (fun y : Dev => { y with regs := s.dev.regs, pw := s.dev.pw, rail := s.dev.rail }) honly :).trans
      (congrArg (fun y : Dev => { y with regs := s.dev.regs, rail := s.dev.rail }) hrest :)
  · rw [hother o ho, Dev.rd, hregs, Dev.rd]

theorem gives_swPgTimeout (hp : s.dev.pwr = 6) (hb : s.dev.pw.boot = 7) : Gives .swPgTimeout s (fun t => t.dev.pwr = 5 ∧
    t.dev.bit Reg.PWR_FLAGS 1 = true ∧ s.dev.pw.since + 50000000 ≤ t.dev.clk ∧
    Leaves (fun d e => { d with regs := e.regs, ht := e.ht, clk := e.clk }) (fun o => o = Reg.PWR_STATUS ∨ o = Reg.PWR_FLAGS) s t) :=
  gives_railLate (exec_swPgTimeout s) (by rw [swPgTimeout_eq, if_neg (by simp [hp, hb])]) (by decide)

theorem gives_swPg_idle (h : s.dev.pwr ≠ 6 ∨ s.dev.pw.boot ≠ 7) {i : Instr} (hi : i ∈ [Instr.swPgRise, .swPgTimeout]) :
    Gives i s (fun t => t = s) := by
  have hidle : (decide (s.dev.pwr ≠ 6) || decide (s.dev.pw.boot ≠ 7)) = true := by
    obtain h | h := h <;> simp [h]
  obtain rfl | rfl : i = .swPgRise ∨ i = .swPgTimeout := by simpa using hi
  · exact gives_same (exec_swPgRise s) (by rw [swPgRise_eq, if_pos hidle])
  · exact gives_same (exec_swPgTimeout s) (by rw [swPgTimeout_eq, if_pos hidle])

end

end Sys2Proof.Machine

/-! PROOFS. The return from deep standby, and the statement (O51). -/
namespace Sys2Proof.Machine

-- One proof after another: proofs that wait for the kernel at once would take more threads than the check's memory holds.
set_option Elab.async false

theorem exec_deepExitDone (s : State) : exec .deepExitDone s = .next (deepExit s) := rfl

/-! ### LOADED leaves the states of the yokes -/

/-- The registers but YOKE_STATE. -/
abbrev OffYokes (o : Nat) : Prop := o < 0x10040 ∨ 0x10060 ≤ o

/-- No YOKE_STATE changes. -/
abbrev YokesKept (d e : Dev) : Prop := Within anyPart OffYokes d e

theorem yokesKept_of_regs {d e : Dev} (h : e.regs = d.regs) : YokesKept d e := within_any_of_regs h

theorem yokesKept_wr {o : Nat} (h : OffYokes o) (v : Word) (d : Dev) : YokesKept d (d.wr o v) := within_wr (g := anyPart) h v d

theorem yokesKept_stampYoke {y : Nat} (d : Dev) : YokesKept d (stampYoke y d) :=
  .ite (fun _ => yokesKept_wr (by unfold Reg.Y_GEN; omega) 1 d) fun _ => .refl d

theorem yokesKept_stampHead (h : Nat) (d : Dev) : YokesKept d (stampHead h d) :=
  ((yokesKept_wr (by unfold Reg.HEAD_GEN; omega) 1 d).trans (yokesKept_wr (by unfold Reg.LS_GEN; omega) 1 _)).trans
    (yokesKept_wr (by unfold Reg.COMP_GEN; omega) 1 _)

theorem yokesKept_stampCell (f p : Nat) (d : Dev) : YokesKept d (stampCell f p d) :=
  .ite (fun _ => .refl d) fun _ => (yokesKept_wr (by unfold Reg.CELL_GEN; omega) 1 d).trans (yokesKept_wr (by unfold Reg.CELL_STATUS; omega) _ _)

theorem yokesKept_stampAll (d : Dev) : YokesKept d (stampAll d) := by
  have hblocks : YokesKept d ((((d.wr Reg.GLOBAL_GEN 1).wr Reg.AU_GEN 1).wr Reg.MULE_GEN 1).wr Reg.DRV_GEN 1) :=
    (((yokesKept_wr (by decide) 1 d).trans (yokesKept_wr (by decide) 1 _)).trans (yokesKept_wr (by decide) 1 _)).trans (yokesKept_wr (by decide) 1 _)
  have hchannels := Within.forN 32 (fun n (e : Dev) => e.wr (Reg.PCH_GEN n) 1) (fun n _ e => yokesKept_wr (by unfold Reg.PCH_GEN; omega) 1 e)
  rw [stampAll_eq]
  exact (((hblocks.trans (hchannels _)).trans (.forN 8 stampYoke (fun _ _ => yokesKept_stampYoke) _)).trans
    (.forN 8 stampHead (fun h _ => yokesKept_stampHead h) _)).trans
    (.forN 16 _ (fun f _ e => .forN 8 (stampCell f) (fun p _ => yokesKept_stampCell f p) e) _)

theorem yokesKept_showImage (d : Dev) : YokesKept d (showImage d) := by
  unfold showImage
  dsimp only
  refine Within.trans ?_ (yokesKept_of_regs rfl)
  refine Within.trans ?_ (yokesKept_wr (o := Reg.IMAGE_SERIAL) (by decide) _ _)
  have hset : YokesKept d ((d.setBit Reg.IMAGE_STATUS 0).setFld Reg.IMAGE_STATUS 3 2 d.ld.slot) :=
    (yokesKept_wr (by decide) _ d).trans (yokesKept_wr (by decide) _ _)
  exact hset.trans (within_putBit (by decide) 4 _ _)

theorem yokesKept_setJoined (d : Dev) : YokesKept d (setJoined d) := by
  refine .ite (fun _ => .refl d) fun _ => Within.trans (within_setBit (g := anyPart) (o := Reg.HERD_STATUS) (by decide) 0 d) ?_
  exact .forN 8 endJoinWait (fun _ _ e => .ite (fun _ => yokesKept_of_regs rfl) fun _ => .refl e) _

theorem yokesKept_beginCold (h : Nat) (d : Dev) : YokesKept d (beginCold h d) :=
  Within.trans (yokesKept_wr (o := Reg.HEAD_STATUS h) (by unfold Reg.HEAD_STATUS; omega) _ d) (yokesKept_of_regs rfl)

theorem yokesKept_startHeads (d : Dev) : YokesKept d (startHeads d) := by
  refine .forN 8 _ (fun h _ e => ?_) d
  split
  · exact .ite (fun _ => yokesKept_beginCold h e) fun _ => .refl e
  · exact .refl e

/-- The die with the sources of another. -/
def srcsPart (e d : Dev) : Dev := { e with srcs := d.srcs }

theorem within_srcs_offer (n : Nat) (d : Dev) : Within srcsPart (fun _ => False) d (offer n d) := by
  have hsrc (x : Src) : Within srcsPart (fun _ => False) d (d.setSrc n x) := within_of_eq rfl rfl
  unfold offer
  split
  · exact .refl d
  · split
    · split <;> exact hsrc _
    · exact hsrc _

/-- Sources are offered anew: nothing else changes. -/
theorem within_srcs_offerAnew (d : Dev) : Within srcsPart (fun _ => False) d (offerAnew d) := by
  refine .foldl _ _ (fun n _ e => ?_) d
  split
  · exact .ite (fun _ => .refl e) fun _ => within_srcs_offer n e
  · exact within_srcs_offer n e
  · exact .refl e

theorem yokesKept_syncSpares (d : Dev) : YokesKept d (syncSpares d) := yokesKept_wr (by decide) _ d

theorem yokesKept_startUnits (d : Dev) : YokesKept d (startUnits d) := by
  have hjoined : YokesKept d (if ringless d then setJoined d else d) := .ite (fun _ => yokesKept_setJoined d) fun _ => .refl d
  have hpatrol (e : Dev) : YokesKept e (patrolStart e) := yokesKept_of_regs rfl
  have hoffered (e : Dev) : YokesKept e (offerAnew e) := (within_srcs_offerAnew e).any.mono nofun
  unfold startUnits
  exact (((hjoined.trans (hpatrol _)).trans (yokesKept_startHeads _)).trans (yokesKept_syncSpares _)).trans (hoffered _)

theorem yokesKept_setLoaded (d : Dev) : YokesKept d (setLoaded d) := by
  rw [setLoaded_eq]
  exact ((yokesKept_stampAll d).trans (yokesKept_showImage _)).trans (yokesKept_startUnits _)

theorem yokeOn_of_kept {d e : Dev} (h : YokesKept d e) {y : Nat} (hy : y < 8) : yokeOn e y = yokeOn d y := by
  unfold yokeOn
  rw [Dev.fld_congr (h.2 _ (by unfold OffYokes Reg.YOKE_STATE; omega))]

/-! ### Yokes resume (R562) -/

/-- The die with the yokes of another. -/
def yokesPart (e d : Dev) : Dev := { e with regs := d.regs, yokes := d.yokes }

/-- Only yokes and registers change. -/
def YokesOnly (d e : Dev) : Prop := Within yokesPart (fun _ => True) d e

theorem yokesOnly_of_eq {d e : Dev} (h : yokesPart e d = d) : YokesOnly d e := ⟨h, fun _ ho => absurd trivial ho⟩

theorem YokesOnly.refl (d : Dev) : YokesOnly d d := Within.refl (g := yokesPart) d

theorem YokesOnly.trans {d e x : Dev} (h : YokesOnly d e) (k : YokesOnly e x) : YokesOnly d x := Within.trans (g := yokesPart) h k

theorem YokesOnly.parts {d e : Dev} (h : YokesOnly d e) : e.pw = d.pw ∧ e.ld = d.ld := ⟨(congrArg Dev.pw h.1 :), (congrArg Dev.ld h.1 :)⟩

theorem regsOnly_setWins (y : Nat) (ws : List Word) (d : Dev) : RegsOnly (fun _ => True) d (setWins y ws d) :=
  regsOnly_foldl _ _ (fun _ _ e => regsOnly_wr trivial _ e) d

theorem yokesOnly_of_regs {q : Nat → Prop} {d e : Dev} (h : RegsOnly q d e) : YokesOnly d e :=
  yokesOnly_of_eq (congrArg (fun x : Dev => { x with yokes := d.yokes }) h.1 :)

theorem yk_of_regs {q : Nat → Prop} {d e : Dev} (h : RegsOnly q d e) (z : Nat) : e.yk z = d.yk z := (congrArg (fun x : Dev => x.yk z) h.1 :)

theorem regsOnly_syncYoke (y : Nat) (d : Dev) : RegsOnly (fun _ => True) d (syncYoke y d) := by
  have hput (n : Nat) (b : Bool) (e : Dev) : RegsOnly (fun _ => True) e (e.putBit (Reg.Y_STATUS y) n b) := by
    cases b <;> exact regsOnly_wr trivial _ e
  unfold syncYoke
  dsimp only
  exact ((hput _ _ d).trans (hput _ _ _)).trans (hput _ _ _)

/-- The programmer's model of a yoke is that of its checkpoint. -/
def ctxRestored (e : Nat × OxCtx × List Word) (d : Dev) : Dev := d.updYk e.1 (fun k => { k with ctx := e.2.1, ckpt := some e.2.1, ckptWin := e.2.2 })

theorem resumeDeep_eq (e : Nat × OxCtx × List Word) (d : Dev) : resumeDeep e d =
    syncYoke e.1 (setRun e.1 (if e.2.1.waiting then 7 else liveState (ctxRestored e (setWins e.1 e.2.2 d)) e.1) (ctxRestored e (setWins e.1 e.2.2 d))) := rfl

theorem resumeDeep_notes (e : Nat × OxCtx × List Word) (d : Dev) : YokesOnly d (resumeDeep e d) ∧
    ((resumeDeep e d).yk e.1).ctx = e.2.1 ∧ ∀ z, z ≠ e.1 → (resumeDeep e d).yk z = d.yk z := by
  rw [resumeDeep_eq]
  have hwins := regsOnly_setWins e.1 e.2.2 d
  generalize setWins e.1 e.2.2 d = w at hwins ⊢
  have hset : YokesOnly w (ctxRestored e w) := yokesOnly_of_eq rfl
  have hsame : ((ctxRestored e w).yk e.1).ctx = e.2.1 := by rw [ctxRestored, Dev.yk_updYk_same]
  have hother (z : Nat) (hz : z ≠ e.1) : (ctxRestored e w).yk z = w.yk z := by rw [ctxRestored, Dev.yk_updYk, if_neg hz]
  generalize ctxRestored e w = x at hset hsame hother ⊢
  have hend : RegsOnly (fun _ => True) x (syncYoke e.1 (setRun e.1 (if e.2.1.waiting then 7 else liveState x e.1) x)) :=
    (regsOnly_wr trivial _ x).trans (regsOnly_syncYoke e.1 _)
  generalize syncYoke e.1 _ = r at hend ⊢
  refine ⟨((yokesOnly_of_regs hwins).trans hset).trans (yokesOnly_of_regs hend), ?_, fun z hz => ?_⟩
  · rw [yk_of_regs hend, hsame]
  · rw [yk_of_regs hend, hother z hz, yk_of_regs hwins]

/-- Yokes resume from a list of checkpoints. -/
def resumeList (l : List (Nat × OxCtx × List Word)) (d : Dev) : Dev := l.foldl (fun d e => resumeDeep e d) d

theorem yokesOnly_resumeList (l : List (Nat × OxCtx × List Word)) (d : Dev) : YokesOnly d (resumeList l d) :=
  List.foldlRecOn (motive := YokesOnly d) l _ (.refl d) fun x hx e _ => hx.trans (resumeDeep_notes e x).1

/-- A yoke whose only checkpoint of the list is `e` goes on with the programmer's model of `e`. -/
theorem ctx_resumeList {e : Nat × OxCtx × List Word} {l : List (Nat × OxCtx × List Word)} (hone : ∀ x ∈ l, x.1 = e.1 → x = e) (d : Dev)
    (h : e ∈ l ∨ (d.yk e.1).ctx = e.2.1) : ((resumeList l d).yk e.1).ctx = e.2.1 := by
  induction l generalizing d with
  | nil => exact h.resolve_left (List.not_mem_nil)
  | cons x l ih =>
    obtain ⟨-, hsame, hother⟩ := resumeDeep_notes x d
    refine ih (fun y hy => hone y (List.mem_cons_of_mem x hy)) (resumeDeep x d) ?_
    by_cases hx : x.1 = e.1
    · rw [hone x List.mem_cons_self hx] at hsame
      rw [hone x List.mem_cons_self hx]
      exact .inr hsame
    · obtain h | h := h
      · exact .inl ((List.mem_cons.1 h).resolve_left fun he => hx (congrArg Prod.fst he.symm))
      · exact .inr (by rw [hother e.1 (Ne.symm hx), h])

theorem eq_of_single {α : Type} {p : α → Bool} {l : List α} (h : (l.filter p).length = 1) {a b : α} (ha : a ∈ l) (hb : b ∈ l) (hpa : p a = true)
    (hpb : p b = true) : a = b := by
  obtain ⟨c, hc⟩ := List.length_eq_one_iff.1 h
  have hmem {x : α} (hx : x ∈ l) (hpx : p x = true) : x = c := List.mem_singleton.1 (hc ▸ List.mem_filter.2 ⟨hx, hpx⟩)
  rw [hmem ha hpa, hmem hb hpb]

/-! ### DEEP_EXIT_DONE (R562) -/

/-- The checkpoints from which the yokes that the image enables resume. -/
def deepHeld (d : Dev) : List (Nat × OxCtx × List Word) := d.pw.deep.filter (fun e => yokeOn d e.1)

/-- The device runs, and holds no checkpoint. -/
def deepOver (d : Dev) : Dev := (setPwr 0 (d.pwUpd (fun p => { p with deep := [], kind := 0 }))).setBit Reg.PWR_FLAGS 2

/-- The rail has reached the twin floor. -/
def deepReached (d : Dev) : Dev := offerAnew (deepOver (resumeList (deepHeld (setLoaded d)) (setLoaded d)))

/-- The state in which the image is applied. -/
def deepApplied (s : State) : State := if s.dev.ld.phase = 2 then keepTcm s (applyOnce s) else s

theorem deepExit_eq (s : State) : deepExit s =
    if (s.dev.ld.phase ≠ 2 && s.dev.ld.phase ≠ 4) || s.dev.pw.kind ≠ 3 then s
    else (deepApplied s).upd (fun d => if railLevel d < railFloor d then d else deepReached d) := rfl

theorem keepTcm_leaves (old s : State) : (keepTcm old s).dev = s.dev ∧ (keepTcm old s).pending = s.pending := ⟨rfl, rfl⟩

theorem deepApplied_leaves {s : State} (h : s.dev.ld.phase = 2 ∨ s.dev.ld.phase = 4) :
    (deepApplied s).dev = (applyOnce s).dev ∧ (deepApplied s).pending = s.pending := by
  obtain h | h := h
  · obtain ⟨hdev, hpending⟩ := keepTcm_leaves s (applyOnce s)
    rw [deepApplied, if_pos h]
    exact ⟨hdev, hpending.trans (queue_applyOnce s)⟩
  · rw [deepApplied, if_neg (by omega), applyOnce_applied h]
    exact ⟨rfl, rfl⟩

theorem deepApplied_again {s : State} (h : s.dev.ld.phase = 4) : deepApplied s = s := if_neg (by omega)

theorem deepOver_parts (d : Dev) : (deepOver d).pw = { d.pw with deep := [], kind := 0 } ∧ (deepOver d).ld = d.ld ∧ (deepOver d).yokes = d.yokes :=
  ⟨rfl, rfl, rfl⟩

theorem deepOver_notes (d : Dev) : (deepOver d).pwr = 0 ∧ (deepOver d).bit Reg.PWR_FLAGS 2 = true := by
  unfold deepOver
  generalize d.pwUpd (fun p => { p with deep := [], kind := 0 }) = x
  exact ⟨(Dev.pwr_congr (Dev.rd_setBit_ne _ _ (by decide))).trans (pwr_setPwr (by decide) x), Dev.bit_setBit_same _ _ (by decide)⟩

/-- What the return from deep standby leaves of a device with the die d. -/
def DeepReturned (d e : Dev) : Prop :=
  e.pwr = 0 ∧ e.pw.kind = 0 ∧ e.pw.deep = [] ∧ e.pw.boot = 7 ∧ e.ld.phase = 3 ∧ e.bit Reg.PWR_FLAGS 2 = true ∧
  ∀ x ∈ d.pw.deep, yokeOn d x.1 = true → (d.pw.deep.filter (fun z => z.1 == x.1)).length = 1 → x.1 < 8 → (e.yk x.1).ctx = x.2.1

/-- What LOADED leaves of the loader, the power states and the states of the yokes. -/
theorem setLoaded_notes (d : Dev) : (setLoaded d).pw = { d.pw with boot := 7 } ∧ (setLoaded d).ld = { d.ld with phase := 3 } ∧
    YokesKept d (setLoaded d) := by
  obtain ⟨-, hld, hpw, -⟩ := stampAll_leaves d
  have hshown := imageShown_setLoaded d
  exact ⟨by rw [hshown.pw, hpw], by rw [hshown.ld, hld], yokesKept_setLoaded d⟩

theorem deepReached_notes (d : Dev) : DeepReturned d (deepReached d) := by
  obtain ⟨hpw, hld, hkept⟩ := setLoaded_notes d
  unfold deepReached
  generalize setLoaded d = e at hpw hld hkept ⊢
  obtain ⟨rpw, rld⟩ := (yokesOnly_resumeList (deepHeld e) e).parts
  have hctx (x : Nat × OxCtx × List Word) (hx : x ∈ deepHeld e) (hone : ∀ z ∈ deepHeld e, z.1 = x.1 → z = x) :
      ((resumeList (deepHeld e) e).yk x.1).ctx = x.2.1 := ctx_resumeList hone e (.inl hx)
  generalize resumeList (deepHeld e) e = r at rpw rld hctx ⊢
  obtain ⟨opw, old, oyokes⟩ := deepOver_parts r
  obtain ⟨hpwr, hflag⟩ := deepOver_notes r
  generalize deepOver r = o at opw old oyokes hpwr hflag ⊢
  have hsrcs := within_srcs_offerAnew o
  generalize offerAnew o = a at hsrcs ⊢
  have spw : a.pw = o.pw := (congrArg Dev.pw hsrcs.1 :)
  have sld : a.ld = o.ld := (congrArg Dev.ld hsrcs.1 :)
  have syokes : a.yokes = o.yokes := (congrArg Dev.yokes hsrcs.1 :)
  have apw : a.pw = { d.pw with boot := 7, deep := [], kind := 0 } := by rw [spw, opw, rpw, hpw]
  have ald : a.ld = { d.ld with phase := 3 } := by rw [sld, old, rld, hld]
  have ayk (z : Nat) : a.yk z = r.yk z := by rw [Dev.yk, syokes, oyokes, Dev.yk]
  refine ⟨(Dev.pwr_congr (hsrcs.2 _ id)).trans hpwr, by rw [apw], by rw [apw], by rw [apw], by rw [ald],
    (Dev.bit_congr (hsrcs.2 _ id) 2).trans hflag, fun x hx hon hone hx8 => ?_⟩
  have hdeep : e.pw.deep = d.pw.deep := by rw [hpw]
  rw [ayk]
  refine hctx x (List.mem_filter.2 ⟨hdeep ▸ hx, by rw [yokeOn_of_kept hkept hx8, hon]⟩) fun z hz hzx => ?_
  exact eq_of_single hone (hdeep ▸ (List.mem_filter.1 hz).1) hx (by rw [hzx]; exact beq_self_eq_true _) (beq_self_eq_true _)

theorem gives_deepExitDone {s : State} (hphase : s.dev.ld.phase = 2 ∨ s.dev.ld.phase = 4) (hkind : s.dev.pw.kind = 3) :
    Gives .deepExitDone s (fun t => (if railLevel (applyOnce s).dev < railFloor (applyOnce s).dev then t.dev.ld.phase = 4 ∧
        (s.dev.ld.phase = 4 → t = s)
      else t.dev.pwr = 0 ∧ t.dev.pw.kind = 0 ∧ t.dev.pw.deep = [] ∧ t.dev.pw.boot = 7 ∧ t.dev.ld.phase = 3 ∧ t.dev.bit Reg.PWR_FLAGS 2 = true ∧
        ∀ e ∈ (applyOnce s).dev.pw.deep, yokeOn (applyOnce s).dev e.1 = true →
          ((applyOnce s).dev.pw.deep.filter (fun x => x.1 == e.1)).length = 1 → e.1 < 8 → (t.dev.yk e.1).ctx = e.2.1) ∧
      t.pending = s.pending) := by
  have hexit : deepExit s = (deepApplied s).upd (fun d => if railLevel d < railFloor d then d else deepReached d) := by
    rw [deepExit_eq, if_neg]
    obtain h | h := hphase <;> simp [h, hkind]
  obtain ⟨hdev, hpending⟩ := deepApplied_leaves hphase
  have hp4 := phase_applyOnce hphase
  have hagain : s.dev.ld.phase = 4 → deepApplied s = s := deepApplied_again
  rw [← hdev] at hp4 ⊢
  generalize deepApplied s = r at hexit hpending hp4 hagain ⊢
  rw [State.upd] at hexit
  have hreached := deepReached_notes r.dev
  generalize deepReached r.dev = e at hexit hreached
  refine ⟨_, (exec_deepExitDone s).trans (congrArg Host.Outcome.next hexit), ?_, hpending⟩
  by_cases hrail : railLevel r.dev < railFloor r.dev
  · rw [if_pos hrail, if_pos hrail]
    exact ⟨hp4, hagain⟩
  · rw [if_neg hrail, if_neg hrail]
    exact hreached

theorem gives_deepExitDone_idle {s : State} (h : s.dev.ld.phase ≠ 2 ∧ s.dev.ld.phase ≠ 4 ∨ s.dev.pw.kind ≠ 3) :
    Gives .deepExitDone s (fun t => t = s) := by
  refine ⟨_, exec_deepExitDone s, ?_⟩
  rw [deepExit_eq, if_pos (by simpa using h)]

/-- Settles O51: a command by the state and the requester, an entry by what its heads, yokes and session do, a step by its condition, and the
returns by the reload of the units and the checkpoints of the yokes. -/
theorem powerStatesFollowTheirSteps : Obligations.PowerStatesFollowTheirSteps := by
  unfold Obligations.PowerStatesFollowTheirSteps
  refine ⟨fun s q h => ⟨gives_pwrRun_standby h, gives_pwrRun_running h, fun hp hb i hi => gives_pwrEntry_accepted h hp hb hi,
      fun i c hr => gives_pwrRefusal h hr⟩, fun s q h i hi => gives_pwr_denied h hi, fun s noRes hp hh ha => gives_standbyEntryDone noRes hp hh ha,
    fun s hp hpg => ⟨gives_arrayPgRise hp hpg, gives_arrayPgTimeout hp hpg⟩, fun s hp hpg hreq hlevel => gives_standbyExitDone hp hpg hreq hlevel,
    fun s => ⟨gives_standbyEntryDone_idle, fun h i hi => gives_arrayPg_idle h hi, gives_standbyExitDone_idle, gives_deepCheckpoint_idle,
      gives_deepEntryDone_idle, fun h i hi => gives_swPg_idle h hi, gives_wakeTask_none, fun a l => gives_wakeTask_awake, gives_deepExitDone_idle⟩,
    fun s y => gives_deepCheckpoint, fun s => gives_deepEntryDone, fun s a l => gives_wakeTask, fun s hp hb => ⟨gives_swPgRise hp hb, gives_swPgTimeout hp hb⟩,
    fun s => gives_deepExitDone⟩

end Sys2Proof.Machine

/-! PROOFS. What the operations of a line script engine leave: the engine's state, LS_POS, and the rest of the die (O16 to O18). -/
namespace Sys2Proof.Machine

-- One proof after another: proofs that wait for the kernel at once would take more threads than the check's memory holds.
set_option Elab.async false

/-! ### The script engines after changes of other parts -/

@[simp] theorem Dev.ls_wr (d : Dev) (o : Nat) (v : Word) (h : Nat) : (d.wr o v).ls h = d.ls h := rfl
@[simp] theorem Dev.ls_setBit (d : Dev) (o n h : Nat) : (d.setBit o n).ls h = d.ls h := rfl
@[simp] theorem Dev.ls_clrBit (d : Dev) (o n h : Nat) : (d.clrBit o n).ls h = d.ls h := rfl
@[simp] theorem Dev.ls_putBit (d : Dev) (o n : Nat) (b : Bool) (h : Nat) : (d.putBit o n b).ls h = d.ls h := by cases b <;> rfl
@[simp] theorem Dev.ls_bump (d : Dev) (o h : Nat) : (d.bump o).ls h = d.ls h := by unfold Dev.bump; split <;> rfl
@[simp] theorem Dev.ls_updHead (d : Dev) (k : Nat) (f : HeadSt → HeadSt) (h : Nat) : (d.updHead k f).ls h = d.ls h := rfl
@[simp] theorem Dev.ls_updLs_same (d : Dev) (h : Nat) (f : LsSt → LsSt) : (d.updLs h f).ls h = f (d.ls h) :=
  (Store.get_set _ d.scripts h _ h).trans (if_pos rfl)

/-! ### What may change -/

/-- The die with the registers and the scripts of another. -/
abbrev scriptPart (e d : Dev) : Dev := { e with regs := d.regs, scripts := d.scripts }

/-- The die with the registers, the cells and the scripts of another. -/
abbrev stagePart (e d : Dev) : Dev := { e with regs := d.regs, cells := d.cells, scripts := d.scripts }

/-- Only scripts and registers of p change. -/
abbrev ScriptOnly (p : Nat → Prop) (d e : Dev) : Prop := Within scriptPart p d e

/-- Only scripts, cells and registers of p change. -/
abbrev StageOnly (p : Nat → Prop) (d e : Dev) : Prop := Within stagePart p d e

theorem ScriptOnly.head {p : Nat → Prop} {d e : Dev} (h : ScriptOnly p d e) (k : Nat) : e.head k = d.head k :=
  (congrArg (fun x : Dev => x.head k) h.1 :)

theorem ScriptOnly.stageOnly {p : Nat → Prop} {d e : Dev} (h : ScriptOnly p d e) : StageOnly p d e := h.widen fun _ ho => ho

/-! ### LS_POS (R159) -/

/-- LS_POS is one write of its register. (The kernel would compute the value of a word that it meets.) -/
theorem lsPos_eq_wr (h : Nat) (d : Dev) : ∃ v, lsPos h d = d.wr (Reg.LS_POS h) v := ⟨_, rfl⟩

@[simp] theorem ls_lsPos (h : Nat) (d : Dev) : (lsPos h d).ls h = d.ls h := by
  obtain ⟨v, hv⟩ := lsPos_eq_wr h d
  rw [hv, Dev.ls_wr]

theorem regsOnly_lsPos {p : Nat → Prop} {h : Nat} (hp : p (Reg.LS_POS h)) (d : Dev) : RegsOnly p d (lsPos h d) := by
  obtain ⟨v, hv⟩ := lsPos_eq_wr h d
  rw [hv]
  exact regsOnly_wr hp v d

theorem scriptOnly_lsPos {p : Nat → Prop} {h : Nat} (hp : p (Reg.LS_POS h)) (d : Dev) : ScriptOnly p d (lsPos h d) := (regsOnly_lsPos hp d).within

/-- Bit 31 of LS_POS is ENDED. -/
theorem bit_lsPos (h : Nat) (d : Dev) : (lsPos h d).bit (Reg.LS_POS h) 31 = (d.ls h).ended := by
  have hline := Nat.mod_lt (d.ls h).line (Nat.two_pow_pos 13)
  have hpixel := Nat.mod_lt (d.ls h).pixel (Nat.two_pow_pos 14)
  rw [lsPos, Dev.bit, Dev.rd_wr_same, bitOf, w32, BitVec.getLsbD_ofNat, Nat.testBit_eq_decide_div_mod_eq]
  cases (d.ls h).ended <;> simp <;> omega

/-! ### The end of the script (R159, R168) -/

@[simp] theorem ls_lsEnd (h : Nat) (d : Dev) : (lsEnd h d).ls h = { d.ls h with ended := true } := by
  rw [lsEnd, ls_lsPos, Dev.ls_updLs_same]

theorem scriptOnly_lsEnd {p : Nat → Prop} {h : Nat} (hp : p (Reg.LS_POS h)) (d : Dev) : ScriptOnly p d (lsEnd h d) :=
  (within_updLs h _ d).trans (scriptOnly_lsPos hp _)

theorem bit_lsEnd (h : Nat) (d : Dev) : (lsEnd h d).bit (Reg.LS_POS h) 31 = true := by simp [lsEnd, bit_lsPos]

/-- A verb error ends the script, and sets its flag (R168). -/
theorem verbError_notes (h : Nat) (d : Dev) : ((verbError h d).ls h).ended = true ∧ (verbError h d).bit (Reg.LS_FLAGS h) 2 = true ∧
    (verbError h d).bit (Reg.LS_POS h) 31 = true ∧ ScriptOnly (fun o => o = Reg.LS_POS h ∨ o = Reg.LS_FLAGS h) d (verbError h d) := by
  have hflag := Dev.bit_setBit_same d (Reg.LS_FLAGS h) (n := 2) (by decide)
  have hset := within_setBit (g := scriptPart) (p := fun o => o = Reg.LS_POS h ∨ o = Reg.LS_FLAGS h) (.inr rfl) 2 d
  unfold verbError
  generalize d.setBit (Reg.LS_FLAGS h) 2 = e at hflag hset ⊢
  have hend : ScriptOnly (· = Reg.LS_POS h) e (lsEnd h e) := scriptOnly_lsEnd (by rfl) e
  refine ⟨by rw [ls_lsEnd], ?_, bit_lsEnd h e, hset.trans (hend.mono fun _ => .inl)⟩
  exact (Dev.bit_congr (hend.2 _ (by unfold Reg.LS_FLAGS Reg.LS_POS; omega)) 2).trans hflag

theorem gives_verbError {s : State} {i : Instr} {h : Nat} (he : exec i s = .next (s.upd (verbError h))) : Gives i s (VerbError h s) := by
  obtain ⟨hended, hflag, hpos, hwithin⟩ := verbError_notes h s.dev
  refine ⟨_, he, ?_⟩
  rw [State.upd]
  generalize verbError h s.dev = e at hended hflag hpos hwithin
  exact ⟨hended, hflag, hpos, hwithin.leaves⟩

/-! ### Going on after a verb (R159) -/

/-- The engine past n words: after word 4095 the script has ended. -/
def LsSt.advanced (n : Nat) (e : LsSt) : LsSt := { e with pc := e.pc + n, ended := e.ended || decide (4096 ≤ e.pc + n) }

theorem ls_lsAdvance (h n : Nat) (d : Dev) : (lsAdvance h n d).ls h = (d.ls h).advanced n := by
  unfold lsAdvance LsSt.advanced
  dsimp only
  rw [Dev.ls_updLs_same]
  by_cases hpc : 4096 ≤ (d.ls h).pc + n
  · rw [if_pos hpc, ls_lsEnd, Dev.ls_updLs_same, decide_eq_true hpc, Bool.or_true]
  · rw [if_neg hpc, Dev.ls_updLs_same, decide_eq_false hpc, Bool.or_false]

theorem scriptOnly_lsAdvance {p : Nat → Prop} {h : Nat} (hp : p (Reg.LS_POS h)) (n : Nat) (d : Dev) : ScriptOnly p d (lsAdvance h n d) := by
  unfold lsAdvance
  refine (within_updLs h _ d).trans (.ite (fun _ => scriptOnly_lsEnd hp _) fun _ => .refl _)

theorem rd_lsAdvance {h o : Nat} (ho : o ≠ Reg.LS_POS h) (n : Nat) (d : Dev) : (lsAdvance h n d).rd o = d.rd o :=
  (scriptOnly_lsAdvance (p := (· = Reg.LS_POS h)) (by rfl) n d).2 o ho

theorem bit_flags_lsAdvance (h n : Nat) (d : Dev) (k : Nat) : (lsAdvance h n d).bit (Reg.LS_FLAGS h) k = d.bit (Reg.LS_FLAGS h) k :=
  Dev.bit_congr (rd_lsAdvance (by unfold Reg.LS_FLAGS Reg.LS_POS; omega) n d) k

/-- ENDED stays in LS_POS. -/
theorem bit_lsAdvance {h : Nat} (n : Nat) {d : Dev} (hd : d.bit (Reg.LS_POS h) 31 = true) : (lsAdvance h n d).bit (Reg.LS_POS h) 31 = true := by
  unfold lsAdvance
  dsimp only
  split
  · exact bit_lsEnd h _
  · exact hd

/-! ### The slots of a line (R160, R175) -/

/-- The engine with the slots of a verb charged to its line. -/
def LsSt.charged (cost : Nat) (e : LsSt) : LsSt :=
  { e with
    slots := e.slots + cost, peak := max e.peak (e.slots + cost), peakLine := if e.peak < e.slots + cost then e.line else e.peakLine }

theorem ls_lsCharge (h cost : Nat) (d : Dev) : (lsCharge h cost d).ls h = (d.ls h).charged cost := Dev.ls_updLs_same d h _

theorem scriptOnly_lsCharge {p : Nat → Prop} (h cost : Nat) (d : Dev) : ScriptOnly p d (lsCharge h cost d) := within_updLs h _ d

theorem rd_lsCharge (h cost : Nat) (d : Dev) (o : Nat) : (lsCharge h cost d).rd o = d.rd o := Dev.updLs_rd d h _ o

theorem lsCarry_within {h cost : Nat} {d : Dev} (hc : (d.ls h).slots + cost ≤ 96) : lsCarry h cost d = d := if_neg (by omega)

/-- A line without room for a verb is flagged and counted, and the script goes on at the start of the next (R175). -/
def carried (h : Nat) (d : Dev) : Dev :=
  lsPos h (((d.setBit (Reg.LS_FLAGS h) 0).bump (Reg.LS_OVER_LINES h)).updLs h (fun e => { e with line := e.line + 1, pixel := 0, slots := 0 }))

theorem lsCarry_over {h cost : Nat} {d : Dev} (hc : 96 < (d.ls h).slots + cost) : lsCarry h cost d = carried h d := if_pos hc

@[simp] theorem ls_carried (h : Nat) (d : Dev) : (carried h d).ls h = { d.ls h with line := (d.ls h).line + 1, pixel := 0, slots := 0 } := by
  rw [carried, ls_lsPos, Dev.ls_updLs_same, Dev.ls_bump, Dev.ls_setBit]

theorem scriptOnly_carried (h : Nat) (d : Dev) : ScriptOnly (fun _ => True) d (carried h d) := by
  unfold carried
  refine .trans ?_ (scriptOnly_lsPos trivial _)
  refine .trans ?_ (within_updLs h _ _)
  exact (within_setBit trivial 0 d).trans (within_bump trivial _)

/-- The die once a line is carried over: LS_FLAGS and LS_OVER_LINES. -/
theorem carried_notes (h : Nat) (d : Dev) : (carried h d).bit (Reg.LS_FLAGS h) 0 = true ∧
    ((carried h d).rd (Reg.LS_OVER_LINES h)).toNat = min ((d.rd (Reg.LS_OVER_LINES h)).toNat + 1) 0xFFFFFFFF := by
  have hflags : Reg.LS_FLAGS h ≠ Reg.LS_OVER_LINES h := by unfold Reg.LS_FLAGS Reg.LS_OVER_LINES; omega
  have hrd (o : Nat) (ho : o ≠ Reg.LS_POS h) : (carried h d).rd o = ((d.setBit (Reg.LS_FLAGS h) 0).bump (Reg.LS_OVER_LINES h)).rd o := by
    rw [carried, (regsOnly_lsPos (p := (· = Reg.LS_POS h)) (by rfl) _).2 o ho, Dev.updLs_rd]
  constructor
  · rw [Dev.bit_congr (hrd _ (by unfold Reg.LS_FLAGS Reg.LS_POS; omega)),
      Dev.bit_congr ((regsOnly_bump (p := (· = Reg.LS_OVER_LINES h)) (by rfl) _).2 _ hflags), Dev.bit_setBit_same _ _ (by decide)]
  · rw [hrd _ (by unfold Reg.LS_OVER_LINES Reg.LS_POS; omega), Dev.toNat_rd_bump, Dev.rd_setBit_ne _ _ hflags.symm]

/-! ### When a verb may run (R160) -/

theorem lsGate_congr {d e : Dev} {h : Nat} (hactive : (e.ls h).active = (d.ls h).active) (hended : (e.ls h).ended = (d.ls h).ended)
    (hframe : (e.ls h).frame = (d.ls h).frame) (hhead : e.head h = d.head h) (n : Nat) : lsGate e h n = lsGate d h n := by
  simp only [lsGate, hactive, hended, hframe, hhead]

theorem lsGate_carried (h : Nat) (d : Dev) (n : Nat) : lsGate (carried h d) h n = lsGate d h n := by
  refine lsGate_congr ?_ ?_ ?_ ((scriptOnly_carried h d).head h) n <;> rw [ls_carried]

/-- The verb that comes next may run on its line, and the script has not ended. -/
theorem runs_of_nextVerb {d : Dev} {h op : Nat} (hv : nextVerb d h = some op) : lsGate d h (d.ls h).line = true ∧ (d.ls h).ended = false := by
  unfold nextVerb at hv
  dsimp only at hv
  split at hv
  next hc =>
    obtain ⟨hgate, -⟩ := Bool.and_eq_true_iff.1 hc
    refine ⟨hgate, ?_⟩
    simp only [lsGate, Bool.and_eq_true, Bool.not_eq_true'] at hgate
    exact hgate.1.2
  next => cases hv

/-! ### One verb (R168, R175) -/

section
variable {s : State} {h op words cost : Nat} {act : State → State}

/-- A verb whose encoding is faulty, or that would pass word 4095, is an error. -/
theorem verb_faulty {bad : Bool} (hv : nextVerb s.dev h = some op) (hf : bad = true ∨ 4096 < (s.dev.ls h).pc + words) :
    verb h op words cost bad act s = s.upd (verbError h) := by
  have hc : (bad || decide ((s.dev.ls h).pc + words > 4096)) = true := by simpa using hf
  unfold verb
  dsimp only
  rw [if_neg (not_not.2 hv), if_pos hc]

/-- A verb that is no error runs, on its line or on the next, when the engine may execute verbs there. -/
theorem verb_carry (hv : nextVerb s.dev h = some op) (hpc : (s.dev.ls h).pc + words ≤ 4096) :
    verb h op words cost false act s =
      if lsGate (lsCarry h cost s.dev) h ((lsCarry h cost s.dev).ls h).line = true then
        (act { s with dev := lsCharge h cost (lsCarry h cost s.dev) }).upd (lsAdvance h words)
      else { s with dev := lsCarry h cost s.dev } := by
  unfold verb
  dsimp only
  rw [if_neg (not_not.2 hv), if_neg (by simp; omega)]
  generalize lsCarry h cost s.dev = c
  cases lsGate c h (c.ls h).line <;> rfl

/-- A verb that fits its line acts once its slots are charged. -/
theorem verb_runs (hv : VerbAt s h op words cost) :
    verb h op words cost false act s = (act { s with dev := lsCharge h cost s.dev }).upd (lsAdvance h words) := by
  obtain ⟨hnext, hpc, hslots⟩ := hv
  rw [verb_carry hnext hpc, lsCarry_within hslots, if_pos (runs_of_nextVerb hnext).1]

/-- A verb that its line has no slots for goes on to the next line, and acts there when the engine may execute it. -/
theorem verb_carried (hv : nextVerb s.dev h = some op) (hpc : (s.dev.ls h).pc + words ≤ 4096) (hc : 96 < (s.dev.ls h).slots + cost) :
    verb h op words cost false act s = if lsGate s.dev h ((s.dev.ls h).line + 1) = true then
        (act { s with dev := lsCharge h cost (carried h s.dev) }).upd (lsAdvance h words)
      else { s with dev := carried h s.dev } := by
  rw [verb_carry hv hpc, lsCarry_over hc, lsGate_carried, ls_carried]

end

/-- The engine stands at the same place, as after a change of its loop, its signals or its staged writes. -/
def SamePlace (e e' : LsSt) : Prop := e'.pc = e.pc ∧ e'.ended = e.ended ∧ e'.slots = e.slots ∧ e'.line = e.line ∧ e'.pixel = e.pixel

theorem SamePlace.refl (e : LsSt) : SamePlace e e := ⟨rfl, rfl, rfl, rfl, rfl⟩

theorem SamePlace.of_eq {e e' : LsSt} (h : e' = e) : SamePlace e e' := h ▸ .refl e

/-- After a verb that fits its line and leaves the engine's place, the script goes on behind it. -/
theorem verbDone_of_samePlace {s t : State} {h op words cost : Nat} {e : Dev} (hv : VerbAt s h op words cost)
    (hplace : SamePlace ((lsCharge h cost s.dev).ls h) (e.ls h)) (ht : t.dev.ls h = (lsAdvance h words e).ls h) : VerbDone s t h words cost := by
  obtain ⟨hpc, hended, hslots, hline, hpixel⟩ := hplace
  simp only [ls_lsCharge, LsSt.charged] at hpc hended hslots hline hpixel
  have hrun : (s.dev.ls h).ended = false := (runs_of_nextVerb hv.1).2
  unfold VerbDone
  rw [ht, ls_lsAdvance]
  simp only [LsSt.advanced, hpc, hended, hslots, hline, hpixel, hrun, Bool.false_or, and_self]

theorem scriptOnly_verb {p : Nat → Prop} {h cost : Nat} (hp : p (Reg.LS_POS h)) (words : Nat) {d e : Dev} (he : ScriptOnly p (lsCharge h cost d) e) :
    ScriptOnly p d (lsAdvance h words e) :=
  ((scriptOnly_lsCharge h cost d).trans he).trans (scriptOnly_lsAdvance hp words e)

/-- What a verb leaves that changes registers of p and keeps the engine's place. -/
theorem inPlace_verb {s : State} {h op words cost : Nat} {p : Nat → Prop} {act : Dev → Dev} (hv : VerbAt s h op words cost) (hpos : p (Reg.LS_POS h))
    (hplace : ∀ d, SamePlace (d.ls h) ((act d).ls h)) (hact : ∀ d, ScriptOnly p d (act d)) {e : Dev}
    (he : e = lsAdvance h words (act (lsCharge h cost s.dev))) : VerbDone s { s with dev := e } h words cost ∧ Leaves scriptPart p s { s with dev := e } := by
  have hwithin := scriptOnly_verb hpos words (hact (lsCharge h cost s.dev))
  rw [← he] at hwithin
  exact ⟨verbDone_of_samePlace hv (hplace _) (congrArg (fun x : Dev => x.ls h) he), hwithin.leaves⟩

theorem stageOnly_verb {p : Nat → Prop} {h cost : Nat} (hp : p (Reg.LS_POS h)) (words : Nat) {d e : Dev} (he : StageOnly p (lsCharge h cost d) e) :
    StageOnly p d (lsAdvance h words e) :=
  ((scriptOnly_lsCharge h cost d).stageOnly.trans he).trans (scriptOnly_lsAdvance hp words e).stageOnly

end Sys2Proof.Machine

/-! PROOFS. The verbs that steer a script, and bank requests (O18). -/
namespace Sys2Proof.Machine

-- One proof after another: proofs that wait for the kernel at once would take more threads than the check's memory holds.
set_option Elab.async false

theorem exec_lsEnd (h : Fin 8) (b : Bool) (s : State) : exec (.lsEnd h b) s = .next (lsVerbEnd h b s) := rfl
theorem exec_lsSignalReached (h : Fin 8) (s : State) : exec (.lsSignalReached h) s = .next (s.upd (signalReached h)) := rfl
theorem exec_lsBankReq (h : Fin 8) (v : Word) (s : State) : exec (.lsBankReq h v) s = .next (s.upd (bankReqWrite h v)) := rfl

/-! ### A verb that acts on the die alone -/

section
variable {s : State} {i : Instr} {h op words cost : Nat} {bad : Bool} {act : Dev → Dev} {p : Nat → Prop}

/-- What a verb gives that is no error and fits its line: what holds of the die after its act. -/
theorem gives_verb {P : State → Prop} (he : exec i s = .next (verb h op words cost bad (fun s => s.upd act) s)) (hbad : bad = false)
    (hv : VerbAt s h op words cost) (hP : ∀ e, e = lsAdvance h words (act (lsCharge h cost s.dev)) → P { s with dev := e }) : Gives i s P := by
  subst hbad
  exact ⟨_, he.trans (congrArg Host.Outcome.next (verb_runs hv)), hP _ rfl⟩

/-- The same for a verb that leaves the engine's place: the script goes on behind it. -/
theorem gives_verb_inPlace {P : State → Prop} (he : exec i s = .next (verb h op words cost bad (fun s => s.upd act) s)) (hbad : bad = false)
    (hv : VerbAt s h op words cost) (hpos : p (Reg.LS_POS h)) (hplace : ∀ d, SamePlace (d.ls h) ((act d).ls h)) (hact : ∀ d, ScriptOnly p d (act d))
    (hP : ∀ t, VerbDone s t h words cost → Leaves scriptPart p s t → t.dev = lsAdvance h words (act (lsCharge h cost s.dev)) → P t) :
    Gives i s P := by
  refine gives_verb he hbad hv fun e hdev => ?_
  obtain ⟨hdone, hleaves⟩ := inPlace_verb hv hpos hplace hact hdev
  exact hP _ hdone hleaves hdev

/-- A verb with a faulty encoding, or that would pass word 4095, is an error (R168). -/
theorem gives_verb_faulty {act : State → State} (he : exec i s = .next (verb h op words cost bad act s)) (hv : nextVerb s.dev h = some op)
    (hf : bad = true ∨ 4096 < (s.dev.ls h).pc + words) : Gives i s (VerbError h s) :=
  gives_verbError (he.trans (congrArg Host.Outcome.next (verb_faulty hv hf)))

end

section
variable {s : State} {h : Fin 8}

/-! ### END, uncorrectable words and opcodes without a verb (R159, R168, R176) -/

theorem exec_lsEnd_poisoned {op : Nat} (hv : nextVerb s.dev h = some op) : exec (.lsEnd h true) s =
    .next (verb h op 1 1 false (fun s => s.upd (fun d => lsEnd h (d.setBit (Reg.LS_FLAGS h) 5))) s) := by
  simp [exec_lsEnd, lsVerbEnd, hv]

theorem exec_lsEnd_zero (hv : nextVerb s.dev h = some 0) : exec (.lsEnd h false) s =
    .next (verb h 0 1 1 (fld (verbWord s.dev h 0) 27 0 ≠ 0) (fun s => s.upd (lsEnd h)) s) := by
  simp [exec_lsEnd, lsVerbEnd, hv]

theorem exec_lsEnd_without_verb {op : Nat} (hv : nextVerb s.dev h = some op) (hop : 10 ≤ op) :
    exec (.lsEnd h false) s = .next (s.upd (verbError h)) := by
  simp [exec_lsEnd, lsVerbEnd, hv, hop]

theorem gives_lsEnd (hv : VerbAt s h 0 1 1) (hw : fld (verbWord s.dev h 0) 27 0 = 0) :
    Gives (.lsEnd h false) s (fun t => (t.dev.ls h).ended = true ∧ t.dev.bit (Reg.LS_POS h) 31 = true ∧
      Leaves (fun d e => { d with regs := e.regs, scripts := e.scripts }) (· = Reg.LS_POS h) s t) := by
  have hbad : decide (fld (verbWord s.dev h 0) 27 0 ≠ 0) = false := by simp [hw]
  refine gives_verb (exec_lsEnd_zero hv.1) hbad hv fun e he => ?_
  have hended : (e.ls h).ended = true := by rw [he, ls_lsAdvance, ls_lsEnd]; rfl
  have hpos : e.bit (Reg.LS_POS h) 31 = true := he ▸ bit_lsAdvance 1 (bit_lsEnd h _)
  have hwithin : ScriptOnly (· = Reg.LS_POS h) s.dev e := he ▸ scriptOnly_verb (by rfl) 1 (scriptOnly_lsEnd (by rfl) _)
  exact ⟨hended, hpos, hwithin.leaves⟩

theorem gives_lsEnd_poisoned {op : Nat} (hv : VerbAt s h op 1 1) :
    Gives (.lsEnd h true) s (fun t => (t.dev.ls h).ended = true ∧ t.dev.bit (Reg.LS_FLAGS h) 5 = true ∧
      Leaves (fun d e => { d with regs := e.regs, scripts := e.scripts }) (fun o => o = Reg.LS_POS h ∨ o = Reg.LS_FLAGS h) s t) := by
  refine gives_verb (exec_lsEnd_poisoned hv.1) rfl hv fun e he => ?_
  have hended : (e.ls h).ended = true := by rw [he, ls_lsAdvance, ls_lsEnd]; rfl
  have hwithin : ScriptOnly (fun o => o = Reg.LS_POS h ∨ o = Reg.LS_FLAGS h) s.dev e :=
    he ▸ scriptOnly_verb (.inl rfl) 1 ((within_setBit (.inr rfl) 5 _).trans (scriptOnly_lsEnd (.inl rfl) _))
  have hflag := Dev.bit_setBit_same (lsCharge h 1 s.dev) (Reg.LS_FLAGS h) (n := 5) (by decide)
  generalize (lsCharge h 1 s.dev).setBit (Reg.LS_FLAGS h) 5 = d at he hflag
  have hend := (scriptOnly_lsEnd (p := (· = Reg.LS_POS h)) (by rfl) d).2 (Reg.LS_FLAGS h) (by unfold Reg.LS_FLAGS Reg.LS_POS; omega)
  exact ⟨hended, he ▸ (bit_flags_lsAdvance h 1 _ 5).trans ((Dev.bit_congr hend 5).trans hflag), hwithin.leaves⟩

/-! ### WAIT (R169) -/

/-- What a WAIT of the word w does in mode m once it is charged. -/
def waitStep (h : Nat) (m : Mode) (w : Word) (d : Dev) : Dev :=
  let e := d.ls h
  let n := if bitOf w 27 then e.line + fld w 26 14 else fld w 26 14
  let x := fld w 13 0
  if n < e.line || (n = e.line && x < e.pixel) then d.setBit (Reg.LS_FLAGS h) 3
  else
    let d := d.updLs h (fun e => { e with line := n, pixel := x, slots := if n = e.line then e.slots else 0 })
    if n ≥ m.vAct then lsEnd h d else lsPos h d

theorem exec_lsWait (h : Fin 8) (s : State) : exec (.lsWait h) s =
    .next (verb h 1 1 1 (fld (verbWord s.dev h 0) 13 0 ≥ (modeOf s.dev h).hTot) (fun t => t.upd (waitStep h (modeOf s.dev h) (verbWord s.dev h 0))) s) := rfl

/-- The line that a WAIT of word w names, from line l (R169). -/
def waitLine (w : Word) (l : Nat) : Nat := fld w 26 14 + if bitOf w 27 = true then l else 0

/-- The place (n, x) lies behind the engine's. -/
abbrev Behind (e : LsSt) (n x : Nat) : Prop := n < e.line ∨ (n = e.line ∧ x < e.pixel)

theorem waitStep_eq (h : Nat) (m : Mode) (w : Word) (d : Dev) : waitStep h m w d =
    if Behind (d.ls h) (waitLine w (d.ls h).line) (fld w 13 0) then d.setBit (Reg.LS_FLAGS h) 3
    else if m.vAct ≤ waitLine w (d.ls h).line then
      lsEnd h (d.updLs h (fun e => { e with
        line := waitLine w (d.ls h).line, pixel := fld w 13 0, slots := if waitLine w (d.ls h).line = e.line then e.slots else 0 }))
    else
      lsPos h (d.updLs h (fun e => { e with
        line := waitLine w (d.ls h).line, pixel := fld w 13 0, slots := if waitLine w (d.ls h).line = e.line then e.slots else 0 })) := by
  have hline : waitLine w (d.ls h).line = if bitOf w 27 = true then (d.ls h).line + fld w 26 14 else fld w 26 14 := by
    unfold waitLine
    split <;> omega
  rw [hline]
  simp only [waitStep, Behind, Bool.or_eq_true, Bool.and_eq_true, decide_eq_true_eq, ge_iff_le]

theorem waitStep_behind {h : Nat} (m : Mode) {w : Word} {d : Dev} (hb : Behind (d.ls h) (waitLine w (d.ls h).line) (fld w 13 0)) :
    waitStep h m w d = d.setBit (Reg.LS_FLAGS h) 3 := by
  rw [waitStep_eq, if_pos hb]

/-- A WAIT forward moves the place, and ends the script from the first line past the active ones on. -/
theorem ls_waitStep_ahead {h : Nat} (m : Mode) {w : Word} {d : Dev} (hb : ¬ Behind (d.ls h) (waitLine w (d.ls h).line) (fld w 13 0)) :
    (waitStep h m w d).ls h = { d.ls h with
      line := waitLine w (d.ls h).line, pixel := fld w 13 0, slots := if waitLine w (d.ls h).line = (d.ls h).line then (d.ls h).slots else 0
      ended := (d.ls h).ended || decide (m.vAct ≤ waitLine w (d.ls h).line) } := by
  rw [waitStep_eq, if_neg hb]
  by_cases hact : m.vAct ≤ waitLine w (d.ls h).line
  · rw [if_pos hact, ls_lsEnd, Dev.ls_updLs_same, decide_eq_true hact, Bool.or_true]
  · rw [if_neg hact, ls_lsPos, Dev.ls_updLs_same, decide_eq_false hact, Bool.or_false]

theorem scriptOnly_waitStep (h : Nat) (m : Mode) (w : Word) (d : Dev) :
    ScriptOnly (fun o => o = Reg.LS_POS h ∨ o = Reg.LS_FLAGS h) d (waitStep h m w d) := by
  rw [waitStep_eq]
  refine .ite (fun _ => within_setBit (.inr rfl) 3 d) fun _ => .ite (fun _ => ?_) fun _ => ?_
  · exact (within_updLs h _ d).trans (scriptOnly_lsEnd (.inl rfl) _)
  · exact (within_updLs h _ d).trans (scriptOnly_lsPos (.inl rfl) _)

theorem gives_lsWait {n x : Nat} (hv : VerbAt s h 1 1 1) (hx : x = fld (verbWord s.dev h 0) 13 0) (htot : x < (modeOf s.dev h).hTot)
    (hn : n = fld (verbWord s.dev h 0) 26 14 + (if bitOf (verbWord s.dev h 0) 27 = true then (s.dev.ls h).line else 0)) :
    Gives (.lsWait h) s (fun t => (t.dev.ls h).pc = (s.dev.ls h).pc + 1 ∧
      (if n < (s.dev.ls h).line ∨ (n = (s.dev.ls h).line ∧ x < (s.dev.ls h).pixel) then
        t.dev.bit (Reg.LS_FLAGS h) 3 = true ∧ (t.dev.ls h).line = (s.dev.ls h).line ∧ (t.dev.ls h).pixel = (s.dev.ls h).pixel
      else (t.dev.ls h).line = n ∧ (t.dev.ls h).pixel = x ∧ (t.dev.ls h).slots = (if n = (s.dev.ls h).line then (s.dev.ls h).slots + 1 else 0) ∧
        (t.dev.ls h).ended = (decide ((modeOf s.dev h).vAct ≤ n) || decide (4096 ≤ (s.dev.ls h).pc + 1))) ∧
      Leaves (fun d e => { d with regs := e.regs, scripts := e.scripts }) (fun o => o = Reg.LS_POS h ∨ o = Reg.LS_FLAGS h) s t) := by
  have hbad : decide (fld (verbWord s.dev h 0) 13 0 ≥ (modeOf s.dev h).hTot) = false := decide_eq_false (by omega)
  refine gives_verb (exec_lsWait h s) hbad hv fun e he => ?_
  have hrun := (runs_of_nextVerb hv.1).2
  have hwithin : ScriptOnly (fun o => o = Reg.LS_POS h ∨ o = Reg.LS_FLAGS h) s.dev e :=
    he ▸ scriptOnly_verb (.inl rfl) 1 (scriptOnly_waitStep h _ _ _)
  have hcharge := ls_lsCharge h 1 s.dev
  have hbehind : Behind ((lsCharge h 1 s.dev).ls h) (waitLine (verbWord s.dev h 0) ((lsCharge h 1 s.dev).ls h).line) (fld (verbWord s.dev h 0) 13 0) ↔
      Behind (s.dev.ls h) n x := by
    rw [hcharge, hx, hn]
    rfl
  have hline : waitLine (verbWord s.dev h 0) ((lsCharge h 1 s.dev).ls h).line = n := by
    rw [hcharge, hn]
    rfl
  split
  next hb =>
    have hstep := waitStep_behind (modeOf s.dev h) (hbehind.2 hb)
    have hflag := Dev.bit_setBit_same (lsCharge h 1 s.dev) (Reg.LS_FLAGS h) (n := 3) (by decide)
    rw [hstep] at he
    have hls : e.ls h = _ := he ▸ ls_lsAdvance h 1 _
    rw [Dev.ls_setBit, hcharge] at hls
    exact ⟨by rw [hls]; rfl, ⟨he ▸ (bit_flags_lsAdvance h 1 _ 3).trans hflag, by rw [hls]; rfl, by rw [hls]; rfl⟩, hwithin.leaves⟩
  next hb =>
    have hls : e.ls h = _ := he ▸ ls_lsAdvance h 1 _
    rw [ls_waitStep_ahead (modeOf s.dev h) (mt hbehind.1 hb), hline, hcharge] at hls
    refine ⟨by rw [hls]; rfl, ⟨by rw [hls]; rfl, by rw [hls, hx]; rfl, by rw [hls]; rfl, ?_⟩, hwithin.leaves⟩
    rw [hls]
    simp only [LsSt.advanced, LsSt.charged, hrun, Bool.false_or]

/-! ### REP and NEXT (R172) -/

theorem exec_lsRep (h : Fin 8) (s : State) : exec (.lsRep h) s =
    .next (verb h 6 1 1 (fld (verbWord s.dev h 0) 27 12 ≠ 0 || fld (verbWord s.dev h 0) 11 0 = 0 || (s.dev.ls h).loop.isSome)
      (fun t => t.upd (fun d => d.updLs h (fun e => { e with loop := some (e.pc + 1, fld (verbWord s.dev h 0) 11 0, 0) }))) s) := rfl

theorem gives_lsRep (hv : VerbAt s h 6 1 1) (hw : fld (verbWord s.dev h 0) 27 12 = 0) (hn : fld (verbWord s.dev h 0) 11 0 ≠ 0)
    (hloop : (s.dev.ls h).loop = none) :
    Gives (.lsRep h) s (fun t => VerbDone s t h 1 1 ∧ (t.dev.ls h).loop = some ((s.dev.ls h).pc + 1, fld (verbWord s.dev h 0) 11 0, 0) ∧
      Leaves (fun d e => { d with regs := e.regs, scripts := e.scripts }) (· = Reg.LS_POS h) s t) := by
  have hbad : (fld (verbWord s.dev h 0) 27 12 ≠ 0 || fld (verbWord s.dev h 0) 11 0 = 0 || (s.dev.ls h).loop.isSome : Bool) = false := by
    simp [hw, hn, hloop]
  refine gives_verb_inPlace (exec_lsRep h s) hbad hv (by rfl) (fun d => ?_) (fun d => within_updLs h _ d)
    fun t hdone hleaves hdev => ⟨hdone, ?_, hleaves⟩
  · rw [Dev.ls_updLs_same]
    exact ⟨rfl, rfl, rfl, rfl, rfl⟩
  · rw [hdev, ls_lsAdvance, Dev.ls_updLs_same, ls_lsCharge]
    rfl

/-- A pass of the loop ends: back to the word of REP while passes remain, unless NEXT is word 4095, or the end of the loop. -/
def loopTurned (atEnd : Bool) (e : LsSt) : LsSt :=
  match e.loop with
  | some (start, left, done') => if left > 1 && !atEnd then { e with pc := start - 1, loop := some (start, left - 1, done' + 1) } else { e with loop := none }
  | none => e

theorem exec_lsNext (h : Fin 8) (s : State) : exec (.lsNext h) s =
    .next (verb h 7 1 1 (fld (verbWord s.dev h 0) 27 0 ≠ 0 || (s.dev.ls h).loop.isNone)
      (fun t => t.upd (fun d => d.updLs h (loopTurned (decide ((s.dev.ls h).pc = 4095))))) s) := rfl

theorem loopTurned_of_loop {e : LsSt} {start left n : Nat} (hloop : e.loop = some (start, left, n)) (atEnd : Bool) : loopTurned atEnd e =
    if 1 < left ∧ atEnd = false then { e with pc := start - 1, loop := some (start, left - 1, n + 1) } else { e with loop := none } := by
  simp only [loopTurned, hloop, gt_iff_lt, Bool.and_eq_true, decide_eq_true_eq, Bool.not_eq_true']

theorem gives_lsNext {start left n : Nat} (hv : VerbAt s h 7 1 1) (hw : fld (verbWord s.dev h 0) 27 0 = 0)
    (hloop : (s.dev.ls h).loop = some (start, left, n)) (hstart : 1 ≤ start) (hpc : start ≤ (s.dev.ls h).pc) :
    Gives (.lsNext h) s (fun t => (if 1 < left ∧ (s.dev.ls h).pc < 4095 then (t.dev.ls h).pc = start ∧ (t.dev.ls h).loop = some (start, left - 1, n + 1)
      else (t.dev.ls h).pc = (s.dev.ls h).pc + 1 ∧ (t.dev.ls h).loop = none) ∧ (t.dev.ls h).ended = decide ((s.dev.ls h).pc = 4095) ∧
      Leaves (fun d e => { d with regs := e.regs, scripts := e.scripts }) (· = Reg.LS_POS h) s t) := by
  have hbad : (fld (verbWord s.dev h 0) 27 0 ≠ 0 || (s.dev.ls h).loop.isNone : Bool) = false := by simp [hw, hloop]
  refine gives_verb (exec_lsNext h s) hbad hv fun e he => ?_
  have hrun := (runs_of_nextVerb hv.1).2
  have hlast : (s.dev.ls h).pc ≤ 4095 := by have := hv.2.1; omega
  have hwithin : ScriptOnly (· = Reg.LS_POS h) s.dev e := he ▸ scriptOnly_verb (by rfl) 1 (within_updLs h _ _)
  have hls : e.ls h = _ := he ▸ ls_lsAdvance h 1 _
  rw [Dev.ls_updLs_same, ls_lsCharge, loopTurned_of_loop (e := (s.dev.ls h).charged 1) hloop] at hls
  refine and_assoc.1 ⟨?_, hwithin.leaves⟩
  rw [hls]
  by_cases hturn : 1 < left ∧ (s.dev.ls h).pc < 4095
  · have hpass : 1 < left ∧ decide ((s.dev.ls h).pc = 4095) = false := ⟨hturn.1, decide_eq_false (by omega)⟩
    rw [if_pos hturn, if_pos hpass]
    refine ⟨⟨Nat.sub_add_cancel hstart, rfl⟩, ?_⟩
    simp only [LsSt.advanced, LsSt.charged, hrun, Bool.false_or, decide_eq_decide]
    omega
  · have hover : ¬ (1 < left ∧ decide ((s.dev.ls h).pc = 4095) = false) := by simp only [decide_eq_false_iff_not]; omega
    rw [if_neg hturn, if_neg hover]
    refine ⟨⟨rfl, rfl⟩, ?_⟩
    simp only [LsSt.advanced, LsSt.charged, hrun, Bool.false_or, decide_eq_decide]
    omega

/-! ### BANK and LS_BANK_REQ (R177) -/

/-- A bank request: PENDING and the bank asked for; the bank in use stays. -/
theorem bankRequest_notes (h bank : Nat) (d : Dev) : (bankRequest h bank d).bit (Reg.LS_BANK h) 1 = true ∧
    (bankRequest h bank d).fld (Reg.LS_BANK h) 2 2 = bank % 2 ∧ (bankRequest h bank d).fld (Reg.LS_BANK h) 0 0 = d.fld (Reg.LS_BANK h) 0 0 := by
  have htest (b : Nat) : (1 + 2 * (bank % 2)).testBit (b + 1) = (bank % 2).testBit b := by
    rw [Nat.testBit_succ, show (1 + 2 * (bank % 2)) / 2 = bank % 2 by omega]
  have hrd : (bankRequest h bank d).rd (Reg.LS_BANK h) = putFld (d.rd (Reg.LS_BANK h)) 2 1 (1 + 2 * (bank % 2)) := Dev.rd_wr_same ..
  rw [Dev.bit, Dev.fld, Dev.fld, hrd]
  refine ⟨?_, Nat.eq_of_testBit_eq fun i => ?_, fld_putFld_disjoint (by decide) (by decide) _ _ (.inr (by decide))⟩
  · rw [bitOf_putFld (by decide) _ _ _ (by decide)]
    simp
  · rw [testBit_fld]
    by_cases hi : i = 0
    · subst hi
      rw [bitOf_putFld (by decide) _ _ _ (by decide)]
      simp [htest 0]
    · rw [decide_eq_false (by omega), Bool.false_and, Nat.testBit_eq_false_of_lt]
      exact (Nat.mod_lt bank (by decide)).trans_le (by rw [← pow_one 2]; exact Nat.pow_le_pow_right (by decide) (by omega))

theorem ls_bankRequest (h bank : Nat) (d : Dev) : (bankRequest h bank d).ls h = d.ls h := by rw [bankRequest, Dev.ls_wr]

theorem regsOnly_bankRequest {p : Nat → Prop} {h : Nat} (hp : p (Reg.LS_BANK h)) (bank : Nat) (d : Dev) : RegsOnly p d (bankRequest h bank d) :=
  regsOnly_wr hp _ d

theorem exec_lsBank (h : Fin 8) (s : State) : exec (.lsBank h) s =
    .next (verb h 8 1 1 (fld (verbWord s.dev h 0) 27 1 ≠ 0) (fun t => t.upd (bankRequest h (fld (verbWord s.dev h 0) 0 0))) s) := rfl

theorem bitField_mod_two (w : Word) (n : Nat) : fld w n n % 2 = fld w n n := Nat.mod_eq_of_lt (by have := fld_lt w n n; simpa using this)

theorem gives_lsBank (hv : VerbAt s h 8 1 1) (hw : fld (verbWord s.dev h 0) 27 1 = 0) :
    Gives (.lsBank h) s (fun t => VerbDone s t h 1 1 ∧ t.dev.bit (Reg.LS_BANK h) 1 = true ∧
      t.dev.fld (Reg.LS_BANK h) 2 2 = fld (verbWord s.dev h 0) 0 0 ∧ t.dev.fld (Reg.LS_BANK h) 0 0 = s.dev.fld (Reg.LS_BANK h) 0 0 ∧
      Leaves (fun d e => { d with regs := e.regs, scripts := e.scripts }) (fun o => o = Reg.LS_BANK h ∨ o = Reg.LS_POS h) s t) := by
  have hbad : decide (fld (verbWord s.dev h 0) 27 1 ≠ 0) = false := by simp [hw]
  refine gives_verb_inPlace (p := fun o => o = Reg.LS_BANK h ∨ o = Reg.LS_POS h) (exec_lsBank h s) hbad hv (.inr rfl)
    (fun d => .of_eq (ls_bankRequest ..)) (fun d => (regsOnly_bankRequest (.inl rfl) _ d).within) fun t hdone hleaves hdev =>
    ⟨hdone, ?_⟩
  have hrd : t.dev.rd (Reg.LS_BANK h) = _ := hdev ▸ rd_lsAdvance (by unfold Reg.LS_BANK Reg.LS_POS; omega) 1 _
  obtain ⟨hpending, hbank, huse⟩ := bankRequest_notes h (fld (verbWord s.dev h 0) 0 0) (lsCharge h 1 s.dev)
  refine ⟨?_, ?_, ?_, hleaves⟩
  · rw [Dev.bit_congr hrd, hpending]
  · rw [Dev.fld_congr hrd, hbank, bitField_mod_two]
  · rw [Dev.fld_congr hrd, huse, Dev.fld_congr (rd_lsCharge ..)]

theorem gives_lsBankReq {v : Word} (hv : bitOf v 31 = true) :
    Gives (.lsBankReq h v) s (fun t => t.dev.bit (Reg.LS_BANK h) 1 = true ∧ t.dev.fld (Reg.LS_BANK h) 2 2 = fld v 0 0 ∧
      t.dev.fld (Reg.LS_BANK h) 0 0 = s.dev.fld (Reg.LS_BANK h) 0 0 ∧ t.dev.resp = .ok 0 ∧ OnlyRegs (· = Reg.LS_BANK h) s t) := by
  have hf : bankReqWrite h v s.dev = (bankRequest h (fld v 0 0) s.dev).okay := by rw [bankReqWrite, if_pos hv]
  obtain ⟨hpending, hbank, huse⟩ := bankRequest_notes h (fld v 0 0) s.dev
  rw [bitField_mod_two] at hbank
  have honly := regsOnly_bankRequest (p := (· = Reg.LS_BANK h)) (by rfl) (fld v 0 0) s.dev
  refine gives_of_upd (exec_lsBankReq h v s) hf ?_
  generalize bankRequest h (fld v 0 0) s.dev = e at hpending hbank huse honly
  exact ⟨(Dev.bit_okay ..).trans hpending, (Dev.fld_okay ..).trans hbank, (Dev.fld_okay ..).trans huse, rfl, honly.onlyRegs_okay⟩

theorem gives_lsBankReq_without_go {v : Word} (hv : bitOf v 31 = false) : Gives (.lsBankReq h v) s (fun t => t = s.upd Dev.okay) :=
  gives_of_upd (exec_lsBankReq h v s) (d := s.dev.okay) (by rw [bankReqWrite, hv]; rfl) rfl

/-! ### SIGNAL (R173) -/

theorem exec_lsSignal (h : Fin 8) (s : State) : exec (.lsSignal h) s =
    .next (verb h 9 1 1 (fld (verbWord s.dev h 0) 27 2 ≠ 0)
      (fun t => t.upd (fun d => d.updLs h (fun e => { e with signals := e.signals ++ [(e.frame, e.line, e.pixel, fld (verbWord s.dev h 0) 1 0)] }))) s) := rfl

theorem gives_lsSignal (hv : VerbAt s h 9 1 1) (hw : fld (verbWord s.dev h 0) 27 2 = 0) :
    Gives (.lsSignal h) s (fun t => VerbDone s t h 1 1 ∧ (t.dev.ls h).signals =
        (s.dev.ls h).signals ++ [((s.dev.ls h).frame, (s.dev.ls h).line, (s.dev.ls h).pixel, fld (verbWord s.dev h 0) 1 0)] ∧
      Leaves (fun d e => { d with regs := e.regs, scripts := e.scripts }) (· = Reg.LS_POS h) s t) := by
  have hbad : decide (fld (verbWord s.dev h 0) 27 2 ≠ 0) = false := by simp [hw]
  refine gives_verb_inPlace (exec_lsSignal h s) hbad hv (by rfl) (fun d => ?_) (fun d => within_updLs h _ d)
    fun t hdone hleaves hdev => ⟨hdone, ?_, hleaves⟩
  · rw [Dev.ls_updLs_same]
    exact ⟨rfl, rfl, rfl, rfl, rfl⟩
  · rw [hdev, ls_lsAdvance, Dev.ls_updLs_same, ls_lsCharge]
    rfl

/-- A signal whose placement the compositor of head h has reached (R173, R181). -/
def signalDue (d : Dev) (h : Nat) : Option (Nat × Nat × Nat × Nat) :=
  (d.ls h).signals.find? (fun g => g.1 < (d.head h).seq || (g.1 = (d.head h).seq && g.2.1 < (d.head h).next))

theorem signalReached_due {h : Nat} {d : Dev} {g : Nat × Nat × Nat × Nat} (hg : signalDue d h = some g) {e : Dev}
    (he : e = if g.1 = (d.head h).seq then d.passClk (pixClk d h (g.2.1 * (modeOf d h).hTot + g.2.2.1 - 16)) else d) :
    signalReached h d = fire (0x10 + 8 * h + 2 + g.2.2.2)
      ((e.updLs h (fun e => { e with signals := e.signals.erase g })).setBit (Reg.LS_FLAGS h) (8 + g.2.2.2)) := by
  subst he
  unfold signalReached
  unfold signalDue at hg
  dsimp only
  rw [hg]

theorem signalReached_none {h : Nat} {d : Dev} (hg : signalDue d h = none) : signalReached h d = d := by
  unfold signalReached
  unfold signalDue at hg
  dsimp only
  rw [hg]

end

/-- Settles O18: a verb that fits its line does what its own lemma says (`gives_lsEnd` to `gives_lsSignal`), one with a faulty encoding is an error by
`gives_verb_faulty`, and a signal is raised when its place is reached. -/
theorem controlVerbsPerform : Obligations.ControlVerbsPerform := by
  unfold Obligations.ControlVerbsPerform
  refine ⟨fun s h => gives_lsEnd, fun s h op hv => ⟨fun hop => ?_, fun hop hx => ?_, fun hop hw => ?_, fun hop hw => ?_,
      fun hop hw => ?_, fun hop hw => ?_⟩,
    fun s h op => gives_lsEnd_poisoned, fun s h n x hv hx htot hn => gives_lsWait hv hx htot hn, fun s h => gives_lsRep,
    fun s h start left n => gives_lsNext, fun s h => gives_lsBank, fun s h v => gives_lsBankReq, fun s h v => gives_lsBankReq_without_go,
    fun s h => gives_lsSignal, fun s h g d hg hd => ?_, fun s h hg => ?_⟩
  · obtain hop | ⟨rfl, hw⟩ := hop
    · exact gives_verbError (exec_lsEnd_without_verb hv hop)
    · exact gives_verb_faulty (exec_lsEnd_zero hv) hv (.inl (decide_eq_true hw))
  · exact gives_verb_faulty (exec_lsWait h s) (hop ▸ hv) (.inl (decide_eq_true hx))
  · exact gives_verb_faulty (exec_lsRep h s) (hop ▸ hv) (.inl (by simpa [Option.isSome_iff_ne_none, or_assoc] using hw))
  · exact gives_verb_faulty (exec_lsNext h s) (hop ▸ hv) (.inl (by simpa using hw))
  · exact gives_verb_faulty (exec_lsBank h s) (hop ▸ hv) (.inl (decide_eq_true hw))
  · exact gives_verb_faulty (exec_lsSignal h s) (hop ▸ hv) (.inl (decide_eq_true hw))
  · exact gives_of_upd (exec_lsSignalReached h s) (signalReached_due hg hd) ⟨rfl, rfl, rfl⟩
  · exact gives_of_upd (exec_lsSignalReached h s) (signalReached_none hg) rfl

end Sys2Proof.Machine

/-! PROOFS. The writes that a verb stages (O17). -/
namespace Sys2Proof.Machine

-- One proof after another: proofs that wait for the kernel at once would take more threads than the check's memory holds.
set_option Elab.async false

/-! ### Where a staged write takes effect (R164) -/

theorem modeOf_congr {d e : Dev} {h : Nat} (hr : e.rd (Reg.HEAD_STATUS h) = d.rd (Reg.HEAD_STATUS h)) : modeOf e h = modeOf d h := by
  simp only [modeOf, Dev.fld_congr hr, Dev.bit_congr hr]

/-- The engine's place and frame, and the mode of its head, are the same. -/
def SameSpot (h : Nat) (d e : Dev) : Prop := SamePlace (d.ls h) (e.ls h) ∧ (e.ls h).frame = (d.ls h).frame ∧ modeOf e h = modeOf d h

theorem SameSpot.refl (h : Nat) (d : Dev) : SameSpot h d d := ⟨.refl _, rfl, rfl⟩

theorem SameSpot.trans {h : Nat} {d e x : Dev} (hde : SameSpot h d e) (hex : SameSpot h e x) : SameSpot h d x := by
  obtain ⟨⟨hpc, hended, hslots, hline, hpixel⟩, hframe, hmode⟩ := hde
  obtain ⟨⟨kpc, kended, kslots, kline, kpixel⟩, kframe, kmode⟩ := hex
  exact ⟨⟨kpc.trans hpc, kended.trans hended, kslots.trans hslots, kline.trans hline, kpixel.trans hpixel⟩, kframe.trans hframe, kmode.trans hmode⟩

theorem placeAt_congr {d e : Dev} {h : Nat} (hframe : (e.ls h).frame = (d.ls h).frame) (hline : (e.ls h).line = (d.ls h).line)
    (hpixel : (e.ls h).pixel = (d.ls h).pixel) (hmode : modeOf e h = modeOf d h) (exact' : Bool) : placeAt e h exact' = placeAt d h exact' := by
  simp only [placeAt, hframe, hline, hpixel, hmode]

/-- The staged write of value v to offset o: it takes effect where R164 places it. -/
def stagedWrite (d : Dev) (h space o : Nat) (op : StageOp) (v : Word) : Staged :=
  let w := placeAt d h (space = 1 && pixelExact o)
  { frame := w.1, line := w.2.1, pixel := w.2.2, off := o, op := op, v := v }

theorem stagedAt_eq (d : Dev) (h space o : Nat) (op : StageOp) (vs : List Word) :
    stagedAt d h space o op vs = vs.zipIdx.map (fun v => stagedWrite d h space (o + 4 * v.2) op v.1) := rfl

theorem SameSpot.stagedWrite {h : Nat} {d e : Dev} (hs : SameSpot h d e) (space o : Nat) (op : StageOp) (v : Word) :
    stagedWrite e h space o op v = stagedWrite d h space o op v := by
  obtain ⟨⟨-, -, -, hline, hpixel⟩, hframe, hmode⟩ := hs
  simp only [Machine.stagedWrite, placeAt_congr hframe hline hpixel hmode]

/-! ### One staged write (R164) -/

/-- A staged write joins those of its space. -/
def addStaged (h space f p : Nat) (w : Staged) (d : Dev) : Dev :=
  match space with
  | 0 => d.updCell f p (fun c => { c with staged := c.staged ++ [w] })
  | 1 => d.updLs h (fun e => { e with comp := e.comp ++ [w] })
  | _ => d.updLs h (fun e => { e with mat := e.mat ++ [w] })

theorem stageOne_eq (h space f p o : Nat) (op : StageOp) (v : Word) (d : Dev) :
    stageOne h space f p o op v d = addStaged h space f p (stagedWrite d h space o op v) d := rfl

theorem stagedIn_addStaged (h space f p : Nat) (w : Staged) (d : Dev) :
    stagedIn (addStaged h space f p w d) h space f p = stagedIn d h space f p ++ [w] := by
  match space with
  | 0 => exact congrArg CellSt.staged (Dev.cell_updCell_same d f p _)
  | 1 => exact congrArg LsSt.comp (Dev.ls_updLs_same d h _)
  | n + 2 => exact congrArg LsSt.mat (Dev.ls_updLs_same d h _)

theorem stageOnly_addStaged {q : Nat → Prop} (h space f p : Nat) (w : Staged) (d : Dev) : StageOnly q d (addStaged h space f p w d) := by
  match space with
  | 0 => exact within_updCell (g := stagePart) f p _ d
  | 1 => exact within_updLs (g := stagePart) h _ d
  | n + 2 => exact within_updLs (g := stagePart) h _ d

theorem sameSpot_updLs {h : Nat} {g : LsSt → LsSt} (hplace : ∀ e, SamePlace e (g e)) (hframe : ∀ e, (g e).frame = e.frame) (d : Dev) :
    SameSpot h d (d.updLs h g) := by
  refine ⟨?_, ?_, rfl⟩
  · rw [Dev.ls_updLs_same]
    exact hplace _
  · rw [Dev.ls_updLs_same, hframe]

theorem sameSpot_addStaged (h space f p : Nat) (w : Staged) (d : Dev) : SameSpot h d (addStaged h space f p w d) := by
  match space with
  | 0 => exact .refl h d
  | 1 => exact sameSpot_updLs (g := fun e => { e with comp := e.comp ++ [w] }) (fun _ => ⟨rfl, rfl, rfl, rfl, rfl⟩) (fun _ => rfl) d
  | n + 2 => exact sameSpot_updLs (g := fun e => { e with mat := e.mat ++ [w] }) (fun _ => ⟨rfl, rfl, rfl, rfl, rfl⟩) (fun _ => rfl) d

/-! ### The writes of one verb -/

/-- The writes of a verb to consecutive registers from offset o, with their places in the run. -/
def stageRun (h space f p o : Nat) (op : StageOp) (vs : List (Word × Nat)) (d : Dev) : Dev :=
  vs.foldl (fun d v => stageOne h space f p (o + 4 * v.2) op v.1 d) d

section
variable (h space f p o : Nat) (op : StageOp) (vs : List (Word × Nat)) (d : Dev)

theorem stageRun_cons (v : Word × Nat) : stageRun h space f p o op (v :: vs) d =
    stageRun h space f p o op vs (stageOne h space f p (o + 4 * v.2) op v.1 d) := rfl

theorem stageOnly_stageRun {q : Nat → Prop} : StageOnly q d (stageRun h space f p o op vs d) :=
  Within.foldl (g := stagePart) vs _ (fun v _ e => by rw [stageOne_eq]; exact stageOnly_addStaged ..) d

theorem sameSpot_stageRun : SameSpot h d (stageRun h space f p o op vs d) :=
  List.foldlRecOn (motive := SameSpot h d) vs _ (.refl h d) fun e he v _ => he.trans (by rw [stageOne_eq]; exact sameSpot_addStaged ..)

/-- They stand behind those already staged, each at its place. -/
theorem stagedIn_stageRun : stagedIn (stageRun h space f p o op vs d) h space f p =
    stagedIn d h space f p ++ vs.map (fun v => stagedWrite d h space (o + 4 * v.2) op v.1) := by
  induction vs generalizing d with
  | nil => exact (List.append_nil _).symm
  | cons v vs ih =>
    have hspot : SameSpot h d (stageOne h space f p (o + 4 * v.2) op v.1 d) := by
      rw [stageOne_eq]
      exact sameSpot_addStaged ..
    have hw (v : Word × Nat) := hspot.stagedWrite space (o + 4 * v.2) op v.1
    rw [stageRun_cons, ih]
    simp only [hw]
    rw [stageOne_eq, stagedIn_addStaged, List.append_assoc, List.map_cons, List.singleton_append]

end

/-! ### Targets (R73, R174) -/

/-- R174 does not allow the target of a verb's first word for n registers. -/
def TargetDropped (d : Dev) (h : Nat) (w : Word) (n : Nat) : Prop :=
  targetRange (fld w 27 26) (4 * fld w 13 0) n = false ∨ (fld w 27 26 = 0 ∧ (flockHead d (fld w 25 22) ≠ h ∨ 8 ≤ fld w 21 18))

/-- A verb whose target R174 does not allow stages nothing, and is flagged and counted. -/
def targetLost (h : Nat) (d : Dev) : Dev := (d.setBit (Reg.LS_FLAGS h) 1).bump (Reg.LS_DROPS h)

section
variable {h : Nat} {w : Word} {op : StageOp} {vs : List Word} {d : Dev}

theorem stageAll_dropped (hd : TargetDropped d h w vs.length) : stageAll h w op vs d = targetLost h d := by
  unfold stageAll
  dsimp only
  rw [if_pos]
  · rfl
  · obtain hr | ⟨hs, ht⟩ := hd
    · simp [hr]
    · simp [hs, ht]

theorem stageAll_repen (hd : ¬ TargetDropped d h w vs.length) (hs : fld w 27 26 = 0) (hr : (d.flock (fld w 25 22)).repen ≠ none) :
    stageAll h w op vs d = d.bump (Reg.LS_DROPS h) := by
  unfold TargetDropped at hd
  unfold stageAll
  dsimp only
  rw [if_neg, if_pos]
  · simp [hs, Option.isSome_iff_ne_none, hr]
  · simpa [hs, not_or, and_comm] using hd

theorem stageAll_staged (ht : TargetOk d h w vs.length) :
    stageAll h w op vs d = stageRun h (fld w 27 26) (fld w 25 22) (fld w 21 18) (4 * fld w 13 0) op vs.zipIdx d := by
  obtain ⟨hrange, hcell⟩ := ht
  unfold stageAll
  dsimp only
  rw [if_neg, if_neg]
  · rfl
  · simp only [Bool.and_eq_true, decide_eq_true_eq, not_and]
    intro hs
    simp [(hcell hs).2.2]
  · simp only [hrange, Bool.not_true, Bool.or_false, Bool.and_eq_true, decide_eq_true_eq, Bool.or_eq_true, not_and, not_or]
    intro hs
    obtain ⟨hhead, hpost, -⟩ := hcell hs
    exact ⟨not_not.2 hhead, by omega⟩

end

end Sys2Proof.Machine

/-! PROOFS. WR, MASK and ADD (O17). -/
namespace Sys2Proof.Machine

-- One proof after another: proofs that wait for the kernel at once would take more threads than the check's memory holds.
set_option Elab.async false

theorem exec_lsWr (h : Fin 8) (s : State) : exec (.lsWr h) s = .next (verb h 2 (1 + (fld (verbWord s.dev h 0) 17 14 + 1))
    (1 + (fld (verbWord s.dev h 0) 17 14 + 1)) (targetBad (verbWord s.dev h 0) false)
    (fun t => t.upd (stageAll h (verbWord s.dev h 0) .put ((List.range (fld (verbWord s.dev h 0) 17 14 + 1)).map (fun i => verbWord s.dev h (1 + i))))) s) := rfl
theorem exec_lsMask (h : Fin 8) (s : State) : exec (.lsMask h) s = .next (verb h 3 3 3 (targetBad (verbWord s.dev h 0) true)
    (fun t => t.upd (stageAll h (verbWord s.dev h 0) (.mask (verbWord s.dev h 1)) [verbWord s.dev h 2])) s) := rfl
theorem exec_lsAdd (h : Fin 8) (s : State) : exec (.lsAdd h) s = .next (verb h 4 2 2 (targetBad (verbWord s.dev h 0) true)
    (fun t => t.upd (stageAll h (verbWord s.dev h 0) .add [verbWord s.dev h 1])) s) := rfl

/-! ### What a charge and the end of a verb leave of the staged writes and the targets -/

theorem stagedIn_congr {d e : Dev} {h : Nat} (hcells : e.cells = d.cells) (hcomp : (e.ls h).comp = (d.ls h).comp) (hmat : (e.ls h).mat = (d.ls h).mat)
    (space f p : Nat) : stagedIn e h space f p = stagedIn d h space f p := by
  match space with
  | 0 => exact congrArg (fun m => (Store.get (fun _ => ({} : CellSt)) m (cellKey f p)).staged) hcells
  | 1 => exact hcomp
  | n + 2 => exact hmat

theorem ScriptOnly.cells {p : Nat → Prop} {d e : Dev} (h : ScriptOnly p d e) : e.cells = d.cells := (congrArg Dev.cells h.1 :)

theorem stagedIn_lsAdvance (h n : Nat) (d : Dev) (space f p : Nat) : stagedIn (lsAdvance h n d) h space f p = stagedIn d h space f p :=
  stagedIn_congr (scriptOnly_lsAdvance (p := fun _ => True) trivial n d).cells (by rw [ls_lsAdvance]; rfl) (by rw [ls_lsAdvance]; rfl) space f p

theorem stagedIn_lsCharge (h cost : Nat) (d : Dev) (space f p : Nat) : stagedIn (lsCharge h cost d) h space f p = stagedIn d h space f p :=
  stagedIn_congr (scriptOnly_lsCharge (p := fun _ => True) h cost d).cells (by rw [ls_lsCharge]; rfl) (by rw [ls_lsCharge]; rfl) space f p

theorem targetOk_lsCharge {d : Dev} {h n : Nat} {w : Word} (ht : TargetOk d h w n) (cost : Nat) : TargetOk (lsCharge h cost d) h w n := ht

theorem targetDropped_lsCharge {d : Dev} {h n : Nat} {w : Word} (ht : TargetDropped d h w n) (cost : Nat) : TargetDropped (lsCharge h cost d) h w n := ht

theorem stagedAt_lsCharge (h cost : Nat) (d : Dev) (space o : Nat) (op : StageOp) (vs : List Word) :
    stagedAt (lsCharge h cost d) h space o op vs = stagedAt d h space o op vs := by
  have hplace (x : Bool) : placeAt (lsCharge h cost d) h x = placeAt d h x :=
    placeAt_congr (by rw [ls_lsCharge]; rfl) (by rw [ls_lsCharge]; rfl) (by rw [ls_lsCharge]; rfl) (modeOf_congr (rd_lsCharge ..)) x
  simp only [stagedAt, hplace]

/-! ### A verb that stages its writes -/

section
variable {s : State} {i : Instr} {h op words cost : Nat} {bad : Bool} {w : Word} {sop : StageOp} {vs : List Word}

/-- A verb that fits its line stages its writes to a target that R174 allows. -/
theorem staged_verb (hv : VerbAt s h op words cost) (ht : TargetOk s.dev h w vs.length) {e : Dev}
    (he : e = lsAdvance h words (stageAll h w sop vs (lsCharge h cost s.dev))) : VerbDone s { s with dev := e } h words cost ∧
      stagedIn e h (fld w 27 26) (fld w 25 22) (fld w 21 18) =
        stagedIn s.dev h (fld w 27 26) (fld w 25 22) (fld w 21 18) ++ stagedAt s.dev h (fld w 27 26) (4 * fld w 13 0) sop vs ∧
      Leaves stagePart (· = Reg.LS_POS h) s { s with dev := e } := by
  rw [stageAll_staged (targetOk_lsCharge ht cost)] at he
  have hspot := sameSpot_stageRun h (fld w 27 26) (fld w 25 22) (fld w 21 18) (4 * fld w 13 0) sop vs.zipIdx (lsCharge h cost s.dev)
  have honly : StageOnly (· = Reg.LS_POS h) _ _ :=
    stageOnly_stageRun h (fld w 27 26) (fld w 25 22) (fld w 21 18) (4 * fld w 13 0) sop vs.zipIdx (lsCharge h cost s.dev)
  have hin := stagedIn_stageRun h (fld w 27 26) (fld w 25 22) (fld w 21 18) (4 * fld w 13 0) sop vs.zipIdx (lsCharge h cost s.dev)
  rw [← stagedAt_eq, stagedAt_lsCharge, stagedIn_lsCharge] at hin
  generalize stageRun h (fld w 27 26) (fld w 25 22) (fld w 21 18) (4 * fld w 13 0) sop vs.zipIdx (lsCharge h cost s.dev) = d at he hspot honly hin
  have hwithin := stageOnly_verb (by rfl) words honly
  rw [← he] at hwithin
  exact ⟨verbDone_of_samePlace hv hspot.1 (congrArg (fun x : Dev => x.ls h) he), he ▸ (stagedIn_lsAdvance ..).trans hin, hwithin.leaves⟩

theorem gives_staged (he : exec i s = .next (verb h op words cost bad (fun t => t.upd (stageAll h w sop vs)) s)) (hbad : bad = false)
    (hv : VerbAt s h op words cost) (ht : TargetOk s.dev h w vs.length) :
    Gives i s (fun t => VerbDone s t h words cost ∧
      stagedIn t.dev h (fld w 27 26) (fld w 25 22) (fld w 21 18) =
        stagedIn s.dev h (fld w 27 26) (fld w 25 22) (fld w 21 18) ++ stagedAt s.dev h (fld w 27 26) (4 * fld w 13 0) sop vs ∧
      Leaves (fun d e => { d with regs := e.regs, cells := e.cells, scripts := e.scripts }) (· = Reg.LS_POS h) s t) :=
  gives_verb he hbad hv fun _ hdev => staged_verb hv ht hdev

/-! ### A verb whose target is not allowed (R174) -/

theorem targetLost_notes (h : Nat) (d : Dev) : (targetLost h d).bit (Reg.LS_FLAGS h) 1 = true ∧
    ((targetLost h d).rd (Reg.LS_DROPS h)).toNat = min ((d.rd (Reg.LS_DROPS h)).toNat + 1) 0xFFFFFFFF := by
  have hne : Reg.LS_FLAGS h ≠ Reg.LS_DROPS h := by unfold Reg.LS_FLAGS Reg.LS_DROPS; omega
  constructor
  · rw [targetLost, Dev.bit_congr ((regsOnly_bump (p := (· = Reg.LS_DROPS h)) (by rfl) _).2 _ hne), Dev.bit_setBit_same _ _ (by decide)]
  · rw [targetLost, Dev.toNat_rd_bump, Dev.rd_setBit_ne _ _ hne.symm]

theorem ls_targetLost (h : Nat) (d : Dev) : (targetLost h d).ls h = d.ls h := by rw [targetLost, Dev.ls_bump, Dev.ls_setBit]

theorem regsOnly_targetLost {p : Nat → Prop} {h : Nat} (hflags : p (Reg.LS_FLAGS h)) (hdrops : p (Reg.LS_DROPS h)) (d : Dev) :
    RegsOnly p d (targetLost h d) := (regsOnly_wr hflags _ d).trans (regsOnly_bump hdrops _)

theorem gives_dropped (he : exec i s = .next (verb h op words cost bad (fun t => t.upd (stageAll h w sop vs)) s)) (hbad : bad = false)
    (hv : VerbAt s h op words cost) (ht : TargetDropped s.dev h w vs.length) :
    Gives i s (fun t => VerbDone s t h words cost ∧ t.dev.bit (Reg.LS_FLAGS h) 1 = true ∧
      (t.dev.rd (Reg.LS_DROPS h)).toNat = min ((s.dev.rd (Reg.LS_DROPS h)).toNat + 1) 0xFFFFFFFF ∧
      Leaves (fun d e => { d with regs := e.regs, scripts := e.scripts }) (fun o => o = Reg.LS_POS h ∨ o = Reg.LS_FLAGS h ∨ o = Reg.LS_DROPS h) s t) := by
  refine gives_verb he hbad hv fun e hdev => ?_
  rw [stageAll_dropped (targetDropped_lsCharge ht cost)] at hdev
  obtain ⟨hdone, hleaves⟩ := inPlace_verb (p := fun o => o = Reg.LS_POS h ∨ o = Reg.LS_FLAGS h ∨ o = Reg.LS_DROPS h) hv (.inl rfl)
    (fun d => .of_eq (ls_targetLost h d)) (fun d => (regsOnly_targetLost (.inr (.inl rfl)) (.inr (.inr rfl)) d).within) hdev
  obtain ⟨hflag, hcount⟩ := targetLost_notes h (lsCharge h cost s.dev)
  rw [rd_lsCharge] at hcount
  generalize targetLost h (lsCharge h cost s.dev) = d at hdev hflag hcount
  have hdrops := rd_lsAdvance (h := h) (o := Reg.LS_DROPS h) (by unfold Reg.LS_DROPS Reg.LS_POS; omega) words d
  exact ⟨hdone, hdev ▸ (bit_flags_lsAdvance h words d 1).trans hflag, hdev ▸ (congrArg BitVec.toNat hdrops).trans hcount, hleaves⟩

/-! ### A verb that its line has no slots for (R175) -/

/-- The engine's place, its flag of a full line and the count of them are as they were. -/
def LineKept (h : Nat) (d e : Dev) : Prop :=
  SamePlace (d.ls h) (e.ls h) ∧ e.bit (Reg.LS_FLAGS h) 0 = d.bit (Reg.LS_FLAGS h) 0 ∧ e.rd (Reg.LS_OVER_LINES h) = d.rd (Reg.LS_OVER_LINES h)

theorem lineKept_targetLost (h : Nat) (d : Dev) : LineKept h d (targetLost h d) := by
  have hne : Reg.LS_FLAGS h ≠ Reg.LS_DROPS h := by unfold Reg.LS_FLAGS Reg.LS_DROPS; omega
  have hbump := regsOnly_bump (p := (· = Reg.LS_DROPS h)) (by rfl) (d.setBit (Reg.LS_FLAGS h) 1)
  refine ⟨.of_eq (ls_targetLost h d), (Dev.bit_congr (hbump.2 _ hne) 0).trans ?_, (hbump.2 _ ?_).trans (Dev.rd_setBit_ne _ _ ?_)⟩
  · rw [Dev.bit_setBit _ _ _ _ (by decide), decide_eq_false (by decide), Bool.or_false]
  · unfold Reg.LS_OVER_LINES Reg.LS_DROPS; omega
  · unfold Reg.LS_OVER_LINES Reg.LS_FLAGS; omega

theorem lineKept_of_regs {h : Nat} {d e : Dev} (hplace : SamePlace (d.ls h) (e.ls h)) {p : Nat → Prop} (hr : ∀ o, ¬ p o → e.rd o = d.rd o)
    (hflags : ¬ p (Reg.LS_FLAGS h)) (hover : ¬ p (Reg.LS_OVER_LINES h)) : LineKept h d e :=
  ⟨hplace, Dev.bit_congr (hr _ hflags) 0, hr _ hover⟩

/-- Whatever becomes of a verb's writes. -/
theorem lineKept_stageAll (h : Nat) (w : Word) (op : StageOp) (vs : List Word) (d : Dev) : LineKept h d (stageAll h w op vs d) := by
  by_cases hdrop : TargetDropped d h w vs.length
  · rw [stageAll_dropped hdrop]
    exact lineKept_targetLost h d
  by_cases hrepen : fld w 27 26 = 0 ∧ (d.flock (fld w 25 22)).repen ≠ none
  · rw [stageAll_repen hdrop hrepen.1 hrepen.2]
    refine lineKept_of_regs (.of_eq (Dev.ls_bump ..)) (regsOnly_bump (p := (· = Reg.LS_DROPS h)) (by rfl) d).2 ?_ ?_
    · unfold Reg.LS_FLAGS Reg.LS_DROPS; omega
    · unfold Reg.LS_OVER_LINES Reg.LS_DROPS; omega
  · unfold TargetDropped at hdrop
    push Not at hdrop hrepen
    have ht : TargetOk d h w vs.length := by
      refine ⟨by simpa using hdrop.1, fun hs => ?_⟩
      obtain ⟨hhead, hpost⟩ := hdrop.2 hs
      exact ⟨hhead, hpost, hrepen hs⟩
    rw [stageAll_staged ht]
    exact lineKept_of_regs (sameSpot_stageRun ..).1 (stageOnly_stageRun (q := fun _ => False) ..).2 id id

theorem gives_carried (he : exec i s = .next (verb h op words cost bad (fun t => t.upd (stageAll h w sop vs)) s)) (hbad : bad = false)
    (hv : nextVerb s.dev h = some op) (hpc : (s.dev.ls h).pc + words ≤ 4096) (hc : 96 < (s.dev.ls h).slots + cost) :
    Gives i s (fun t => t.dev.bit (Reg.LS_FLAGS h) 0 = true ∧ (t.dev.ls h).line = (s.dev.ls h).line + 1 ∧ (t.dev.ls h).pixel = 0 ∧
      (t.dev.rd (Reg.LS_OVER_LINES h)).toNat = min ((s.dev.rd (Reg.LS_OVER_LINES h)).toNat + 1) 0xFFFFFFFF ∧
      (t.dev.ls h).slots = (if lsGate s.dev h ((s.dev.ls h).line + 1) = true then cost else 0)) := by
  subst hbad
  have hverb := he.trans (congrArg Host.Outcome.next (verb_carried hv hpc hc))
  obtain ⟨hflag, hcount⟩ := carried_notes h s.dev
  have hcarried := ls_carried h s.dev
  generalize carried h s.dev = c at hverb hflag hcount hcarried
  by_cases hgate : lsGate s.dev h ((s.dev.ls h).line + 1) = true
  · rw [if_pos hgate] at hverb ⊢
    have hkept := lineKept_stageAll h w sop vs (lsCharge h cost c)
    replace hverb : exec i s = .next { s with dev := lsAdvance h words (stageAll h w sop vs (lsCharge h cost c)) } := hverb
    generalize stageAll h w sop vs (lsCharge h cost c) = d at hverb hkept
    obtain ⟨⟨-, -, hslots, hline, hpixel⟩, kflag, kover⟩ := hkept
    rw [ls_lsCharge, hcarried] at hslots hline hpixel
    have hls := ls_lsAdvance h words d
    have hbit : (lsAdvance h words d).bit (Reg.LS_FLAGS h) 0 = true := by
      rw [bit_flags_lsAdvance, kflag, Dev.bit_congr (rd_lsCharge ..), hflag]
    have hrd : (lsAdvance h words d).rd (Reg.LS_OVER_LINES h) = c.rd (Reg.LS_OVER_LINES h) := by
      rw [rd_lsAdvance (by unfold Reg.LS_OVER_LINES Reg.LS_POS; omega), kover, rd_lsCharge]
    generalize lsAdvance h words d = e at hverb hls hbit hrd
    exact ⟨_, hverb, hbit, (congrArg LsSt.line hls).trans hline, (congrArg LsSt.pixel hls).trans hpixel, (congrArg BitVec.toNat hrd).trans hcount,
      (congrArg LsSt.slots hls).trans (hslots.trans (Nat.zero_add cost))⟩
  · rw [if_neg hgate] at hverb ⊢
    exact ⟨_, hverb, hflag, by rw [hcarried], by rw [hcarried], hcount, by rw [hcarried]⟩

end

end Sys2Proof.Machine

/-! PROOFS. FETCH, and the statement on verbs that stage their writes (O17). -/
namespace Sys2Proof.Machine

-- One proof after another: proofs that wait for the kernel at once would take more threads than the check's memory holds.
set_option Elab.async false

/-! ### What a fetch reads (R457, R458, R467) -/

theorem Store.getList_eq_map {α : Type} (d : Nat → α) (m : Store α) (k n : Nat) :
    Store.getList d m k n = (List.range n).map (fun i => Store.get d m (k + i)) := by
  induction n generalizing k with
  | zero => rfl
  | succ n ih =>
    rw [Store.getList, ih, List.range_succ_eq_map, List.map_cons, List.map_map]
    simp only [Function.comp_def, Nat.succ_eq_add_one, Nat.add_zero, Nat.add_assoc, Nat.add_comm 1]

/-- Word k of n words read from a. -/
theorem word_getList (s : State) (a : Nat) {n k : Nat} (hk : k < n) :
    ((Store.getList (fun _ => 0) s.mem.bytes a (4 * n)).drop (4 * k)).take 4 = (List.range 4).map (fun j => s.byteAt (a + 4 * k + j)) := by
  rw [Store.getList_eq_map]
  refine List.ext_getElem (by simp; omega) fun j h1 h2 => ?_
  simp [State.byteAt, Nat.add_assoc]

/-- The words that a FETCH of n takes from bytes. -/
def fetchedWords (n : Nat) (b : List Byte) : List Word := (List.range n).map (fun k => w32 (leNat ((b.drop (4 * k)).take 4)))

theorem fetchedWords_getList (s : State) (a n : Nat) : fetchedWords n (Store.getList (fun _ => 0) s.mem.bytes a (4 * n)) =
    (List.range n).map (fun k => w32 (leNat ((List.range 4).map (fun j => s.byteAt (a + 4 * k + j))))) :=
  List.map_congr_left fun _ hk => by rw [word_getList s a (List.mem_range.1 hk)]

theorem touchWords_clean {cls n w : Nat} {s : State}
    (hc : ∀ k, w ≤ k → k < w + n → s.mem.poison.contains k = false ∧ Store.get (fun _ => 0) s.mem.err k = 0) : touchWords cls n w s = (false, s) := by
  induction n generalizing w with
  | zero => rfl
  | succ n ih =>
    obtain ⟨hpoison, herr⟩ := hc w (Nat.le_refl w) (by omega)
    have hword : touchWord cls w s = (false, s) := by
      unfold touchWord
      rw [if_neg (ne_true_of_eq_false hpoison)]
      split
      · rfl
      all_goals simp_all
    rw [touchWords, hword]
    dsimp only
    rw [ih fun k h1 h2 => hc k (by omega) (by omega)]
    rfl

theorem fetch_clean {cls a n : Nat} {s : State} (hm : memOk s.dev a n = true) (hc : CleanWords s a n) :
    fetch cls a n s = (.data (Store.getList (fun _ => 0) s.mem.bytes a n), s) := by
  rw [fetch, if_pos hm, memRead, touchWords_clean hc]
  rfl

theorem fetch_fails {cls a n : Nat} {s : State} (hm : memOk s.dev a n = false) (hp : poolHit s.dev a n = false) : fetch cls a n s = (.fail, s) := by
  rw [fetch, if_neg (by simp [hm]), if_neg (by simp [hp])]

/-- A poisoned word stays poisoned while others are read. -/
theorem poison_touchWord {cls k w : Nat} {s : State} (h : s.mem.poison.contains w = true) : (touchWord cls k s).2.mem.poison.contains w = true := by
  unfold touchWord
  split
  · exact h
  · split
    · exact h
    · exact h
    · exact List.contains_iff_mem.2 (mem_insNat.2 (.inr (List.contains_iff_mem.1 h)))

theorem touchWords_poisoned {cls n w k : Nat} {s : State} (hk : w ≤ k ∧ k < w + n) (hp : s.mem.poison.contains k = true) :
    (touchWords cls n w s).1 = true := by
  induction n generalizing w s with
  | zero => omega
  | succ n ih =>
    rw [touchWords]
    dsimp only
    by_cases hkw : k = w
    · subst hkw
      rw [touchWord, if_pos hp, Bool.true_or]
    · rw [ih (by omega) (poison_touchWord hp), Bool.or_true]

theorem fetch_poisoned {cls a n k : Nat} {s : State} (hm : memOk s.dev a n = true) (hk : a / 32 ≤ k ∧ k < a / 32 + wordSpan a n)
    (hp : s.mem.poison.contains k = true) : ∃ b, fetch cls a n s = (.poison b, (fetch cls a n s).2) := by
  have hread := touchWords_poisoned (cls := cls) hk hp
  refine ⟨Store.getList (fun _ => 0) (touchWords cls (wordSpan a n) (a / 32) s).2.mem.bytes a n, Prod.ext ?_ rfl⟩
  rw [fetch, if_pos hm, memRead]
  dsimp only
  rw [if_pos hread]

/-! ### The act of a FETCH (R171) -/

/-- The pass of the loop that a FETCH with I adds to its address. -/
def fetchPass (hi : Word) (l : Option (Nat × Nat × Nat)) : Nat :=
  match l with
  | some (_, _, k) => if bitOf hi 16 then k else 0
  | none => 0

/-- The address of a FETCH of n words. -/
def fetchAddr (lo hi : Word) (n : Nat) (l : Option (Nat × Nat × Nat)) : Nat := lo.toNat + fld hi 15 0 * 2 ^ 32 + 4 * n * fetchPass hi l

/-- What a FETCH of n words with first word w makes of what it fetched. -/
def fetchAct (h n : Nat) (w : Word) (r : Fetched × State) : State :=
  match r.1 with
  | .data b => r.2.upd (stageAll h w .put (fetchedWords n b))
  | .poison _ => r.2.upd (fun d => d.setBit (Reg.LS_FLAGS h) 5)
  | .fail => r.2.upd (fun d => d.setBit (Reg.LS_FLAGS h) 4)

theorem upd_upd (t : State) (f g : Dev → Dev) : (t.upd f).upd g = { t with dev := g (f t.dev) } := rfl

theorem fetchAct_fail (h n : Nat) (w : Word) (t : State) : fetchAct h n w (.fail, t) = t.upd (fun d => d.setBit (Reg.LS_FLAGS h) 4) := by
  rw [fetchAct]

theorem fetchAct_poison (h n : Nat) (w : Word) (b : List Byte) (t : State) :
    fetchAct h n w (.poison b, t) = t.upd (fun d => d.setBit (Reg.LS_FLAGS h) 5) := by
  rw [fetchAct]

/-- `lsVerbFetch` is unfolded as a function, and `fetch` is made a variable: at its arguments the kernel would compute the address. -/
theorem lsVerbFetch_eq (h : Nat) (s : State) : lsVerbFetch h s = verb h 5 3 (3 + (fld (verbWord s.dev h 0) 17 14 + 1))
    (targetBad (verbWord s.dev h 0) false || fld (verbWord s.dev h 1) 1 0 ≠ 0 || fld (verbWord s.dev h 2) 31 17 ≠ 0)
    (fun t => fetchAct h (fld (verbWord s.dev h 0) 17 14 + 1) (verbWord s.dev h 0) (fetch 0
      (fetchAddr (verbWord s.dev h 1) (verbWord s.dev h 2) (fld (verbWord s.dev h 0) 17 14 + 1) (t.dev.ls h).loop)
      (4 * (fld (verbWord s.dev h 0) 17 14 + 1)) t)) s := by
  have hdef : lsVerbFetch = lsVerbFetch := rfl
  conv at hdef => rhs; delta lsVerbFetch
  rw [hdef]
  beta_reduce
  generalize fetch = F
  extract_lets w lo hi n
  refine congrArg (fun act => verb h 5 3 _ _ act s) (funext fun t => ?_)
  extract_lets i
  have haddr : fetchAddr lo hi n (t.dev.ls h).loop = lo.toNat + fld hi 15 0 * 2 ^ 32 + 4 * n * i := rfl
  change _ = fetchAct h n w (F 0 (fetchAddr lo hi n (t.dev.ls h).loop) (4 * n) t)
  rw [haddr]
  generalize F 0 _ _ t = r
  obtain ⟨r, u⟩ := r
  cases r <;> rfl

section
variable {s : State} {h : Fin 8}

theorem exec_lsFetch (h : Fin 8) (s : State) : exec (.lsFetch h) s = .next (lsVerbFetch h s) := rfl

/-- A FETCH as one verb. -/
theorem exec_lsFetch_verb (h : Fin 8) (s : State) : exec (.lsFetch h) s = .next (verb h 5 3 (3 + (fld (verbWord s.dev h 0) 17 14 + 1))
    (targetBad (verbWord s.dev h 0) false || fld (verbWord s.dev h 1) 1 0 ≠ 0 || fld (verbWord s.dev h 2) 31 17 ≠ 0)
    (fun t => fetchAct h (fld (verbWord s.dev h 0) 17 14 + 1) (verbWord s.dev h 0) (fetch 0
      (fetchAddr (verbWord s.dev h 1) (verbWord s.dev h 2) (fld (verbWord s.dev h 0) 17 14 + 1) (t.dev.ls h).loop)
      (4 * (fld (verbWord s.dev h 0) 17 14 + 1)) t)) s) :=
  (exec_lsFetch h s).trans (congrArg Host.Outcome.next (lsVerbFetch_eq h s))

theorem memOk_congr {d e : Dev} (hr : ∀ o, e.rd o = d.rd o) (a n : Nat) : memOk e a n = memOk d a n := by
  have hil : interleave e = interleave d := Dev.bit_congr (hr _) 0
  unfold memOk
  rw [hil]

theorem poolHit_congr {d e : Dev} (hr : ∀ o, e.rd o = d.rd o) (a n : Nat) : poolHit e a n = poolHit d a n := by
  have hil : interleave e = interleave d := Dev.bit_congr (hr _) 0
  unfold poolHit
  rw [hil]

/-- The state with the slots of a verb charged. -/
def chargedState (h cost : Nat) (s : State) : State := { s with dev := lsCharge h cost s.dev }

theorem loop_chargedState (h cost : Nat) (s : State) : ((chargedState h cost s).dev.ls h).loop = (s.dev.ls h).loop :=
  (congrArg LsSt.loop (ls_lsCharge h cost s.dev) :)

section
variable {n a : Nat} (hn : n = fld (verbWord s.dev h 0) 17 14 + 1)
  (ha : a = fetchAddr (verbWord s.dev h 1) (verbWord s.dev h 2) n (s.dev.ls h).loop)
include hn ha

/-- What a FETCH without faults gives: what the state holds after its act on what it fetches from its address. -/
theorem gives_lsFetch {P : State → Prop} {r : Fetched × State} (hv : VerbAt s h 5 3 (3 + n)) (hbad : targetBad (verbWord s.dev h 0) false = false)
    (hlo : fld (verbWord s.dev h 1) 1 0 = 0) (hhi : fld (verbWord s.dev h 2) 31 17 = 0)
    (hr : fetch 0 a (4 * n) (chargedState h (3 + n) s) = r)
    (hP : P ((fetchAct h n (verbWord s.dev h 0) r).upd (lsAdvance h 3))) : Gives (.lsFetch h) s P := by
  have hverb := exec_lsFetch_verb h s
  rw [hbad, hlo, hhi, ← hn] at hverb
  replace hverb := hverb.trans (congrArg Host.Outcome.next (verb_runs hv))
  refine ⟨_, hverb, ?_⟩
  rw [← chargedState, loop_chargedState, ← ha, hr]
  exact hP

/-- Words that memory holds are staged. -/
theorem gives_lsFetch_staged (hv : VerbAt s h 5 3 (3 + n)) (hbad : targetBad (verbWord s.dev h 0) false = false)
    (hlo : fld (verbWord s.dev h 1) 1 0 = 0) (hhi : fld (verbWord s.dev h 2) 31 17 = 0) (ht : TargetOk s.dev h (verbWord s.dev h 0) n)
    (hm : memOk s.dev a (4 * n) = true) (hc : CleanWords s a (4 * n)) :
    Gives (.lsFetch h) s (fun t => VerbDone s t h 3 (3 + n) ∧
      stagedIn t.dev h (fld (verbWord s.dev h 0) 27 26) (fld (verbWord s.dev h 0) 25 22) (fld (verbWord s.dev h 0) 21 18) =
        stagedIn s.dev h (fld (verbWord s.dev h 0) 27 26) (fld (verbWord s.dev h 0) 25 22) (fld (verbWord s.dev h 0) 21 18) ++
        stagedAt s.dev h (fld (verbWord s.dev h 0) 27 26) (4 * fld (verbWord s.dev h 0) 13 0) .put
          ((List.range n).map (fun k => w32 (leNat ((List.range 4).map (fun j => s.byteAt (a + 4 * k + j)))))) ∧
      Leaves (fun d e => { d with regs := e.regs, cells := e.cells, scripts := e.scripts }) (· = Reg.LS_POS h) s t) := by
  have hm' : memOk (chargedState h (3 + n) s).dev a (4 * n) = true := (memOk_congr (rd_lsCharge h (3 + n) s.dev) a (4 * n)).trans hm
  refine gives_lsFetch hn ha hv hbad hlo hhi (fetch_clean hm' hc) ?_
  refine staged_verb hv (by simpa using ht) ?_
  rw [← fetchedWords_getList]
  rfl

/-- A FETCH of memory that is not there stages nothing. -/
theorem gives_lsFetch_absent (hv : VerbAt s h 5 3 (3 + n)) (hbad : targetBad (verbWord s.dev h 0) false = false)
    (hlo : fld (verbWord s.dev h 1) 1 0 = 0) (hhi : fld (verbWord s.dev h 2) 31 17 = 0)
    (hm : memOk s.dev a (4 * n) = false) (hp : poolHit s.dev a (4 * n) = false) :
    Gives (.lsFetch h) s (fun t => VerbDone s t h 3 (3 + n) ∧ t.dev.bit (Reg.LS_FLAGS h) 4 = true ∧
        Leaves (fun d e => { d with regs := e.regs, scripts := e.scripts }) (fun o => o = Reg.LS_POS h ∨ o = Reg.LS_FLAGS h) s t) := by
  have hm' : memOk (chargedState h (3 + n) s).dev a (4 * n) = false := (memOk_congr (rd_lsCharge h (3 + n) s.dev) a (4 * n)).trans hm
  have hp' : poolHit (chargedState h (3 + n) s).dev a (4 * n) = false := (poolHit_congr (rd_lsCharge h (3 + n) s.dev) a (4 * n)).trans hp
  refine gives_lsFetch hn ha hv hbad hlo hhi (fetch_fails hm' hp') ?_
  have hflag := (bit_flags_lsAdvance h 3 ((lsCharge h (3 + n) s.dev).setBit (Reg.LS_FLAGS h) 4) 4).trans (Dev.bit_setBit_same _ _ (by decide))
  have hact := fun e => inPlace_verb (e := e) (p := fun o => o = Reg.LS_POS h ∨ o = Reg.LS_FLAGS h) (act := fun d => d.setBit (Reg.LS_FLAGS h) 4)
    hv (.inl rfl) (fun d => .of_eq (Dev.ls_setBit ..)) (fun d => within_setBit (.inr rfl) 4 d)
  rw [fetchAct_fail, upd_upd, chargedState]
  dsimp only
  specialize hact _ rfl
  generalize lsAdvance h 3 ((lsCharge h (3 + n) s.dev).setBit (Reg.LS_FLAGS h) 4) = e at hflag hact ⊢
  exact ⟨hact.1, hflag, hact.2⟩

/-- A FETCH that meets poison stages nothing. -/
theorem gives_lsFetch_poisoned (hv : VerbAt s h 5 3 (3 + n)) (hbad : targetBad (verbWord s.dev h 0) false = false)
    (hlo : fld (verbWord s.dev h 1) 1 0 = 0) (hhi : fld (verbWord s.dev h 2) 31 17 = 0) (hm : memOk s.dev a (4 * n) = true)
    (hp : ∃ w, a / 32 ≤ w ∧ w < a / 32 + wordSpan a (4 * n) ∧ s.mem.poison.contains w = true) :
    Gives (.lsFetch h) s (fun t => VerbDone s t h 3 (3 + n) ∧ t.dev.bit (Reg.LS_FLAGS h) 5 = true ∧ SameBytes s t) := by
  have hm' : memOk (chargedState h (3 + n) s).dev a (4 * n) = true := (memOk_congr (rd_lsCharge h (3 + n) s.dev) a (4 * n)).trans hm
  obtain ⟨w, hlow, hhigh, hw⟩ := hp
  obtain ⟨b, hfetch⟩ := fetch_poisoned (cls := 0) (s := chargedState h (3 + n) s) hm' ⟨hlow, hhigh⟩ hw
  obtain ⟨hbytes, hnote, -⟩ := noted_fetch 0 a (4 * n) (chargedState h (3 + n) s)
  refine gives_lsFetch hn ha hv hbad hlo hhi hfetch ?_
  generalize (fetch 0 a (4 * n) (chargedState h (3 + n) s)).2 = u at hbytes hnote
  have hls : u.dev.ls h = (lsCharge h (3 + n) s.dev).ls h := (congrArg (fun x : Dev => x.ls h) hnote :)
  have hflag := (bit_flags_lsAdvance h 3 (u.dev.setBit (Reg.LS_FLAGS h) 5) 5).trans (Dev.bit_setBit_same _ _ (by decide))
  have hdone := fun t : State => verbDone_of_samePlace (t := t) (e := u.dev.setBit (Reg.LS_FLAGS h) 5) hv (.of_eq ((Dev.ls_setBit ..).trans hls))
  rw [fetchAct_poison, upd_upd]
  generalize lsAdvance h 3 (u.dev.setBit (Reg.LS_FLAGS h) 5) = e at hflag hdone ⊢
  exact ⟨hdone { u with dev := e } rfl, hflag, hbytes⟩

end

theorem gives_lsFetch_faulty (hv : nextVerb s.dev h = some 5) (hf : targetBad (verbWord s.dev h 0) false = true ∨ fld (verbWord s.dev h 1) 1 0 ≠ 0 ∨
    fld (verbWord s.dev h 2) 31 17 ≠ 0 ∨ 4093 < (s.dev.ls h).pc) : Gives (.lsFetch h) s (VerbError h s) := by
  refine gives_verb_faulty (exec_lsFetch_verb h s) hv ?_
  obtain hf | hf | hf | hf := hf
  · exact .inl (by rw [hf, Bool.true_or, Bool.true_or])
  · exact .inl (by rw [decide_eq_true hf, Bool.or_true, Bool.true_or])
  · exact .inl (by rw [decide_eq_true hf, Bool.or_true])
  · exact .inr (by omega)

end

/-- Settles O17: WR, MASK and ADD by `gives_staged`, `gives_dropped` and `gives_carried`, whatever words they stage; FETCH by what it fetches from its
address; errors by `gives_verb_faulty`. -/
theorem writingVerbsStageTheirWrites : Obligations.WritingVerbsStageTheirWrites := by
  unfold Obligations.WritingVerbsStageTheirWrites
  refine ⟨fun s h n hn hv hbad ht => ?_, fun s h hbad ht => ⟨fun hv => ?_, fun hv => ?_⟩,
    fun s h n a i hn hv hbad hlo hhi ht hi ha => gives_lsFetch_staged hn (ha.trans (by rw [hi]; rfl)) hv hbad hlo hhi ht,
    fun s h hv hf => ?_, fun s h hv hf => ?_, fun s h hv hf => ?_, fun s h => gives_lsFetch_faulty, fun s h n hn hv hbad ht => ?_,
    fun s h n a i hn hv hbad hlo hhi hi ha => ?_, fun s h n hn hv hpc hbad hc => ?_⟩
  · subst hn
    exact gives_staged (exec_lsWr h s) hbad hv (by simpa using ht)
  · exact gives_staged (exec_lsMask h s) hbad hv ht
  · exact gives_staged (exec_lsAdd h s) hbad hv ht
  · exact gives_verb_faulty (exec_lsWr h s) hv (hf.imp id fun h => by omega)
  · exact gives_verb_faulty (exec_lsMask h s) hv (hf.imp id fun h => by omega)
  · exact gives_verb_faulty (exec_lsAdd h s) hv (hf.imp id fun h => by omega)
  · subst hn
    exact gives_dropped (exec_lsWr h s) hbad hv (by simpa [TargetDropped] using ht)
  · have haddr : a = fetchAddr (verbWord s.dev h 1) (verbWord s.dev h 2) n (s.dev.ls h).loop := ha.trans (by rw [hi]; rfl)
    exact ⟨gives_lsFetch_absent hn haddr hv hbad hlo hhi, gives_lsFetch_poisoned hn haddr hv hbad hlo hhi⟩
  · subst hn
    exact gives_carried (exec_lsWr h s) hbad hv (by omega) hc

end Sys2Proof.Machine

/-! PROOFS. The decision point of a head (O16). -/
namespace Sys2Proof.Machine

-- One proof after another: proofs that wait for the kernel at once would take more threads than the check's memory holds.
set_option Elab.async false

/-! ### The steps of the decision point (R158, R162, R177) -/

/-- A head is at its decision point. -/
def mayDecide (d : Dev) (h : Nat) : Bool :=
  (headState d h == 3 || headState d h == 4) && (d.head h).latched && !(d.head h).decided && !d.bit (Reg.HEAD_STATUS h) 11

/-- The die at the instant of the decision point: (T - 6, 0), after the prediction of (T - 7, 0) (R158, R210). -/
def atDecision (h : Nat) (d : Dev) : Dev :=
  let d := if predicts d h then predict h (d.beamTo h ((modeOf d h).vTot - 7) 0) else d
  if isCommand d h then d else d.beamTo h ((modeOf d h).vTot - 6) 0

/-- LS_PEAK takes the busiest line of the script before. -/
def peakLatched (h : Nat) (d : Dev) : Dev := d.wr (Reg.LS_PEAK h) (w32 (min 255 (d.ls h).peak + (d.ls h).peakLine * 2 ^ 16))

/-- The engine at word 0, for a frame. -/
def LsSt.started (on : Bool) (frame : Nat) (e : LsSt) : LsSt :=
  { e with
    active := on, ended := !on, frame := frame, pc := 0, line := 0, pixel := 0, slots := 0, loop := none, peak := 0, peakLine := 0 }

/-- The head has decided, at the present instant. -/
def decisionMade (h : Nat) (d : Dev) : Dev := d.updHead h (fun x => { x with decided := true, sendHt := d.clk })

/-- The script of a frame starts, when the engine is on, and the decision of the head is made. -/
def scriptStarted (h : Nat) (on : Bool) (frame : Nat) (d : Dev) : Dev :=
  lsPos h (decisionMade h ((d.putBit (Reg.LS_BANK h) 4 on).updLs h (LsSt.started on frame)))

theorem decisionPoint_eq {h : Nat} {d : Dev} (hc : mayDecide d h = true) : decisionPoint h d =
    scriptStarted h ((peakLatched h (chooseBank h (atDecision h d))).bit (Reg.LS_CTRL h) 0) ((d.head h).seq + 1)
      (peakLatched h (chooseBank h (atDecision h d))) := by
  unfold mayDecide at hc
  unfold decisionPoint
  extract_lets x d1 d2 d3 e d4 on d5 d6
  rw [if_pos hc]
  have hinstant : d2 = atDecision h d := rfl
  have hbank : d3 = chooseBank h d2 := rfl
  have hpeak : d4 = peakLatched h d3 := rfl
  have hscript : d6 = d5.updLs h (LsSt.started on ((d.head h).seq + 1)) := rfl
  rw [← hinstant, ← hbank, ← hpeak, scriptStarted, ← hscript, decisionMade]

theorem decisionPoint_idle {h : Nat} {d : Dev} (hc : mayDecide d h = false) : decisionPoint h d = d := by
  unfold mayDecide at hc
  unfold decisionPoint
  dsimp only
  rw [if_neg (by rw [hc]; decide)]

/-! ### What the decision point may change -/

/-- The die with the registers, the time, the heads and the scripts of another. -/
abbrev decisionPart (e d : Dev) : Dev := { e with regs := d.regs, ht := d.ht, clk := d.clk, heads := d.heads, scripts := d.scripts }

theorem within_decision_time {p : Nat → Prop} {d e : Dev} (ht : TimeOnly d e) : Within decisionPart p d e :=
  within_of_eq (congrArg (fun x => decisionPart x d) ht :) ht.regs

theorem TimeOnly.ls {d e : Dev} (ht : TimeOnly d e) (h : Nat) : e.ls h = d.ls h := (congrArg (fun x : Dev => x.ls h) ht :)

theorem timeOnly_beamTo (d : Dev) (h n x : Nat) : TimeOnly d (d.beamTo h n x) := by
  unfold Dev.beamTo
  split
  · exact timeOnly_passClk d _
  · exact .refl d

/-- The registers of the generator that a prediction writes. -/
def GenReg (h o : Nat) : Prop := o = Reg.HEAD_FLAGS h ∨ o = Reg.RELOCKS h

/-- The die up to the choice of bank: time passes and the generator predicts, but the script engine and the kept cues stay. -/
def ChoiceKept (h : Nat) (d e : Dev) : Prop :=
  e.ls h = d.ls h ∧ (e.head h).cues = (d.head h).cues ∧ Within decisionPart (GenReg h) d e

namespace ChoiceKept
variable {h : Nat} {d e x : Dev}

theorem refl (h : Nat) (d : Dev) : ChoiceKept h d d := ⟨rfl, rfl, .refl d⟩

theorem trans (hd : ChoiceKept h d e) (he : ChoiceKept h e x) : ChoiceKept h d x := by
  obtain ⟨hls, hcues, hwithin⟩ := hd
  obtain ⟨hls', hcues', hwithin'⟩ := he
  exact ⟨hls'.trans hls, hcues'.trans hcues, hwithin.trans hwithin'⟩

theorem of_timeOnly (ht : TimeOnly d e) : ChoiceKept h d e := ⟨ht.ls h, by rw [ht.head], within_decision_time ht⟩

theorem of_regsOnly (hr : RegsOnly (GenReg h) d e) : ChoiceKept h d e :=
  ⟨(congrArg (fun x : Dev => x.ls h) hr.1 :), by rw [hr.head], hr.within⟩

theorem updHead {u : HeadSt → HeadSt} (hcues : ∀ x, (u x).cues = x.cues) : ChoiceKept h d (d.updHead h u) := by
  refine ⟨rfl, ?_, within_updHead h u d⟩
  rw [Dev.head_updHead, if_pos rfl]
  exact hcues _

end ChoiceKept

theorem choiceKept_predict (h : Nat) (d : Dev) : ChoiceKept h d (predict h d) := by
  have hrelock (e : Dev) : RegsOnly (GenReg h) e ((e.setBit (Reg.HEAD_FLAGS h) 6).bump (Reg.RELOCKS h)) :=
    (regsOnly_wr (o := Reg.HEAD_FLAGS h) (.inl (by rfl)) _ e).trans (regsOnly_bump (.inr (by rfl)) _)
  unfold predict
  extract_lets x m full next e0 e1 t7 scale j d' most
  split
  · have hpredicted : ChoiceKept h d d' := .updHead fun _ => rfl
    exact hpredicted.trans (.of_regsOnly (hrelock d'))
  · exact .updHead fun _ => rfl

theorem choiceKept_atDecision (h : Nat) (d : Dev) : ChoiceKept h d (atDecision h d) := by
  have htime (e : Dev) (n : Nat) : ChoiceKept h e (e.beamTo h n 0) := .of_timeOnly (timeOnly_beamTo e h n 0)
  have hpredict : ChoiceKept h d (if predicts d h then predict h (d.beamTo h ((modeOf d h).vTot - 7) 0) else d) := by
    split
    · exact (htime d _).trans (choiceKept_predict h _)
    · exact .refl h d
  unfold atDecision
  extract_lets e
  refine hpredict.trans ?_
  change ChoiceKept h e _
  split
  · exact .refl h e
  · exact htime e _

/-! ### The instant that cues are compared with (R178) -/

/-- The registers of a script engine that the decision point writes. -/
def ScriptReg (h o : Nat) : Prop := o = Reg.LS_BANK h ∨ o = Reg.LS_FLAGS h ∨ o = Reg.LS_PEAK h ∨ o = Reg.LS_POS h

/-- They stand behind LS_CTRL, and before the registers of the head. -/
theorem ScriptReg.bounds {h o : Nat} (ho : ScriptReg h o) : Reg.LS_CTRL h < o ∧ o < 0x2020000 + h * 0x100000 := by
  unfold ScriptReg Reg.LS_BANK Reg.LS_FLAGS Reg.LS_PEAK Reg.LS_POS at ho
  unfold Reg.LS_CTRL
  omega

theorem GenReg.bounds {h o : Nat} (ho : GenReg h o) : 0x2020000 + h * 0x100000 ≤ o := by
  unfold GenReg Reg.HEAD_FLAGS Reg.RELOCKS at ho
  omega

/-- The head is as it was, but for its cues and its decision. -/
def SameHead (x y : HeadSt) : Prop := y = { x with cues := y.cues, decided := y.decided, sendHt := y.sendHt }

/-- The die from the choice of bank on: no time passes, and the start of the coming frame stays. -/
def FsKept (h : Nat) (d e : Dev) : Prop := e.ht = d.ht ∧ SameHead (d.head h) (e.head h) ∧ Within decisionPart (ScriptReg h) d e

namespace FsKept
variable {h : Nat} {d e x : Dev}

theorem trans (hd : FsKept h d e) (he : FsKept h e x) : FsKept h d x := by
  obtain ⟨hht, hhead, hwithin⟩ := hd
  obtain ⟨hht', hhead', hwithin'⟩ := he
  refine ⟨hht'.trans hht, ?_, hwithin.trans hwithin'⟩
  unfold SameHead at hhead hhead' ⊢
  rw [hhead', hhead]

theorem of_regsOnly (hr : RegsOnly (ScriptReg h) d e) : FsKept h d e := by
  have hhead := hr.head h
  exact ⟨(congrArg Dev.ht hr.1 :), by rw [SameHead, hhead], hr.within⟩

theorem updLs {u : LsSt → LsSt} : FsKept h d (d.updLs h u) := ⟨rfl, rfl, within_updLs h u d⟩

theorem updHead {u : HeadSt → HeadSt} (hu : ∀ x, SameHead x (u x)) : FsKept h d (d.updHead h u) := by
  refine ⟨rfl, ?_, within_updHead h u d⟩
  rw [Dev.head_updHead, if_pos rfl]
  exact hu _

/-- Cues are compared with the same instant. -/
theorem decisionFs_eq (hd : FsKept h d e) : decisionFs e h = decisionFs d h := by
  obtain ⟨hht, hhead, -, hrd⟩ := hd
  have hstatus : e.rd (Reg.HEAD_STATUS h) = d.rd (Reg.HEAD_STATUS h) :=
    hrd _ fun ho => by have hlt := ho.bounds.2; unfold Reg.HEAD_STATUS at hlt; omega
  have hte : e.rd (Reg.TE_CTRL h) = d.rd (Reg.TE_CTRL h) :=
    hrd _ fun ho => by have hlt := ho.bounds.2; unfold Reg.TE_CTRL at hlt; omega
  have hmode : modeOf e h = modeOf d h := modeOf_congr hstatus
  have hcommand : isCommand e h = isCommand d h := Dev.bit_congr hstatus 10
  have hnow : e.now = d.now := by rw [Dev.now, hht, Dev.now]
  have hline : e.fld (Reg.TE_CTRL h) 15 8 = d.fld (Reg.TE_CTRL h) 15 8 := Dev.fld_congr hte 15 8
  unfold SameHead at hhead
  unfold decisionFs frameStart
  rw [hmode, hcommand, hnow, hline, hhead]

end FsKept

/-! ### The choice of bank (R177) -/

/-- The bank that a due cue chooses, else a pending request in LS_BANK, else the bank in use. -/
def bankChosen (cue : Option HeadCue) (w : Word) : Nat :=
  match cue with
  | some c => c.bank % 2
  | none => if bitOf w 1 = true then fld w 2 2 else fld w 0 0

/-- A word of LS_BANK with a bank and no request pending. -/
theorem bankWord_notes {a : Nat} (ha : a < 2) (k : Nat) : fld (w32 (a + 8 * k)) 0 0 = a ∧ bitOf (w32 (a + 8 * k)) 1 = false := by
  constructor
  · simp only [fld, w32, BitVec.toNat_ofNat, Nat.shiftRight_zero]
    omega
  · rw [bitOf, w32, BitVec.getLsbD_ofNat, Nat.testBit_eq_decide_div_mod_eq]
    simp
    omega

/-- The cues up to t are no longer kept. -/
def cuesTaken (h t : Nat) (d : Dev) : Dev := d.updHead h (fun x => { x with cues := x.cues.filter (fun c => !(c.l ≤ t)) })

/-- A due cue takes the place of a pending request, which is flagged. -/
theorem chooseBank_cue {h : Nat} {d : Dev} {c : HeadCue} (hc : latestCue (decisionFs d h) (d.head h).cues = some c) :
    chooseBank h d = (if bitOf (d.rd (Reg.LS_BANK h)) 1 then (cuesTaken h (decisionFs d h) d).setBit (Reg.LS_FLAGS h) 7
      else cuesTaken h (decisionFs d h) d).wr (Reg.LS_BANK h) (w32 (c.bank % 2 + 8 + (if bitOf (d.rd (Reg.LS_BANK h)) 4 then 16 else 0))) := by
  unfold chooseBank
  extract_lets t w
  rw [hc]
  rfl

/-- Without a due cue a pending request is taken, and without a request the bank stays. -/
theorem chooseBank_none {h : Nat} {d : Dev} (hc : latestCue (decisionFs d h) (d.head h).cues = none) :
    chooseBank h d = if bitOf (d.rd (Reg.LS_BANK h)) 1 then
        d.wr (Reg.LS_BANK h) (w32 (fld (d.rd (Reg.LS_BANK h)) 2 2 + (if bitOf (d.rd (Reg.LS_BANK h)) 4 then 16 else 0)))
      else d.clrBit (Reg.LS_BANK h) 3 := by
  unfold chooseBank
  extract_lets t w
  rw [hc]

/-- The bank is chosen: no request is pending, and the script engine is as it was. -/
def BankSet (h bank : Nat) (d e : Dev) : Prop :=
  FsKept h d e ∧ e.ls h = d.ls h ∧ e.fld (Reg.LS_BANK h) 0 0 = bank ∧ e.bit (Reg.LS_BANK h) 1 = false

theorem bankSet_wr (h : Nat) {a : Nat} (ha : a < 2) (k : Nat) (d : Dev) : BankSet h a d (d.wr (Reg.LS_BANK h) (w32 (a + 8 * k))) := by
  obtain ⟨hbank, hpend⟩ := bankWord_notes ha k
  refine ⟨.of_regsOnly (regsOnly_wr (.inl (by rfl)) _ d), Dev.ls_wr .., ?_, ?_⟩
  · rw [Dev.fld, Dev.rd_wr_same, hbank]
  · rw [Dev.bit, Dev.rd_wr_same, hpend]

theorem fsKept_cuesTaken (h t : Nat) (d : Dev) : FsKept h d (cuesTaken h t d) := .updHead fun _ => rfl

/-- The word of LS_BANK after a due cue: BY_CUE, and EN as it was. -/
theorem bankSet_cue (h a : Nat) (en : Bool) (d : Dev) : BankSet h (a % 2) d (d.wr (Reg.LS_BANK h) (w32 (a % 2 + 8 + (if en then 16 else 0)))) := by
  have hset := bankSet_wr h (a := a % 2) (Nat.mod_lt _ (by decide))
  cases en
  · exact hset 1 d
  · exact hset 3 d

/-- The word of LS_BANK after a request: EN as it was. -/
theorem bankSet_request {h a : Nat} (ha : a < 2) (en : Bool) (d : Dev) : BankSet h a d (d.wr (Reg.LS_BANK h) (w32 (a + (if en then 16 else 0)))) := by
  cases en
  · exact bankSet_wr h ha 0 d
  · exact bankSet_wr h ha 2 d

/-- The bank in use is kept. -/
theorem bankSet_kept {h : Nat} {d : Dev} (hreq : ¬ bitOf (d.rd (Reg.LS_BANK h)) 1 = true) :
    BankSet h (fld (d.rd (Reg.LS_BANK h)) 0 0) d (d.clrBit (Reg.LS_BANK h) 3) := by
  refine ⟨.of_regsOnly (regsOnly_wr (o := Reg.LS_BANK h) (.inl (by rfl)) _ d), Dev.ls_clrBit .., ?_, ?_⟩
  · exact Dev.fld_clrBit_outside d _ (by decide) (by decide) (.inr (by decide))
  · rw [Dev.bit_clrBit _ _ _ _ (by decide) (by decide), Dev.bit, Bool.eq_false_of_not_eq_true hreq, Bool.false_and]

/-- A request that a cue takes the place of is flagged. -/
theorem fsKept_flagged (h : Nat) (b : Bool) (d : Dev) :
    FsKept h d (if b then d.setBit (Reg.LS_FLAGS h) 7 else d) ∧ (if b then d.setBit (Reg.LS_FLAGS h) 7 else d).ls h = d.ls h := by
  cases b
  · exact ⟨.of_regsOnly (.refl _ d), by rfl⟩
  · exact ⟨.of_regsOnly (regsOnly_wr (o := Reg.LS_FLAGS h) (.inr (.inl (by rfl))) _ d), Dev.ls_setBit ..⟩

theorem BankSet.after {h bank : Nat} {d e x : Dev} (hx : BankSet h bank e x) (he : FsKept h d e) (hls : e.ls h = d.ls h) : BankSet h bank d x := by
  obtain ⟨hkept, hls', hnotes⟩ := hx
  exact ⟨he.trans hkept, hls'.trans hls, hnotes⟩

theorem bankSet_chooseBank (h : Nat) (d : Dev) :
    BankSet h (bankChosen (latestCue (decisionFs d h) (d.head h).cues) (d.rd (Reg.LS_BANK h))) d (chooseBank h d) := by
  cases hcue : latestCue (decisionFs d h) (d.head h).cues with
  | some c =>
    rw [chooseBank_cue hcue, bankChosen]
    obtain ⟨hflagged, hls⟩ := fsKept_flagged h (bitOf (d.rd (Reg.LS_BANK h)) 1) (cuesTaken h (decisionFs d h) d)
    exact (bankSet_cue h c.bank (bitOf (d.rd (Reg.LS_BANK h)) 4) _).after ((fsKept_cuesTaken h _ d).trans hflagged) (hls.trans (Dev.ls_updHead ..))
  | none =>
    rw [chooseBank_none hcue, bankChosen]
    by_cases hreq : bitOf (d.rd (Reg.LS_BANK h)) 1 = true
    · rw [if_pos hreq, if_pos hreq]
      exact bankSet_request (fld_lt _ 2 2) _ d
    · rw [if_neg hreq, if_neg hreq]
      exact bankSet_kept hreq

/-! ### The start of the script (R158, R159) -/

theorem BankSet.peakLatched {h bank : Nat} {d e : Dev} (hb : BankSet h bank d e) : BankSet h bank d (peakLatched h e) := by
  obtain ⟨hkept, hls, hbank, hpend⟩ := hb
  have hne : Reg.LS_BANK h ≠ Reg.LS_PEAK h := by unfold Reg.LS_BANK Reg.LS_PEAK; omega
  have hrd : (Machine.peakLatched h e).rd (Reg.LS_BANK h) = e.rd (Reg.LS_BANK h) := Dev.rd_wr_ne e _ hne
  exact ⟨hkept.trans (.of_regsOnly (regsOnly_wr (o := Reg.LS_PEAK h) (.inr (.inr (.inl (by rfl)))) _ e)), (Dev.ls_wr ..).trans hls,
    (Dev.fld_congr hrd 0 0).trans hbank, (Dev.bit_congr hrd 1).trans hpend⟩

theorem fsKept_putBit (h n : Nat) (b : Bool) (d : Dev) : FsKept h d (d.putBit (Reg.LS_BANK h) n b) := by
  cases b <;> exact .of_regsOnly (regsOnly_wr (o := Reg.LS_BANK h) (.inl (by rfl)) _ d)

theorem decisionMade_notes (h : Nat) (d : Dev) : FsKept h d (decisionMade h d) ∧ (∀ o, (decisionMade h d).rd o = d.rd o) ∧
    (decisionMade h d).ls h = d.ls h ∧ ((decisionMade h d).head h).decided = true :=
  ⟨.updHead fun _ => rfl, fun _ => rfl, rfl, by rw [decisionMade, Dev.head_updHead, if_pos rfl]⟩

theorem fsKept_lsPos (h : Nat) (d : Dev) : FsKept h d (lsPos h d) := .of_regsOnly (regsOnly_lsPos (.inr (.inr (.inr (by rfl)))) d)

/-- What the start of a script leaves in the engine, in LS_BANK and in the head. -/
theorem scriptStarted_notes (h : Nat) (on : Bool) (frame : Nat) (d : Dev) :
    FsKept h d (scriptStarted h on frame d) ∧ (scriptStarted h on frame d).ls h = (d.ls h).started on frame ∧
    ((scriptStarted h on frame d).head h).decided = true ∧ (scriptStarted h on frame d).fld (Reg.LS_BANK h) 0 0 = d.fld (Reg.LS_BANK h) 0 0 ∧
    (scriptStarted h on frame d).bit (Reg.LS_BANK h) 1 = d.bit (Reg.LS_BANK h) 1 ∧ (scriptStarted h on frame d).bit (Reg.LS_BANK h) 4 = on := by
  have hput := fsKept_putBit h 4 on d
  have hls := Dev.ls_putBit d (Reg.LS_BANK h) 4 on h
  have hbank := Dev.fld_putBit_outside d (Reg.LS_BANK h) (n := 4) (hi := 0) (lo := 0) on (by decide) (by decide) (.inr (by decide))
  have hpend := Dev.bit_putBit_outside d (Reg.LS_BANK h) (n := 4) (m := 1) on (by decide) (by decide) (by decide)
  have hon := Dev.bit_putBit_same d (Reg.LS_BANK h) (n := 4) (by decide) on
  unfold scriptStarted
  generalize d.putBit (Reg.LS_BANK h) 4 on = e at hput hls hbank hpend hon ⊢
  have hupd : FsKept h e (e.updLs h (LsSt.started on frame)) := .updLs
  have hrd (o : Nat) := Dev.updLs_rd e h (LsSt.started on frame) o
  have hstarted := Dev.ls_updLs_same e h (LsSt.started on frame)
  generalize e.updLs h (LsSt.started on frame) = u at hupd hrd hstarted ⊢
  obtain ⟨hmade, hrd', hls', hdecided⟩ := decisionMade_notes h u
  generalize decisionMade h u = x at hmade hrd' hls' hdecided ⊢
  have hpos : RegsOnly (· = Reg.LS_POS h) x (lsPos h x) := regsOnly_lsPos (by rfl) x
  have hne : Reg.LS_BANK h ≠ Reg.LS_POS h := by unfold Reg.LS_BANK Reg.LS_POS; omega
  have hreg : (lsPos h x).rd (Reg.LS_BANK h) = e.rd (Reg.LS_BANK h) := (hpos.2 _ hne).trans ((hrd' _).trans (hrd _))
  have hhead := hpos.head h
  refine ⟨((hput.trans hupd).trans hmade).trans (fsKept_lsPos h x), ?_, (congrArg HeadSt.decided hhead).trans hdecided,
    (Dev.fld_congr hreg 0 0).trans hbank, (Dev.bit_congr hreg 1).trans hpend, (Dev.bit_congr hreg 4).trans hon⟩
  rw [ls_lsPos, hls', hstarted, hls]

/-! ### The decision point -/

theorem exec_lsDecisionPoint (h : Fin 8) (s : State) : exec (.lsDecisionPoint h) s = .next (s.upd (decisionPoint h)) := rfl

/-- The die after the decision point. -/
theorem decisionPoint_notes {h : Nat} {d e : Dev} (hc : mayDecide d h = true) (he : decisionPoint h d = e) :
    (e.head h).decided = true ∧
    e.fld (Reg.LS_BANK h) 0 0 = bankChosen (latestCue (decisionFs e h) (d.head h).cues) (d.rd (Reg.LS_BANK h)) ∧
    e.bit (Reg.LS_BANK h) 1 = false ∧ e.bit (Reg.LS_BANK h) 4 = d.bit (Reg.LS_CTRL h) 0 ∧
    e.ls h = (d.ls h).started (d.bit (Reg.LS_CTRL h) 0) ((d.head h).seq + 1) ∧
    Within decisionPart (fun o => ScriptReg h o ∨ GenReg h o) d e := by
  rw [decisionPoint_eq hc] at he
  obtain ⟨hls, hcues, hwithin⟩ := choiceKept_atDecision h d
  have hrd {o : Nat} (ho : o < 0x2020000 + h * 0x100000) : (atDecision h d).rd o = d.rd o := hwithin.2 o fun hg => by have hle := hg.bounds; omega
  have hctrlLt : Reg.LS_CTRL h < 0x2020000 + h * 0x100000 := by unfold Reg.LS_CTRL; omega
  have hbankReg := hrd (o := Reg.LS_BANK h) (by unfold Reg.LS_BANK; omega)
  have hctrlReg := hrd hctrlLt
  generalize atDecision h d = c at he hls hcues hwithin hbankReg hctrlReg
  obtain ⟨hkept, hls', hbank, hpend⟩ := (bankSet_chooseBank h c).peakLatched
  generalize peakLatched h (chooseBank h c) = k at he hkept hls' hbank hpend
  have hctrl : k.bit (Reg.LS_CTRL h) 0 = d.bit (Reg.LS_CTRL h) 0 :=
    Dev.bit_congr ((hkept.2.2.2 _ fun ho => absurd ho.bounds.1 (Nat.lt_irrefl _)).trans hctrlReg) 0
  rw [hctrl] at he
  obtain ⟨hstart, hlsStart, hdecided, hbank', hpend', hon⟩ := scriptStarted_notes h (d.bit (Reg.LS_CTRL h) 0) ((d.head h).seq + 1) k
  rw [he] at hstart hlsStart hdecided hbank' hpend' hon
  have hfs : FsKept h c e := hkept.trans hstart
  refine ⟨hdecided, ?_, hpend'.trans hpend, hon, ?_, (hwithin.mono fun _ => .inr).trans (hfs.2.2.mono fun _ => .inl)⟩
  · rw [hbank', hbank, hcues, hbankReg, hfs.decisionFs_eq]
  · rw [hlsStart, hls', hls]

/-- Settles O16: by `decisionPoint_notes`; a head that is not at its decision point keeps its state by `decisionPoint_idle`. -/
theorem decisionPointChoosesBankAndStartsScript : Obligations.DecisionPointChoosesBankAndStartsScript := by
  unfold Obligations.DecisionPointChoosesBankAndStartsScript
  refine ⟨fun s h hstate hlatched hdecided hmirror => ?_, fun s h hidle => ?_⟩
  · have hmay : mayDecide s.dev h = true := by simp [mayDecide, hstate, hlatched, hdecided, hmirror]
    refine ⟨_, exec_lsDecisionPoint h s, ?_⟩
    rw [State.upd]
    obtain ⟨hdecided, hbank, hpend, hon, hls, hwithin⟩ := decisionPoint_notes hmay rfl
    generalize decisionPoint h s.dev = e at hdecided hbank hpend hon hls hwithin
    refine ⟨hdecided, hbank.trans ?_, hpend, hon, ?_⟩
    · cases latestCue (decisionFs e h) (s.dev.head h).cues <;> rfl
    · simp only [hls, LsSt.started, true_and]
      refine (hwithin.mono fun o ho => ?_).leaves
      simpa only [ScriptReg, GenReg, or_assoc] using ho
  · have hmay : mayDecide s.dev h = false := by
      unfold mayDecide
      obtain ⟨h3, h4⟩ | hlatched | hdecided | hmirror := hidle
      · simp [h3, h4]
      · simp [hlatched]
      · simp [hdecided]
      · simp [hmirror]
    exact gives_of_upd (exec_lsDecisionPoint h s) (decisionPoint_idle hmay) rfl

end Sys2Proof.Machine
